-- ==== Sys2Proof/Word.lean ====
section
/-! DEFINITION. The word types of the UQ1600: what the manual treats as bits. -/
namespace Sys2Proof

/-- A 64-bit register, special register or GTIME value (R6, R353, R515). -/
abbrev Word := BitVec 64

/-- One byte of memory or of a structure; byte 0 is at the lowest address (R5). -/
abbrev Byte := BitVec 8

/-- A structure read from memory or from the wire, lowest address first (R4, R5). -/
abbrev Bytes := List Byte

/-- The bits of an FP32 value. -/
abbrev F32 := BitVec 32

end Sys2Proof
end

