-- ==== Sys2Proof/Syntax.lean ====
section
/-! DEFINITION. The commands of the block: one constructor of `Instr` per row of spec/opcode_table.json, with the
data each command carries. A Bassaso instruction names the cluster whose prompter issues it. -/
namespace Sys2Proof

/-- A host access to BAR0 (`bar = 0`) or BAR2 (`bar = 2`): byte offset, size in bytes, value written (R6). -/
structure Access where
  bar : Nat
  off : Nat
  size : Nat
  value : Word
  deriving DecidableEq, Repr

/-- The fields of a Bassaso instruction word after OP, and the extension word of an extended pair (R355). -/
structure BWord where
  pg : Nat := 0
  pn : Bool := false
  d : Nat := 0
  a : Nat := 0
  b : Nat := 0
  c : Nat := 0
  fn : BitVec 8 := 0
  imm : BitVec 24 := 0
  ext : Option Word := none
  deriving DecidableEq, Repr

/-- The end-to-end fields of a packet that is a write: source location, destination die, number, generation
(R500, R541). `linked` is false for a write between the dies of one part, which is not filtered. -/
structure WriteHdr where
  src : Nat
  die : Nat
  tag : Nat
  gen : Nat
  linked : Bool
  deriving DecidableEq, Repr

/-- One index of a bag piece: row, SUBST, and its FP16 weight when weighted (R112). -/
structure PieceIdx where
  row : Nat
  subst : Bool
  weight : BitVec 16
  deriving DecidableEq, Repr

/-- A bag piece of a request packet (R112). -/
structure Piece where
  bag : Nat
  last : Bool
  idx : List PieceIdx
  deriving DecidableEq, Repr

/-- One request packet of a pooling request (R112): header fields and pieces. `src` is the requesting GPE. -/
structure PoolReqPkt where
  src : Nat
  ctx : Nat
  op : Nat
  gen : Nat
  handle : Nat
  ver : Nat
  mode : Nat
  weighted : Bool
  pkt : Nat
  npkt : Nat
  pieces : List Piece
  deriving DecidableEq, Repr

/-- A partial (R111). `dst` is the requesting GPE's location. The partial of a CONCAT bag carries, in place of FP32 elements,
the padded images of the rows the owner was asked for, in the order of their indices (log entry 39). -/
structure PartialPkt where
  src : Nat
  dst : Nat
  ctx : Nat
  op : Nat
  bag : Nat
  mode : Nat
  gen : Nat
  owners : Nat
  flags : Nat
  count : Nat
  value : List F32
  rows : List Bytes
  /-- TAG of its packet, which a part that passes it on leaves as it is (R505) -/
  tag : Nat
  deriving DecidableEq, Repr

/-- A delta record, parsed from its header and payload (R203). -/
structure DeltaRec where
  stream : Nat
  seq : Word
  op : Nat
  flags : Nat
  handle : Nat
  target : Nat
  row : Nat
  rowHi : Nat
  start : Nat
  nelem : Nat
  len : Nat
  /-- header bytes 20 and 21 -/
  rsv : Nat
  payload : Bytes
  deriving DecidableEq, Repr

/-- A row image forwarded by an apply point to a copy (R215). `marked` says that one copy of a migrating unit sends it
to the other, which does not forward it again (R166). -/
structure RowForward where
  handle : Nat
  ver : Nat
  row : Nat
  image : Bytes
  stream : Nat
  seq : Word
  marked : Bool
  deriving DecidableEq, Repr

/-- What a read of a granule or an SRAM word met (R475, R476, R533). -/
inductive GranuleHealth where
  | good
  | corrected
  | uncorrectable
  deriving DecidableEq, Repr

/-- What a read of an HBM granule met: attempts that failed on a command, address or data-bus parity error, and what the codes found in
the data (R475). -/
structure HbmHealth where
  parity : Nat
  code : GranuleHealth
  deriving DecidableEq, Repr

/-- A fill of a cluster's instruction cache: the stack and the granule of the script store that it reads, and what the read met (R384,
R476). -/
structure FetchIn where
  cl : Nat
  stack : Nat
  granule : Nat
  health : HbmHealth
  deriving DecidableEq, Repr

/-- A look-up instruction as the GPE takes it: its fields, and what the words of the die's override directory meet (R533). -/
structure LookupWord where
  word : BWord
  ecc : GranuleHealth
  deriving DecidableEq, Repr

/-- A request packet as it reaches an owner, with what the words of the Wings cache meet, by index (R533). -/
structure ReqIn where
  pkt : PoolReqPkt
  ecc : List (Nat × GranuleHealth)
  deriving DecidableEq, Repr

/-- A GPE operation whose timeout runs out, with what the words of the die's override directory meet in its second attempt. -/
structure OpIn where
  op : Nat
  ecc : GranuleHealth
  deriving DecidableEq, Repr

/-- A part that joins a domain: the member index it takes and the digest of its slot values (R144, R176). -/
structure Joining where
  member : Nat
  digest : BitVec 32
  deriving DecidableEq, Repr

/-- A check that failed: its number and the hash of its inputs (R537). -/
structure CheckNo where
  no : Nat
  hash : BitVec 32
  deriving DecidableEq, Repr

/-- How many checks of a row update fail (R536), and which. -/
structure UpdFails where
  count : Nat
  check : CheckNo
  deriving DecidableEq, Repr

/-- What the words of a queue entry meet in the buffers of the CFE and in the host line cache (R533). -/
structure FetchEcc where
  buffer : GranuleHealth
  line : GranuleHealth
  deriving DecidableEq, Repr

/-- A value written to the mailbox's command, with what the words of the log meet in the management SRAM (R533). -/
structure LogReadIn where
  value : BitVec 32
  ecc : GranuleHealth
  deriving DecidableEq, Repr

/-- What the Ethernet and IP headers of a datagram say (R201, R513): bytes of the frame, its VLAN tag, whether its FCS holds, whether it is a fragment
or has options or extension headers, whether its UDP checksum holds where there must be one, and the IP address it is for. -/
structure EthHdr where
  len : Nat
  tag : Option Nat
  fcsOk : Bool
  fragment : Bool
  options : Bool
  udpOk : Bool
  dstAddr : Nat
  deriving DecidableEq, Repr

/-- A Delta datagram as it reaches a port: UDP payload, priority, UDP checksum verdict, whether it came over IPv6, source,
destination UDP port, and what its words meet in the skid buffer (R201 to R205, R533). -/
structure FeedFrame where
  port : Nat
  prio : Nat
  eth : EthHdr
  v6 : Bool
  srcAddr : Nat
  srcPort : Nat
  dstPort : Nat
  ecc : GranuleHealth
  payload : Bytes
  deriving DecidableEq, Repr

/-- A Cue datagram as it reaches a port (R417). -/
structure CueFrame where
  port : Nat
  eth : EthHdr
  v6 : Bool
  srcAddr : Nat
  srcPort : Nat
  dstPort : Nat
  payload : Bytes
  deriving DecidableEq, Repr

/-- The heat a member reports for one row: reads and deltas per second (R160). -/
structure HeatRow where
  handle : Nat
  row : Nat
  reads : Nat
  deltas : Nat
  deriving DecidableEq, Repr

/-- The owner load of one die of a domain, the bytes its part has free for the storage that is to be placed (R593), and
the replica reserve of its part in bytes (R163), as the leader knows them. -/
structure DieLoad where
  loc : Nat
  load : Nat
  freeBytes : Nat
  reserve : Nat
  deriving DecidableEq, Repr

/-- A unit of migration: a bucket of a domain, which its number names, or one row (R166). -/
inductive MigUnit where
  | bucket (dom bucket : Nat)
  | row (handle row : Nat)
  deriving DecidableEq, Repr

/-! ## What a director knows of tables and placement, which messages carry too -/

namespace Machine

/-- The states of a version that is not FREED (R52). -/
inductive VState where
  | building | committing | live | retiring
  deriving DecidableEq, Repr

/-- One version (R52, R60, R61, R68, R122): number, version slot 0 to 3, fallback row, rows written so far
domain-wide, references held on this part. -/
structure Version where
  num : Nat
  slot : Nat
  st : VState
  fallback : Bytes
  written : List Nat
  refs : Nat
  /-- members that have reported a zero reference count to this leader (R177) -/
  zero : List Nat
  /-- dropped while BUILDING or COMMITTING, its storage not yet released (R595) -/
  dropped : Bool
  deriving DecidableEq, Repr

/-- A table (R43, R49, R70, R76). `made` names the TBL_CREATE that made it. -/
structure Table where
  handle : Nat
  fmt : Nat
  reloadable : Bool
  rowlen : Nat
  domain : Nat
  rows : Nat
  hints : Nat
  draining : Bool
  made : Nat
  versions : List Version
  deriving DecidableEq, Repr

/-- The lost bitmap of a RELOST bucket of one table version, as every part of the domain knows it: every row of the
bucket is lost but those kept, which were repaired or lay elsewhere (R175); `only` names a single lost row (R476). -/
structure LostSet where
  slot : Nat
  bucket : Nat
  handle : Nat
  ver : Nat
  kept : List Nat
  only : Option Nat
  deriving DecidableEq, Repr

/-- STATE of a bucket-map or override entry (R153, R154). -/
inductive MState where
  | resident | copying | inTransit | draining
  deriving DecidableEq, Repr

/-- A bucket-map entry (R153). -/
structure BEntry where
  relost : Bool
  which : Bool
  st : MState
  new : Option Nat
  homeB : Option Nat
  homeA : Option Nat
  deriving DecidableEq, Repr

/-- KIND of an override entry (R154). -/
inductive OKind where
  | replica | moved | held
  deriving DecidableEq, Repr

/-- An override entry (R154): `loc` is a location for MOVED and a replica set number for REPLICA. -/
structure Ovr where
  handle : Nat
  row : Nat
  kind : OKind
  st : MState
  pin : Bool
  which : Bool
  vmask : Nat
  loc : Nat
  epoch : Nat
  deriving DecidableEq, Repr

/-- What a leader hands to a part that rejoins a domain (R176; DESIGN CHOICE, log entry 78): the bucket entries of its copy that differ from
the start, the override entries and replica sets of the domain's tables, the tables with their versions and lost bitmaps, the members out
of the domain and being filled, and the epoch. -/
structure Welcome where
  dom : Nat
  buckets : List (Nat × BEntry)
  ovr : List Ovr
  sets : List (Nat × List Nat)
  tables : List Table
  lost : List LostSet
  excluded : List Nat
  rejoined : List Nat
  epoch : Nat
  deriving DecidableEq, Repr

end Machine

/-- A directory change carried by a chorus write (R162, R167, R169, R173). `dom` is a domain number, locations are
R153 numbers, `isB` says which home, and `flipEpoch` is the flip epoch of a unit. -/
inductive DirChange where
  | clearHome (dom bucket : Nat) (isB : Bool)
  | setHome (dom bucket : Nat) (isB : Bool) (loc : Nat)
  | relost (dom bucket : Nat)
  | moved (handle row loc vmask : Nat) (isB : Bool)
  | replica (handle row vmask : Nat) (locs : List Nat) (pin : Bool)
  | held (handle row vmask : Nat)
  | pinned (handle row : Nat) (pin : Bool)
  | clearReplica (handle row : Nat)
  | clearHeld (handle row : Nat)
  | flipEpoch (u : MigUnit) (value : Nat)
  | dropNode (dom node : Nat)
  | rejoin (dom member : Nat)
  /-- the home of a row that awaited its copy holds it -/
  | refilled (handle row : Nat)
  | epoch (dom value : Nat)
  deriving DecidableEq, Repr

/-- A chorus write: a directory change, or the image of a row for a replica (R164). -/
inductive ChorusMsg where
  | dir (c : DirChange)
  | row (f : RowForward)
  deriving DecidableEq, Repr

/-- A table command or placement message carried by a WORK packet (R47, R501). `made` names a creation, `cid` a commit. -/
inductive WorkMsg where
  | tblCreate (made : Nat) (args : Bytes)
  | tblUncreate (handle made : Nat)
  | mismatch (domain : Nat)
  | tblReserve (handle ver : Nat)
  | tblUnreserve (handle ver : Nat)
  | tblFallback (handle ver : Nat) (image : Bytes)
  | tblLoaded (handle ver first count : Nat)
  | tblCommit (cid : Nat) (at_ : Word) (tables : List (Nat × Nat))
  | loadsDone (cid node : Nat)
  | commitGo (cid : Nat)
  | tblUncommit (cid : Nat)
  | tblDrop (handle ver : Nat)
  | tblUndrop (handle ver : Nat)
  | dropFree (handle ver : Nat)
  | rowLost (handle ver row : Nat)
  | versionFree (handle ver : Nat)
  | zeroRefs (handle ver node : Nat)
  | switched (cid node : Nat) (instant : Word) (late : Bool)
  | pin (op handle row copies : Nat)
  | pinDone (handle row status : Nat)
  | startMove (u : MigUnit) (isB : Bool) (from_ to_ : Nat) (remirror : Bool)
  | takeMove (u : MigUnit) (isB : Bool) (from_ to_ : Nat) (remirror : Bool)
  | moving (u : MigUnit) (isB : Bool) (from_ to_ : Nat) (remirror : Bool) (change : Option DirChange)
  | copyTo (handle row home : Nat) (to_ : List Nat) (pin : Bool)
  | copied (handle row vmask : Nat) (to_ : List Nat) (pin full : Bool)
  | dropCopy (handle row : Nat)
  | rowFailed (handle row loc : Nat)
  | refilled (handle row : Nat)
  | draining (handle row from_ to_ : Nat)
  | welcome (w : Machine.Welcome)
  | flipped (u : MigUnit) (c : DirChange)
  | endMove (u : MigUnit)
  | lowWater (domain loc epoch : Nat)
  | reserve (domain node gib : Nat)
  deriving DecidableEq, Repr

/-- How a check's replay went: passed on the same unit; failed there and passed on another; failed on both. -/
inductive Replay where
  | same
  | other
  | failed
  deriving DecidableEq, Repr

/-- What an ATS completion says (R458). `page` and `log2` give the page covered. -/
inductive AtsResult where
  | grant (read write : Bool) (log2 : Nat) (phys : Nat)
  | ur
  | ca
  deriving DecidableEq, Repr

/-- A page request group response (R461). -/
inductive PriResult where
  | success
  | invalid
  | failure
  deriving DecidableEq, Repr

/-- A flit: its header, the verdicts of FEC and HCRC, and its payload. An IDLE or CTRL flit has no LSEQ (R497, R498, R507). -/
structure Flit where
  ctrl : Bool
  idle : Bool
  lseq : Nat
  ack : Option Nat
  fecCorrected : Bool
  fecBad : Bool
  crcBad : Bool
  first : Bool
  vc : Nat
  dl : Nat
  crSub : Nat
  crN : Nat
  payload : Bytes
  deriving DecidableEq, Repr

/-- A packet to route: destination and source locations, type, generation, number, class and the dateline
sub-channel it came in on, header CRC verdict (R500, R503). -/
structure Packet where
  dst : Nat
  src : Nat
  type : Nat
  gen : Nat
  tag : Nat
  vc : Nat
  dl : Nat
  pcrcOk : Bool
  payload : Bytes
  deriving DecidableEq, Repr

/-- A row image at its index, as a load, copy or migration carries it (R59). -/
structure RowImage where
  row : Nat
  image : Bytes
  deriving DecidableEq, Repr

/-- What a ROWS packet is for: a load, a repair load, a row of either that one copy of a migrating unit forwards to the
other, or the copy of a bucket, of a row that moves alone, or of a replica (R59, R79, R162, R166). -/
inductive RowsKind where
  | load
  | repair
  | forwarded
  | copy
  | moved
  | replica
  deriving DecidableEq, Repr

/-- The four timestamps and the correction of one PTP exchange, in ticks (R519). -/
structure PtpTimes where
  t1 : Int
  t2 : Int
  t3 : Int
  t4 : Int
  corr : Int
  deriving DecidableEq, Repr

/-- The commands of the UQ1600, one constructor for each row of spec/opcode_table.json, in its order. -/
inductive Instr where
  -- registers and package
  | registerWrite (a : Access)
  | refusedAccess (write : Bool) (a : Access)
  | edgeFailed (edge : Nat)
  | parityFailure (packet : Nat)
  -- tables
  | tblHeapWrite (v : BitVec 32)
  | tblCreate (slot : Nat) (answers : List (Nat × Option (BitVec 32 × Bool)))
  | tblLoad (slot : Nat) (allow : Bool)
  | tblCommit (slot : Nat)
  | tblDrop (slot : Nat)
  | commitInstantReached (cid : Nat)
  | commitComplete (cid : Nat)
  | versionFreed (handle ver : Nat)
  | work (h : WriteHdr) (m : WorkMsg)
  -- look-up
  | gather (cl : Nat) (w : LookupWord)
  | pool (cl : Nat) (w : LookupWord)
  | poolReq (die : Nat) (p : ReqIn)
  | granuleIn (die rid granule : Nat) (health : HbmHealth)
  | sketchDecay (die : Nat)
  | partialIn (die : Nat) (p : PartialPkt)
  | combinePartial (inPort dl : Nat) (p : PartialPkt)
  | combineWindowExpires (iod : Nat) (idx : Nat)
  | poolTimeout (die : Nat) (op : OpIn)
  | cancelAtGpe (die ctx : Nat)
  | abandonedOpNumberFreed (die op : Nat)
  | wingsEnable (die : Nat) (v : BitVec 32)
  | invalidateAll (die : Nat) (v : BitVec 32)
  | wingsStopped (die : Nat)
  | wingsStarted (die : Nat)
  | invalidateSweepEnds (die : Nat)
  -- placement
  | plcDomCfgWrite (a : Access)
  | plcDomMembersWrite (a : Access)
  | hotPeriod (reports : List (Nat × List HeatRow × List DieLoad))
  | replicaCopyConfirmed (handle row : Nat)
  | replicaReserveLowered (v : BitVec 32)
  | balanceCheck (slot : Nat) (loads : List DieLoad) (buckets : List (Nat × Nat))
  | copyConfirmed (u : MigUnit)
  | flip (u : MigUnit)
  | holdTimerExpires (u : MigUnit)
  | flipAcknowledged (u : MigUnit)
  | epochAdvance (slot : Nat)
  | lowWaterReport (slot loc epoch : Nat)
  | remirrorRetry (slot : Nat) (loads : List DieLoad)
  | rejoin (slot : Nat) (m : Joining)
  | placeLaunch (ctx : Nat)
  | pinReplicate (v : BitVec 32)
  | pinHold (v : BitVec 32)
  | unpin (v : BitVec 32)
  | pinComplete
  -- feed
  | data (f : FeedFrame)
  | resync (f : FeedFrame)
  | recordIngested (port : Nat)
  | xoffRepeat (port : Nat)
  | gapDeclaredLost (idx : Nat)
  | sendAck (idx : Nat)
  | sendNack (idx : Nat)
  | deltaApply (h : WriteHdr) (r : DeltaRec) (fails : UpdFails)
  | deltaForward (h : WriteHdr) (f : RowForward)
  | ack (src tag gen result : Nat)
  | markComplete (idx : Nat)
  | twinRecord (h : WriteHdr) (first : Bool) (r : DeltaRec)
  | pairLinkLost (idx : Nat)
  | pairReqGo (v : BitVec 32)
  | ticketProposal (h : WriteHdr) (number : Nat) (at_ : Word)
  | ticketAccepted (number : Nat)
  | ticketTimeout
  | ticketExpired
  | pairReport (h : WriteHdr) (tables : List (Nat × Nat)) (status : Nat) (finish : Word)
  | pairReportTimeout
  | feedEn (v : BitVec 32)
  | feedStopped (port : Nat)
  | feedStarted (port : Nat)
  | feedSkidWrite (a : Access)
  | feedStrmCfgWrite (a : Access)
  | qdelayRead (port : Nat)
  | rowsPacket (h : WriteHdr) (kind : RowsKind) (handle ver : Nat) (rows : List RowImage)
  | chorusWrite (h : WriteHdr) (m : ChorusMsg)
  -- arrays, vector and special functions
  | rows (cl : Nat) (i : BWord)
  | mma (cl : Nat) (i : BWord)
  | conv1 (cl : Nat) (i : BWord)
  | ewa (cl : Nat) (i : BWord)
  | drain (cl : Nat) (i : BWord)
  | residueCheckFails (cl array ctx opId : Nat) (r : Replay) (c : CheckNo)
  | vchain (cl : Nat) (i : BWord)
  | vred (cl : Nat) (i : BWord)
  | vcvt (cl : Nat) (i : BWord)
  | sfn (cl : Nat) (i : BWord)
  | smaxM (cl : Nat) (i : BWord)
  | smaxE (cl : Nat) (i : BWord)
  | smaxD (cl : Nat) (i : BWord)
  | normS (cl : Nat) (i : BWord)
  | normF (cl : Nat) (i : BWord)
  | vectorCheckFails (cl : Nat) (sfu : Bool) (ctx opId : Nat) (passed : Bool) (c : CheckNo)
  | transferCheckFails (cl ctx opId : Nat) (passed : Bool) (c : CheckNo)
  | gpeCheckFails (die src ctx op bag : Nat) (again : Bool) (c : CheckNo)
  | engineInstructionEnds (cl ctx opId : Nat)
  -- scalar, control flow and tile descriptors
  | add (cl : Nat) (i : BWord)
  | sub (cl : Nat) (i : BWord)
  | mul (cl : Nat) (i : BWord)
  | and (cl : Nat) (i : BWord)
  | or (cl : Nat) (i : BWord)
  | xor (cl : Nat) (i : BWord)
  | shl (cl : Nat) (i : BWord)
  | shr (cl : Nat) (i : BWord)
  | cmp (cl : Nat) (i : BWord)
  | sel (cl : Nat) (i : BWord)
  | li (cl : Nat) (i : BWord)
  | ld (cl : Nat) (i : BWord) (ecc : GranuleHealth)
  | st (cl : Nat) (i : BWord)
  | br (cl : Nat) (i : BWord)
  | brc (cl : Nat) (i : BWord)
  | call (cl : Nat) (i : BWord)
  | ret (cl : Nat) (i : BWord)
  | loop (cl : Nat) (i : BWord)
  | tdef (cl : Nat) (i : BWord)
  | tset (cl : Nat) (i : BWord)
  | tadv (cl : Nat) (i : BWord)
  | tbind (cl : Nat) (i : BWord)
  -- transfer
  | move (cl : Nat) (i : BWord)
  | transferRunComplete (opId : Nat) (data : Bytes)
  | chorus (cl : Nat) (i : BWord)
  | atom (cl : Nat) (i : BWord)
  -- rings and synchronisation
  | racq (cl : Nat) (i : BWord)
  | rpub (cl : Nat) (i : BWord)
  | rrel (cl : Nat) (i : BWord)
  | curtain (cl : Nat) (i : BWord)
  | waitt (cl : Nat) (i : BWord)
  | dlchk (cl : Nat) (i : BWord)
  | slotDue (ctx ring : Nat)
  | stallDeclared (ctx : Nat)
  -- control
  | safe (cl : Nat) (i : BWord)
  | yield (cl : Nat) (i : BWord)
  | fence (cl : Nat) (i : BWord)
  | trap (cl : Nat) (i : BWord)
  | exit (cl : Nat) (i : BWord)
  | cancel (ctx cl : Nat)
  | icacheMissFill (f : FetchIn)
  | scratchApertureAccess (write : Bool) (a : Access) (ecc : GranuleHealth)
  | chorusWindowWrite (a : Access)
  | groupWindowWrite (a : Access)
  -- queues
  | queueEnWritten (k : Nat) (v : BitVec 32)
  | queueStarted (k : Nat)
  | queueConfigWrite (a : Access)
  | sqDb (k : Nat) (v : BitVec 32)
  | cqDb (k : Nat) (v : BitVec 32)
  | doorbellAccessDropped (k : Nat) (write : Bool) (a : Access)
  | entryFetched (k : Nat) (entry : Bytes) (ecc : FetchEcc)
  | entryReread (k : Nat) (entry : Bytes)
  | launch (k : Nat) (args segs : Bytes)
  | launchStarts (ctx : Nat)
  | segmentDelivered (ctx seg : Nat) (bytes : Bytes)
  | copy (k : Nat)
  | queueFence (k : Nat)
  | query (k : Nat)
  | nop (k : Nat)
  | unassignedOpcode (k : Nat)
  | scriptLoad (k : Nat)
  | scriptPatch (k : Nat)
  | scriptDrop (k : Nat)
  | completionRecord (k n : Nat)
  | intmodTimer (k : Nat)
  | cueRequest (f : CueFrame)
  | reassemblyTimeout (ctx : Nat)
  | messageNameExpires (src srcPort msgid : Nat)
  | cueReply (ctx : Nat)
  | cueBindWrite (a : Access)
  | deadlineReached (ctx : Nat)
  | understudyStart (ctx : Nat)
  | destroyRecord (k : Nat)
  -- host
  | hostLinkUp (p width rate : Nat) (cache mem : Bool)
  | hostLinkDown (p : Nat)
  | hdmDecoderCommit (p base : Nat)
  | hstHdmWrite (v : BitVec 32)
  | atsCompletion (x : Nat) (r : AtsResult)
  | atsTimeout (x : Nat)
  | pageRequestResponse (g : Nat) (r : PriResult)
  | priTimeout (g : Nat)
  | invalidateRequest (p itag pasid page log2 : Nat) (global : Bool)
  | invalidateCompletion (p itag : Nat)
  | hostSnoop (line : Nat)
  | cxlMemAccess (write : Bool) (addr : Nat) (bytes : Bytes) (poison keeps : Bool)
  | bisnpComplete (line : Nat) (dirty : Option Bytes)
  | patrolScrub (k granule : Nat) (h : HbmHealth)
  | stackFailed (k : Nat)
  -- links
  | portTrained (n lanes : Nat)
  | ident (n node port map : Nat)
  | flit (n : Nat) (f : Flit)
  | retryReq (n lseq : Nat)
  | retryBudgetExhausted (n : Nat)
  | forward (inPort : Option Nat) (p : Packet)
  | e2eTimeout (dst tag : Nat)
  | lnkNodeWrite (v : BitVec 32)
  | lnkTopoWrite (v : BitVec 32)
  | eEn (v : BitVec 32)
  | oEn (v : BitVec 32)
  | twinEn (v : BitVec 32)
  | npFrame (p : Nat) (tag : Option Nat) (len : Nat) (fcsOk : Bool) (query : Bool) (target : Nat) (v6 : Bool)
  | pfcFrameReceived (p : Nat) (prios : BitVec 8) (quanta : List Nat)
  | npLinkDown (p : Nat)
  | roceValidWrite (a : Access)
  | roceReadResponse (c : Nat) (psn : Nat) (rows : List RowImage)
  | roceAckTimeout (c : Nat)
  | roceNak (c : Nat)
  | congestionNotification (c : Nat)
  | roceRateRecovery (c : Nat)
  -- time
  | marker (periods : Nat)
  | refclkLost
  | timeUpdate (src marker : Nat) (gtime inc : Word) (state : Nat)
  | updateRequest
  | standbyTakeover (candidates : List Nat)
  | ptpMessage (p : Nat) (sync : Bool) (t : Option PtpTimes)
  | holdover
  -- faults and management
  | selfTestInterval (unit : Nat) (passed : Bool)
  | unitFenced (unit : Nat)
  | watchListExpiry (unit : Nat)
  | suspect (h : WriteHdr) (node : Nat) (portsFailed : Bool)
  | probe (h : WriteHdr) (node : Nat)
  | probeTimeout (node : Nat)
  | suspectReportTimeout (node : Nat)
  | lost (h : WriteHdr) (node : Nat)
  | watchdogExpired (core : Nat)
  | logRead (v : LogReadIn)
  | sensorRead (v : BitVec 32)
  | otpWrite (v : BitVec 32) (readBack : Bool)
  | dump (v : BitVec 32)
  | shutdown (v : BitVec 32)
  | mbFence (v : BitVec 32)
  | selftest (v : BitVec 32) (passed : Bool)
  | mctpControl (pcie : Bool) (code : Nat) (eid : Nat)
  | pldmSensorRead (pcie : Bool) (sensor : Option Nat)
  | pldmShutdown (pcie : Bool)
  | pldmReset (pcie : Bool)
  | requestUpdate (pcie : Bool)
  | passComponentTable (pcie : Bool) (comp : Nat)
  | updateComponent (pcie : Bool) (comp : Nat)
  | firmwareDataReceived (pcie : Bool) (bytes : Bytes) (last : Bool)
  | activateFirmware (pcie : Bool)
  | getVersion (pcie : Bool)
  | getCapabilities (pcie : Bool)
  | negotiateAlgorithms (pcie : Bool) (offersP256 offersSha256 : Bool)
  | getDigests (pcie : Bool)
  | getCertificate (pcie : Bool) (slot offset len : Nat)
  | challenge (pcie : Bool) (slot : Nat) (nonce : Bytes)
  | getMeasurements (pcie : Bool) (index : Nat) (nonce : Bytes)
  -- power and resets
  | rstNLow
  | rstNRises (straps : BitVec 12) (flash : Bytes) (goodFirst goodOther : List Bool)
  | ready
  | warmReset (v : BitVec 32)
  | warmResetDone
  | functionLevelReset (p : Nat) (perst : Bool)
  | flrDone
  | railFault (rail : Nat)
  | railsFall
  | sensorUpdate (sensor : Nat) (value : Int)
  | overTemperature (sensor : Nat)
  | powerLimit
  | throttleN (high : Bool)
  | throttleShutdown
  | pasidAtsPriEnable (p : Nat) (pasid ats : Bool) (pri : Option Nat)
  | npLinkUp (p : Nat)
  | roceAcknowledgement (c psn : Nat)
  | bulkEngineReadData (slot n : Nat) (data : Bytes)
  | globalPersistentFlush (p : Nat)
  | probeAnswer (h : WriteHdr) (node : Nat) (alive : Bool)
  | setEventReceiver (pcie : Bool) (eid : Nat)
  | i3cDynamicAddress (addr : Nat)
  deriving DecidableEq, Repr

end Sys2Proof
end

