-- ==== Sys2Proof/Decode.lean ====
section
/-! DEFINITION. Command words. No row of the command table gives a command bits: a command comes from a bus, a link, a pin or an
engine with the operands its constructor names, so no table word spells one. The words of the block's own Bassaso programs have the
fields of R355 and the opcodes of R358. -/
namespace Sys2Proof

/-- The command that a table word spells: none, since the table gives no row any bits. -/
def decodeTableWord (_nbits _w : Nat) : Option Instr := none

/-! ## Bassaso words (R355, R358) -/

/-- Bits of a word: n of them from bit k on. -/
def wordField (w k n : Nat) : Nat := w / 2 ^ k % 2 ^ n

/-- The fields of an instruction word: guard and its inversion, D, A, B, C, FN, IMM, and the extension word that follows when bit 63
is set (R355). -/
def fieldsOf (w : Nat) (next : Option Nat) : BWord where
  pg := wordField w 53 3
  pn := wordField w 52 1 == 1
  d := wordField w 47 5
  a := wordField w 42 5
  b := wordField w 37 5
  c := wordField w 32 5
  fn := BitVec.ofNat 8 (wordField w 24 8)
  imm := BitVec.ofNat 24 (wordField w 0 24)
  ext := if wordField w 63 1 = 1 then next.map (BitVec.ofNat 64) else none

/-- The instruction of a cluster that an opcode names; `ecc` is what the reads of scratch or of the directory meet. Every other opcode
is unassigned (R358). -/
def instrOf (cl op : Nat) (i : BWord) (ecc : GranuleHealth) : Option Instr :=
  match op with
  | 0x00 => some (.add cl i)
  | 0x01 => some (.sub cl i)
  | 0x02 => some (.mul cl i)
  | 0x03 => some (.and cl i)
  | 0x04 => some (.or cl i)
  | 0x05 => some (.xor cl i)
  | 0x06 => some (.shl cl i)
  | 0x07 => some (.shr cl i)
  | 0x08 => some (.cmp cl i)
  | 0x09 => some (.sel cl i)
  | 0x0A => some (.li cl i)
  | 0x0B => some (.ld cl i ecc)
  | 0x0C => some (.st cl i)
  | 0x0D => some (.br cl i)
  | 0x0E => some (.brc cl i)
  | 0x0F => some (.call cl i)
  | 0x10 => some (.ret cl i)
  | 0x11 => some (.loop cl i)
  | 0x20 => some (.tdef cl i)
  | 0x21 => some (.tset cl i)
  | 0x22 => some (.tadv cl i)
  | 0x28 => some (.rows cl i)
  | 0x29 => some (.mma cl i)
  | 0x2A => some (.conv1 cl i)
  | 0x2B => some (.ewa cl i)
  | 0x2C => some (.drain cl i)
  | 0x38 => some (.vchain cl i)
  | 0x39 => some (.vred cl i)
  | 0x3A => some (.vcvt cl i)
  | 0x40 => some (.sfn cl i)
  | 0x41 => some (.smaxM cl i)
  | 0x42 => some (.smaxE cl i)
  | 0x43 => some (.smaxD cl i)
  | 0x44 => some (.normS cl i)
  | 0x45 => some (.normF cl i)
  | 0x48 => some (.tbind cl i)
  | 0x49 => some (.gather cl ⟨i, ecc⟩)
  | 0x4A => some (.pool cl ⟨i, ecc⟩)
  | 0x50 => some (.move cl i)
  | 0x51 => some (.chorus cl i)
  | 0x52 => some (.atom cl i)
  | 0x58 => some (.racq cl i)
  | 0x59 => some (.rpub cl i)
  | 0x5A => some (.rrel cl i)
  | 0x5B => some (.curtain cl i)
  | 0x5C => some (.waitt cl i)
  | 0x5D => some (.dlchk cl i)
  | 0x60 => some (.safe cl i)
  | 0x61 => some (.yield cl i)
  | 0x62 => some (.fence cl i)
  | 0x63 => some (.trap cl i)
  | 0x64 => some (.exit cl i)
  | _ => none

/-- The instruction that a word of a cluster's program spells, with the word after it; none when the opcode is unassigned or an
extension word is missing. -/
def decodeBassaso (cl w : Nat) (next : Option Nat) (ecc : GranuleHealth) : Option Instr :=
  if wordField w 63 1 = 1 ∧ next.isNone then none else instrOf cl (wordField w 56 7) (fieldsOf w next) ecc

/-- The opcode and the fields of an instruction of a program. -/
def opcodeOf : Instr → Option (Nat × BWord)
  | .add _ i => some (0x00, i)
  | .sub _ i => some (0x01, i)
  | .mul _ i => some (0x02, i)
  | .and _ i => some (0x03, i)
  | .or _ i => some (0x04, i)
  | .xor _ i => some (0x05, i)
  | .shl _ i => some (0x06, i)
  | .shr _ i => some (0x07, i)
  | .cmp _ i => some (0x08, i)
  | .sel _ i => some (0x09, i)
  | .li _ i => some (0x0A, i)
  | .ld _ i _ => some (0x0B, i)
  | .st _ i => some (0x0C, i)
  | .br _ i => some (0x0D, i)
  | .brc _ i => some (0x0E, i)
  | .call _ i => some (0x0F, i)
  | .ret _ i => some (0x10, i)
  | .loop _ i => some (0x11, i)
  | .tdef _ i => some (0x20, i)
  | .tset _ i => some (0x21, i)
  | .tadv _ i => some (0x22, i)
  | .rows _ i => some (0x28, i)
  | .mma _ i => some (0x29, i)
  | .conv1 _ i => some (0x2A, i)
  | .ewa _ i => some (0x2B, i)
  | .drain _ i => some (0x2C, i)
  | .vchain _ i => some (0x38, i)
  | .vred _ i => some (0x39, i)
  | .vcvt _ i => some (0x3A, i)
  | .sfn _ i => some (0x40, i)
  | .smaxM _ i => some (0x41, i)
  | .smaxE _ i => some (0x42, i)
  | .smaxD _ i => some (0x43, i)
  | .normS _ i => some (0x44, i)
  | .normF _ i => some (0x45, i)
  | .tbind _ i => some (0x48, i)
  | .gather _ w => some (0x49, w.word)
  | .pool _ w => some (0x4A, w.word)
  | .move _ i => some (0x50, i)
  | .chorus _ i => some (0x51, i)
  | .atom _ i => some (0x52, i)
  | .racq _ i => some (0x58, i)
  | .rpub _ i => some (0x59, i)
  | .rrel _ i => some (0x5A, i)
  | .curtain _ i => some (0x5B, i)
  | .waitt _ i => some (0x5C, i)
  | .dlchk _ i => some (0x5D, i)
  | .safe _ i => some (0x60, i)
  | .yield _ i => some (0x61, i)
  | .fence _ i => some (0x62, i)
  | .trap _ i => some (0x63, i)
  | .exit _ i => some (0x64, i)
  | _ => none

/-- The words of an opcode with its fields. -/
def bassasoWords (op : Nat) (i : BWord) : Nat × Option Nat :=
  (i.ext.elim 0 (fun _ => 2 ^ 63) + op * 2 ^ 56 + i.pg * 2 ^ 53 + (if i.pn then 2 ^ 52 else 0) + i.d * 2 ^ 47 + i.a * 2 ^ 42 + i.b * 2 ^ 37
    + i.c * 2 ^ 32 + i.fn.toNat * 2 ^ 24 + i.imm.toNat, i.ext.map BitVec.toNat)

/-- The words of an instruction of a program. -/
def encodeBassaso (i : Instr) : Option (Nat × Option Nat) := (opcodeOf i).map (fun e => bassasoWords e.1 e.2)

end Sys2Proof
end

