-- ==== Sys2Proof/Machine/State.lean ====
section
/-! DEFINITION. The state of one UQ1600 part: plain data, every piece of state the spec gives it, and the queue of
waiting commands. Every BAR register is held by its address in `regs`, or computed from the typed state below. -/
namespace Sys2Proof.Machine

/-- A command that the part cannot carry out stops the machine only here. Raised by no meaning of this model: every
row of the table has an effect in the spec, and a command whose event cannot occur in the present state leaves the
state as it is. Safe: nothing can be proved of hardware from a stop that is never reached. -/
inductive Fault where
  | never
  deriving DecidableEq, Repr

/-- Why a command has no meaning. -/
inductive Refusal where
  /-- Raised by an arm of `exec` that is not written yet; safe. -/
  | notModelled (mnemonic : String)
  deriving DecidableEq, Repr

abbrev Outcome (σ φ ρ : Type) := Host.Outcome σ φ ρ

/-! ## Memory -/

/-- Sparse byte memory: addresses strictly rising, no entry that equals what an unlisted address reads as. -/
abbrev Mem := List Host.Cell

/-- What an unlisted address reads as: HBM reads zero after cold reset (R479); scratch, whose contents at power-up
no rule gives, reads zero by choice (log entry 4). -/
def Mem.blank : Byte := 0

/-- Sparse register file by BAR address (BAR2 is numbered from 2^28): addresses rising, no entry that equals its
register's reset value. -/
abbrev Bank := List (Nat × Word)

/-! ## Power, resets and pins (14_power_start.md) -/

/-- DEV_STAT.STAGE (R590). -/
inductive Stage where
  | reset | rom | firmware | training | zeroing | ready | strapFault | recovery
  deriving DecidableEq, Repr

/-- Power, reset and pin state (R566 to R582, R590, R591). -/
structure Power where
  powered : Bool
  rstN : Bool
  stage : Stage
  /-- DEV_STAT.LAST_RESET: 0 cold, 1 warm, 2 function-level -/
  lastReset : Nat
  straps : BitVec 12
  /-- level of THROTTLE_N (OB5) in service -/
  throttleN : Bool
  /-- GTIME at which THROTTLE_N fell -/
  thrSince : Word
  thrPower : Bool
  /-- sensors whose throttle threshold is passed and not cleared -/
  thrSensors : List Nat
  /-- sensors whose alert threshold is passed and not cleared (ALERT_THERM_N) -/
  thermAlert : List Nat
  /-- stacks under doubled refresh (MEM_STAT.REFRESH2X) -/
  refresh2x : List Nat
  /-- latest reading of each sensor ID (R548) -/
  sensors : List (Nat × Int)
  gaspN : Bool
  /-- code driven on OB0 to OB11 in a last gasp (R578) -/
  gaspCode : Option Nat
  /-- ALERT_FATAL_N asserted (R577) -/
  fatal : Bool
  /-- this part has declared itself lost (R542) -/
  lost : Bool
  warm : Bool
  /-- a warm reset requested while an FLR runs (R571) -/
  warmWaits : Bool
  /-- host ports whose function has an FLR in progress -/
  flr : List Nat
  /-- FLRs absorbed into a running warm reset (R571) -/
  flrAbsorbed : List Nat
  deriving DecidableEq, Repr

/-! ## Tables (02_tables.md) -/

/-- A load accepted and not complete (R64, R595, R596). `next` counts the rows read and sent; a load that has `ended`
sends no more and has rows that are not acknowledged. -/
structure Load where
  slot : Nat
  n : Nat
  handle : Nat
  ver : Nat
  source : Nat
  fallback : Bool
  repair : Bool
  first : Nat
  count : Nat
  addr : Nat
  stride : Nat
  conn : Nat
  next : Nat
  ended : Bool
  /-- the fallback row that a FALLBACK load replaces, until it has not failed (R47) -/
  undo : Bytes
  deriving DecidableEq, Repr

/-- What one member reports of a commit's switch (R65). -/
structure Switched where
  node : Nat
  instant : Word
  late : Bool
  deriving DecidableEq, Repr

/-- A commit that has passed its checks (R64 to R66). `own` is its queue command on the issuing part. A part switches
once the issuing part has told it that every load accepted before has finished (`go`). -/
structure Commit where
  cid : Nat
  own : Option (Nat × Nat)
  instant : Word
  tables : List (Nat × Nat)
  /-- the named versions that have neither switched nor been freed here -/
  waiting : List (Nat × Nat)
  /-- loads of this part accepted before the commit that must finish first, as (slot, n) -/
  loads : List (Nat × Nat)
  /-- parts whose loads have finished, as the issuing part knows them -/
  ready : List Nat
  go : Bool
  cancelled : Bool
  /-- the instant had passed when the commit or the last accepted load's end reached this part -/
  late : Bool
  here : Option Switched
  reports : List Switched
  usedTicket : Bool
  /-- the placement domain of its tables -/
  dom : Nat
  deriving DecidableEq, Repr

/-- One stored copy of a row on a die of this part: its granules, padding included (R45). `alone` says that the copy is
that of a row with a MOVED entry or a replica, not of its bucket (R594). -/
structure RowCopy where
  die : Nat
  handle : Nat
  ver : Nat
  row : Nat
  image : Bytes
  alone : Bool
  deriving DecidableEq, Repr

/-! ## Look-up (03_lookup_pooling.md) -/

/-- One index of an operation (R95, R97): row, whether the fallback row stands in, weight, and its place: in the index array
at the requester, packet number × 65,536 and place in the packet at the owner. -/
structure IdxEntry where
  row : Nat
  subst : Bool
  weight : BitVec 16
  pos : Nat
  deriving DecidableEq, Repr

/-- A bag of an operation at the requester (R98, R114). -/
structure Bag where
  num : Nat
  /-- position of its first index, and how many index positions it covers -/
  first : Nat
  len : Nat
  idx : List IdxEntry
  asked : List Nat
  got : Nat
  value : List F32
  /-- records of a CONCAT bag, by position -/
  recs : List (Nat × Bytes)
  count : Nat
  flags : Nat
  done : Bool
  deriving DecidableEq, Repr

/-- A GATHER or POOL in flight at the GPE of a die (R92, R94, R100 to R102, R119). -/
structure GpeOp where
  num : Nat
  ctx : Nat
  cl : Nat
  desc : Nat
  mode : Nat
  raw : Bool
  handle : Nat
  ver : Nat
  out : Nat
  ostride : Nat
  flg : Nat
  ring : Option Nat
  perslot : Nat
  bags : List Bag
  gen : Nat
  attempt : Nat
  fail : Option Nat
  rows : Nat
  /-- directory epoch of the latest resolution (R169) -/
  epoch : Nat
  /-- GTIME of the latest send or arrival of the attempt (the timer of R119) -/
  timer : Word
  /-- ring slots published so far -/
  slots : Nat
  /-- set when the operation was abandoned by a cancel; the number is kept until the timeout (R102) -/
  abandoned : Option Word
  deriving DecidableEq, Repr

/-- One exact or FP32 element lane of an owner (R105 to R109, R104 for MAX). -/
inductive Lane where
  | epa (v : Int)
  | f32 (v : F32)
  /-- MAX over exact values in units of 2^-50; `neg0` tells −0 from +0; `none` before the first value -/
  | best (v : Option (Int × Bool))
  deriving DecidableEq, Repr

/-- Granules of a row that an owner has added to a bag: the read they came from, if they came from HBM, the index, the row's
image and which granules of it (R120, R121). -/
structure Term where
  read : Option Nat
  entry : IdxEntry
  image : Bytes
  granules : List Nat
  deriving DecidableEq, Repr

/-- A bag's sum at an owner: the lanes are the sums of the terms in the order they were added. `last` is the packet of
the piece marked LAST. -/
structure OwnBag where
  bag : Nat
  last : Option Nat
  terms : List Term
  count : Nat
  flags : Nat
  redone : Bool
  /-- the rows summed so far, kept so that the bag can be summed again once (R536) -/
  items : List IdxEntry
  deriving DecidableEq, Repr

/-- A pooling request served by an owner GPE (R112). -/
structure OwnReq where
  die : Nat
  src : Nat
  ctx : Nat
  op : Nat
  gen : Nat
  handle : Nat
  ver : Nat
  mode : Nat
  weighted : Bool
  /-- packets of the request that have come, and how many it has -/
  pkts : List Nat
  npkt : Nat
  bags : List OwnBag
  deriving DecidableEq, Repr

/-- A row read in progress at an owner (R120, R121): the image is fixed at the first granule, so every granule
comes from one state of the row (R71). -/
structure RowRead where
  id : Nat
  die : Nat
  src : Nat
  ctx : Nat
  op : Nat
  bag : Nat
  entry : IdxEntry
  image : Option Bytes
  /-- the copy it reads has been freed, so that it is not offered to the cache (R125) -/
  stale : Bool
  left : List Nat
  deriving DecidableEq, Repr

/-- The states of a Wings cache (R128). -/
inductive WState where
  | off | starting | on | stopping
  deriving DecidableEq, Repr

/-- A row held in a Wings cache (R122), in order of admission. -/
structure WRow where
  set : Nat
  handle : Nat
  row : Nat
  slot : Nat
  ways : Nat
  image : Bytes
  deriving DecidableEq, Repr

/-- One die's Wings cache and frequency sketch (R122 to R130). -/
structure Wings where
  st : WState
  pendEnable : Bool
  pendDisable : Bool
  invBusy : Bool
  /-- sets that the running sweep has passed (R129) -/
  swept : Nat
  rows : List WRow
  /-- sketch counters that are not zero, by array × 2^20 + index -/
  sketch : List (Nat × Nat)
  /-- owner reads since the latest halving -/
  reads : Nat
  deriving DecidableEq, Repr

/-- One die's GPE. -/
structure Gpe where
  ops : List GpeOp
  /-- generation given to the latest operation -/
  gen : Nat
  /-- the last generation of an operation number that has ended, and whether a cancel ended it (R102) -/
  ended : List (Nat × Nat × Bool)
  /-- clusters that stall for a place, each with its context and PC, and the cluster granted last (R30, R92) -/
  waiting : List (Nat × Nat × Nat)
  granted : Nat
  /-- request packets that wait for the owner side, and the requester's location granted last (R30, R92) -/
  asked : List PoolReqPkt
  askedLast : Nat
  wings : Wings
  /-- owner reads in the running heavy-hitter period (R195) -/
  load : Nat
  /-- heavy-hitter counts of the running period: handle, row, owner reads, applied deltas -/
  heat : List (Nat × Nat × Nat × Nat)
  /-- when the latest heavy-hitter period ended -/
  hotAt : Option Word
  /-- when the low water of a domain slot was reported last -/
  lowAt : List (Nat × Word)
  deriving DecidableEq, Repr

/-- A partial held in the combine buffer of an I/O die (R115). -/
structure Held where
  iod : Nat
  p : PartialPkt
  outPort : Nat
  until_ : Word
  /-- the port it came in on and its sub-channel there (R503) -/
  inPort : Nat
  dl : Nat
  deriving DecidableEq, Repr

/-! ## Placement (04_placement.md) -/

/-- One die's copy of the domain directories (R152): bucket entries that differ from R150's start, by (slot,
bucket), override entries, the replica sets in use by number (R155), and the epochs announced to this die's GPE by
slot (R169). -/
structure Dir where
  buckets : List ((Nat × Nat) × BEntry)
  ovr : List Ovr
  sets : List (Nat × List Nat)
  epochs : List (Nat × Nat)
  /-- rows of MIRRORED tables of which one home (B or A) still awaits its copy from the other, as (handle, row, B); that home is none yet
  (R77, R78, R173, R174; log entry 20) -/
  refill : List (Nat × Nat × Bool)
  deriving DecidableEq, Repr

/-- A domain slot of the part (R142, R189 to R191). -/
structure Dom where
  number : Nat
  log2 : Nat
  valid : Bool
  mismatch : Bool
  members : BitVec 256
  /-- members declared lost and not rejoined -/
  excluded : List Nat
  /-- members that have rejoined and are being filled (R176) -/
  rejoined : List Nat
  epoch : Nat
  /-- low-water reports held by the leader: location, epoch -/
  low : List (Nat × Nat)
  /-- die loads and row rates of the last complete heavy-hitter period, as the leader knows them -/
  loads : List DieLoad
  heat : List HeatRow
  /-- when this part, as leader, last advanced the epoch, checked balance and tried to re-mirror -/
  epochAt : Option Word
  balAt : Option Word
  mirrorAt : Option Word
  deriving DecidableEq, Repr

/-- A write held at the authority of a unit in IN_TRANSIT (R166). -/
inductive HeldWrite where
  | delta (h : WriteHdr) (r : DeltaRec)
  | forward (h : WriteHdr) (f : RowForward)
  | rows (h : WriteHdr) (kind : RowsKind) (handle ver : Nat) (rows : List RowImage)
  deriving DecidableEq, Repr

/-- A running migration with this part as authority or leader (R166 to R169, R174). -/
structure Mig where
  dom : Nat
  unit : MigUnit
  which : Bool
  from_ : Nat
  to_ : Nat
  st : MState
  returns : Nat
  holdUntil : Option Word
  held : List HeldWrite
  /-- TAGs of forwarded writes that N has not acknowledged -/
  fwd : List Nat
  /-- the directory change of the flip -/
  change : Option DirChange
  flipEpoch : Option Nat
  remirror : Bool
  deriving DecidableEq, Repr

/-- Replicas of a row being created (R162): the home that copies, the version slots copied, and whether the leader has
been told that every target holds the row. -/
structure RepJob where
  handle : Nat
  row : Nat
  home : Nat
  vmask : Nat
  targets : List Nat
  pin : Bool
  told : Bool
  /-- the reserve of some part had no room for a replica (R163) -/
  full : Bool
  deriving DecidableEq, Repr

/-- The pin mailbox (R184, R185, R192). -/
structure Pin where
  busy : Bool
  op : Nat
  handle : Nat
  row : Nat
  copies : Nat
  status : Nat
  /-- outcome decided; reported when the entry has flipped everywhere -/
  outcome : Nat
  /-- carried to a leader on another part, which has not said that it is done -/
  remote : Bool
  deriving DecidableEq, Repr

/-- A pin that this part carries out as leader for another member (R184). -/
structure PinJob where
  node : Nat
  handle : Nat
  row : Nat
  deriving DecidableEq, Repr

/-! ## Feed (05_update_feed.md) -/

/-- The states of a port's feed ingest (R231). -/
inductive FState where
  | off | starting | on | stopping
  deriving DecidableEq, Repr

/-- A record in an ingest queue, with the stream entry it belongs to, which of the stream's records it is in the order in
which they were queued, when that was, and its size. -/
structure QRec where
  idx : Nat
  ord : Nat
  r : DeltaRec
  bytes : Nat
  at_ : Word
  deriving DecidableEq, Repr

/-- One port's feed ingest. -/
structure FPort where
  st : FState
  pendEnable : Bool
  pendDisable : Bool
  paused : Bool
  queue : List QRec
  /-- when the pause was sent last -/
  xoffAt : Option Word
  deriving DecidableEq, Repr

/-- A record that the feed engine has sent to its apply point and that is not yet counted in APPLIED. -/
structure Flight where
  seq : Word
  handle : Nat
  row : Nat
  /-- directory epoch of the routing (R169) -/
  epoch : Nat
  /-- the stream it belongs to -/
  stream : Nat
  deriving DecidableEq, Repr

/-- A stream-table entry (R198 to R209, R236 to R238). -/
structure Strm where
  valid : Bool
  pairFwd : Bool
  port : Nat
  stream : Nat
  gapUs : Nat
  ackUs : Nat
  nackUs : Nat
  active : Bool
  next : Word
  /-- APPLIED as a warm reset found it, until a RESYNC (R243, log entry 87) -/
  floor : Option Word
  /-- records held behind a gap, by rising number: port, record, bytes -/
  held : List (Nat × DeltaRec × Nat)
  /-- when the open gap opened; `none` when no gap is open -/
  gap : Option Word
  /-- source of the latest frame: IPv6, address, UDP port, and the port it came in on (2 and above: none) -/
  v6 : Bool
  src : Nat
  srcPort : Nat
  lastPort : Nat
  stamp : Word
  /-- records queued so far -/
  queued : Nat
  flight : List Flight
  /-- MARK records waiting for the earlier records -/
  marks : List Word
  mark : Word
  discards : Nat
  lastDisc : Nat
  /-- forwarding to the twin has stopped on a lost pair link, until a RESYNC (R219) -/
  pairLost : Bool
  /-- records forwarded and not acknowledged by the twin -/
  twin : List Word
  /-- since when the twin has answered none of them -/
  twinAt : Option Word
  /-- the next record forwarded is the first since a RESYNC -/
  twinFirst : Bool
  /-- the ACK body fields last sent, so that a change can be seen (R206) -/
  lastAck : List Nat
  dup : Word
  stale : Word
  lostRow : Word
  noTable : Word
  range : Word
  badOp : Word
  nonfinite : Word
  saturated : Word
  recCrc : Word
  gapLost : Word
  appliedN : Word
  /-- when the latest periodic ACK and the latest NACK of the open gap were sent -/
  ackAt : Option Word
  nackAt : Option Word
  deriving DecidableEq, Repr

/-- The state of the commit ticket (R228, R241). -/
inductive Ticket where
  | none | armed | used | expired
  deriving DecidableEq, Repr

/-- A commit report of one side (R230). -/
structure PairRep where
  tables : List (Nat × Nat)
  status : Nat
  finish : Word
  deriving DecidableEq, Repr

/-- The pair state (R228 to R230, R241). -/
structure Pair where
  ticket : Ticket
  fromTwin : Bool
  number : Nat
  at_ : Word
  /-- a proposal sent and not answered: number, instant, GTIME sent -/
  proposal : Option (Nat × Word × Word)
  own : Option PairRep
  ownAt : Word
  twin : Option PairRep
  result : Nat
  status : Nat
  skew : BitVec 32
  deriving DecidableEq, Repr

/-! ## Contexts and clusters (06 to 09) -/

/-- An active loop (R365, R366): first and last word of the body, iterations remaining. -/
structure LoopEnt where
  first : Nat
  last : Nat
  left : Word
  deriving DecidableEq, Repr

/-- The accumulator block that one array holds: its number in the fold and its entries by row and column (R245,
R255). -/
structure AccPart where
  array : Nat
  block : Nat
  ent : List (List F32)
  /-- the entries before the latest pass, and before the two latest (R271) -/
  prev : List (List F32)
  prev2 : List (List F32)
  deriving DecidableEq, Repr

/-- A row of elements with its scale bytes, one for each block of 32 of an MX format, and the residue code of each element (R245,
R270). An element that is not listed is zero. -/
structure ElemRow where
  el : List Nat
  sc : List Nat
  res : List Nat
  deriving DecidableEq, Repr

/-- The registers of an array (R245, R271): the active and the shadow stationary registers of each cell row, the streaming rows of
the step that the input buffer holds, and the row in the streaming registers of each cell row. `loaded` is the context whose ROWS
loaded the shadow registers, with the block and the slice of that pass (R258). -/
structure ArrayRegs where
  active : List ElemRow
  shadow : List ElemRow
  input : List ElemRow
  stream : List ElemRow
  loaded : Option (Nat × Nat × Nat)
  deriving DecidableEq, Repr

/-- The accumulators held for a context (R254, R261, R262): shape, FP32 class or INT32, the partials of every block, the
SAT and OVF flags carried in them, and the history of a CONV1 ring (R268). -/
structure Acc where
  m : Nat
  n : Nat
  isInt : Bool
  parts : List AccPart
  flags : Nat
  ring : Option Nat
  /-- rows of the ring, latest last -/
  history : List ElemRow
  deriving DecidableEq, Repr

/-- The engine classes (R359). -/
inductive EClass where
  | arr | vec | sfu | lk | te | ring
  deriving DecidableEq, Repr

/-- A byte range of the issuing cluster's scratch, as the context names it: start, length (R360). -/
structure Range where
  off : Nat
  len : Nat
  deriving DecidableEq, Repr

/-- The runs of a MOVE or COPY (R372, R463). A space is 0 FRAME, 1 PEER, 2 DEV, 3 HOST, 4 RING, 5 REPLY. -/
structure Xfer where
  src : Nat
  dst : Nat
  srcPeer : Nat
  dstPeer : Nat
  srcRing : Nat
  dstRing : Nat
  endFlag : Bool
  len0 : Nat
  cnt : List Nat
  sstr : List Int
  dstr : List Int
  srcAddr : Nat
  dstAddr : Nat
  /-- runs wholly written: the progress mark -/
  mark : Nat
  /-- bytes of the last run -/
  last : Nat
  /-- bytes written to the present destination slot -/
  dstFill : Nat
  deriving DecidableEq, Repr

/-- The engine instructions of R359. -/
inductive EKind where
  | rows | mma | conv1 | ewa | drain
  | vchain | vred | vcvt | sfn | smaxM | smaxE | smaxD | normS | normF
  | gather | pool | move | chorus | atom
  | rpub | rrel | curtain
  deriving DecidableEq, Repr

/-- An engine instruction issued and not ended (R359 to R362): its operands as they stood at issue, its footprint, and
how far it has come. -/
structure EngOp where
  id : Nat
  cls : EClass
  kind : EKind
  i : BWord
  /-- tD, tA, tB, tC at issue -/
  t : List (BitVec 128)
  /-- sD, sA, sB, sC at issue, and the register that SMAX.E names for W -/
  x : List Word
  /-- the descriptor, read once at issue (R361) -/
  desc : Bytes
  /-- GTIME at issue -/
  at_ : Word
  reads : List Range
  writes : List Range
  /-- rows taken from the slots of a source ring -/
  got : Bytes
  /-- output still to be put into ring slots, once it is computed -/
  out : Option Bytes
  flags : Nat
  status : Nat
  /-- scalar register that an ATOM fills -/
  dreg : Option Nat
  xfer : Option Xfer
  /-- operation number at the GPE, for GATHER and POOL -/
  gpe : Option Nat
  /-- PC of the instruction -/
  pc : Nat
  /-- a check failed on every unit: status ST_AR_CHECK or ST_RAS_CHECK (R272, R310, R536) -/
  failed : Option Nat
  deriving DecidableEq, Repr

/-- What a launch or a COPY has written so far, for its scope (R467): ranges of device addresses, and the translated address of its
last write of host memory. -/
structure Wrote where
  dev : List Range
  host : Option Nat
  deriving DecidableEq, Repr

/-- What a context waits for on a cluster (R379). -/
inductive Wait where
  | racq (ring : Nat) (cons : Bool)
  /-- curtain and the generation that must open -/
  | curtain (c gen : Nat)
  /-- waits to arrive again at a generation that is not open yet (R330) -/
  | again (c gen : Nat)
  /-- by the class mask of FENCE -/
  | fence (mask : Nat)
  | queueFull (cls : EClass)
  | issue
  deriving DecidableEq, Repr

/-- A context's share of one cluster: its frame and the prompter's context store (R350, R353, R354). -/
structure ClCtx where
  cl : Nat
  base : Nat
  sreg : List Word
  treg : List (BitVec 128)
  preg : List Bool
  pc : Nat
  link : List Nat
  loops : List LoopEnt
  aflags : Nat
  vflags : Nat
  tslot : List (Option Nat)
  acc : Option Acc
  /-- W tile, M, N, K and formats loaded by ROWS (R258) -/
  shadow : Option (Nat × Nat × Nat × Nat × Nat)
  running : List EngOp
  wait : Option Wait
  exited : Bool
  cancelled : Bool
  /-- cancel acknowledged by the prompter and the engines of this cluster -/
  acked : Bool
  /-- generation last arrived at, by curtain -/
  arrived : List (Option Nat)
  /-- MISSES seen by the last DLCHK, by ring -/
  dlSeen : List Nat
  safes : Nat
  /-- GTIME at which the context was switched in -/
  since : Word
  /-- classes given work so far: GPE, TE (R436) -/
  usedGpe : Bool
  usedTe : Bool
  /-- a cancel stopped some of its work in that class -/
  cutGpe : Bool
  cutTe : Bool
  deriving DecidableEq, Repr

/-- A published slot: FILL and END (R316). -/
structure SlotPub where
  fill : Nat
  fin : Bool
  deriving DecidableEq, Repr

/-- A ring of a launch: its record (R314) and its controller state (R316, R333). -/
structure Ring where
  reg : Nat
  base : Nat
  slotBytes : Nat
  slots : Nat
  mode : Nat
  prod : Nat
  cons : Nat
  home : Nat
  prodSide : Nat
  consSide : Nat
  period : Nat
  lead : Nat
  pacq : BitVec 32
  pub : BitVec 32
  cacq : BitVec 32
  rel : BitVec 32
  /-- slots released since the start, not taken modulo 2^32: the slot numbers of the stream count on (R316) -/
  relN : Nat
  /-- FILL and END of the slots published and not released, oldest first -/
  pubs : List SlotPub
  /-- END has been published -/
  endPub : Bool
  /-- the slot published last carried END -/
  endLast : Bool
  misses : Nat
  worst : Nat
  /-- next slot number whose due time has not come, counted from 0 -/
  dueNext : Nat
  /-- bytes that a transfer engine has read of the slot it holds as consumer -/
  taken : Option Nat
  deriving DecidableEq, Repr

/-- A curtain of a launch (R327). -/
structure Curtain where
  home : Nat
  expect : Nat
  gen : Nat
  count : Nat
  deriving DecidableEq, Repr

/-- Where a launch stands. -/
inductive CtxSt where
  | admitted | placed | running | cancelling | ended
  deriving DecidableEq, Repr

/-- A segment of a queue launch still to be delivered (R404). -/
structure Seg where
  addr : Nat
  len : Nat
  reg : Nat
  fin : Bool
  deriving DecidableEq, Repr

/-- A segment of a Cue message: bytes received so far, by offset (R417 to R420). -/
structure CueSeg where
  seg : Nat
  reg : Nat
  len : Nat
  fin : Bool
  parts : List (Nat × Bytes)
  published : Bool
  deriving DecidableEq, Repr

/-- A Cue message being served (R417 to R421). -/
structure CueMsg where
  v6 : Bool
  src : Nat
  srcPort : Nat
  port : Nat
  msgid : Nat
  service : Nat
  time : Word
  relative : Bool
  nfrag : Nat
  frags : List Nat
  segs : List CueSeg
  first : Word
  deriving DecidableEq, Repr

/-- An admitted launch and its context (R403, R412 to R414, R422, R429 to R433). -/
structure Ctx where
  id : Nat
  slot : Nat
  /-- entry number of a queue launch -/
  n : Nat
  cue : Option CueMsg
  tag : Nat
  st : CtxSt
  script : Nat
  edition : Nat
  us : Option (Nat × Nat)
  versions : List (Nat × Nat)
  admitG : Word
  deadline : Word
  scope : Nat
  nous : Bool
  lateAbort : Bool
  args : Bytes
  /-- segment table of a queue launch as it stands in host memory -/
  segTab : Bytes
  segs : List Seg
  replyBuf : Option (Nat × Nat)
  reply : Bytes
  swapped : Bool
  die : Nat
  cls : List ClCtx
  rings : List Ring
  curtains : List Curtain
  t0 : Word
  /-- it has issued its first instruction -/
  started : Bool
  newMisses : Nat
  /-- status the launch ends with, once known -/
  status : Option Nat
  swapping : Bool
  expired : Bool
  /-- the abort of its queue has sent it a cancel (R435) -/
  aborting : Bool
  /-- that cancel stopped work of it, so that it posts no record (R435) -/
  aborted : Bool
  finish : Word
  /-- slip of a launch that has ended (R432) -/
  slip : Nat
  /-- what it gave to the GPE and the transfer engines before a swap, and whether the swap's cancel cut some of it (R436) -/
  pastGpe : Bool
  pastTe : Bool
  pastCutGpe : Bool
  pastCutTe : Bool
  wrote : Wrote
  /-- the stall clock: ticks that it has run since the latest ring or curtain event (R339, R340) -/
  stallClock : Nat
  stalled : Bool
  /-- GPE cancels not yet acknowledged -/
  gpeAck : Bool
  deriving DecidableEq, Repr

/-- An exact number n / 2^sh: the statistics of R428 divide by 4 and by 16 only. -/
structure Frac where
  n : Nat
  sh : Nat
  deriving DecidableEq, Repr

/-- An edition held (R381, R409, R428, R432). -/
structure Edition where
  num : Nat
  image : Bytes
  refs : Nat
  samples : Nat
  mean : Frac
  dev : Frac
  meanSafe : Frac
  estRun : Frac
  /-- least wall time of the present and of the previous window, and the window's number -/
  refCur : Option Nat
  refPrev : Option Nat
  window : Nat
  deriving DecidableEq, Repr

/-- A script (R408 to R410). -/
structure Script where
  handle : Nat
  resident : Bool
  cur : Nat
  editions : List Edition
  deriving DecidableEq, Repr

/-- The prompter of a cluster and its shared areas (R351, R384, R385). -/
structure Cluster where
  num : Nat
  ctx : Nat
  running : Bool
  /-- shared areas: script, edition, base, contexts using it -/
  shared : List (Nat × Nat × Nat × Nat)
  /-- registers of arrays A0 to A7 -/
  arrays : List ArrayRegs
  deriving DecidableEq, Repr

/-! ## Queues (10_queues_scheduling.md) -/

/-- The states of a queue slot (R391). -/
inductive QState where
  | off | starting | on | stopping
  deriving DecidableEq, Repr

/-- A command of a slot that is admitted and not recorded: key, status and value once its conditions are met,
and the transfer of a COPY or the bytes of an image read so far. -/
structure Cmd where
  n : Nat
  tag : Nat
  op : Nat
  entry : Bytes
  status : Option Nat
  value : Nat
  finish : Word
  xfer : Option Xfer
  bytes : Bytes
  wrote : Wrote
  deriving DecidableEq, Repr

/-- The destroy in progress (R434 to R436). -/
structure Destroy where
  abort : Bool
  /-- entries fetched when it began have numbers below this -/
  upto : Nat
  /-- launches fetched and not recorded when it began -/
  total : Nat
  doneP : Nat
  abortedP : Nat
  doneG : Nat
  abortedG : Nat
  doneT : Nat
  abortedT : Nat
  /-- doorbell writes dropped since it began -/
  drops : Nat
  deriving DecidableEq, Repr

/-- A queue slot (R389 to R397, R413, R416, R444 to R446). -/
structure QSlot where
  en : Bool
  abort : Bool
  st : QState
  pendEnable : Bool
  pendDisable : Bool
  error : Bool
  errStatus : Nat
  doorbell : BitVec 32
  fetched : BitVec 32
  /-- entries fetched since ON, not taken modulo 2^32 -/
  count : Nat
  /-- good entries waiting for admission, oldest first: entry number, bytes -/
  waiting : List (Nat × Bytes)
  /-- number and re-reads so far of an entry that was not good -/
  torn : Option (Nat × Nat)
  /-- when that entry was read last -/
  tornAt : Option Word
  cmds : List Cmd
  consumed : BitVec 32
  posted : BitVec 32
  postedN : Nat
  /-- a FENCE admitted and not recorded -/
  fence : Option Nat
  /-- configuration writes held in STOPPING: address of the 32-bit word, value -/
  heldCfg : List (Nat × Word)
  destroy : Option Destroy
  /-- records posted since the last signal of the vector, and whether the timer runs -/
  unsignalled : Nat
  /-- when the first of them was posted -/
  since : Option Word
  /-- record writes fail: discard (R462) -/
  deaf : Bool
  /-- the failure of the first record that is discarded has been counted already -/
  counted : Bool
  /-- commands that an abort cut off from their records and that finish by their own rules (R435) -/
  loose : List Cmd
  deriving DecidableEq, Repr

/-- A Cue binding (R418, R442). -/
structure Binding where
  valid : Bool
  slot : Nat
  scope : Nat
  nous : Bool
  lateAbort : Bool
  service : Nat
  script : Nat
  deriving DecidableEq, Repr

/-- The name of a Cue message that has ended or was refused, kept until an instant (R419). -/
structure CueName where
  src : Nat
  srcPort : Nat
  msgid : Nat
  until_ : Option Word
  deriving DecidableEq, Repr

/-! ## Host coupling (11_host_memory.md) -/

/-- A host port (R449, R452, R461, R472, R482). -/
structure HPort where
  up : Bool
  cache : Bool
  mem : Bool
  ats : Bool
  pri : Bool
  pasid : Bool
  width : Nat
  rate : Nat
  /-- a Response Failure was received (R461) -/
  priFailed : Bool
  /-- committed decoder's base -/
  hdm : Option Nat
  /-- page request groups that the host allows (R460) -/
  alloc : Nat
  deriving DecidableEq, Repr

/-- A cached translation (R457): `buf` is `none` in the ATC, or the translation buffer that holds it (a cluster's
transfer engine 0 to 127, or 128 for the CFE). -/
structure Xlat where
  buf : Option Nat
  port : Nat
  pasid : Nat
  page : Nat
  log2 : Nat
  phys : Nat
  r : Bool
  w : Bool
  deriving DecidableEq, Repr

/-- Who waits for a translation (R453, R462, R486). -/
inductive XReq where
  | fetch (k : Nat)
  | record (k : Nat)
  | args (ctx : Nat)
  | bulk (k n : Nat)
  | te (cl ctx op : Nat)
  deriving DecidableEq, Repr

/-- A translation request outstanding, or an access waiting on a page request group (R458 to R461). -/
structure XWait where
  id : Nat
  port : Nat
  pasid : Nat
  addr : Nat
  write : Bool
  who : XReq
  /-- page request group it waits on -/
  group : Option Nat
  /-- translation requested again after Success -/
  retried : Bool
  /-- when the request was sent -/
  since : Word
  deriving DecidableEq, Repr

/-- A page request group outstanding (R460). -/
structure PGroup where
  id : Nat
  port : Nat
  pasid : Nat
  page : Nat
  write : Bool
  /-- when the group was sent -/
  since : Word
  deriving DecidableEq, Repr

/-- Host coupling state. -/
structure HostSt where
  ports : List HPort
  /-- host lines held Shared in the host line cache -/
  hlc : List Nat
  xlats : List Xlat
  waits : List XWait
  groups : List PGroup
  /-- accesses in a fault that found no room for a page request group, oldest first (R460) -/
  full : List XWait
  nextId : Nat
  /-- Invalidate Requests served and not completed: port, ITag -/
  invals : List (Nat × Nat)
  deriving DecidableEq, Repr

/-- HBM of the part (R469 to R477). -/
structure HbmSt where
  poisoned : List Nat
  /-- granules of the general region found uncorrectable and not written whole since (R475, R476) -/
  bad : List Nat
  /-- the host-state directory: general-region lines that the host may hold -/
  dirLines : List Nat
  /-- back-invalidation snoops: line, whether it invalidates, and whether it is complete and not yet used -/
  snoops : List (Nat × Bool × Bool)
  /-- MEM_STAT.STATE of each stack: 0 INIT, 1 ACTIVE, 2 FAILED -/
  state : List Nat
  /-- instants of uncorrectable granules by stack, within the last second -/
  ue : List (Nat × Word)
  /-- when patrol scrub read a granule last, by stack and granule (R475) -/
  scrubbed : List ((Nat × Nat) × Word)
  deriving DecidableEq, Repr

/-! ## Links, network and time (12_links_time.md) -/

/-- What a packet that expects an answer carries, so that it can be sent again (R509). -/
inductive Payload where
  | poolReq (p : PoolReqPkt)
  | part (p : PartialPkt)
  | work (m : WorkMsg)
  | chorus (m : ChorusMsg)
  | delta (r : DeltaRec)
  | forward (f : RowForward)
  | twin (first : Bool) (r : DeltaRec)
  | rows (kind : RowsKind) (handle ver : Nat) (rows : List RowImage)
  | ticket (number : Nat) (at_ : Word)
  | ticketReply (number : Nat)
  | report (r : PairRep)
  | time (marker : Nat) (gtime inc : Word) (state : Nat)
  | timeAsk (marker : Nat)
  | suspect (node : Nat) (portsFailed : Bool)
  | probeAsk (node : Nat)
  | probe (node : Nat)
  | probeAns (node : Nat) (alive : Bool)
  | lost (node : Nat)
  | ack (tag gen result : Nat)
  | raw (p : Packet)
  deriving DecidableEq, Repr

/-- A packet the part sends: destination location, source die, number, generation, and its contents. -/
structure Send where
  dst : Nat
  die : Nat
  tag : Nat
  gen : Nat
  body : Payload
  deriving DecidableEq, Repr

/-- A flit kept for replay (R507): its LSEQ and sub-channel, the packet it belongs to, and which flit of it. -/
structure TxFlit where
  lseq : Nat
  sub : Nat
  p : Send
  part : Nat
  deriving DecidableEq, Repr

/-- A Twiben port (R494, R497 to R499, R507, R508, R511, R524). `st`: 0 DOWN, 1 TRAINING, 2 UP, 3 FAILED, 4 ETH. -/
structure LPort where
  st : Nat
  miswired : Bool
  peer : Nat
  peerPort : Nat
  lanes : Nat
  txNext : Nat
  rxNext : Nat
  /-- a data flit has been accepted, so that LACK has a value -/
  rxAny : Bool
  /-- data flits that have not left, oldest first; they get their LSEQ when they leave -/
  wait : List TxFlit
  /-- data flits that are not acknowledged (R507) -/
  tx : List TxFlit
  /-- the sub-channel granted last (R493) -/
  last : Nat
  /-- data flits sent on a sub-channel whose credits have not come back, by sub-channel (R499) -/
  spent : List (Nat × Nat)
  /-- flits granted while a class other than bulk and chorus waited: those of bulk and chorus, and all (R493) -/
  contest : Nat × Nat
  /-- LSEQ being replayed, how often, and when its first failure was -/
  replaySeq : Nat
  replays : Nat
  failAt : Option Word
  /-- waiting for a replay since RETRY_REQ was sent -/
  retrying : Bool
  /-- packet bytes being received, by sub-channel -/
  rx : List (Nat × Bytes)
  /-- receive buffers that those hold, in flits, and credits that are to be returned, by sub-channel (R499) -/
  rxHeld : List (Nat × Nat)
  owe : List (Nat × Nat)
  deriving DecidableEq, Repr

/-- A write or work packet that is not acknowledged (R509, R541). -/
structure Pend where
  p : Send
  attempt : Nat
  since : Word
  /-- both attempts timed out; it stays until answered or the part is lost -/
  stuck : Bool
  /-- the queue command that waits for it -/
  cmd : Option (Nat × Nat)
  /-- the stream entry and record that wait for it -/
  rec_ : Option (Nat × Word)
  deriving DecidableEq, Repr

/-- An acknowledgement that a write is owed: it is sent once the writes it waits for are acknowledged and the stream
record it became, if any, is done (R215, R217, R219). -/
structure Owed where
  h : WriteHdr
  result : Nat
  waits : List (Nat × Nat)
  rec_ : Option (Nat × Word)
  /-- copies that the forwards of an apply point have gone to (R216) -/
  sent : List Nat
  deriving DecidableEq, Repr

/-- The receive window of R541 for one source node at one die: H, and the numbers of the 4,096 up to H accepted. -/
structure Window where
  die : Nat
  node : Nat
  high : Nat
  seen : List Nat
  deriving DecidableEq, Repr

/-- A RoCEv2 connection (R514, R528). `st`: 0 IDLE, 1 READY, 2 ERROR. `rate` is in percent of line rate. -/
structure Roce where
  valid : Bool
  port : Nat
  prio : Nat
  st : Nat
  lastErr : Nat
  ackUs : Nat
  rqpn : Nat
  rkey : Nat
  rmac : Nat
  ripLo : Word
  ripHi : Word
  psn : Nat
  retries : Nat
  rate : Nat
  /-- READs outstanding: PSN, queue slot and entry of the load, first row, rows -/
  reads : List (Nat × Nat × Nat × Nat × Nat)
  /-- WRITEs outstanding: PSN -/
  writes : List Nat
  dumping : Bool
  /-- GTIME of the latest request, resend or answer, and of the latest change of the rate -/
  since : Word
  rateAt : Word
  deriving DecidableEq, Repr

/-- A packet on the way through the package: the Twiben port that it came in on, if it did, and the port and sub-channel that it is
to leave by, if it is. -/
structure Parcel where
  p : Send
  inPort : Option Nat
  hop : Option (Nat × Nat)
  deriving DecidableEq, Repr

/-- A parcel in the package network, with the die and the spine port that it goes to. -/
structure Flying where
  x : Parcel
  dst : Nat
  port : Nat
  deriving DecidableEq, Repr

/-- The on-package network (R33 to R36). A spine port is numbered by the die at the far end of its edge (0 to 7 CD0 to CD7, 8 IOD-SL,
9 IOD-SR), or 10 GPE, 11 and 12 HBM controllers 0 and 1, 13 router grid; on an I/O die 14 to 21 its eight blocks in the order of R28. -/
structure Noc where
  /-- packets that have been sent and have not entered a spine -/
  entry : List Parcel
  /-- input buffers, oldest packet first, by die, input port and class -/
  bufs : List ((Nat × Nat × Nat) × List Flying)
  /-- the requester each output port granted last: input port × 4 + class, by die and output port (R30) -/
  granted : List ((Nat × Nat) × Nat)
  deriving DecidableEq, Repr

/-- Link-layer and transport state. -/
structure LinkSt where
  ports : List LPort
  /-- laser input of O0 to O7, from the board's source while LAS_EN is high (R494, R580) -/
  laser : BitVec 8
  z : Nat
  pend : List Pend
  /-- next number for each destination location -/
  seqs : List (Nat × Nat)
  windows : List Window
  /-- results of writes applied, so that a duplicate is answered alike: source node + 4,096 × die, number, result -/
  results : List (Nat × Nat × Nat)
  owed : List Owed
  /-- parity refusals by package-network packet (R535) -/
  parity : List (Nat × Nat)
  noc : Noc
  deriving DecidableEq, Repr

/-- A TIME update held for a marker (R521). -/
structure TimeUpd where
  marker : Nat
  gtime : Word
  inc : Word
  state : Nat
  leader : Nat
  deriving DecidableEq, Repr

/-- GTIME and its discipline (R515 to R522, R529). `st`: 0 FREE, 1 ACQUIRING, 2 LOCKED, 3 HOLDOVER. -/
structure TimeSt where
  gtime : Word
  stopped : Bool
  /-- ticks for which GTIME holds still (R521) -/
  hold : Nat
  inc : Word
  /-- GTIME at the latest marker, and the same without TIME_SKEW -/
  mark : Word
  base : Word
  markers : Nat
  st : Nat
  leader : Nat
  theta : BitVec 32
  rate : Int
  integ : Int
  offsets : List Int
  lockRun : Nat
  missed : Nat
  update : Option TimeUpd
  lastSync : Word
  /-- this part acts as leader -/
  leading : Bool
  /-- the FOLLOWER has taken a GTIME from an update since cold reset -/
  taken : Bool
  deriving DecidableEq, Repr

/-! ## Faults and management (13_faults_management.md) -/

/-- The states of a scored unit (R538). -/
inductive UState where
  | healthy | suspect | fencing | fenced
  deriving DecidableEq, Repr

/-- A scored unit that is not HEALTHY with no history (R536 to R540, R559). -/
structure UnitSt where
  id : Nat
  st : UState
  events : List Word
  transients : List Word
  last : Word
  /-- when its latest self-test by interval ran -/
  tested : Option Word
  deriving DecidableEq, Repr

/-- An event-log record (R545). -/
structure LogRec where
  gtime : Word
  seq : Nat
  sev : Nat
  code : Nat
  unit : Nat
  ctx : Option Nat
  info0 : BitVec 32
  info1 : BitVec 32
  info2 : Nat
  deriving DecidableEq, Repr

/-- A probe of a suspect node run by this part as RAS leader (R543). -/
structure ProbeJob where
  node : Nat
  asked : List Nat
  failedSays : List Nat
  portsFailed : Bool
  since : Word
  deriving DecidableEq, Repr

/-- A SUSPECT report sent and not acknowledged: node, and the member index reported to (R543). -/
structure Report where
  node : Nat
  to_ : Nat
  portsFailed : Bool
  since : Word
  deriving DecidableEq, Repr

structure RasSt where
  units : List UnitSt
  log : List LogRec
  seq : Nat
  probes : List ProbeJob
  reports : List Report
  /-- nodes declared or announced lost -/
  lostNodes : List Nat
  /-- uncorrectable scratch words met: cluster, word offset, when -/
  scratchBad : List (Nat × Nat × Word)
  /-- scratch words that stay bad until written whole, by physical scratch key over 8 -/
  badWords : List Nat
  /-- clusters fenced by R534 -/
  scratchFenced : List Nat
  deriving DecidableEq, Repr

/-- A firmware update in progress (R552): component, bytes received, phase 1 to 3. -/
structure FwUpd where
  comp : Option Nat
  bytes : Bytes
  table : Bool
  deriving DecidableEq, Repr

/-- The generations of one OTP record (R554): value and whether its CRC passed, oldest first, and how many of them
were sensed at the latest cold reset. -/
structure Otp where
  id : Nat
  gens : List (Nat × Bool)
  sensed : Nat
  deriving DecidableEq, Repr

structure MgmtSt where
  fw : Option FwUpd
  fwStatus : Nat
  /-- bank B active, by component 1 to 3 -/
  activeB : List Bool
  /-- components with a pending bank -/
  pending : List Nat
  /-- images in the banks: component, bank B, bytes -/
  banks : List (Nat × Bool × Bytes)
  certChain : Bytes
  otp : List Otp
  /-- mailbox command running -/
  mbBusy : Bool
  eventReceiver : Option (Bool × Nat)
  /-- SPDM algorithms negotiated, by binding -/
  spdm : List Bool
  dumpBusy : Bool
  deriving DecidableEq, Repr

/-! ## What the part drives -/

/-- What the one PCIe function of a port presents: function number, CXL device type, Device Serial Number, the sizes of BAR0 and BAR2,
whether they are 64-bit and prefetchable, the DVSEC range size, and the Outstanding Page Request Capacity (R450, R460, R472). -/
structure HostFn where
  fn : Nat
  type : Nat
  serial : Word
  bar0 : Nat
  bar2 : Nat
  bits64 : Bool
  prefetchable : Bool
  range : Nat
  capacity : Nat
  deriving DecidableEq, Repr

/-- What the part sends to its environment. -/
inductive Out where
  /-- a packet, and the Twiben port and dateline sub-channel that it is sent to if it is to leave the part; its flits follow -/
  | packet (p : Send) (hop : Option (Nat × Nat))
  /-- flits that leave on a Twiben port (R497, R498) -/
  | flits (port : Nat) (f : List Flit)
  /-- an ACK or NACK: port, IPv6 or not, source address, source UDP port, priority, destination, UDP payload -/
  | ackFrame (port : Nat) (v6 : Bool) (srcAddr srcPort prio dstAddr dstPort : Nat) (bytes : Bytes)
  | pfc (port prio quanta : Nat)
  /-- a Cue reply: port, IPv6 or not, source address, source UDP port, destination, UDP payload -/
  | cueFrame (port : Nat) (v6 : Bool) (srcAddr srcPort dstAddr dstPort : Nat) (bytes : Bytes)
  | arp (port target : Nat) (v6 : Bool)
  /-- a memory write within a 4 KiB page: its address is translated, and AT says so (R456) -/
  | hostWrite (port pasid phys : Nat) (translated : Bool) (bytes : Bytes)
  /-- a memory read of a translated address; of no bytes when it only orders (R467) -/
  | hostRead (port phys len : Nat)
  /-- a CXL.cache read of a line: RdShared, or RdCurr (R454) -/
  | cxlCacheRead (port line : Nat) (curr : Bool)
  /-- the answer to a host snoop: the line is Invalid here (R451) -/
  | snoopResp (line : Nat)
  | msix (port vector : Nat)
  | atsRequest (port id pasid page : Nat) (write : Bool)
  | pageRequest (port id pasid page : Nat) (write privileged last : Bool)
  | invalComplete (port itag : Nat)
  | cxlData (addr : Nat) (bytes : Bytes) (poison : Bool)
  | bisnp (line : Nat) (inv : Bool)
  | gpfAck (port : Nat)
  /-- what the function on a port presents (R450, R472) -/
  | hostFn (port : Nat) (f : HostFn)
  | readData (value : Word)
  /-- an RDMA READ: connection, local and remote queue pair, remote key, PSN, address, bytes (R514) -/
  | roceRead (c lqpn rqpn rkey psn addr len : Nat)
  /-- a dump by RDMA WRITE: connection, PSN, remote address, then header, log, watch list and RAS registers (R549) -/
  | dump (c psn addr node : Nat) (gtime : Word) (code : Nat) (log : List LogRec) (watch : List UnitSt) (ras : List (Nat × Word))
  | roceResend (c psn : Nat)
  | mctp (pcie : Bool) (kind : String) (bytes : Bytes)
  | event (r : LogRec)
  | delayReq (port : Nat)
  deriving DecidableEq, Repr

/-- Ethernet state by port index (R513, R527): LINK, the paused priorities with the GTIME at which each pause ends, and the frames that wait
for the end of one, in order. -/
structure NetSt where
  link : List Bool
  paused : List (Nat × Nat × Nat)
  held : List (Nat × Nat × Out)
  roce : List Roce
  deriving DecidableEq, Repr

/-! ## The part -/

structure State where
  /-- the commands that wait, first in, first out -/
  pending : List Instr
  regs : Bank
  /-- general region of HBM, by device address -/
  hbm : Mem
  /-- scratch of every cluster: cluster × 12 MiB + offset -/
  scr : Mem
  pwr : Power
  tables : List Table
  loads : List Load
  commits : List Commit
  nextCid : Nat
  heap : List RowCopy
  lostRows : List LostSet
  gpes : List Gpe
  reqs : List OwnReq
  reads : List RowRead
  nextRead : Nat
  combine : List Held
  doms : List Dom
  dirs : List Dir
  migs : List Mig
  reps : List RepJob
  /-- replica storage on this part: handle, row, die -/
  replicas : List (Nat × Nat × Nat)
  /-- periods below a quarter of HOT_MRPS, by handle and row (R160) -/
  cool : List (Nat × Nat × Nat)
  pin : Pin
  pinJobs : List PinJob
  /-- the die chosen last (R179) -/
  lastDie : Nat
  fports : List FPort
  strms : List Strm
  pair : Pair
  ctxs : List Ctx
  clusters : List Cluster
  scripts : List Script
  nextOp : Nat
  slots : List QSlot
  bindings : List Binding
  cueNames : List CueName
  /-- the slots use direct fetch (R397) -/
  direct : Bool
  host : HostSt
  mem : HbmSt
  link : LinkSt
  net : NetSt
  time : TimeSt
  ras : RasSt
  mgmt : MgmtSt
  out : List Out
  /-- the model's own: how many free values have been taken (log entry 6) -/
  freeCtr : Nat
  deriving DecidableEq, Repr

/-! ## The part right after reset -/

/-- Power and pins while RST_N is low: rails up, stage RESET (R572, R590). -/
def Power.init : Power where
  powered := true
  rstN := false
  stage := .reset
  lastReset := 0
  straps := 0
  throttleN := true
  thrSince := 0
  thrPower := false
  thrSensors := []
  thermAlert := []
  refresh2x := []
  sensors := []
  gaspN := true
  gaspCode := none
  fatal := false
  lost := false
  warm := false
  warmWaits := false
  flr := []
  flrAbsorbed := []

/-- Every Wings cache is ON and empty after cold reset (R130, R137). -/
def Wings.init : Wings where
  st := .on
  pendEnable := false
  pendDisable := false
  invBusy := false
  swept := 0
  rows := []
  sketch := []
  reads := 0

def Gpe.init : Gpe where
  ops := []
  gen := 0
  ended := []
  waiting := []
  granted := 15
  asked := []
  askedLast := 32767
  wings := .init
  load := 0
  heat := []
  hotAt := none
  lowAt := []

/-- A domain slot that is not valid; BUCKETS_LOG2 and the members reset to 0 (R190, R191). -/
def Dom.init : Dom where
  number := 0
  log2 := 0
  valid := false
  mismatch := false
  members := 0
  excluded := []
  rejoined := []
  epoch := 0
  low := []
  loads := []
  heat := []
  epochAt := none
  balAt := none
  mirrorAt := none

def Dir.init : Dir where
  buckets := []
  ovr := []
  sets := []
  refill := []
  epochs := []

def Pin.init : Pin where
  busy := false
  op := 0
  handle := 0
  row := 0
  copies := 0
  status := 0
  outcome := 0
  remote := false

/-- Feed ingest is OFF on both ports (R231, R232). -/
def FPort.init : FPort where
  st := .off
  pendEnable := false
  pendDisable := false
  paused := false
  queue := []
  xoffAt := none

/-- A stream entry at FEED_STRM_CFG's reset value (R236). -/
def Strm.init : Strm where
  valid := false
  pairFwd := false
  port := 2
  stream := 0
  gapUs := 100
  ackUs := 10
  nackUs := 50
  active := false
  next := 0
  floor := none
  held := []
  gap := none
  v6 := false
  src := 0
  srcPort := 0
  lastPort := 3
  stamp := 0
  queued := 0
  flight := []
  marks := []
  mark := 0
  discards := 0
  lastDisc := 0
  pairLost := false
  twin := []
  twinAt := none
  twinFirst := false
  lastAck := []
  dup := 0
  stale := 0
  lostRow := 0
  noTable := 0
  range := 0
  badOp := 0
  nonfinite := 0
  saturated := 0
  recCrc := 0
  gapLost := 0
  appliedN := 0
  ackAt := none
  nackAt := none

def Pair.init : Pair where
  ticket := .none
  fromTwin := false
  number := 0
  at_ := 0
  proposal := none
  own := none
  ownAt := 0
  twin := none
  result := 0
  status := 0
  skew := 0

def Cluster.init (n : Nat) : Cluster where
  num := n
  ctx := 0
  running := false
  shared := []
  arrays := List.replicate 8 ⟨[], [], [], [], none⟩

/-- A queue slot OFF with EN and ABORT 0 (R391, R444). -/
def QSlot.init : QSlot where
  en := false
  abort := false
  st := .off
  pendEnable := false
  pendDisable := false
  error := false
  errStatus := 0
  doorbell := 0
  fetched := 0
  count := 0
  waiting := []
  torn := none
  tornAt := none
  cmds := []
  consumed := 0
  posted := 0
  postedN := 0
  fence := none
  heldCfg := []
  destroy := none
  unsignalled := 0
  since := none
  deaf := false
  counted := false
  loose := []

def Binding.init : Binding where
  valid := false
  slot := 0
  scope := 0
  nous := false
  lateAbort := false
  service := 0
  script := 0

def HPort.init : HPort where
  up := false
  cache := false
  mem := false
  ats := false
  pri := false
  pasid := false
  width := 0
  rate := 0
  priFailed := false
  hdm := none
  alloc := 0

def HostSt.init : HostSt where
  ports := List.replicate 2 .init
  hlc := []
  xlats := []
  waits := []
  groups := []
  full := []
  nextId := 0
  invals := []

/-- Every stack reads INIT until the HBM has trained (R488, R572). -/
def HbmSt.init : HbmSt where
  poisoned := []
  bad := []
  dirLines := []
  snoops := []
  state := List.replicate 16 0
  ue := []
  scrubbed := []

/-- A Twiben port DOWN, with LNK_PORT at its reset value (R524). -/
def LPort.init : LPort where
  st := 0
  miswired := false
  peer := 0
  peerPort := 0
  lanes := 0
  txNext := 0
  rxNext := 0
  rxAny := false
  wait := []
  tx := []
  last := 7
  spent := []
  contest := (0, 0)
  replaySeq := 0
  replays := 0
  failAt := none
  retrying := false
  rx := []
  rxHeld := []
  owe := []

def LinkSt.init : LinkSt where
  ports := List.replicate 32 .init
  laser := 255#8
  z := 0
  pend := []
  seqs := []
  windows := []
  results := []
  owed := []
  parity := []
  noc := ⟨[], [], []⟩

/-- A RoCEv2 connection with NP_ROCE_CFG at its reset value (R528). -/
def Roce.init : Roce where
  valid := false
  port := 0
  prio := 4
  st := 0
  lastErr := 0
  ackUs := 16
  rqpn := 0
  rkey := 0
  rmac := 0
  ripLo := 0
  ripHi := 0
  psn := 0
  retries := 0
  rate := 100
  reads := []
  writes := []
  dumping := false
  since := 0
  rateAt := 0

def NetSt.init : NetSt where
  link := List.replicate 10 false
  paused := []
  held := []
  roce := List.replicate 64 .init

/-- GTIME runs FREE from 0 with INC at its nominal value (R515, R529, R530, R572). -/
def TimeSt.init : TimeSt where
  gtime := 0
  stopped := false
  hold := 0
  inc := 0x000000199999999A
  mark := 0
  base := 0
  markers := 0
  st := 0
  leader := 0
  theta := 0
  rate := 4000000000
  integ := 0
  offsets := []
  lockRun := 0
  missed := 0
  update := none
  lastSync := 0
  leading := false
  taken := false

def RasSt.init : RasSt where
  units := []
  log := []
  seq := 0
  probes := []
  reports := []
  lostNodes := []
  scratchBad := []
  badWords := []
  scratchFenced := []

/-- No generation of a record that has a default is written; the records written at manufacture hold zero by
choice (log entry 5; R554). -/
def MgmtSt.init : MgmtSt where
  fw := none
  fwStatus := 0
  activeB := [false, false, false]
  pending := []
  banks := []
  certChain := []
  otp := [⟨0, [(0, true)], 1⟩, ⟨1, [(0, true)], 1⟩, ⟨2, [], 0⟩, ⟨3, [(0, true)], 1⟩, ⟨4, [], 0⟩, ⟨5, [], 0⟩,
    ⟨6, [], 0⟩]
  mbBusy := false
  eventReceiver := none
  spdm := [false, false]
  dumpBusy := false

/-- The part right after cold reset, RST_N still low: every register at its reset value, memory with nothing
listed, nothing waiting (R10, R570, R572; log entry 1). -/
def State.reset : State where
  pending := []
  regs := []
  hbm := []
  scr := []
  pwr := .init
  tables := []
  loads := []
  commits := []
  nextCid := 0
  heap := []
  lostRows := []
  gpes := List.replicate 8 .init
  reqs := []
  reads := []
  nextRead := 0
  combine := []
  doms := List.replicate 8 .init
  dirs := List.replicate 8 .init
  migs := []
  reps := []
  replicas := []
  cool := []
  pin := .init
  pinJobs := []
  lastDie := 7
  fports := List.replicate 2 .init
  strms := List.replicate 64 .init
  pair := .init
  ctxs := []
  clusters := (List.range 128).map .init
  scripts := []
  nextOp := 0
  slots := List.replicate 9 .init
  bindings := List.replicate 64 .init
  cueNames := []
  direct := false
  host := .init
  mem := .init
  link := .init
  net := .init
  time := .init
  ras := .init
  mgmt := .init
  out := []
  freeCtr := 0

end Sys2Proof.Machine
end

