-- ==== Sys2Proof/Machine/Bits.lean ====
section
/-! DEFINITION. Bit fields, little-endian numbers (R4, R5) and the CRCs that the spec's structures carry. -/
namespace Sys2Proof.Machine

/-- Bits hi:lo of w. -/
def fld (w hi lo : Nat) : Nat := (w >>> lo) % 2 ^ (hi + 1 - lo)

/-- w with bits hi:lo replaced by v. -/
def putFld (w hi lo v : Nat) : Nat :=
  (w >>> (hi + 1)) <<< (hi + 1) + (v % 2 ^ (hi + 1 - lo)) <<< lo + w % 2 ^ lo

/-- A Boolean as a bit. -/
def b2n (b : Bool) : Nat := if b then 1 else 0

/-- The unsigned number that little-endian bytes hold. -/
def leNat : Bytes → Nat
  | [] => 0
  | b :: t => b.toNat + 256 * leNat t

/-- The n little-endian bytes of v. -/
def natLE : Nat → Nat → Bytes
  | 0, _ => []
  | n + 1, v => BitVec.ofNat 8 v :: natLE n (v / 256)

/-- Bytes off to off + len - 1. -/
def slice (b : Bytes) (off len : Nat) : Bytes := (b.drop off).take len

/-- Bytes off to off + len - 1 as a number. -/
def rd (b : Bytes) (off len : Nat) : Nat := leNat (slice b off len)

/-- The two's complement value of the low n bits of v. -/
def sext (n v : Nat) : Int :=
  if v % 2 ^ n < 2 ^ (n - 1) then (v % 2 ^ n : Nat) else ((v % 2 ^ n : Nat) : Int) - 2 ^ n

/-- The low n bits of an integer, as an unsigned number. -/
def wrapI (n : Nat) (v : Int) : Nat := (v % (2 ^ n : Nat)).toNat

/-- All bytes zero. -/
def allZero (b : Bytes) : Bool := b.all (· == 0)

def ceilDiv (a b : Nat) : Nat := (a + b - 1) / b

def alignUp (a n : Nat) : Nat := ceilDiv a n * n

/-- Replace the first entry of a list that satisfies p. -/
def modFirst (p : α → Bool) (f : α → α) : List α → List α
  | [] => []
  | x :: t => if p x then f x :: t else x :: modFirst p f t

/-- The value held for a key of a key list, or d. -/
def keyGet [BEq κ] (d : β) (l : List (κ × β)) (k : κ) : β := (l.lookup k).getD d

/-- The key list with k bound to v. -/
def keyPut [BEq κ] (l : List (κ × β)) (k : κ) (v : β) : List (κ × β) :=
  (k, v) :: l.filter (fun e => !(e.1 == k))

/-- The key list without k. -/
def keyDel [BEq κ] (l : List (κ × β)) (k : κ) : List (κ × β) := l.filter (fun e => !(e.1 == k))

/-- x added to a list of distinct entries. -/
def insertNew [BEq α] (x : α) (l : List α) : List α := if l.contains x then l else l ++ [x]

/-- One bit of CRC-16-CCITT, most significant bit first (R94). -/
def crc16Bit (c : BitVec 16) : BitVec 16 := if c.msb then (c <<< 1) ^^^ 0x1021#16 else c <<< 1

def crc16Byte (c : BitVec 16) (b : Byte) : BitVec 16 :=
  Nat.repeat crc16Bit 8 (c ^^^ (b.setWidth 16 <<< 8))

/-- CRC-16-CCITT: polynomial 0x1021, initial value 0xFFFF, not reflected, no final XOR (R94). -/
def crc16 (b : Bytes) : Nat := (b.foldl crc16Byte 0xFFFF#16).toNat

/-- One bit of CRC-32C, reflected (R149). -/
def crc32Bit (c : BitVec 32) : BitVec 32 := if c.getLsbD 0 then (c >>> 1) ^^^ 0x82F63B78#32 else c >>> 1

def crc32Byte (c : BitVec 32) (b : Byte) : BitVec 32 := Nat.repeat crc32Bit 8 (c ^^^ b.setWidth 32)

/-- CRC-32C: polynomial 0x1EDC6F41 reflected, initial value and final XOR 0xFFFFFFFF (R149). -/
def crc32c (b : Bytes) : Nat := ((b.foldl crc32Byte 0xFFFFFFFF#32) ^^^ 0xFFFFFFFF#32).toNat

end Sys2Proof.Machine
end

