-- ==== Sys2Proof/Machine/Flags.lean ====
section
/-! DEFINITION. The flags words of the arrays, the vector engine and the special-function unit (R266, R294): bits, and how
they are combined. -/
namespace Sys2Proof.Machine

abbrev fSAT : Nat := 1
abbrev fOVF : Nat := 2
abbrev fUFL : Nat := 4
abbrev fNAN : Nat := 8
abbrev fREPLAY : Nat := 16
abbrev fMOVED : Nat := 32
abbrev fFLUSH : Nat := 64
abbrev fDOMAIN : Nat := 128
abbrev fCANCEL : Nat := 256
abbrev fMASKED : Nat := 512

def flagIf (b : Bool) (f : Nat) : Nat := if b then f else 0

/-- The OR of two flags words, as AFLAGS and VFLAGS take them (R354). -/
def flagsOr (a b : Nat) : Nat := a ||| b

/-- A flags word with the bits that are written as 1 cleared (R354). -/
def flagsClear (a w : Nat) : Nat := a - (a &&& w)

end Sys2Proof.Machine
end

