-- ==== Sys2Proof/Machine/Num.lean ====
section
/-! DEFINITION. Exact values, the number formats of R250 and their roundings: every arithmetic rule of the chapters is
an exact operation followed by one rounding. -/
namespace Sys2Proof.Machine

/-! ## Exact values -/

/-- An exact value: NaN, an infinity, or ±n/d × 2^e with d at least 1; zero keeps its sign. -/
inductive Val where
  | nan
  | inf (neg : Bool)
  | fin (neg : Bool) (n d : Nat) (e : Int)
  deriving DecidableEq, Repr

namespace Val

def zero : Val := .fin false 0 1 0
def one : Val := .fin false 1 1 0

/-- An integer times 2^e. -/
def ofInt (v : Int) (e : Int := 0) : Val := .fin (decide (v < 0)) v.natAbs 1 e

def isZero : Val → Bool
  | .fin _ n _ _ => n == 0
  | _ => false

def isNan : Val → Bool
  | .nan => true
  | _ => false

def isFin : Val → Bool
  | .fin _ _ _ _ => true
  | _ => false

def sign : Val → Bool
  | .nan => false
  | .inf s => s
  | .fin s _ _ _ => s

def neg : Val → Val
  | .nan => .nan
  | .inf s => .inf (!s)
  | .fin s n d e => .fin (!s) n d e

def abs : Val → Val
  | .nan => .nan
  | .inf _ => .inf false
  | .fin _ n d e => .fin false n d e

def signed (s : Bool) (n : Nat) : Int := if s then -(n : Int) else n

/-- 2^k for k at least 0, and 1 below. -/
def up (k : Int) : Nat := 2 ^ k.toNat

/-- The exact sum; opposite values give +0, and infinities of both signs NaN. -/
def add : Val → Val → Val
  | .nan, _ => .nan
  | _, .nan => .nan
  | .inf s, .inf t => if s = t then .inf s else .nan
  | .inf s, _ => .inf s
  | _, .inf t => .inf t
  | .fin s n d e, .fin t m c f =>
    let g := min e f
    let v := signed s n * c * up (e - g) + signed t m * d * up (f - g)
    if v = 0 then .fin (s && t && n == 0 && m == 0) 0 1 0 else .fin (decide (v < 0)) v.natAbs (d * c) g

/-- The exact product; infinity times zero is NaN. -/
def mul : Val → Val → Val
  | .nan, _ => .nan
  | _, .nan => .nan
  | .inf s, .inf t => .inf (s != t)
  | .inf s, .fin t m _ _ => if m = 0 then .nan else .inf (s != t)
  | .fin s n _ _, .inf t => if n = 0 then .nan else .inf (s != t)
  | .fin s n d e, .fin t m c f => .fin (s != t) (n * m) (d * c) (e + f)

/-- The exact quotient; x / 0 is an infinity, 0 / 0 and ∞ / ∞ NaN. -/
def div : Val → Val → Val
  | .nan, _ => .nan
  | _, .nan => .nan
  | .inf _, .inf _ => .nan
  | .inf s, .fin t _ _ _ => .inf (s != t)
  | .fin s _ _ _, .inf t => .fin (s != t) 0 1 0
  | .fin s n d e, .fin t m c f =>
    if m = 0 then (if n = 0 then .nan else .inf (s != t)) else .fin (s != t) (n * c) (d * m) (e - f)

def sub (a b : Val) : Val := a.add b.neg

def fma (a b c : Val) : Val := (a.mul b).add c

/-- a is below b as numbers; −0 and +0 are equal here, NaN is unordered. -/
def lt (a b : Val) : Bool :=
  match a, b with
  | .nan, _ => false
  | _, .nan => false
  | .inf s, .inf t => s && !t
  | .inf s, .fin _ _ _ _ => s
  | .fin _ _ _ _, .inf t => !t
  | .fin s n d e, .fin t m c f =>
    let g := min e f
    decide (signed s n * c * up (e - g) < signed t m * d * up (f - g))

def le (a b : Val) : Bool := !a.isNan && !b.isNan && !b.lt a

/-- The larger: −0 below +0, NaN if either is NaN (R269, R287). -/
def max (a b : Val) : Val :=
  if a.isNan ∨ b.isNan then .nan
  else if a.lt b ∨ (a.isZero ∧ b.isZero ∧ a.sign ∧ !b.sign) then b else a

/-- The smaller: −0 below +0, NaN if either is NaN. -/
def min (a b : Val) : Val :=
  if a.isNan ∨ b.isNan then .nan
  else if b.lt a ∨ (a.isZero ∧ b.isZero ∧ b.sign ∧ !a.sign) then b else a

end Val

/-! ## Rounding -/

/-- How a rounding goes: to nearest even, towards +∞, towards zero, or stochastically with 24 random bits (R263). -/
inductive RMode where
  | even | up | zero | stoch (r : Nat)
  deriving DecidableEq, Repr

/-- num/den rounded to an integer: magnitude, for a value of sign s. -/
def roundNat (mode : RMode) (s : Bool) (num den : Nat) : Nat :=
  let t := num / den
  let r := num % den
  match mode with
  | .even => if den < 2 * r ∨ (2 * r = den ∧ t % 2 = 1) then t + 1 else t
  | .up => if r ≠ 0 ∧ !s then t + 1 else t
  | .zero => t
  | .stoch x => if r ≠ 0 ∧ 2 ^ 24 ≤ r * 2 ^ 24 / den + x then t + 1 else t

/-- An exact finite value rounded to an integer. -/
def roundToInt (mode : RMode) (s : Bool) (n d : Nat) (e : Int) : Int :=
  Val.signed s (roundNat mode s (n * Val.up e) (d * Val.up (-e)))

/-- floor(log2(n/d × 2^e)) for n above 0. -/
def floorLog2 (n d : Nat) (e : Int) : Int :=
  let k : Int := (n.log2 : Int) - d.log2
  (if n * Val.up (-k) < d * Val.up k then k - 1 else k) + e

/-- n/d × 2^e rounded to p bits, no finer than 2^qmin: integer t and exponent q of the result t × 2^q. -/
def roundBits (p : Nat) (qmin : Int) (mode : RMode) (s : Bool) (n d : Nat) (e : Int) : Nat × Int :=
  if n = 0 then (0, qmin)
  else
    let q := max (floorLog2 n d e - (p - 1 : Nat)) qmin
    (roundNat mode s (n * Val.up (e - q)) (d * Val.up (q - e)), q)

/-! ## Binary formats (R250, R251) -/

/-- A binary floating-point format: exponent and fraction bits, bias; `ieee` says that the top exponent is kept for
infinities and NaNs, `nan` (when not ieee) that all ones is NaN. -/
structure Fmt where
  eb : Nat
  mb : Nat
  bias : Nat
  ieee : Bool
  hasNan : Bool
  deriving DecidableEq, Repr

abbrev fp32 : Fmt := ⟨8, 23, 127, true, true⟩
abbrev fp16 : Fmt := ⟨5, 10, 15, true, true⟩
abbrev bf16 : Fmt := ⟨8, 7, 127, true, true⟩
abbrev e4m3 : Fmt := ⟨4, 3, 7, false, true⟩
abbrev e5m2 : Fmt := ⟨5, 2, 15, true, true⟩
abbrev e2m1 : Fmt := ⟨2, 1, 1, false, false⟩

namespace Fmt

def width (f : Fmt) : Nat := 1 + f.eb + f.mb

/-- Weight of the last bit of a subnormal. -/
def qmin (f : Fmt) : Int := 1 - (f.bias : Int) - f.mb

/-- The largest finite value as t × 2^q. -/
def maxFin (f : Fmt) : Nat × Int :=
  if f.ieee then (2 ^ (f.mb + 1) - 1, (2 ^ f.eb - 2 : Nat) - (f.bias : Int) - f.mb)
  else (2 ^ (f.mb + 1) - 1 - b2n f.hasNan, (2 ^ f.eb - 1 : Nat) - (f.bias : Int) - f.mb)

/-- The exact value of a bit pattern. -/
def decode (f : Fmt) (b : Nat) : Val :=
  let s := b.testBit (f.eb + f.mb)
  let x := b / 2 ^ f.mb % 2 ^ f.eb
  let m := b % 2 ^ f.mb
  if f.ieee && x == 2 ^ f.eb - 1 then (if m = 0 then .inf s else .nan)
  else if !f.ieee && f.hasNan && x == 2 ^ f.eb - 1 && m == 2 ^ f.mb - 1 then .nan
  else if x = 0 then .fin s m 1 f.qmin
  else .fin s (2 ^ f.mb + m) 1 (f.qmin + x - 1)

/-- The bit pattern of t × 2^q, which the format holds. -/
def pattern (f : Fmt) (s : Bool) (t : Nat) (q : Int) : Nat :=
  let sgn := b2n s * 2 ^ (f.eb + f.mb)
  if t = 0 then sgn
  else
    let k : Int := t.log2 + q
    if k < f.qmin + f.mb then sgn + t * Val.up (q - f.qmin)
    else
      let m := if f.mb ≤ t.log2 then t / 2 ^ (t.log2 - f.mb) else t * 2 ^ (f.mb - t.log2)
      sgn + (k - (f.qmin + f.mb) + 1).toNat * 2 ^ f.mb + (m - 2 ^ f.mb)

def infBits (f : Fmt) (s : Bool) : Nat := b2n s * 2 ^ (f.eb + f.mb) + (2 ^ f.eb - 1) * 2 ^ f.mb
/-- The quiet NaN that the engines produce: 0x7FC0_0000, 0x7FC0, 0x7E00, 0x7E; 0x7F for E4M3. -/
def nanBits (f : Fmt) : Nat :=
  if f.ieee then (2 ^ f.eb - 1) * 2 ^ f.mb + 2 ^ (f.mb - 1) else 2 ^ (f.eb + f.mb) - 1

/-- A rounded result t × 2^q lies beyond the largest finite value. -/
def beyond (f : Fmt) (t : Nat) (q : Int) : Bool :=
  let (m, c) := f.maxFin
  decide (m * Val.up (c - q) < t * Val.up (q - c))

/-- An exact value rounded to the format with infinities: bits, and whether a finite value overflowed (R259, R286). -/
def round (f : Fmt) (v : Val) (mode : RMode := .even) : Nat × Bool :=
  match v with
  | .nan => (f.nanBits, false)
  | .inf s => (f.infBits s, false)
  | .fin s n d e =>
    let (t, q) := roundBits (f.mb + 1) f.qmin mode s n d e
    if f.beyond t q then (f.infBits s, true) else (f.pattern s t q, false)

end Fmt

/-! ## FP32 arithmetic, each operation exact and rounded once to nearest even -/

def F32.val (x : F32) : Val := fp32.decode x.toNat
def toF32 (v : Val) : F32 := BitVec.ofNat 32 (fp32.round v).1
def f32add (a b : F32) : F32 := toF32 ((F32.val a).add (F32.val b))
def f32sub (a b : F32) : F32 := toF32 ((F32.val a).sub (F32.val b))
def f32mul (a b : F32) : F32 := toF32 ((F32.val a).mul (F32.val b))
def f32div (a b : F32) : F32 := toF32 ((F32.val a).div (F32.val b))
def f32fma (a b c : F32) : F32 := toF32 ((F32.val a).fma (F32.val b) (F32.val c))
abbrev f32nan : F32 := 0x7FC00000

/-! ## Element formats by code (R250) -/

def fmtOf (code : Nat) : Option Fmt :=
  match code with
  | 2 => some e4m3
  | 3 => some e5m2
  | 4 => some fp16
  | 5 => some bf16
  | 6 => some e4m3
  | 7 => some e5m2
  | 9 => some e2m1
  | 10 => some fp32
  | _ => none

/-- Width of an element in bits. -/
def fmtBits (code : Nat) : Nat :=
  match code with
  | 0 | 2 | 3 | 6 | 7 | 8 => 8
  | 1 | 9 => 4
  | 4 | 5 => 16
  | _ => 32

/-- The exact value of an element; an MXINT8 element counts 2^-6. -/
def elemVal (code bits : Nat) : Val :=
  match code with
  | 0 => .ofInt (sext 8 bits)
  | 1 => .ofInt (sext 4 bits)
  | 8 => .ofInt (sext 8 bits) (-6)
  | 11 => .ofInt (sext 32 bits)
  | c => ((fmtOf c).getD fp32).decode bits

/-- An exact value converted to an integer output: nearest limit on overflow, 0 for NaN (R265). -/
def intOut (w : Nat) (mode : RMode) (v : Val) : Nat × Nat :=
  let hi : Int := 2 ^ (w - 1) - 1
  let lo : Int := -(2 ^ (w - 1))
  match v with
  | .nan => (0, fNAN)
  | .inf s => (wrapI w (if s then lo else hi), fSAT)
  | .fin s n d e =>
    let r := roundToInt mode s n d e
    if hi < r then (wrapI w hi, fSAT)
    else if r < lo then (wrapI w lo, fSAT)
    else (wrapI w r, 0)

/-- An exact value converted to a floating-point output (R265). -/
def fpOut (f : Fmt) (satfin : Bool) (mode : RMode) (v : Val) : Nat × Nat :=
  let (m, c) := f.maxFin
  match v with
  | .nan => (f.nanBits, fNAN)
  | .inf s =>
    if f.ieee then (f.infBits s, 0)
    else if satfin then (f.pattern s m c, 0) else (f.nanBits + b2n s * 2 ^ (f.eb + f.mb), fNAN)
  | .fin s n d e =>
    let (t, q) := roundBits (f.mb + 1) f.qmin mode s n d e
    if f.beyond t q then
      (if satfin then f.pattern s m c
       else if f.ieee then f.infBits s else f.nanBits + b2n s * 2 ^ (f.eb + f.mb), fOVF + flagIf (!satfin && !f.ieee) fNAN)
    else (f.pattern s t q, flagIf (t == 0 && n != 0) fUFL)

/-- An exact value converted to the output format of a code (R262, R265): bits and flags. -/
def outElem (code : Nat) (satfin : Bool) (mode : RMode) (v : Val) : Nat × Nat :=
  match code with
  | 0 => intOut 8 mode v
  | 1 => intOut 4 mode v
  | 11 => intOut 32 mode v
  | c => fpOut ((fmtOf c).getD fp32) satfin mode v

/-! ## The stochastic generator (R264) -/

/-- One step of xorshift32. -/
def xorshift (x : BitVec 32) : BitVec 32 :=
  let a := x ^^^ (x <<< 13)
  let b := a ^^^ (a >>> 17)
  b ^^^ (b <<< 5)

/-- The seed of generator number k at GTIME g; 0 is replaced by 1. -/
def srSeed (g : Word) (k : Nat) : BitVec 32 :=
  let x := (g.setWidth 32 : BitVec 32) ^^^ (BitVec.ofNat 32 k * 0x9E3779B9#32)
  if x = 0 then 1 else x

/-- Bits 31:8 of a value of the generator. -/
def srBits (x : BitVec 32) : Nat := x.toNat / 256

end Sys2Proof.Machine
end

