-- ==== Sys2Proof/Config.lean ====
section
/-! DEFINITION. What one implementation fixes and the spec leaves open: constants with no body, so that no
proof can rest on a value. Each is named in the assumption log. -/
namespace Sys2Proof.Config

/-- A fresh open value: applied to the state's counter, which the step advances (log entry 6). -/
opaque freeValue : Nat → Word

/-- Which FP32 number within the error of R298 special function `f` gives at an argument where no result is stated
exactly (log entry 7). -/
opaque sfnStep : Nat → F32 → Nat

/-- Which FP32 number within the error of R298 EXP gives at the exact difference of two FP32 values (R302; log
entry 7). -/
opaque expStep : F32 → F32 → Nat

/-- The hash of R122 that chooses the Wings set of (table handle, row) (log entry 8). -/
opaque wingsSet : Nat → Nat → Nat

/-- The four hashes of the frequency sketch of R123, by array number, table handle and row (log entry 8). -/
opaque sketchHash : Nat → Nat → Nat → Nat

/-- The digest a part forms of a domain's number, BUCKETS_LOG2 and member bitmap (R144; log entry 8). -/
opaque domainDigest : Nat → Nat → Nat → BitVec 32

/-- SHA-256 of a byte string, the published hash that R551 to R554 name (log entry 9). -/
opaque sha256 : Bytes → Bytes

/-- Whether a 64-byte ECDSA P-256 signature verifies: public key, signed hash, signature (R551; log entry 9). -/
opaque ecdsaVerify : Bytes → Bytes → Bytes → Bool

/-- The signature the part makes with its identity key, whose private half is never readable (R553;
log entry 9). -/
opaque identitySign : Bytes → Bytes

/-- The SHA-256 digest of the boot ROM, which the spec does not give (R553; log entry 9). -/
opaque bootRomDigest : Bytes

/-- The set of the host line cache that a host line goes to (R454; log entry 91). -/
opaque hlcSet : Nat → Nat

/-- The Device Serial Number (R450; log entry 91). -/
opaque deviceSerial : Word

/-- The payload length of a packet whose layout the spec does not give, by its TYPE and TAG; R500 bounds it
(log entry 10). -/
opaque wireBytes : Nat → Nat → Nat

/-- Receive buffers of the far end of a Twiben port, by sub-channel, in flits beyond one round trip (R499, log entry 96). -/
opaque linkBuffers : Nat → Nat → Nat

end Sys2Proof.Config
end

