-- ==== Sys2Proof/Machine/RegMap.lean ====
section
/-! DEFINITION. The register map: every register of BAR0, and the MSI-X table of BAR2 numbered from 2^28, with its
access codes (R10) and its reset value, from the register tables of the chapters. -/
namespace Sys2Proof.Machine

/-- A row of the register map: address, width in bytes, how many and their stride, the RW, RW1C and WO bits, the
value after cold reset, and whether its value is read from the typed state. -/
structure RegRow where
  base : Nat
  bytes : Nat
  count : Nat
  stride : Nat
  rw : Nat
  w1c : Nat
  wo : Nat
  reset : Nat
  computed : Bool
  deriving DecidableEq, Repr

abbrev Reg.DEV_ID : Nat := 0x0
abbrev Reg.DEV_LAYOUT : Nat := 0x8
abbrev Reg.DEV_CLK : Nat := 0x10
abbrev Reg.DEV_STAT : Nat := 0x18
abbrev Reg.DEV_STRAP : Nat := 0x1C
abbrev Reg.DEV_RST : Nat := 0x20
abbrev Reg.DEV_PWR : Nat := 0x24
abbrev Reg.HST_PORT (k : Nat) : Nat := 0x2000 + k * 0x4
abbrev Reg.HST_HDM : Nat := 0x2010
abbrev Reg.XLT_CTL : Nat := 0x2018
abbrev Reg.HST_STATUS : Nat := 0x2020
abbrev Reg.HST_INT_EN : Nat := 0x2024
abbrev Reg.XLT_FAULT : Nat := 0x2028
abbrev Reg.XLT_FAULT_ADDR : Nat := 0x2030
abbrev Reg.XLT_ATS_REQ : Nat := 0x2040
abbrev Reg.XLT_PRI_REQ : Nat := 0x2048
abbrev Reg.XLT_PRI_LATE : Nat := 0x2050
abbrev Reg.XLT_INVAL : Nat := 0x2058
abbrev Reg.XLT_FATAL : Nat := 0x2060
abbrev Reg.HLC_HIT : Nat := 0x2068
abbrev Reg.HLC_MISS : Nat := 0x2070
abbrev Reg.HST_BISNP : Nat := 0x2078
abbrev Reg.CFE_CTL : Nat := 0x100000
abbrev Reg.CFE_CUE : Nat := 0x100004
abbrev Reg.CFE_SCHED : Nat := 0x100008
abbrev Reg.CFE_CTX : Nat := 0x100010
abbrev Reg.CFE_STATUS : Nat := 0x100018
abbrev Reg.CFE_INT_EN : Nat := 0x10001C
abbrev Reg.CFE_ADMITTED : Nat := 0x100040
abbrev Reg.CFE_SWAPS : Nat := 0x100048
abbrev Reg.CFE_LATE : Nat := 0x100050
abbrev Reg.CFE_EXPIRED : Nat := 0x100058
abbrev Reg.CFE_CUE_REQS : Nat := 0x100060
abbrev Reg.CFE_CUE_DROPS : Nat := 0x100068
abbrev Reg.CFE_CUE_REFUSED : Nat := 0x100070
abbrev Reg.CFE_DIRECT : Nat := 0x100078
abbrev Reg.CFE_CUE_SEL : Nat := 0x100080
abbrev Reg.CFE_CUE_BIND : Nat := 0x100088
abbrev Reg.CFE_SCRIPTS : Nat := 0x100090
abbrev Reg.Q_CTL (k : Nat) : Nat := 0x101000 + k * 0x100
abbrev Reg.Q_SQBASE (k : Nat) : Nat := 0x101008 + k * 0x100
abbrev Reg.Q_CQBASE (k : Nat) : Nat := 0x101010 + k * 0x100
abbrev Reg.Q_DREC (k : Nat) : Nat := 0x101018 + k * 0x100
abbrev Reg.Q_CFG (k : Nat) : Nat := 0x101020 + k * 0x100
abbrev Reg.Q_PTR (k : Nat) : Nat := 0x101028 + k * 0x100
abbrev Reg.Q_CQPTR (k : Nat) : Nat := 0x101030 + k * 0x100
abbrev Reg.Q_INTMOD (k : Nat) : Nat := 0x101038 + k * 0x100
abbrev Reg.Q_SLIP (k : Nat) : Nat := 0x101040 + k * 0x100
abbrev Reg.Q_DBDROP (k : Nat) : Nat := 0x101048 + k * 0x100
abbrev Reg.RING_CTL : Nat := 0x180000
abbrev Reg.RING_POLICY : Nat := 0x180004
abbrev Reg.RING_STATUS : Nat := 0x180008
abbrev Reg.RING_INT_EN : Nat := 0x18000C
abbrev Reg.RING_STALL_INFO : Nat := 0x180010
abbrev Reg.RING_STALL_TIME : Nat := 0x180018
abbrev Reg.RING_CYCLE_INFO : Nat := 0x180020
abbrev Reg.RING_STALLS : Nat := 0x180040
abbrev Reg.RING_MISSES : Nat := 0x180048
abbrev Reg.RING_STALL_ABORTS : Nat := 0x180050
abbrev Reg.ISA_LOAD_ERR : Nat := 0x1C0000
abbrev Reg.ISA_TRAPS : Nat := 0x1C0008
abbrev Reg.TBL_HEAP : Nat := 0x200000
abbrev Reg.TBL_HEAP_USE : Nat := 0x200008
abbrev Reg.TBL_COUNT : Nat := 0x200010
abbrev Reg.TBL_QSEL : Nat := 0x200018
abbrev Reg.TBL_QINFO : Nat := 0x200020
abbrev Reg.TBL_QREF : Nat := 0x200028
abbrev Reg.TBL_QROWS : Nat := 0x200030
abbrev Reg.TBL_QLOST : Nat := 0x200038
abbrev Reg.TBL_STATUS : Nat := 0x200040
abbrev Reg.TBL_INT_EN : Nat := 0x200044
abbrev Reg.TBL_ERR_ROW : Nat := 0x200048
abbrev Reg.PLC_CTL : Nat := 0x240000
abbrev Reg.PLC_HOT : Nat := 0x240008
abbrev Reg.PLC_MIG : Nat := 0x240010
abbrev Reg.PLC_BAL : Nat := 0x240014
abbrev Reg.PLC_DOM_SEL : Nat := 0x240020
abbrev Reg.PLC_DOM_CFG : Nat := 0x240028
abbrev Reg.PLC_DOM_MEMBERS (k : Nat) : Nat := 0x240040 + k * 0x8
abbrev Reg.PLC_PIN_ROW : Nat := 0x240080
abbrev Reg.PLC_PIN_CMD : Nat := 0x240088
abbrev Reg.PLC_PIN_STAT : Nat := 0x24008C
abbrev Reg.PLC_CLMASK (k : Nat) : Nat := 0x240100 + k * 0x8
abbrev Reg.PLC_STATUS : Nat := 0x240200
abbrev Reg.PLC_INT_EN : Nat := 0x240204
abbrev Reg.PLC_EPOCH : Nat := 0x240300
abbrev Reg.PLC_MIG_DONE : Nat := 0x240308
abbrev Reg.PLC_MIG_ABORT : Nat := 0x240310
abbrev Reg.PLC_MIG_RETRY : Nat := 0x240318
abbrev Reg.PLC_HELD : Nat := 0x240320
abbrev Reg.PLC_REPL_ROWS : Nat := 0x240328
abbrev Reg.PLC_REPL_MIB : Nat := 0x240330
abbrev Reg.PLC_OVR_USED : Nat := 0x240338
abbrev Reg.PLC_OVR_REFUSED : Nat := 0x240340
abbrev Reg.PLC_DRAINING : Nat := 0x240348
abbrev Reg.PLC_DIE_LOAD (k : Nat) : Nat := 0x240380 + k * 0x8
abbrev Reg.LKP_COMBINE : Nat := 0x280000
abbrev Reg.LKP_STATUS : Nat := 0x280008
abbrev Reg.LKP_INT_EN : Nat := 0x28000C
abbrev Reg.LKP_ROWS : Nat := 0x280010
abbrev Reg.LKP_PARTIALS : Nat := 0x280018
abbrev Reg.LKP_COMBINED : Nat := 0x280020
abbrev Reg.LKP_PASSED : Nat := 0x280028
abbrev Reg.LKP_LATE : Nat := 0x280030
abbrev Reg.LKP_FALLBACK : Nat := 0x280038
abbrev Reg.LKP_RANGE : Nat := 0x280040
abbrev Reg.LKP_WINGS_CTL (k : Nat) : Nat := 0x281000 + k * 0x100
abbrev Reg.LKP_WINGS_STAT (k : Nat) : Nat := 0x281004 + k * 0x100
abbrev Reg.LKP_WINGS_HIT (k : Nat) : Nat := 0x281008 + k * 0x100
abbrev Reg.LKP_WINGS_MISS (k : Nat) : Nat := 0x281010 + k * 0x100
abbrev Reg.LKP_WINGS_REFUSED (k : Nat) : Nat := 0x281018 + k * 0x100
abbrev Reg.FEED_CTL : Nat := 0x300000
abbrev Reg.FEED_STATE (k : Nat) : Nat := 0x300008 + k * 0x4
abbrev Reg.FEED_SKID (k : Nat) : Nat := 0x300010 + k * 0x8
abbrev Reg.FEED_STRM_SEL : Nat := 0x300020
abbrev Reg.FEED_STRM_CFG : Nat := 0x300028
abbrev Reg.FEED_STRM_NEXT : Nat := 0x300030
abbrev Reg.FEED_STRM_APPLIED : Nat := 0x300038
abbrev Reg.FEED_STRM_DUP : Nat := 0x300040
abbrev Reg.FEED_STRM_STALE : Nat := 0x300048
abbrev Reg.FEED_STRM_LOST_ROW : Nat := 0x300050
abbrev Reg.FEED_STRM_NO_TABLE : Nat := 0x300058
abbrev Reg.FEED_STRM_RANGE : Nat := 0x300060
abbrev Reg.FEED_STRM_BAD_OP : Nat := 0x300068
abbrev Reg.FEED_STRM_NONFINITE : Nat := 0x300070
abbrev Reg.FEED_STRM_SATURATED : Nat := 0x300078
abbrev Reg.FEED_STRM_REC_CRC : Nat := 0x300080
abbrev Reg.FEED_STRM_GAP_LOST : Nat := 0x300088
abbrev Reg.FEED_STRM_APPLIED_N : Nat := 0x300090
abbrev Reg.FEED_GAP_INFO : Nat := 0x300100
abbrev Reg.FEED_GAP_FIRST : Nat := 0x300108
abbrev Reg.FEED_GAP_LAST : Nat := 0x300110
abbrev Reg.FEED_PORT_FRAMES (k : Nat) : Nat := 0x300180 + k * 0x40
abbrev Reg.FEED_PORT_BAD (k : Nat) : Nat := 0x300188 + k * 0x40
abbrev Reg.FEED_PORT_UNBOUND (k : Nat) : Nat := 0x300190 + k * 0x40
abbrev Reg.FEED_PORT_OVERRUN (k : Nat) : Nat := 0x300198 + k * 0x40
abbrev Reg.FEED_PORT_PAUSES (k : Nat) : Nat := 0x3001A0 + k * 0x40
abbrev Reg.FEED_PORT_QDELAY (k : Nat) : Nat := 0x3001A8 + k * 0x40
abbrev Reg.FEED_PAIR_REQ : Nat := 0x300200
abbrev Reg.FEED_PAIR_TICKET : Nat := 0x300208
abbrev Reg.FEED_PAIR_TSTAT : Nat := 0x300210
abbrev Reg.FEED_PAIR_STAT : Nat := 0x300218
abbrev Reg.FEED_STATUS : Nat := 0x300300
abbrev Reg.FEED_INT_EN : Nat := 0x300304
abbrev Reg.NP_CTL (k : Nat) : Nat := 0x301000 + k * 0x100
abbrev Reg.NP_MAC (k : Nat) : Nat := 0x301008 + k * 0x100
abbrev Reg.NP_IP4 (k : Nat) : Nat := 0x301010 + k * 0x100
abbrev Reg.NP_IP6_LO (k : Nat) : Nat := 0x301018 + k * 0x100
abbrev Reg.NP_IP6_HI (k : Nat) : Nat := 0x301020 + k * 0x100
abbrev Reg.NP_RX_FRAMES (k : Nat) : Nat := 0x301040 + k * 0x100
abbrev Reg.NP_TX_FRAMES (k : Nat) : Nat := 0x301048 + k * 0x100
abbrev Reg.NP_RX_DROP (k : Nat) : Nat := 0x301050 + k * 0x100
abbrev Reg.NP_FCS_ERR (k : Nat) : Nat := 0x301058 + k * 0x100
abbrev Reg.NP_PFC_RX (k : Nat) : Nat := 0x301060 + k * 0x100
abbrev Reg.NP_PTP_RX (k : Nat) : Nat := 0x301068 + k * 0x100
abbrev Reg.NP_ROCE_SEL : Nat := 0x302000
abbrev Reg.NP_ROCE_CFG : Nat := 0x302008
abbrev Reg.NP_ROCE_RKEY : Nat := 0x302010
abbrev Reg.NP_ROCE_RMAC : Nat := 0x302018
abbrev Reg.NP_ROCE_RIP_LO : Nat := 0x302020
abbrev Reg.NP_ROCE_RIP_HI : Nat := 0x302028
abbrev Reg.LNK_NODE : Nat := 0x400000
abbrev Reg.LNK_TOPO : Nat := 0x400004
abbrev Reg.LNK_CTL : Nat := 0x400008
abbrev Reg.LNK_E2E : Nat := 0x40000C
abbrev Reg.LNK_STATUS : Nat := 0x400010
abbrev Reg.LNK_INT_EN : Nat := 0x400014
abbrev Reg.LNK_E2E_RETRY : Nat := 0x400040
abbrev Reg.LNK_E2E_FAIL : Nat := 0x400048
abbrev Reg.LNK_LATE : Nat := 0x400050
abbrev Reg.LNK_PKT_BAD : Nat := 0x400058
abbrev Reg.LNK_FWD : Nat := 0x400060
abbrev Reg.LNK_PORT (k : Nat) : Nat := 0x400100 + k * 0x4
abbrev Reg.LNK_FEC_CORR (k : Nat) : Nat := 0x400200 + k * 0x20
abbrev Reg.LNK_FEC_UNCORR (k : Nat) : Nat := 0x400208 + k * 0x20
abbrev Reg.LNK_CRC_ERR (k : Nat) : Nat := 0x400210 + k * 0x20
abbrev Reg.LNK_REPLAYS (k : Nat) : Nat := 0x400218 + k * 0x20
abbrev Reg.TIME_NOW : Nat := 0x500000
abbrev Reg.TIME_CTL : Nat := 0x500008
abbrev Reg.TIME_STAT : Nat := 0x500010
abbrev Reg.TIME_MARK : Nat := 0x500018
abbrev Reg.TIME_INC : Nat := 0x500020
abbrev Reg.TIME_SKEW : Nat := 0x500028
abbrev Reg.TIME_ASYM : Nat := 0x50002C
abbrev Reg.TIME_STATUS : Nat := 0x500030
abbrev Reg.TIME_INT_EN : Nat := 0x500034
abbrev Reg.RAS_CTL : Nat := 0x600000
abbrev Reg.RAS_LOSS : Nat := 0x600004
abbrev Reg.RAS_STATUS : Nat := 0x600008
abbrev Reg.RAS_INT_EN : Nat := 0x60000C
abbrev Reg.RAS_ALERT_EN : Nat := 0x600010
abbrev Reg.RAS_BAD_ACCESS : Nat := 0x600018
abbrev Reg.RAS_UNIT_SEL : Nat := 0x600020
abbrev Reg.RAS_UNIT_STAT : Nat := 0x600028
abbrev Reg.RAS_FENCE_CL (k : Nat) : Nat := 0x600030 + k * 0x8
abbrev Reg.RAS_WATCH : Nat := 0x600040
abbrev Reg.RAS_LOST_NODE : Nat := 0x600048
abbrev Reg.RAS_LAST_CAUSE : Nat := 0x600050
abbrev Reg.RAS_LOG_HEAD : Nat := 0x600058
abbrev Reg.RAS_DUMP : Nat := 0x600060
abbrev Reg.RAS_LOST_MAP (k : Nat) : Nat := 0x600080 + k * 0x8
abbrev Reg.RAS_CHECK_FAIL : Nat := 0x600100
abbrev Reg.RAS_SELFTESTS : Nat := 0x600108
abbrev Reg.RAS_SRAM_CE : Nat := 0x600110
abbrev Reg.RAS_SRAM_UE : Nat := 0x600118
abbrev Reg.RAS_PARITY : Nat := 0x600120
abbrev Reg.RAS_DUP : Nat := 0x600128
abbrev Reg.RAS_DUP_OLD : Nat := 0x600130
abbrev Reg.MSS_MB_CTL : Nat := 0x700000
abbrev Reg.MSS_MB_STAT : Nat := 0x700004
abbrev Reg.MSS_FW : Nat := 0x700010
abbrev Reg.MSS_OTP_SEL : Nat := 0x700020
abbrev Reg.MSS_OTP_INFO : Nat := 0x700024
abbrev Reg.MSS_OTP_DATA (k : Nat) : Nat := 0x700028 + k * 0x8
abbrev Reg.MSS_MCTP : Nat := 0x700048
abbrev Reg.MSS_MB_DATA (k : Nat) : Nat := 0x701000 + k * 0x4
abbrev Reg.CL_STAT (k : Nat) : Nat := 0x1000000 + k * 0x20000
abbrev Reg.CL_APBASE (k : Nat) : Nat := 0x1000008 + k * 0x20000
abbrev Reg.CL_TRAP (k : Nat) : Nat := 0x1000010 + k * 0x20000
abbrev Reg.CL_TRAP_PC (k : Nat) : Nat := 0x1000018 + k * 0x20000
abbrev Reg.CL_ISSUED (k : Nat) : Nat := 0x1000020 + k * 0x20000
abbrev Reg.CL_ICMISS (k : Nat) : Nat := 0x1000028 + k * 0x20000
abbrev Reg.GRP_MASK_LO (k : Nat) : Nat := 0x210FF00 + k * 0x20000
abbrev Reg.GRP_MASK_HI (k : Nat) : Nat := 0x210FF08 + k * 0x20000
abbrev Reg.MEM_STAT (k : Nat) : Nat := 0x4000000 + k * 0x100000
abbrev Reg.MEM_CTL (k : Nat) : Nat := 0x4000004 + k * 0x100000
abbrev Reg.MEM_CE (k : Nat) : Nat := 0x4000008 + k * 0x100000
abbrev Reg.MEM_UE (k : Nat) : Nat := 0x4000010 + k * 0x100000
abbrev Reg.MEM_ERR (k : Nat) : Nat := 0x4000018 + k * 0x100000
abbrev Reg.MSIX_ADDR_LO (k : Nat) : Nat := 0x10090000 + k * 0x10
abbrev Reg.MSIX_ADDR_HI (k : Nat) : Nat := 0x10090004 + k * 0x10
abbrev Reg.MSIX_DATA (k : Nat) : Nat := 0x10090008 + k * 0x10
abbrev Reg.MSIX_VCTL (k : Nat) : Nat := 0x1009000C + k * 0x10
abbrev Reg.MSIX_PBA : Nat := 0x10091000

def regRows0 : List RegRow := [
  ⟨0x0, 4, 1, 0x4, 0x0, 0x0, 0x0, 0x16001110, false⟩,
  ⟨0x8, 4, 1, 0x4, 0x0, 0x0, 0x0, 0x50102880, false⟩,
  ⟨0x10, 8, 1, 0x8, 0x0, 0x0, 0x0, 0x271007D0064003E8, true⟩,
  ⟨0x18, 4, 1, 0x4, 0x0, 0x0, 0x0, 0x0, true⟩,
  ⟨0x1C, 4, 1, 0x4, 0x0, 0x0, 0x0, 0x0, true⟩,
  ⟨0x20, 4, 1, 0x4, 0x0, 0x0, 0x800000FF, 0x0, false⟩,
  ⟨0x24, 4, 1, 0x4, 0xFFFF0000, 0x0, 0x0, 0x3E80000, false⟩,
  ⟨0x2000, 4, 2, 0x4, 0x0, 0x0, 0x0, 0x0, true⟩,
  ⟨0x2010, 4, 1, 0x4, 0x7FFC000, 0x0, 0x0, 0xFC, true⟩,
  ⟨0x2018, 4, 1, 0x4, 0xFFFFFFFF, 0x0, 0x0, 0x7D0000A, false⟩,
  ⟨0x2020, 4, 1, 0x4, 0x0, 0x3F, 0x0, 0x0, false⟩,
  ⟨0x2024, 4, 1, 0x4, 0x3F, 0x0, 0x0, 0x0, false⟩,
  ⟨0x2028, 8, 1, 0x8, 0x0, 0x0, 0x0, 0x0, false⟩,
  ⟨0x2030, 8, 1, 0x8, 0x0, 0x0, 0x0, 0x0, false⟩,
  ⟨0x2040, 8, 1, 0x8, 0x0, 0x0, 0x0, 0x0, false⟩,
  ⟨0x2048, 8, 1, 0x8, 0x0, 0x0, 0x0, 0x0, false⟩,
  ⟨0x2050, 8, 1, 0x8, 0x0, 0x0, 0x0, 0x0, false⟩,
  ⟨0x2058, 8, 1, 0x8, 0x0, 0x0, 0x0, 0x0, false⟩,
  ⟨0x2060, 8, 1, 0x8, 0x0, 0x0, 0x0, 0x0, false⟩,
  ⟨0x2068, 8, 1, 0x8, 0x0, 0x0, 0x0, 0x0, false⟩,
  ⟨0x2070, 8, 1, 0x8, 0x0, 0x0, 0x0, 0x0, false⟩,
  ⟨0x2078, 8, 1, 0x8, 0x0, 0x0, 0x0, 0x0, false⟩,
  ⟨0x100000, 4, 1, 0x4, 0x8000FFFF, 0x0, 0x0, 0xB7FD, false⟩,
  ⟨0x100004, 4, 1, 0x4, 0xFFFF0000, 0x0, 0x0, 0x3E80000, false⟩,
  ⟨0x100008, 4, 1, 0x4, 0xFFFF, 0x0, 0x0, 0x32, false⟩,
  ⟨0x100010, 8, 1, 0x8, 0x0, 0x0, 0x0, 0x1000, true⟩,
  ⟨0x100018, 4, 1, 0x4, 0x0, 0x7F, 0x0, 0x0, false⟩,
  ⟨0x10001C, 4, 1, 0x4, 0x7F, 0x0, 0x0, 0x0, false⟩,
  ⟨0x100040, 8, 1, 0x8, 0x0, 0x0, 0x0, 0x0, false⟩,
  ⟨0x100048, 8, 1, 0x8, 0x0, 0x0, 0x0, 0x0, false⟩,
  ⟨0x100050, 8, 1, 0x8, 0x0, 0x0, 0x0, 0x0, false⟩,
  ⟨0x100058, 8, 1, 0x8, 0x0, 0x0, 0x0, 0x0, false⟩,
  ⟨0x100060, 8, 1, 0x8, 0x0, 0x0, 0x0, 0x0, false⟩,
  ⟨0x100068, 8, 1, 0x8, 0x0, 0x0, 0x0, 0x0, false⟩,
  ⟨0x100070, 8, 1, 0x8, 0x0, 0x0, 0x0, 0x0, false⟩,
  ⟨0x100078, 8, 1, 0x8, 0x0, 0x0, 0x0, 0x0, false⟩,
  ⟨0x100080, 4, 1, 0x4, 0x3F, 0x0, 0x0, 0x0, false⟩,
  ⟨0x100088, 8, 1, 0x8, 0xFF80FFFF0000FFFF, 0x0, 0x0, 0x0, true⟩,
  ⟨0x100090, 4, 1, 0x4, 0x0, 0x0, 0x0, 0x0, true⟩,
  ⟨0x101000, 4, 9, 0x100, 0xC0000000, 0x0, 0x0, 0x0, true⟩]

def regRows1 : List RegRow := [
  ⟨0x101008, 8, 9, 0x100, 0xFFFFFFFFFFFFF000, 0x0, 0x0, 0x0, false⟩,
  ⟨0x101010, 8, 9, 0x100, 0xFFFFFFFFFFFFF000, 0x0, 0x0, 0x0, false⟩,
  ⟨0x101018, 8, 9, 0x100, 0xFFFFFFFFFFFFFFC0, 0x0, 0x0, 0x0, false⟩,
  ⟨0x101020, 8, 9, 0x100, 0xFFFFFFFEFFFFFFFF, 0x0, 0x0, 0x31800005014, false⟩,
  ⟨0x101028, 8, 9, 0x100, 0x0, 0x0, 0x0, 0x0, true⟩,
  ⟨0x101030, 8, 9, 0x100, 0x0, 0x0, 0x0, 0x0, true⟩,
  ⟨0x101038, 4, 9, 0x100, 0xFFFFFFFF, 0x0, 0x0, 0x1, false⟩,
  ⟨0x101040, 4, 9, 0x100, 0x0, 0x0, 0x0, 0x0, false⟩,
  ⟨0x101048, 8, 9, 0x100, 0x0, 0x0, 0x0, 0x0, false⟩,
  ⟨0x180000, 4, 1, 0x4, 0xFFFF, 0x0, 0x0, 0x32, false⟩,
  ⟨0x180004, 4, 1, 0x4, 0x1FF, 0x0, 0x0, 0x0, false⟩,
  ⟨0x180008, 4, 1, 0x4, 0x0, 0xF, 0x0, 0x0, false⟩,
  ⟨0x18000C, 4, 1, 0x4, 0xF, 0x0, 0x0, 0x0, false⟩,
  ⟨0x180010, 8, 1, 0x8, 0x0, 0x0, 0x0, 0x0, false⟩,
  ⟨0x180018, 8, 1, 0x8, 0x0, 0x0, 0x0, 0x0, false⟩,
  ⟨0x180020, 4, 1, 0x4, 0x0, 0x0, 0x0, 0x0, false⟩,
  ⟨0x180040, 8, 1, 0x8, 0x0, 0x0, 0x0, 0x0, false⟩,
  ⟨0x180048, 8, 1, 0x8, 0x0, 0x0, 0x0, 0x0, false⟩,
  ⟨0x180050, 8, 1, 0x8, 0x0, 0x0, 0x0, 0x0, false⟩,
  ⟨0x1C0000, 8, 1, 0x8, 0x0, 0x0, 0x0, 0x0, false⟩,
  ⟨0x1C0008, 8, 1, 0x8, 0x0, 0x0, 0x0, 0x0, false⟩,
  ⟨0x200000, 4, 1, 0x4, 0x7F, 0x0, 0x0, 0x40, false⟩,
  ⟨0x200008, 8, 1, 0x8, 0x0, 0x0, 0x0, 0x0, true⟩,
  ⟨0x200010, 8, 1, 0x8, 0x0, 0x0, 0x0, 0x0, true⟩,
  ⟨0x200018, 4, 1, 0x4, 0xFFFF, 0x0, 0x0, 0x0, false⟩,
  ⟨0x200020, 8, 1, 0x8, 0x0, 0x0, 0x0, 0x0, true⟩,
  ⟨0x200028, 8, 1, 0x8, 0x0, 0x0, 0x0, 0x0, true⟩,
  ⟨0x200030, 8, 1, 0x8, 0x0, 0x0, 0x0, 0x0, true⟩,
  ⟨0x200038, 8, 1, 0x8, 0x0, 0x0, 0x0, 0x0, true⟩,
  ⟨0x200040, 4, 1, 0x4, 0x0, 0x1F, 0x0, 0x0, false⟩,
  ⟨0x200044, 4, 1, 0x4, 0x1F, 0x0, 0x0, 0x0, false⟩,
  ⟨0x200048, 8, 1, 0x8, 0x0, 0x0, 0x0, 0x0, false⟩,
  ⟨0x240000, 4, 1, 0x4, 0xE00000FF, 0x0, 0x0, 0xE0000010, false⟩,
  ⟨0x240008, 8, 1, 0x8, 0xFFFF0000FFFFFFFF, 0x0, 0x0, 0x3E8000000320064, false⟩,
  ⟨0x240010, 4, 1, 0x4, 0xFFFFFFFF, 0x0, 0x0, 0x4008000A, false⟩,
  ⟨0x240014, 4, 1, 0x4, 0xFFFFFFFF, 0x0, 0x0, 0x190186A0, false⟩,
  ⟨0x240020, 4, 1, 0x4, 0x7, 0x0, 0x0, 0x0, false⟩,
  ⟨0x240028, 8, 1, 0x8, 0xFFFF001F80000000, 0x0, 0x0, 0x0, true⟩,
  ⟨0x240040, 8, 4, 0x8, 0xFFFFFFFFFFFFFFFF, 0x0, 0x0, 0x0, true⟩,
  ⟨0x240080, 8, 1, 0x8, 0xFFFFFFFFFFFFFF, 0x0, 0x0, 0x0, false⟩]

def regRows2 : List RegRow := [
  ⟨0x240088, 4, 1, 0x4, 0x0, 0x0, 0x3F03, 0x0, false⟩,
  ⟨0x24008C, 4, 1, 0x4, 0x0, 0x0, 0x0, 0x0, true⟩,
  ⟨0x240100, 8, 18, 0x8, 0xFFFFFFFFFFFFFFFF, 0x0, 0x0, 0xFFFFFFFFFFFFFFFF, false⟩,
  ⟨0x240200, 4, 1, 0x4, 0x0, 0x7F, 0x0, 0x0, false⟩,
  ⟨0x240204, 4, 1, 0x4, 0x7F, 0x0, 0x0, 0x0, false⟩,
  ⟨0x240300, 8, 1, 0x8, 0x0, 0x0, 0x0, 0x0, true⟩,
  ⟨0x240308, 8, 1, 0x8, 0x0, 0x0, 0x0, 0x0, false⟩,
  ⟨0x240310, 8, 1, 0x8, 0x0, 0x0, 0x0, 0x0, false⟩,
  ⟨0x240318, 8, 1, 0x8, 0x0, 0x0, 0x0, 0x0, false⟩,
  ⟨0x240320, 8, 1, 0x8, 0x0, 0x0, 0x0, 0x0, false⟩,
  ⟨0x240328, 8, 1, 0x8, 0x0, 0x0, 0x0, 0x0, true⟩,
  ⟨0x240330, 8, 1, 0x8, 0x0, 0x0, 0x0, 0x0, true⟩,
  ⟨0x240338, 8, 1, 0x8, 0x0, 0x0, 0x0, 0x0, true⟩,
  ⟨0x240340, 8, 1, 0x8, 0x0, 0x0, 0x0, 0x0, false⟩,
  ⟨0x240348, 8, 1, 0x8, 0x0, 0x0, 0x0, 0x0, true⟩,
  ⟨0x240380, 8, 8, 0x8, 0x0, 0x0, 0x0, 0x0, false⟩,
  ⟨0x280000, 4, 1, 0x4, 0x800003FF, 0x0, 0x0, 0x800000FA, false⟩,
  ⟨0x280008, 4, 1, 0x4, 0x0, 0x1F, 0x0, 0x0, false⟩,
  ⟨0x28000C, 4, 1, 0x4, 0x1F, 0x0, 0x0, 0x0, false⟩,
  ⟨0x280010, 8, 1, 0x8, 0x0, 0x0, 0x0, 0x0, false⟩,
  ⟨0x280018, 8, 1, 0x8, 0x0, 0x0, 0x0, 0x0, false⟩,
  ⟨0x280020, 8, 1, 0x8, 0x0, 0x0, 0x0, 0x0, false⟩,
  ⟨0x280028, 8, 1, 0x8, 0x0, 0x0, 0x0, 0x0, false⟩,
  ⟨0x280030, 8, 1, 0x8, 0x0, 0x0, 0x0, 0x0, false⟩,
  ⟨0x280038, 8, 1, 0x8, 0x0, 0x0, 0x0, 0x0, false⟩,
  ⟨0x280040, 8, 1, 0x8, 0x0, 0x0, 0x0, 0x0, false⟩,
  ⟨0x281000, 4, 8, 0x100, 0xBFF00000, 0x0, 0x40000000, 0x9E200000, false⟩,
  ⟨0x281004, 4, 8, 0x100, 0x0, 0x0, 0x0, 0x80000000, true⟩,
  ⟨0x281008, 8, 8, 0x100, 0x0, 0x0, 0x0, 0x0, false⟩,
  ⟨0x281010, 8, 8, 0x100, 0x0, 0x0, 0x0, 0x0, false⟩,
  ⟨0x281018, 8, 8, 0x100, 0x0, 0x0, 0x0, 0x0, false⟩,
  ⟨0x300000, 4, 1, 0x4, 0xF800FFFF, 0x0, 0x0, 0x1800B7FE, false⟩,
  ⟨0x300008, 4, 2, 0x4, 0x0, 0x0, 0x0, 0x0, true⟩,
  ⟨0x300010, 8, 2, 0x8, 0xFFFFFFFF, 0x0, 0x0, 0xF82F0840064400, false⟩,
  ⟨0x300020, 4, 1, 0x4, 0x3F, 0x0, 0x0, 0x0, false⟩,
  ⟨0x300028, 8, 1, 0x8, 0xF000FFFFFFFFFFF0, 0x0, 0x0, 0x200000000640A320, true⟩,
  ⟨0x300030, 8, 1, 0x8, 0x0, 0x0, 0x0, 0x0, true⟩,
  ⟨0x300038, 8, 1, 0x8, 0x0, 0x0, 0x0, 0x0, true⟩,
  ⟨0x300040, 8, 1, 0x8, 0x0, 0x0, 0x0, 0x0, true⟩,
  ⟨0x300048, 8, 1, 0x8, 0x0, 0x0, 0x0, 0x0, true⟩]

def regRows3 : List RegRow := [
  ⟨0x300050, 8, 1, 0x8, 0x0, 0x0, 0x0, 0x0, true⟩,
  ⟨0x300058, 8, 1, 0x8, 0x0, 0x0, 0x0, 0x0, true⟩,
  ⟨0x300060, 8, 1, 0x8, 0x0, 0x0, 0x0, 0x0, true⟩,
  ⟨0x300068, 8, 1, 0x8, 0x0, 0x0, 0x0, 0x0, true⟩,
  ⟨0x300070, 8, 1, 0x8, 0x0, 0x0, 0x0, 0x0, true⟩,
  ⟨0x300078, 8, 1, 0x8, 0x0, 0x0, 0x0, 0x0, true⟩,
  ⟨0x300080, 8, 1, 0x8, 0x0, 0x0, 0x0, 0x0, true⟩,
  ⟨0x300088, 8, 1, 0x8, 0x0, 0x0, 0x0, 0x0, true⟩,
  ⟨0x300090, 8, 1, 0x8, 0x0, 0x0, 0x0, 0x0, true⟩,
  ⟨0x300100, 4, 1, 0x4, 0x0, 0x0, 0x0, 0x0, false⟩,
  ⟨0x300108, 8, 1, 0x8, 0x0, 0x0, 0x0, 0x0, false⟩,
  ⟨0x300110, 8, 1, 0x8, 0x0, 0x0, 0x0, 0x0, false⟩,
  ⟨0x300180, 8, 2, 0x40, 0x0, 0x0, 0x0, 0x0, false⟩,
  ⟨0x300188, 8, 2, 0x40, 0x0, 0x0, 0x0, 0x0, false⟩,
  ⟨0x300190, 8, 2, 0x40, 0x0, 0x0, 0x0, 0x0, false⟩,
  ⟨0x300198, 8, 2, 0x40, 0x0, 0x0, 0x0, 0x0, false⟩,
  ⟨0x3001A0, 8, 2, 0x40, 0x0, 0x0, 0x0, 0x0, false⟩,
  ⟨0x3001A8, 8, 2, 0x40, 0x0, 0x0, 0x0, 0x0, false⟩,
  ⟨0x300200, 4, 1, 0x4, 0xFFFF, 0x0, 0x80000000, 0x7D0, false⟩,
  ⟨0x300208, 8, 1, 0x8, 0x0, 0x0, 0x0, 0x0, true⟩,
  ⟨0x300210, 4, 1, 0x4, 0x0, 0x0, 0x0, 0x0, true⟩,
  ⟨0x300218, 8, 1, 0x8, 0x0, 0x0, 0x0, 0x0, true⟩,
  ⟨0x300300, 4, 1, 0x4, 0x0, 0x7F, 0x0, 0x0, false⟩,
  ⟨0x300304, 4, 1, 0x4, 0x7F, 0x0, 0x0, 0x0, false⟩,
  ⟨0x301000, 4, 10, 0x100, 0xA0FF0FFF, 0x0, 0x0, 0x80000, false⟩,
  ⟨0x301008, 8, 10, 0x100, 0xFFFFFFFFFFFF, 0x0, 0x0, 0x0, false⟩,
  ⟨0x301010, 4, 10, 0x100, 0xFFFFFFFF, 0x0, 0x0, 0x0, false⟩,
  ⟨0x301018, 8, 10, 0x100, 0xFFFFFFFFFFFFFFFF, 0x0, 0x0, 0x0, false⟩,
  ⟨0x301020, 8, 10, 0x100, 0xFFFFFFFFFFFFFFFF, 0x0, 0x0, 0x0, false⟩,
  ⟨0x301040, 8, 10, 0x100, 0x0, 0x0, 0x0, 0x0, false⟩,
  ⟨0x301048, 8, 10, 0x100, 0x0, 0x0, 0x0, 0x0, false⟩,
  ⟨0x301050, 8, 10, 0x100, 0x0, 0x0, 0x0, 0x0, false⟩,
  ⟨0x301058, 8, 10, 0x100, 0x0, 0x0, 0x0, 0x0, false⟩,
  ⟨0x301060, 8, 10, 0x100, 0x0, 0x0, 0x0, 0x0, false⟩,
  ⟨0x301068, 8, 10, 0x100, 0x0, 0x0, 0x0, 0x0, false⟩,
  ⟨0x302000, 4, 1, 0x4, 0x3F, 0x0, 0x0, 0x0, false⟩,
  ⟨0x302008, 8, 1, 0x8, 0xFF000000FFFFFFFF, 0x0, 0x0, 0x400000010000000, true⟩,
  ⟨0x302010, 4, 1, 0x4, 0xFFFFFFFF, 0x0, 0x0, 0x0, true⟩,
  ⟨0x302018, 8, 1, 0x8, 0xFFFFFFFFFFFF, 0x0, 0x0, 0x0, true⟩,
  ⟨0x302020, 8, 1, 0x8, 0xFFFFFFFFFFFFFFFF, 0x0, 0x0, 0x0, true⟩]

def regRows4 : List RegRow := [
  ⟨0x302028, 8, 1, 0x8, 0xFFFFFFFFFFFFFFFF, 0x0, 0x0, 0x0, true⟩,
  ⟨0x400000, 4, 1, 0x4, 0xF0, 0x0, 0x0, 0x0, true⟩,
  ⟨0x400004, 4, 1, 0x4, 0xFF, 0x0, 0x0, 0xF, false⟩,
  ⟨0x400008, 4, 1, 0x4, 0xE00000FF, 0x0, 0x0, 0x19, false⟩,
  ⟨0x40000C, 4, 1, 0x4, 0xFFFF, 0x0, 0x0, 0x64, false⟩,
  ⟨0x400010, 4, 1, 0x4, 0x0, 0x3F, 0x0, 0x0, false⟩,
  ⟨0x400014, 4, 1, 0x4, 0x3F, 0x0, 0x0, 0x0, false⟩,
  ⟨0x400040, 8, 1, 0x8, 0x0, 0x0, 0x0, 0x0, false⟩,
  ⟨0x400048, 8, 1, 0x8, 0x0, 0x0, 0x0, 0x0, false⟩,
  ⟨0x400050, 8, 1, 0x8, 0x0, 0x0, 0x0, 0x0, false⟩,
  ⟨0x400058, 8, 1, 0x8, 0x0, 0x0, 0x0, 0x0, false⟩,
  ⟨0x400060, 8, 1, 0x8, 0x0, 0x0, 0x0, 0x0, false⟩,
  ⟨0x400100, 4, 32, 0x4, 0x0, 0x0, 0x0, 0xF000000, true⟩,
  ⟨0x400200, 8, 32, 0x20, 0x0, 0x0, 0x0, 0x0, false⟩,
  ⟨0x400208, 8, 32, 0x20, 0x0, 0x0, 0x0, 0x0, false⟩,
  ⟨0x400210, 8, 32, 0x20, 0x0, 0x0, 0x0, 0x0, false⟩,
  ⟨0x400218, 8, 32, 0x20, 0x0, 0x0, 0x0, 0x0, false⟩,
  ⟨0x500000, 8, 1, 0x8, 0x0, 0x0, 0x0, 0x0, true⟩,
  ⟨0x500008, 4, 1, 0x4, 0xF8FFFFFF, 0x0, 0x0, 0x1401, false⟩,
  ⟨0x500010, 8, 1, 0x8, 0x0, 0x0, 0x0, 0x0, true⟩,
  ⟨0x500018, 8, 1, 0x8, 0x0, 0x0, 0x0, 0x0, true⟩,
  ⟨0x500020, 8, 1, 0x8, 0x0, 0x0, 0x0, 0x199999999A, true⟩,
  ⟨0x500028, 4, 1, 0x4, 0xFFFFFFFF, 0x0, 0x0, 0x0, false⟩,
  ⟨0x50002C, 4, 1, 0x4, 0xFFFFFFFF, 0x0, 0x0, 0x0, false⟩,
  ⟨0x500030, 4, 1, 0x4, 0x0, 0x7F, 0x0, 0x0, false⟩,
  ⟨0x500034, 4, 1, 0x4, 0x7F, 0x0, 0x0, 0x0, false⟩,
  ⟨0x600000, 4, 1, 0x4, 0xFFFFFFF0, 0x0, 0x0, 0x2580A30, false⟩,
  ⟨0x600004, 4, 1, 0x4, 0xFFFF, 0x0, 0x0, 0x28, false⟩,
  ⟨0x600008, 4, 1, 0x4, 0x0, 0x7FF, 0x0, 0x0, false⟩,
  ⟨0x60000C, 4, 1, 0x4, 0x7FF, 0x0, 0x0, 0x0, false⟩,
  ⟨0x600010, 4, 1, 0x4, 0x7FF, 0x0, 0x0, 0x18, false⟩,
  ⟨0x600018, 8, 1, 0x8, 0x0, 0x8000000000000000, 0x0, 0x0, false⟩,
  ⟨0x600020, 4, 1, 0x4, 0xFFFF, 0x0, 0x0, 0x0, false⟩,
  ⟨0x600028, 8, 1, 0x8, 0x0, 0x0, 0x0, 0x0, true⟩,
  ⟨0x600030, 8, 2, 0x8, 0x0, 0x0, 0x0, 0x0, true⟩,
  ⟨0x600040, 4, 1, 0x4, 0x0, 0x0, 0x0, 0x0, true⟩,
  ⟨0x600048, 8, 1, 0x8, 0x0, 0x0, 0x0, 0x0, false⟩,
  ⟨0x600050, 4, 1, 0x4, 0x0, 0x0, 0x0, 0x0, false⟩,
  ⟨0x600058, 8, 1, 0x8, 0x0, 0x0, 0x0, 0x0, true⟩,
  ⟨0x600060, 8, 1, 0x8, 0x83FFFFFFFFFFFFFF, 0x0, 0x0, 0x0, false⟩]

def regRows5 : List RegRow := [
  ⟨0x600080, 8, 4, 0x8, 0x0, 0x0, 0x0, 0x0, false⟩,
  ⟨0x600100, 8, 1, 0x8, 0x0, 0x0, 0x0, 0x0, false⟩,
  ⟨0x600108, 8, 1, 0x8, 0x0, 0x0, 0x0, 0x0, false⟩,
  ⟨0x600110, 8, 1, 0x8, 0x0, 0x0, 0x0, 0x0, false⟩,
  ⟨0x600118, 8, 1, 0x8, 0x0, 0x0, 0x0, 0x0, false⟩,
  ⟨0x600120, 8, 1, 0x8, 0x0, 0x0, 0x0, 0x0, false⟩,
  ⟨0x600128, 8, 1, 0x8, 0x0, 0x0, 0x0, 0x0, false⟩,
  ⟨0x600130, 8, 1, 0x8, 0x0, 0x0, 0x0, 0x0, false⟩,
  ⟨0x700000, 4, 1, 0x4, 0xFF1FFF, 0x0, 0x80000000, 0x0, false⟩,
  ⟨0x700004, 4, 1, 0x4, 0x0, 0x0, 0x0, 0x0, false⟩,
  ⟨0x700010, 8, 1, 0x8, 0x0, 0x0, 0x0, 0x0, true⟩,
  ⟨0x700020, 4, 1, 0x4, 0xFF, 0x0, 0x0, 0x0, false⟩,
  ⟨0x700024, 4, 1, 0x4, 0x0, 0x0, 0x0, 0x0, true⟩,
  ⟨0x700028, 8, 4, 0x8, 0x0, 0x0, 0x0, 0x0, true⟩,
  ⟨0x700048, 4, 1, 0x4, 0x0, 0x0, 0x0, 0x0, false⟩,
  ⟨0x701000, 4, 1024, 0x4, 0xFFFFFFFF, 0x0, 0x0, 0x0, false⟩,
  ⟨0x1000000, 4, 128, 0x20000, 0x0, 0x0, 0x0, 0x0, true⟩,
  ⟨0x1000008, 4, 128, 0x20000, 0xFF, 0x0, 0x0, 0x0, false⟩,
  ⟨0x1000010, 8, 128, 0x20000, 0x0, 0x0, 0x0, 0x0, false⟩,
  ⟨0x1000018, 8, 128, 0x20000, 0x0, 0x0, 0x0, 0x0, false⟩,
  ⟨0x1000020, 8, 128, 0x20000, 0x0, 0x0, 0x0, 0x0, false⟩,
  ⟨0x1000028, 8, 128, 0x20000, 0x0, 0x0, 0x0, 0x0, false⟩,
  ⟨0x210FF00, 8, 16, 0x20000, 0xFFFFFFFFFFFFFFFF, 0x0, 0x0, 0x0, false⟩,
  ⟨0x210FF08, 8, 16, 0x20000, 0xFFFFFFFFFFFFFFFF, 0x0, 0x0, 0x0, false⟩,
  ⟨0x4000000, 4, 16, 0x100000, 0x0, 0x0, 0x0, 0x0, true⟩,
  ⟨0x4000004, 4, 16, 0x100000, 0xFF00FFFF, 0x0, 0x0, 0x18000040, false⟩,
  ⟨0x4000008, 8, 16, 0x100000, 0x0, 0x0, 0x0, 0x0, false⟩,
  ⟨0x4000010, 8, 16, 0x100000, 0x0, 0x0, 0x0, 0x0, false⟩,
  ⟨0x4000018, 8, 16, 0x100000, 0x0, 0x0, 0x0, 0x0, false⟩,
  ⟨0x10090000, 4, 16, 0x10, 0xFFFFFFFC, 0x0, 0x0, 0x0, false⟩,
  ⟨0x10090004, 4, 16, 0x10, 0xFFFFFFFF, 0x0, 0x0, 0x0, false⟩,
  ⟨0x10090008, 4, 16, 0x10, 0xFFFFFFFF, 0x0, 0x0, 0x0, false⟩,
  ⟨0x1009000C, 4, 16, 0x10, 0x1, 0x0, 0x0, 0x1, false⟩,
  ⟨0x10091000, 8, 1, 0x8, 0x0, 0x0, 0x0, 0x0, false⟩]

/-- Every register of the part. -/
def regRows : List RegRow := regRows0 ++ regRows1 ++ regRows2 ++ regRows3 ++ regRows4 ++ regRows5

/-- Whether byte address a lies in a register of row r. -/
def RegRow.has (r : RegRow) (a : Nat) : Bool :=
  decide (r.base ≤ a) && decide ((a - r.base) / r.stride < r.count) && decide ((a - r.base) % r.stride < r.bytes)

/-- The row of the register that holds byte address a, and that register's own address. -/
def regAt (a : Nat) : Option (RegRow × Nat) :=
  match regRows.find? (·.has a) with
  | some r => some (r, a - (a - r.base) % r.stride)
  | none => none

/-- The value of the register at address a after cold reset (R12). -/
def regReset (a : Nat) : Word :=
  match regAt a with
  | some (r, _) => BitVec.ofNat 64 r.reset
  | none => 0

end Sys2Proof.Machine
end

