-- ==== Sys2Proof/Machine/Status.lean ====
section
/-! DEFINITION. Status codes (R13): the tables of the chapters. -/
namespace Sys2Proof.Machine

abbrev ST_OK : Nat := 0x0000

-- 02_tables.md
abbrev ST_TBL_NO_TABLE : Nat := 0x0101
abbrev ST_TBL_HANDLE_BUSY : Nat := 0x0102
abbrev ST_TBL_BAD_FORMAT : Nat := 0x0103
abbrev ST_TBL_LIVE : Nat := 0x0104
abbrev ST_TBL_NOT_BUILDING : Nat := 0x0105
abbrev ST_TBL_VERSION_EXISTS : Nat := 0x0106
abbrev ST_TBL_VERSIONS_FULL : Nat := 0x0107
abbrev ST_TBL_NO_SPACE : Nat := 0x0108
abbrev ST_TBL_RANGE : Nat := 0x0109
abbrev ST_TBL_NONFINITE : Nat := 0x010A
abbrev ST_TBL_SOURCE : Nat := 0x010B
abbrev ST_TBL_INCOMPLETE : Nat := 0x010C
abbrev ST_TBL_NO_VERSION : Nat := 0x010D
abbrev ST_TBL_COMMIT_LATE : Nat := 0x010E
abbrev ST_TBL_COMMIT_FAR : Nat := 0x010F
abbrev ST_TBL_COMMIT_PENDING : Nat := 0x0110
abbrev ST_TBL_DOMAIN_SMALL : Nat := 0x0111
abbrev ST_TBL_COMMIT_CANCELLED : Nat := 0x0112
abbrev ST_TBL_DOMAIN_MIX : Nat := 0x0113
abbrev ST_TBL_BAD_ARG : Nat := 0x0114
abbrev ST_TBL_NO_SUCH_VERSION : Nat := 0x0115

-- 03_lookup_pooling.md
abbrev ST_LK_BAD_DESC : Nat := 0x0201
abbrev ST_LK_DESC_CRC : Nat := 0x0202
abbrev ST_LK_MODE : Nat := 0x0203
abbrev ST_LK_UNBOUND : Nat := 0x0204
abbrev ST_LK_SCRATCH : Nat := 0x0205
abbrev ST_LK_INDEX : Nat := 0x0206
abbrev ST_LK_WEIGHT : Nat := 0x0207
abbrev ST_LK_TIMEOUT : Nat := 0x0208
abbrev ST_LK_CANCELLED : Nat := 0x0209

-- 04_placement.md
abbrev ST_PLC_BAD_HINT : Nat := 0x0301
abbrev ST_PLC_NO_DOMAIN : Nat := 0x0302
abbrev ST_PLC_DOMAIN_MISMATCH : Nat := 0x0303
abbrev ST_PLC_DIR_FULL : Nat := 0x0304
abbrev ST_PLC_REPLICA_FULL : Nat := 0x0305
abbrev ST_PLC_PIN_BUSY : Nat := 0x0306
abbrev ST_PLC_PIN_ARG : Nat := 0x0307
abbrev ST_PLC_NO_CLUSTER : Nat := 0x0308

-- 05_update_feed.md
abbrev ST_FD_STALE_VERSION : Nat := 0x0401
abbrev ST_FD_NO_TABLE : Nat := 0x0402
abbrev ST_FD_LOST_ROW : Nat := 0x0403
abbrev ST_FD_RANGE : Nat := 0x0404
abbrev ST_FD_BAD_OP : Nat := 0x0405
abbrev ST_FD_NONFINITE : Nat := 0x0406
abbrev ST_FD_REC_CRC : Nat := 0x0407
abbrev ST_FD_GAP_LOST : Nat := 0x0408
abbrev ST_FD_OVERRUN : Nat := 0x0409
abbrev ST_FD_PAIR_MISMATCH : Nat := 0x040A
abbrev ST_FD_PAIR_UNREACHABLE : Nat := 0x040B

-- 06_arrays_formats.md
abbrev ST_AR_FORMAT : Nat := 0x0501
abbrev ST_AR_FORMAT_MIX : Nat := 0x0502
abbrev ST_AR_SHAPE : Nat := 0x0503
abbrev ST_AR_ALIGN : Nat := 0x0504
abbrev ST_AR_CONV : Nat := 0x0505
abbrev ST_AR_NO_ARRAY : Nat := 0x0506
abbrev ST_AR_CHECK : Nat := 0x0507
abbrev ST_AR_NO_ACC : Nat := 0x0508
abbrev ST_AR_ACC_SHAPE : Nat := 0x0509

-- 08_rings_curtains.md
abbrev ST_RING_CYCLE : Nat := 0x0701
abbrev ST_RING_DECL : Nat := 0x0702
abbrev ST_RING_ROLE : Nat := 0x0703
abbrev ST_RING_ORDER : Nat := 0x0704
abbrev ST_RING_STALL : Nat := 0x0705
abbrev ST_RING_LATE : Nat := 0x0706

-- 09_bassaso_isa.md
abbrev ST_ISA_RANGE : Nat := 0x0601
abbrev ST_ISA_ALIGN : Nat := 0x0602
abbrev ST_ISA_OPERAND : Nat := 0x0603
abbrev ST_ISA_STACK : Nat := 0x0604
abbrev ST_ISA_LOOP : Nat := 0x0605
abbrev ST_ISA_TBIND : Nat := 0x0606
abbrev ST_ISA_USER_TRAP : Nat := 0x0607
abbrev ST_ISA_DESC_CRC : Nat := 0x0608
abbrev ST_ISA_IMG_FORMAT : Nat := 0x0609
abbrev ST_ISA_IMG_VERIFY : Nat := 0x060A
abbrev ST_ISA_UNDERSTUDY : Nat := 0x060B
abbrev ST_ISA_IMG_SPACE : Nat := 0x060C

-- 10_queues_scheduling.md
abbrev ST_Q_TORN : Nat := 0x0801
abbrev ST_Q_DOORBELL : Nat := 0x0802
abbrev ST_Q_BAD_OPCODE : Nat := 0x0803
abbrev ST_Q_BAD_ARG : Nat := 0x0804
abbrev ST_Q_NO_SCRIPT : Nat := 0x0805
abbrev ST_Q_SCRIPT_EXISTS : Nat := 0x0806
abbrev ST_Q_SCRIPT_IN_USE : Nat := 0x0807
abbrev ST_Q_SCRIPTS_FULL : Nat := 0x0808
abbrev ST_Q_EDITIONS_FULL : Nat := 0x0809
abbrev ST_Q_DEADLINE : Nat := 0x080A
abbrev ST_Q_BUSY : Nat := 0x080B
abbrev ST_Q_CUE_INCOMPLETE : Nat := 0x080C
abbrev ST_Q_CUE_SEG : Nat := 0x080D
abbrev ST_Q_REPLY_SIZE : Nat := 0x080E
abbrev ST_Q_ARG_SIZE : Nat := 0x080F
abbrev ST_Q_BAD_CFG : Nat := 0x0810
abbrev ST_Q_SLOT_OFF : Nat := 0x0811

-- 11_host_memory.md
abbrev ST_XLAT_FATAL : Nat := 0x0901
abbrev ST_XLAT_OFF : Nat := 0x0902
abbrev ST_XLAT_TIMEOUT : Nat := 0x0903
abbrev ST_MEM_RANGE : Nat := 0x0904
abbrev ST_MEM_UNCORR : Nat := 0x0905
abbrev ST_MEM_POISON : Nat := 0x0906
abbrev ST_HOST_PORT_DOWN : Nat := 0x0907

-- 12_links_time.md
abbrev ST_LNK_TIMEOUT : Nat := 0x0A01
abbrev ST_LNK_NO_ROUTE : Nat := 0x0A02
abbrev ST_ROCE_NO_CONN : Nat := 0x0A03
abbrev ST_ROCE_RETRY : Nat := 0x0A04
abbrev ST_ROCE_REMOTE : Nat := 0x0A05
abbrev ST_ROCE_PORT_DOWN : Nat := 0x0A06

-- 13_faults_management.md
abbrev ST_RAS_SRAM_UE : Nat := 0x0B01
abbrev ST_RAS_CHECK : Nat := 0x0B02
abbrev ST_RAS_PART_LOST : Nat := 0x0B03
abbrev ST_MSS_BAD_CMD : Nat := 0x0B04
abbrev ST_MSS_UNIT : Nat := 0x0B05
abbrev ST_MSS_OTP_GEN : Nat := 0x0B06
abbrev ST_MSS_OTP_FULL : Nat := 0x0B07
abbrev ST_MSS_OTP_VERIFY : Nat := 0x0B08
abbrev ST_MSS_OTP_DENIED : Nat := 0x0B09
abbrev ST_MSS_FW_FORMAT : Nat := 0x0B0A
abbrev ST_MSS_FW_SIG : Nat := 0x0B0B
abbrev ST_MSS_FW_SVN : Nat := 0x0B0C
abbrev ST_MSS_NO_CONN : Nat := 0x0B0D

/-- Every status code that the chapters define (R13, R14). -/
def statusCodes : List Nat :=
  [ST_OK, ST_TBL_NO_TABLE, ST_TBL_HANDLE_BUSY, ST_TBL_BAD_FORMAT, ST_TBL_LIVE,
    ST_TBL_NOT_BUILDING, ST_TBL_VERSION_EXISTS, ST_TBL_VERSIONS_FULL, ST_TBL_NO_SPACE, ST_TBL_RANGE,
    ST_TBL_NONFINITE, ST_TBL_SOURCE, ST_TBL_INCOMPLETE, ST_TBL_NO_VERSION, ST_TBL_COMMIT_LATE,
    ST_TBL_COMMIT_FAR, ST_TBL_COMMIT_PENDING, ST_TBL_DOMAIN_SMALL, ST_TBL_COMMIT_CANCELLED, ST_TBL_DOMAIN_MIX,
    ST_TBL_BAD_ARG, ST_TBL_NO_SUCH_VERSION, ST_LK_BAD_DESC, ST_LK_DESC_CRC, ST_LK_MODE,
    ST_LK_UNBOUND, ST_LK_SCRATCH, ST_LK_INDEX, ST_LK_WEIGHT, ST_LK_TIMEOUT]
  ++ [ST_LK_CANCELLED, ST_PLC_BAD_HINT, ST_PLC_NO_DOMAIN, ST_PLC_DOMAIN_MISMATCH, ST_PLC_DIR_FULL,
    ST_PLC_REPLICA_FULL, ST_PLC_PIN_BUSY, ST_PLC_PIN_ARG, ST_PLC_NO_CLUSTER, ST_FD_STALE_VERSION,
    ST_FD_NO_TABLE, ST_FD_LOST_ROW, ST_FD_RANGE, ST_FD_BAD_OP, ST_FD_NONFINITE,
    ST_FD_REC_CRC, ST_FD_GAP_LOST, ST_FD_OVERRUN, ST_FD_PAIR_MISMATCH, ST_FD_PAIR_UNREACHABLE,
    ST_AR_FORMAT, ST_AR_FORMAT_MIX, ST_AR_SHAPE, ST_AR_ALIGN, ST_AR_CONV,
    ST_AR_NO_ARRAY, ST_AR_CHECK, ST_AR_NO_ACC, ST_AR_ACC_SHAPE, ST_RING_CYCLE]
  ++ [ST_RING_DECL, ST_RING_ROLE, ST_RING_ORDER, ST_RING_STALL, ST_RING_LATE,
    ST_ISA_RANGE, ST_ISA_ALIGN, ST_ISA_OPERAND, ST_ISA_STACK, ST_ISA_LOOP,
    ST_ISA_TBIND, ST_ISA_USER_TRAP, ST_ISA_DESC_CRC, ST_ISA_IMG_FORMAT, ST_ISA_IMG_VERIFY,
    ST_ISA_UNDERSTUDY, ST_ISA_IMG_SPACE, ST_Q_TORN, ST_Q_DOORBELL, ST_Q_BAD_OPCODE,
    ST_Q_BAD_ARG, ST_Q_NO_SCRIPT, ST_Q_SCRIPT_EXISTS, ST_Q_SCRIPT_IN_USE, ST_Q_SCRIPTS_FULL,
    ST_Q_EDITIONS_FULL, ST_Q_DEADLINE, ST_Q_BUSY, ST_Q_CUE_INCOMPLETE, ST_Q_CUE_SEG]
  ++ [ST_Q_REPLY_SIZE, ST_Q_ARG_SIZE, ST_Q_BAD_CFG, ST_Q_SLOT_OFF, ST_XLAT_FATAL,
    ST_XLAT_OFF, ST_XLAT_TIMEOUT, ST_MEM_RANGE, ST_MEM_UNCORR, ST_MEM_POISON,
    ST_HOST_PORT_DOWN, ST_LNK_TIMEOUT, ST_LNK_NO_ROUTE, ST_ROCE_NO_CONN, ST_ROCE_RETRY,
    ST_ROCE_REMOTE, ST_ROCE_PORT_DOWN, ST_RAS_SRAM_UE, ST_RAS_CHECK, ST_RAS_PART_LOST,
    ST_MSS_BAD_CMD, ST_MSS_UNIT, ST_MSS_OTP_GEN, ST_MSS_OTP_FULL, ST_MSS_OTP_VERIFY,
    ST_MSS_OTP_DENIED, ST_MSS_FW_FORMAT, ST_MSS_FW_SIG, ST_MSS_FW_SVN, ST_MSS_NO_CONN]

/-- Whether a number is a status code of R14. -/
def isStatus (n : Nat) : Bool := statusCodes.contains n

end Sys2Proof.Machine
end

