-- ==== Sys2Proof/Machine/Ops.lean ====
section
/-! DEFINITION. The named operations over memory, registers, events, the log, time and outgoing packets that every
meaning is built from. -/
namespace Sys2Proof.Machine

/-! ## Sparse maps -/

/-- The value at key a of a sparse map whose unlisted keys hold d. -/
def Sparse.get (d : Nat → α) : List (Nat × α) → Nat → α
  | [], a => d a
  | (k, v) :: t, a => if k = a then v else Sparse.get d t a

/-- The map with a holding v, in canonical form: keys rising, no entry equal to what its key holds unlisted. -/
def Sparse.put [BEq α] (d : Nat → α) : List (Nat × α) → Nat → α → List (Nat × α)
  | [], a, v => if v == d a then [] else [(a, v)]
  | (k, w) :: t, a, v =>
    if k < a then (k, w) :: Sparse.put d t a v
    else if k = a then (if v == d a then t else (a, v) :: t)
    else if v == d a then (k, w) :: t else (a, v) :: (k, w) :: t

/-- Keys strictly rising from `lo`, and no entry equal to what its key holds unlisted. -/
def Sparse.wf [BEq α] (d : Nat → α) : Nat → List (Nat × α) → Bool
  | _, [] => true
  | lo, (k, v) :: t => decide (lo ≤ k) && !(v == d k) && Sparse.wf d (k + 1) t

/-! ## Byte memory -/

/-- The byte at an address. -/
def Mem.get (m : Mem) (a : Nat) : Byte := Sparse.get (fun _ => Mem.blank) m a

/-- The memory with one byte written. -/
def Mem.put (m : Mem) (a : Nat) (b : Byte) : Mem := Sparse.put (fun _ => Mem.blank) m a b

/-- The canonical form of a memory. -/
def Mem.wf (m : Mem) : Bool := Sparse.wf (fun _ => Mem.blank) 0 m

/-- n bytes from address a. -/
def Mem.read (m : Mem) (a : Nat) : Nat → Bytes
  | 0 => []
  | n + 1 => m.get a :: Mem.read m (a + 1) n

/-- The memory with bytes written from address a. -/
def Mem.write (m : Mem) (a : Nat) : Bytes → Mem
  | [] => m
  | b :: t => Mem.write (m.put a b) (a + 1) t

/-- The memory with the listed cells written in order. -/
def Mem.writeCells (m : Mem) : List Host.Cell → Mem
  | [] => m
  | (a, b) :: t => Mem.writeCells (m.put a b) t

/-! ## Registers held in the bank -/

/-- A stored register's value. -/
def State.reg (s : State) (a : Nat) : Word := Sparse.get regReset s.regs a

/-- A stored register's value as a number. -/
def State.regN (s : State) (a : Nat) : Nat := (s.reg a).toNat

/-- Set a stored register. -/
def State.setReg (s : State) (a : Nat) (v : Word) : State := { s with regs := Sparse.put regReset s.regs a v }

/-- Set a stored register to a number. -/
def State.setRegN (s : State) (a v : Nat) : State := s.setReg a (BitVec.ofNat 64 v)

/-- Add n to a 64-bit counter, which wraps at 2^64. -/
def State.count (s : State) (a n : Nat) : State := s.setReg a (s.reg a + BitVec.ofNat 64 n)

/-- A field of a stored register. -/
def State.regF (s : State) (a hi lo : Nat) : Nat := fld (s.regN a) hi lo

/-- One bit of a stored register. -/
def State.regB (s : State) (a k : Nat) : Bool := (s.regN a).testBit k

/-! ## Interrupts (R415) -/

/-- What the part sends. -/
def State.emit (s : State) (o : Out) : State := { s with out := s.out ++ [o] }

/-- STATUS and INT_EN of the event vectors (R415, R485, R525, R529, R557). -/
def eventRegs : List (Nat × Nat × Nat) := [
  (9, Reg.CFE_STATUS, Reg.CFE_INT_EN), (10, Reg.TBL_STATUS, Reg.TBL_INT_EN), (11, Reg.LKP_STATUS, Reg.LKP_INT_EN),
  (12, Reg.PLC_STATUS, Reg.PLC_INT_EN), (13, Reg.FEED_STATUS, Reg.FEED_INT_EN),
  (14, Reg.RING_STATUS, Reg.RING_INT_EN), (15, Reg.HST_STATUS, Reg.HST_INT_EN),
  (15, Reg.LNK_STATUS, Reg.LNK_INT_EN), (15, Reg.TIME_STATUS, Reg.TIME_INT_EN), (15, Reg.RAS_STATUS, Reg.RAS_INT_EN)]

/-- Whether an enabled STATUS bit stands behind event vector v. -/
def State.cause (s : State) (v : Nat) : Bool :=
  eventRegs.any (fun e => e.1 == v && !(s.reg e.2.1 &&& s.reg e.2.2 == 0))

/-- The event vector a STATUS or INT_EN register belongs to. -/
def vectorOf (a : Nat) : Option Nat :=
  (eventRegs.find? (fun e => e.2.1 == a || e.2.2 == a)).map (·.1)

/-- The port that a vector's message leaves on: the slot's for a completion vector, and HP0 for an event vector, or HP1 while HP0 is
down (R453). -/
def State.vectorPort (s : State) (v : Nat) : Nat :=
  if v < 9 then s.regF (Reg.Q_CFG v) 33 33 else if (s.host.ports[0]?).any (·.up) then 0 else 1

/-- Signal a vector: its message, or its pending bit while the vector is masked (PCIe layout of R415). -/
def State.signal (s : State) (v : Nat) : State :=
  if s.regB (Reg.MSIX_VCTL v) 0 then s.setReg Reg.MSIX_PBA (s.reg Reg.MSIX_PBA ||| BitVec.ofNat 64 (2 ^ v))
  else s.emit (.msix (s.vectorPort v) v)

/-- Set a STATUS or INT_EN register; its vector is signalled when its OR goes from 0 to 1 (R415). -/
def State.setEvent (s : State) (a : Nat) (v : Word) : State :=
  match vectorOf a with
  | none => s.setReg a v
  | some n => if !s.cause n && (s.setReg a v).cause n then (s.setReg a v).signal n else s.setReg a v

/-- Set bit k of a STATUS register. -/
def State.latch (s : State) (a k : Nat) : State := s.setEvent a (s.reg a ||| BitVec.ofNat 64 (2 ^ k))

/-! ## Time -/

/-- GTIME at this step. -/
def State.now (s : State) : Nat := s.time.gtime.toNat

/-- A microsecond in ticks (R515). -/
def us (n : Nat) : Nat := 4000 * n

/-- A millisecond in ticks. -/
def ms (n : Nat) : Nat := 4000000 * n

/-- Whether GTIME has come to or past an instant. -/
def State.reached (s : State) (t : Nat) : Bool := decide (t ≤ s.now)

/-- Whether a period has passed since an event, or no such event has happened yet. -/
def State.elapsed (s : State) (last : Option Word) (period : Nat) : Bool := last.all (fun t => s.reached (t.toNat + period))

/-! ## Whether the part works -/

/-- The part is READY and has neither lost itself nor begun a warm reset (R542, R572, R573). -/
def State.serving (s : State) : Bool :=
  s.pwr.powered && s.pwr.rstN && decide (s.pwr.stage = .ready) && !s.pwr.lost && !s.pwr.warm

/-- Management firmware runs: from READY on, through warm reset and self-loss, while the rails are up (R572). -/
def State.managed (s : State) : Bool :=
  s.pwr.powered && s.pwr.rstN && (decide (s.pwr.stage = .ready) || decide (s.pwr.stage = .recovery))

/-- READY reads 1, so BAR accesses act (R573). -/
def State.barOpen (s : State) : Bool :=
  s.pwr.powered && s.pwr.rstN && decide (s.pwr.stage = .ready) && !s.pwr.warm

/-- What a register write does while READY is 1; else it is dropped (R573). -/
def State.whenOpen (s : State) (f : State → State) : State := if s.barOpen then f s else s

/-- What a command does on a part in service; else nothing (log entry 2). -/
def State.whenServing (s : State) (f : State → State) : State := if s.serving then f s else s

/-! ## Free values -/

/-- A fresh open value, and the state with the counter advanced (log entry 6). -/
def State.free (s : State) : Word × State := (Config.freeValue s.freeCtr, { s with freeCtr := s.freeCtr + 1 })

/-- n fresh open bytes. -/
def State.freeBytes (s : State) : Nat → Bytes × State
  | 0 => ([], s)
  | n + 1 =>
    let (w, s1) := s.free
    let (b, s2) := State.freeBytes s1 n
    (w.setWidth 8 :: b, s2)

/-! ## The event log (R545) -/

/-- Records kept. -/
abbrev logSize : Nat := 4096

/-- Append a record to the event log; SEV 2 and above also go to the event receiver. -/
def State.log (s : State) (sev code unit : Nat) (ctx : Option Nat) (info0 info1 info2 : Nat) : State :=
  let r : LogRec := ⟨s.time.gtime, s.ras.seq + 1, sev, code, unit, ctx, BitVec.ofNat 32 info0, BitVec.ofNat 32 info1, info2⟩
  let s1 : State := { s with ras := { s.ras with seq := s.ras.seq + 1, log := (s.ras.log ++ [r]).drop (s.ras.log.length + 1 - logSize) } }
  let s2 := if logSize ≤ s.ras.log.length then s1.latch Reg.RAS_STATUS 8 else s1
  if 2 ≤ sev && s.mgmt.eventReceiver.isSome then s2.emit (.event r) else s2

/-! ## Identity of the part (R496, R523) -/

/-- MAP, SIDE, and the place in the rack from the straps; z from LNK_NODE. -/
def State.map (s : State) : Nat := fld s.pwr.straps.toNat 5 4
def State.side (s : State) : Nat := fld s.pwr.straps.toNat 6 6
def State.nodeX (s : State) : Nat := fld s.pwr.straps.toNat 1 0
def State.nodeY (s : State) : Nat := fld s.pwr.straps.toNat 3 2

/-- The node ID. -/
def State.node (s : State) : Nat := s.nodeX + 4 * s.nodeY + 16 * s.link.z + 256 * s.side

/-- The member index of R143. -/
def State.member (s : State) : Nat := s.node % 256

/-- The location of a die of this part (R153, R496). -/
def State.loc (s : State) (die : Nat) : Nat := s.node + 4096 * die

/-- The node and the die of a location. -/
def locNode (l : Nat) : Nat := l % 4096
def locDie (l : Nat) : Nat := l / 4096 % 8

/-- The node of a member index on this side. -/
def State.memberNode (s : State) (m : Nat) : Nat := m % 256 + 256 * s.side

/-! ## Ethernet ports (R527) -/

/-- A network port is enabled. -/
def State.npOn (s : State) (p : Nat) : Bool := decide (p < 10) && s.regB (Reg.NP_CTL p) 31

/-- A frame is received on a port. -/
def State.rxFrame (s : State) (p : Nat) : State := s.count (Reg.NP_RX_FRAMES p) 1

/-- A frame is sent on a port. -/
def State.sendFrame (s : State) (p : Nat) (o : Out) : State := (s.count (Reg.NP_TX_FRAMES p) 1).emit o

/-- A port's own address, of IPv4 or of IPv6. -/
def State.portAddr (s : State) (p : Nat) (v6 : Bool) : Nat :=
  if v6 then s.regN (Reg.NP_IP6_HI p) * 2 ^ 64 + s.regN (Reg.NP_IP6_LO p) else s.regN (Reg.NP_IP4 p)

/-- A priority of a port is paused (R513). -/
def State.paused (s : State) (p prio : Nat) : Bool := s.net.paused.any (fun e => e.1 == p && e.2.1 == prio && decide (s.now < e.2.2))

/-- A frame is sent on a port at a priority: it waits while that is paused, behind those that wait (R513). -/
def State.sendPrio (s : State) (p prio : Nat) (o : Out) : State :=
  if 10 ≤ p then s
  else if s.paused p prio ∨ s.net.held.any (fun e => e.1 == p && e.2.1 == prio) then { s with net := { s.net with held := s.net.held ++ [(p, prio, o)] } }
  else s.sendFrame p o

/-- Frames whose pause has ended are sent, in order. -/
def State.resumeFrames (s : State) : State :=
  (s.net.held.filter (fun e => !s.paused e.1 e.2.1)).foldl (fun s e => s.sendFrame e.1 e.2.2)
    { s with net := { s.net with held := s.net.held.filter (fun e => s.paused e.1 e.2.1) } }

/-- Port index p exists: NP0 and NP1, and under the Ethernet personality ETH0 to ETH7 (R510, R512). -/
def State.npExists (s : State) (p : Nat) : Bool := decide (p < 2) || (decide (p < 10) && decide (2 ≤ s.map))

/-- The port takes a frame by its length and tag: at most 9,216 bytes, with its VLAN ID, or untagged unless TAGGED is set (R513). -/
def State.frameOk (s : State) (p len : Nat) (tag : Option Nat) : Bool :=
  decide (len ≤ 9216) && (match tag with
    | some vid => vid == s.regF (Reg.NP_CTL p) 11 0
    | none => !s.regB (Reg.NP_CTL p) 29)

/-- A frame is dropped and counted (R513). -/
def State.dropFrame (s : State) (p : Nat) : State := s.count (Reg.NP_RX_DROP p) 1

/-- A datagram reaches a port: `k` takes it where the port does (R513). -/
def State.rxUdp (s : State) (p : Nat) (e : EthHdr) (v6 : Bool) (k : State → State) : State :=
  if !s.npOn p ∨ !s.npExists p then s
  else if !e.fcsOk then s.count (Reg.NP_FCS_ERR p) 1
  else if !s.frameOk p e.len e.tag ∨ e.fragment ∨ e.options ∨ e.dstAddr ≠ s.portAddr p v6 then (s.rxFrame p).dropFrame p
  else k (s.rxFrame p)

/-! ## Lists of things with a number -/

/-- Change entry i of a list, if there is one. -/
def listMod (l : List α) (i : Nat) (f : α → α) : List α := l.modify i f

def State.modSlot (s : State) (k : Nat) (f : QSlot → QSlot) : State := { s with slots := listMod s.slots k f }
def State.modGpe (s : State) (d : Nat) (f : Gpe → Gpe) : State := { s with gpes := listMod s.gpes d f }
def State.modCluster (s : State) (c : Nat) (f : Cluster → Cluster) : State := { s with clusters := listMod s.clusters c f }
def State.modStrm (s : State) (i : Nat) (f : Strm → Strm) : State := { s with strms := listMod s.strms i f }
def State.modFPort (s : State) (p : Nat) (f : FPort → FPort) : State := { s with fports := listMod s.fports p f }
def State.modDom (s : State) (i : Nat) (f : Dom → Dom) : State := { s with doms := listMod s.doms i f }
def State.modLPort (s : State) (n : Nat) (f : LPort → LPort) : State :=
  { s with link := { s.link with ports := listMod s.link.ports n f } }
def State.modRoce (s : State) (c : Nat) (f : Roce → Roce) : State :=
  { s with net := { s.net with roce := listMod s.net.roce c f } }
def State.modHPort (s : State) (p : Nat) (f : HPort → HPort) : State :=
  { s with host := { s.host with ports := listMod s.host.ports p f } }

/-- The context with an ID. -/
def State.ctx? (s : State) (id : Nat) : Option Ctx := s.ctxs.find? (·.id == id)

/-- Change the context with an ID. -/
def State.modCtx (s : State) (id : Nat) (f : Ctx → Ctx) : State := { s with ctxs := modFirst (·.id == id) f s.ctxs }

/-- The table with a handle. -/
def State.table? (s : State) (h : Nat) : Option Table := s.tables.find? (·.handle == h)

/-- Change the table with a handle. -/
def State.modTable (s : State) (h : Nat) (f : Table → Table) : State :=
  { s with tables := modFirst (·.handle == h) f s.tables }

/-- A version of a table by number. -/
def Table.ver? (t : Table) (v : Nat) : Option Version := t.versions.find? (·.num == v)

/-- Change a version of a table. -/
def State.modVer (s : State) (h v : Nat) (f : Version → Version) : State :=
  s.modTable h (fun t => { t with versions := modFirst (·.num == v) f t.versions })

/-- Change the command of slot k with entry number n. A command cut off from its records is gone once it ends (R435). -/
def State.modCmd (s : State) (k n : Nat) (f : Cmd → Cmd) : State :=
  s.modSlot k (fun q => { q with
    cmds := modFirst (·.n == n) f q.cmds
    loose := (modFirst (·.n == n) f q.loose).filter (·.status.isNone) })

/-- The command of slot k with entry number n. -/
def State.cmd? (s : State) (k n : Nat) : Option Cmd := (s.slots[k]?).bind (fun q => (q.cmds ++ q.loose).find? (·.n == n))

/-- The command of slot k ends with a status and a value, unless it has ended: its record then waits for its scope
(R411, R414). -/
def State.endCmd (s : State) (k n status value : Nat) : State :=
  s.modCmd k n (fun c => if c.status.isNone then { c with status := some status, value := value, finish := s.time.gtime } else c)

/-- The access of a requester is held in a translation fault: its page request waits, or finds no room (R340, R460). -/
def State.inFault (s : State) (who : XReq) : Bool :=
  s.host.waits.any (fun w => w.who == who && w.group.isSome) || s.host.full.any (·.who == who)

/-- Waits dropped with a requester (R465). -/
def State.dropWaits (s : State) (p : XReq → Bool) : State :=
  { s with host := { s.host with
      waits := s.host.waits.filter (fun w => !p w.who)
      full := s.host.full.filter (fun w => !p w.who) } }

/-- Scratch bytes of a cluster are 12 MiB (R22). -/
abbrev scrSize : Nat := 12582912

/-- The physical scratch key of a byte of a cluster. -/
def scrKey (cl off : Nat) : Nat := cl * scrSize + off

/-- Read the scratch of a cluster. -/
def State.scrRead (s : State) (cl off n : Nat) : Bytes := s.scr.read (scrKey cl off) n

/-- Write the scratch of a cluster; a bad word written whole is good again (R533). -/
def State.scrWrite (s : State) (cl off : Nat) (b : Bytes) : State :=
  { s with
    scr := s.scr.write (scrKey cl off) b
    ras := { s.ras with badWords := s.ras.badWords.filter (fun w => !(decide (scrKey cl off ≤ 8 * w) && decide (8 * w + 8 ≤ scrKey cl off + b.length))) } }

/-- Write cells of scratch by physical key. -/
def State.scrCells (s : State) (c : List Host.Cell) : State :=
  { s with
    scr := s.scr.writeCells c
    ras := { s.ras with badWords := s.ras.badWords.filter (fun w => !((List.range 8).all (fun i => c.any (fun e => e.1 == 8 * w + i)))) } }

/-- Cells that hold bytes from a key on. -/
def cellsAt (k : Nat) : Bytes → List Host.Cell
  | [] => []
  | b :: t => (k, b) :: cellsAt (k + 1) t

/-- The special-function unit serves an instruction: SFN, SMAX.E, NORM, and a chain with a stage that calls a function (R280, R282,
R287). -/
def EngOp.onSfu (o : EngOp) : Bool :=
  o.cls == .sfu || o.kind == .smaxE || o.kind == .normS || o.kind == .normF
    || (o.kind == .vchain && (List.range (rd o.desc 4 1)).any (fun i => decide (0x20 ≤ rd o.desc (16 + 4 * i) 1)))

/-- Read and write the general region by device address. -/
def State.hbmRead (s : State) (a n : Nat) : Bytes := s.hbm.read a n
def State.hbmWrite (s : State) (a : Nat) (b : Bytes) : State := { s with hbm := s.hbm.write a b }

end Sys2Proof.Machine
end

