-- ==== Sys2Proof/Machine/Packets.lean ====
section
/-! DEFINITION. The bytes of the Twiben wire format: flit headers, control flits, packet headers, partials and pooling
requests, formed and read little-endian (R4, R111, R112, R497, R498, R500). -/
namespace Sys2Proof.Machine

/-! ## Types, classes and lengths (R501) -/

/-- TYPE of a packet (R501). Messages of the RAS protocol travel as WORK (log entry 10). -/
def Payload.type : Payload → Nat
  | .poolReq _ => 1
  | .part _ => 2
  | .ack _ _ _ => 3
  | .work _ => 4
  | .chorus _ => 5
  | .delta _ => 6
  | .forward _ => 6
  | .twin _ _ => 6
  | .rows _ _ _ _ => 7
  | .ticket _ _ => 8
  | .ticketReply _ => 8
  | .report _ => 8
  | .time _ _ _ _ => 9
  | .timeAsk _ => 9
  | .suspect _ _ => 4
  | .probeAsk _ => 4
  | .probe _ => 4
  | .probeAns _ _ => 4
  | .lost _ => 4
  | .raw p => p.type

/-- Class of a packet type (R501). -/
def vcOf (type : Nat) : Nat :=
  if type = 2 then 2 else if type = 3 then 1 else if 5 ≤ type ∧ type ≤ 8 then 3 else 0

/-- Bytes of a bag piece, padded (R112). -/
def pieceBytes (weighted : Bool) (p : Piece) : Nat := alignUp (4 + (if weighted then 8 else 6) * p.idx.length) 8

/-- Payload bytes after the packet header: a partial is its header and elements (R111), a request packet its header and
pieces (R112); other layouts that the spec
leaves open have an open length (log entry 10). -/
def Send.bytes (p : Send) : Nat :=
  match p.body with
  | .part q => 16 + 4 * q.value.length + (q.rows.map List.length).sum
  | .poolReq q => 16 + (q.pieces.map (pieceBytes q.weighted)).sum
  | .raw q => q.payload.length
  | b => Config.wireBytes b.type p.tag % 16385

def byteOf (n : Nat) : Byte := BitVec.ofNat 8 n

/-- Bytes padded with zeros to n. -/
def padTo (n : Nat) (b : Bytes) : Bytes := b ++ List.replicate (n - b.length) 0

/-! ## Packet header (R500) -/

/-- The fields of a packet header. -/
structure Head where
  dst : Nat
  src : Nat
  type : Nat
  gen : Nat
  len : Nat
  tag : Nat
  deriving DecidableEq, Repr

/-- Bytes 0 to 13 of a packet header. -/
def Head.body (h : Head) : Bytes :=
  natLE 2 h.dst ++ natLE 2 h.src ++ [byteOf h.type, byteOf h.gen] ++ natLE 2 h.len ++ natLE 4 h.tag ++ natLE 2 0

/-- The 16 bytes of a packet header: PCRC covers bytes 0 to 13. -/
def Head.bytes (h : Head) : Bytes := h.body ++ natLE 2 (crc16 h.body)

/-- A packet header is read from its bytes; `none` when its PCRC fails. -/
def Head.ofBytes (b : Bytes) : Option Head :=
  if crc16 (slice b 0 14) = rd b 14 2 then some ⟨rd b 0 2, rd b 2 2, rd b 4 1, rd b 5 1, rd b 6 2, rd b 8 4⟩ else none

/-! ## Partials (R111) -/

/-- The payload of a partial: the header of R111 and its n FP32 elements; a CONCAT partial has its rows there. -/
def partialBytes (p : PartialPkt) : Bytes :=
  natLE 2 (p.ctx % 4096) ++ natLE 2 (p.op / 8192 * 8192 + p.op % 1024) ++ natLE 2 p.bag ++ [byteOf p.mode, byteOf p.gen]
    ++ natLE 2 p.owners ++ natLE 2 (p.flags % 64) ++ natLE 4 p.count ++ p.value.flatMap (fun x => natLE 4 x.toNat) ++ p.rows.flatten

/-- A partial of one of the pooled modes is read from its packet's header and payload. -/
def partialOf (h : Head) (b : Bytes) : PartialPkt where
  src := h.src
  dst := h.dst
  ctx := rd b 0 2 % 4096
  op := rd b 2 2 / 8192 * 8192 + rd b 2 2 % 1024
  bag := rd b 4 2
  mode := rd b 6 1
  gen := rd b 7 1
  owners := rd b 8 2
  flags := rd b 10 2 % 64
  count := rd b 12 4
  value := (List.range ((b.length - 16) / 4)).map (fun i => BitVec.ofNat 32 (rd b (16 + 4 * i) 4))
  rows := []
  tag := h.tag

/-! ## Pooling requests (R112) -/

/-- A bag piece: BAG, N with LAST, the indices with SUBST in bit 40, the weights, and its padding. -/
def pieceWire (weighted : Bool) (p : Piece) : Bytes :=
  padTo (pieceBytes weighted p)
    (natLE 2 p.bag ++ natLE 2 (b2n p.last * 32768 + p.idx.length) ++ p.idx.flatMap (fun e => natLE 6 (b2n e.subst * 2 ^ 40 + e.row % 2 ^ 40))
      ++ (if weighted then p.idx.flatMap (fun e => natLE 2 e.weight.toNat) else []))

/-- The payload of a request packet. -/
def poolReqBytes (p : PoolReqPkt) : Bytes :=
  natLE 2 (p.ctx % 4096) ++ natLE 2 (p.op / 8192 * 8192 + p.op % 1024) ++ natLE 2 p.handle ++ natLE 2 p.ver
    ++ [byteOf p.mode, byteOf (b2n p.weighted)] ++ natLE 2 p.pkt ++ natLE 2 p.npkt ++ natLE 2 0 ++ p.pieces.flatMap (pieceWire p.weighted)

/-- A bag piece is read from the front of some bytes. -/
def pieceOf (weighted : Bool) (b : Bytes) : Piece :=
  let n := rd b 2 2 % 4096
  ⟨rd b 0 2, (rd b 2 2).testBit 15, (List.range n).map (fun i =>
    ⟨rd b (4 + 6 * i) 5, (rd b (9 + 6 * i) 1).testBit 0, if weighted then BitVec.ofNat 16 (rd b (4 + 6 * n + 2 * i) 2) else 0⟩)⟩

/-- The pieces of a payload, end to end; each takes at least eight bytes. -/
def piecesOf (weighted : Bool) : Nat → Bytes → List Piece
  | 0, _ => []
  | f + 1, b =>
    if b.length < 8 then []
    else
      let p := pieceOf weighted b
      p :: piecesOf weighted f (b.drop (pieceBytes weighted p))

/-- A request packet is read from its packet's header and payload. -/
def poolReqOf (h : Head) (b : Bytes) : PoolReqPkt :=
  let w := (rd b 9 1).testBit 0
  ⟨h.src, rd b 0 2 % 4096, rd b 2 2 / 8192 * 8192 + rd b 2 2 % 1024, h.gen, rd b 4 2, rd b 6 2, rd b 8 1, w, rd b 10 2, rd b 12 2,
    piecesOf w (b.length / 8) (b.drop 16)⟩

/-! ## Packets -/

/-- The payload bytes of a packet whose layout the spec gives. -/
def Payload.bytes? : Payload → Option Bytes
  | .part p => some (partialBytes p)
  | .poolReq p => some (poolReqBytes p)
  | .raw p => some p.payload
  | _ => none

/-- The bytes of a packet that this part sends from a source node: header and payload; an open payload has open bytes of its
open length (log entry 10). -/
def Send.wire (p : Send) (node : Nat) : Bytes :=
  let src := match p.body with
    | .raw q => q.src
    | .part q => q.src
    | _ => node + 4096 * p.die
  let body := p.body.bytes?.getD ((List.range p.bytes).map (fun i => BitVec.ofNat 8 (Config.wireBytes (p.body.type + 16 * (i + 1)) p.tag)))
  (⟨p.dst, src, p.body.type, p.gen, body.length, p.tag⟩ : Head).bytes ++ body

/-! ## Flits (R497, R498) -/

/-- Bytes 0 to 11 of a flit header. -/
def flitHead (f : Flit) : Bytes :=
  [byteOf (f.vc + 4 * f.dl + 8 * b2n f.first + 16 * b2n f.ctrl + 32 * b2n f.idle), byteOf f.payload.length] ++ natLE 2 (f.lseq % 4096)
    ++ natLE 2 (match f.ack with
      | some a => 32768 + a % 4096
      | none => 0)
    ++ [byteOf (f.crSub % 8), byteOf f.crN] ++ natLE 4 0

/-- The 256 bytes of a flit: HCRC covers bytes 0 to 11 and the payload. -/
def flitBytes (f : Flit) : Bytes :=
  let h := flitHead f
  let p := padTo 240 f.payload
  h ++ natLE 4 (crc32c (h ++ p)) ++ p

/-- A flit is read from its bytes; the FEC's verdicts come from the port. -/
def flitOf (fecCorrected fecBad : Bool) (b : Bytes) : Flit where
  ctrl := (rd b 0 1).testBit 4
  idle := (rd b 0 1).testBit 5
  lseq := rd b 2 2 % 4096
  ack := if (rd b 4 2).testBit 15 then some (rd b 4 2 % 4096) else none
  fecCorrected := fecCorrected
  fecBad := fecBad
  crcBad := crc32c (slice b 0 12 ++ slice b 16 240) != rd b 12 4
  first := (rd b 0 1).testBit 3
  vc := rd b 0 1 % 4
  dl := rd b 0 1 / 4 % 2
  crSub := rd b 6 1 % 8
  crN := rd b 7 1
  payload := slice b 16 (rd b 1 1)

/-- The payload of the control flit RETRY_REQ. -/
def retryPayload (lseq : Nat) : Bytes := [1, 0] ++ natLE 2 lseq

/-- The payload of the control flit IDENT. -/
def identPayload (node port map : Nat) : Bytes := [2, 0] ++ natLE 2 node ++ [byteOf port, byteOf map]

/-- A data flit of a packet that a node sends; acknowledgement and credits are those of its sending. -/
def TxFlit.flit (t : TxFlit) (node : Nat) (ack : Option Nat) (crSub crN : Nat) : Flit where
  ctrl := false
  idle := false
  lseq := t.lseq
  ack := ack
  fecCorrected := false
  fecBad := false
  crcBad := false
  first := t.part == 0
  vc := t.sub / 2
  dl := t.sub % 2
  crSub := crSub
  crN := crN
  payload := slice (t.p.wire node) (240 * t.part) 240

/-- A flit without a data payload, which carries an acknowledgement and credits: a control flit with its payload, or an IDLE flit. -/
def emptyFlit (ctrl : Bool) (payload : Bytes) (ack : Option Nat) (crSub crN : Nat) : Flit where
  ctrl := ctrl
  idle := !ctrl
  lseq := 0
  ack := ack
  fecCorrected := false
  fecBad := false
  crcBad := false
  first := false
  vc := 0
  dl := 0
  crSub := crSub
  crN := crN
  payload := payload

/-- A packet as its bytes have it, read by the part that it reaches on a sub-channel: a forwarding part does not check PCRC (R500). -/
def packetOf (vc dl : Nat) (b : Bytes) : Packet where
  dst := rd b 0 2 % 32768
  src := rd b 2 2 % 32768
  type := rd b 4 1
  gen := rd b 5 1
  tag := rd b 8 4
  vc := vc
  dl := dl
  pcrcOk := (Head.ofBytes b).isSome
  payload := slice b 16 (rd b 6 2)

/-- The header fields that a packet shows. -/
def headOf (p : Packet) : Head := ⟨p.dst, p.src, p.type, p.gen, p.payload.length, p.tag⟩

end Sys2Proof.Machine
end

