-- ==== Sys2Proof/Machine/Wire.lean ====
section
/-! DEFINITION. Routes and ports of the Twiben network, sending a packet, numbering and filtering writes, and
acknowledging them (R496 to R509, R541). -/
namespace Sys2Proof.Machine

/-! ## The link map (R510) -/

/-- The ports of a direction (0 X+, 1 X−, 2 Y+, 3 Y−, 4 Z+, 5 Z−, 6 twin, 7 Ethernet) under a link map; port numbers
are those of R524. -/
def portsOf (map dir : Nat) : List Nat :=
  match map, dir with
  | 0, 0 => [0, 1, 2, 12, 13, 14]
  | 0, 1 => [3, 4, 5, 15, 16, 17]
  | 0, 2 => [6, 7, 8, 18, 19, 20]
  | 0, 3 => [9, 10, 11, 21, 22, 23]
  | 1, 0 => [0, 1, 2, 3, 12, 13, 14, 15]
  | 1, 1 => [4, 5, 6, 7, 16, 17, 18, 19]
  | 1, 2 => [8, 9, 20, 21]
  | 1, 3 => [10, 11, 22, 23]
  | 2, 0 => [0, 1, 2, 3, 12, 13, 14, 15]
  | 2, 1 => [4, 5, 6, 7, 16, 17, 18, 19]
  | 2, 7 => [8, 9, 10, 11, 20, 21, 22, 23]
  | 3, 7 => [8, 9, 10, 11, 20, 21, 22, 23]
  | _, 4 => [24, 25, 28]
  | _, 5 => [26, 29, 30]
  | _, 6 => [27, 31]
  | _, _ => []

/-- DIR of port n under a map; 0xF unused (R524). -/
def dirOf (map n : Nat) : Nat := ((List.range 8).find? (fun d => (portsOf map d).contains n)).getD 15

/-- The opposite direction of a ring; the twin is its own opposite. -/
def oppDir (d : Nat) : Nat := if d = 6 then 6 else if d % 2 = 0 then d + 1 else d - 1

/-- The I/O die of a port: 0 IOD-SL, 1 IOD-SR (R25). -/
def iodOf (n : Nat) : Nat := if n < 12 ∨ (24 ≤ n ∧ n < 28) then 0 else 1

/-- X_SIZE, Y_SIZE and Z_SIZE (R502, R523). -/
def State.sizeX (s : State) : Nat := s.regF Reg.LNK_TOPO 1 0 + 1
def State.sizeY (s : State) : Nat := s.regF Reg.LNK_TOPO 3 2 + 1
def State.sizeZ (s : State) : Nat := s.regF Reg.LNK_TOPO 7 4 + 1

/-- The size of the ring of a dimension (0 X, 1 Y, 2 Z) and the coordinate of a node in it. -/
def State.ringSize (s : State) (dim : Nat) : Nat := if dim = 0 then s.sizeX else if dim = 1 then s.sizeY else s.sizeZ
def coord (node dim : Nat) : Nat := if dim = 0 then node % 4 else if dim = 1 then node / 4 % 4 else node / 16 % 16

/-- The node one hop away in a direction. -/
def State.neighbour (s : State) (dir : Nat) : Nat :=
  if dir = 6 then (if s.side = 0 then s.node + 256 else s.node - 256)
  else
    let dim := dir / 2
    let c := coord s.node dim
    let n := s.ringSize dim
    let c' := if dir % 2 = 0 then (c + 1) % n else (c + n - 1) % n
    let w := if dim = 0 then 1 else if dim = 1 then 4 else 16
    s.node - c * w + c' * w

/-- Whether port n is UP. -/
def State.portUp (s : State) (n : Nat) : Bool := (s.link.ports[n]?).any (·.st == 2)

/-- The UP ports of a direction, ascending. -/
def State.upPorts (s : State) (dir : Nat) : List Nat := (portsOf s.map dir).filter s.portUp

/-- The direction of the next hop towards a node in dimension order, with the choice of R506 when every port of the
shorter way is down; `none` when there is no route. -/
def State.nextDir (s : State) (dst : Nat) : Option Nat :=
  let inside := decide (coord dst 0 < s.sizeX) && decide (coord dst 1 < s.sizeY) && decide (coord dst 2 < s.sizeZ)
  if !inside then none
  else
    match (List.range 3).find? (fun d => !(coord dst d == coord s.node d)) with
    | some d =>
      let n := s.ringSize d
      let f := (coord dst d + n - coord s.node d) % n
      let want := if f ≤ n - f then 2 * d else 2 * d + 1
      if !(s.upPorts want).isEmpty then some want
      else if !(s.upPorts (oppDir want)).isEmpty then some (oppDir want) else none
    | none => if (s.upPorts 6).isEmpty then none else some 6

/-- The port chosen for a destination location and class (R504). -/
def choosePort (ports : List Nat) (dst vc : Nat) : Option Nat :=
  ports[crc32c (natLE 2 dst ++ [BitVec.ofNat 8 vc]) % ports.length]?

/-- Whether the hop out of this part in a direction crosses the dateline of its ring (R503). -/
def State.crosses (s : State) (dir : Nat) : Bool :=
  if dir = 6 then false
  else if dir % 2 = 0 then coord s.node (dir / 2) == s.ringSize (dir / 2) - 1 else coord s.node (dir / 2) == 0

/-- The port and sub-channel of the next hop for a packet that came in travelling in `inDir` on sub-channel `inDl`
(R502 to R504). -/
def State.route (s : State) (inDir : Option Nat) (inDl dst vc : Nat) : Option (Nat × Nat) :=
  match s.nextDir (locNode dst) with
  | none => none
  | some dir =>
    let stays := inDir.any (fun d => d / 2 == dir / 2 && !(dir == 6))
    (choosePort (s.upPorts dir) dst vc).map (fun p => (p, b2n (s.crosses dir || (stays && inDl == 1))))

/-! ## Packets -/

/-! ## The transmit side of a port (R493, R497 to R499, R507) -/

/-- Flits a port keeps for replay. -/
def holdLimit (n : Nat) : Nat := if n < 24 then 128 else 1024

/-- Credits of a sub-channel: the receive buffers that the far end has for it, at least a round trip's (R499; log entry 96). -/
def creditLimit (n sub : Nat) : Nat := Config.linkBuffers n sub + holdLimit n

/-- A sub-channel may send: a flit of it waits, and there is a credit for it. -/
def LPort.ready (l : LPort) (n sub : Nat) : Bool := l.wait.any (·.sub == sub) && decide (keyGet 0 l.spent sub < creditLimit n sub)

/-- A class other than bulk and chorus may send. -/
def LPort.contested (l : LPort) (n : Nat) : Bool := (List.range 6).any (l.ready n)

/-- Bulk and chorus may have the next flit of a port: on an E-port at most BULK_PCT percent of the flits while any other class waits
(R493; log entry 96). -/
def LPort.bulkMay (l : LPort) (n pct : Nat) : Bool :=
  decide (24 ≤ n) || !l.contested n || decide (100 * (l.contest.1 + 1) ≤ pct * (l.contest.2 + 1))

/-- The sub-channel that a port grants: of those that may send the one next after the last one granted (R30, R493). -/
def LPort.grant (l : LPort) (n pct : Nat) : Option Nat :=
  ((List.range 8).map (fun i => (l.last + 1 + i) % 8)).find? (fun k => l.ready n k && (decide (k < 6) || l.bulkMay n pct))

/-- The next data flit leaves a port, unless as many are held as the port keeps for replay. -/
def LPort.next (l : LPort) (n pct : Nat) : Option (TxFlit × LPort) :=
  if holdLimit n ≤ l.tx.length then none
  else
    match l.grant n pct with
    | none => none
    | some k =>
      match l.wait.find? (·.sub == k) with
      | none => none
      | some w =>
        let t := { w with lseq := l.txNext }
        some (t, { l with
          txNext := (l.txNext + 1) % 4096
          wait := l.wait.erase w
          tx := l.tx ++ [t]
          last := k
          spent := keyPut l.spent k (keyGet 0 l.spent k + 1)
          contest := if l.contested n then ((if 6 ≤ k then l.contest.1 + 1 else l.contest.1), l.contest.2 + 1) else (0, 0) })

/-- LACK of the next flit: the last LSEQ that was received good. -/
def LPort.lack (l : LPort) : Option Nat := if l.rxAny then some ((l.rxNext + 4095) % 4096) else none

/-- The credits that the next flit returns, of one sub-channel, and the port after that. -/
def LPort.give (l : LPort) : (Nat × Nat) × LPort :=
  match l.owe.find? (fun e => e.2 != 0) with
  | none => ((0, 0), l)
  | some (k, c) => ((k, min 255 c), { l with owe := keyPut l.owe k (c - min 255 c) })

/-- The data flits that leave a port now, with their headers. -/
def LPort.go (n pct node : Nat) : Nat → LPort → List Flit × LPort
  | 0, l => ([], l)
  | fuel + 1, l =>
    match l.next n pct with
    | none => ([], l)
    | some (t, l1) =>
      let ((k, c), l2) := l1.give
      let (fs, l3) := LPort.go n pct node fuel l2
      (t.flit node l.lack k c :: fs, l3)

/-- A port sends what it may. -/
def State.portGo (s : State) (n : Nat) : State :=
  match s.link.ports[n]? with
  | none => s
  | some l =>
    let (fs, l1) := LPort.go n (s.regF Reg.LNK_CTL 7 0) s.node l.wait.length l
    let s1 := s.modLPort n (fun _ => l1)
    if fs.isEmpty then s1 else s1.emit (.flits n fs)

/-- A flit without data leaves a port, with the acknowledgement and credits it has to give (R498). -/
def State.sendEmpty (s : State) (n : Nat) (ctrl : Bool) (payload : Bytes) : State :=
  match s.link.ports[n]? with
  | none => s
  | some l =>
    let ((k, c), l1) := l.give
    (s.modLPort n (fun _ => l1)).emit (.flits n [emptyFlit ctrl payload l.lack k c])

/-- The flits of a packet on a sub-channel (R498). -/
def flitsOf (p : Send) (sub : Nat) : List TxFlit := (List.range (ceilDiv (16 + p.bytes) 240)).map (fun i => ⟨0, sub, p, i⟩)

/-- A packet is handed to a Twiben port. -/
def State.putPort (s : State) (p : Send) (port dl : Nat) : State :=
  (s.modLPort port (fun l => { l with wait := l.wait ++ flitsOf p (2 * vcOf p.body.type + dl) })).portGo port

/-- A packet leaves on a Twiben port. -/
def State.transmit (s : State) (p : Send) (port dl : Nat) : State := (s.emit (.packet p (some (port, dl)))).putPort p port dl

/-- A packet enters the package network. -/
def State.launch (s : State) (x : Parcel) : State :=
  { s with link := { s.link with noc := { s.link.noc with entry := s.link.noc.entry ++ [x] } } }

/-- Send a packet to a location, answering a status: into the package network, towards its die or its port, or not at all (R504, R506,
R544). -/
def State.post (s : State) (p : Send) : Nat × State :=
  if locNode p.dst = s.node then (ST_OK, (s.launch ⟨p, none, none⟩).emit (.packet p none))
  else if s.ras.lostNodes.contains (locNode p.dst) then (ST_RAS_PART_LOST, s)
  else
    match s.route none 0 p.dst (vcOf p.body.type) with
    | none => (ST_LNK_NO_ROUTE, s.latch Reg.LNK_STATUS 2)
    | some hop => (ST_OK, (s.launch ⟨p, none, some hop⟩).emit (.packet p (some hop)))

/-- Send a packet and forget its status. -/
def State.tell (s : State) (dst die : Nat) (body : Payload) : State := (s.post ⟨dst, die, 0, 0, body⟩).2

/-! ## Writes (R509, R541) -/

/-- Unacknowledged writes that one destination location may have (R541). -/
abbrev writeLimit : Nat := 2048

/-- The sequence number after n: wrapping from 2^32 − 1 to 1. -/
def nextSeq (n : Nat) : Nat := if n + 1 < 2 ^ 32 then n + 1 else 1

/-- The row that a forward carries to a copy. -/
def Payload.fwdRow : Payload → Option (Nat × Nat)
  | .forward f => some (f.handle, f.row)
  | .chorus (.row f) => some (f.handle, f.row)
  | _ => none

/-- A forward of the same row to the same copy has been sent again and is not acknowledged: a later one waits (R216). -/
def State.blocked (s : State) (dst : Nat) (body : Payload) : Bool :=
  body.fwdRow.isSome && s.link.pend.any (fun e => e.p.dst == dst && decide (2 ≤ e.attempt) && e.p.body.fwdRow == body.fwdRow)

/-- A write that could not be sent stays unacknowledged, so that it times out and is resolved and sent again: a delta or a
record for the twin always, a write to one copy, or to a directory, when it finds no route and no command waits for it, whose failure could
end (R216, R219, R506, R509; log entry 26). -/
def Payload.keeps (b : Payload) (status : Nat) (cmd : Option (Nat × Nat)) : Bool :=
  match b with
  | .delta _ => true
  | .twin _ _ => true
  | .forward _ => status == ST_LNK_NO_ROUTE
  | .chorus _ => status == ST_LNK_NO_ROUTE
  | .rows _ _ _ _ => status == ST_LNK_NO_ROUTE && cmd.isNone
  | _ => false

/-- Send a numbered write from a die to a location; beyond the outstanding limit it waits. `cmd` and `rec_` are who
waits for the acknowledgement. Answers the status of R506 or R544 when the write cannot be sent. -/
def State.sendWrite (s : State) (die dst : Nat) (body : Payload) (cmd : Option (Nat × Nat)) (rec_ : Option (Nat × Word)) :
    Nat × State :=
  let n := keyGet 0 s.link.seqs dst
  let p : Send := ⟨dst, die, n, 0, body⟩
  let busy := (s.link.pend.filter (fun e => e.p.dst == dst && decide (0 < e.attempt))).length
  let add (s : State) (attempt : Nat) : State :=
    { s with link := { s.link with
        seqs := keyPut s.link.seqs dst (nextSeq n)
        pend := s.link.pend ++ [⟨p, attempt, s.time.gtime, false, cmd, rec_⟩] } }
  if writeLimit ≤ busy ∨ s.blocked dst body then (ST_OK, add s 0)
  else
    match s.post p with
    | (0, s1) => (ST_OK, add s1 1)
    | (st, s1) => if body.keeps st cmd then (ST_OK, add s1 1) else (st, s1)

/-- Send a write whose failure to leave is of no consequence to its sender. -/
def State.write (s : State) (die dst : Nat) (body : Payload) : State := (s.sendWrite die dst body none none).2

/-- Send the oldest write that waits for the outstanding limit of a location; one that cannot be sent, and does not stay, is answered with
its status (R506). -/
def State.drain (s : State) (dst : Nat) : Option (Pend × Nat) × State :=
  match s.link.pend.find? (fun e => e.p.dst == dst && e.attempt == 0 && !s.blocked dst e.p.body) with
  | none => (none, s)
  | some e =>
    let (st, s1) := s.post e.p
    let s2 : State := { s1 with link := { s1.link with
        pend := modFirst (fun x => x.p == e.p) (fun x => { x with attempt := 1, since := s.time.gtime }) s1.link.pend } }
    (if st = ST_OK ∨ e.p.body.keeps st e.cmd then none else some ({ e with attempt := 1 }, st), s2)

/-- Send a write, answering its name if it left or waits to leave. -/
def State.sendNamed (s : State) (die dst : Nat) (body : Payload) : Option (Nat × Nat) × State :=
  match s.sendWrite die dst body none none with
  | (0, s1) => (some (dst, keyGet 0 s.link.seqs dst), s1)
  | (_, s1) => (none, s1)

/-- How the duplicate filter answers a write (R541). -/
inductive Verdict where
  | apply | again | old
  deriving DecidableEq, Repr

/-- The filter's answer for number n of a source node at a die. -/
def State.verdict (s : State) (die node n : Nat) : Verdict :=
  match s.link.windows.find? (fun w => w.die == die && w.node == node) with
  | none => .apply
  | some w =>
    if n = 0 then .apply
    else if n ≠ w.high ∧ (n + 2 ^ 32 - w.high) % 2 ^ 32 < 2 ^ 31 then .apply
    else if (w.high + 2 ^ 32 - n) % 2 ^ 32 < 4096 then (if w.seen.contains n then .again else .apply)
    else .old

/-- The window after number n was accepted. -/
def Window.accept (w : Window) (n : Nat) : Window :=
  if n = 0 then { w with high := 0, seen := [0] }
  else if n ≠ w.high ∧ (n + 2 ^ 32 - w.high) % 2 ^ 32 < 2 ^ 31 then
    { w with high := n, seen := n :: w.seen.filter (fun x => decide ((n + 2 ^ 32 - x) % 2 ^ 32 < 4096)) }
  else { w with seen := n :: w.seen }

/-- Mark number n of a source node as accepted at a die. -/
def State.accept (s : State) (die node n : Nat) : State :=
  let old := (s.link.windows.find? (fun w => w.die == die && w.node == node)).getD ⟨die, node, 0, []⟩
  { s with link := { s.link with
      windows := old.accept n :: s.link.windows.filter (fun w => !(w.die == die && w.node == node)) } }

/-- Who numbered a write, and at which die it is filtered (R541). -/
def filterKey (h : WriteHdr) : Nat := locNode h.src + 4096 * h.die

/-- The result of a write that was applied is kept while its number is within its window, so that a duplicate is answered alike
(R541). -/
def State.keepResult (s : State) (h : WriteHdr) (r : Nat) : State :=
  let seen := ((s.link.windows.find? (fun w => w.die == h.die && w.node == locNode h.src)).map (·.seen)).getD []
  { s with link := { s.link with
      results := (filterKey h, h.tag, r) :: s.link.results.filter (fun e => e.1 != filterKey h || (e.2.1 != h.tag && seen.contains e.2.1)) } }

/-- The result that a write was answered with. -/
def State.resultOf (s : State) (h : WriteHdr) : Nat :=
  ((s.link.results.find? (fun e => e.1 == filterKey h && e.2.1 == h.tag)).map (·.2.2)).getD 0

/-- Acknowledge a write, with a result. -/
def State.sendAck (s : State) (h : WriteHdr) (result : Nat) : State :=
  s.tell h.src h.die (.ack h.tag h.gen result)

/-- A write arrives: it passes the duplicate filter, `f` applies it and answers a result, and it is acknowledged. A
write between dies of the part is not filtered (R541). -/
def State.recvWrite (s : State) (h : WriteHdr) (f : State → Nat × State) : State :=
  if !h.linked then
    let (r, s1) := f s
    s1.sendAck h r
  else
    match s.verdict h.die (locNode h.src) h.tag with
    | .apply =>
      let (r, s1) := f (s.accept h.die (locNode h.src) h.tag)
      (s1.keepResult h r).sendAck h r
    | .again => (s.count Reg.RAS_DUP 1).sendAck h (s.resultOf h)
    | .old => s.count Reg.RAS_DUP_OLD 1

/-- The acknowledgement of a write that is owed. -/
def Owed.isFor (o : Owed) (h : WriteHdr) : Bool := o.h.src == h.src && o.h.die == h.die && o.h.tag == h.tag && o.h.linked == h.linked

/-- The acknowledgement that is owed to a write carries the generation of its latest attempt (R509). -/
def State.renew (s : State) (h : WriteHdr) : State :=
  { s with link := { s.link with owed := s.link.owed.map (fun o => if o.isFor h then { o with h := h } else o) } }

/-- A write arrives whose acknowledgement may have to wait: `f` answers a result at once, or owes it. A duplicate of
a write that is still owed, within the part too, is not applied again: it renews the generation its answer carries (R215, R216, R509, R541). -/
def State.recvOwed (s : State) (h : WriteHdr) (f : State → Option Nat × State) : State :=
  let owed := s.link.owed.any (·.isFor h)
  let answer (s : State) : State :=
    match f s with
    | (none, s1) => s1
    | (some r, s1) => (if h.linked then s1.keepResult h r else s1).sendAck h r
  if !h.linked then (if owed then s.renew h else answer s)
  else
    match s.verdict h.die (locNode h.src) h.tag with
    | .apply => answer (s.accept h.die (locNode h.src) h.tag)
    | .again =>
      let s1 := s.count Reg.RAS_DUP 1
      if owed then s1.renew h else s1.sendAck h (s.resultOf h)
    | .old => s.count Reg.RAS_DUP_OLD 1

/-- Owe the acknowledgement of a write. -/
def State.owe (s : State) (o : Owed) : State := { s with link := { s.link with owed := s.link.owed ++ [o] } }

/-- Pay an acknowledgement that is owed. -/
def State.pay (s : State) (o : Owed) : State :=
  (if o.h.linked then s.keepResult o.h o.result else s).sendAck o.h o.result

end Sys2Proof.Machine
end

