-- ==== Sys2Proof/Machine/Sched.lean ====
section
/-! DEFINITION. Which context a prompter issues for: readiness and the switches of R425. -/
namespace Sys2Proof.Machine

/-- Rank of a queue slot: MQ first, then QS0 to QS7 (R389). -/
def rank (slot : Nat) : Nat := if slot = 8 then 0 else slot + 1

/-- A producer acquire would not wait. -/
def Ring.room (r : Ring) : Bool := r.endPub || decide ((r.pacq - r.rel).toNat < r.slots)

/-- A consumer acquire would not wait. -/
def Ring.avail (r : Ring) : Bool := r.cacq != r.pub || r.endLast

/-- The classes that a FENCE mask names (R376). -/
def fenceNames (mask : Nat) : EClass → Bool
  | .arr => mask.testBit 0
  | .vec => mask.testBit 1
  | .sfu => mask.testBit 1
  | .lk => mask.testBit 2
  | .te => mask.testBit 3
  | .ring => mask.testBit 4

/-- Engine instructions of a class issued on a cluster and not ended. -/
def State.queueLen (s : State) (cl : Nat) (e : EClass) : Nat :=
  (s.ctxs.map (fun c => ((c.cls.filter (·.cl == cl)).map (fun k => (k.running.filter (·.cls == e)).length)).sum)).sum

/-- The queue of an engine class is full: 8 instructions, or the 1,024 operations of the die's GPE (R92, R359). -/
def State.queueFull (s : State) (cl : Nat) (e : EClass) : Bool :=
  if e = .lk then decide (1024 ≤ ((s.gpes[cl / 16]?).map (·.ops.length)).getD 0)
  else decide (8 ≤ s.queueLen cl e)

/-- The oldest instruction of its class on a cluster, which is the one that runs (R359); the special-function unit too serves one at
a time, in issue order (R280). The GPE works on all of its operations. -/
def State.isHead (s : State) (cl : Nat) (o : EngOp) : Bool :=
  o.cls == .lk || !s.ctxs.any (fun c => c.cls.any (fun k => k.cl == cl
    && k.running.any (fun x => (x.cls == o.cls || (x.onSfu && o.onSfu)) && decide (x.id < o.id))))

/-- What a context waits for on a cluster has come (R379, R425). -/
def State.waitOver (s : State) (c : Ctx) (k : ClCtx) : Wait → Bool
  | .racq q cons => (c.rings.find? (·.reg == q)).all (fun r => if cons then r.avail else r.room)
  | .curtain n g => (c.curtains[n]?).all (fun u => u.gen != g)
  | .again n g => (c.curtains[n]?).all (fun u => u.gen != g)
  | .fence m => !k.running.any (fun o => fenceNames m o.cls)
  | .queueFull e => !s.queueFull k.cl e
  | .issue => true

/-- A context could issue on a cluster: it runs and has neither ended nor been cancelled there. -/
def Ctx.held (c : Ctx) (k : ClCtx) : Bool := decide (c.st = .running) && !k.exited && !k.cancelled

/-- A context's next instruction on a cluster can issue (R425). -/
def State.ctxReady (s : State) (cl : Nat) (c : Ctx) : Bool :=
  c.cls.any (fun k => k.cl == cl && c.held k && k.wait.all (s.waitOver c k))

/-- The first of some contexts: by priority, and among equals the next after the present one (R425). -/
def State.first (s : State) (cl : Nat) (l : List Ctx) : Option Ctx :=
  let cur := ((s.clusters[cl]?).map (·.ctx)).getD 0
  let key (c : Ctx) : Nat := rank c.slot * 4096 + (c.id + 4095 - cur) % 4096
  l.foldl (fun (m : Option Ctx) c => match m with
    | none => some c
    | some b => if key c < key b then some c else some b) none

/-- The prompter of a cluster issues for a context from now on. -/
def State.enter (s : State) (cl id : Nat) : State :=
  let s1 := s.modCluster cl (fun k => { k with ctx := id, running := true })
  s1.modCtx id (fun c => { c with cls := modFirst (·.cl == cl) (fun k => { k with since := s.time.gtime }) c.cls })

/-- A switch to the highest-priority ready context among those that satisfy `p` (R425). -/
def State.switchTo (s : State) (cl : Nat) (p : Ctx → Bool) : State :=
  match s.first cl (s.ctxs.filter (fun c => s.ctxReady cl c && p c)) with
  | some c => s.enter cl c.id
  | none => s

/-- A prompter that issues for no context takes a ready one, or else one that waits. -/
def State.repick (s : State) (cl : Nat) : State :=
  if (s.clusters[cl]?).any (·.running) then s
  else
    match s.first cl (s.ctxs.filter (s.ctxReady cl)) with
    | some c => s.enter cl c.id
    | none =>
      match s.first cl (s.ctxs.filter (fun c => c.cls.any (fun k => k.cl == cl && c.held k))) with
      | some c => s.enter cl c.id
      | none => s

end Sys2Proof.Machine
end

