-- ==== Sys2Proof/Machine/Context.lean ====
section
/-! DEFINITION. Domains, version references and the release of contexts: what the tables, placement, queue, loss and
reset rules share. -/
namespace Sys2Proof.Machine

/-! ## Domains (R142 to R146) -/

/-- The members of a domain, ascending (R143). -/
def Dom.memberList (d : Dom) : List Nat := (List.range 256).filter (d.members.getLsbD ·)

/-- The members not declared lost. -/
def Dom.live (d : Dom) : List Nat := d.memberList.filter (fun m => !d.excluded.contains m)

/-- The member whose director leads (R146). -/
def Dom.leader (d : Dom) : Option Nat := d.live.head?

/-- The valid domain with a number, and its slot. -/
def State.domOf (s : State) (number : Nat) : Option (Nat × Dom) :=
  (s.doms.zipIdx.find? (fun e => e.1.valid && e.1.number == number)).map (fun e => (e.2, e.1))

/-- The domain of a table. -/
def State.tableDom (s : State) (t : Table) : Option (Nat × Dom) := s.domOf t.domain

/-- Whether this part leads a domain. -/
def State.leads (s : State) (d : Dom) : Bool := d.leader == some s.member

/-- The live members other than this part, as nodes. -/
def State.others (s : State) (d : Dom) : List Nat := (d.live.filter (· != s.member)).map s.memberNode

/-- Send a WORK message to every other live member, with the command that waits. Answers ST_OK, or the status of the last
message that could not be sent (R506, R544). -/
def State.workAll (s : State) (d : Dom) (m : WorkMsg) (cmd : Option (Nat × Nat)) : Nat × State :=
  (s.others d).foldl (fun (acc : Nat × State) n =>
    match acc.2.sendWrite 0 n (.work m) cmd none with
    | (0, s1) => (acc.1, s1)
    | (st, s1) => (st, s1)) (ST_OK, s)

/-! ## References to versions (R68, R177) -/

/-- A member's report that it holds no reference to a version reaches the leader. -/
def State.noteZero (s : State) (h v node : Nat) : State :=
  s.modVer h v (fun w => { w with zero := insertNew node w.zero })

/-- This part's count of a RETIRING version is zero: the leader notes it, or is told (R177). -/
def State.reportZero (s : State) (h v : Nat) : State :=
  match s.table? h with
  | none => s
  | some t =>
    match t.ver? v, s.tableDom t with
    | some w, some (_, d) =>
      if w.st = .retiring ∧ w.refs = 0 then
        if s.leads d then s.noteZero h v s.node
        else match d.leader with
          | some l => s.write 0 (s.memberNode l) (.work (.zeroRefs h v s.node))
          | none => s
      else s
    | _, _ => s

/-- Take one reference to a version. -/
def State.takeRef (s : State) (hv : Nat × Nat) : State := s.modVer hv.1 hv.2 (fun w => { w with refs := w.refs + 1 })

/-- Release one reference to a version. -/
def State.dropRef (s : State) (hv : Nat × Nat) : State :=
  (s.modVer hv.1 hv.2 (fun w => { w with refs := w.refs - 1 })).reportZero hv.1 hv.2

/-- Release the references of a context. -/
def State.dropRefs (s : State) (l : List (Nat × Nat)) : State := l.foldl State.dropRef s

/-- An edition of a script is given up by a context (R409, R410): one that nothing holds and is not current goes. -/
def Script.dropEdition (c : Script) (e : Nat) : Script :=
  let eds := c.editions.map (fun x => if x.num = e then { x with refs := x.refs - 1 } else x)
  { c with editions := eds.filter (fun x => !(x.refs == 0 && (!c.resident || x.num != c.cur))) }

/-- Release the edition a context is bound to. -/
def State.dropScript (s : State) (h e : Nat) : State :=
  let l := s.scripts.map (fun c => if c.handle = h then c.dropEdition e else c)
  { s with scripts := l.filter (fun c => c.resident || !c.editions.isEmpty) }

/-- One context fewer uses the shared area of an edition; an area that none uses is freed (R351). -/
def dropShared (script edition : Nat) (l : List (Nat × Nat × Nat × Nat)) : List (Nat × Nat × Nat × Nat) :=
  (l.map fun (sc, e, b, n) => if sc = script ∧ e = edition then (sc, e, b, n - 1) else (sc, e, b, n)).filter
    fun (_, _, _, n) => n != 0

/-- Script and edition that run: the understudy's after a swap (R430). -/
def Ctx.bound (c : Ctx) : Nat × Nat := if c.swapped then c.us.getD (c.script, c.edition) else (c.script, c.edition)

/-- A cluster after a context that it held is gone. -/
def Cluster.drop (k : Cluster) (c : Ctx) : Cluster :=
  if c.cls.any (·.cl == k.num) then
    { k with running := k.running && k.ctx != c.id, shared := dropShared c.bound.1 c.bound.2 k.shared }
  else k

/-- Free the clusters a context holds: its frames and its share of shared areas go (R326, R351). -/
def State.freeClusters (s : State) (c : Ctx) : State := { s with clusters := s.clusters.map (·.drop c) }

/-- A context is released with its version references, its rings and its frames (R68, R326). -/
def State.releaseCtx (s : State) (id : Nat) : State :=
  match s.ctx? id with
  | none => s
  | some c =>
    let s1 := (s.freeClusters c).dropRefs c.versions
    let s2 := s1.dropScript c.script c.edition
    let s3 := match c.us with
      | some (h, e) => s2.dropScript h e
      | none => s2
    let s4 : State := { s3 with ctxs := s3.ctxs.filter (fun x => !(x.id == id)) }
    (c.cls.map (·.cl)).foldl State.repick s4

/-- Every context is cancelled and released, with no record and no reply (R447, R542). GPE operations are abandoned,
and their numbers stay taken until the timeout (R102). -/
def State.dropContexts (s : State) : State :=
  let s1 := (s.ctxs.map (·.id)).foldl State.releaseCtx s
  { s1 with
    gpes := s1.gpes.map (fun g => { g with ops := g.ops.map (fun o => if o.abandoned.isNone then { o with abandoned := some s.time.gtime, bags := [] } else o) })
    cueNames := s1.cueNames.map (fun n => if n.until_.isNone then { n with until_ := some s.time.gtime } else n)
    slots := s1.slots.map (fun q => { q with cmds := q.cmds.filter (fun c => !(c.op == 1)) }) }

end Sys2Proof.Machine
end

