-- ==== Sys2Proof/Machine/Loss.lean ====
section
/-! DEFINITION. Losing the part: the RAS leader, dumps, self-loss and the last gasp (R542, R543, R546, R549, R578),
and the values of the RAS registers that are read from the typed state. -/
namespace Sys2Proof.Machine

/-! ## Ticks of long times -/

abbrev second : Nat := 4000000000
abbrev hour : Nat := 14400000000000
abbrev day : Nat := 345600000000000

/-! ## The RAS leader (R543) -/

/-- The live member indices of this side: those inside the sizes of R502 that are not lost. -/
def State.liveMembers (s : State) : List Nat :=
  (List.range 256).filter (fun m =>
    decide (coord m 0 < s.sizeX) && decide (coord m 1 < s.sizeY) && decide (coord m 2 < s.sizeZ)
      && !(s.ras.lostNodes.contains (s.memberNode m)))

/-- The RAS leader's member index. -/
def State.rasLeader (s : State) : Nat := s.liveMembers.headD s.member

/-! ## Registers computed from the RAS state (R559, R560) -/

/-- The kind and index of a unit ID (R545). -/
def unitKind (u : Nat) : Nat := u / 4096 % 16
def unitIdx (u : Nat) : Nat := u % 4096

/-- Whether a unit is scored (R536); a stack's updaters and adders are one unit, its pseudo-channel 0. -/
def scored (u : Nat) : Bool :=
  match unitKind u with
  | 0 => decide (unitIdx u < 1024)
  | 1 | 2 | 3 => decide (unitIdx u < 128)
  | 5 => decide (unitIdx u < 8)
  | 6 => decide (unitIdx u < 512) && unitIdx u % 32 == 0
  | _ => false

/-- The cluster of a unit. -/
def unitCluster (u : Nat) : Option Nat :=
  match unitKind u with
  | 0 => some (unitIdx u / 8)
  | 1 | 2 | 3 => some (unitIdx u)
  | _ => none

/-- A unit's state; one not listed is HEALTHY with no history. -/
def State.unit (s : State) (u : Nat) : UnitSt := (s.ras.units.find? (·.id == u)).getD ⟨u, .healthy, [], [], 0, none⟩

/-- Whether a unit of a cluster is fenced, or the cluster is fenced by R534. -/
def State.clFenced (s : State) (cl : Nat) : Bool :=
  s.ras.scratchFenced.contains cl || s.ras.units.any (fun u => u.st == .fenced && unitCluster u.id == some cl)

/-- Whether new work may be placed on a cluster: no unit of it is fencing or fenced (R180, R538). -/
def State.clOpen (s : State) (cl : Nat) : Bool :=
  !s.ras.scratchFenced.contains cl &&
    !s.ras.units.any (fun u => (u.st == .fenced || u.st == .fencing) && unitCluster u.id == some cl)

/-- The units on the watch list. -/
def State.watch (s : State) : List UnitSt := s.ras.units.filter (·.st == .suspect)

def UState.code : UState → Nat
  | .healthy => 0
  | .suspect => 1
  | .fencing => 2
  | .fenced => 3

/-- RAS_UNIT_STAT (R559). -/
def State.unitStat (s : State) : Nat :=
  let u := s.regF Reg.RAS_UNIT_SEL 15 0
  let x := s.unit u
  if !scored u then 0
  else
    let ev := (x.events.filter (fun t => decide (s.now < t.toNat + day))).length
    let tr := (x.transients.filter (fun t => decide (s.now < t.toNat + hour))).length
    let iv := if x.st = .suspect then s.regF Reg.RAS_CTL 15 8 else s.regF Reg.RAS_CTL 31 16
    x.st.code * 2 ^ 62 + min ev 63 * 2 ^ 56 + min tr 255 * 2 ^ 48 + iv * 2 ^ 32 + x.last.toNat / 2 ^ 32

/-- RAS_FENCE_CL k: bit m is cluster 64 k + m. -/
def State.fenceCl (s : State) (k : Nat) : Nat :=
  ((List.range 64).map (fun m => if s.clFenced (64 * k + m) then 2 ^ m else 0)).foldl (· + ·) 0

/-- RAS_LOSS with LEADER (R556). -/
def State.rasLoss (s : State) : Nat := s.memberNode s.rasLeader * 2 ^ 16 + s.regF Reg.RAS_LOSS 15 0

/-! ## Dumps (R549) -/

/-- Every RAS_ register that is held in the bank. -/
def rasStored : List Nat := [Reg.RAS_CTL, Reg.RAS_LOSS, Reg.RAS_STATUS, Reg.RAS_INT_EN, Reg.RAS_ALERT_EN,
  Reg.RAS_BAD_ACCESS, Reg.RAS_UNIT_SEL, Reg.RAS_LOST_NODE, Reg.RAS_LAST_CAUSE, Reg.RAS_DUMP, Reg.RAS_LOST_MAP 0,
  Reg.RAS_LOST_MAP 1, Reg.RAS_LOST_MAP 2, Reg.RAS_LOST_MAP 3, Reg.RAS_CHECK_FAIL, Reg.RAS_SELFTESTS,
  Reg.RAS_SRAM_CE, Reg.RAS_SRAM_UE, Reg.RAS_PARITY, Reg.RAS_DUP, Reg.RAS_DUP_OLD]

/-- The RAS_ registers of a dump. -/
def State.rasRegs (s : State) : List (Nat × Word) :=
  rasStored.map (fun a => (a, if a = Reg.RAS_LOSS then BitVec.ofNat 64 s.rasLoss else s.reg a)) ++
    [(Reg.RAS_UNIT_STAT, BitVec.ofNat 64 s.unitStat), (Reg.RAS_FENCE_CL 0, BitVec.ofNat 64 (s.fenceCl 0)),
     (Reg.RAS_FENCE_CL 1, BitVec.ofNat 64 (s.fenceCl 1)), (Reg.RAS_WATCH, BitVec.ofNat 64 s.watch.length),
     (Reg.RAS_LOG_HEAD, BitVec.ofNat 64 s.ras.seq)]

/-- Bytes of a dump: its header, and the log, watch list and registers, whose layout there is open, up to 256 KiB (R549; log entry 98). -/
def dumpBytes (psn : Nat) : Nat := 64 + Config.wireBytes 256 psn % (2 ^ 18 - 63)

/-- Write a dump over the connection of RAS_DUMP; it fails when that connection is not READY (R549). -/
def State.writeDump (s : State) (code : Nat) : Nat × State :=
  let c := s.regF Reg.RAS_DUMP 57 52
  match s.net.roce[c]? with
  | none => (ST_MSS_NO_CONN, s)
  | some r =>
    if r.st ≠ 1 then (ST_MSS_NO_CONN, s)
    else
      let n := ceilDiv (dumpBytes r.psn) 4096
      let s1 := s.modRoce c (fun r => { r with psn := (r.psn + n) % 2 ^ 24, writes := r.writes ++ [(r.psn + n - 1) % 2 ^ 24], dumping := true, since := s.time.gtime })
      (ST_OK, s1.sendPrio r.port r.prio (.dump c r.psn (s.regF Reg.RAS_DUMP 51 0 * 4096) s.node s.time.gtime code s.ras.log s.watch s.rasRegs))

/-! ## Self-loss (R542, R546, R578) -/

/-- Take every Twiben port DOWN; the flits it held are gone. -/
def State.portsDown (s : State) : State :=
  { s with link := { s.link with ports := s.link.ports.map (fun l =>
      if l.st = 4 then l else { LPort.init with miswired := l.miswired }) } }

/-- Drive the last-gasp code: GASP_N falls, the code stands on OB0 to OB11, in RAS_LAST_CAUSE and in the last log
record. -/
def State.lastGasp (s : State) (code : Nat) : State :=
  let s1 := s.log 4 (0xF000 + code) (12 * 4096 + s.node) none 0 0 0
  let s2 := s1.setRegN Reg.RAS_LAST_CAUSE (2 ^ 31 + code)
  { s2 with pwr := { s2.pwr with gaspN := false, gaspCode := some code } }

/-- What has been sent and is to leave the part goes to its port at once. -/
def State.flushHops (s : State) : State :=
  s.link.noc.entry.foldl (fun s x =>
    match x.hop with
    | none => s
    | some (port, dl) => s.putPort x.p port dl)
    { s with link := { s.link with noc := { s.link.noc with entry := s.link.noc.entry.filter (·.hop.isNone) } } }

/-- Tell the RAS leader that this part is lost, while a port is UP; when this part leads, the next live member is
told. -/
def State.tellLost (s : State) : State :=
  if s.link.ports.any (·.st == 2) then
    match s.liveMembers.find? (· != s.member) with
    | none => s
    | some next =>
      let to_ := if s.rasLeader = s.member then next else s.rasLeader
      (s.write 0 (s.memberNode to_) (.lost s.node)).flushHops
  else s

/-- The part declares itself lost, in the steps of R542. -/
def State.declareLost (s : State) (code : Nat) : State :=
  if s.pwr.lost then s
  else
    let s1 : State := { s with pwr := { s.pwr with lost := true } }
    let s2 := s1.dropContexts.tellLost
    let s3 := if s.regB Reg.RAS_DUMP 63 then (s2.writeDump code).2 else s2
    let s4 := s3.portsDown.latch Reg.RAS_STATUS 6
    ({ s4 with pwr := { s4.pwr with fatal := true } } : State).lastGasp code

end Sys2Proof.Machine
end

