-- ==== Sys2Proof/Machine/Ras.lean ====
section
/-! DEFINITION. Scored units, self-tests, the loss protocol and the meanings of the RAS commands (R532 to R549). -/
namespace Sys2Proof.Machine

/-- The part is out of reset and its management cores run, from training on (R572). -/
def State.up (s : State) : Bool :=
  s.pwr.powered && s.pwr.rstN && !decide (s.pwr.stage = .reset) && !decide (s.pwr.stage = .strapFault)

/-! ## Scored units (R536 to R540) -/

/-- Record a unit's state. -/
def State.putUnit (s : State) (x : UnitSt) : State :=
  { s with ras := { s.ras with units := x :: s.ras.units.filter (fun u => !(u.id == x.id)) } }

/-- Stop placing work on a unit's cluster; a GPE or a stack's updaters make the part lost instead (R538). -/
def State.enterFencing (s : State) (u : Nat) : State :=
  match unitKind u with
  | 5 => s.declareLost (0x710 + unitIdx u)
  | 6 => s.declareLost (0x720 + unitIdx u / 32)
  | _ => s.putUnit { s.unit u with st := .fencing }

/-- FENCE_LIMIT (R556). -/
def State.fenceLimit (s : State) : Nat := s.regF Reg.RAS_CTL 7 4

/-- A unit enters the watch list; a full list gives up its unit with the oldest latest event, or the unit is fenced at
once when every unit of it had an event within the hour (R540). -/
def State.enterWatch (s : State) (x : UnitSt) : State :=
  let add (s : State) : State := (s.putUnit { x with st := .suspect }).latch Reg.RAS_STATUS 3
  if s.watch.length < 64 then add s
  else if s.watch.all (fun u => decide (s.now < u.last.toNat + hour)) then (s.putUnit x).enterFencing x.id
  else
    let old := s.watch.foldl (fun (m : UnitSt) u => if u.last.toNat < m.last.toNat then u else m) (s.watch.headD x)
    add (s.putUnit { old with st := .healthy })

/-- What the log record of a failed check carries beside the unit: status, operand hash, check number and context (R537, R545). -/
structure CheckRep where
  code : Nat
  hash : Nat
  no : Nat
  ctx : Option Nat

/-- The report of a failed check under a code. -/
def CheckRep.of (c : CheckNo) (code : Nat) (ctx : Option Nat) : CheckRep := ⟨code, c.hash.toNat, c.no, ctx⟩

/-- The log record of a failed check. -/
def State.logCheck (s : State) (u sev : Nat) (c : CheckRep) : State := s.log sev c.code u c.ctx c.hash 0 c.no

/-- An event of a unit (R537, R538). -/
def State.unitEvent (s : State) (u : Nat) (c : CheckRep) : State :=
  let x := s.unit u
  let y := { x with
    events := s.time.gtime :: x.events.filter (fun t => decide (s.now < t.toNat + day))
    transients := []
    last := s.time.gtime }
  let s1 := s.logCheck u 3 c
  match x.st with
  | .healthy => s1.enterWatch y
  | .suspect => if s.fenceLimit ≤ y.events.length then (s1.putUnit y).enterFencing u else s1.putUnit y
  | .fencing => s1.putUnit y
  | .fenced => s1.putUnit y

/-- A failure whose replay on the same unit passed; the sixteenth within an hour is an event (R537). -/
def State.unitTransient (s : State) (u : Nat) (c : CheckRep) : State :=
  let x := s.unit u
  let t := s.time.gtime :: x.transients.filter (fun t => decide (s.now < t.toNat + hour))
  let s1 := (s.putUnit { x with transients := t }).logCheck u 2 c
  if 16 ≤ t.length then s1.unitEvent u c else s1

/-- n checks of a unit failed: they are counted, CHECK is set, each but the last gets its log record (R272, R310). -/
def State.checksCounted (s : State) (u n : Nat) (c : CheckRep) : State :=
  Nat.repeat (fun s => s.logCheck u 2 c) (n - 1) ((s.count Reg.RAS_CHECK_FAIL n).latch Reg.RAS_STATUS 2)

/-- n checks of one step of a unit failed, one after another: the last is scored, as an event when the replay on that unit failed too,
and else as a transient (R537). -/
def State.checkFailed (s : State) (u n : Nat) (c : CheckRep) (event : Bool) : State :=
  let s1 := s.checksCounted u n c
  if event then s1.unitEvent u c else s1.unitTransient u c

/-- A check of the unit that a step moved to failed: it is counted and logged, and scores nothing (R272, R537). -/
def State.checkMoved (s : State) (u : Nat) (c : CheckRep) : State := (s.checksCounted u 1 c).logCheck u 2 c

/-- Whether a unit holds work: undrained accumulators for an array, an instruction in progress otherwise (R538). -/
def State.unitBusy (s : State) (u : Nat) : Bool :=
  let on (f : ClCtx → Bool) : Bool := s.ctxs.any (fun c => c.cls.any (fun k => some k.cl == unitCluster u && f k))
  match unitKind u with
  | 0 => on (fun k => k.acc.isSome || k.running.any (·.cls == .arr))
  | 1 => on (fun k => k.running.any (·.cls == .vec))
  | 2 => on (fun k => k.running.any (·.onSfu))
  | 3 => on (fun k => k.running.any (·.cls == .te))
  | _ => false

/-- A self-test of a unit runs (R539). -/
def State.selfTest (s : State) (u : Nat) (passed : Bool) : State :=
  let s1 := s.count Reg.RAS_SELFTESTS 1
  if passed then s1 else s1.unitEvent u ⟨ST_RAS_CHECK, 0, 0, none⟩

/-- The self-test interval of a unit in a state, in ticks (R556). -/
def State.testTicks (s : State) (st : UState) : Nat :=
  second * (if st = .suspect then s.regF Reg.RAS_CTL 15 8 else s.regF Reg.RAS_CTL 31 16)

/-- SELF_TEST_INTERVAL. The test runs while the unit is HEALTHY or SUSPECT and holds no work (R539). -/
def execSelfTestInterval (unit : Nat) (passed : Bool) (s : State) : Outcome State Fault Refusal :=
  .next (s.whenServing fun s =>
    let x := s.unit unit
    if scored unit ∧ (x.st = .healthy ∨ x.st = .suspect) ∧ !s.unitBusy unit ∧ s.elapsed x.tested (s.testTicks x.st) then
      (s.putUnit { x with tested := some s.time.gtime }).selfTest unit passed
    else s)

/-- UNIT_FENCED (R538). -/
def execUnitFenced (unit : Nat) (s : State) : Outcome State Fault Refusal :=
  .next (s.whenServing fun s =>
    if (s.unit unit).st = .fencing ∧ !s.unitBusy unit then
      ((s.putUnit { s.unit unit with st := .fenced }).latch Reg.RAS_STATUS 4).log 3 ST_OK unit none 0 0 0
    else s)

/-- WATCH_LIST_EXPIRY (R538). -/
def execWatchListExpiry (unit : Nat) (s : State) : Outcome State Fault Refusal :=
  .next (s.whenServing fun s =>
    let x := s.unit unit
    if x.st = .suspect ∧ x.last.toNat + day ≤ s.now then s.putUnit { x with st := .healthy } else s)

/-! ## The loss protocol (R543) -/

/-- PROBE_US in ticks (R556). -/
def State.probeTicks (s : State) : Nat := us (s.regF Reg.RAS_LOSS 15 0)

/-- The neighbours of a node in every direction of the link map. -/
def State.neighboursOf (s : State) (node : Nat) : List Nat :=
  let step (dim : Nat) (up : Bool) : List Nat :=
    let n := s.ringSize dim
    let c := coord node dim
    let w := if dim = 0 then 1 else if dim = 1 then 4 else 16
    if n ≤ 1 ∨ (portsOf s.map (2 * dim)).isEmpty then []
    else [node - c * w + (if up then (c + 1) % n else (c + n - 1) % n) * w]
  ((List.range 3).flatMap (fun d => step d true ++ step d false)).eraseDups

/-- The leader begins to probe a suspect node, unless it is being probed or is declared. -/
def State.startProbe (s : State) (node : Nat) (portsFailed : Bool) : State :=
  if s.ras.probes.any (·.node == node) ∨ s.ras.lostNodes.contains node then s
  else
    let ask := (s.neighboursOf node).filter (fun n => !s.ras.lostNodes.contains n)
    let s1 : State := { s with ras := { s.ras with probes := s.ras.probes ++ [⟨node, ask, [], portsFailed, s.time.gtime⟩] } }
    ask.foldl (fun s n => s.write 0 n (.probeAsk node)) s1

/-- Report a node to the RAS leader, which may be this part (R543). -/
def State.reportSuspect (s : State) (node : Nat) (portsFailed : Bool) : State :=
  if s.ras.lostNodes.contains node ∨ s.ras.reports.any (·.node == node) then s
  else if s.rasLeader = s.member then s.startProbe node portsFailed
  else
    let s1 : State := { s with ras := { s.ras with reports := s.ras.reports ++ [⟨node, s.rasLeader, portsFailed, s.time.gtime⟩] } }
    s1.write 0 (s.memberNode s.rasLeader) (.suspect node portsFailed)

/-- The leader declares a node lost and tells every part of the side, itself among them, and the node's twin. -/
def State.declareNode (s : State) (node reason : Nat) : State :=
  let s1 : State := { s with ras := { s.ras with probes := s.ras.probes.filter (fun p => !(p.node == node)) } }
  let s2 := s1.setRegN Reg.RAS_LOST_NODE (s.now / 2 ^ 16 * 2 ^ 16 + reason * 2 ^ 12 + node)
  let parts := (s.liveMembers.map s.memberNode).filter (fun n => !(n == node))
  let s3 := parts.foldl (fun s n => s.write 0 n (.lost node)) s2
  s3.write 0 (if node < 256 then node + 256 else node - 256) (.lost node)

/-- SUSPECT (R543). A part that a report reaches acts as leader. -/
def execSuspect (h : WriteHdr) (node : Nat) (portsFailed : Bool) (s : State) : Outcome State Fault Refusal :=
  .next (s.whenServing fun s => s.recvWrite h (fun s => (ST_OK, s.startProbe node portsFailed)))

/-- The answer of a probe from a node: a part that does not lead the probe passes it on to the leader; at the leader an answer from the
suspect ends the probe, and a neighbour that cannot reach it is noted (R543). -/
def State.probeSays (s : State) (src node : Nat) (alive : Bool) : State :=
  if !s.ras.probes.any (·.node == node) ∧ s.rasLeader ≠ s.member then s.write 0 (s.memberNode s.rasLeader) (.probeAns node alive)
  else if alive then { s with ras := { s.ras with probes := s.ras.probes.filter (fun p => !(p.node == node)) } }
  else { s with ras := { s.ras with probes := modFirst (·.node == node) (fun p => { p with failedSays := insertNew src p.failedSays }) s.ras.probes } }

/-- Answer who asked for a probe, which may be this part itself. -/
def State.answerProbe (s : State) (h : WriteHdr) (node : Nat) (alive : Bool) : State :=
  if locNode h.src = s.node then s.probeSays s.node node alive else s.write 0 h.src (.probeAns node alive)

/-- PROBE: the suspect itself answers that it is alive; a neighbour whose ports toward the node are all FAILED answers at once that it cannot (R543). -/
def execProbe (h : WriteHdr) (node : Nat) (s : State) : Outcome State Fault Refusal :=
  .next (s.whenServing fun s => s.recvWrite h (fun s =>
    if node = s.node then (ST_OK, s.answerProbe h node true)
    else
    let dirs := (List.range 6).filter (fun d => s.neighbour d == node)
    let ports := dirs.flatMap (portsOf s.map)
    if ports.all (fun n => (s.link.ports[n]?).any (·.st == 3)) then (ST_OK, s.answerProbe h node false)
    else (ST_OK, s.write 0 node (.probe node))))

/-- PROBE_ANSWER. -/
def execProbeAnswer (h : WriteHdr) (node : Nat) (alive : Bool) (s : State) : Outcome State Fault Refusal :=
  .next (s.whenServing fun s => s.recvWrite h (fun s => (ST_OK, s.probeSays (locNode h.src) node alive)))

/-- PROBE_TIMEOUT: reason 3 when every neighbour says its ports have failed, else 2 (R543, R560). -/
def execProbeTimeout (node : Nat) (s : State) : Outcome State Fault Refusal :=
  .next (s.whenServing fun s =>
    match s.ras.probes.find? (·.node == node) with
    | none => s
    | some p =>
      if s.reached (p.since.toNat + s.probeTicks) then
        s.declareNode node (if p.asked.all (fun n => p.failedSays.contains n) then 3 else 2)
      else s)

/-- SUSPECT_REPORT_TIMEOUT: the report goes to the live part with the next member index (R543). -/
def execSuspectReportTimeout (node : Nat) (s : State) : Outcome State Fault Refusal :=
  .next (s.whenServing fun s =>
    match s.ras.reports.find? (·.node == node) with
    | none => s
    | some r =>
      if s.reached (r.since.toNat + s.probeTicks) then
        match s.liveMembers.find? (fun m => decide (r.to_ < m)) with
        | none => s
        | some m =>
          let s1 : State := { s with ras := { s.ras with reports := modFirst (·.node == node) (fun r => { r with to_ := m, since := s.time.gtime }) s.ras.reports } }
          if m = s.member then s1.startProbe node r.portsFailed
          else s1.write 0 (s.memberNode m) (.suspect node r.portsFailed)
      else s)

/-! ## Errors that make the part lost -/

/-- EDGE_FAILED (R18). -/
def execEdgeFailed (edge : Nat) (s : State) : Outcome State Fault Refusal :=
  .next (if s.up ∧ edge < 14 then s.declareLost (0x600 + edge) else s)

/-- PARITY_FAILURE: the packet is refused and sent again; a fourth failure of one packet makes the part lost (R535). -/
def execParityFailure (packet : Nat) (s : State) : Outcome State Fault Refusal :=
  .next (s.whenServing fun s =>
    let n := keyGet 0 s.link.parity packet + 1
    let s1 := ((s.count Reg.RAS_PARITY 1).latch Reg.RAS_STATUS 2).log 2 ST_OK (15 * 4096) none 0 packet n
    if 4 ≤ n then s1.declareLost 0x700
    else { s1 with link := { s1.link with parity := keyPut s1.link.parity packet n } })

/-- WATCHDOG_EXPIRED. -/
def execWatchdogExpired (core : Nat) (s : State) : Outcome State Fault Refusal :=
  .next (if s.up ∧ core < 2 then s.declareLost 0x730 else s)

/-! ## SRAM words (R533, R534) -/

/-- A single-bit SRAM error is corrected and counted. -/
def State.sramCorrected (s : State) : State := (s.count Reg.RAS_SRAM_CE 1).latch Reg.RAS_STATUS 10

/-- An uncorrectable SRAM word is counted, logged with its store and location, and SRAM_UE is set. -/
def State.sramUncorrectable (s : State) (unit addr : Nat) : State :=
  ((s.count Reg.RAS_SRAM_UE 1).latch Reg.RAS_STATUS 1).log 2 ST_RAS_SRAM_UE unit none 0 addr 0

/-- A read of a store's word by its health: a single-bit error is corrected, a double-bit error is uncorrectable, which the
answer says (R533, R534). -/
def State.sramRead (s : State) (h : GranuleHealth) (unit addr : Nat) : Bool × State :=
  match h with
  | .good => (false, s)
  | .corrected => (false, s.sramCorrected)
  | .uncorrectable => (true, s.sramUncorrectable unit addr)

/-- A die's override directory is read: with an uncorrectable word, the entries come again from the copy on another compute
die, the next one (R533, log entry 85). -/
def State.dirRead (s : State) (die : Nat) (h : GranuleHealth) : State :=
  match s.sramRead h (5 * 4096 + die) 0 with
  | (false, s1) => s1
  | (true, s1) =>
    match s1.dirs[(die + 1) % 8]? with
    | none => s1
    | some c => { s1 with dirs := listMod s1.dirs die (fun d => { d with ovr := c.ovr, sets := c.sets }) }

/-- An uncorrectable scratch word: it stays bad until it is written whole, and a third at a different place within
24 hours fences the cluster for new launches. -/
def State.scratchBadWord (s : State) (cl off : Nat) : State :=
  let s1 := s.sramUncorrectable (4 * 4096 + cl) off
  let w := off / 8
  let bad := (s.ras.scratchBad.filter (fun e => decide (s.now < e.2.2.toNat + day) && !(e.1 == cl && e.2.1 == w))) ++ [(cl, w, s.time.gtime)]
  let n := (bad.filter (fun e => e.1 == cl)).length
  { s1 with ras := { s1.ras with
      scratchBad := bad
      badWords := insertNew (scrKey cl off / 8) s1.ras.badWords
      scratchFenced := if 3 ≤ n then insertNew cl s1.ras.scratchFenced else s1.ras.scratchFenced } }

/-- Whether a byte range of a cluster's scratch holds a bad word. -/
def State.rangeBad (s : State) (cl off len : Nat) : Bool :=
  s.ras.badWords.any (fun w => decide (8 * w < scrKey cl off + len) && decide (scrKey cl off < 8 * w + 8))

end Sys2Proof.Machine
end

