-- ==== Sys2Proof/Machine/QueueBase.lean ====
section
/-! DEFINITION. Admission of queue entries, the end of a command, and the host accesses that a slot makes: what every
queue command shares (R389 to R402, R413, R452). -/
namespace Sys2Proof.Machine

/-! ## Slot configuration (R445) -/

def State.qPasid (s : State) (k : Nat) : Nat := s.regF (Reg.Q_CFG k) 63 44
def State.sqLog2 (s : State) (k : Nat) : Nat := s.regF (Reg.Q_CFG k) 43 39
def State.cqLog2 (s : State) (k : Nat) : Nat := s.regF (Reg.Q_CFG k) 38 34
def State.qPort (s : State) (k : Nat) : Nat := s.regF (Reg.Q_CFG k) 33 33

/-- Whether host virtual addresses may be used over a port: PASID, ATS and PRI are all enabled (R452). -/
def State.xlatOn (s : State) (p : Nat) : Bool := (s.host.ports[p]?).any (fun h => h.pasid && h.ats && h.pri)

/-- Whether a host port is up. -/
def State.portIsUp (s : State) (p : Nat) : Bool := (s.host.ports[p]?).any (·.up)

/-- Size of the HDM area in bytes (R471). -/
def State.hdmSize (s : State) : Nat := 16 * (80 - s.regF Reg.TBL_HEAP 6 0) * 2 ^ 30 - 2 ^ 32

/-! ## Admission (R400, R402, R413) -/

/-- Records in a slot's completion ring that the runtime has not consumed. -/
def QSlot.unconsumed (q : QSlot) : Nat := (q.posted - q.consumed).toNat

/-- Whether the slot may let in its oldest waiting entry: it is ON, or STOPPING in DRAIN mode; no FENCE is open; a
FENCE waits for every earlier record; and the completion ring has room (R391, R402, R413, R434). -/
def State.canAdmit (s : State) (k op : Nat) (q : QSlot) : Bool :=
  (q.st == .on || (q.st == .stopping && !(q.destroy.any (·.abort)))) && q.fence.isNone
    && (op != 3 || q.cmds.isEmpty) && decide (q.cmds.length + q.unconsumed < 2 ^ s.cqLog2 k)

/-- The argument block of an entry (R398). -/
def argsOf (e : Bytes) : Bytes := slice e 24 40

/-- A header whose FLAGS and bytes 8 to 23 are as R398 has them for a command other than LAUNCH and COPY. -/
def hdrZero (e : Bytes) : Bool := rd e 1 1 / 2 == 0 && allZero (slice e 8 16)

/-- Admit the oldest waiting entry of slot k when its OP satisfies `p`: it leaves the queue and becomes a running
command. `f` gets its number and its 64 bytes; a part that has lost itself refuses it (R542). -/
def State.admitIf (s : State) (k : Nat) (p : Nat → Bool) (f : Nat → Bytes → State → State) : State :=
  if !s.barOpen then s
  else
    match s.slots[k]? with
    | none => s
    | some q =>
      match q.waiting with
      | [] => s
      | (n, e) :: rest =>
        if p (rd e 0 1) ∧ s.canAdmit k (rd e 0 1) q then
          let c : Cmd := ⟨n, rd e 4 4, rd e 0 1, e, none, 0, 0, none, [], ⟨[], none⟩⟩
          let s1 := s.modSlot k (fun q => { q with waiting := rest, cmds := q.cmds ++ [c] })
          if s.pwr.lost then s1.endCmd k n ST_RAS_PART_LOST 0 else f n e s1
        else s

/-- The oldest waiting entry has this opcode. -/
def State.admitOp (s : State) (k op : Nat) (f : Nat → Bytes → State → State) : State := s.admitIf k (· == op) f

/-! ## Commands that wait for other parts or for rows -/

/-- Whether a command still has an unacknowledged write, a running load or an open commit. -/
def State.cmdBusy (s : State) (k n : Nat) : Bool :=
  s.link.pend.any (·.cmd == some (k, n)) || s.loads.any (fun l => l.slot == k && l.n == n)
    || s.commits.any (·.own == some (k, n))

/-- A command that waits for nothing more ends with ST_OK (R47). -/
def State.settle (s : State) (k n : Nat) : State := if s.cmdBusy k n then s else s.endCmd k n ST_OK 0

end Sys2Proof.Machine
end

