-- ==== Sys2Proof/Machine/Dir.lean ====
section
/-! DEFINITION. Row formats and storage, the domain directory, and which copy a look-up or a write goes to (R43 to
R46, R60, R77, R78, R148 to R157, R175, R594). -/
namespace Sys2Proof.Machine

/-! ## Rows (R43 to R46) -/

/-- Bytes of a row image. -/
def imageBytes (fmt n : Nat) : Nat := if fmt = 0 then n + 4 else if fmt = 1 then n / 2 + 4 else 2 * n

def Table.imageBytes (t : Table) : Nat := Machine.imageBytes t.fmt t.rowlen

/-- Granules of 32 bytes of a stored row (R45). -/
def Table.granules (t : Table) : Nat := ceilDiv t.imageBytes 32

/-- A row image with its padding, written as zero. -/
def Table.pad (t : Table) (img : Bytes) : Bytes :=
  img.take t.imageBytes ++ List.replicate (32 * t.granules - min img.length t.imageBytes) 0

/-- An FP16 bit pattern is finite; a BF16 pattern is finite. -/
def fp16Finite (h : Nat) : Bool := h / 1024 % 32 != 31
def bf16Finite (h : Nat) : Bool := h / 128 % 256 != 255

/-- A row is finite (R46). -/
def Table.finite (t : Table) (img : Bytes) : Bool :=
  let n := t.rowlen
  if t.fmt = 0 then fp16Finite (rd img n 2) && fp16Finite (rd img (n + 2) 2)
  else if t.fmt = 1 then fp16Finite (rd img (n / 2) 2) && fp16Finite (rd img (n / 2 + 2) 2)
  else (List.range n).all (fun i => if t.fmt = 2 then fp16Finite (rd img (2 * i) 2) else bf16Finite (rd img (2 * i) 2))

/-! ## Hints (R183) -/

def Table.stripeLog2 (t : Table) : Nat := t.hints % 32
def Table.replicate (t : Table) : Nat := t.hints / 32 % 8
def Table.noMove (t : Table) : Bool := t.hints.testBit 8

/-- Most replicas that the REPLICATE hint allows. -/
def Table.maxReplicas (t : Table) : Nat :=
  if t.replicate = 0 then 64 else if t.replicate = 1 then 0 else 2 ^ (t.replicate - 1)

/-- HINTS is refused (R183). -/
def badHints (h : Nat) : Bool := decide (16 < h % 32) || decide (512 ≤ h)

def Table.stripe (t : Table) (row : Nat) : Nat := row / 2 ^ t.stripeLog2

/-- The LIVE version. -/
def Table.live (t : Table) : Option Version := t.versions.find? (·.st == .live)

/-- The version slot a row is placed under: that of the LIVE version, or of the first. -/
def Table.vslot (t : Table) : Nat := ((t.live.or t.versions.head?).map (·.slot)).getD 0

/-! ## Stored rows -/

/-- The stored image of a row on a die; a row that nothing has written holds zeros (R60). -/
def State.rowAt (s : State) (die h v row : Nat) : Bytes :=
  match s.heap.find? (fun r => r.die == die && r.handle == h && r.ver == v && r.row == row) with
  | some r => r.image
  | none =>
    match s.table? h with
    | some t => List.replicate (32 * t.granules) 0
    | none => []

/-- The stored copy of a row on a die. -/
def State.copyAt? (s : State) (die h v row : Nat) : Option RowCopy :=
  s.heap.find? (fun r => r.die == die && r.handle == h && r.ver == v && r.row == row)

/-- Write a row whole on a die; `alone` says that the copy is of a row that moves alone or of a replica (R594). -/
def State.putRow (s : State) (die h v row : Nat) (img : Bytes) (alone : Bool) : State :=
  let i := match s.table? h with
    | some t => t.pad img
    | none => img
  { s with heap := ⟨die, h, v, row, i, alone⟩ :: s.heap.filter (fun r => !(r.die == die && r.handle == h && r.ver == v && r.row == row)) }

/-- Drop the rows of a die that satisfy p. -/
def State.dropRows (s : State) (p : RowCopy → Bool) : State := { s with heap := s.heap.filter (fun r => !p r) }

/-! ## Buckets (R148 to R150) -/

/-- The bucket of a stripe. -/
def bucketOf (log2 h stripe : Nat) : Nat := crc32c (natLE 8 (stripe * 65536 + h)) % 2 ^ log2

/-- The homes a bucket starts with. -/
def Dom.start (d : Dom) (side b : Nat) : BEntry :=
  let m := d.memberList
  let p := m.length
  let j := b % (8 * p) / 8
  let at_ (j c : Nat) : Option Nat := (m[j]?).map (fun i => i + 256 * side + 4096 * c)
  ⟨false, false, .resident, none, at_ ((j + p / 2) % p) ((b + 4) % 8), at_ j (b % 8)⟩

/-- A die's directory copy. -/
def State.dir (s : State) (die : Nat) : Dir := s.dirs.getD die .init

/-- The bucket-map entry of a directory copy. -/
def State.bentry (s : State) (die slot b : Nat) : BEntry :=
  match (s.dir die).buckets.lookup (slot, b) with
  | some e => e
  | none => ((s.doms[slot]?).getD .init).start s.side b

/-- The valid homes, home A first. -/
def BEntry.homes (e : BEntry) : List Nat := e.homeA.toList ++ e.homeB.toList

/-! ## Override entries (R154 to R156)

A row may have one REPLICA entry beside one MOVED or HELD entry: each of the two is a way of its set (log entry 20). -/

/-- The set of an override entry (R154). -/
def ovrSet (h row : Nat) : Nat := crc32c (natLE 8 (row * 65536 + h)) % 81920

/-- The stack of a die that holds the storage of a row with a MOVED entry, or of a replica (R594). -/
def aloneStack (die h row : Nat) : Nat := 2 * die + crc32c (natLE 8 (row * 65536 + h)) % 2

/-- The REPLICA entry of a row. -/
def Dir.repl (d : Dir) (h row : Nat) : Option Ovr := d.ovr.find? (fun o => o.handle == h && o.row == row && o.kind == .replica)

/-- The MOVED or HELD entry of a row. -/
def Dir.place (d : Dir) (h row : Nat) : Option Ovr := d.ovr.find? (fun o => o.handle == h && o.row == row && o.kind != .replica)

/-- An entry is in force for a version slot: it covers the slot, and a MOVED entry has flipped (R154, R170). -/
def Ovr.covers (o : Ovr) (vslot : Nat) : Bool :=
  o.vmask.testBit vslot && !(o.kind == .moved && (o.st == .copying || o.st == .inTransit))

/-- The MOVED entry of a row in force for a version slot. -/
def Dir.moved (d : Dir) (h row vslot : Nat) : Option Ovr := (d.place h row).filter (fun o => o.kind == .moved && o.covers vslot)

/-- The locations of a replica set (R155). -/
def Dir.setLocs (d : Dir) (n : Nat) : List Nat := (d.sets.lookup n).getD []

/-- The locations of the replica set of a row, whatever versions its entry covers. -/
def Dir.replLocs (d : Dir) (h row : Nat) : List Nat := ((d.repl h row).map (fun o => d.setLocs o.loc)).getD []

/-- The replicas of a row for a version slot. -/
def Dir.replicas (d : Dir) (h row vslot : Nat) : List Nat :=
  (((d.repl h row).filter (·.covers vslot)).map (fun o => d.setLocs o.loc)).getD []

/-- The replica set that names the same locations, in any order. -/
def Dir.sameSet (d : Dir) (locs : List Nat) : Option Nat :=
  (d.sets.find? (fun e => e.2.all locs.contains && locs.all e.2.contains)).map (·.1)

/-- The replica set for some locations: one that names them already, or the least number that no set has (R155, R161). -/
def Dir.setFor (d : Dir) (locs : List Nat) : Option Nat :=
  (d.sameSet locs).or ((List.range 1024).find? (fun n => !d.sets.any (·.1 == n)))

/-- Replica sets that no entry names are free again. -/
def Dir.prune (d : Dir) : Dir :=
  { d with sets := d.sets.filter (fun e => d.ovr.any (fun o => o.kind == .replica && o.loc == e.1)) }

/-- Whether an entry is the one that another would replace: the REPLICA entry of its row, or the other one. -/
def Ovr.samePlace (o x : Ovr) : Bool := o.handle == x.handle && o.row == x.row && (o.kind == .replica) == (x.kind == .replica)

/-- Set an override entry. A set with no free way takes no further entry (R156). -/
def Dir.setOvr (d : Dir) (o : Ovr) : Dir :=
  let rest := d.ovr.filter (fun x => !o.samePlace x)
  if (rest.filter (fun x => ovrSet x.handle x.row == ovrSet o.handle o.row)).length < 4 then
    ({ d with ovr := rest ++ [o] } : Dir).prune
  else d

/-- Set the REPLICA entry of a row with its locations, in a replica set that is shared where one names them. -/
def Dir.setRepl (d : Dir) (h row vmask : Nat) (locs : List Nat) (pin : Bool) : Dir :=
  match d.setFor locs with
  | none => d
  | some n => ({ d with sets := if (d.sameSet locs).isSome then d.sets else keyPut d.sets n locs } : Dir).setOvr ⟨h, row, .replica, .resident, pin, false, vmask, n, 0⟩

/-- Clear the entries of a row that satisfy p. -/
def Dir.clear (d : Dir) (h row : Nat) (p : Ovr → Bool) : Dir :=
  ({ d with ovr := d.ovr.filter (fun o => !(o.handle == h && o.row == row && p o)) } : Dir).prune

/-- Where a row of a table lies: its domain slot, its bucket. -/
def State.rowBucket (s : State) (t : Table) (row : Nat) : Option (Nat × Nat) :=
  (s.tableDom t).map (fun e => (e.1, bucketOf e.2.log2 t.handle (t.stripe row)))

/-- The bucket homes of a row in a directory copy, A and B, without one that still awaits its copy of the row (log entry 20). -/
def State.bucketHomes (s : State) (die : Nat) (t : Table) (row slot b : Nat) : Option Nat × Option Nat :=
  let e := s.bentry die slot b
  let bare (isB : Bool) : Bool := !t.reloadable && (s.dir die).refill.contains (t.handle, row, isB)
  (if bare false then none else e.homeA, if bare true then none else e.homeB)

/-- The copies of a row in a directory copy, in the order of R157: home A, home B, a MOVED location, the replicas. -/
def State.copies (s : State) (die : Nat) (t : Table) (vslot row : Nat) : List Nat :=
  match s.rowBucket t row with
  | none => []
  | some (slot, b) =>
    let e := s.bucketHomes die t row slot b
    let all := e.1.toList ++ e.2.toList
    let homes := if t.reloadable then all.take 1 else all
    let moved := match (s.dir die).moved t.handle row vslot with
      | none => homes
      | some o =>
        if t.reloadable then [o.loc]
        else homes.filter (fun l => !(some l == (if o.which then e.2 else e.1))) ++ [o.loc]
    moved ++ (s.dir die).replicas t.handle row vslot

/-- Whether a copy is of a rank with a requester: 0 same die, 1 same part, 2 same z, 3 any. -/
def ranked (requester rank loc : Nat) : Bool :=
  match rank with
  | 0 => loc == requester
  | 1 => locNode loc == locNode requester
  | 2 => locNode loc / 16 == locNode requester / 16
  | _ => true

/-- The copy that a look-up of a row reads; `none` when there is no copy (R157, R597). -/
def State.resolve (s : State) (die : Nat) (t : Table) (vslot row : Nat) : Option Nat :=
  let requester := s.loc die
  let copies := s.copies die t vslot row
  match (List.range 4).find? (fun r => copies.any (ranked requester r)) with
  | none => none
  | some r =>
    let near := copies.filter (ranked requester r)
    near[crc32c (natLE 8 (t.stripe row * 65536 + requester)) % near.length]?

/-- The homes of a row, without replicas: home A's place first (R164, R215). -/
def State.rowHomes (s : State) (die : Nat) (t : Table) (vslot row : Nat) : Option Nat × Option Nat :=
  match s.rowBucket t row with
  | none => (none, none)
  | some (slot, b) =>
    let e := s.bucketHomes die t row slot b
    let b' := if t.reloadable ∧ e.1.isSome then none else e.2
    match (s.dir die).moved t.handle row vslot with
    | some o => if t.reloadable then (some o.loc, none) else if o.which then (e.1, some o.loc) else (some o.loc, b')
    | none => (e.1, b')

/-- The homes of a row as a list. -/
def State.homesOf (s : State) (die : Nat) (t : Table) (vslot row : Nat) : List Nat :=
  (s.rowHomes die t vslot row).1.toList ++ (s.rowHomes die t vslot row).2.toList

/-- The apply point of a row: home A's place, or home B's when home A is not valid (R164, R215). -/
def State.applyPoint (s : State) (die : Nat) (t : Table) (vslot row : Nat) : Option Nat :=
  (s.rowHomes die t vslot row).1.or (s.rowHomes die t vslot row).2

/-! ## Heap space (R39, R42, R151) -/

/-- Bytes of home storage of one version of a table on this part: its share of the bucket homes, less the rows whose
home a MOVED entry that the version has replaced, plus the rows that such an entry puts here (R42, R594). -/
def State.homeBytes (s : State) (t : Table) (has : Ovr → Bool) : Nat :=
  let per := 2 ^ t.stripeLog2
  let here (l : Option Nat) : Nat := b2n (l.any (fun x => locNode x == s.node))
  match s.tableDom t with
  | none => 0
  | some (slot, d) =>
    let rows := (List.range (ceilDiv t.rows per)).foldl (fun acc st =>
      let e := s.bentry 0 slot (bucketOf d.log2 t.handle st)
      let homes := (if t.reloadable then e.homes.take 1 else e.homes).filter (fun l => locNode l == s.node)
      acc + homes.length * min per (t.rows - st * per)) 0
    let moved := (s.dir 0).ovr.filter (fun o => o.handle == t.handle && o.kind == .moved && has o && o.row < t.rows
      && !(o.st == .copying || o.st == .inTransit))
    let gone (o : Ovr) : Option Nat :=
      let e := s.bentry 0 slot (bucketOf d.log2 t.handle (t.stripe o.row))
      if t.reloadable then e.homes.head? else if o.which then e.homeB else e.homeA
    (rows + (moved.map (fun o => here (some o.loc))).sum - (moved.map (fun o => here (gone o))).sum) * 32 * t.granules

/-- Bytes of home storage that a version holds, and that a new version would hold, on this part. -/
def State.versionBytes (s : State) (t : Table) (v : Version) : Nat := s.homeBytes t (·.vmask.testBit v.slot)
def State.newBytes (s : State) (t : Table) : Nat := s.homeBytes t (fun _ => true)

/-- Bytes of home storage of the versions that satisfy p, over all tables. -/
def State.heldBytes (s : State) (p : Version → Bool) : Nat :=
  (s.tables.map (fun t => ((t.versions.filter p).map (s.versionBytes t)).sum)).sum

/-- Whether a unit of migration holds a row. -/
def State.unitHolds (s : State) (u : MigUnit) (t : Table) (row : Nat) : Bool :=
  match u with
  | .row h r => t.handle == h && r == row
  | .bucket d b => t.domain == d && ((s.rowBucket t row).map (·.2)) == some b

/-- Bytes of the versions of the rows of a unit, at one home; `reload` says that RELOADABLE rows are at it too. -/
def State.unitBytes (s : State) (u : MigUnit) (reload : Bool) : Nat :=
  s.tables.foldl (fun a t =>
    if t.reloadable ∧ !reload then a
    else
      let n := match u with
        | .row h r => if t.handle = h ∧ r < t.rows then 1 else 0
        | .bucket d _ => if t.domain = d then ((List.range t.rows).filter (s.unitHolds u t)).length else 0
      a + n * t.versions.length * 32 * t.granules) 0

/-- The heap of the part, in bytes (R39). -/
def State.heapSize (s : State) : Nat := s.regF Reg.TBL_HEAP 6 0 * 16 * 2 ^ 30

/-- CD0's copy of the directory puts the home of a migrating unit at its new place. -/
def State.migCounted (s : State) (m : Mig) : Bool :=
  match m.unit with
  | .bucket n b => (s.domOf n).any (fun e =>
      let x := s.bentry 0 e.1 b
      (if m.which then x.homeB else x.homeA) == some m.to_)
  | .row h row => ((s.dir 0).place h row).any (fun o => o.kind == .moved && o.loc == m.to_ && !(o.st == .copying || o.st == .inTransit))

/-- Whether a running migration holds space on this part beside what its directory says: at the new home until CD0's copy has the
flip, and at the old home from then until the drain ends (R151). -/
def State.migHolds (s : State) (m : Mig) : Bool :=
  (m.st != .draining || m.change.isSome) &&
    ((locNode m.to_ == s.node && !s.migCounted m)
      || (locNode m.from_ == s.node && m.st == .draining && !m.remirror && s.migCounted m))

/-- Bytes of heap free for home storage: the replica reserve, the storage held and the space of running migrations are
taken off (R151). -/
def State.heapFree (s : State) : Nat :=
  let moving := ((s.migs.filter s.migHolds).map (fun m => s.unitBytes m.unit (!m.which))).sum
  s.heapSize - s.regF Reg.PLC_CTL 7 0 * 2 ^ 30 - s.heldBytes (fun _ => true) - moving

/-! ## Lost rows (R78, R175) -/

/-- Whether a lost bitmap marks a row. -/
def LostSet.marks (l : LostSet) (h v row : Nat) (where_ : Option (Nat × Nat)) : Bool :=
  l.handle == h && l.ver == v &&
    match l.only with
    | some r => r == row
    | none => where_ == some (l.slot, l.bucket) && !l.kept.contains row

/-- Whether a row of a version is lost. -/
def State.rowLost (s : State) (t : Table) (v row : Nat) : Bool :=
  s.lostRows.any (·.marks t.handle v row (s.rowBucket t row))

/-- The rows of a table in a bucket. -/
def State.bucketRows (s : State) (t : Table) (slot b : Nat) : List Nat :=
  (List.range t.rows).filter (fun r => s.rowBucket t r == some (slot, b))

/-- A bitmap marks no row any more. -/
def State.lostZero (s : State) (l : LostSet) : Bool :=
  l.only.isNone && (s.table? l.handle).all (fun t => (s.bucketRows t l.slot l.bucket).all l.kept.contains)

/-- Bitmaps that are zero go, and RELOST of a bucket clears when every bitmap of it is zero or its version is freed
(R175). -/
def State.settleRelost (s : State) : State :=
  let left := s.lostRows.filter (fun l => !s.lostZero l)
  let busy (slot b : Nat) : Bool := left.any (fun l => l.slot == slot && l.bucket == b && l.only.isNone)
  { s with
    lostRows := left
    dirs := s.dirs.map (fun d => { d with buckets := d.buckets.map (fun e =>
      if e.2.relost ∧ !busy e.1.1 e.1.2 then (e.1, { e.2 with relost := false }) else e) }) }

/-- A row stops being lost: its bit in the bucket's bitmap clears, a single mark goes (R79, R175). -/
def State.clearLost (s : State) (t : Table) (v row : Nat) : State :=
  if !s.rowLost t v row then s
  else
    let w := s.rowBucket t row
    let l := s.lostRows.filter (fun l => !(l.handle == t.handle && l.ver == v && l.only == some row))
    ({ s with lostRows := l.map (fun l => if l.marks t.handle v row w then { l with kept := row :: l.kept } else l) }
      : State).settleRelost

/-- One row of a version becomes lost, as every part of the domain learns (R78, R476). -/
def State.loseRow (s : State) (h v row : Nat) : State :=
  match s.table? h with
  | none => s
  | some t =>
    match s.rowBucket t row with
    | none => s
    | some (slot, b) =>
      if s.rowLost t v row ∨ (t.ver? v).isNone then s
      else ({ s with lostRows := s.lostRows ++ [⟨slot, b, h, v, [], some row⟩] } : State).latch Reg.TBL_STATUS 1

/-! ## Tables with one home (R77, R85) -/

/-- Whether a bucket of a slot lacks a home in a directory copy. -/
def Dir.short (d : Dir) (slot : Nat) : Bool :=
  d.buckets.any (fun e => e.1.1 == slot && (e.2.homeA.isNone || e.2.homeB.isNone))

/-- Some row of a MIRRORED table has fewer than two homes. -/
def State.degraded (s : State) (t : Table) : Bool :=
  !t.reloadable && (s.tableDom t).any (fun e => (s.dir 0).short e.1 || (s.dir 0).refill.any (·.1 == t.handle)) &&
    (List.range t.rows).any (fun r => (s.homesOf 0 t t.vslot r).length < 2)

end Sys2Proof.Machine
end

