-- ==== Sys2Proof/Machine/Tables.lean ====
section
/-! DEFINITION. Embedding tables: the table commands, loads, commits, the freeing of versions (R39 to R91, R595,
R596). -/
namespace Sys2Proof.Machine

/-! ## Versions (R52, R54) -/

/-- A version slot that no version of the table holds (R122). -/
def Table.freeSlot (t : Table) : Nat := ((List.range 4).find? (fun i => !t.versions.any (·.slot == i))).getD 0

/-- The BUILDING or COMMITTING version. -/
def Table.build (t : Table) : Option Version := t.versions.find? (fun v => v.st == .building || v.st == .committing)

/-- A table that exists and is not draining (R54, R70). -/
def State.openTable (s : State) (h : Nat) : Option Table := (s.table? h).filter (fun t => !t.draining)

/-- A version is created in BUILDING: with the fallback row of the LIVE version, and in VMASK of the rows that have an
entry or whose replicas are being created (R61, R165). -/
def State.newVersion (s : State) (h v : Nat) : State :=
  match s.table? h with
  | none => s
  | some t =>
    if t.versions.any (·.num == v) then s
    else
      let slot := t.freeSlot
      let fb := ((t.live).map (·.fallback)).getD (List.replicate t.imageBytes 0)
      let s1 := s.modTable h (fun t => { t with versions := t.versions ++ [⟨v, slot, .building, fb, [], 0, [], false⟩] })
      let upd (o : Ovr) : Ovr := if o.handle = h then { o with vmask := o.vmask ||| 2 ^ slot } else o
      { s1 with
        dirs := s1.dirs.map (fun d => { d with ovr := d.ovr.map upd })
        reps := s1.reps.map (fun r => if r.handle = h then { r with vmask := r.vmask ||| 2 ^ slot } else r) }

/-- Set the state of a version. -/
def State.setVState (s : State) (h v : Nat) (st : VState) : State := s.modVer h v (fun w => { w with st := st })

/-- Clear a version slot from the override entries of a handle; an entry that covers no version goes unless a pin set it
(R165, R184). -/
def Dir.dropVSlot (d : Dir) (h slot : Nat) : Dir :=
  let l := d.ovr.map (fun o => if o.handle = h ∧ o.vmask.testBit slot then { o with vmask := o.vmask - 2 ^ slot } else o)
  ({ d with ovr := l.filter (fun o => !(o.handle == h && o.vmask == 0 && !o.pin && !(o.kind == .held))) } : Dir).prune

/-- A table whose last version has gone after TBL_DROP no longer exists (R70); its override entries go. -/
def State.reapTable (s : State) (h : Nat) : State :=
  match s.table? h with
  | none => s
  | some t =>
    if t.draining ∧ t.versions.isEmpty then
      { s with
        tables := s.tables.filter (fun x => !(x.handle == h))
        dirs := s.dirs.map (fun d => ({ d with ovr := d.ovr.filter (fun o => !(o.handle == h)) } : Dir).prune)
        reps := s.reps.filter (fun r => !(r.handle == h))
        replicas := s.replicas.filter (fun r => !(r.1 == h)) }
    else s

/-- Free a version on this part: its rows, its lost bitmaps, its Wings copies while a cache is ON, its bit in the
directory (R54, R125, R126, R165). -/
def State.freeVersion (s : State) (h v : Nat) : State :=
  match (s.table? h).bind (·.ver? v) with
  | none => s
  | some w =>
    let s1 := s.modTable h (fun t => { t with versions := t.versions.filter (fun x => !(x.num == v)) })
    let s2 := s1.dropRows (fun r => r.handle == h && r.ver == v)
    let s3 : State := { s2 with
      lostRows := s2.lostRows.filter (fun l => !(l.handle == h && l.ver == v))
      dirs := s2.dirs.map (·.dropVSlot h w.slot)
      reps := s2.reps.map (fun r => if r.handle = h ∧ r.vmask.testBit w.slot then { r with vmask := r.vmask - 2 ^ w.slot } else r)
      gpes := s2.gpes.map (fun g =>
        if g.wings.st = .on then
          { g with wings := { g.wings with rows := g.wings.rows.filter (fun r => !(r.handle == h && r.slot == w.slot)) } }
        else g) }
    s3.settleRelost.reapTable h

/-! ## TBL_HEAP (R39, R40, R472) -/

/-- TBL_HEAP_WRITE: dropped with HEAP_ERR while a table exists or an HDM decoder is committed; above 75 is 75. -/
def execTblHeapWrite (v : BitVec 32) (s : State) : Outcome State Fault Refusal :=
  .next (s.whenOpen fun s =>
    if !s.tables.isEmpty ∨ s.host.ports.any (·.hdm.isSome) then s.latch Reg.TBL_STATUS 0
    else s.setRegN Reg.TBL_HEAP (min 75 (fld v.toNat 6 0)))

/-! ## TBL_CREATE (R49, R50) -/

/-- The table that an argument block describes. -/
def tableOf (made : Nat) (a : Bytes) : Table :=
  ⟨rd a 0 2, rd a 2 1, rd a 3 1 == 1, rd a 4 2, rd a 6 2, rd a 8 8 % 2 ^ 41, rd a 16 4, false, made, []⟩

/-- FORMAT, DURABILITY, ROWLEN and ROWS are in range (R43, R49). -/
def formatOk (a : Bytes) : Bool :=
  decide (rd a 2 1 ≤ 3) && decide (rd a 3 1 ≤ 1) && decide (8 ≤ rd a 4 2) && decide (rd a 4 2 ≤ 1024)
    && rd a 4 2 % 8 == 0 && decide (1 ≤ rd a 8 8 % 2 ^ 41) && decide (rd a 8 8 % 2 ^ 41 ≤ 2 ^ 40)

/-- MISMATCH of the slot of a domain (R144). -/
def State.setMismatch (s : State) (number : Nat) (on : Bool) : State :=
  match s.domOf number with
  | some (i, _) => s.modDom i (fun d => { d with mismatch := on })
  | none => s

/-- Create a table; the digests were equal, so MISMATCH of its domain's slot clears (R144). -/
def State.createTable (s : State) (made : Nat) (a : Bytes) : State :=
  ({ s with tables := s.tables ++ [tableOf made a] } : State).setMismatch (rd a 6 2) false

/-- A creation that failed on some part is undone on this one (R47). -/
def State.uncreate (s : State) (h made : Nat) : State :=
  { s with tables := s.tables.filter (fun t => !(t.handle == h && t.made == made)) }

/-- What the members answer when a table is created: digest, and whether the handle is busy there (R50, R144). -/
abbrev Answers := List (Nat × Option (BitVec 32 × Bool))

/-- How the leader's comparison of digests goes: every live member answers, and all digests are equal (R144). -/
def State.digestStatus (s : State) (d : Dom) (answers : Answers) : Nat :=
  let own := Config.domainDigest d.number d.log2 d.members.toNat
  let asked := d.live.filter (· != s.member)
  if asked.any (fun m => ((answers.lookup m).getD none).isNone) then ST_LNK_TIMEOUT
  else if asked.any (fun m => ((answers.lookup m).getD none).map (·.1) != some own) then ST_PLC_DOMAIN_MISMATCH
  else ST_OK

/-- The handle names a table here, or on a live member of the domain that answers (R50). -/
def State.handleBusy (s : State) (h number : Nat) (answers : Answers) : Bool :=
  (s.table? h).isSome || (s.domOf number).any (fun e => e.2.live.any (fun m =>
    m != s.member && ((answers.lookup m).getD none).any (·.2)))

/-- The checks of R50 in order. -/
def State.createStatus (s : State) (e : Bytes) (answers : Answers) : Nat :=
  let a := argsOf e
  if !hdrZero e ∨ !allZero (slice a 20 20) ∨ 2 ^ 41 ≤ rd a 8 8 then ST_TBL_BAD_ARG
  else if !formatOk a then ST_TBL_BAD_FORMAT
  else if badHints (rd a 16 4) then ST_PLC_BAD_HINT
  else if s.handleBusy (rd a 0 2) (rd a 6 2) answers then ST_TBL_HANDLE_BUSY
  else
    match s.domOf (rd a 6 2) with
    | none => ST_PLC_NO_DOMAIN
    | some (_, d) =>
      if !d.members.getLsbD s.member then ST_PLC_NO_DOMAIN
      else if s.digestStatus d answers ≠ ST_OK then s.digestStatus d answers
      else if rd a 3 1 = 0 ∧ d.memberList.length < 2 then ST_TBL_DOMAIN_SMALL
      else ST_OK

/-! ## Loads that run, and commands that end -/

/-- The load of a command. -/
def State.load? (s : State) (k n : Nat) : Option Load := s.loads.find? (fun l => l.slot == k && l.n == n)

def State.modLoad (s : State) (k n : Nat) (f : Load → Load) : State :=
  { s with loads := modFirst (fun l => l.slot == k && l.n == n) f s.loads }

def State.commit? (s : State) (cid : Nat) : Option Commit := s.commits.find? (·.cid == cid)

def State.modCommit (s : State) (cid : Nat) (f : Commit → Commit) : State :=
  { s with commits := modFirst (·.cid == cid) f s.commits }

/-- The node that issued a commit. -/
def commitNode (cid : Nat) : Nat := cid / 2 ^ 32 % 4096

/-- The domain of a commit. -/
def State.commitDom (s : State) (c : Commit) : Option Dom := (s.domOf c.dom).map (·.2)

/-- Once this part has switched, or lost, every version of a commit, a part that did not issue it reports its switch and forgets
the commit (R65). -/
def State.commitSwitched (s : State) (cid : Nat) : State :=
  match s.commit? cid with
  | none => s
  | some c =>
    if !c.waiting.isEmpty ∨ c.own.isSome then s
    else
      let s1 : State := { s with commits := s.commits.filter (fun x => !(x.cid == cid)) }
      match c.here with
      | some sw => s1.write 0 (commitNode cid) (.work (.switched cid s.node sw.instant sw.late))
      | none => s1

/-- A version is freed after a TBL_DROP, or after a load that could not create it: a commit that waits for it is cancelled
for it (R66). -/
def State.killVersion (s : State) (h v : Nat) : State :=
  let hit := (s.commits.filter (fun c => c.waiting.contains (h, v))).map (·.cid)
  (hit.foldl (fun s cid => (s.modCommit cid (fun c =>
    { c with cancelled := true, waiting := c.waiting.filter (fun x => !(x == (h, v))) })).commitSwitched cid) s).freeVersion h v

/-- Let a part switch: a commit whose instant has passed by then switches late (R64, R65). -/
def State.commitGo (s : State) (cid : Nat) : State :=
  s.modCommit cid (fun c => if c.go then c else { c with go := true, late := c.late || decide (c.instant.toNat < s.now) })

/-- The issuing part lets every part switch once the loads accepted before have finished on every live one (R64). -/
def State.commitReady (s : State) (cid : Nat) : State :=
  match s.commit? cid with
  | none => s
  | some c =>
    match c.own, s.commitDom c with
    | some _, some d =>
      if c.go ∨ !(s.node :: s.others d).all c.ready.contains then s
      else ((s.workAll d (.commitGo cid) none).2).commitGo cid
    | _, _ => s

/-- The loads of this part that a commit waits for have finished: the issuing part knows (R64). -/
def State.commitLoads (s : State) (cid : Nat) : State :=
  match s.commit? cid with
  | none => s
  | some c =>
    if c.ready.contains s.node ∨ s.loads.any (fun l => c.loads.contains (l.slot, l.n)) then s
    else
      let s1 := s.modCommit cid (fun c => { c with ready := s.node :: c.ready })
      match c.own with
      | some _ => s1.commitReady cid
      | none => s1.write 0 (commitNode cid) (.work (.loadsDone cid s.node))

/-- Rows of a version that this part has sent and that are not acknowledged, by the names of their writes. -/
def State.rowsOut (s : State) (h v : Nat) : List (Nat × Nat) :=
  (s.link.pend.filter (fun e => match e.p.body with
    | .rows .load x w _ => x == h && w == v
    | .rows .repair x w _ => x == h && w == v
    | _ => false)).map (fun e => (e.p.dst, e.p.tag))

/-- A load that has ended is gone once its rows are acknowledged; commits that waited for it go on (R64). -/
def State.finishLoad (s : State) (k n : Nat) : State :=
  match s.load? k n with
  | none => s
  | some l =>
    if !l.ended ∨ s.link.pend.any (·.cmd == some (k, n)) then s
    else
      let s1 : State := { s with loads := s.loads.filter (fun l => !(l.slot == k && l.n == n)) }
      (s1.commits.map (·.cid)).foldl State.commitLoads s1

/-- The storage of dropped versions is released on this part: version 0 drops the table, whose LIVE version becomes
RETIRING (R54, R70, R595). -/
def State.dropFree (s : State) (h v : Nat) : State :=
  match s.table? h with
  | none => s
  | some t =>
    let s1 := (t.versions.filter (fun w => w.dropped && (v == 0 || w.num == v))).foldl (fun s w => s.killVersion h w.num) s
    if v ≠ 0 then s1
    else
      let s2 := match t.live with
        | some w => (s1.setVState h w.num .retiring).reportZero h w.num
        | none => s1
      s2.reapTable h

/-- The running TBL_DROP of an entry whose storage is still to be released: handle and version. -/
def State.dropOf (s : State) (k n : Nat) : Option (Nat × Nat) :=
  ((s.cmd? k n).filter (fun c => c.op == 0x13 && c.status.isNone)).bind (fun c =>
    let h := rd (argsOf c.entry) 0 2
    let v := rd (argsOf c.entry) 2 2
    ((s.table? h).filter (fun t => if v = 0 then t.draining && (t.versions.isEmpty || t.versions.any (·.st != .retiring))
      else t.versions.any (fun w => w.num == v && w.dropped))).map (fun _ => (h, v)))

/-- A drop has every part release the storage, once every part has stopped its loads and the rows in flight are
acknowledged (R595). -/
def State.settleDrop (s : State) (k n h v : Nat) : State :=
  let dropped := ((s.table? h).map (fun t => t.versions.filter (fun w => w.dropped && (v == 0 || w.num == v)))).getD []
  if s.cmdBusy k n ∨ dropped.any (fun w => !(s.rowsOut h w.num).isEmpty) then s
  else
    match (s.table? h).bind s.tableDom with
    | some (_, d) => (((s.workAll d (.dropFree h v) (some (k, n))).2).dropFree h v).settle k n
    | none => (s.dropFree h v).settle k n

/-- A command that waits for nothing more ends (R47); a drop first has the storage released. -/
def State.settleCmd (s : State) (k n : Nat) : State :=
  let s1 := s.finishLoad k n
  match s1.dropOf k n with
  | none => s1.settle k n
  | some (h, v) => s1.settleDrop k n h v

/-- Every running drop is looked at again: the rows in flight that it waited for may have been acknowledged. -/
def State.settleDrops (s : State) : State :=
  (s.slots.zipIdx.flatMap (fun e => (e.1.cmds.filter (fun c => c.op == 0x13 && c.status.isNone)).map (fun c => (e.2, c.n)))).foldl
    (fun s x => s.settleCmd x.1 x.2) s

/-- A load writes no more rows: with a status its command ends at once; without one it ends when its rows are
acknowledged (R58, R595). -/
def State.endLoad (s : State) (k n : Nat) (status : Option Nat) : State :=
  let s1 : State := { (s.modLoad k n (fun l => { l with ended := true })) with
    net := { s.net with roce := s.net.roce.map (fun r => { r with reads := r.reads.filter (fun x => !(x.2.1 == k && x.2.2.1 == n)) }) } }
  match status with
  | some st => (s1.endCmd k n st 0).finishLoad k n
  | none => s1.settleCmd k n

/-! ## TBL_LOAD (R55 to R61, R79, R596) -/

/-- The load that an argument block describes. -/
def loadOf (slot n : Nat) (a : Bytes) : Load :=
  ⟨slot, n, rd a 0 2, rd a 2 2, rd a 4 1, (rd a 5 1).testBit 0, (rd a 5 1).testBit 1, rd a 8 8, rd a 16 8, rd a 24 8,
    rd a 32 4, rd a 36 4, 0, false, []⟩

/-- The argument checks of R596; STRIDE is held against the table named, if there is one. -/
def State.loadArgBad (s : State) (e : Bytes) (l : Load) : Bool :=
  let a := argsOf e
  !hdrZero e || decide (4 ≤ rd a 5 1) || !allZero (slice a 6 2) || decide (2 ^ 40 ≤ l.first) || decide (2 ^ 41 ≤ l.count)
    || (l.source != 2 && l.conn != 0) || decide (2 < l.source) || l.count == 0 || decide (2 ^ 40 < l.count)
    || ((s.table? l.handle).any (fun t => decide (l.stride < t.imageBytes))) || (l.fallback && l.count != 1)
    || (l.fallback && l.repair)

/-- The version checks of R54 and R79: a status, and whether a version is created. A version that a TBL_DROP has dropped and
whose storage is not released yet takes no load, and no other version is created meanwhile (DESIGN CHOICE, log entry 95). -/
def Table.loadVersion (t : Table) (l : Load) : Nat × Bool :=
  if l.ver = 0 then (ST_TBL_VERSION_EXISTS, false)
  else
    match t.ver? l.ver with
    | some w =>
      match w.st with
      | .building => (if l.repair ∨ w.dropped then ST_TBL_NOT_BUILDING else ST_OK, false)
      | .live => (if l.repair then ST_OK else ST_TBL_LIVE, false)
      | .committing => (ST_TBL_NOT_BUILDING, false)
      | .retiring => (ST_TBL_NOT_BUILDING, false)
    | none =>
      if l.repair ∨ t.build.isSome then (ST_TBL_NOT_BUILDING, false)
      else if 4 ≤ t.versions.length then (ST_TBL_VERSIONS_FULL, false)
      else (ST_OK, true)

/-- Bytes of source that a row image of a load takes, and where row i of it starts. -/
def Load.addrOf (l : Load) (i : Nat) : Nat := l.addr + i * l.stride

/-- The next row of a load with a device source lies at or beyond G (R473). -/
def State.loadPastEnd (s : State) (l : Load) (t : Table) : Bool :=
  l.source == 1 && decide (l.next < l.count) && decide (s.hdmSize < l.addrOf l.next + t.imageBytes)

/-- The status of a load before it reads its source; `allow` says that every other part has heap room for a new
version, or holds only lost rows in the range of a repair. That every row of a repair is lost is checked with R57, the
range first (log entry 76). -/
def State.loadStatus (s : State) (e : Bytes) (l : Load) (allow : Bool) : Nat :=
  if s.loadArgBad e l then ST_TBL_BAD_ARG
  else
    match s.openTable l.handle with
    | none => ST_TBL_NO_TABLE
    | some t =>
      let (st, new) := t.loadVersion l
      if st ≠ ST_OK then st
      else if !l.fallback ∧ t.rows < l.first + l.count then ST_TBL_RANGE
      else if new ∧ !(allow ∧ decide (s.newBytes t ≤ s.heapFree)) then ST_TBL_NO_SPACE
      else if l.repair ∧ !(allow ∧ (List.range l.count).all (fun i => s.rowLost t l.ver (l.first + i))) then ST_TBL_LIVE
      else if l.source = 2 ∧ !((s.net.roce[l.conn]?).any (fun r => r.valid && r.st == 1)) then ST_ROCE_NO_CONN
      else if l.source = 0 ∧ !s.portIsUp (s.qPort l.slot) then ST_HOST_PORT_DOWN
      else if l.source = 0 ∧ !s.xlatOn (s.qPort l.slot) then ST_XLAT_OFF
      else if s.loadPastEnd l t then ST_MEM_RANGE
      else ST_OK

/-- Rows of a connection's outstanding READs that belong to a load. -/
def Roce.rowsOut (r : Roce) (k n : Nat) : Nat :=
  (r.reads.filter (fun x => x.2.1 == k && x.2.2.1 == n)).foldl (fun a x => a + x.2.2.2.2) 0

/-- The local queue pair number of a connection (R514). -/
def localQpn (c : Nat) : Nat := 0x100 + c

/-- Rows that one READ of up to 1 MiB takes: from the start of the first to the end of the last (R514). -/
def readRows (stride image : Nat) : Nat := if stride = 0 then 1 else max 1 ((2 ^ 20 - image) / stride + 1)

/-- Issue READs of up to 1 MiB for a load, up to 16 outstanding on its connection (R514). -/
def State.issueReads (s : State) (l : Load) : Nat → State
  | 0 => s
  | fuel + 1 =>
    match s.net.roce[l.conn]?, s.table? l.handle with
    | some r, some t =>
      let sent := l.next + r.rowsOut l.slot l.n
      let m := min (l.count - sent) (readRows l.stride t.imageBytes)
      if 16 ≤ r.reads.length ∨ m = 0 then s
      else
        let len := (m - 1) * l.stride + t.imageBytes
        let s1 := s.modRoce l.conn (fun r => { r with
          psn := (r.psn + ceilDiv len 4096) % 2 ^ 24
          reads := r.reads ++ [(r.psn, l.slot, l.n, sent, m)]
          since := s.time.gtime })
        State.issueReads (s1.sendPrio r.port r.prio (.roceRead l.conn (localQpn l.conn) r.rqpn r.rkey r.psn (l.addrOf sent) len)) l fuel
    | _, _ => s

/-- Rows of a version have been written: TBL_QROWS counts distinct rows (R60, R87). -/
def State.noteRows (s : State) (h v first count : Nat) : State :=
  s.modVer h v (fun w => { w with written := w.written ++ (List.range count).filterMap (fun i =>
    if w.written.contains (first + i) then none else some (first + i)) })

/-- Rows of a load have arrived at their copies: they are counted, and those that were lost are lost no longer (R79). -/
def State.rowsArrived (s : State) (h v first count : Nat) : State :=
  match s.table? h with
  | none => s
  | some t => ((List.range count).map (first + ·)).foldl (fun s r => if s.rowLost t v r then s.clearLost t v r else s) (s.noteRows h v first count)

/-- Send a row of a load to every copy of it (R59, R165); whether one finds no route (R506). -/
def State.sendRow (s : State) (l : Load) (t : Table) (vslot row : Nat) (img : Bytes) : Bool × State :=
  let kind := if l.repair then RowsKind.repair else .load
  (s.copies 0 t vslot row).foldl (fun acc loc =>
    let (st, s1) := acc.2.sendWrite 0 loc (.rows kind l.handle l.ver [⟨row, img⟩]) (some (l.slot, l.n)) none
    (acc.1 || st == ST_LNK_NO_ROUTE, s1)) (false, s)

/-- The rows of a packet of a load are acknowledged: those of which no other copy is still to be written have arrived, here
and as the other parts know, for which the load waits (R63, R79, R87). -/
def State.rowsAcked (s : State) (cmd : Nat × Nat) (h v : Nat) (rows : List RowImage) : State :=
  let left (row : Nat) : Bool := s.link.pend.any (fun e => e.cmd == some cmd && match e.p.body with
    | .rows _ x w l => x == h && w == v && l.any (·.row == row)
    | _ => false)
  (rows.filter (fun r => !left r.row)).foldl (fun s r =>
    let s1 := s.rowsArrived h v r.row 1
    match (s1.table? h).bind s1.tableDom with
    | some (_, d) => (s1.workAll d (.tblLoaded h v r.row 1) (some cmd)).2
    | none => s1) s

/-- Rows of a load were not written at a part that is lost: those with another home have arrived there. A load with a row that
has none fails with ST_RAS_PART_LOST (DESIGN CHOICE, log entry 95). -/
def State.rowsGone (s : State) (cmd : Nat × Nat) (h v node : Nat) (rows : List RowImage) : State :=
  let slot := (((s.table? h).bind (·.ver? v)).map (·.slot)).getD 0
  let other (row : Nat) : Bool := (s.table? h).any (fun t => (s.homesOf 0 t slot row).any (fun l => locNode l != node))
  let s1 := s.rowsAcked cmd h v (rows.filter (fun r => other r.row))
  if rows.all (fun r => other r.row) then s1.settleCmd cmd.1 cmd.2 else s1.endLoad cmd.1 cmd.2 (some ST_RAS_PART_LOST)

/-- The rows of one piece of source, in order, up to the first that is not finite, that has no home to be written to, or that finds no
route: how many were written, and the status with which the load fails (R58, R506; ST_RAS_PART_LOST is the model's, log entry 95). -/
def State.sendRows (s : State) (l : Load) (t : Table) (vslot row : Nat) : List Bytes → Nat × Option Nat × State
  | [] => (0, none, s)
  | img :: rest =>
    if !t.finite img then (0, some ST_TBL_NONFINITE, s.setRegN Reg.TBL_ERR_ROW (l.handle * 2 ^ 48 + row))
    else if (s.homesOf 0 t vslot row).isEmpty then (0, some ST_RAS_PART_LOST, s)
    else
      match s.sendRow l t vslot row img with
      | (true, s1) => (0, some ST_LNK_NO_ROUTE, s1)
      | (false, s1) =>
        let (m, st, s2) := State.sendRows s1 l t vslot (row + 1) rest
        (m + 1, st, s2)

/-- Take the fallback row of a version (R61). -/
def State.setFallback (s : State) (h v : Nat) (img : Bytes) : State := s.modVer h v (fun w => { w with fallback := img })

/-- A FALLBACK load has failed on some part: every part takes the fallback row of before again (R47). -/
def State.unfallback (s : State) (k n h v : Nat) : State :=
  match s.load? k n, (s.table? h).bind s.tableDom with
  | some l, some (_, d) => ((s.workAll d (.tblFallback h v l.undo) none).2).setFallback h v l.undo
  | _, _ => s

/-- A load may not read yet: some part has not answered the reservation of its version (R57). -/
def State.loadHeld (s : State) (l : Load) : Bool :=
  s.link.pend.any (fun e => match e.p.body with
    | .work (.tblReserve h v) => h == l.handle && v == l.ver
    | _ => false)

/-- Source images of a load arrive in row order: they are written row by row, and the load goes on, ends, or fails with
ST_TBL_NONFINITE (R56 to R61). For a FALLBACK row, whose FIRST is ignored, TBL_ERR_ROW still records FIRST (log entry
76). -/
def State.loadImages (s : State) (k n : Nat) (imgs : List Bytes) : State :=
  match s.load? k n with
  | none => s
  | some l =>
    if l.ended ∨ s.loadHeld l then s
    else
    match s.openTable l.handle with
    | none => s
    | some t =>
      match t.ver? l.ver with
      | none => s
      | some w =>
        let imgs := imgs.take (l.count - l.next)
        if l.fallback then
          match imgs with
          | [] => s
          | img :: _ =>
            if !t.finite img then (s.setRegN Reg.TBL_ERR_ROW (l.handle * 2 ^ 48 + l.first)).endLoad k n (some ST_TBL_NONFINITE)
            else
              let s1 := (s.modLoad k n (fun l => { l with undo := w.fallback })).setFallback l.handle l.ver (img.take t.imageBytes)
              let (sent, s2) := match s1.tableDom t with
                | some (_, d) => s1.workAll d (.tblFallback l.handle l.ver (img.take t.imageBytes)) (some (k, n))
                | none => (ST_OK, s1)
              if sent = ST_OK then s2.endLoad k n none else (s2.unfallback k n l.handle l.ver).endLoad k n (some sent)
        else if l.repair ∧ w.st ≠ .live then s.endLoad k n (some ST_TBL_NOT_BUILDING)
        else
          let (m, st, s1) := s.sendRows l t w.slot (l.first + l.next) imgs
          let s2 := s1.modLoad k n (fun l => { l with next := l.next + m })
          let l' := { l with next := l.next + m }
          if st.isSome then s2.endLoad k n st
          else if l'.next = l'.count then s2.endLoad k n none
          else if s2.loadPastEnd l' t then s2.endLoad k n (some ST_MEM_RANGE)
          else if l'.source = 2 then s2.issueReads l' 16 else s2

/-- Row images one every STRIDE bytes in a piece of source (R56). -/
def imagesIn (img stride : Nat) : Nat → Bytes → List Bytes
  | 0, _ => []
  | fuel + 1, b => if b.length < img then [] else b.take img :: imagesIn img stride fuel (b.drop stride)

/-! ## TBL_COMMIT (R62 to R66) -/

/-- The tables and versions that a commit names. -/
def commitTables (a : Bytes) : List (Nat × Nat) :=
  (List.range (min 7 (rd a 8 1))).map (fun i => (rd a (12 + 4 * i) 2, rd a (14 + 4 * i) 2))

/-- The checks of R63 on the versions that a commit names, which every part of the domain makes (R47): the status of the first
that fails over all of them. A dropped version is not BUILDING (log entry 95). -/
def State.commitCheck (s : State) (l : List (Nat × Nat)) : Nat :=
  let tabs := l.map (fun x => (s.openTable x.1, x.2))
  let ver (x : Option Table × Nat) : Option Version := x.1.bind (·.ver? x.2)
  if tabs.any (·.1.isNone) then ST_TBL_NO_TABLE
  else if tabs.any (fun x => x.1.any (fun t => t.versions.any (·.st == .committing))) then ST_TBL_COMMIT_PENDING
  else if tabs.any (fun x => (ver x).isNone) then ST_TBL_NO_SUCH_VERSION
  else if tabs.any (fun x => !(ver x).any (fun w => w.st == .building && !w.dropped)) then ST_TBL_NOT_BUILDING
  else ST_OK

/-- The first check of R63 that fails over all named tables. -/
def State.commitStatus (s : State) (e : Bytes) : Nat :=
  let a := argsOf e
  let l := commitTables a
  let tabs := l.map (fun x => (s.openTable x.1, x.2))
  let ver (x : Option Table × Nat) : Option Version := x.1.bind (·.ver? x.2)
  let doms := (tabs.filterMap (·.1)).map (·.domain)
  if !hdrZero e ∨ 2 ≤ rd a 9 1 ∨ rd a 10 2 ≠ 0 ∨ rd a 8 1 = 0 ∨ 7 < rd a 8 1 ∨ !allZero (a.drop (12 + 4 * rd a 8 1)) then
    ST_TBL_BAD_ARG
  else if s.commitCheck l ≠ ST_OK then s.commitCheck l
  else if doms.any (fun d => some d != doms.head?) then ST_TBL_DOMAIN_MIX
  else if !((s.domOf (doms.headD 0)).any (fun d => d.2.members.getLsbD s.member)) then ST_PLC_NO_DOMAIN
  else if s.now + 2 ^ 32 < rd a 0 8 then ST_TBL_COMMIT_FAR
  else if rd a 9 1 = 1 ∧ tabs.any (fun x => x.1.any (fun t => (ver x).any (fun w => w.written.length != t.rows))) then
    ST_TBL_INCOMPLETE
  else ST_OK

/-- Versions enter COMMITTING, and the commit waits for its instant and for the loads accepted before it. -/
def State.beginCommit (s : State) (cid : Nat) (own : Option (Nat × Nat)) (at_ : Word) (l : List (Nat × Nat)) (ticket : Bool) : State :=
  let s1 := l.foldl (fun s x => s.setVState x.1 x.2 .committing) s
  let loads := (s.loads.filter (fun x => l.contains (x.handle, x.ver))).map (fun x => (x.slot, x.n))
  { s1 with commits := s1.commits ++ [⟨cid, own, at_, l, l, loads, [], false, false, decide (at_.toNat < s.now), none, [], ticket,
    ((l.head?.bind (fun x => s.table? x.1)).map (·.domain)).getD 0⟩] }

/-- A commit that failed on some part is undone on this one: its versions are BUILDING again (R47). No part has switched,
since none may before every part has answered. -/
def State.uncommit (s : State) (cid : Nat) : State :=
  match s.commit? cid with
  | none => s
  | some c =>
    let s1 := c.waiting.foldl (fun s x => s.setVState x.1 x.2 .building) s
    { s1 with commits := s1.commits.filter (fun x => !(x.cid == cid)) }

/-- Admission switches to a version: the former LIVE version becomes RETIRING (R54). -/
def State.switch (s : State) (h v : Nat) : State :=
  match s.table? h with
  | none => s
  | some t =>
    let s1 := s.modTable h (fun t => { t with versions := t.versions.map (fun w =>
      if w.num = v then { w with st := .live } else if w.st = .live then { w with st := .retiring } else w) })
    match t.live with
    | some w => s1.reportZero h w.num
    | none => s1

/-- COMMIT_INSTANT_REACHED (R64, R65). A version that is being dropped does not switch; it leaves the commit when it is freed, and
switches if the drop fails (R47, R66). -/
def execCommitInstantReached (cid : Nat) (s : State) : Outcome State Fault Refusal :=
  .next (s.whenServing fun s =>
    match s.commit? cid with
    | none => s
    | some c =>
      let now := c.waiting.filter (fun x => !((s.table? x.1).bind (·.ver? x.2)).any (·.dropped))
      if now.isEmpty ∨ !c.go ∨ !s.reached c.instant.toNat then s
      else
        let s1 := now.foldl (fun s x => s.switch x.1 x.2) s
        let s2 := if c.late then s1.latch Reg.TBL_STATUS 3 else s1
        (s2.modCommit cid (fun c => { c with
          here := some ⟨s.node, s.time.gtime, c.late⟩
          waiting := c.waiting.filter (fun x => !now.contains x) })).commitSwitched cid)

/-- The twin is told how a commit that used a ticket ended, and RESULT follows once both reports are here (R230). -/
def Pair.judge (p : Pair) : Pair :=
  match p.own, p.twin with
  | some a, some b =>
    let good := a.tables.all b.tables.contains && b.tables.all a.tables.contains && a.status == ST_OK && b.status == ST_OK
    { p with
      result := if good then 1 else 2
      status := if good then ST_OK else ST_FD_PAIR_MISMATCH
      skew := BitVec.ofInt 32 ((a.finish.toNat : Int) - b.finish.toNat) }
  | _, _ => p

/-- The pair state after a report came or was sent; PAIR_MISMATCH is set when RESULT becomes MISMATCH. -/
def State.setPair (s : State) (p : Pair) : State :=
  let q := p.judge
  let s1 : State := { s with pair := q }
  if q.result = 2 ∧ s.pair.result ≠ 2 then s1.latch Reg.FEED_STATUS 5 else s1

/-- The location of the twin's I/O dies. -/
def State.twinNode (s : State) : Nat := if s.side = 0 then s.node + 256 else s.node - 256

/-- A commit that used a ticket has completed: the twin gets its report, and the part holds its own (R230). -/
def State.reportPair (s : State) (c : Commit) (status : Nat) (fin : Word) : State :=
  if c.usedTicket then
    let rep : PairRep := ⟨c.tables, status, fin⟩
    (s.setPair { s.pair with own := some rep, ownAt := s.time.gtime }).write 0 s.twinNode (.report rep)
  else s

/-- COMMIT_COMPLETE: every live part has switched (R65, R66). -/
def execCommitComplete (cid : Nat) (s : State) : Outcome State Fault Refusal :=
  .next (s.whenServing fun s =>
    match s.commit? cid with
    | none => s
    | some c =>
      match c.own with
      | none => s
      | some (k, n) =>
        let others := ((s.commitDom c).map s.others).getD []
        let freed := c.tables.all (fun x => ((s.table? x.1).bind (·.ver? x.2)).isNone)
        let dropped := c.cancelled && c.waiting.isEmpty && c.here.isNone && freed
        let done := c.here.isSome && c.waiting.isEmpty && others.all (fun m => c.reports.any (·.node == m))
        if !dropped ∧ !done then s
        else
          let all := c.here.toList ++ c.reports
          let fin := all.foldl (fun (m : Word) x => if m.toNat < x.instant.toNat then x.instant else m) 0
          let st := if c.cancelled then ST_TBL_COMMIT_CANCELLED else if all.any (·.late) then ST_TBL_COMMIT_LATE else ST_OK
          let s1 : State := { s with commits := s.commits.filter (fun x => !(x.cid == cid)) }
          let s2 := s1.endCmd k n st 0
          let s3 := if dropped then s2 else s2.modCmd k n (fun x => { x with finish := fin })
          s3.reportPair c st (if dropped then s.time.gtime else fin))

/-! ## TBL_DROP (R70, R595) -/

/-- A BUILDING or COMMITTING version is dropped: every load into it that has not completed stops with ST_TBL_NOT_BUILDING; its
storage goes, and a commit loses it, once no row is in flight (R66, R595). -/
def State.dropBuilding (s : State) (h v : Nat) : State :=
  let mine := s.loads.filter (fun l => l.handle == h && l.ver == v && (s.cmd? l.slot l.n).any (·.status.isNone))
  let s1 := mine.foldl (fun s l => s.endLoad l.slot l.n (some ST_TBL_NOT_BUILDING)) s
  s1.modTable h (fun t => { t with versions := t.versions.map (fun w => if w.num = v then { w with dropped := true } else w) })

/-- The first part of a drop on this part: one version, unless it is LIVE or RETIRING here, or with version 0 the whole
table, which drains from now on (R54, R70). -/
def State.dropTable (s : State) (h v : Nat) : Nat × State :=
  match s.table? h with
  | none => (ST_TBL_NO_TABLE, s)
  | some t =>
    if v ≠ 0 then
      match t.ver? v with
      | none => (ST_TBL_NO_SUCH_VERSION, s)
      | some w =>
        match w.st with
        | .live => (ST_TBL_LIVE, s)
        | .retiring => (ST_TBL_NOT_BUILDING, s)
        | _ => (ST_OK, s.dropBuilding h v)
    else
      let s1 := s.modTable h (fun t => { t with draining := true })
      (ST_OK, match t.build with
        | some w => s1.dropBuilding h w.num
        | none => s1)

/-- A drop that failed on some part is undone on this one, but for the loads that it stopped; a commit whose instant has
passed meanwhile switches the version late (R47, R65, R595). -/
def State.undrop (s : State) (h v : Nat) : State :=
  let mine (c : Commit) : Bool := c.waiting.any (fun x => x.1 == h && (v == 0 || x.2 == v))
  ({ s with commits := s.commits.map (fun c => if mine c then { c with late := c.late || decide (c.instant.toNat < s.now) } else c) }
    : State).modTable h (fun t => { t with
    draining := if v = 0 then false else t.draining
    versions := t.versions.map (fun w => if v = 0 ∨ w.num = v then { w with dropped := false } else w) })

/-- The status of a drop (R54, R70). -/
def State.dropStatus (s : State) (e : Bytes) : Nat :=
  let a := argsOf e
  if !hdrZero e ∨ !allZero (slice a 4 36) then ST_TBL_BAD_ARG
  else
    match s.openTable (rd a 0 2) with
    | none => ST_TBL_NO_TABLE
    | some t =>
      if rd a 2 2 = 0 then ST_OK
      else
        match t.ver? (rd a 2 2) with
        | none => ST_TBL_NO_SUCH_VERSION
        | some w => if w.st = .live then ST_TBL_LIVE else if w.st = .retiring then ST_TBL_NOT_BUILDING else ST_OK

/-! ## A command that fails on another part (R47, R54, R57) -/

/-- What an issuing part undoes when a part refuses a message of a command or does not answer. -/
def State.undoWork (s : State) (m : WorkMsg) : State :=
  let all (s : State) (h : Nat) (x : WorkMsg) : State :=
    match (s.table? h).bind s.tableDom with
    | some (_, d) => (s.workAll d x none).2
    | none => s
  match m with
  | .tblCreate made a => (all s (rd a 0 2) (.tblUncreate (rd a 0 2) made)).uncreate (rd a 0 2) made
  | .tblReserve h v => ((all s h (.tblUnreserve h v)).dropBuilding h v).killVersion h v
  | .tblCommit cid _ l => (all s ((l.head?.map (·.1)).getD 0) (.tblUncommit cid)).uncommit cid
  | .tblDrop h v => (all s h (.tblUndrop h v)).undrop h v
  | _ => s

/-- A table command fails once it has acted: the command ends, a load with it, and what it did is undone (R47, R506); a commit
that used a ticket reports its failure (R230). -/
def State.cmdFails (s : State) (k n : Nat) (m : WorkMsg) (status : Nat) : State :=
  let s1 := match m with
    | .tblFallback h v _ => s.unfallback k n h v
    | .tblCommit cid _ _ => match s.commit? cid with
      | some c => s.reportPair c status s.time.gtime
      | none => s
    | _ => s
  (if (s1.load? k n).isSome then s1.endLoad k n (some status) else s1.endCmd k n status 0).undoWork m

/-! ## The table commands (R49 to R70) -/

/-- TBL_CREATE. -/
def execTblCreate (slot : Nat) (answers : Answers) (s : State) : Outcome State Fault Refusal :=
  .next (s.admitOp slot 0x10 fun n e s =>
    let a := argsOf e
    let st := s.createStatus e answers
    match s.domOf (rd a 6 2) with
    | none => s.endCmd slot n st 0
    | some (_, d) =>
      if st = ST_PLC_DOMAIN_MISMATCH then
        ((s.setMismatch d.number true).workAll d (.mismatch d.number) none).2.endCmd slot n st 0
      else if st = ST_TBL_DOMAIN_SMALL then (s.setMismatch d.number false).endCmd slot n st 0
      else if st ≠ ST_OK then s.endCmd slot n st 0
      else
        let made := s.node * 2 ^ 32 + s.nextCid
        let s1 := ({ s with nextCid := s.nextCid + 1 } : State).createTable made a
        let (sent, s2) := s1.workAll d (.tblCreate made a) (some (slot, n))
        if sent ≠ ST_OK then s2.cmdFails slot n (.tblCreate made a) sent else s2.settle slot n)

/-- TBL_LOAD. -/
def execTblLoad (slot : Nat) (allow : Bool) (s : State) : Outcome State Fault Refusal :=
  .next (s.admitOp slot 0x11 fun n e s =>
    let l := loadOf slot n (argsOf e)
    let st := s.loadStatus e l allow
    if st ≠ ST_OK then s.endCmd slot n st 0
    else
      match s.openTable l.handle with
      | none => s
      | some t =>
        let (sent, s1) := if (t.loadVersion l).2 then
            match s.tableDom t with
            | some (_, d) => (s.newVersion l.handle l.ver).workAll d (.tblReserve l.handle l.ver) (some (slot, n))
            | none => (ST_OK, s.newVersion l.handle l.ver)
          else (ST_OK, s)
        let s2 : State := { s1 with loads := s1.loads ++ [l] }
        if sent ≠ ST_OK then s2.cmdFails slot n (.tblReserve l.handle l.ver) sent
        else if l.source = 2 ∧ !s2.loadHeld l then s2.issueReads l 16 else s2)

/-- TBL_COMMIT; an AT equal to the ARMED ticket uses it (R229). -/
def execTblCommit (slot : Nat) (s : State) : Outcome State Fault Refusal :=
  .next (s.admitOp slot 0x12 fun n e s =>
    let a := argsOf e
    let st := s.commitStatus e
    let l := commitTables a
    if st ≠ ST_OK then s.endCmd slot n st 0
    else
      let at_ : Word := if rd a 0 8 = 0 then s.time.gtime + 400000 else BitVec.ofNat 64 (rd a 0 8)
      let ticket := decide (s.pair.ticket = .armed) && s.pair.at_ == at_ && rd a 0 8 != 0
      let cid := s.node * 2 ^ 32 + s.nextCid
      let s1 : State := { s with nextCid := s.nextCid + 1, pair := if ticket then { s.pair with ticket := .used } else s.pair }
      let s2 := s1.beginCommit cid (some (slot, n)) at_ l ticket
      let (sent, s3) := match (l.head?.bind (fun x => s.table? x.1)).bind s.tableDom with
        | some (_, d) => s2.workAll d (.tblCommit cid at_ l) (some (slot, n))
        | none => (ST_OK, s2)
      if sent ≠ ST_OK then s3.cmdFails slot n (.tblCommit cid at_ l) sent else s3.commitLoads cid)

/-- TBL_DROP. -/
def execTblDrop (slot : Nat) (s : State) : Outcome State Fault Refusal :=
  .next (s.admitOp slot 0x13 fun n e s =>
    let a := argsOf e
    let st := s.dropStatus e
    if st ≠ ST_OK then s.endCmd slot n st 0
    else
      let (sent, s1) := match (s.table? (rd a 0 2)).bind s.tableDom with
        | some (_, d) => s.workAll d (.tblDrop (rd a 0 2) (rd a 2 2)) (some (slot, n))
        | none => (ST_OK, s)
      let s2 := (s1.dropTable (rd a 0 2) (rd a 2 2)).2
      if sent ≠ ST_OK then s2.cmdFails slot n (.tblDrop (rd a 0 2) (rd a 2 2)) sent
      else s2.settleDrop slot n (rd a 0 2) (rd a 2 2))

/-! ## VERSION_FREED (R177) -/

/-- Free a RETIRING version on this part and set VERSION_FREED. -/
def State.retireDone (s : State) (h v : Nat) : State := (s.freeVersion h v).latch Reg.TBL_STATUS 4

/-- VERSION_FREED: the leader frees a version whose count is zero on every live member. -/
def execVersionFreed (h v : Nat) (s : State) : Outcome State Fault Refusal :=
  .next (s.whenServing fun s =>
    match s.table? h with
    | none => s
    | some t =>
      match t.ver? v, s.tableDom t with
      | some w, some (_, d) =>
        if s.leads d ∧ w.st = .retiring ∧ w.refs = 0 ∧ (s.others d).all (fun n => w.zero.contains n) then
          (s.workAll d (.versionFree h v) none).2.retireDone h v
        else s
      | _, _ => s)

/-! ## Computed registers (R82 to R87) -/

def toMiB (n : Nat) : Nat := ceilDiv n 1048576

/-- TBL_HEAP_USE. -/
def State.tblHeapUse (s : State) : Nat :=
  toMiB (s.heldBytes (·.st == .retiring)) * 2 ^ 32 + toMiB (s.heldBytes (fun _ => true))

/-- TBL_COUNT. -/
def State.tblCount (s : State) : Nat :=
  s.tables.foldl (fun a t => a + t.versions.length) 0 * 2 ^ 32 + s.tables.length

def State.qselTable (s : State) : Option Table := s.table? (s.regF Reg.TBL_QSEL 15 0)

/-- Rows of a version that are lost. -/
def State.lostCount (s : State) (t : Table) (v : Nat) : Nat :=
  if s.lostRows.any (fun l => l.handle == t.handle && l.ver == v) then
    ((List.range t.rows).filter (s.rowLost t v)).length else 0

/-- TBL_QINFO. -/
def State.tblQinfo (s : State) : Nat :=
  match s.qselTable with
  | none => 0
  | some t =>
    ((t.live).map (·.num)).getD 0 * 2 ^ 48 + ((t.build).map (·.num)).getD 0 * 2 ^ 32
      + (t.versions.filter (·.st == .retiring)).length * 2 ^ 29
      + b2n (t.build.any (·.st == .committing)) * 2 ^ 28 + b2n (s.degraded t) * 2 ^ 27
      + b2n (t.live.any (fun w => decide (0 < s.lostCount t w.num))) * 2 ^ 26 + b2n t.draining * 2 ^ 25 + 2 ^ 24
      + b2n t.reloadable * 2 ^ 23 + t.fmt * 2 ^ 21 + t.rowlen / 8 * 2 ^ 8

/-- TBL_QREF. -/
def State.tblQref (s : State) : Nat :=
  match s.qselTable with
  | none => 0
  | some t =>
    ((t.versions.filter (·.st == .retiring)).foldl (fun a w => a + w.refs) 0) * 2 ^ 32 + ((t.live).map (·.refs)).getD 0

/-- TBL_QROWS. -/
def State.tblQrows (s : State) : Nat := ((s.qselTable.bind (·.build)).map (·.written.length)).getD 0

/-- TBL_QLOST. -/
def State.tblQlost (s : State) : Nat :=
  match s.qselTable with
  | none => 0
  | some t => (t.live.map (fun w => s.lostCount t w.num)).getD 0

end Sys2Proof.Machine
end

