-- ==== Sys2Proof/Machine/Place.lean ====
section
/-! DEFINITION. What the placement director does with the directory: changes landing in a copy, replicas, the start
and the end of a migration (R152 to R177, R593). -/
namespace Sys2Proof.Machine

/-! ## Registers written in parts -/

/-- A register value after an access that starts at the register's address `base`. -/
def intoReg (a : Access) (base : Nat) (old : Nat) : Nat :=
  let lo := 8 * (a.off - base)
  putFld old (lo + 8 * a.size - 1) lo a.value.toNat

/-- A naturally aligned access of 32 or 64 bits to the 64-bit register at `base`, or to one of its halves (R6). -/
def onReg (a : Access) (base : Nat) : Bool :=
  a.bar == 0 && (a.size == 4 || a.size == 8) && a.off % a.size == 0 && decide (base ≤ a.off) && decide (a.off + a.size ≤ base + 8)

/-- What the RW bits of the register at `base` become; the other bits stay (R9, R10). -/
def rwInto (a : Access) (base old : Nat) : Nat :=
  let rw := ((regAt base).map (·.1.rw)).getD 0
  (old &&& (2 ^ 64 - 1 - rw)) ||| (intoReg a base old &&& rw)

/-- A 64-bit access acts on each of its two words as a 32-bit access to that word would, the low word first (R6, R7, log
entry 70). -/
def byWords (f : Access → State → State) (a : Access) (s : State) : State :=
  if a.size = 8 then f ⟨a.bar, a.off + 4, 4, a.value >>> 32⟩ (f ⟨a.bar, a.off, 4, a.value⟩ s) else f a s

/-- What a write does to a 64-bit register at an address while READY is 1; an access elsewhere is none of it. -/
def State.whenOn (s : State) (a : Access) (base : Nat) (f : State → State) : State := if onReg a base then s.whenOpen f else s

/-! ## Editing a directory copy -/

def State.modDir (s : State) (die : Nat) (f : Dir → Dir) : State := { s with dirs := listMod s.dirs die f }

/-- Set a bucket-map entry of a copy; an entry equal to its start is not listed. -/
def State.setBentry (s : State) (die slot b : Nat) (e : BEntry) : State :=
  let start := ((s.doms[slot]?).getD .init).start s.side b
  s.modDir die (fun d => { d with buckets := if e = start then keyDel d.buckets (slot, b) else keyPut d.buckets (slot, b) e })

/-- VMASK of every version of a table. -/
def Table.vmask (t : Table) : Nat := t.versions.foldl (fun a v => a + 2 ^ v.slot) 0

/-! ## Lost bitmaps (R175) -/

/-- Every row of a bucket becomes lost in every version of the domain's tables that satisfy p, but those of which a copy
stands by a MOVED entry; tables with no row in the bucket have no bitmap. -/
def State.markLost (s : State) (slot b : Nat) (number : Nat) (p : Table → Bool) : State :=
  let tabs := s.tables.filter (fun t => t.domain == number && p t && !(s.bucketRows t slot b).isEmpty)
  let new := tabs.flatMap (fun t => t.versions.map (fun v =>
    let kept := (s.bucketRows t slot b).filter (fun r => ((s.dir 0).moved t.handle r v.slot).any (fun o =>
      !s.ras.lostNodes.contains (locNode o.loc)))
    (⟨slot, b, t.handle, v.num, kept, none⟩ : LostSet)))
  let fresh := tabs.any (fun t => t.versions.any (fun v => (s.bucketRows t slot b).any (fun r =>
    !s.rowLost t v.num r && new.any (fun l => l.marks t.handle v.num r (some (slot, b))))))
  let old := s.lostRows.filter (fun l => !new.any (fun n => n.slot == l.slot && n.bucket == l.bucket && n.handle == l.handle
    && n.ver == l.ver && l.only.isNone))
  let s1 : State := { s with lostRows := old ++ new }
  if fresh then s1.latch Reg.TBL_STATUS 1 else s1

/-! ## Wings rows of an owner -/

/-- Change the rows of a die's Wings cache while it is ON; while it is not, nothing touches them (R126). -/
def State.wingsRows (s : State) (die : Nat) (f : List WRow → List WRow) : State :=
  s.modGpe die (fun g => if g.wings.st = .on then { g with wings := { g.wings with rows := f g.wings.rows } } else g)

/-- Drop the Wings copies of rows that a die no longer holds; reads of them that have begun are not offered to the cache
(R125). -/
def State.dropWings (s : State) (die : Nat) (p : Nat → Nat → Bool) : State :=
  let handleOf (x : RowRead) : Option Nat :=
    (s.reqs.find? (fun r => r.die == x.die && r.src == x.src && r.ctx == x.ctx && r.op == x.op)).map (·.handle)
  { s.wingsRows die (fun l => l.filter (fun r => !p r.handle r.row)) with
    reads := s.reads.map (fun x => if x.die = die ∧ (handleOf x).any (fun h => p h x.entry.row) then { x with stale := true } else x) }

/-- A Wings copy of a row is written with the row (R125). -/
def State.updateWings (s : State) (die h slot row : Nat) (img : Bytes) : State :=
  s.wingsRows die (fun l => l.map (fun r => if r.handle = h ∧ r.row = row ∧ r.slot = slot then { r with image := img } else r))

/-! ## Migrations in progress -/

def State.modMig (s : State) (p : Mig → Bool) (f : Mig → Mig) : State :=
  { s with migs := s.migs.map (fun m => if p m then f m else m) }

/-- A record is of a migration, and not of replicas that drain. -/
def Mig.moves (m : Mig) : Bool := m.st != .draining || m.change.isSome

/-- Two records are of the same move. -/
def Mig.same (m x : Mig) : Bool := m.unit == x.unit && m.from_ == x.from_ && m.to_ == x.to_

/-- Whether a unit is in a migration. -/
def State.moving (s : State) (u : MigUnit) : Bool := s.migs.any (fun m => m.unit == u && m.moves)

/-- Whether a row, alone or in its bucket, is in a migration, or a home of it awaits its copy. -/
def State.rowMoving (s : State) (t : Table) (row : Nat) : Bool :=
  s.migs.any (fun m => m.moves && s.unitHolds m.unit t row) || (s.dir 0).refill.any (fun r => r.1 == t.handle && r.2.1 == row)

/-- The unit's domain number. -/
def State.unitDom (s : State) (u : MigUnit) : Nat :=
  match u with
  | .bucket d _ => d
  | .row h _ => ((s.table? h).map (·.domain)).getD 0

/-- A record that a copy is to be kept up to date until its drain ends; the new home keeps one too, and a move towards it
that it had noted drains now (R166). -/
def State.startDrain (s : State) (u : MigUnit) (which : Bool) (from_ to_ : Nat) (change : Option DirChange) : State :=
  let new : Mig := ⟨s.unitDom u, u, which, from_, to_, .draining, 0, none, [], [], change, none, false⟩
  if s.migs.any new.same then
    s.modMig (fun m => m.same new && m.st != .draining && locNode m.from_ != s.node) (fun m => { m with st := .draining, change := change })
  else { s with migs := s.migs ++ [new] }

/-- Replica locations that leave a row's set: the row's apply point drains them, and the leader notes it (R162). -/
def State.drainReplicas (s : State) (die h row : Nat) (old new : List Nat) : State :=
  match s.table? h with
  | none => s
  | some t =>
    match s.applyPoint die t t.vslot row with
    | none => s
    | some l =>
      if l = s.loc die ∨ (die = 0 ∧ (s.tableDom t).any (fun d => s.leads d.2)) then
        (old.filter (fun x => !new.contains x)).foldl (fun s x => s.startDrain (.row h row) false x l none) s
      else s

/-! ## Chorus writes to every directory copy -/

/-- The dies of a domain: live members in rising order, then the dies of each. -/
def State.domDies (s : State) (d : Dom) : List Nat :=
  d.live.flatMap (fun m => (List.range 8).map (fun c => s.memberNode m + 4096 * c))

/-- Where a directory change is written: to every die of this part, and as one packet to each other part, whose director passes it to
its dies (R501). -/
def State.chorusDests (s : State) (d : Dom) : List Nat :=
  d.live.flatMap (fun m => if s.memberNode m = s.node then (List.range 8).map s.loc else [s.memberNode m])

/-- A directory change is chorus-written to every directory copy of the domain. -/
def State.chorusAll (s : State) (d : Dom) (c : DirChange) : State :=
  (s.chorusDests d).foldl (fun s l => s.write 0 l (.chorus (.dir c))) s

/-- A chorus write of a change is not acknowledged. -/
def State.changePending (s : State) (p : DirChange → Bool) : Bool :=
  s.link.pend.any (fun e => match e.p.body with
    | .chorus (.dir c) => p c
    | _ => false)

/-- The row a change is about. -/
def changeRow : DirChange → Option (Nat × Nat)
  | .moved h r _ _ _ => some (h, r)
  | .replica h r _ _ _ => some (h, r)
  | .held h r _ => some (h, r)
  | .pinned h r _ => some (h, r)
  | .clearReplica h r => some (h, r)
  | .clearHeld h r => some (h, r)
  | _ => none

/-! ## A directory change lands in a copy (R162, R167, R173 to R176) -/

/-- DEGRADED of TBL_STATUS clears when no row of a MIRRORED table has one home (R77, R174). -/
def State.clearDegraded (s : State) : State :=
  if s.tables.any s.degraded then s else s.setEvent Reg.TBL_STATUS (s.reg Reg.TBL_STATUS &&& ~~~(4 : Word))

/-- REMIRROR_DONE is set when the last bucket of a domain regains its second home: `was` says that some bucket lacked one
before (R174). -/
def State.remirrorDone (s : State) (slot : Nat) (was : Bool) : State :=
  if !was ∨ (s.dir 0).short slot then s else s.clearDegraded.latch Reg.PLC_STATUS 6

/-- DEGRADED is set when a change has taken a home from some row of a MIRRORED table in a bucket; `old` is the state before
(R77). -/
def State.noteDegraded (s old : State) (slot b number : Nat) : State :=
  if s.tables.any (fun t => t.domain == number && !t.reloadable && (s.bucketRows t slot b).any (fun r =>
      decide ((s.homesOf 0 t t.vslot r).length < (old.homesOf 0 t t.vslot r).length))) then s.latch Reg.TBL_STATUS 2 else s

/-! ## Rows of which one home awaits its copy (R77, R78, R174; log entry 20) -/

/-- A home of a row of a MIRRORED table awaits its copy in the directory copy of a die; the die that holds the row at its
other home sends it every version. -/
def State.startRefill (s : State) (die : Nat) (t : Table) (row : Nat) (isB : Bool) : State :=
  match s.rowBucket t row with
  | none => s
  | some (slot, b) =>
    let e := s.bentry die slot b
    match (if isB then e.homeB else e.homeA) with
    | none => s
    | some x =>
      let s1 := s.modDir die (fun d => { d with refill := insertNew (t.handle, row, isB) d.refill })
      if s1.homesOf die t t.vslot row = [s.loc die] then
        t.versions.foldl (fun s v => s.write die x (.rows .copy t.handle v.num [⟨row, s.rowAt die t.handle v.num row⟩])) s1
      else s1

/-- Where the copy of a row that this die holds alone is awaited. -/
def State.refillTo (s : State) (die : Nat) (t : Table) (row : Nat) : List Nat :=
  match s.rowBucket t row with
  | none => []
  | some (slot, b) =>
    let e := s.bentry die slot b
    ((s.dir die).refill.filter (fun r => r.1 == t.handle && r.2.1 == row)).filterMap (fun r => if r.2.2 then e.homeB else e.homeA)

/-- A row that has no home left in a copy awaits nothing there, and is lost in every version (R78). -/
def State.loseBare (s : State) (die : Nat) (t : Table) (row : Nat) : State :=
  if !(s.homesOf die t t.vslot row).isEmpty then s
  else
    let s1 := s.modDir die (fun d => { d with refill := d.refill.filter (fun r => !(r.1 == t.handle && r.2.1 == row)) })
    if die ≠ 0 then s1 else t.versions.foldl (fun s v => s.loseRow t.handle v.num row) s1

/-- A home of a bucket has gone: rows do not await their copies there any more, and those whose only home it was are lost. -/
def State.homeGone (s : State) (die slot b : Nat) (isB : Bool) : State :=
  let here (r : Nat × Nat × Bool) : Bool := (s.table? r.1).any (fun t => s.rowBucket t r.2.1 == some (slot, b))
  let rows := (s.dir die).refill.filter here
  let s1 := s.modDir die (fun d => { d with refill := d.refill.filter (fun r => !(here r && r.2.2 == isB)) })
  (rows.filter (fun r => !(r.2.2 == isB))).foldl (fun s r => match s.table? r.1 with
    | some t => s.loseBare die t r.2.1
    | none => s) s1

/-- The leader hears that the last copy of a row that this die sent to a home which awaited it is there. -/
def State.noteRefilled (s : State) (die h row : Nat) : State :=
  let sending := s.link.pend.any (fun e => e.p.die == die && (match e.p.body with
    | .rows .copy x _ l => x == h && l.any (·.row == row)
    | _ => false))
  if sending ∨ !(s.dir die).refill.any (fun r => r.1 == h && r.2.1 == row) then s
  else
    match (s.table? h).bind s.tableDom with
    | none => s
    | some (_, d) =>
      if s.leads d then s.chorusAll d (.refilled h row)
      else match d.leader with
        | some l => s.write 0 (s.memberNode l) (.work (.refilled h row))
        | none => s

/-- The rest of setting a home, when the new home is a die of this part and an old home stands: it forwards to the
old copy while that drains (R166). -/
def State.noteNewHome (s : State) (die number b : Nat) (isB : Bool) (old : Option Nat) (loc : Nat) : State :=
  match old with
  | none => s
  | some o =>
    if loc = s.loc die ∧ o ≠ loc then s.startDrain (.bucket number b) isB o loc (some (.setHome number b isB loc)) else s

/-- A replica entry lands: a HELD entry of the row gives way to it, and the home whose copy now has it sends deltas by
the entry. -/
def State.landReplica (s : State) (die h row vmask : Nat) (locs : List Nat) (pin : Bool) : State :=
  let old := (s.dir die).replLocs h row
  let s1 := s.modDir die (fun d => (d.setRepl h row vmask locs pin).clear h row (·.kind == .held))
  let s2 : State := { s1 with
    replicas := if locs.contains (s.loc die) then insertNew (h, row, die) s1.replicas else s1.replicas
    reps := s1.reps.filter (fun r => !(r.handle == h && r.row == row && (r.home == s.loc die || (locNode r.home != s.node && die == 0)))) }
  s2.drainReplicas die h row old locs

/-- A MOVED entry lands; the new home forwards to the old copy while that drains. -/
def State.landMoved (s : State) (die h row loc vmask : Nat) (isB : Bool) : State :=
  match s.table? h with
  | none => s
  | some t =>
    let homes := s.rowHomes die t t.vslot row
    let old := if isB then homes.2 else homes.1
    let st := if s.migs.any (fun m => m.unit == .row h row && m.from_ == s.loc die && m.st == .draining && m.change.isSome) then MState.draining
      else .resident
    let cur := (s.dir die).place h row
    let s1 := s.modDir die (fun d => d.setOvr ⟨h, row, .moved, st, cur.any (·.pin), isB, vmask, loc, (cur.map (·.epoch)).getD 0⟩)
    match old with
    | none => s1
    | some o =>
      if loc = s.loc die ∧ o ≠ loc then s1.startDrain (.row h row) isB o loc (some (.moved h row loc vmask isB)) else s1

/-- Entries of a row that satisfy p go; replicas among them drain. -/
def State.landClear (s : State) (die h row : Nat) (p : Ovr → Bool) : State :=
  let old := (s.dir die).replLocs h row
  let s1 := s.modDir die (·.clear h row p)
  s1.drainReplicas die h row old ((s1.dir die).replLocs h row)

/-- A pin in place lands: a MOVED entry is pinned, else the row gets a HELD entry; replicas go (R184). -/
def State.landHeld (s : State) (die h row vmask : Nat) : State :=
  let s1 := s.landClear die h row (·.kind == .replica)
  if ((s1.dir die).place h row).any (·.kind == .moved) then
    s1.modDir die (fun d => { d with ovr := d.ovr.map (fun o => if o.handle = h ∧ o.row = row ∧ o.kind = .moved then { o with pin := true } else o) })
  else s1.modDir die (·.setOvr ⟨h, row, .held, .resident, true, false, vmask, 0, 0⟩)

/-- Drop a lost part's locations from a copy: from every replica set, with the entries whose set becomes empty, and the
MOVED entries there (R173). -/
def Dir.dropNode (d : Dir) (node : Nat) (mine : Ovr → Bool) : Dir :=
  let sets := d.sets.map (fun e => (e.1, e.2.filter (fun x => locNode x != node)))
  let stays (o : Ovr) : Bool :=
    !mine o ||
      match o.kind with
      | .replica => !((sets.lookup o.loc).getD []).isEmpty
      | .moved => locNode o.loc != node
      | .held => true
  ({ d with sets := sets, ovr := d.ovr.filter stays } : Dir).prune

/-- MOVED entries of a domain whose home was on a lost part, as a copy holds them. -/
def State.movedAt (s : State) (die number node : Nat) : List Ovr :=
  (s.dir die).ovr.filter (fun o => o.kind == .moved && locNode o.loc == node && (s.table? o.handle).any (·.domain == number))

/-- A lost part's locations go from the copy of a die. A row that had its home there by a MOVED entry falls back to its
bucket's home: without another home it is lost, and else the bucket's home awaits the copy of it (log entry 20). -/
def State.landDropNode (s : State) (die number node : Nat) : State :=
  let gone := s.movedAt die number node
  let s1 := s.modDir die (·.dropNode node (fun o => (s.table? o.handle).any (·.domain == number)))
  gone.foldl (fun s o =>
    match s.table? o.handle with
    | none => s
    | some t =>
      if t.reloadable then
        (if die ≠ 0 then s else (t.versions.filter (fun v => o.vmask.testBit v.slot)).foldl (fun s v => s.loseRow t.handle v.num o.row) s)
      else
        let s1 := if die = 0 then s.latch Reg.TBL_STATUS 2 else s
        (s1.startRefill die t o.row o.which).loseBare die t o.row) s1

/-- The new home A or B of a bucket that had none: rows whose other home is a MOVED place are not in the copy that was made
of the bucket, and are awaited from there. -/
def State.refillMoved (s : State) (die number slot b : Nat) (isB : Bool) : State :=
  ((s.dir die).ovr.filter (fun o => o.kind == .moved && o.which != isB)).foldl (fun s o =>
    match s.table? o.handle with
    | none => s
    | some t =>
      if t.domain ≠ number ∨ t.reloadable ∨ s.rowBucket t o.row ≠ some (slot, b) ∨ !o.covers t.vslot then s
      else s.startRefill die t o.row isB) s

/-- What every member does when the leader of a domain changes, by a loss or a rejoin: LEADER_CHANGE is set, a pin in
progress fails and what it had begun is given up; the new leader is told what this part has counted down to zero, what it moves and
drains, and which rows have reached the homes that awaited them, and it writes the flips of its own that the leader before may
not have written (R146, R162, R167, R169, R177, R185). -/
def State.leaderChanged (s : State) (number : Nat) : State :=
  let s1 := s.latch Reg.PLC_STATUS 5
  let here (h : Nat) : Bool := (s1.table? h).any (·.domain == number)
  let mine (r : RepJob) : Bool := here r.handle && locNode r.home == s1.node
  let pinned := s1.reps.filter (fun r => mine r && r.pin)
  let s2 : State := { s1 with
    pin := if s1.pin.busy ∧ s1.pin.outcome = 0 ∧ here s1.pin.handle then { s1.pin with outcome := ST_PLC_PIN_BUSY, remote := false } else s1.pin
    pinJobs := s1.pinJobs.filter (fun j => !here j.handle)
    reps := (s1.reps.filter (fun r => !(mine r && r.pin))).map (fun r => if mine r then { r with told := false } else r) }
  let s3 := pinned.foldl (fun s r => r.targets.foldl (fun s l => s.write (locDie r.home) l (.work (.endMove (.row r.handle r.row)))) s) s2
  let s4 := (s3.tables.filter (·.domain == number)).foldl (fun s t => t.versions.foldl (fun s v => s.reportZero t.handle v.num) s) s3
  match s4.domOf number with
  | none => s4
  | some (_, d) =>
    let moves := s4.migs.filter (fun m => m.dom == number && m.moves && locNode m.from_ == s4.node)
    let drains := s4.migs.filter (fun m => m.dom == number && !m.moves && locNode m.to_ == s4.node && m.flipEpoch.isNone)
    let s5 := match d.leader with
      | none => s4
      | some l =>
        if l = s4.member then
          moves.foldl (fun s m => match m.change with
            | some c => if m.flipEpoch.isNone then s.chorusAll d c else s
            | none => s) s4
        else
          let s5 := moves.foldl
            (fun s m => s.write 0 (s.memberNode l) (.work (.moving m.unit m.which m.from_ m.to_ m.remirror m.change))) s4
          drains.foldl (fun s m => match m.unit with
            | .row h row => s.write 0 (s.memberNode l) (.work (.draining h row m.from_ m.to_))
            | .bucket _ _ => s) s5
    (List.range 8).foldl (fun s die => ((s.dir die).refill.filter (fun r => here r.1)).foldl (fun s r => match s.table? r.1 with
      | some t => if s.homesOf die t t.vslot r.2.1 = [s.loc die] then s.noteRefilled die r.1 r.2.1 else s
      | none => s) s) s5

/-- A member has rejoined: it is live again and is being filled (R176). -/
def State.landRejoin (s : State) (number member : Nat) : State :=
  match s.domOf number with
  | none => s
  | some (slot, d) =>
    if !d.excluded.contains member then s
    else
      let s1 := s.modDom slot (fun d => { d with
        excluded := d.excluded.filter (· != member)
        rejoined := insertNew member d.rejoined })
      let s2 : State := { s1 with ras := { s1.ras with lostNodes := s1.ras.lostNodes.filter (· != s.memberNode member) } }
      if d.leader.all (fun l => decide (member < l)) then s2.leaderChanged number else s2

/-- The flip epoch of a unit lands: in its MOVED entry, and in the drains of it that have none yet (R169). -/
def State.landEpoch (s : State) (die : Nat) (u : MigUnit) (value : Nat) : State :=
  let s1 := s.modMig (fun m => m.unit == u && m.st == .draining && m.flipEpoch.isNone) (fun m => { m with flipEpoch := some value })
  match u with
  | .bucket _ _ => s1
  | .row h row => s1.modDir die (fun d => { d with ovr := d.ovr.map (fun o => if o.handle = h ∧ o.row = row then { o with epoch := value } else o) })

/-- A directory change lands in the copy of a die. What concerns the part as a whole follows when it lands in the copy of
CD0. -/
def State.applyDir (s : State) (die : Nat) (c : DirChange) : State :=
  match c with
  | .clearHome number b isB =>
    match s.domOf number with
    | none => s
    | some (slot, _) =>
      let e := s.bentry die slot b
      let e1 : BEntry := if isB then { e with homeB := none } else { e with homeA := none }
      let orphans := !isB && e1.homeB.isSome && s.tables.any (fun t => t.domain == number && t.reloadable && !(s.bucketRows t slot b).isEmpty)
      let e2 := if orphans then { e1 with relost := true } else e1
      let s1 := s.setBentry die slot b e2
      if e2 = e then s1
      else if die ≠ 0 then s1.homeGone die slot b isB
      else
        let s2 := (s1.noteDegraded s slot b number).homeGone die slot b isB
        if orphans then s2.markLost slot b number (·.reloadable) else s2
  | .setHome number b isB loc =>
    match s.domOf number with
    | none => s
    | some (slot, _) =>
      let e := s.bentry die slot b
      let was := (s.dir 0).short slot
      let st := if s.migs.any (fun m => m.unit == .bucket number b && m.from_ == s.loc die && m.st == .draining) then MState.draining else .resident
      let old := if isB then e.homeB else e.homeA
      let e1 : BEntry := if isB then { e with homeB := some loc, st := st, new := none } else { e with homeA := some loc, st := st, new := none }
      let s1 := (s.noteNewHome die number b isB old loc).setBentry die slot b e1
      let s2 := if old.isNone then s1.refillMoved die number slot b isB else s1
      if die = 0 then s2.remirrorDone slot was else s2
  | .relost number b =>
    match s.domOf number with
    | none => s
    | some (slot, _) =>
      let s1 := s.setBentry die slot b { s.bentry die slot b with relost := true }
      if die = 0 then s1.markLost slot b number (fun _ => true) else s1
  | .moved h row loc vmask isB => s.landMoved die h row loc vmask isB
  | .replica h row vmask locs pin => s.landReplica die h row vmask locs pin
  | .held h row vmask => s.landHeld die h row vmask
  | .pinned h row pin => s.modDir die (fun d => { d with ovr := d.ovr.map (fun o => if o.handle = h ∧ o.row = row then { o with pin := pin } else o) })
  | .clearReplica h row => s.landClear die h row (·.kind == .replica)
  | .clearHeld h row => s.landClear die h row (·.kind == .held)
  | .flipEpoch u value => s.landEpoch die u value
  | .dropNode number node => s.landDropNode die number node
  | .rejoin number member => s.landRejoin number member
  | .refilled h row =>
    let s1 := s.modDir die (fun d => { d with refill := d.refill.filter (fun r => !(r.1 == h && r.2.1 == row)) })
    if die = 0 then s1.clearDegraded else s1
  | .epoch number value =>
    match s.domOf number with
    | none => s
    | some (slot, _) =>
      (s.modDir die (fun d => { d with epochs := keyPut d.epochs slot value })).modDom slot (fun d => { d with epoch := value })

/-! ## Ways of override sets (R156) -/

/-- The entry that a change puts into its row's set: whether it is a REPLICA entry. -/
def changeKind : DirChange → Option Bool
  | .replica _ _ _ _ _ => some true
  | .moved _ _ _ _ _ => some false
  | .held _ _ _ => some false
  | _ => none

/-- Ways of override sets that are taken or spoken for, as the leader knows: entries, replicas in creation, running row
moves, and changes not yet acknowledged (R156). -/
def State.ways (s : State) : List (Nat × Nat × Bool) :=
  ((s.dir 0).ovr.map (fun o => (o.handle, o.row, o.kind == .replica))
    ++ s.reps.map (fun r => (r.handle, r.row, true))
    ++ s.migs.filterMap (fun m => match m.unit with
      | .row h row => if m.moves then some (h, row, false) else none
      | .bucket _ _ => none)
    ++ s.link.pend.filterMap (fun e => match e.p.body with
      | .chorus (.dir c) => match changeRow c, changeKind c with
        | some x, some k => some (x.1, x.2, k)
        | _, _ => none
      | _ => none)).eraseDups

/-- An entry of the row, REPLICA or other, would find no free way in its set (R156). -/
def State.dirFull (s : State) (h row : Nat) (replica : Bool) : Bool :=
  !s.ways.contains (h, row, replica) && decide (4 ≤ (s.ways.filter (fun w => ovrSet w.1 w.2.1 == ovrSet h row)).length)

/-- Dies that hold a copy of some row of a unit other than by its bucket's homes, which a home of the unit must not join:
replicas of its rows (R155). -/
def State.avoid (s : State) (u : MigUnit) : List Nat :=
  let holds (h row : Nat) : Bool := (s.table? h).any (fun t => s.unitHolds u t row)
  (((s.dir 0).ovr.filter (fun o => o.kind == .replica && holds o.handle o.row)).flatMap (fun o => (s.dir 0).setLocs o.loc))
    ++ (s.reps.filter (fun r => holds r.handle r.row)).flatMap (·.targets)

/-! ## Least loaded (R593) -/

def Dom.dieLoad (d : Dom) (l : Nat) : Nat := ((d.loads.find? (·.loc == l)).map (·.load)).getD 0

/-- Owner reads of a die over the last complete heavy-hitter period: PLC_DIE_LOAD of this part's own dies, and what the others
have reported. -/
def State.dieLoad (s : State) (d : Dom) (l : Nat) : Nat :=
  if locNode l = s.node then s.regN (Reg.PLC_DIE_LOAD (locDie l)) else d.dieLoad l

def State.partLoad (s : State) (d : Dom) (node : Nat) : Nat := ((List.range 8).map (fun c => s.dieLoad d (node + 4096 * c))).sum

/-- The heap of a die's part has room for n bytes; this part knows its own, and another's as reported. -/
def State.roomAt (s : State) (d : Dom) (l n : Nat) : Bool :=
  if locNode l = s.node then decide (n ≤ s.heapFree)
  else (d.loads.find? (·.loc == l)).all (fun x => decide (n ≤ x.freeBytes))

/-- The least of a list by a key; the first on ties. -/
def leastBy (key : Nat → Nat) : List Nat → Option Nat
  | [] => none
  | x :: t =>
    match leastBy key t with
    | none => some x
    | some y => if key x ≤ key y then some x else some y

/-- Insert into a list sorted by a rising key, before equal keys. -/
def insertBy (key : Nat → Nat) (x : Nat) : List Nat → List Nat
  | [] => [x]
  | y :: t => if key x ≤ key y then x :: y :: t else y :: insertBy key x t

/-- Stable sort by a rising key. -/
def sortBy (key : Nat → Nat) (l : List Nat) : List Nat := l.foldr (insertBy key) []

/-! ## Replicas (R160 to R163) -/

/-- Replica reserve of this part (R163). -/
def State.reserve (s : State) : Nat := s.regF Reg.PLC_CTL 7 0 * 2 ^ 30

/-- The replica reserve of a part, as the leader knows it: its own, another's as reported, and its own for a part that has
not reported yet (log entry 26). -/
def State.reserveOf (s : State) (d : Dom) (node : Nat) : Nat :=
  if node = s.node then s.reserve
  else ((d.loads.find? (fun x => locNode x.loc == node)).map (·.reserve)).getD s.reserve

/-- Bytes that one replica of a row takes: every version in VMASK. -/
def Table.replicaBytes (t : Table) : Nat := t.versions.length * 32 * t.granules

/-- Bytes of replica reserve in use on a part, by the directory and by what is being created. -/
def State.reserveUse (s : State) (node : Nat) : Nat :=
  let of (h : Nat) (locs : List Nat) : Nat :=
    ((s.table? h).map (·.replicaBytes)).getD 0 * (locs.filter (fun l => locNode l == node)).length
  (((s.dir 0).ovr.filter (·.kind == .replica)).map (fun o => of o.handle ((s.dir 0).setLocs o.loc))).sum
    + (s.reps.map (fun r => of r.handle (r.targets.filter (fun l => !((s.dir 0).replLocs r.handle r.row).contains l)))).sum

/-- The members of a list with the least key. -/
def leastOf (key : Nat → Nat) (l : List Nat) : List Nat := l.filter (fun x => l.all (fun y => decide (key x ≤ key y)))

/-- The die for the next replica of a row: on a part without a home of it, that has the fewest replicas, with the lowest
load, and there on the least loaded die (R161, R593). `taken` are the replicas so far, `no` the dies that are ruled out. -/
def State.nextReplica (s : State) (d : Dom) (homes taken no : List Nat) : Option Nat :=
  let dies (node : Nat) : List Nat := ((List.range 8).map (fun c => node + 4096 * c)).filter (fun l =>
    !homes.contains l && !taken.contains l && !no.contains l)
  let nodes := (d.live.map s.memberNode).filter (fun n => !(dies n).isEmpty)
  let n1 := leastOf (fun n => b2n (homes.any (fun l => locNode l == n))) nodes
  let n2 := leastOf (fun n => (taken.filter (fun l => locNode l == n)).length) n1
  (leastBy (s.partLoad d) n2).bind (fun n => leastBy (s.dieLoad d) (dies n))

/-- The locations for n more replicas of a row, and whether the reserve of some part ruled a die out (R161, R163). -/
def State.replicaTargets (s : State) (d : Dom) (t : Table) (homes have_ : List Nat) : Nat → List Nat → List Nat → Bool → Nat → List Nat × Bool
  | 0, new, _, refused, _ => (new, refused)
  | fuel + 1, new, no, refused, n =>
    if n ≤ new.length then (new, refused)
    else
      match s.nextReplica d homes (have_ ++ new) no with
      | none => (new, refused)
      | some l =>
        let same := (new.filter (fun x => locNode x == locNode l)).length + 1
        if s.reserveUse (locNode l) + same * t.replicaBytes ≤ s.reserveOf d (locNode l) then
          s.replicaTargets d t homes have_ fuel (new ++ [l]) no refused n
        else s.replicaTargets d t homes have_ fuel new (l :: no) true n

/-- The die at a home of a row copies every version in `vmask` of it to the targets (R162). -/
def State.copyRow (s : State) (die : Nat) (t : Table) (row vmask : Nat) (targets : List Nat) : State :=
  (t.versions.filter (fun v => vmask.testBit v.slot)).foldl (fun s v =>
    targets.foldl (fun s l => s.write die l (.rows .replica t.handle v.num [⟨row, s.rowAt die t.handle v.num row⟩])) s) s

/-- The home of a row begins to copy it to replicas; the leader notes it, and tells a home on another part. -/
def State.beginCopy (s : State) (h row home : Nat) (targets : List Nat) (pin : Bool) : State :=
  match s.table? h with
  | none => s
  | some t =>
    let s1 : State := { s with reps := s.reps.filter (fun r => !(r.handle == h && r.row == row)) ++ [⟨h, row, home, t.vmask, targets, pin, false, false⟩] }
    if locNode home = s.node then
      s1.copyRow (locDie home) t row t.vmask (targets.filter (fun l => !((s.dir (locDie home)).replLocs h row).contains l))
    else s1.write 0 home (.work (.copyTo h row home targets pin))

/-- The leader gives a row c replicas. Answers 0, or the status of a pin that cannot have them: a pin for which the domain
has too few dies fails with ST_PLC_PIN_ARG (log entry 26). An automatic row takes what fits. -/
def State.replicate (s : State) (d : Dom) (t : Table) (row c : Nat) (pin : Bool) : Nat × State :=
  let h := t.handle
  let have_ := (s.dir 0).replLocs h row
  let refuse (s : State) : Nat × State := (ST_PLC_DIR_FULL, (if pin then s else s.count Reg.PLC_OVR_REFUSED 1).latch Reg.PLC_STATUS 1)
  if s.dirFull h row true then refuse s
  else if c < have_.length ∨ (c = have_.length ∧ pin) then
    if ((s.dir 0).setFor (have_.take c)).isNone then refuse s
    else (ST_OK, s.chorusAll d (.replica h row t.vmask (have_.take c) (pin || ((s.dir 0).repl h row).any (·.pin))))
  else if c = have_.length then (ST_OK, s)
  else
    let homes := s.homesOf 0 t t.vslot row
    let (new, refused) := s.replicaTargets d t homes have_ 2048 [] [] false (c - have_.length)
    let short := decide (have_.length + new.length < c)
    let s1 := if short && refused then s.latch Reg.PLC_STATUS 2 else s
    if short ∧ pin then (if refused then ST_PLC_REPLICA_FULL else ST_PLC_PIN_ARG, s1)
    else if new.isEmpty then (ST_OK, s1)
    else if ((s.dir 0).setFor (have_ ++ new)).isNone then refuse s1
    else
      match homes.head? with
      | none => (ST_OK, s1)
      | some home => (ST_OK, s1.beginCopy h row home (have_ ++ new) pin)

/-- The leader of some domains takes replicas off a part until its use fits: unpinned before pinned, coldest first (R163). -/
def State.shed (s : State) (ds : List Dom) (node limit : Nat) : State :=
  let domOf (o : Ovr) : Option Dom := (s.table? o.handle).bind (fun t => ds.find? (·.number == t.domain))
  let rate (o : Ovr) : Nat := ((domOf o).bind (fun d => d.heat.find? (fun r => r.handle == o.handle && r.row == o.row))).elim 0 (·.reads)
  let locs (o : Ovr) : List Nat := (s.dir 0).setLocs o.loc
  let mine := (s.dir 0).ovr.filter (fun o => o.kind == .replica && (locs o).any (fun l => locNode l == node) && (domOf o).isSome)
  let order := sortBy (fun i => (mine[i]?).elim 0 (fun o => b2n o.pin * 2 ^ 64 + rate o)) (List.range mine.length)
  let step (acc : Nat × State) (i : Nat) : Nat × State :=
    match mine[i]? with
    | none => acc
    | some o =>
      if acc.1 ≤ limit then acc
      else
        let keep := (locs o).filter (fun l => locNode l != node)
        let freed := ((s.table? o.handle).map (·.replicaBytes)).getD 0 * ((locs o).length - keep.length)
        match domOf o with
        | none => acc
        | some d => (acc.1 - freed, acc.2.chorusAll d (if keep.isEmpty then .clearReplica o.handle o.row else .replica o.handle o.row o.vmask keep o.pin))
  (order.foldl step (s.reserveUse node, s)).2

/-- A part's reserve changes: the leader sheds what no longer fits (R163). -/
def State.takeReserve (s : State) (number node gib : Nat) : State :=
  match s.domOf number with
  | none => s
  | some (slot, d) =>
    let s1 := s.modDom slot (fun d => { d with loads := d.loads.map (fun x => if locNode x.loc = node then { x with reserve := gib * 2 ^ 30 } else x) })
    if s.leads d then s1.shed [d] node (gib * 2 ^ 30) else s1

/-! ## Replicas that a creation loses (R162, R163, R184, R185) -/

/-- Bytes of replica reserve that this part holds, of every domain (R195). -/
def State.replicaUse (s : State) : Nat := s.replicas.foldl (fun a r => a + ((s.table? r.1).map (·.replicaBytes)).getD 0) 0

/-- A replica of these rows would pass this part's reserve (R163). -/
def State.replicaOver (s : State) (die h : Nat) (rows : List RowImage) : Bool :=
  rows.any (fun r => !s.replicas.contains (h, r.row, die))
    && decide (s.reserve < s.replicaUse + ((s.table? h).map (·.replicaBytes)).getD 0)

/-- A target has refused a replica in creation. -/
def State.replicaRefused (s : State) (h row loc : Nat) : State :=
  { s with reps := s.reps.map (fun r => if r.handle = h ∧ r.row = row then { r with targets := r.targets.filter (· != loc), full := true } else r) }

/-- The pins of a row that are in progress fail: this part's own, and those that it carries out for other members. -/
def State.pinFails (s : State) (h row status : Nat) : State :=
  let mine (j : PinJob) : Bool := j.handle == h && j.row == row
  let s1 := (s.pinJobs.filter mine).foldl (fun s j => s.write 0 j.node (.work (.pinDone h row status))) s
  let s2 : State := { s1 with pinJobs := s1.pinJobs.filter (fun j => !mine j) }
  if s2.pin.busy ∧ s2.pin.handle = h ∧ s2.pin.row = row ∧ s2.pin.outcome = 0 ∧ !s2.pin.remote then { s2 with pin := { s2.pin with outcome := status } } else s2

/-- The leader gives up the creation of a row's replicas: the home forgets it, and the targets free what they hold for it. -/
def State.giveUpCopy (s : State) (h row : Nat) (targets : List Nat) (home : Option Nat) : State :=
  let s1 : State := { s with reps := s.reps.filter (fun r => !(r.handle == h && r.row == row)) }
  let s2 := match home with
    | some l => if locNode l = s.node then s1 else s1.write 0 l (.work (.dropCopy h row))
    | none => s1
  (targets.filter (fun l => !((s.dir 0).replLocs h row).contains l)).foldl (fun s l => s.write 0 l (.work (.endMove (.row h row)))) s2

/-! ## Starting a migration (R167, R171) -/

/-- Rows stored on a die that belong to a unit, by version; RELOADABLE rows only when they are at the moving home. -/
def State.unitRows (s : State) (die : Nat) (u : MigUnit) (reload : Bool) : List RowCopy :=
  s.heap.filter (fun r => r.die == die && (s.table? r.handle).any (fun t => s.unitHolds u t r.row && (reload || !t.reloadable)))

/-- The authority's entry of a unit says that it is being copied, and the copies go to N (R167). A re-mirror copies from
the surviving home, and takes the RELOADABLE rows when the missing home is home A (R174). -/
def State.beginMove (s : State) (m : Mig) : State :=
  let die := locDie m.from_
  let s1 := s.modMig m.same (fun m => { m with st := .copying })
  let s2 : State := match m.unit with
    | .bucket n b =>
      match s.domOf n with
      | some (slot, _) => s1.setBentry die slot b { s1.bentry die slot b with st := .copying, which := m.which, new := some m.to_ }
      | none => s1
    | .row h row =>
      match s.table? h with
      | some t =>
        if ((s.dir die).place h row).isSome then s1
        else s1.modDir die (·.setOvr ⟨h, row, .moved, .copying, false, m.which, t.vmask, m.to_, 0⟩)
      | none => s1
  let kind := match m.unit with
    | .bucket _ _ => RowsKind.copy
    | .row _ _ => .moved
  (s2.unitRows die m.unit (!m.which)).foldl (fun s r => s.write die m.to_ (.rows kind r.handle r.ver [⟨r.row, r.image⟩])) s2

/-- The leader of a domain, when it is another part, is told that a move or a drain has ended. -/
def State.tellEnd (s : State) (number : Nat) (u : MigUnit) : State :=
  match (s.domOf number).bind (fun d => d.2.leader) with
  | some l => if l = s.member then s else s.write 0 (s.memberNode l) (.work (.endMove u))
  | none => s

/-- The record of a move that has not begun. -/
def State.newMig (s : State) (u : MigUnit) (isB : Bool) (from_ to_ : Nat) (remirror : Bool) : Mig :=
  ⟨s.unitDom u, u, isB, from_, to_, .resident, 0, none, [], [], none, none, remirror⟩

/-- N lacks space, or does not answer: nothing starts (R167). -/
def State.refuseMove (s : State) (m : Mig) : State :=
  (({ s with migs := s.migs.filter (fun x => !x.same m) } : State).latch Reg.PLC_STATUS 0).tellEnd m.dom m.unit

/-- Whether N, on this part, has room for a unit; the record of the move itself takes none yet. -/
def State.moveFits (s : State) (m : Mig) : Bool :=
  decide (s.unitBytes m.unit (!m.which) ≤ ({ s with migs := s.migs.filter (fun x => !x.same m) } : State).heapFree)

/-- The authority starts a move: it reserves space at N, which may be on another part, and begins the copy (R167). -/
def State.startMove (s : State) (u : MigUnit) (isB : Bool) (from_ to_ : Nat) (remirror : Bool) : State :=
  let m := s.newMig u isB from_ to_ remirror
  let s1 : State := { s with migs := s.migs ++ [m] }
  if locNode to_ = s.node then (if s.moveFits m then s1.beginMove m else s1.refuseMove m)
  else s1.write (locDie from_) to_ (.work (.takeMove u isB from_ to_ remirror))

/-- N takes a unit if it has room, and holds the space until the move ends (R151, R167). -/
def State.takeMove (s : State) (u : MigUnit) (isB : Bool) (from_ to_ : Nat) (remirror : Bool) : Nat × State :=
  let m := { s.newMig u isB from_ to_ remirror with st := .copying }
  if !s.moveFits m then (ST_TBL_NO_SPACE, s)
  else if s.migs.any m.same then (ST_OK, s)
  else (ST_OK, { s with migs := s.migs ++ [m] })

/-- N has answered: the copy begins, or the move is given up. -/
def State.moveAnswered (s : State) (u : MigUnit) (isB : Bool) (from_ to_ : Nat) (remirror : Bool) (result : Nat) : State :=
  match s.migs.find? (fun m => m.same (s.newMig u isB from_ to_ remirror) && m.st == .resident) with
  | none => s
  | some m => if result = ST_OK then s.beginMove m else s.refuseMove m

/-- The leader starts a move: at the authority, which may be on another part. -/
def State.orderMove (s : State) (u : MigUnit) (isB : Bool) (from_ to_ : Nat) (remirror : Bool) : State :=
  if locNode from_ = s.node then s.startMove u isB from_ to_ remirror
  else
    let s1 : State := { s with migs := s.migs ++ [{ s.newMig u isB from_ to_ remirror with st := .copying }] }
    s1.write 0 from_ (.work (.startMove u isB from_ to_ remirror))

/-- A new leader learns of a move that runs on another part, and writes the change of a flip that was made (R146). -/
def State.noteMove (s : State) (u : MigUnit) (isB : Bool) (from_ to_ : Nat) (remirror : Bool) (change : Option DirChange) : State :=
  let m := { s.newMig u isB from_ to_ remirror with st := if change.isSome then .draining else .copying, change := change }
  let s1 : State := if s.migs.any m.same then s else { s with migs := s.migs ++ [m] }
  match s1.domOf m.dom, change with
  | some (_, d), some c => if s1.leads d then s1.chorusAll d c else s1
  | _, _ => s1

/-- Bucket moves and row moves running in a domain, until their drain has ended (R171). -/
def State.bucketMoves (s : State) (number : Nat) : Nat :=
  (s.migs.filter (fun m => m.dom == number && m.moves && (match m.unit with | .bucket _ _ => true | .row _ _ => false))).length
def State.rowMoves (s : State) (number : Nat) : Nat :=
  (s.migs.filter (fun m => m.dom == number && m.moves && (match m.unit with | .bucket _ _ => false | .row _ _ => true))).length

def State.maxBuckets (s : State) : Nat := s.regF Reg.PLC_MIG 23 16
def State.maxRows (s : State) : Nat := s.regF Reg.PLC_MIG 31 24

/-! ## The end of a migration -/

/-- The unit's entry in the authority's copy goes back to RESIDENT; the MOVED entry of an earlier move of the row stays as it is. -/
def State.unitResident (s : State) (m : Mig) : State :=
  let die := locDie m.from_
  if locNode m.from_ ≠ s.node then s
  else
    match m.unit with
    | .bucket n b =>
      match s.domOf n with
      | some (slot, _) => s.setBentry die slot b { s.bentry die slot b with st := .resident, which := false, new := none }
      | none => s
    | .row h row => s.modDir die (fun d => { d with ovr := d.ovr.filterMap (fun o =>
        if o.handle = h ∧ o.row = row ∧ o.kind = .moved ∧ o.loc = m.to_ then
          (if o.st = .copying ∨ o.st = .inTransit then none else some { o with st := .resident }) else some o) })

/-- A migration is aborted before its flip: N's space is released (R167). -/
def State.abortMove (s : State) (m : Mig) : State :=
  let s1 := (({ s with migs := s.migs.filter (fun x => !x.same m) } : State).unitResident m)
  let s2 := if locNode m.to_ = s.node then s1.dropRows (fun r => r.die == locDie m.to_ && (s.table? r.handle).any (fun t => s.unitHolds m.unit t r.row))
    else s1.write 0 m.to_ (.work (.endMove m.unit))
  ((s2.count Reg.PLC_MIG_ABORT 1).latch Reg.PLC_STATUS 0).tellEnd m.dom m.unit

/-- The old copy of a drained unit on this part is freed with its Wings copies (R125, R167). -/
def State.freeOld (s : State) (u : MigUnit) (loc : Nat) (all : Bool) : State :=
  let die := locDie loc
  let has (h row : Nat) : Bool := (s.table? h).any (fun t => s.unitHolds u t row && (all || !t.reloadable))
  let s1 := (s.dropRows (fun r => r.die == die && has r.handle r.row)).dropWings die has
  match u with
  | .row h row => { s1 with replicas := s1.replicas.filter (fun r => !(r == (h, row, die))) }
  | .bucket _ _ => s1

/-- The drain of a unit ends (R167). A re-mirror has no old copy, but home B gives up the RELOADABLE rows it held for
home A (R174). -/
def State.endDrain (s : State) (m : Mig) : State :=
  let s1 : State := { s with migs := s.migs.filter (fun x => !x.same m) }
  let s2 := if locNode m.from_ ≠ s.node then s1.write 0 m.from_ (.work (.endMove m.unit))
    else if m.remirror then
      (if m.which then s1
       else
         let mine (h row : Nat) : Bool := (s.table? h).any (fun t => t.reloadable && s.unitHolds m.unit t row)
         (s1.dropRows (fun r => r.die == locDie m.from_ && mine r.handle r.row)).dropWings (locDie m.from_) mine)
    else s1.freeOld m.unit m.from_ true
  if m.change.isSome then
    let s3 := ((s2.unitResident m).count Reg.PLC_MIG_DONE 1).tellEnd m.dom m.unit
    if locNode m.to_ = s.node then s3 else s3.write 0 m.to_ (.work (.endMove m.unit))
  else s2.tellEnd m.dom m.unit

/-- a is at or past b as directory epochs, modulo 2^32. -/
def epochReached (a b : Nat) : Bool := decide ((a + 2 ^ 32 - b) % 2 ^ 32 < 2 ^ 31)

/-- This part is the authority of a migration, or drains replicas for a row it applies. -/
def Mig.mine (m : Mig) (node : Nat) : Bool := if m.change.isNone then locNode m.to_ == node else locNode m.from_ == node

/-- Every live GPE of a domain has reported a low-water epoch of at least E. -/
def State.drained (s : State) (d : Dom) (e : Nat) : Bool :=
  (s.domDies d).all (fun l => (d.low.lookup l).any (fun x => epochReached x e))

/-- End every drain that the low-water reports allow. -/
def State.endDrains (s : State) (slot : Nat) : State :=
  match s.doms[slot]? with
  | none => s
  | some d =>
    (s.migs.filter (fun m => m.dom == d.number && m.st == .draining && m.mine s.node && m.flipEpoch.any (s.drained d))).foldl State.endDrain s

end Sys2Proof.Machine
end

