-- ==== Sys2Proof/Machine/Placement.lean ====
section
/-! DEFINITION. The placement commands: domain registers, hot rows, balance, the steps of a migration, re-mirroring,
rejoining and pins (R142 to R197). -/
namespace Sys2Proof.Machine

/-! ## Domain registers (R144, R145, R147, R189 to R191) -/

/-- The domain slot that PLC_DOM_SEL selects. -/
def State.domSel (s : State) : Nat := s.regF Reg.PLC_DOM_SEL 2 0

/-- PLC_DOM_CFG of the selected slot. -/
def State.plcDomCfg (s : State) : Nat :=
  let d := (s.doms[s.domSel]?).getD .init
  d.number * 2 ^ 48 + d.log2 * 2 ^ 32 + b2n d.valid * 2 ^ 31 + b2n d.mismatch * 2 ^ 30
    + (if d.valid then ((d.leader.map s.memberNode).getD 0) * 2 ^ 12 + d.live.length else 0)

/-- The domain of a slot has a table on this part. -/
def State.domHeld (s : State) (d : Dom) : Bool := d.valid && s.tables.any (·.domain == d.number)

/-- Bucket-map entries that the valid slots other than k draw. -/
def State.bucketsUsed (s : State) (k : Nat) : Nat :=
  (s.doms.zipIdx.filter (fun e => e.1.valid && e.2 != k)).foldl (fun a e => a + 2 ^ e.1.log2) 0

/-- A domain register write takes effect: the slot's buckets start afresh, members already lost stay out of it, and
MISMATCH clears (R144, R150). -/
def State.setDomain (s : State) (k : Nat) (d : Dom) : State :=
  let lost := d.memberList.filter (fun m => s.ras.lostNodes.contains (s.memberNode m))
  let s1 := s.modDom k (fun _ => { d with mismatch := false, excluded := lost, rejoined := [], low := [], loads := [], heat := [] })
  { s1 with dirs := s1.dirs.map (fun x => { x with buckets := x.buckets.filter (fun e => e.1.1 != k) }) }

/-- PLC_DOM_CFG_WRITE: its table drops a write whole, by the values written and held (R190). -/
def execPlcDomCfgWrite (a : Access) (s : State) : Outcome State Fault Refusal :=
  .next (s.whenOn a Reg.PLC_DOM_CFG fun s =>
    let k := s.domSel
    let d := (s.doms[k]?).getD .init
    let v := intoReg a Reg.PLC_DOM_CFG s.plcDomCfg
    let new : Dom := { d with number := fld v 63 48, log2 := fld v 36 32, valid := v.testBit 31 }
    if s.domHeld d ∨ (new.valid ∧ (new.log2 < 14 ∨ 18 < new.log2 ∨ 2 ^ 18 < s.bucketsUsed k + 2 ^ new.log2)) then
      s.latch Reg.PLC_STATUS 4
    else s.setDomain k new)

/-- PLC_DOM_MEMBERS j of the selected slot. -/
def State.plcDomMembers (s : State) (j : Nat) : Nat := ((s.doms[s.domSel]?).getD .init).members.toNat / 2 ^ (64 * j) % 2 ^ 64

/-- A write of PLC_DOM_MEMBERS j, or of a half of it. -/
def State.writeMembers (j : Nat) (a : Access) (s : State) : State :=
  let k := s.domSel
  let d := (s.doms[k]?).getD .init
  let v := intoReg a (Reg.PLC_DOM_MEMBERS j) (s.plcDomMembers j)
  if s.domHeld d then s.latch Reg.PLC_STATUS 4
  else s.setDomain k { d with members := BitVec.ofNat 256 (putFld d.members.toNat (64 * j + 63) (64 * j) v) }

/-- PLC_DOM_MEMBERS_WRITE. -/
def execPlcDomMembersWrite (a : Access) (s : State) : Outcome State Fault Refusal :=
  let j := (a.off - Reg.PLC_DOM_MEMBERS 0) / 8 % 4
  .next (s.whenOn a (Reg.PLC_DOM_MEMBERS j) (byWords (State.writeMembers j) a))

/-! ## Hot rows (R160, R161, R195) -/

def State.hotMrps (s : State) : Nat := s.regF Reg.PLC_HOT 15 0 * 1000000
def State.hotDelta (s : State) : Nat := s.regF Reg.PLC_HOT 31 16 * 1000
def State.hotPeriodUs (s : State) : Nat := s.regF Reg.PLC_HOT 63 48

/-- Candidate rows per domain. -/
abbrev candidates : Nat := 65536

/-- Add one report to the merged rates; once 65,536 rows are candidates, the rows met first stay (log entry 77). -/
def mergeHeat (l : List HeatRow) (r : HeatRow) : List HeatRow :=
  if l.any (fun x => x.handle == r.handle && x.row == r.row) then
    l.map (fun x => if x.handle = r.handle ∧ x.row = r.row then { x with reads := x.reads + r.reads, deltas := x.deltas + r.deltas } else x)
  else if l.length < candidates then l ++ [r] else l

/-- This part's own rates over the period, for the rows of a domain. -/
def State.ownHeat (s : State) (number : Nat) : List HeatRow :=
  let per := max 1 s.hotPeriodUs
  (s.gpes.flatMap (·.heat)).filterMap (fun e =>
    let (h, row, reads, deltas) := e
    if (s.table? h).any (·.domain == number) then some ⟨h, row, reads * 1000000 / per, deltas * 1000000 / per⟩ else none)

/-- This part's own die loads over the period. -/
def State.ownLoads (s : State) : List DieLoad :=
  (List.range 8).map (fun c => ⟨s.loc c, ((s.gpes[c]?).map (·.load)).getD 0, s.heapFree, s.reserve⟩)

/-- The least power of two c with (2 + c) × HOT ≥ r, up to 64. -/
def replicaCount (hot r : Nat) : Nat := ((List.range 7).map (2 ^ ·)).find? (fun c => decide (r ≤ (2 + c) * hot)) |>.getD 64

/-- Dies to which a home of a row may move: none that holds a copy of it or is to, none on the part of the home that stays, and
with room (R155, R160, R593). -/
def State.homeCands (s : State) (d : Dom) (t : Table) (row : Nat) (stays : Option Nat) : List Nat :=
  let copies := s.copies 0 t t.vslot row
  (s.domDies d).filter (fun l => !copies.contains l && !stays.any (fun o => locNode o == locNode l)
    && !(s.avoid (.row t.handle row)).contains l && s.roomAt d l t.replicaBytes)

/-- The leader moves a home of a row, as a row move, unless the entry finds no way in its set (R156): the copy comes from
`src`, and the home on die `own` goes to the least loaded of the candidates. -/
def State.moveRow (s : State) (d : Dom) (t : Table) (row : Nat) (isB : Bool) (src own : Nat) (cands : List Nat) (fresh : Bool) : State :=
  match leastBy (s.dieLoad d) cands with
  | none => s
  | some n =>
    if n = own then s
    else if s.dirFull t.handle row false then (s.count Reg.PLC_OVR_REFUSED 1).latch Reg.PLC_STATUS 1
    else s.orderMove (.row t.handle row) isB src n fresh

/-- The leader moves home A of an update-hot row to the least loaded die that a home of it may lie on (R160, R593). -/
def State.moveHot (s : State) (d : Dom) (t : Table) (row : Nat) : State :=
  match s.rowHomes 0 t t.vslot row with
  | (none, _) => s
  | (some a, other) => s.moveRow d t row false a a (a :: s.homeCands d t row other) false

/-- The leader moves the home of a row that failed on a die, copying from the other home, while fewer than MAX_ROWS row moves run
(R171, R476). -/
def State.moveFailed (s : State) (d : Dom) (t : Table) (row own : Nat) : State :=
  let (a, b) := s.rowHomes 0 t t.vslot row
  match (if a = some own then b else if b = some own then a else none) with
  | none => s
  | some o =>
    if s.rowMoving t row ∨ s.maxRows ≤ s.rowMoves d.number then s
    else s.moveRow d t row (b == some own) o own (s.homeCands d t row (some o)) true

/-- The leader hears that the home of a row has failed on a die. -/
def State.rowFailed (s : State) (h row own : Nat) : State :=
  match (s.table? h).bind (fun t => (s.tableDom t).map (fun e => (t, e.2))) with
  | none => s
  | some (t, d) => if s.leads d then s.moveFailed d t row own else s

/-- What the leader does with one candidate row (R160). An update-hot row that has replicas loses them first, and moves
once they have drained; while AUTO_REPLICA is 0 it keeps them and moves with them. An entry replaces one home of its row, so a
row whose entry replaces home B does not move its home A (R154). -/
def State.heatRow (s : State) (slot : Nat) (r : HeatRow) : State :=
  match s.doms[slot]?, s.table? r.handle with
  | some d, some t =>
    let repl := (s.dir 0).repl r.handle r.row
    let cur := (s.dir 0).place r.handle r.row
    let busy := s.migs.any (fun m => s.unitHolds m.unit t r.row) || s.reps.any (fun x => x.handle == r.handle && x.row == r.row)
      || s.changePending (fun c => changeRow c == some (r.handle, r.row))
    if repl.any (·.pin) ∨ cur.any (·.pin) ∨ busy ∨ t.rows ≤ r.row ∨ r.reads ≤ s.hotMrps then s
    else if r.deltas ≤ s.hotDelta then
      let c := min (replicaCount s.hotMrps r.reads) t.maxReplicas
      if !s.regB Reg.PLC_CTL 31 ∨ c = 0 then s else (s.replicate d t r.row c false).2
    else if repl.isSome ∧ s.regB Reg.PLC_CTL 31 then s.chorusAll d (.clearReplica r.handle r.row)
    else if !s.regB Reg.PLC_CTL 30 ∨ t.noMove ∨ s.maxRows ≤ s.rowMoves d.number ∨ cur.any (·.which) then s
    else s.moveHot d t r.row
  | _, _ => s

/-- Replicated rows that stay cool for eight periods lose their replicas (R160). -/
def State.coolRows (s : State) (slot : Nat) : State :=
  match s.doms[slot]? with
  | none => s
  | some d =>
    let mine := (s.dir 0).ovr.filter (fun o => o.kind == .replica && !o.pin && (s.table? o.handle).any (·.domain == d.number))
    mine.foldl (fun s o =>
      let rate := ((d.heat.find? (fun r => r.handle == o.handle && r.row == o.row)).map (·.reads)).getD 0
      let n := ((s.cool.find? (fun c => c.1 == o.handle && c.2.1 == o.row)).map (·.2.2)).getD 0
      let rest := s.cool.filter (fun c => !(c.1 == o.handle && c.2.1 == o.row))
      if s.hotMrps ≤ 4 * rate then { s with cool := rest }
      else if 7 ≤ n then ({ s with cool := rest } : State).chorusAll d (.clearReplica o.handle o.row)
      else { s with cool := rest ++ [(o.handle, o.row, n + 1)] }) s

/-- What the leader of a slot does with the reports of a period; every other member keeps the loads, so that it may lead (R146,
R593). -/
def State.hotSlot (s : State) (slot : Nat) (rows : List HeatRow) (loads : List DieLoad) : State :=
  match s.doms[slot]? with
  | none => s
  | some d =>
    let others := loads.filter (fun l => locNode l.loc != s.node)
    if !(d.valid && s.leads d) then (if d.valid then s.modDom slot (fun d => { d with loads := s.ownLoads ++ others }) else s)
    else
      let heat := (s.ownHeat d.number ++ rows).foldl mergeHeat []
      let s1 := s.modDom slot (fun d => { d with heat := heat, loads := s.ownLoads ++ others })
      heat.foldl (fun s r => s.heatRow slot r) (s1.coolRows slot)

/-- HOT_PERIOD: PLC_DIE_LOAD takes the period's owner reads, the counters start again, and the slots that this part
leads act on their members' reports. -/
def execHotPeriod (reports : List (Nat × List HeatRow × List DieLoad)) (s : State) : Outcome State Fault Refusal :=
  .next (s.whenServing fun s =>
    if !(s.gpes.head?).all (fun g => s.elapsed g.hotAt (us (s.regF Reg.PLC_HOT 63 48))) then s
    else
      let s1 := (List.range 8).foldl (fun s c => s.setRegN (Reg.PLC_DIE_LOAD c) (((s.gpes[c]?).map (·.load)).getD 0)) s
      let s2 := reports.foldl (fun s r => s.hotSlot r.1 r.2.1 r.2.2) s1
      { s2 with gpes := s2.gpes.map (fun g => { g with load := 0, heat := [], hotAt := some s.time.gtime }) })

/-- The leader writes the entry of replicas that every target holds (R162), unless a pin has taken the row meanwhile, or the
reserve of some part had no room for a pinned one or for any of them (R163, R184, R185). -/
def State.landCopied (s : State) (h row vmask : Nat) (targets : List Nat) (pin full : Bool) : State :=
  match (s.table? h).bind s.tableDom with
  | none => s
  | some (_, d) =>
    let isHeld := ((s.dir 0).place h row).any (·.kind == .held) || s.changePending (fun c => match c with
      | .held x y _ => x == h && y == row
      | _ => false)
    let s1 := if full then s.latch Reg.PLC_STATUS 2 else s
    if !s.leads d then s
    else if isHeld ∧ !pin then s1.giveUpCopy h row targets none
    else if pin ∧ full then (s1.giveUpCopy h row targets none).pinFails h row ST_PLC_REPLICA_FULL
    else if targets.isEmpty then s1.giveUpCopy h row [] none
    else
      ({ s1 with reps := s1.reps.map (fun x => if x.handle = h ∧ x.row = row then { x with told := true } else x) } : State).chorusAll d
        (.replica h row vmask targets pin)

/-- REPLICA_COPY_CONFIRMED: every target holds the row; the leader writes the entry, or is told to by the home, which then
forgets a creation that has come to nothing (R162). -/
def execReplicaCopyConfirmed (h row : Nat) (s : State) : Outcome State Fault Refusal :=
  .next (s.whenServing fun s =>
    match s.reps.find? (fun r => r.handle == h && r.row == row && !r.told && locNode r.home == s.node), s.table? h with
    | some r, some t =>
      let copying := s.link.pend.any (fun e => r.targets.contains e.p.dst && (match e.p.body with
        | .rows .replica x _ l => x == h && l.any (·.row == row)
        | _ => false))
      match s.tableDom t with
      | some (_, d) =>
        if copying then s
        else if s.leads d then s.landCopied h row r.vmask r.targets r.pin r.full
        else match d.leader with
          | none => s
          | some l =>
            let gone := r.targets.isEmpty || (r.pin && r.full)
            let s1 : State := { s with reps := s.reps.filterMap (fun x =>
              if x.handle = h ∧ x.row = row then (if gone then none else some { x with told := true }) else some x) }
            s1.write 0 (s.memberNode l) (.work (.copied h row r.vmask r.targets r.pin r.full))
      | none => s
    | _, _ => s)

/-- Domains this part leads. -/
def State.led (s : State) : List Dom := s.doms.filter (fun d => d.valid && s.leads d)

/-- PLC_CTL takes a written value; a reserve below the use is shed by the leader of each domain (R163, R186). -/
def State.writePlcCtl (s : State) (v : Nat) : State :=
  let s1 := s.setRegN Reg.PLC_CTL (putFld (fld v 7 0) 31 29 (fld v 31 29))
  let gib := fld v 7 0
  if gib * 2 ^ 30 < s1.reserveUse s.node then
    (s1.doms.filter (fun d => d.valid && !s1.leads d)).foldl (fun s d =>
      match d.leader with
        | some l => s.write 0 (s.memberNode l) (.work (.reserve d.number s.node gib))
        | none => s) (s1.shed s1.led s.node (gib * 2 ^ 30))
  else s1

/-- REPLICA_RESERVE_LOWERED: a write of PLC_CTL. -/
def execReplicaReserveLowered (v : BitVec 32) (s : State) : Outcome State Fault Refusal :=
  .next (s.whenOpen fun s => s.writePlcCtl v.toNat)

/-! ## Balance (R172) -/

/-- Homes of a bucket on a die: `false` for home A, `true` for home B. -/
def BEntry.homeAt (e : BEntry) (l : Nat) : Option Bool :=
  if e.homeA = some l then some false else if e.homeB = some l then some true else none

/-- Homes that a node holds in a slot, and all homes of it. -/
def State.homesHeld (s : State) (slot : Nat) (d : Dom) (p : Nat → Bool) : Nat :=
  ((List.range (2 ^ d.log2)).map (fun b => ((s.bentry 0 slot b).homes.filter (fun l => p (locNode l))).length)).sum

/-- A rejoined part is being filled until it holds its share of the homes (R176; log entry 78). -/
def State.filling (s : State) (slot : Nat) (d : Dom) (m : Nat) : Bool :=
  decide (s.homesHeld slot d (· == s.memberNode m) * d.live.length < s.homesHeld slot d (fun _ => true))

/-- A bucket has a row that is pinned in place (R184), or one of whose homes awaits its copy. -/
def State.bucketHeld (s : State) (number b : Nat) : Bool :=
  (s.dir 0).refill.any (fun r => (s.table? r.1).any (fun t => s.unitHolds (.bucket number b) t r.2.1)) ||
  (s.dir 0).ovr.any (fun o => (o.kind == .held || (o.kind == .moved && o.pin)) && (s.table? o.handle).any (fun t => s.unitHolds (.bucket number b) t o.row))

/-- Where the home of a bucket on die x may move: to the least loaded die that is allowed, has room, is on another part
than the other home, and holds no other copy of the bucket's rows (R155, R172, R593). -/
def State.balanceTo (s : State) (slot : Nat) (d : Dom) (x : Nat) (may : Nat → Bool) (b : Nat) : Option (Nat × Nat) :=
  let e := s.bentry 0 slot b
  let u := MigUnit.bucket d.number b
  let isB := (e.homeAt x).getD false
  let other := if isB then e.homeA else e.homeB
  let need := s.unitBytes u (!isB)
  let cands := (s.domDies d).filter (fun l => l != x && may l && !(other.any (fun o => locNode o == locNode l))
    && !(s.avoid u).contains l && s.roomAt d l need)
  (leastBy (s.dieLoad d) cands).map (b, ·)

/-- A balance move from die x: the busiest bucket of it that is not moving, holds no pinned row and has somewhere to go.
The estimate of what the die still carries follows the move; which dies are over the limit and which are least loaded go by the last
period (R593). -/
def State.balanceStep (s : State) (slot : Nat) (d : Dom) (x : Nat) (may : Nat → Bool) (est buckets : List (Nat × Nat)) :
    Option (State × List (Nat × Nat)) :=
  let load (l : Nat) : Nat := keyGet 0 est l
  let mine := (buckets.filter (fun b => ((s.bentry 0 slot b.1).homeAt x).isSome && !s.moving (.bucket d.number b.1)
    && !s.bucketHeld d.number b.1)).map (·.1)
  ((sortBy (fun b => 2 ^ 64 - keyGet 0 buckets b) mine).findSome? (s.balanceTo slot d x may)).map (fun (b, n) =>
    let isB := ((s.bentry 0 slot b).homeAt x).getD false
    let w := keyGet 0 buckets b
    (s.orderMove (.bucket d.number b) isB x n false, keyPut est x (load x - w)))

/-- Balance moves from die x until it is within the limit or the move limit is reached. -/
def State.balanceDie (s : State) (slot : Nat) (d : Dom) (x total n : Nat) (may : Nat → Bool) (buckets est : List (Nat × Nat)) :
    Nat → State × List (Nat × Nat)
  | 0 => (s, est)
  | fuel + 1 =>
    if keyGet 0 est x * n * 100 ≤ total * (100 + s.regF Reg.PLC_BAL 31 24) ∨ s.maxBuckets ≤ s.bucketMoves d.number then (s, est)
    else
      match s.balanceStep slot d x may est buckets with
      | none => (s, est)
      | some (s1, est1) => State.balanceDie s1 slot d x total n may buckets est1 fuel

/-- PLC_BAL.PERIOD_US in ticks. -/
def State.balTicks (s : State) : Nat := us (s.regF Reg.PLC_BAL 23 0)

/-- The domain with the reports of its members: loads of the last period for this part's own dies, others as reported. -/
def State.withLoads (s : State) (d : Dom) (loads : List DieLoad) : Dom :=
  { d with loads := s.ownLoads.map (fun l => { l with load := s.dieLoad d l.loc }) ++ loads.filter (fun l => locNode l.loc != s.node) }

/-- BALANCE_CHECK. While AUTO_BALANCE is 0 only a rejoined part that is being filled takes buckets (R172). -/
def execBalanceCheck (slot : Nat) (loads : List DieLoad) (buckets : List (Nat × Nat)) (s : State) : Outcome State Fault Refusal :=
  .next (s.whenServing fun s =>
    match s.doms[slot]? with
    | none => s
    | some d =>
      if !(d.valid && s.leads d && s.elapsed d.balAt s.balTicks) then s
      else
        let d1 := { s.withLoads d loads with balAt := some s.time.gtime, rejoined := d.rejoined.filter (s.filling slot d) }
        let auto := s.regB Reg.PLC_CTL 29
        let may (l : Nat) : Bool := auto || d1.rejoined.any (fun m => s.memberNode m == locNode l)
        let dies := s.domDies d1
        let est := dies.map (fun l => (l, s.dieLoad d1 l))
        let total := est.foldl (fun a e => a + e.2) 0
        let run (acc : State × List (Nat × Nat)) (x : Nat) : State × List (Nat × Nat) :=
          State.balanceDie acc.1 slot d1 x total dies.length may buckets acc.2 256
        (dies.foldl run (s.modDom slot (fun _ => d1), est)).1)

/-! ## The steps of a migration (R166 to R169) -/

/-- The migration of a unit that this part is the authority of. -/
def State.ownMig (s : State) (u : MigUnit) (st : MState) : Option Mig :=
  s.migs.find? (fun m => m.unit == u && m.st == st && locNode m.from_ == s.node)

/-- A write towards N that is not acknowledged: the copy itself, or a forward. -/
def State.unackedTo (s : State) (t : MigUnit) (n : Nat) (copy : Bool) : List Nat :=
  (s.link.pend.filter (fun e => e.p.dst == n && (match e.p.body with
    | .rows .copy h _ l => copy && l.any (fun r => (s.table? h).any (fun x => s.unitHolds t x r.row))
    | .rows .moved h _ l => copy && l.any (fun r => (s.table? h).any (fun x => s.unitHolds t x r.row))
    | .forward f => !copy && (s.table? f.handle).any (fun x => s.unitHolds t x f.row)
    | .rows _ h _ l => !copy && l.any (fun r => (s.table? h).any (fun x => s.unitHolds t x r.row))
    | _ => false))).map (·.p.tag)

/-- The authority's entry of a unit takes a state; the MOVED entry of an earlier move of the row stays in force until the flip. -/
def State.unitState (s : State) (m : Mig) (st : MState) : State :=
  let die := locDie m.from_
  match m.unit with
  | .bucket n b =>
    match s.domOf n with
    | some (slot, _) => s.setBentry die slot b { s.bentry die slot b with st := st }
    | none => s
  | .row h row => s.modDir die (fun d => { d with ovr := d.ovr.map (fun o =>
      if o.handle = h ∧ o.row = row ∧ o.kind = .moved ∧ o.loc = m.to_ then { o with st := st } else o) })

/-- COPY_CONFIRMED: the unit enters IN_TRANSIT with a 5 µs hold timer. -/
def execCopyConfirmed (u : MigUnit) (s : State) : Outcome State Fault Refusal :=
  .next (s.whenServing fun s =>
    match s.ownMig u .copying with
    | none => s
    | some m =>
      if !(s.unackedTo u m.to_ true).isEmpty then s
      else
        let fwd := s.unackedTo u m.to_ false
        (s.unitState m .inTransit).modMig (· == m) (fun m => { m with st := .inTransit, holdUntil := some (s.time.gtime + 20000), fwd := fwd }))

/-- The change of the flip: a home, or the row's MOVED entry. -/
def State.flipChange (s : State) (m : Mig) : DirChange :=
  match m.unit with
  | .bucket n b => .setHome n b m.which m.to_
  | .row h row => .moved h row m.to_ (((s.table? h).map (·.vmask)).getD 0) m.which

/-- A held write goes to N, which answers for it; its sender is answered then (R167). -/
def State.sendHeld (s : State) (die n : Nat) (w : HeldWrite) : State :=
  let go (h : WriteHdr) (body : Payload) : State :=
    match s.sendNamed die n body with
    | (some x, s1) => s1.owe ⟨h, 0, [x], none, []⟩
    | (none, s1) => s1.pay ⟨h, ST_LNK_NO_ROUTE, [], none, []⟩
  match w with
  | .delta h r => go h (.delta r)
  | .forward h f => go h (.forward f)
  | .rows h k hd v l => go h (.rows k hd v l)

/-- Units that one die may have in DRAINING (R152). -/
abbrev drainTable : Nat := 4096

/-- The drain table of a die is full. -/
def State.drainFull (s : State) (loc : Nat) : Bool :=
  decide (drainTable ≤ (s.migs.filter (fun m => m.st == .draining && m.from_ == loc)).length)

/-- FLIP_ACKNOWLEDGED: every directory copy has acknowledged a flip, as the leader who wrote it sees; the flip epoch is the
next epoch that it has not announced, and goes to every copy with the authority (R169). -/
def execFlipAcknowledged (u : MigUnit) (s : State) : Outcome State Fault Refusal :=
  .next (s.whenServing fun s =>
    let waits (m : Mig) : Bool := m.unit == u && m.st == .draining && m.flipEpoch.isNone
    let pending := s.changePending (fun c => s.migs.any (fun m => waits m && m.change == some c) ||
      (match u, c with
       | _, .flipEpoch x _ => x == u
       | .row h row, c => changeRow c == some (h, row)
       | .bucket _ _, _ => false))
    match s.domOf (s.unitDom u) with
    | none => s
    | some (_, d) =>
      if pending ∨ !s.leads d ∨ !s.migs.any waits then s
      else s.chorusAll d (.flipEpoch u ((d.epoch + 1) % 2 ^ 32)))

/-- EPOCH_ADVANCE: the leader announces the next epoch to every GPE (R169). -/
def execEpochAdvance (slot : Nat) (s : State) : Outcome State Fault Refusal :=
  .next (s.whenServing fun s =>
    match s.doms[slot]? with
    | none => s
    | some d =>
      if !(d.valid && s.leads d && s.elapsed d.epochAt (us 10)) then s
      else
        let e := (d.epoch + 1) % 2 ^ 32
        (s.modDom slot (fun d => { d with epoch := e, epochAt := some s.time.gtime })).chorusAll d (.epoch d.number e))

/-- The low-water of one of this part's GPEs: the oldest tag in flight, or the current epoch (R169). -/
def State.lowWater (s : State) (slot die : Nat) : Nat :=
  let cur := keyGet 0 (s.dir die).epochs slot
  let number := ((s.doms[slot]?).getD .init).number
  let mine (h : Nat) : Bool := (s.table? h).any (·.domain == number)
  let tags := (((s.gpes[die]?).map (·.ops)).getD []).filterMap (fun o => if o.abandoned.isNone && mine o.handle then some o.epoch else none)
    ++ (s.strms.flatMap (·.flight)).filterMap (fun f => if mine f.handle then some f.epoch else none)
  tags.foldl (fun m e => if epochReached m e then e else m) cur

/-- A low-water report is taken, and the drains that it lets end do. -/
def State.noteLow (s : State) (slot loc epoch : Nat) : State :=
  (s.modDom slot (fun d => { d with low := keyPut d.low loc epoch })).endDrains slot

/-- LOW_WATER_REPORT: a GPE of this part reports what it has in flight, to every live member; another part's report
arrives. -/
def execLowWaterReport (slot loc epoch : Nat) (s : State) : Outcome State Fault Refusal :=
  .next (s.whenServing fun s =>
    match s.doms[slot]? with
    | none => s
    | some d =>
      if !d.valid ∨ !(s.domDies d).contains loc then s
      else if locNode loc = s.node then
        let last := ((s.gpes[locDie loc]?).bind (fun g => g.lowAt.find? (·.1 == slot))).map (·.2)
        if !s.elapsed last (us 10) then s
        else
          let e := s.lowWater slot (locDie loc)
          let s1 : State := { s with gpes := listMod s.gpes (locDie loc) (fun g => { g with lowAt := keyPut g.lowAt slot s.time.gtime }) }
          ((s1.workAll d (.lowWater d.number loc e) none).2).noteLow slot loc e
      else s.noteLow slot loc epoch)

/-! ## Re-mirroring and rejoining (R174, R176) -/

/-- Buckets of a slot with one home. -/
def State.halfBuckets (s : State) (slot : Nat) : List (Nat × BEntry) :=
  ((s.dir 0).buckets.filter (fun e => e.1.1 == slot && (e.2.homeA.isSome != e.2.homeB.isSome))).map (fun e => (e.1.2, e.2))

/-- A directory change is written to every copy of a domain, and lands in the leader's copy of CD0 at once. -/
def State.putDir (s : State) (d : Dom) (c : DirChange) : State :=
  ((s.chorusDests d).filter (· != s.loc 0)).foldl (fun s x => s.write 0 x (.chorus (.dir c))) (s.applyDir 0 c)

/-- The leader gives a bucket that has lost every home a new home A on the least loaded die with space. With no space
anywhere the bucket stays without a home, and it is tried again with the re-mirrors (R174, R175; log entry 79). Answers
whether there was no space. -/
def State.rehome (s : State) (d : Dom) (b : Nat) : Bool × State :=
  let u := MigUnit.bucket d.number b
  match leastBy (s.dieLoad d) ((s.domDies d).filter (fun l => !(s.avoid u).contains l && s.roomAt d l (s.unitBytes u true))) with
  | none => (true, s)
  | some l => (false, s.putDir d (.setHome d.number b false l))

/-- Buckets of a slot without a home. -/
def State.bareBuckets (s : State) (slot : Nat) : List Nat :=
  ((s.dir 0).buckets.filter (fun e => e.1.1 == slot && e.2.homes.isEmpty)).map (·.1.2)

/-- Re-mirror one bucket (R174); a part that is being filled is preferred (R176). Answers whether it found no
space. -/
def State.remirrorOne (s : State) (slot : Nat) (d : Dom) (b : Nat) (e : BEntry) : Bool × State :=
  let u := MigUnit.bucket d.number b
  if s.moving u ∨ s.maxBuckets ≤ s.bucketMoves d.number then (false, s)
  else
    match e.homes with
    | [home] =>
      let isB := e.homeB.isNone
      let need := s.unitBytes u (!isB)
      let cands := (s.domDies d).filter (fun l => locNode l != locNode home && !(s.avoid u).contains l && s.roomAt d l need)
      let new (l : Nat) : Bool := d.rejoined.any (fun m => s.memberNode m == locNode l && s.filling slot d m)
      match (leastBy (s.dieLoad d) (cands.filter new)).or (leastBy (s.dieLoad d) cands) with
      | none => (true, s)
      | some n => (false, s.orderMove u isB home n true)
    | _ => (false, s)

/-- The leader gives the buckets of a slot that have no home one, and re-mirrors those that have one. -/
def State.remirror (s : State) (slot : Nat) : State :=
  match s.doms[slot]? with
  | none => s
  | some d =>
    let r0 := (s.bareBuckets slot).foldl (fun (acc : Bool × State) b =>
      let (full, s1) := acc.2.rehome d b
      (acc.1 || full, s1)) (false, s)
    let r := (r0.2.halfBuckets slot).foldl (fun (acc : Bool × State) be =>
      let (full, s1) := acc.2.remirrorOne slot d be.1 be.2
      (acc.1 || full, s1)) r0
    if r.1 then r.2.latch Reg.PLC_STATUS 3 else r.2

/-- REMIRROR_RETRY. -/
def execRemirrorRetry (slot : Nat) (loads : List DieLoad) (s : State) : Outcome State Fault Refusal :=
  .next (s.whenServing fun s =>
    match s.doms[slot]? with
    | none => s
    | some d =>
      if !(d.valid && s.leads d && s.elapsed d.mirrorAt s.balTicks) then s
      else
        let d1 := { s.withLoads d loads with mirrorAt := some s.time.gtime }
        (s.modDom slot (fun _ => d1)).remirror slot)

/-- What the leader hands to a part that it admits. -/
def State.welcomeOf (s : State) (slot : Nat) (d : Dom) : Welcome :=
  let mine (h : Nat) : Bool := (s.table? h).any (·.domain == d.number)
  { dom := d.number
    buckets := ((s.dir 0).buckets.filter (·.1.1 == slot)).map (fun e => (e.1.2, { e.2 with st := .resident, which := false, new := none }))
    ovr := (s.dir 0).ovr.filter (fun o => mine o.handle && o.st != .copying && o.st != .inTransit)
    sets := (s.dir 0).sets
    tables := (s.tables.filter (·.domain == d.number)).map (fun t => { t with versions := t.versions.map (fun v => { v with refs := 0, zero := [] }) })
    lost := s.lostRows.filter (·.slot == slot)
    excluded := d.excluded
    rejoined := d.rejoined
    epoch := d.epoch }

/-- A part that rejoins takes the tables of the domain and their directory from the leader; it holds no home (R176). -/
def State.landWelcome (s : State) (w : Welcome) : State :=
  match s.domOf w.dom with
  | none => s
  | some (slot, _) =>
    let mine (h : Nat) : Bool := w.tables.any (·.handle == h)
    let s1 := s.modDom slot (fun d => { d with excluded := w.excluded, rejoined := w.rejoined, epoch := w.epoch })
    let put (x : Dir) (o : Ovr) : Dir :=
      if o.kind = .replica then x.setRepl o.handle o.row o.vmask ((w.sets.lookup o.loc).getD []) o.pin else x.setOvr { o with st := .resident }
    { s1 with
      tables := s1.tables.filter (fun t => t.domain != w.dom) ++ w.tables
      lostRows := s1.lostRows.filter (fun l => !mine l.handle) ++ w.lost.map (fun l => { l with slot := slot })
      dirs := s1.dirs.map (fun x => w.ovr.foldl put ({ x with
        buckets := x.buckets.filter (fun e => e.1.1 != slot) ++ w.buckets.map (fun e => ((slot, e.1), e.2))
        ovr := x.ovr.filter (fun o => !mine o.handle)
        epochs := keyPut x.epochs slot w.epoch } : Dir).prune) }

/-- REJOIN: the leader admits a part that takes a lost member's index and configures the same slot values, by its digest
(R144, R176). -/
def execRejoin (slot : Nat) (m : Joining) (s : State) : Outcome State Fault Refusal :=
  .next (s.whenServing fun s =>
    match s.doms[slot]? with
    | none => s
    | some d =>
      if !(d.valid && s.leads d && d.excluded.contains m.member)
        ∨ m.digest ≠ Config.domainDigest d.number d.log2 d.members.toNat then s
      else
        let s1 := s.applyDir 0 (.rejoin d.number m.member)
        let d1 := (s1.doms[slot]?).getD d
        (s1.chorusAll d1 (.rejoin d.number m.member)).write 0 (s.memberNode m.member) (.work (.welcome (s1.welcomeOf slot d1))))

/-! ## Pins (R184, R185, R192) -/

/-- The leader carries out a pin: 0, or the status with which it fails. A hold, and an unpin of a pinned row, ends a creation of
replicas of the row that runs; the pin that asked for it fails with ST_PLC_PIN_BUSY (DESIGN CHOICE, log entry 93). -/
def State.leaderPin (s : State) (op h row copies : Nat) : Nat × State :=
  match s.table? h with
  | none => (ST_PLC_PIN_ARG, s)
  | some t =>
    match s.tableDom t with
    | none => (ST_PLC_PIN_ARG, s)
    | some (_, d) =>
      let repl := (s.dir 0).repl h row
      let cur := (s.dir 0).place h row
      if t.rows ≤ row ∨ (op = 1 ∧ (copies = 0 ∨ 64 < copies ∨ t.maxReplicas < copies)) then (ST_PLC_PIN_ARG, s)
      else if s.rowMoving t row then (ST_PLC_PIN_BUSY, s)
      else
        let job := s.reps.find? (fun r => r.handle == h && r.row == row && (op == 2 || (op == 3 && r.pin)))
        let s := match job with
          | some j => let s1 := s.giveUpCopy h row j.targets (some j.home)
            if j.pin then s1.pinFails h row ST_PLC_PIN_BUSY else s1
          | none => s
        match op with
        | 1 => s.replicate d t row copies true
        | 2 =>
          if s.dirFull h row false then (ST_PLC_DIR_FULL, s.latch Reg.PLC_STATUS 1)
          else (ST_OK, s.chorusAll d (.held h row 15))
        | _ =>
          let hot := d.heat.any (fun r => r.handle == h && r.row == row && decide (s.hotMrps < r.reads) && decide (r.deltas ≤ s.hotDelta))
          let s1 := if repl.any (·.pin) ∧ !hot then s.chorusAll d (.clearReplica h row) else s
          let s2 := if cur.any (fun o => o.kind == .held) then s1.chorusAll d (.clearHeld h row) else s1
          (ST_OK, if (repl.any (·.pin) && hot) || cur.any (fun o => o.kind == .moved && o.pin) then s2.chorusAll d (.pinned h row false) else s2)

/-- A pin command is issued on this part and carried to the leader; one that cannot be sent fails with the status of its
packet. A write while BUSY is dropped. -/
def State.issuePin (s : State) (op : Nat) (v : BitVec 32) : State :=
  if s.pin.busy ∨ fld v.toNat 1 0 ≠ op then s
  else
    let h := s.regF Reg.PLC_PIN_ROW 15 0
    let row := s.regF Reg.PLC_PIN_ROW 55 16
    let c := fld v.toNat 13 8
    let copies := if c = 0 then 64 else c
    let s1 : State := { s with pin := { s.pin with busy := true, op := op, handle := h, row := row, copies := copies, outcome := 0, remote := false } }
    let ends (s : State) (st : Nat) : State := { s with pin := { s.pin with outcome := st } }
    match (s1.table? h).bind s1.tableDom with
    | none => ends s1 ST_PLC_PIN_ARG
    | some (_, d) =>
      if s1.leads d then
        let (st, s2) := s1.leaderPin op h row copies
        ends s2 st
      else
        match d.leader with
        | some l =>
          let (st, s2) := s1.sendWrite 0 (s1.memberNode l) (.work (.pin op h row copies)) none none
          ends { s2 with pin := { s2.pin with remote := true } } st
        | none => s1

/-- The leader takes a pin from another member: it fails at once, or its end is reported once it has flipped. -/
def State.remotePin (s : State) (node op h row copies : Nat) : Nat × State :=
  let (st, s1) := s.leaderPin op h row copies
  if st = ST_OK then (ST_OK, { s1 with pinJobs := s1.pinJobs ++ [⟨node, h, row⟩] }) else (st, s1)

/-- The leader says that a pin is done. -/
def State.pinDone (s : State) (h row status : Nat) : State :=
  if s.pin.busy ∧ s.pin.handle = h ∧ s.pin.row = row ∧ s.pin.outcome = 0 then
    { s with pin := { s.pin with outcome := status, remote := false } }
  else s

/-- PIN_REPLICATE. -/
def execPinReplicate (v : BitVec 32) (s : State) : Outcome State Fault Refusal := .next (s.whenOpen (·.issuePin 1 v))

/-- PIN_HOLD. -/
def execPinHold (v : BitVec 32) (s : State) : Outcome State Fault Refusal := .next (s.whenOpen (·.issuePin 2 v))

/-- UNPIN. -/
def execUnpin (v : BitVec 32) (s : State) : Outcome State Fault Refusal := .next (s.whenOpen (·.issuePin 3 v))

/-- The entry of a pinned row has not yet flipped in every copy. -/
def State.pinWaits (s : State) (h row : Nat) : Bool :=
  s.reps.any (fun r => r.handle == h && r.row == row) || s.changePending (fun c => changeRow c == some (h, row))

/-- PIN_COMPLETE: the pin has failed, or its entry has flipped in every copy; its status is written. The leader tells the
members whose pins it has carried out. -/
def execPinComplete (s : State) : Outcome State Fault Refusal :=
  .next (s.whenServing fun s =>
    let ready := s.pinJobs.filter (fun j => !s.pinWaits j.handle j.row)
    let s1 : State := { s with pinJobs := s.pinJobs.filter (fun j => s.pinWaits j.handle j.row) }
    let s2 := ready.foldl (fun s j => s.write 0 j.node (.work (.pinDone j.handle j.row ST_OK))) s1
    let p := s.pin
    if !p.busy ∨ (p.outcome = 0 ∧ (p.remote ∨ s.pinWaits p.handle p.row)) then s2
    else { s2 with pin := { p with busy := false, remote := false, status := p.outcome } })

/-- PLC_PIN_STAT. -/
def State.plcPinStat (s : State) : Nat := b2n s.pin.busy * 2 ^ 31 + s.pin.status

/-! ## Computed registers (R195) -/

def State.plcEpoch (s : State) : Nat := ((s.doms[0]?).getD Dom.init).epoch

/-- Rows with replicas on this part, those in creation among them (R162). -/
def State.plcReplRows (s : State) : Nat := ((s.replicas.map (fun r => (r.1, r.2.1))).eraseDups).length

/-- PLC_REPL_MIB, in whole MiB rounded up (DESIGN CHOICE, log entry 93). -/
def State.plcReplMib (s : State) : Nat :=
  toMiB s.replicaUse

/-- PLC_OVR_USED, of the copy that CD0 holds (DESIGN CHOICE, log entry 93). -/
def State.plcOvrUsed (s : State) : Nat := (s.dir 0).ovr.length

/-- Migration units whose old copy this part drains. -/
def State.plcDraining (s : State) : Nat :=
  (((s.migs.filter (fun m => m.st == .draining && m.change.isSome && locNode m.from_ == s.node)).map (·.unit)).eraseDups).length

end Sys2Proof.Machine
end

