-- ==== Sys2Proof/Machine/RowOp.lean ====
section
/-! DEFINITION. Row images as numbers, and what each delta operation makes of one (R43, R44, R211, R220 to R223). -/
namespace Sys2Proof.Machine

/-! ## Elements of a row (R43, R44) -/

/-- Code i of a Q8 or Q4 row. -/
def Table.code (t : Table) (img : Bytes) (i : Nat) : Int :=
  if t.fmt = 0 then sext 8 (rd img i 1) else sext 4 (rd img (i / 2) 1 / 16 ^ (i % 2))

/-- Where the trailer of a Q row begins. -/
def Table.trailer (t : Table) : Nat := if t.fmt = 0 then t.rowlen else t.rowlen / 2

def Table.scale (t : Table) (img : Bytes) : Val := fp16.decode (rd img t.trailer 2)
def Table.offset (t : Table) (img : Bytes) : Val := fp16.decode (rd img (t.trailer + 2) 2)

/-- The decoded value of element i, exact. -/
def Table.elem (t : Table) (img : Bytes) (i : Nat) : Val :=
  match t.fmt with
  | 2 => fp16.decode (rd img (2 * i) 2)
  | 3 => bf16.decode (rd img (2 * i) 2)
  | _ => ((Val.ofInt (t.code img i)).mul (t.scale img)).add (t.offset img)

/-- The codes of a Q row packed. -/
def packCodes (fmt : Nat) (l : List Int) : Bytes :=
  if fmt = 0 then l.map (fun c => BitVec.ofInt 8 c)
  else (List.range (l.length / 2)).map (fun j => BitVec.ofNat 8 (wrapI 4 (l.getD (2 * j) 0) + 16 * wrapI 4 (l.getD (2 * j + 1) 0)))

/-- A Q row from its codes and the bits of its trailer. -/
def Table.qRow (t : Table) (codes : List Int) (scale offset : Nat) : Bytes :=
  packCodes t.fmt codes ++ natLE 2 scale ++ natLE 2 offset

/-! ## Checks of a record (R211) -/

/-- Payload bytes of one value. -/
def valueBytes (r : DeltaRec) : Nat := if r.flags.testBit 1 then 2 else 4

/-- Reserved bits, operation, format, element range and LEN are as R203 and R220 have them. -/
def Table.opOk (t : Table) (r : DeltaRec) : Bool :=
  let q := decide (t.fmt ≤ 1)
  let range := decide (r.start + r.nelem ≤ t.rowlen) && r.nelem != 0
  decide (r.flags < 4) && r.rowHi == 0 && r.rsv == 0 &&
    match r.op with
    | 1 => r.start == 0 && r.nelem == t.rowlen && r.len == t.imageBytes
    | 2 => range && r.len == r.nelem * valueBytes r
    | 3 => range && r.len == r.nelem * valueBytes r
    | 4 => q && range && r.len == r.nelem
    | 5 => q && r.start == 0 && r.nelem == 0 && r.len == 4
    | _ => false

/-- A MARK record is as R220 has it. -/
def markOk (r : DeltaRec) : Bool :=
  decide (r.flags < 4) && r.rsv == 0 && r.handle == 0 && r.target == 0 && r.row == 0 && r.rowHi == 0
    && r.start == 0 && r.nelem == 0 && r.len == 0

/-! ## The new row (R220 to R223) -/

/-- Value j of the payload. -/
def payloadValue (r : DeltaRec) (j : Nat) : Val :=
  if r.flags.testBit 1 then fp16.decode (rd r.payload (2 * j) 2) else fp32.decode (rd r.payload (4 * j) 4)

/-- The element that element i becomes, exact for SET_ELEM and ADD_ELEM; the old value when it is not changed. -/
def Table.newElem (t : Table) (img : Bytes) (r : DeltaRec) (i : Nat) : Val :=
  if r.start ≤ i ∧ i < r.start + r.nelem then
    (if r.op = 3 then (t.elem img i).add (payloadValue r (i - r.start)) else payloadValue r (i - r.start))
  else t.elem img i

/-- v rounded once to FP32 (R222). -/
def viaF32 (v : Val) : Val := fp32.decode (fp32.round v).1

/-- A code: (v − offset) / scale rounded to nearest even and clamped; `true` when it was clamped (R222). -/
def codeOf (lo hi : Int) (scale offset v : Val) : Int × Bool :=
  let diff := v.sub offset
  if scale.isZero then (if diff.isZero then 0 else if diff.sign then lo else hi, true)
  else
    match diff.div scale with
    | .fin s n d e =>
      let c := roundToInt .even s n d e
      if hi < c then (hi, true) else if c < lo then (lo, true) else (c, false)
    | .inf s => (if s then lo else hi, true)
    | .nan => (0, false)

/-- SET_ELEM and ADD_ELEM on a Q row with REQ = 0: the trailer is kept. -/
def Table.requantKeep (t : Table) (img : Bytes) (r : DeltaRec) : Option (Bytes × Bool) :=
  let lo : Int := if t.fmt = 0 then -128 else -8
  let hi : Int := if t.fmt = 0 then 127 else 7
  let codes := (List.range t.rowlen).map (fun i =>
    if r.start ≤ i ∧ i < r.start + r.nelem then codeOf lo hi (t.scale img) (t.offset img) (viaF32 (t.newElem img r i))
    else (t.code img i, false))
  let bad := (List.range r.nelem).any (fun j => !(viaF32 (t.newElem img r (r.start + j))).isFin)
  if bad then none
  else some (t.qRow (codes.map (·.1)) (rd img t.trailer 2) (rd img (t.trailer + 2) 2), codes.any (·.2))

/-- SET_ELEM and ADD_ELEM on a Q row with REQ = 1: the whole row is coded again with a new trailer. -/
def Table.requantNew (t : Table) (img : Bytes) (r : DeltaRec) : Option (Bytes × Bool) :=
  let c : Int := if t.fmt = 0 then 127 else 7
  let vals := (List.range t.rowlen).map (fun i =>
    if r.start ≤ i ∧ i < r.start + r.nelem then viaF32 (t.newElem img r i) else t.newElem img r i)
  if vals.any (fun v => !v.isFin) then none
  else
    let hi := vals.foldl Val.max (vals.headD .zero)
    let lo := vals.foldl Val.min (vals.headD .zero)
    let (offset, ovf) := fp16.round ((hi.add lo).mul (.ofInt 1 (-1)))
    let flat := !lo.lt hi
    let (scale, ovf2) := if flat then (0, false) else fp16.round ((hi.sub lo).div (.ofInt (2 * c))) .up
    if ovf ∨ ovf2 then none
    else
      let codes := vals.map (fun v => if flat then (0, false) else codeOf (-c) c (fp16.decode scale) (fp16.decode offset) v)
      some (t.qRow (codes.map (·.1)) scale offset, codes.any (·.2))

/-- SET_ELEM and ADD_ELEM on an F16 or B16 row. -/
def Table.setElems (t : Table) (img : Bytes) (r : DeltaRec) : Option (Bytes × Bool) :=
  let f := if t.fmt = 2 then fp16 else bf16
  some ((List.range t.rowlen).flatMap (fun i =>
    if r.start ≤ i ∧ i < r.start + r.nelem then natLE 2 (f.round (t.newElem img r i)).1 else slice img (2 * i) 2), false)

/-- ADD_CODES. -/
def Table.addCodes (t : Table) (img : Bytes) (r : DeltaRec) : Option (Bytes × Bool) :=
  let lo : Int := if t.fmt = 0 then -128 else -8
  let hi : Int := if t.fmt = 0 then 127 else 7
  let codes := (List.range t.rowlen).map (fun i =>
    if r.start ≤ i ∧ i < r.start + r.nelem then
      let v := t.code img i + sext 8 (rd r.payload (i - r.start) 1)
      if hi < v then (hi, true) else if v < lo then (lo, true) else (v, false)
    else (t.code img i, false))
  some (t.qRow (codes.map (·.1)) (rd img t.trailer 2) (rd img (t.trailer + 2) 2), codes.any (·.2))

/-- The row after a record that passed R211, and whether it counts as saturated; `none` when the row would not be
finite (R223). -/
def Table.applyOp (t : Table) (img : Bytes) (r : DeltaRec) : Option (Bytes × Bool) :=
  let res := match r.op with
    | 1 => some (r.payload.take t.imageBytes, false)
    | 4 => t.addCodes img r
    | 5 => some (img.take t.trailer ++ r.payload.take 4, false)
    | _ =>
      if t.fmt = 2 ∨ t.fmt = 3 then t.setElems img r
      else if r.flags.testBit 0 then t.requantNew img r else t.requantKeep img r
  res.filter (fun x => t.finite x.1)

end Sys2Proof.Machine
end

