-- ==== Sys2Proof/Machine/Feed.lean ====
section
/-! DEFINITION. The update feed at a port: frames, streams, gaps, pauses, ingest and the commit tickets of a mirrored
pair (R198 to R219, R226 to R244). -/
namespace Sys2Proof.Machine

/-! ## Streams -/

def State.strm (s : State) (i : Nat) : Strm := (s.strms[i]?).getD .init

def State.feedPrio (s : State) : Nat := s.regF Reg.FEED_CTL 29 27

/-- The valid entry of a stream number that allows a port; 3 is the twin (R198, R219, R236). -/
def State.strmFor (s : State) (stream port : Nat) : Option Nat :=
  ((s.strms.zipIdx).find? (fun e => e.1.valid && e.1.stream == stream && (e.1.port == port || (e.1.port == 2 && decide (port < 2))))).map (·.2)

/-- FEED_STRM_CFG.STATE. -/
def Strm.state (x : Strm) : Nat := if !x.active then 0 else if x.gap.isSome then 2 else 1

/-- Forwarding to the twin is in force: PAIR_FWD is 1, and the pair link has not been lost since the last RESYNC (R219). -/
def Strm.forwards (x : Strm) : Bool := x.pairFwd && !x.pairLost

/-- Sequence numbers of the stream that an entry names that are ingested or queued and neither applied nor discarded; with
forwarding in force the twin's count too (R205, R219). -/
def State.undone (s : State) (i : Nat) : List Word :=
  let x := s.strm i
  (s.fports.flatMap (·.queue)).filterMap (fun q => if q.idx = i ∧ q.r.stream = x.stream then some q.r.seq else none)
    ++ (x.flight.filter (·.stream == x.stream)).map (·.seq) ++ (if x.forwards then x.twin else [])

/-- APPLIED (R205); after a warm reset it stays as it was until the RESYNC (R243). -/
def State.applied (s : State) (i : Nat) : Word :=
  (s.strm i).floor.getD ((s.undone i).foldl (fun (m : Word) q => if q.toNat < m.toNat then q else m) (s.strm i).next)

/-! ## Frames to the producer (R202, R205) -/

/-- A frame header with its HCRC. -/
def feedHeader (kind stream : Nat) (seq stamp : Word) : Bytes :=
  let h := natLE 2 0xD17A ++ natLE 1 1 ++ natLE 1 kind ++ natLE 2 stream ++ natLE 2 0 ++ natLE 8 seq.toNat ++ natLE 8 stamp.toNat ++ natLE 4 0
  h ++ natLE 4 (crc32c h)

def withBcrc (b : Bytes) : Bytes := b ++ natLE 4 (crc32c b)

/-- The fields of an ACK that can change: N and those of its body. -/
def State.ackFields (s : State) (i : Nat) : List Nat :=
  let x := s.strm i
  [x.next.toNat, (s.applied i).toNat, x.mark.toNat, x.discards % 2 ^ 32, x.lastDisc, min 65535 x.held.length,
    b2n x.forwards + 2 * b2n (!x.active)]

/-- A frame to the producer of a stream: from the port's own address and UDP_PORT, at PRIO, to the source of the stream's
latest frame (R205). -/
def State.toProducer (s : State) (i : Nat) (b : Bytes) : State :=
  let x := s.strm i
  s.sendPrio x.lastPort s.feedPrio (.ackFrame x.lastPort x.v6 (s.portAddr x.lastPort x.v6) (s.regF Reg.FEED_CTL 15 0) s.feedPrio x.src x.srcPort b)

/-- Send an ACK for a stream; a stream fed by the twin has no producer of its own. -/
def State.feedAck (s : State) (i : Nat) : State :=
  let x := s.strm i
  let f := s.ackFields i
  let body := natLE 8 (f.getD 1 0) ++ natLE 8 (f.getD 2 0) ++ natLE 4 (f.getD 3 0) ++ natLE 2 (f.getD 4 0)
    ++ natLE 2 (f.getD 5 0) ++ natLE 1 (f.getD 6 0) ++ natLE 3 0
  let s1 := s.modStrm i (fun x => { x with lastAck := f })
  if 2 ≤ x.lastPort then s1
  else s1.toProducer i (feedHeader 2 x.stream x.next s.time.gtime ++ withBcrc body)

/-- Send a NACK for a stream. -/
def State.feedNack (s : State) (i : Nat) (lost : Bool) (first last : Word) : State :=
  let x := s.strm i
  let body := natLE 8 last.toNat ++ natLE 16 0 ++ natLE 1 (b2n lost) ++ natLE 3 0
  if 2 ≤ x.lastPort then s
  else s.toProducer i (feedHeader 3 x.stream first s.time.gtime ++ withBcrc body)

/-- The lowest held number of a stream. -/
def Strm.lowest (x : Strm) : Word := ((x.held.head?).map (·.2.1.seq)).getD x.next

/-- A NACK for the open gap. -/
def State.nackGap (s : State) (i : Nat) : State :=
  (s.modStrm i (fun x => { x with nackAt := some s.time.gtime })).feedNack i false (s.strm i).next ((s.strm i).lowest - 1)

/-! ## The ingest queue and the pause (R212) -/

def FPort.bytes (p : FPort) : Nat := p.queue.foldl (fun a q => a + q.bytes) 0

def State.fport (s : State) (p : Nat) : FPort := (s.fports[p]?).getD .init
def State.xoffBytes (s : State) (p : Nat) : Nat := s.regF (Reg.FEED_SKID p) 47 32 * 1024
def State.holdSize (s : State) (p : Nat) : Nat := s.regF (Reg.FEED_SKID p) 31 26 * 262144

/-- Bytes of records that streams hold in a port's hold area. -/
def State.holdBytes (s : State) (p : Nat) : Nat :=
  (s.strms.flatMap (·.held)).foldl (fun a h => if h.1 = p then a + h.2.2 else a) 0

/-- Request a pause. -/
def State.pauseOn (s : State) (p : Nat) : State :=
  if (s.fport p).paused then s
  else ((s.modFPort p (fun f => { f with paused := true, xoffAt := some s.time.gtime })).count (Reg.FEED_PORT_PAUSES p) 1).sendFrame p (.pfc p s.feedPrio 0xFFFF)

/-- Release a pause. -/
def State.pauseOff (s : State) (p : Nat) : State :=
  if (s.fport p).paused then (s.modFPort p (fun f => { f with paused := false })).sendFrame p (.pfc p s.feedPrio 0) else s

/-- A record enters a port's ingest queue. -/
def State.enqueue (s : State) (p i : Nat) (r : DeltaRec) (bytes : Nat) : State :=
  let s0 := s.modFPort p (fun f => { f with queue := f.queue ++ [⟨i, (s.strm i).queued, r, bytes, s.time.gtime⟩] })
  let s1 := s0.modStrm i (fun x => { x with queued := x.queued + 1 })
  if s1.xoffBytes p ≤ (s1.fport p).bytes then s1.pauseOn p else s1

/-! ## Order and gaps (R208, R209) -/

/-- Ingest the held records that N has reached. -/
def State.absorb (s : State) (i : Nat) : Nat → State
  | 0 => s
  | fuel + 1 =>
    match (s.strm i).held with
    | [] => s
    | (p, r, b) :: rest =>
      if r.seq = (s.strm i).next then
        State.absorb ((s.enqueue p i r b).modStrm i (fun x => { x with held := rest, next := x.next + 1 })) i fuel
      else s

/-- After N has advanced: held records follow, the gap closes, or a new one opens with a NACK. -/
def State.advance (s : State) (i : Nat) : State :=
  let n := (s.strm i).held.length
  let s1 := s.absorb i n
  if (s1.strm i).held.isEmpty then s1.modStrm i (fun x => { x with gap := none })
  else if (s1.strm i).held.length < n then (s1.modStrm i (fun x => { x with gap := some s.time.gtime })).nackGap i
  else s1

/-- The open gap of a stream is declared lost. FEED_GAP_INFO's PORT is that of the lowest record held (DESIGN CHOICE, log entry 94). -/
def State.gapLost (s : State) (i : Nat) : State :=
  let x := s.strm i
  if x.gap.isNone ∨ x.held.isEmpty then s
  else
    let first := x.next
    let last := x.lowest - 1
    let s1 := s.feedNack i true first last
    let port := ((x.held.head?).map (·.1)).getD 0
    let s2 := ((s1.setRegN Reg.FEED_GAP_INFO (x.stream * 65536 + port)).setReg Reg.FEED_GAP_FIRST first).setReg Reg.FEED_GAP_LAST last
    let s3 := s2.latch Reg.FEED_STATUS 0
    (s3.modStrm i (fun y => { y with gapLost := y.gapLost + (last - first + 1), next := last + 1 })).advance i

/-- The stream with the gap opened first among those that hold records in a port's area. -/
def State.oldestGap (s : State) (p : Nat) : Option Nat :=
  (List.range s.strms.length).foldl (fun (m : Option Nat) i =>
    match (s.strm i).gap with
    | none => m
    | some g =>
      if !((s.strm i).held.any (·.1 == p)) then m
      else match m with
        | none => some i
        | some j => if g.toNat < (((s.strm j).gap).getD 0).toNat then some i else m) none

/-- Gaps on a port are declared lost, earliest opened first, until n more bytes fit. -/
def State.makeRoom (s : State) (p n : Nat) : Nat → State
  | 0 => s
  | fuel + 1 =>
    if s.holdBytes p + n ≤ s.holdSize p then s
    else match s.oldestGap p with
      | none => s
      | some i => State.makeRoom (s.gapLost i) p n fuel

/-- Insert a held record by its number. -/
def insertHeld (h : Nat × DeltaRec × Nat) : List (Nat × DeltaRec × Nat) → List (Nat × DeltaRec × Nat)
  | [] => [h]
  | x :: t => if h.2.1.seq.toNat < x.2.1.seq.toNat then h :: x :: t else x :: insertHeld h t

/-- A record of an ACTIVE stream, when the hold area has room for it (R208). -/
def State.takeRecord (s : State) (p i : Nat) (r : DeltaRec) (bytes : Nat) : State :=
  let x := s.strm i
  if r.seq.toNat < x.next.toNat ∨ x.held.any (·.2.1.seq == r.seq) then s.modStrm i (fun x => { x with dup := x.dup + 1 })
  else if r.seq = x.next then ((s.enqueue p i r bytes).modStrm i (fun x => { x with next := x.next + 1 })).advance i
  else
    let s1 := s.modStrm i (fun x => { x with held := insertHeld (p, r, bytes) x.held })
    if x.gap.isSome then s1 else (s1.modStrm i (fun x => { x with gap := some s.time.gtime })).nackGap i

/-- A record of an ACTIVE stream (R208). -/
def State.feedRecord (s : State) (p i : Nat) (r : DeltaRec) (bytes : Nat) : State :=
  let x := s.strm i
  let ahead := decide (x.next.toNat < r.seq.toNat) && !x.held.any (·.2.1.seq == r.seq)
  if ahead ∧ s.holdSize p < s.holdBytes p + bytes then
    (s.makeRoom p bytes (s.strms.flatMap (·.held)).length).takeRecord p i r bytes
  else s.takeRecord p i r bytes

/-! ## Frames from the producer (R201 to R204) -/

/-- Bytes that a record takes with its padding. -/
def recBytes (len : Nat) : Nat := 24 + alignUp len 8

/-- The record at the start of a byte string; `none` when its RCRC fails or it runs past the end. -/
def parseRecord (stream : Nat) (seq : Word) (b : Bytes) : Option DeltaRec :=
  if b.length < 24 ∨ crc16 (b.take 22) ≠ rd b 22 2 ∨ b.length < recBytes (rd b 6 2) then none
  else some ⟨stream, seq, rd b 0 1, rd b 1 1, rd b 2 2, rd b 4 2, rd b 8 8 % 2 ^ 40, rd b 8 8 / 2 ^ 40, rd b 16 2, rd b 18 2,
    rd b 6 2, rd b 20 2, slice b 24 (rd b 6 2)⟩

/-- The n records of a DATA frame, in order; the first bad one ends them, and it and the later ones are discarded
and counted (R204, R244; log entry 87). -/
def State.feedRecords (s : State) (p i stream : Nat) (seq : Word) (b : Bytes) : Nat → State
  | 0 => s
  | n + 1 =>
    match parseRecord stream seq b with
    | none => s.modStrm i (fun x => { x with
        recCrc := x.recCrc + BitVec.ofNat 64 (n + 1)
        discards := x.discards + (n + 1)
        lastDisc := ST_FD_REC_CRC })
    | some r => State.feedRecords (s.feedRecord p i r (recBytes r.len)) p i stream (seq + 1) (b.drop (recBytes r.len)) n

/-- The header is not as R204 has it. -/
def feedBad (f : FeedFrame) : Bool :=
  let b := f.payload
  !f.eth.udpOk || decide (b.length < 32) || rd b 0 2 != 0xD17A || rd b 2 1 != 1 || crc32c (b.take 28) != rd b 28 4
    || !allZero (slice b 24 4) || decide (2 ≤ rd b 3 1)
    || (if rd b 3 1 = 0 then decide (rd b 6 2 = 0) || decide (256 < rd b 6 2) else rd b 6 2 != 0)

/-- The source of the stream's latest frame is noted (R205). -/
def State.noteSource (s : State) (i : Nat) (f : FeedFrame) : State :=
  s.modStrm i (fun x => { x with v6 := f.v6, src := f.srcAddr, srcPort := f.srcPort, lastPort := f.port, stamp := BitVec.ofNat 64 (rd f.payload 16 8) })

/-- The records held behind a gap are discarded; they are in no count of discards and in no LAST_DISC, as the spec has no status
for them (DESIGN CHOICE, log entry 94). -/
def State.dropHeld (s : State) (i : Nat) : State := s.modStrm i (fun x => { x with held := [], gap := none })

/-- A RESYNC is accepted (R207, R219). -/
def State.resync (s : State) (i : Nat) (seq : Word) : State :=
  ((s.dropHeld i).modStrm i (fun x => { x with
    next := seq, floor := none, active := true, pairLost := false, twinFirst := x.pairFwd, twin := if x.pairFwd then x.twin else [] }))

/-- A datagram reaches a port; it is a feed frame when it is for UDP_PORT, at any priority (R198, R201, R204, R207, R214, R231). -/
def State.feedFrame (s : State) (f : FeedFrame) : State :=
  let p := f.port
  let fp := s.fport p
  s.rxUdp p f.eth f.v6 fun s =>
    if 2 ≤ p then s.dropFrame p
    else
      let (bad, s) := s.sramRead f.ecc (7 * 4096 + p) 0
      if bad then (s.count (Reg.FEED_PORT_OVERRUN p) 1).latch Reg.FEED_STATUS 1
      else if f.dstPort ≠ s.regF Reg.FEED_CTL 15 0 then s.dropFrame p
      else if fp.st = .off ∨ fp.st = .starting then s.count (Reg.FEED_PORT_UNBOUND p) 1
      else if 2 ^ 24 < s.holdSize p + fp.bytes + f.payload.length then (s.count (Reg.FEED_PORT_OVERRUN p) 1).latch Reg.FEED_STATUS 1
      else if feedBad f then s.count (Reg.FEED_PORT_BAD p) 1
      else
        match s.strmFor (rd f.payload 4 2) p with
        | none => s.count (Reg.FEED_PORT_UNBOUND p) 1
        | some i =>
          let s1 := s.noteSource i f
          let seq := BitVec.ofNat 64 (rd f.payload 8 8)
          if rd f.payload 3 1 = 1 then (s1.resync i seq).feedAck i
          else if !(s1.strm i).active then (s1.count (Reg.FEED_PORT_UNBOUND p) 1).feedAck i
          else (s1.count (Reg.FEED_PORT_FRAMES p) 1).feedRecords p i (rd f.payload 4 2) seq (f.payload.drop 32) (rd f.payload 6 2)

/-! ## What a stream record owes (R215, R217, R219) -/

/-- A record of a stream is applied or discarded. -/
def State.recordDone (s : State) (i : Nat) (seq : Word) : Bool :=
  !(s.undone i).contains seq && !(s.strm i).held.any (·.2.1.seq == seq) && !(s.strm i).marks.contains seq

/-- Pay every acknowledgement whose writes and record are done. -/
def State.settleOwed (s : State) : State :=
  let ready (o : Owed) : Bool := o.waits.isEmpty && o.rec_.all (fun r => s.recordDone r.1 r.2)
  let due := s.link.owed.filter ready
  due.foldl State.pay { s with link := { s.link with owed := s.link.owed.filter (fun o => !ready o) } }

/-- DATA: a DATA feed frame reaches a port. -/
def execData (f : FeedFrame) (s : State) : Outcome State Fault Refusal := .next (s.whenServing (·.feedFrame f))

/-- RESYNC: a RESYNC feed frame reaches a port. -/
def execResync (f : FeedFrame) (s : State) : Outcome State Fault Refusal :=
  .next (s.whenServing (fun s => (s.feedFrame f).settleOwed))

/-! ## Ingest (R210, R211, R215, R216, R219) -/

/-- A record of a stream is discarded with a status: counted and reported (R211, R224). -/
def State.discard (s : State) (i st : Nat) : State :=
  (s.modStrm i (fun x =>
    let y := { x with discards := x.discards + 1, lastDisc := st }
    if st = ST_FD_STALE_VERSION then { y with stale := y.stale + 1 }
    else if st = ST_FD_LOST_ROW then { y with lostRow := y.lostRow + 1 }
    else if st = ST_FD_NO_TABLE then { y with noTable := y.noTable + 1 }
    else if st = ST_FD_RANGE then { y with range := y.range + 1 }
    else if st = ST_FD_BAD_OP then { y with badOp := y.badOp + 1 }
    else if st = ST_FD_NONFINITE then { y with nonfinite := y.nonfinite + 1 }
    else y)).latch Reg.FEED_STATUS 3

/-- The check of R211 before a record is sent on: a status, and its table. -/
def State.recordStatus (s : State) (r : DeltaRec) : Nat × Option Table :=
  match s.table? r.handle with
  | none => (ST_FD_NO_TABLE, none)
  | some t =>
    if t.live.isNone then (ST_FD_NO_TABLE, none)
    else if t.rows ≤ r.row then (ST_FD_RANGE, none)
    else if !t.opOk r then (ST_FD_BAD_OP, none)
    else (ST_OK, some t)

/-- Forward a record of stream i to the twin (R219). -/
def State.toTwin (s : State) (i : Nat) (r : DeltaRec) : State :=
  let x := s.strm i
  if !x.forwards then s
  else
    let s1 := (s.sendWrite 0 s.twinNode (.twin x.twinFirst r) none (some (i, r.seq))).2
    s1.modStrm i (fun x => { x with
      twin := x.twin ++ [r.seq]
      twinAt := if x.twin.isEmpty then some s.time.gtime else x.twinAt
      twinFirst := false })

/-- A record leaves the ingest queue: it is discarded, it is a MARK, or it goes to its apply point. A MARK names no table and no
row: a malformed one is discarded with ST_FD_BAD_OP, whatever its HANDLE (DESIGN CHOICE, log entry 94). -/
def State.ingest (s : State) (i : Nat) (r : DeltaRec) : State :=
  if r.op = 6 then
    (if markOk r then s.modStrm i (fun x => { x with marks := x.marks ++ [r.seq] }) else s.discard i ST_FD_BAD_OP)
  else
    match s.recordStatus r with
    | (st, none) => s.discard i st
    | (_, some t) =>
      match s.applyPoint 0 t t.vslot r.row with
      | none => s.discard i ST_FD_LOST_ROW
      | some l =>
        let slot := ((s.tableDom t).map (·.1)).getD 0
        let f : Flight := ⟨r.seq, r.handle, r.row, keyGet 0 (s.dir 0).epochs slot, r.stream⟩
        let s1 := (s.sendWrite 0 l (.delta r) none (some (i, r.seq))).2
        s1.modStrm i (fun x => { x with flight := x.flight ++ [f] })

/-- Whether an earlier record of the same stream still waits in a queue: records are taken in sequence order, whichever
port they came in on (R200, R210). -/
def State.outOfTurn (s : State) (q : QRec) : Bool :=
  s.fports.any (fun f => f.queue.any (fun x => x.idx == q.idx && decide (x.ord < q.ord)))

/-- Whether the feed engine may take a record: a resend of the same stream and row is not open, and its apply point
grants credit (R216, R218): the credit is the 2,048 unanswered writes to a location of R541 (DESIGN CHOICE, log entry 94). -/
def State.mayIngest (s : State) (i : Nat) (r : DeltaRec) : Bool :=
  let resend := s.link.pend.any (fun e => decide (2 ≤ e.attempt) && (e.rec_.any (·.1 == i)) && (match e.p.body with
    | .delta x => x.handle == r.handle && x.row == r.row
    | _ => false))
  let dst := ((s.table? r.handle).bind (fun t => s.applyPoint 0 t t.vslot r.row))
  !resend && dst.all (fun l => decide ((s.link.pend.filter (fun e => e.p.dst == l)).length < writeLimit))

/-- RECORD_INGESTED. FEED_PORT_QDELAY rounds the wait down to whole ns (DESIGN CHOICE, log entry 94). -/
def execRecordIngested (port : Nat) (s : State) : Outcome State Fault Refusal :=
  .next (s.whenServing fun s =>
    match (s.fport port).queue with
    | [] => s
    | q :: rest =>
      if s.outOfTurn q ∨ !s.mayIngest q.idx q.r then s
      else
        let s1 := s.modFPort port (fun f => { f with queue := rest })
        let wait := (s.now - q.at_.toNat) / 4
        let s2 := if s1.regN (Reg.FEED_PORT_QDELAY port) < wait then s1.setRegN (Reg.FEED_PORT_QDELAY port) wait else s1
        let low := (s2.fport port).bytes + 1048576 < s2.xoffBytes port
        let s3 := if (s2.fport port).st ≠ .stopping ∧ low then s2.pauseOff port else s2
        ((s3.ingest q.idx q.r).toTwin q.idx q.r).settleOwed)

/-- XOFF_REPEAT. -/
def execXoffRepeat (port : Nat) (s : State) : Outcome State Fault Refusal :=
  .next (s.whenServing fun s =>
    let f := s.fport port
    if f.paused ∧ (f.st = .stopping ∨ s.xoffBytes port ≤ f.bytes + 1048576) ∧ s.elapsed f.xoffAt (us 20) then
      (s.modFPort port (fun f => { f with xoffAt := some s.time.gtime })).sendFrame port (.pfc port s.feedPrio 0xFFFF)
    else s)

/-- GAP_DECLARED_LOST. -/
def execGapDeclaredLost (i : Nat) (s : State) : Outcome State Fault Refusal :=
  .next (s.whenServing fun s =>
    if (s.strm i).gap.any (fun g => s.reached (g.toNat + us (s.strm i).gapUs)) then s.gapLost i else s)

/-- SEND_ACK: the ACK period has passed and a field has changed; of an IDLE stream too (R206). -/
def execSendAck (i : Nat) (s : State) : Outcome State Fault Refusal :=
  .next (s.whenServing fun s =>
    if (s.strm i).valid ∧ s.ackFields i ≠ (s.strm i).lastAck ∧ s.elapsed (s.strm i).ackAt (us (s.strm i).ackUs) then
      (s.modStrm i (fun x => { x with ackAt := some s.time.gtime })).feedAck i
    else s)

/-- SEND_NACK. -/
def execSendNack (i : Nat) (s : State) : Outcome State Fault Refusal :=
  .next (s.whenServing fun s => 
    if (s.strm i).gap.isSome ∧ s.elapsed (s.strm i).nackAt (us (s.strm i).nackUs) then s.nackGap i else s)

/-- MARK_COMPLETE (R226). -/
def execMarkComplete (i : Nat) (s : State) : Outcome State Fault Refusal :=
  .next (s.whenServing fun s =>
    match (s.strm i).marks with
    | [] => s
    | m :: rest =>
      if (s.undone i).any (fun q => decide (q.toNat < m.toNat)) then s
      else (((s.modStrm i (fun x => { x with marks := rest, mark := m })).feedAck i)).settleOwed)

/-- TWIN_RECORD (R219): its acknowledgement waits until the record is applied or discarded here. A record that is the
first since the sender's RESYNC sets N. -/
def execTwinRecord (h : WriteHdr) (first : Bool) (r : DeltaRec) (s : State) : Outcome State Fault Refusal :=
  .next (s.whenServing fun s => s.recvOwed h fun s =>
    match s.strmFor r.stream 3 with
    | none => (some ST_OK, s.count (Reg.FEED_PORT_UNBOUND 0) 1)
    | some i =>
      let s1 := if first then s.resync i r.seq else s
      if !(s1.strm i).active then (some ST_OK, s1.count (Reg.FEED_PORT_UNBOUND 0) 1)
      else
        let s2 := (s1.modStrm i (fun x => { x with lastPort := 3 })).feedRecord 0 i r (recBytes r.len)
        if s2.recordDone i r.seq then (some ST_OK, s2) else (none, s2.owe ⟨h, ST_OK, [], some (i, r.seq), []⟩))

/-- PAIR_LINK_LOST: the twin has answered nothing for GAP_US while records for it are not acknowledged (R219). -/
def execPairLinkLost (i : Nat) (s : State) : Outcome State Fault Refusal :=
  .next (s.whenServing fun s =>
    let x := s.strm i
    let mine (e : Pend) : Bool := e.rec_.any (·.1 == i) && (match e.p.body with
      | .twin _ _ => true
      | _ => false)
    let late := x.twinAt.any (fun t => s.reached (t.toNat + us x.gapUs))
    if x.forwards ∧ !x.twin.isEmpty ∧ late then
      let s1 := s.modStrm i (fun x => { x with pairLost := true, twin := [], twinAt := none })
      let s2 : State := { s1 with link := { s1.link with pend := s1.link.pend.filter (fun e => !mine e) } }
      (s2.latch Reg.FEED_STATUS 6).settleOwed
    else s)

/-! ## Tickets and pair reports (R228 to R230) -/

/-- A ticket is armed: the reports of the one before are forgotten; SKEW keeps its value until both new reports are here
(DESIGN CHOICE, log entry 94). -/
def State.armTicket (s : State) (fromTwin : Bool) (number : Nat) (at_ : Word) : State :=
  { s with pair := { s.pair with ticket := .armed, fromTwin := fromTwin, number := number, at_ := at_, proposal := none, own := none, twin := none, result := 0, status := 0 } }

/-- A write of FEED_PAIR_REQ. -/
def State.writePairReq (s : State) (v : Nat) : State :=
  let lead := max 100 (fld v 15 0)
  let s1 := s.setRegN Reg.FEED_PAIR_REQ lead
  if !v.testBit 31 then s1
  else
    let n := (s.pair.number + 1) % 65536
    let at_ : Word := s.time.gtime + BitVec.ofNat 64 (us lead)
    ({ s1 with pair := { s1.pair with proposal := some (n, at_, s.time.gtime) } } : State).write 0 s.twinNode (.ticket n at_)

/-- PAIR_REQ_GO: a write of FEED_PAIR_REQ. -/
def execPairReqGo (v : BitVec 32) (s : State) : Outcome State Fault Refusal :=
  .next (s.whenOpen fun s => s.writePairReq v.toNat)

/-- TICKET_PROPOSAL: when proposals cross, the one from side 0 is armed (R228). -/
def execTicketProposal (h : WriteHdr) (number : Nat) (at_ : Word) (s : State) : Outcome State Fault Refusal :=
  .next (s.whenServing fun s => s.recvWrite h fun s =>
    if s.pair.proposal.isSome ∧ s.side = 0 then (ST_OK, s)
    else
      let s1 := (s.armTicket true number at_).latch Reg.FEED_STATUS 4
      (ST_OK, s1.write 0 s.twinNode (.ticketReply number)))

/-- TICKET_ACCEPTED. -/
def execTicketAccepted (number : Nat) (s : State) : Outcome State Fault Refusal :=
  .next (s.whenServing fun s =>
    match s.pair.proposal with
    | none => s
    | some (n, at_, _) => if n = number then s.armTicket false n at_ else s)

/-- TICKET_TIMEOUT: the twin did not answer (R228, R244). -/
def execTicketTimeout (s : State) : Outcome State Fault Refusal :=
  .next (s.whenServing fun s =>
    match s.pair.proposal with
    | none => s
    | some (_, _, t) =>
      if s.reached (t.toNat + us 50) then
        ({ s with pair := { s.pair with proposal := none, status := ST_FD_PAIR_UNREACHABLE } } : State).latch Reg.FEED_STATUS 6
      else s)

/-- NO_REPORT. -/
def Pair.noReport (p : Pair) : Pair := { p with result := 3, status := ST_FD_PAIR_UNREACHABLE }

/-- TICKET_EXPIRED. -/
def execTicketExpired (s : State) : Outcome State Fault Refusal :=
  .next (s.whenServing fun s =>
    if s.pair.ticket = .armed ∧ s.reached (s.pair.at_.toNat + ms 1) then
      let p := { s.pair with ticket := .expired }
      { s with pair := if p.twin.isSome then p.noReport else p }
    else s)

/-- PAIR_REPORT. -/
def execPairReport (h : WriteHdr) (tables : List (Nat × Nat)) (status : Nat) (finish : Word) (s : State) : Outcome State Fault Refusal :=
  .next (s.whenServing fun s => s.recvWrite h fun s =>
    let p := { s.pair with twin := some ⟨tables, status, finish⟩ }
    (ST_OK, if p.ticket = .expired ∧ p.own.isNone then { s with pair := p.noReport } else s.setPair p))

/-- PAIR_REPORT_TIMEOUT. -/
def execPairReportTimeout (s : State) : Outcome State Fault Refusal :=
  .next (s.whenServing fun s =>
    if s.pair.own.isSome ∧ s.pair.twin.isNone ∧ s.pair.result ≠ 3 ∧ s.reached (s.pair.ownAt.toNat + ms 2) then
      { s with pair := s.pair.noReport }
    else s)

/-! ## Ingest on and off (R231, R232) -/

/-- A port's ingest turns to STOPPING: XOFF is sent and held. -/
def State.feedStop (s : State) (p : Nat) : State :=
  (s.modFPort p (fun f => { f with st := .stopping, pendDisable := false, pendEnable := false })).pauseOn p

/-- EN of a port is written. -/
def State.feedEnable (s : State) (p : Nat) (on : Bool) : State :=
  match (s.fport p).st with
  | .on => if on then s else s.feedStop p
  | .stopping => s.modFPort p (fun f => { f with pendEnable := on })
  | .off => if on then s.modFPort p (fun f => { f with st := .starting }) else s
  | .starting => s.modFPort p (fun f => { f with pendDisable := !on })

/-- A write of FEED_CTL. -/
def State.writeFeedCtl (s : State) (v : Nat) : State :=
  let cur := s.regN Reg.FEED_CTL
  let off := (s.fport 0).st = .off ∧ (s.fport 1).st = .off
  let same := fld v 29 27 = fld cur 29 27 ∧ fld v 15 0 = fld cur 15 0
  let rest := if off then fld v 29 27 * 2 ^ 27 + fld v 15 0 else fld cur 29 27 * 2 ^ 27 + fld cur 15 0
  let s1 := s.setRegN Reg.FEED_CTL (fld v 31 30 * 2 ^ 30 + rest)
  let s2 := if off ∨ same then s1 else s1.latch Reg.FEED_STATUS 2
  (s2.feedEnable 0 (v.testBit 30)).feedEnable 1 (v.testBit 31)

/-- FEED_EN: a write of FEED_CTL. -/
def execFeedEn (v : BitVec 32) (s : State) : Outcome State Fault Refusal :=
  .next (s.whenOpen fun s => s.writeFeedCtl v.toNat)

/-- FEED_STOPPED. -/
def execFeedStopped (port : Nat) (s : State) : Outcome State Fault Refusal :=
  .next (s.whenServing fun s =>
    let f := s.fport port
    if f.st = .stopping ∧ f.queue.isEmpty then
      (s.pauseOff port).modFPort port (fun f => { f with st := if f.pendEnable then .starting else .off, pendEnable := false })
    else s)

/-- FEED_STARTED. -/
def execFeedStarted (port : Nat) (s : State) : Outcome State Fault Refusal :=
  .next (s.whenServing fun s =>
    let f := s.fport port
    if f.st ≠ .starting then s
    else if f.pendDisable then s.feedStop port
    else s.modFPort port (fun f => { f with st := .on }))

/-- FEED_STATE n. -/
def FState.code : FState → Nat
  | .off => 0
  | .starting => 1
  | .on => 2
  | .stopping => 3

def State.feedState (s : State) (p : Nat) : Nat :=
  let f := s.fport p
  f.st.code * 2 ^ 30 + b2n (f.st == .starting || f.st == .stopping) * 2 ^ 29 + b2n f.pendEnable * 2 ^ 28
    + b2n f.pendDisable * 2 ^ 27 + b2n f.paused * 2 ^ 26 + f.bytes / 1024 % 2 ^ 15

/-! ## Feed registers (R213, R234, R236, R237, R240) -/

/-- A write of FEED_SKID p, or of a half of it. -/
def State.writeSkid (p : Nat) (a : Access) (s : State) : State :=
  let v := intoReg a (Reg.FEED_SKID p) (s.regN (Reg.FEED_SKID p))
  let hold := max 4 (min 32 (fld v 31 26))
  let cable := min 10000 (fld v 25 12)
  let skid := ceilDiv (100 * (10 * cable + fld v 11 0 + 300) + 18496) 4096 * 4
  if (s.fport p).st ≠ .off ∨ 16384 < 1024 + hold * 256 + skid then s.latch Reg.FEED_STATUS 2
  else
    let xoff := 16384 - hold * 256 - skid
    s.setRegN (Reg.FEED_SKID p) (skid * 2 ^ 48 + xoff * 2 ^ 32 + hold * 2 ^ 26 + cable * 2 ^ 12 + fld v 11 0)

/-- FEED_SKID_WRITE. -/
def execFeedSkidWrite (a : Access) (s : State) : Outcome State Fault Refusal :=
  let p := (a.off - Reg.FEED_SKID 0) / 8 % 2
  .next (s.whenOn a (Reg.FEED_SKID p) (byWords (State.writeSkid p) a))

/-- The entry that FEED_STRM_SEL selects. -/
def State.strmSel (s : State) : Nat := s.regF Reg.FEED_STRM_SEL 5 0

/-- FEED_STRM_CFG of an entry. -/
def Strm.cfg (x : Strm) : Nat :=
  b2n x.valid * 2 ^ 63 + b2n x.pairFwd * 2 ^ 62 + x.port * 2 ^ 60 + x.state * 2 ^ 48 + x.stream * 2 ^ 32 + x.gapUs * 2 ^ 20
    + x.ackUs * 2 ^ 12 + x.nackUs * 2 ^ 4

/-- The fields of a written FEED_STRM_CFG value, brought to their limits. -/
def Strm.withCfg (x : Strm) (v : Nat) : Strm :=
  { x with
    pairFwd := v.testBit 62
    port := fld v 61 60
    stream := fld v 47 32
    gapUs := max 10 (min 4000 (fld v 31 20))
    ackUs := max 1 (fld v 19 12)
    nackUs := max 1 (fld v 11 4) }

/-- An entry that takes a stream of another number has had no frame, no MARK and no discard of it (R205). -/
def Strm.forStream (x : Strm) (stream : Nat) : Strm :=
  if x.stream = stream then x
  else { x with
    v6 := false, src := 0, srcPort := 0, lastPort := 3, stamp := 0
    marks := [], mark := 0, discards := 0, lastDisc := 0
    twin := [], twinAt := none, lastAck := [], floor := none }

/-- FEED_STRM_CFG_WRITE: its table handles a write field by field or drops it whole (R236). -/
def execFeedStrmCfgWrite (a : Access) (s : State) : Outcome State Fault Refusal :=
  .next (s.whenOn a Reg.FEED_STRM_CFG fun s =>
    let i := s.strmSel
    let x := s.strm i
    let v := intoReg a Reg.FEED_STRM_CFG x.cfg
    let y := x.withCfg v
    let valid := v.testBit 63
    if x.valid then
      let s1 := if y = x then s else s.latch Reg.FEED_STATUS 2
      if valid then s1
      else ((s1.dropHeld i).modStrm i (fun z => { z with valid := false, active := false })).settleOwed
    else if valid ∧ s.strms.any (fun z => z.valid && z.stream == y.stream) then s.latch Reg.FEED_STATUS 2
    else s.modStrm i (fun x => { (x.forStream y.stream).withCfg v with valid := valid }))

/-- QDELAY_READ: the read answers the longest wait and clears it; until READY is 1 it answers zero (R573). -/
def execQdelayRead (port : Nat) (s : State) : Outcome State Fault Refusal :=
  .next (if 2 ≤ port then s
    else if s.barOpen then (s.emit (.readData (s.reg (Reg.FEED_PORT_QDELAY port)))).setReg (Reg.FEED_PORT_QDELAY port) 0
    else if s.pwr.powered ∧ s.pwr.rstN then s.emit (.readData 0)
    else s)

/-- FEED_PAIR_TSTAT and FEED_PAIR_STAT. -/
def Ticket.code : Ticket → Nat
  | .none => 0
  | .armed => 1
  | .used => 2
  | .expired => 3

def State.pairTstat (s : State) : Nat := s.pair.ticket.code * 2 ^ 30 + b2n s.pair.fromTwin * 2 ^ 29 + s.pair.number % 65536
def State.pairStat (s : State) : Nat := s.pair.result * 2 ^ 62 + s.pair.status * 2 ^ 32 + s.pair.skew.toNat

end Sys2Proof.Machine
end

