-- ==== Sys2Proof/Machine/Updates.lean ====
section
/-! DEFINITION. Writes that reach a copy of a row: deltas at their apply point, forwards, rows of loads and
migrations, chorus writes, and the hold timer of a migration (R164 to R168, R215, R216, R221, R224). -/
namespace Sys2Proof.Machine

/-! ## The copy of a row -/

/-- Whether the copy of a row on a die is that of a row that moves alone or of a replica: as it was stored, else by the
directory and the row moves towards the die (R594). -/
def State.rowAlone (s : State) (die : Nat) (t : Table) (row : Nat) : Bool :=
  match s.heap.find? (fun r => r.die == die && r.handle == t.handle && r.row == row) with
  | some r => r.alone
  | none => ((s.dir die).place t.handle row).any (fun o => o.kind == .moved && o.loc == s.loc die)
    || s.migs.any (fun m => m.unit == .row t.handle row && m.to_ == s.loc die && m.moves)
    || ((s.dir die).replLocs t.handle row).contains (s.loc die)

/-- The stack that holds a copy of a row on a die (R594). -/
def State.rowStack (s : State) (die : Nat) (t : Table) (row : Nat) : Nat :=
  if s.rowAlone die t row then aloneStack die t.handle row
  else 2 * die + ((s.rowBucket t row).map (·.2)).getD 0 % 2

/-- Heavy-hitter entries of a GPE (R160). -/
abbrev heatEntries : Nat := 4096

/-- Count owner reads and deltas of a row in a die's heavy-hitter table. -/
def State.noteHeat (s : State) (die h row reads deltas : Nat) : State :=
  s.modGpe die (fun g =>
    let here (e : Nat × Nat × Nat × Nat) : Bool := e.1 == h && e.2.1 == row
    let heat := if g.heat.any here then g.heat.map (fun e => if here e then (h, row, e.2.2.1 + reads, e.2.2.2 + deltas) else e)
      else if g.heat.length < heatEntries then g.heat ++ [(h, row, reads, deltas)] else g.heat
    { g with load := g.load + reads, heat := heat })

/-- Write the image of a row into a named version on a die, whole, with its Wings copy. A version FREED here changes
nothing (R125, R215). -/
def State.putImage (s : State) (die h v row : Nat) (img : Bytes) (alone : Bool) : State :=
  match s.table? h with
  | none => s
  | some t =>
    match t.ver? v with
    | none => s
    | some w => (s.putRow die h v row img alone).updateWings die h w.slot row (t.pad img)

/-- The same for a copy that is where it is. -/
def State.setImage (s : State) (die h v row : Nat) (img : Bytes) : State :=
  s.putImage die h v row img ((s.table? h).any (fun t => s.rowAlone die t row))

/-- How a write goes on to another copy: plain, between the two copies of a migrating unit and marked so, or as a chorus
write to a replica (R164, R166). -/
inductive FwdWay where
  | plain | marked | chorus
  deriving DecidableEq, Repr

/-- Where an apply point forwards a row: the other home, the other copy of a migrating unit, and the replicas, also those
in creation and in drain (R162, R164, R166, R215). -/
def State.forwardTo (s : State) (die : Nat) (t : Table) (vslot row : Nat) : List (Nat × FwdWay) :=
  let own := s.loc die
  let mine := s.migs.filter (fun m => s.unitHolds m.unit t row)
  let partner := mine.filterMap (fun m =>
    if m.st = .copying ∧ m.from_ = own then some m.to_
    else if m.st = .draining ∧ m.to_ = own ∧ m.change.isSome ∧ !m.remirror then some m.from_
    else none)
  let leaving := mine.filterMap (fun m => if m.st = .draining ∧ m.to_ = own ∧ m.change.isNone then some m.from_ else none)
  let made := (s.reps.filter (fun r => r.handle == t.handle && r.row == row)).flatMap (·.targets)
  let marked := partner.eraseDups.filter (· != own)
  let plain := (s.homesOf die t vslot row ++ s.refillTo die t row).eraseDups.filter (fun l => l != own && !marked.contains l)
  let chorus := (((s.dir die).replicas t.handle row vslot ++ made ++ leaving).eraseDups).filter (fun l =>
    l != own && !marked.contains l && !plain.contains l)
  plain.map (·, .plain) ++ marked.map (·, .marked) ++ chorus.map (·, .chorus)

/-- Send a row image to copies; the names of the writes that the sender waits for. -/
def State.sendForwards (s : State) (die : Nat) (f : RowForward) : List (Nat × FwdWay) → List (Nat × Nat) × State
  | [] => ([], s)
  | (l, way) :: rest =>
    let body := match way with
      | .plain => Payload.forward f
      | .marked => .forward { f with marked := true }
      | .chorus => .chorus (.row f)
    let (x, s1) := s.sendNamed die l body
    let (xs, s2) := State.sendForwards s1 die f rest
    (x.toList ++ xs, s2)

/-! ## The apply point (R221 to R225) -/

/-- A delta is applied at a die: a discard status at once, or the result once every copy has it (R215, R224). A
saturated record answers 2^16. -/
def State.applyDelta (s : State) (h : WriteHdr) (r : DeltaRec) : Option Nat × State :=
  match s.table? r.handle with
  | none => (some ST_FD_NO_TABLE, s)
  | some t =>
    match t.live with
    | none => (some ST_FD_NO_TABLE, s)
    | some v =>
      if r.target ≠ 0 ∧ r.target ≠ v.num then (some ST_FD_STALE_VERSION, s)
      else if s.rowLost t v.num r.row then (some ST_FD_LOST_ROW, s)
      else
        match t.applyOp (s.rowAt h.die t.handle v.num r.row) r with
        | none => (some ST_FD_NONFINITE, s)
        | some (img, sat) =>
          let s1 := (s.setImage h.die t.handle v.num r.row img).noteHeat h.die t.handle r.row 0 1
          let f : RowForward := ⟨t.handle, v.num, r.row, img, r.stream, r.seq, false⟩
          let (names, s2) := s1.sendForwards h.die f (s1.forwardTo h.die t v.slot r.row)
          let res := b2n sat * 65536
          if names.isEmpty then (some res, s2) else (none, s2.owe ⟨h, res, names, none, names.map (·.1)⟩)

/-! ## Writes at a copy in a migration (R166, R167) -/

/-- Pass a write on and answer for it when it is answered. -/
def State.relay (s : State) (h : WriteHdr) (dst : Nat) (body : Payload) : Option Nat × State :=
  match s.sendNamed h.die dst body with
  | (some x, s1) => (none, s1.owe ⟨h, ST_OK, [x], none, []⟩)
  | (none, s1) => (some ST_OK, s1)

/-- Hold a write at the authority. -/
def State.hold (s : State) (m : Mig) (w : HeldWrite) : Option Nat × State :=
  (none, (s.modMig (· == m) (fun m => { m with held := m.held ++ [w] })).count Reg.PLC_HELD 1)

/-- A held write is of rows of a load. -/
def HeldWrite.isRows : HeldWrite → Bool
  | .rows _ _ _ _ _ => true
  | _ => false

/-- A write of an image reaches a copy: written, forwarded, held or passed on, by the state of its unit. `body` is the write
as it is passed to the apply point, `marked` as one copy of a migrating unit sends it to the other (R166). The
surviving home of a re-mirror that drains writes rows of a load and passes them on to the new home, which parts that have not seen
the flip do not write to. -/
def State.copyWrite (s : State) (h : WriteHdr) (holds : Mig → Bool) (body marked : Payload) (held : HeldWrite) (w : State → State) :
    Option Nat × State :=
  let own := s.loc h.die
  match s.migs.find? (fun m => holds m && m.from_ == own && m.moves) with
  | some m =>
    match m.st with
    | .inTransit => s.hold m held
    | .copying => (w s).relay h m.to_ marked
    | .draining =>
      if !m.remirror then s.relay h m.to_ body
      else if held.isRows then (w s).relay h m.to_ marked
      else (some ST_OK, w s)
    | .resident => (some ST_OK, w s)
  | none =>
    match s.migs.find? (fun m => holds m && m.to_ == own && m.st == .draining && !m.remirror && m.change.isSome) with
    | some m => (w s).relay h m.from_ marked
    | none => (some ST_OK, w s)

/-- Whether a ROWS packet may write a version in a state: a load writes BUILDING and COMMITTING versions until they are
dropped, a repair the LIVE one (R54, R69, R595). -/
def kindWrites (k : RowsKind) (w : Version) : Bool :=
  match k with
  | .load => (w.st == .building || w.st == .committing) && !w.dropped
  | .repair => w.st == .live
  | .forwarded => w.st != .retiring && !w.dropped
  | _ => true

/-- Rows of a ROWS packet are written into a version. A row that a load writes is lost no longer (R79). The copy of a row
that moves alone, or of a replica, is stored as such (R594). -/
def State.putRows (s : State) (kind : RowsKind) (die h v : Nat) (rows : List RowImage) : State :=
  match (s.table? h).bind (fun t => (t.ver? v).map (fun w => (t, w))) with
  | none => s
  | some (t, w) =>
    if !kindWrites kind w then s
    else rows.foldl (fun s r =>
      match kind with
      | .copy => s.putImage die h v r.row r.image false
      | .moved => s.putImage die h v r.row r.image true
      | .replica => let s1 := s.putImage die h v r.row r.image true
        { s1 with replicas := insertNew (h, r.row, die) s1.replicas }
      | _ => (s.setImage die h v r.row r.image).clearLost t v r.row) s

/-- A row of a load that reaches the home which copies the row to replicas in creation goes to them too (R162, R165), and to
a home that awaits the row. -/
def State.rowsToNew (s : State) (die h v : Nat) (rows : List RowImage) : State :=
  rows.foldl (fun s r => (s.reps.filter (fun j => j.handle == h && j.row == r.row && j.home == s.loc die)).foldl (fun s j =>
    j.targets.foldl (fun s l => s.write die l (.rows .replica h v [r])) s)
    (((s.table? h).map (fun t => s.refillTo die t r.row)).getD [] |>.filter (· != s.loc die) |>.foldl (fun s l => s.write die l (.rows .copy h v [r])) s)) s

/-- The image that a forward carries is written; a copy that holds the row as lost clears its mark (R215). -/
def State.takeImage (s : State) (die : Nat) (f : RowForward) : State :=
  let s1 := s.setImage die f.handle f.ver f.row f.image
  match s1.table? f.handle with
  | some t => if (t.ver? f.ver).isSome then s1.clearLost t f.ver f.row else s1
  | none => s1

/-- A forward reaches a copy. -/
def State.takeForward (s : State) (h : WriteHdr) (f : RowForward) : Option Nat × State :=
  let holds (m : Mig) : Bool := (s.table? f.handle).any (fun t => s.unitHolds m.unit t f.row)
  let w (s : State) : State := s.takeImage h.die f
  if f.marked then (some ST_OK, w s)
  else s.copyWrite h holds (.forward f) (.forward { f with marked := true }) (.forward h f) w

/-- The version that a ROWS packet names takes its rows. -/
def State.rowsTaken (s : State) (kind : RowsKind) (h v : Nat) : Bool := ((s.table? h).bind (·.ver? v)).any (kindWrites kind)

/-- A ROWS packet reaches a copy; one whose version takes no such rows any more is refused with ST_TBL_NOT_BUILDING (R54, R79); copies, and rows that the other copy of a migrating unit has written, are only written. -/
def State.takeRows (s : State) (h : WriteHdr) (kind : RowsKind) (hd v : Nat) (rows : List RowImage) : Option Nat × State :=
  let holds (m : Mig) : Bool := (s.table? hd).any (fun t => rows.any (fun r => s.unitHolds m.unit t r.row))
  match kind with
  | .load | .repair => if !s.rowsTaken kind hd v then (some ST_TBL_NOT_BUILDING, s) else s.copyWrite h holds (.rows kind hd v rows) (.rows .forwarded hd v rows) (.rows h kind hd v rows)
      (fun s => (s.putRows kind h.die hd v rows).rowsToNew h.die hd v rows)
  | .replica => if s.replicaOver h.die hd rows then (some ST_PLC_REPLICA_FULL, s.latch Reg.PLC_STATUS 2) else (some ST_OK, s.putRows kind h.die hd v rows)
  | _ => (some ST_OK, s.putRows kind h.die hd v rows)

/-- A delta reaches a die: held in IN_TRANSIT, applied at the apply point, and sent on from anywhere else. -/
def State.takeDelta (s : State) (h : WriteHdr) (r : DeltaRec) : Option Nat × State :=
  match s.table? r.handle with
  | none => (some ST_FD_NO_TABLE, s)
  | some t =>
    match s.applyPoint h.die t t.vslot r.row with
    | none => (some ST_FD_LOST_ROW, s)
    | some l =>
      if l ≠ s.loc h.die then s.relay h l (.delta r)
      else
        match s.migs.find? (fun m => m.st == .inTransit && m.from_ == l && s.unitHolds m.unit t r.row) with
        | some m => s.hold m (.delta h r)
        | none => s.applyDelta h r

/-! ## The hold queue is released (R167) -/

/-- Answer a held write that has been dealt with. -/
def answerHeld (h : WriteHdr) (r : Option Nat × State) : State :=
  match r with
  | (none, s1) => s1
  | (some x, s1) => s1.pay ⟨h, x, [], none, []⟩

/-- A held write is dealt with at the old home. -/
def State.release (s : State) (w : HeldWrite) : State :=
  match w with
  | .delta h r => answerHeld h (s.takeDelta h r)
  | .forward h f => answerHeld h (s.takeForward h f)
  | .rows h k hd v l => answerHeld h (s.takeRows h k hd v l)

/-- FLIP: N has confirmed every forwarded write, and the drain table of the authority's die has room. The held writes go to N; in a
re-mirror, whose source stays a home, they are dealt with here and go on to N (R166, R167, R174). -/
def execFlip (u : MigUnit) (s : State) : Outcome State Fault Refusal :=
  .next (s.whenServing fun s =>
    match s.ownMig u .inTransit with
    | none => s
    | some m =>
      if !(s.unackedTo u m.to_ false).isEmpty ∨ s.drainFull m.from_ then s
      else
        let c := s.flipChange m
        let s1 := s.modMig (· == m) (fun m => { m with st := .draining, holdUntil := none, held := [], fwd := [], change := some c })
        let s2 := s1.applyDir (locDie m.from_) c
        let s3 := if locNode m.to_ = s.node then s2.applyDir (locDie m.to_) c else s2.write (locDie m.from_) m.to_ (.work (.flipped u c))
        let s4 := if m.remirror then m.held.foldl State.release s3
          else m.held.foldl (fun s w => s.sendHeld (locDie m.from_) m.to_ w) s3
        match s4.domOf m.dom with
        | none => s4
        | some (_, d) =>
          if s4.leads d then s4.chorusAll d c
          else match d.leader with
            | some l => s4.write 0 (s4.memberNode l) (.work (.flipped u c))
            | none => s4)

/-- A unit returns from IN_TRANSIT to COPYING, or is aborted at its third return; its held writes go to the old home
in arrival order. -/
def State.backToCopying (s : State) (m : Mig) : State :=
  let s1 := s.count Reg.PLC_MIG_RETRY 1
  let s2 := if 2 ≤ m.returns then s1.abortMove m
    else (s1.unitState m .copying).modMig (· == m) (fun m => { m with st := .copying, returns := m.returns + 1, holdUntil := none, held := [], fwd := [] })
  m.held.foldl State.release s2

/-- Bytes of the hold queue that a write takes, as its record, or as its header and images (log entry 80), and the size of
the queue (R152). -/
def HeldWrite.bytes : HeldWrite → Nat
  | .delta _ r => recBytes r.len
  | .forward _ f => 24 + f.image.length
  | .rows _ _ _ _ l => l.foldl (fun a r => a + 8 + r.image.length) 16

abbrev holdQueue : Nat := 786432

/-- Units of a die whose hold queue is full go back to COPYING. -/
def State.spill (s : State) (die : Nat) : State :=
  let mine := s.migs.filter (fun m => m.st == .inTransit && m.from_ == s.loc die)
  let used := (mine.flatMap (·.held)).foldl (fun a w => a + w.bytes) 0
  if holdQueue ≤ used then mine.foldl State.backToCopying s else s

/-- HOLD_TIMER_EXPIRES. -/
def execHoldTimerExpires (u : MigUnit) (s : State) : Outcome State Fault Refusal :=
  .next (s.whenServing fun s =>
    match s.ownMig u .inTransit with
    | none => s
    | some m => if m.holdUntil.any (fun t => s.reached t.toNat) then s.backToCopying m else s)

/-! ## Commands -/

/-- Score the failed checks of a row update; a fourth makes the part lost (R536). -/
def State.updaterFails (s : State) (stack : Nat) (f : UpdFails) : State :=
  let u := 6 * 4096 + stack * 32
  let s1 := if f.count = 0 then s else s.checkFailed u f.count (CheckRep.of f.check ST_RAS_CHECK none) (f.count != 1)
  if 4 ≤ f.count then s1.declareLost 0x702 else s1

/-- DELTA_APPLY: a record reaches its apply point; `fails` says how many checks of the update fail. -/
def execDeltaApply (h : WriteHdr) (r : DeltaRec) (fails : UpdFails) (s : State) : Outcome State Fault Refusal :=
  .next (s.whenServing fun s => s.recvOwed h fun s =>
    let stack := ((s.table? r.handle).map (fun t => s.rowStack h.die t r.row)).getD (2 * h.die)
    let s1 := s.updaterFails stack fails
    if 4 ≤ fails.count then (none, s1) else (s1.spill h.die).takeDelta h r)

/-- DELTA_FORWARD: a row image reaches a copy. -/
def execDeltaForward (h : WriteHdr) (f : RowForward) (s : State) : Outcome State Fault Refusal :=
  .next (s.whenServing fun s => s.recvOwed h fun s => (s.spill h.die).takeForward h f)

/-- ROWS_PACKET: rows of a load, a repair load or a copy reach a die. -/
def execRowsPacket (h : WriteHdr) (kind : RowsKind) (hd v : Nat) (rows : List RowImage) (s : State) : Outcome State Fault Refusal :=
  .next (s.whenServing fun s => s.recvOwed h fun s => (s.spill h.die).takeRows h kind hd v rows)

/-- A chorus write: a directory change that comes from another part goes to every die of this one, and is answered once they have it
(R501); at a die it lands in the directory copy; a row image of a copy is written. -/
def State.takeChorus (s : State) (h : WriteHdr) (m : ChorusMsg) : Option Nat × State :=
  match m with
  | .row f => (some ST_OK, s.takeImage h.die f)
  | .dir c =>
    if !h.linked then (some ST_OK, s.applyDir h.die c)
    else
      let (names, s1) := (List.range 8).foldl (fun (acc : List (Nat × Nat) × State) k =>
        let (x, s1) := acc.2.sendNamed 0 (s.loc k) (.chorus (.dir c))
        (acc.1 ++ x.toList, s1)) ([], s)
      (none, s1.owe ⟨h, ST_OK, names, none, []⟩)

/-- CHORUS_WRITE. -/
def execChorusWrite (h : WriteHdr) (m : ChorusMsg) (s : State) : Outcome State Fault Refusal :=
  .next (s.whenServing fun s => s.recvOwed h fun s => s.takeChorus h m)

end Sys2Proof.Machine
end

