-- ==== Sys2Proof/Machine/Stats.lean ====
section
/-! DEFINITION. What the end of a launch leaves: the statistics of its edition, its slip and its fate (R412, R428, R431 to R433). -/
namespace Sys2Proof.Machine

/-! ## Exact numbers (R428) -/

namespace Frac

def ofNat (n : Nat) : Frac := ⟨n, 0⟩

/-- The numerator over 2^m, for m not below the number's own. -/
def at_ (a : Frac) (m : Nat) : Nat := a.n * 2 ^ (m - a.sh)

/-- a + (b - a) / 16. -/
def toward (a b : Frac) : Frac :=
  let m := max a.sh b.sh
  ⟨15 * a.at_ m + b.at_ m, m + 4⟩

/-- |a - b|. -/
def dist (a b : Frac) : Frac :=
  let m := max a.sh b.sh
  ⟨(a.at_ m - b.at_ m) + (b.at_ m - a.at_ m), m⟩

/-- a + 2 b. -/
def plus2 (a b : Frac) : Frac :=
  let m := max a.sh b.sh
  ⟨a.at_ m + 2 * b.at_ m, m⟩

end Frac

/-- The statistics of an edition after a launch that ran for `run` ticks and passed `safes` safe points (R428). -/
def Edition.learn (e : Edition) (run safes : Nat) : Edition :=
  let e1 : Edition := if e.samples = 0 then { e with mean := .ofNat run, dev := ⟨run, 2⟩, meanSafe := .ofNat safes }
    else { e with
      dev := e.dev.toward ((Frac.ofNat run).dist e.mean)
      mean := e.mean.toward (.ofNat run)
      meanSafe := e.meanSafe.toward (.ofNat safes) }
  { e1 with samples := min (e.samples + 1) 65535, estRun := e1.mean.plus2 e1.dev }

/-! ## The slip factor (R432) -/

/-- The window of 2^32 ticks that an instant lies in. -/
def windowOf (now : Nat) : Nat := now / 2 ^ 32

/-- The reference windows at an instant: one that is neither current nor previous is forgotten. -/
def Edition.roll (e : Edition) (now : Nat) : Edition :=
  if e.window = windowOf now then e
  else { e with
    refPrev := if e.window + 1 = windowOf now then e.refCur else none
    refCur := none
    window := windowOf now }

/-- A launch that counts sets a new least wall time. -/
def Edition.least (e : Edition) (wall : Nat) : Edition := { e with refCur := some (min wall (e.refCur.getD wall)) }

/-- The reference of an edition. -/
def Edition.ref (e : Edition) : Option Nat :=
  match e.refCur, e.refPrev with
  | some a, some b => some (min a b)
  | some a, none => some a
  | none, b => b

/-- Slip of a launch of some wall time: 8.8, rounded down, saturating, and at least 1.0 unless it was swapped. `x` is open and
stands where there is no reference to divide by. -/
def slipOf (ref : Option Nat) (wall : Nat) (swapped : Bool) (x : Nat) : Nat :=
  let q := match ref with
    | some r => if r = 0 then x % 65536 else wall * 256 / r
    | none => x % 65536
  min 0xFFFF (if swapped then q else max 0x100 q)

/-- Qk_SLIP after a launch (R433). -/
def slipMean (old slip : Nat) : Nat :=
  if old = 0 then slip else (((old : Int) + ((slip : Int) - old) / 16)).toNat

/-! ## The end (R412, R414) -/

/-- An edition of a script. -/
def State.edition? (s : State) (h e : Nat) : Option Edition :=
  (s.scripts.find? (·.handle == h)).bind (fun c => c.editions.find? (·.num == e))

/-- Change an edition of a script. -/
def State.modEdition (s : State) (h e : Nat) (f : Edition → Edition) : State :=
  { s with scripts := modFirst (·.handle == h) (fun c => { c with editions := modFirst (·.num == e) f c.editions }) s.scripts }

/-- FATE of a launch that has ended. -/
def Ctx.fate (c : Ctx) : Nat :=
  if c.expired then 5
  else if c.deadline = 0 then 0
  else (if c.swapped then 3 else 1) + b2n (decide (c.deadline.toNat < c.finish.toNat))

/-- Safe points passed, over all clusters. -/
def Ctx.safePoints (c : Ctx) : Nat := (c.cls.map (·.safes)).sum

/-- LATE is set for the fates 2, 4 and 5, and the late and the expired launches are counted (R431, R441). -/
def State.noteFate (s : State) (fate : Nat) : State :=
  match fate with
  | 2 => (s.latch Reg.CFE_STATUS 5).count Reg.CFE_LATE 1
  | 4 => (s.latch Reg.CFE_STATUS 5).count Reg.CFE_LATE 1
  | 5 => (s.latch Reg.CFE_STATUS 5).count Reg.CFE_EXPIRED 1
  | _ => s

/-- The statistics, the slip and the fate of a launch that ends now, its status and FINISH set. Its wall time belongs to the window of
its FINISH, and a new least value sets the reference before its own slip is taken (R432). -/
def State.account (s : State) (c : Ctx) : State :=
  let good := c.status = some ST_OK ∧ !c.swapped
  let wall := c.finish.toNat - c.admitG.toNat
  let s1 := s.modEdition c.script c.edition (fun e =>
    let e1 := e.roll c.finish.toNat
    if good then (e1.learn (c.finish.toNat - c.t0.toNat) c.safePoints).least wall else e1)
  let (x, s2) := s1.free
  let slip := slipOf ((s2.edition? c.script c.edition).bind (·.ref)) wall c.swapped x.toNat
  let s3 := s2.setRegN (Reg.Q_SLIP c.slot) (slipMean (s2.regF (Reg.Q_SLIP c.slot) 15 0) slip)
  (s3.modCtx c.id (fun c => { c with slip := slip })).noteFate c.fate

end Sys2Proof.Machine
end

