-- ==== Sys2Proof/Machine/Rings.lean ====
section
/-! DEFINITION. The slot-ring controller: acquires, publishes and releases of a ring, and arrivals at a curtain (R316
to R334). -/
namespace Sys2Proof.Machine

/-! ## One ring (R316 to R320) -/

/-- How an acquire, publish or release goes. -/
inductive RingRes where
  | ok (r : Ring) (slot fill : Nat) (fin : Bool)
  | endInd
  | wait
  | bad
  deriving DecidableEq, Repr

/-- The number in the stream of the slot that a counter stands at. -/
def Ring.num (r : Ring) (c : BitVec 32) : Nat := r.relN + (c - r.rel).toNat

/-- The slot that a counter stands at (R316). -/
def Ring.slotOf (r : Ring) (c : BitVec 32) : Nat := r.num c % r.slots

/-- A producer acquire (R317, R318). -/
def Ring.acqProd (r : Ring) : RingRes :=
  if r.endPub then .bad
  else if (r.pacq - r.rel).toNat < r.slots then .ok { r with pacq := r.pacq + 1 } (r.slotOf r.pacq) 0 false
  else .wait

/-- A publish of the oldest acquired slot (R318). -/
def Ring.publish (r : Ring) (fill : Nat) (fin : Bool) : RingRes :=
  if r.pub = r.pacq ∨ r.slotBytes < fill then .bad
  else .ok { r with pub := r.pub + 1, pubs := r.pubs ++ [⟨fill, fin⟩], endPub := r.endPub || fin, endLast := fin } (r.slotOf r.pub) fill fin

/-- A consumer acquire (R319). -/
def Ring.acqCons (r : Ring) : RingRes :=
  if r.cacq ≠ r.pub then
    match r.pubs[(r.cacq - r.rel).toNat]? with
    | some p => .ok { r with cacq := r.cacq + 1 } (r.slotOf r.cacq) p.fill p.fin
    | none => .wait
  else if r.endLast then .endInd
  else .wait

/-- A release of the oldest acquired slot (R320). -/
def Ring.release (r : Ring) : RingRes :=
  if r.rel = r.cacq then .bad else .ok { r with rel := r.rel + 1, relN := r.relN + 1, pubs := r.pubs.drop 1 } (r.slotOf r.rel) 0 false

/-- Frame offset of a slot in the home cluster. -/
def Ring.slotOff (r : Ring) (slot : Nat) : Nat := r.base + slot * r.slotBytes

/-- Due time of slot n (R332). -/
def Ring.due (r : Ring) (t0 : Word) (n : Nat) : Nat := t0.toNat + r.lead + n * r.period

/-- The number of the slot that is published next (R316, R332). -/
def Ring.slotNo (r : Ring) : Nat := r.num r.pub

/-- WORST after slot n is published at an instant (R333). -/
def Ring.late (r : Ring) (t0 : Word) (now n : Nat) : Ring :=
  if r.mode ≠ 0 ∧ r.due t0 n < now then { r with worst := max r.worst (min (2 ^ 32 - 1) (now - r.due t0 n)) } else r

/-- Every slot that the consumer holds is released. -/
def Ring.releaseAll (r : Ring) : Ring := { r with rel := r.cacq, relN := r.num r.cacq, pubs := r.pubs.drop (r.cacq - r.rel).toNat }

/-! ## The rings of a context -/

/-- The ring with REG k. -/
def Ctx.ring? (c : Ctx) (k : Nat) : Option Ring := c.rings.find? (·.reg == k)

/-- A ring event: the ring's state is kept and the stall clock returns to zero (R339). -/
def State.setRing (s : State) (id : Nat) (r : Ring) : State :=
  s.modCtx id (fun c => { c with rings := modFirst (·.reg == r.reg) (fun _ => r) c.rings, stallClock := 0, stalled := false })

/-- Publish a slot; a late one of a real-time ring raises WORST. `none` for ST_RING_ORDER. -/
def State.ringPublish (s : State) (id k fill : Nat) (fin : Bool) : Option State :=
  match (s.ctx? id).bind (fun c => (c.ring? k).map (fun r => (c, r))) with
  | none => none
  | some (c, r) =>
    match r.publish fill fin with
    | .ok r' _ _ _ => some (s.setRing id (r'.late c.t0 s.now r.slotNo))
    | _ => none

/-! ## Curtains (R328, R330) -/

/-- An arrival counts: the one that makes EXPECT opens the generation. -/
def Curtain.arrive (k : Curtain) : Curtain :=
  if k.expect ≤ k.count + 1 then { k with gen := k.gen + 1, count := 0 } else { k with count := k.count + 1 }

def Ctx.curtain? (c : Ctx) (n : Nat) : Option Curtain := c.curtains[n]?

/-! ## A cluster's share of a context -/

def Ctx.on? (c : Ctx) (cl : Nat) : Option ClCtx := c.cls.find? (·.cl == cl)

/-- The cluster index of a cluster of the launch (R354). -/
def Ctx.index (c : Ctx) (cl : Nat) : Nat := c.cls.findIdx (·.cl == cl)

/-- The cluster of a cluster index. -/
def Ctx.atIndex (c : Ctx) (n : Nat) : Option ClCtx := c.cls[n]?

def State.modOn (s : State) (id cl : Nat) (f : ClCtx → ClCtx) : State :=
  s.modCtx id (fun c => { c with cls := modFirst (·.cl == cl) f c.cls })

/-- The generation a cluster's prompter last arrived at. -/
def ClCtx.lastGen (k : ClCtx) (n : Nat) : Option Nat := (k.arrived[n]?).getD none

/-- The arrival of a cluster's prompter at a curtain. -/
def State.arriveAt (s : State) (id cl n : Nat) : State :=
  match (s.ctx? id).bind (·.curtain? n) with
  | none => s
  | some k =>
    let s1 := s.modOn id cl (fun x => { x with arrived := (List.range 8).map (fun j => if j = n then some k.gen else x.lastGen j) })
    s1.modCtx id (fun c => { c with curtains := listMod c.curtains n Curtain.arrive, stallClock := 0, stalled := false })

/-! ## A launch ends early (R326, R363) -/

/-- A launch ends with a status: every cluster of it is cancelled, every waiting acquire is abandoned, and the CFE waits for no
translation of it any more (R465). The first status stands. -/
def State.endLaunch (s : State) (id st : Nat) : State :=
  (s.dropWaits (· == .args id)).modCtx id (fun c =>
    if c.status.isSome then c
    else { c with status := some st, st := .cancelling, swapping := false, cls := c.cls.map (fun k => { k with cancelled := true, wait := none }) })

/-- A launch ends: its status and FINISH stand, and the command of a queue launch waits for its record. A launch that the abort of
its queue cancelled posts none (R435). -/
def State.finishLaunch (s : State) (id : Nat) : State :=
  match s.ctx? id with
  | none => s
  | some c =>
    let st := c.status.getD ST_OK
    let c1 := { c with st := .ended, status := some st, finish := s.time.gtime }
    let s1 := s.modCtx id (fun _ => c1)
    if c.aborted then s1
    else if c.cue.isSome then s1.account c1
    else (s1.account c1).endCmd c.slot c.n st c.reply.length

/-- Every prompter and every engine of a launch has acknowledged its cancel, or has nothing to stop. -/
def Ctx.quiet (c : Ctx) : Bool := c.cls.all (fun k => k.running.isEmpty && (k.acked || k.exited))

/-- A cancelled launch whose clusters have all acknowledged ends; one that is being swapped gives up its frames, its rings and its
reply and waits for the director (R430). -/
def State.settleCtx (s : State) (id : Nat) : State :=
  match s.ctx? id with
  | none => s
  | some c =>
    if c.st ≠ .cancelling ∨ !c.quiet then s
    else if c.swapping then
      let s1 := (s.freeClusters c).modCtx id (fun c => { c with
        st := .admitted, swapping := false, swapped := true, reply := [], cls := [], rings := [], curtains := [], t0 := 0, segs := [], newMisses := 0
        pastGpe := c.pastGpe || c.cls.any (·.usedGpe), pastTe := c.pastTe || c.cls.any (·.usedTe)
        pastCutGpe := c.pastCutGpe || c.cls.any (·.cutGpe), pastCutTe := c.pastCutTe || c.cls.any (·.cutTe) })
      (c.cls.map (·.cl)).foldl State.repick s1
    else s.finishLaunch id

/-- A launch under the abort of its queue has been cancelled on every cluster that had not exited: it comes to its end (R435). -/
def State.abortDone (s : State) (id : Nat) : State :=
  match s.ctx? id with
  | none => s
  | some c =>
    if c.aborted ∧ c.st = .running ∧ c.cls.all (fun k => k.exited || k.cancelled) then
      (s.modCtx id (fun c => { c with st := .cancelling, status := some (c.status.getD ST_OK) })).settleCtx id
    else s.settleCtx id

end Sys2Proof.Machine
end

