-- ==== Sys2Proof/Machine/Issue.lean ====
section
/-! DEFINITION. The prompter: registers of a context, frames and the shared area, and the issue of one instruction
(R350 to R363, R380). -/
namespace Sys2Proof.Machine

/-! ## Registers of a context on a cluster (R353) -/

namespace ClCtx

def s (k : ClCtx) (n : Nat) : Word := if n = 0 then 0 else k.sreg.getD n 0
def setS (k : ClCtx) (n : Nat) (v : Word) : ClCtx := if n = 0 then k else { k with sreg := k.sreg.set n v }
def t (k : ClCtx) (n : Nat) : BitVec 128 := k.treg.getD n 0
def setT (k : ClCtx) (n : Nat) (v : BitVec 128) : ClCtx := { k with treg := k.treg.set n v }
def p (k : ClCtx) (n : Nat) : Bool := n == 0 || k.preg.getD n false
def setP (k : ClCtx) (n : Nat) (v : Bool) : ClCtx := if n = 0 then k else { k with preg := k.preg.set n v }

/-- PC after an instruction of `size` words that does not branch; the end word of the innermost active loop closes an
iteration (R366). -/
def advance (k : ClCtx) (size : Nat) : ClCtx :=
  match k.loops with
  | [] => { k with pc := k.pc + size }
  | l :: rest =>
    if k.pc + size - 1 = l.last then
      if 1 < l.left.toNat then { k with pc := l.first, loops := { l with left := l.left - 1 } :: rest }
      else { k with pc := k.pc + size, loops := rest }
    else { k with pc := k.pc + size }

/-- Active loops after a taken branch: those whose body does not hold the target end, from the innermost (R366). -/
def leave (pc : Nat) : List LoopEnt → List LoopEnt
  | [] => []
  | l :: rest => if l.first ≤ pc ∧ pc ≤ l.last then l :: rest else leave pc rest

def branch (k : ClCtx) (pc : Nat) : ClCtx := { k with pc := pc, loops := leave pc k.loops }

end ClCtx

/-! ## The edition a context runs -/

/-- The image of the edition a context runs. -/
def State.image (s : State) (c : Ctx) : Bytes := ((s.edition? c.bound.1 c.bound.2).map (·.image)).getD []

def frameBytes (img : Bytes) : Nat := rd img 20 4
def sharedBytes (img : Bytes) : Nat := rd img 24 4

/-! ## Offsets (R350, R351) -/

/-- Where a shared-area offset starts. -/
abbrev sharedStart : Nat := 0x00C00000

/-- Base of the shared area that a context sees on a cluster. -/
def State.sharedBase (s : State) (c : Ctx) (cl : Nat) : Option Nat :=
  (((s.clusters[cl]?).map (·.shared)).getD []).find? (fun e => e.1 == c.bound.1 && e.2.1 == c.bound.2) |>.map (fun e => e.2.2.1)

/-- Scratch offset of a frame range; `none` outside the frame. -/
def State.frameAt (s : State) (c : Ctx) (k : ClCtx) (off len : Nat) : Option Nat :=
  if off + len ≤ frameBytes (s.image c) then some (k.base + off) else none

/-- Scratch offset of a range that is read: in the frame or in the shared area. -/
def State.readAt (s : State) (c : Ctx) (k : ClCtx) (off len : Nat) : Option Nat :=
  match s.frameAt c k off len with
  | some a => some a
  | none =>
    if sharedStart ≤ off ∧ off + len ≤ sharedStart + sharedBytes (s.image c) then
      (s.sharedBase c k.cl).map (fun b => b + (off - sharedStart))
    else none

/-- Bytes that a context reads on a cluster; a byte outside reads as zero, which no checked access meets. -/
def State.ctxRead (s : State) (c : Ctx) (k : ClCtx) (off len : Nat) : Bytes :=
  match s.readAt c k off len with
  | some a => s.scrRead k.cl a len
  | none => List.replicate len 0

/-- Write bytes to a context's frame on a cluster. -/
def State.ctxWrite (s : State) (c : Ctx) (k : ClCtx) (off : Nat) (b : Bytes) : State :=
  match s.frameAt c k off b.length with
  | some a => s.scrWrite k.cl a b
  | none => s

/-- A read range of a context holds a bad word (R533). -/
def State.ctxBad (s : State) (c : Ctx) (k : ClCtx) (off len : Nat) : Bool :=
  (s.readAt c k off len).any (fun a => s.rangeBad k.cl a len)

/-! ## Footprints (R360) -/

def Range.meets (a b : Range) : Bool := decide (a.off < b.off + b.len) && decide (b.off < a.off + a.len)

/-- A byte lies in both lists of ranges. -/
def meetAny (a b : List Range) : Bool := a.any (fun x => b.any x.meets)

/-- An earlier engine instruction that runs overlaps these ranges, one of the two writing. -/
def ClCtx.clash (k : ClCtx) (reads writes : List Range) : Bool :=
  k.running.any (fun o => writes.any (fun w => o.reads.any w.meets || o.writes.any w.meets) || reads.any (fun r => o.writes.any r.meets))

/-! ## Issue (R356, R359) -/

/-- The context and its share of the cluster that issue. -/
structure Site where
  c : Ctx
  k : ClCtx
  deriving DecidableEq, Repr

/-- How an instruction goes at issue. -/
inductive Iss where
  /-- it took effect, and the PC goes on -/
  | done (s : State)
  /-- a branch was taken -/
  | branch (s : State) (pc : Nat)
  /-- the PC changed and the loop stack did not -/
  | goto (s : State) (pc : Nat)
  /-- it waits at issue -/
  | wait (w : Wait)
  /-- it took part of its effect, and waits -/
  | hold (s : State) (w : Wait)
  /-- a fault of R380, with the CODE of CL_TRAP -/
  | fault (st code : Nat)
  /-- the launch ends with a status that is no fault of R380 -/
  | fail (s : State) (st : Nat)
  /-- a safe point was passed -/
  | safe (s : State)
  /-- the cluster's part of the launch is done -/
  | exit (s : State)

/-- The context whose instruction a cluster's prompter issues now. -/
def State.site? (s : State) (cl : Nat) : Option Site :=
  match s.clusters[cl]? with
  | none => none
  | some u =>
    if u.running then
      (s.ctx? u.ctx).bind (fun c => (c.on? cl).bind (fun k => if c.held k then some ⟨c, k⟩ else none))
    else none

/-- The instruction is issued, and the context waits for nothing. -/
def State.issued (s : State) (a : Site) (f : ClCtx → ClCtx) : State :=
  (s.count (Reg.CL_ISSUED a.k.cl) 1).modOn a.c.id a.k.cl (fun k => f { k with wait := none })

/-- A fault of R380: it is recorded, counted, and ends the launch. -/
def State.trap (s : State) (id cl pc st code : Nat) : State :=
  match s.ctx? id with
  | none => s
  | some c =>
    let s1 := s.setRegN (Reg.CL_TRAP cl) (code * 2 ^ 40 + st * 2 ^ 24 + id)
    let s2 := s1.setRegN (Reg.CL_TRAP_PC cl) (c.bound.1 * 2 ^ 48 + c.bound.2 * 2 ^ 32 + pc)
    (s2.count Reg.ISA_TRAPS 1).endLaunch id st

/-- The arrays hold, or are about to hold, the accumulators of a context on a cluster (R261). -/
def ClCtx.holdsAcc (k : ClCtx) : Bool := k.acc.isSome || k.running.any (fun o => o.kind == .mma || o.kind == .conv1)

/-- The instruction waits at issue. At a pre-emption point, a context that holds no accumulators gives its place to a
ready one (R379, R425). -/
def State.park (s : State) (a : Site) (w : Wait) : State :=
  let s1 := s.modOn a.c.id a.k.cl (fun k => { k with wait := some w })
  if w = .issue ∨ a.k.holdsAcc then s1 else s1.switchTo a.k.cl (fun c => c.id != a.c.id)

/-- Words of an instruction (R355). -/
def wordsOf (i : BWord) : Nat := if i.ext.isSome then 2 else 1

/-- What `safe` and `exit` do is given by the caller: the monitor, and the end of the launch. -/
def State.settleIssue (s : State) (a : Site) (size : Nat) (atSafe atExit : Site → State → State) : Iss → State
  | .done s1 => s1.issued a (fun k => k.advance size)
  | .branch s1 pc => s1.issued a (fun k => k.branch pc)
  | .goto s1 pc => s1.issued a (fun k => { k with pc := pc })
  | .wait w => s.park a w
  | .hold s1 w => s1.park a w
  | .fault st code => (s.issued a id).trap a.c.id a.k.cl a.k.pc st code
  | .fail s1 st => (s1.issued a id).endLaunch a.c.id st
  | .safe s1 => atSafe a (s1.issued a (fun k => k.advance size))
  | .exit s1 => atExit a (s1.issued a id)

/-- Issue an instruction on a cluster: a guard that is false makes it a no-op, and one that reads or writes a scalar
register (`regs`) that an ATOM has yet to fill waits (R356, R359, R374). -/
def State.issueWith (s : State) (cl : Nat) (i : BWord) (regs : List Nat) (atSafe atExit : Site → State → State)
    (f : Site → State → Iss) : State :=
  s.whenServing fun s =>
    match s.site? cl with
    | none => s
    | some a =>
      if a.k.p i.pg == i.pn then s.issued a (fun k => k.advance (wordsOf i))
      else if a.k.running.any (fun o => o.dreg.any regs.contains) then s.park a .issue
      else s.settleIssue a (wordsOf i) atSafe atExit (f a s)

/-- Issue of every instruction but SAFE, YIELD and EXIT. -/
def State.issue (s : State) (cl : Nat) (i : BWord) (regs : List Nat) (f : Site → State → Iss) : State :=
  s.issueWith cl i regs (fun _ s => s) (fun _ s => s) f

/-- Change the registers of the issuing context. -/
def Site.set (a : Site) (s : State) (f : ClCtx → ClCtx) : State := s.modOn a.c.id a.k.cl f

/-- The sign-extended immediate. -/
def immOf (i : BWord) : Word := i.imm.signExtend 64

/-! ## Engine instructions (R359 to R361) -/

/-- An engine instruction with its operands as they stand at issue. -/
def Site.op (a : Site) (s : State) (cls : EClass) (kind : EKind) (i : BWord) (reads writes : List Range) : EngOp where
  id := s.nextOp
  cls := cls
  kind := kind
  i := i
  t := [a.k.t i.d, a.k.t i.a, a.k.t i.b, a.k.t i.c]
  x := [a.k.s i.d, a.k.s i.a, a.k.s i.b, a.k.s i.c, a.k.s ((i.ext.getD 0).toNat % 32)]
  desc := []
  at_ := s.time.gtime
  reads := reads
  writes := writes
  got := []
  out := none
  flags := 0
  status := ST_OK
  dreg := none
  xfer := none
  gpe := none
  pc := a.k.pc
  failed := none

/-- Queue an engine instruction: it waits at issue for its footprint, for one of the 32 places of the context, and for
room in the queue of its class (R359, R360). -/
def Site.enqueue (a : Site) (s : State) (o : EngOp) : Iss :=
  if a.k.clash o.reads o.writes ∨ 32 ≤ a.k.running.length then .wait .issue
  else if s.queueFull a.k.cl o.cls then .wait (.queueFull o.cls)
  else .done (a.set { s with nextOp := s.nextOp + 1 } (fun k => { k with running := k.running ++ [o] }))

end Sys2Proof.Machine
end

