-- ==== Sys2Proof/Machine/Operands.lean ====
section
/-! DEFINITION. Operand forms: tile descriptors (R364), their fields (R367), and the conditions of CMP and BRC (R365). -/
namespace Sys2Proof.Machine

/-- A tile descriptor (R364). -/
structure Tile where
  base : Nat
  fmt : Nat
  ring : Nat
  ringed : Bool
  rows : Nat
  cols : Nat
  stride : Nat
  mxbase : Nat
  deriving DecidableEq, Repr

/-- Field of a descriptor by selector of TSET: its bits in the 128 (R364, R367). -/
def tileBits (sel : Nat) : Nat × Nat :=
  match sel with
  | 0 => (23, 0)
  | 1 => (27, 24)
  | 2 => (48, 32)
  | 3 => (80, 64)
  | 4 => (103, 81)
  | 5 => (127, 104)
  | _ => (31, 28)

def tileField (t : BitVec 128) (sel : Nat) : Nat := fld t.toNat (tileBits sel).1 (tileBits sel).2

def setTileField (t : BitVec 128) (sel v : Nat) : BitVec 128 :=
  BitVec.ofNat 128 (putFld t.toNat (tileBits sel).1 (tileBits sel).2 v)

/-- The width of a field in bits. -/
def tileWidth (sel : Nat) : Nat := (tileBits sel).1 + 1 - (tileBits sel).2

def tileOf (t : BitVec 128) : Tile where
  base := tileField t 0
  fmt := tileField t 1
  ring := tileField t 6 % 8
  ringed := decide (8 ≤ tileField t 6)
  rows := tileField t 2
  cols := tileField t 3
  stride := tileField t 4
  mxbase := tileField t 5

/-- An MX format (R250). -/
def isMx (fmt : Nat) : Bool := decide (6 ≤ fmt) && decide (fmt ≤ 9)

/-- Row stride of the scales of an MX tile of n columns (R364). -/
def scaleStride (cols : Nat) : Nat := alignUp (ceilDiv cols 32) 32

/-- Bytes of n elements of a format; 4-bit elements are packed two to a byte (R44, R249). -/
def elemBytes (fmt n : Nat) : Nat := ceilDiv (n * fmtBits fmt) 8

/-- The bytes of rows laid out at a stride: one range where no gap lies between them, and else one for each row. -/
def rowsRanges (base rows stride rowLen : Nat) : List Range :=
  if rows = 0 then []
  else if stride ≤ rowLen then [⟨base, (rows - 1) * stride + rowLen⟩]
  else (List.range rows).map (fun r => ⟨base + r * stride, rowLen⟩)

/-- The elements of a tile; no frame range when its rows come from a ring. -/
def Tile.range (t : Tile) : List Range := if t.ringed then [] else rowsRanges t.base t.rows t.stride (elemBytes t.fmt t.cols)

/-- The elements of a tile and, for an MX format, its scales. -/
def Tile.ranges (t : Tile) : List Range :=
  t.range ++ (if isMx t.fmt then rowsRanges t.mxbase t.rows (scaleStride t.cols) (ceilDiv t.cols 32) else [])

/-- A condition of CMP and BRC: 0 EQ, 1 NE, 2 LT, 3 GE, 4 LTU, 5 GEU (R365). -/
def condHolds (c : Nat) (a b : Word) : Bool :=
  match c with
  | 0 => a == b
  | 1 => a != b
  | 2 => a.slt b
  | 3 => !a.slt b
  | 4 => a.ult b
  | _ => !a.ult b

/-- A bit of FN. -/
def fnBit (i : BWord) (k : Nat) : Bool := i.fn.getLsbD k

/-- Bits hi:lo of FN. -/
def fnFld (i : BWord) (hi lo : Nat) : Nat := fld i.fn.toNat hi lo

/-- Operand B of an arithmetic instruction: IMM with I set, sB otherwise (R365). -/
def opB (i : BWord) (k : ClCtx) : Word := if fnBit i 0 then immOf i else k.s i.b

/-- Scalar registers of an arithmetic instruction. -/
def aluRegs (i : BWord) : List Nat := if fnBit i 0 then [i.d, i.a] else [i.d, i.a, i.b]

end Sys2Proof.Machine
end

