-- ==== Sys2Proof/Machine/Scalar.lean ====
section
/-! DEFINITION. Scalar, load, store, branch, loop, tile-descriptor and table-binding instructions (R354, R365 to R367,
R370). -/
namespace Sys2Proof.Machine

/-! ## Arithmetic (R365) -/

/-- An instruction whose only effect is on the registers of the context. -/
def Site.regs (a : Site) (s : State) (f : ClCtx → ClCtx) : Iss := .done (a.set s f)

/-- sD := op sA (sB or IMM). -/
def State.alu (s : State) (cl : Nat) (i : BWord) (op : Word → Word → Word) : State :=
  s.issue cl i (aluRegs i) (fun a s => a.regs s (fun k => k.setS i.d (op (k.s i.a) (opB i k))))

/-- ADD. -/
def execAdd (cl : Nat) (i : BWord) (s : State) : Outcome State Fault Refusal := .next (s.alu cl i (· + ·))
/-- SUB. -/
def execSub (cl : Nat) (i : BWord) (s : State) : Outcome State Fault Refusal := .next (s.alu cl i (· - ·))
/-- MUL: the low 64 bits. -/
def execMul (cl : Nat) (i : BWord) (s : State) : Outcome State Fault Refusal := .next (s.alu cl i (· * ·))
/-- AND. -/
def execAnd (cl : Nat) (i : BWord) (s : State) : Outcome State Fault Refusal := .next (s.alu cl i (· &&& ·))
/-- OR. -/
def execOr (cl : Nat) (i : BWord) (s : State) : Outcome State Fault Refusal := .next (s.alu cl i (· ||| ·))
/-- XOR. -/
def execXor (cl : Nat) (i : BWord) (s : State) : Outcome State Fault Refusal := .next (s.alu cl i (· ^^^ ·))

/-- SHL by the low 6 bits. -/
def execShl (cl : Nat) (i : BWord) (s : State) : Outcome State Fault Refusal :=
  .next (s.alu cl i (fun a b => a <<< (b.toNat % 64)))

/-- SHR by the low 6 bits, logical unless ARITH (FN bit 1) is set. -/
def execShr (cl : Nat) (i : BWord) (s : State) : Outcome State Fault Refusal :=
  .next (s.alu cl i (fun a b => if fnBit i 1 then a.sshiftRight (b.toNat % 64) else a >>> (b.toNat % 64)))

/-- CMP: pD := the condition of FN bits 3:1. -/
def execCmp (cl : Nat) (i : BWord) (s : State) : Outcome State Fault Refusal :=
  .next (s.issue cl i ((aluRegs i).drop 1) (fun a s =>
    a.regs s (fun k => k.setP i.d (condHolds (fnFld i 3 1) (k.s i.a) (opB i k)))))

/-- SEL. -/
def execSel (cl : Nat) (i : BWord) (s : State) : Outcome State Fault Refusal :=
  .next (s.issue cl i [i.d, i.a, i.b] (fun a s =>
    a.regs s (fun k => k.setS i.d (if k.p i.c then k.s i.a else k.s i.b))))

/-- LI: IMM, or the extension word. -/
def execLi (cl : Nat) (i : BWord) (s : State) : Outcome State Fault Refusal :=
  .next (s.issue cl i [i.d] (fun a s => a.regs s (fun k => k.setS i.d (i.ext.getD (immOf i)))))

/-! ## Special registers (R354) -/

/-- Iterations remaining in an active loop, innermost first; 0 for a level that is not active. -/
def ClCtx.lcnt (k : ClCtx) (n : Nat) : Word := ((k.loops[n]?).map (·.left)).getD 0

/-- The value of special register n; `none` for a number that R354 does not give. -/
def State.spr (s : State) (a : Site) (n : Nat) : Option Word :=
  match n with
  | 0x00 => some s.time.gtime
  | 0x01 => some a.c.deadline
  | 0x02 => some (BitVec.ofNat 64 a.c.id)
  | 0x03 => some (BitVec.ofNat 64 (a.c.index a.k.cl))
  | 0x04 => some (BitVec.ofNat 64 a.c.cls.length)
  | 0x05 => some (BitVec.ofNat 64 a.k.cl)
  | 0x06 => some (BitVec.ofNat 64 (a.c.bound.1 * 65536 + a.c.bound.2))
  | 0x07 => some (if a.c.swapped then 1 else 0)
  | 0x08 => some (BitVec.ofNat 64 a.k.aflags)
  | 0x09 => some (BitVec.ofNat 64 a.k.vflags)
  | 0x0A => some (a.k.lcnt 0)
  | 0x0B => some (a.k.lcnt 1)
  | 0x0C => some (a.k.lcnt 2)
  | 0x0D => some (a.k.lcnt 3)
  | 0x0E => some (BitVec.ofNat 64 (frameBytes (s.image a.c)))
  | 0x0F => some a.c.t0
  | _ => none

/-! ## Loads and stores -/

/-- Address of an access: sA + IMM. -/
def Site.addr (a : Site) (i : BWord) : Nat := (a.k.s i.a + immOf i).toNat

/-- Size of an access in bytes. -/
def accSize (i : BWord) : Nat := 2 ^ fnFld i 1 0

/-- A scratch word met by a read, as it stands and as the read found it: the state after, and whether it may be used
(R533). -/
def State.meet (s : State) (a : Site) (off len : Nat) (ecc : GranuleHealth) : State × Bool :=
  if s.ctxBad a.c a.k off len then (s, false)
  else
    match ecc with
    | .good => (s, true)
    | .corrected => (s.sramCorrected, true)
    | .uncorrectable => (s.scratchBadWord a.k.cl ((s.readAt a.c a.k off len).getD 0), false)

/-- LD. `ecc` is what the read of scratch meets (R533). -/
def execLd (cl : Nat) (i : BWord) (ecc : GranuleHealth) (s : State) : Outcome State Fault Refusal :=
  .next (s.issue cl i [i.d, i.a] (fun a s =>
    if fnBit i 3 then
      match s.spr a (immOf i).toNat with
      | some v => a.regs s (fun k => k.setS i.d v)
      | none => .fault ST_ISA_OPERAND 0
    else
      let n := accSize i
      let off := a.addr i
      if (s.readAt a.c a.k off n).isNone then .fault ST_ISA_RANGE 0
      else if off % n ≠ 0 then .fault ST_ISA_ALIGN 0
      else if a.k.clash [⟨off, n⟩] [] then .wait .issue
      else
        let (s1, ok) := s.meet a off n ecc
        if ok then
          let v := leNat (s.ctxRead a.c a.k off n)
          a.regs s1 (fun k => k.setS i.d (if fnBit i 2 then BitVec.ofInt 64 (sext (8 * n) v) else BitVec.ofNat 64 v))
        else .fail s1 ST_RAS_SRAM_UE))

/-- ST: to the frame only, or AFLAGS or VFLAGS, where a 1 clears the bit. -/
def execSt (cl : Nat) (i : BWord) (s : State) : Outcome State Fault Refusal :=
  .next (s.issue cl i [i.a, i.b] (fun a s =>
    if fnBit i 3 then
      match (immOf i).toNat with
      | 0x08 => a.regs s (fun k => { k with aflags := flagsClear k.aflags (k.s i.b).toNat })
      | 0x09 => a.regs s (fun k => { k with vflags := flagsClear k.vflags (k.s i.b).toNat })
      | _ => .fault ST_ISA_OPERAND 0
    else
      let n := accSize i
      let off := a.addr i
      if (s.frameAt a.c a.k off n).isNone then .fault ST_ISA_RANGE 0
      else if off % n ≠ 0 then .fault ST_ISA_ALIGN 0
      else if a.k.clash [] [⟨off, n⟩] then .wait .issue
      else .done (s.ctxWrite a.c a.k off (natLE n (a.k.s i.b).toNat))))

/-! ## Branches and loops (R365, R366) -/

/-- A word index at an offset from PC. -/
def Site.target (a : Site) (i : BWord) : Nat := ((a.k.pc : Int) + i.imm.toInt).toNat

/-- BR. -/
def execBr (cl : Nat) (i : BWord) (s : State) : Outcome State Fault Refusal :=
  .next (s.issue cl i [] (fun a s => .branch s (a.target i)))

/-- BRC. -/
def execBrc (cl : Nat) (i : BWord) (s : State) : Outcome State Fault Refusal :=
  .next (s.issue cl i [i.a, i.b] (fun a s =>
    if condHolds (fnFld i 3 1) (a.k.s i.a) (a.k.s i.b) then .branch s (a.target i) else .done s))

/-- CALL: ST_ISA_STACK on the 17th push. -/
def execCall (cl : Nat) (i : BWord) (s : State) : Outcome State Fault Refusal :=
  .next (s.issue cl i [] (fun a s =>
    if 16 ≤ a.k.link.length then .fault ST_ISA_STACK 0
    else .goto (a.set s (fun k => { k with link := (k.pc + 1) :: k.link })) (a.target i)))

/-- RET: ST_ISA_STACK if the stack is empty. -/
def execRet (cl : Nat) (i : BWord) (s : State) : Outcome State Fault Refusal :=
  .next (s.issue cl i [] (fun a s =>
    match a.k.link with
    | [] => .fault ST_ISA_STACK 0
    | p :: rest => .goto (a.set s (fun k => { k with link := rest })) p))

/-- LOOP: ST_ISA_LOOP on a fifth active level. -/
def execLoop (cl : Nat) (i : BWord) (s : State) : Outcome State Fault Refusal :=
  .next (s.issue cl i [i.a] (fun a s =>
    let n := a.k.s i.a
    if n = 0 then .goto s (a.target i + 1)
    else if 4 ≤ a.k.loops.length then .fault ST_ISA_LOOP 0
    else .done (a.set s (fun k => { k with loops := ⟨k.pc + 1, a.target i, n⟩ :: k.loops }))))

/-! ## Tile descriptors (R367) -/

/-- TDEF. -/
def execTdef (cl : Nat) (i : BWord) (s : State) : Outcome State Fault Refusal :=
  .next (s.issue cl i [i.a] (fun a s =>
    let off := a.addr i
    if (s.readAt a.c a.k off 16).isNone then .fault ST_ISA_RANGE 0
    else if off % 16 ≠ 0 then .fault ST_ISA_ALIGN 0
    else if s.ctxBad a.c a.k off 16 then .fail s ST_RAS_SRAM_UE
    else a.regs s (fun k => k.setT i.d (BitVec.ofNat 128 (leNat (s.ctxRead a.c a.k off 16))))))

/-- TSET: ST_ISA_OPERAND if sA does not fit the field. -/
def execTset (cl : Nat) (i : BWord) (s : State) : Outcome State Fault Refusal :=
  .next (s.issue cl i [i.a] (fun a s =>
    let sel := fnFld i 2 0
    let v := (a.k.s i.a).toNat
    if v < 2 ^ tileWidth sel then a.regs s (fun k => k.setT i.d (setTileField (k.t i.d) sel v))
    else .fault ST_ISA_OPERAND 0))

/-- BASE and MXBASE after TADV: BASE moves by sA, or with ROWS by sA rows, and then the scales of an MX tile move with
it. -/
def tadv (t : BitVec 128) (sA : Int) (byRows : Bool) : Int × Int :=
  let d := tileOf t
  if byRows then (d.base + sA * d.stride, if isMx d.fmt then d.mxbase + sA * scaleStride d.cols else d.mxbase)
  else (d.base + sA, d.mxbase)

def fits24 (v : Int) : Bool := decide (0 ≤ v) && decide (v < 2 ^ 24)

/-- TADV: ST_ISA_OPERAND if BASE or MXBASE leaves 0 … 2^24 − 1. -/
def execTadv (cl : Nat) (i : BWord) (s : State) : Outcome State Fault Refusal :=
  .next (s.issue cl i [i.a] (fun a s =>
    let (b, m) := tadv (a.k.t i.d) (a.k.s i.a).toInt (fnBit i 0)
    if fits24 b ∧ fits24 m then
      a.regs s (fun k => k.setT i.d (setTileField (setTileField (k.t i.d) 0 b.toNat) 5 m.toNat))
    else .fault ST_ISA_OPERAND 0))

/-! ## Table slots (R370, R371) -/

/-- Handles in the table list of an image (R381). -/
def imgTables (img : Bytes) : List Nat := (List.range (rd img 16 1)).map (fun j => rd img (32 + 2 * j) 2)

/-- TBIND: slot sB bits 3:0 names the table with handle sA. -/
def execTbind (cl : Nat) (i : BWord) (s : State) : Outcome State Fault Refusal :=
  .next (s.issue cl i [i.a, i.b] (fun a s =>
    let h := (a.k.s i.a).toNat
    if (imgTables (s.image a.c)).contains h then
      a.regs s (fun k => { k with tslot := (List.range 16).map (fun j => if j = (k.s i.b).toNat % 16 then some h else (k.tslot[j]?).getD none) })
    else .fault ST_ISA_TBIND 0))

end Sys2Proof.Machine
end

