-- ==== Sys2Proof/Machine/Sync.lean ====
section
/-! DEFINITION. Ring and synchronisation instructions, due slots and the stall detector (R315 to R335, R339 to R345,
R375). -/
namespace Sys2Proof.Machine

/-! ## Who drives a ring side (R315) -/

/-- A side of a ring belongs to a driver on a cluster of the launch. -/
def Ring.drives (r : Ring) (cons : Bool) (driver idx : Nat) : Bool :=
  if cons then r.cons == driver && r.consSide == idx else r.prod == driver && r.prodSide == idx

/-- The ring of an instruction whose driver and cluster own the side; `none` for ST_RING_ROLE. -/
def Ctx.sideOf (c : Ctx) (cl q : Nat) (cons : Bool) (driver : Nat) : Option Ring :=
  (c.ring? q).filter (fun r => r.drives cons driver (c.index cl))

/-- The rings and sync queue of the cluster is empty and the context may issue another engine instruction: one of the class then runs
at once (R359, R360). -/
def State.ringFree (s : State) (a : Site) : Bool := decide (a.k.running.length < 32) && decide (s.queueLen a.k.cl .ring = 0)

/-- What an instruction of the rings and sync class waits for that does not run at once: the 32 places of the context, room in the
queue, or, as `w` says, the earlier instructions of its class. -/
def State.ringHold (s : State) (a : Site) (w : Wait) : Wait :=
  if 32 ≤ a.k.running.length then .issue else if s.queueFull a.k.cl .ring then .queueFull .ring else w

/-! ## Acquire, publish, release (R317 to R322, R375) -/

/-- sD of an acquired slot. -/
def slotWord (r : Ring) (slot fill : Nat) (fin : Bool) : Word :=
  BitVec.ofNat 64 (r.slotOff slot % 2 ^ 24 + fill * 2 ^ 24 + b2n fin * 2 ^ 63)

/-- RACQ. -/
def execRacq (cl : Nat) (i : BWord) (s : State) : Outcome State Fault Refusal :=
  .next (s.issue cl i [i.d] (fun a s =>
    let cons := fnBit i 0
    let nowait := fnBit i 1
    match a.c.sideOf cl i.a cons 0 with
    | none => .fail s ST_RING_ROLE
    | some r =>
      if !s.ringFree a then .wait (s.ringHold a (if nowait then .issue else .racq i.a cons))
      else
        match (if cons then r.acqCons else r.acqProd) with
        | .ok r' slot fill fin =>
          .done (a.set (s.setRing a.c.id r') (fun k =>
            let k1 := k.setS i.d (slotWord r slot fill fin)
            if nowait then k1.setP i.c true else k1))
        | .endInd => .done (a.set { s with ctxs := modFirst (·.id == a.c.id) (fun c => { c with stallClock := 0, stalled := false }) s.ctxs }
            (fun k =>
              let k1 := k.setS i.d (BitVec.ofNat 64 (2 ^ 62))
              if nowait then k1.setP i.c true else k1))
        | .wait => if nowait then .done (a.set s (fun k => k.setP i.c false)) else .wait (.racq i.a cons)
        | .bad => .fail s ST_RING_ORDER))

/-- The slot event of an RPUB or RREL; `none` for ST_RING_ORDER. -/
def State.slotEvent (s : State) (id q : Nat) (release : Bool) (fill : Nat) (fin : Bool) : Option State :=
  if release then
    match (s.ctx? id).bind (·.ring? q) with
    | none => none
    | some r =>
      match r.release with
      | .ok r' _ _ _ => some (s.setRing id r')
      | _ => none
  else s.ringPublish id q fill fin

/-- FILL of an RPUB. -/
def rpubFill (i : BWord) (sB : Word) (r : Ring) : Nat := if fnBit i 1 then r.slotBytes else sB.toNat

/-- Issue of RPUB and RREL: at once when every earlier engine instruction of the prompter has ended, and else in the
queue (R322). -/
def State.issueSlot (s : State) (cl : Nat) (i : BWord) (release : Bool) : State :=
  s.issue cl i (if release then [] else [i.b]) (fun a s =>
    match a.c.sideOf cl i.a release 0 with
    | none => .fail s ST_RING_ROLE
    | some r =>
      if a.k.running.isEmpty && s.ringFree a then
        match s.slotEvent a.c.id i.a release (rpubFill i (a.k.s i.b) r) (fnBit i 0) with
        | some s1 => .done s1
        | none => .fail s ST_RING_ORDER
      else a.enqueue s (a.op s .ring (if release then .rrel else .rpub) i [] []))

/-- RPUB. -/
def execRpub (cl : Nat) (i : BWord) (s : State) : Outcome State Fault Refusal := .next (s.issueSlot cl i false)
/-- RREL. -/
def execRrel (cl : Nat) (i : BWord) (s : State) : Outcome State Fault Refusal := .next (s.issueSlot cl i true)

/-! ## Curtains (R328 to R330) -/

/-- The curtain that an instruction names. -/
def curtainNo (i : BWord) : Nat := fnFld i 2 0

/-- The generation that a wait on curtain n is for: the one remembered since it began, the one last arrived at, or for a
prompter that never arrived the current one. -/
def ClCtx.waitGen (k : ClCtx) (n : Nat) (u : Curtain) : Nat :=
  match k.wait with
  | some (.curtain m g) => if m = n then g else (k.lastGen n).getD u.gen
  | _ => (k.lastGen n).getD u.gen

/-- CURTAIN. A curtain with no record is refused as a ring with none is (log entry 25). -/
def execCurtain (cl : Nat) (i : BWord) (s : State) : Outcome State Fault Refusal :=
  .next (s.issue cl i [] (fun a s =>
    let n := curtainNo i
    match a.c.curtain? n with
    | none => .fail s ST_RING_ROLE
    | some u =>
      let arrived := a.k.lastGen n == some u.gen
      if !fnBit i 3 then
        if a.k.running.isEmpty ∧ s.ringFree a ∧ !arrived then .done (s.arriveAt a.c.id cl n)
        else a.enqueue s (a.op s .ring .curtain i [] [])
      else if (a.k.lastGen n).any (fun g => a.k.wait == some (.curtain n g)) then
        if arrived then .wait (.curtain n u.gen) else .done s
      else if !a.k.running.isEmpty ∨ !s.ringFree a then .wait (s.ringHold a (.fence 31))
      else if arrived then .wait (.again n u.gen)
      else
        let s1 := s.arriveAt a.c.id cl n
        if u.expect ≤ u.count + 1 then .done s1 else .hold s1 (.curtain n u.gen)))

/-- WAITT. -/
def execWaitt (cl : Nat) (i : BWord) (s : State) : Outcome State Fault Refusal :=
  .next (s.issue cl i [] (fun a s =>
    let n := curtainNo i
    match a.c.curtain? n with
    | none => .fail s ST_RING_ROLE
    | some u =>
      if !s.ringFree a then .wait (s.ringHold a (.fence 16))
      else if u.gen ≠ a.k.waitGen n u then .done s
      else .wait (.curtain n (a.k.waitGen n u))))

/-- DLCHK: a ring in NORMAL mode has no misses and reads zero (R335). -/
def execDlchk (cl : Nat) (i : BWord) (s : State) : Outcome State Fault Refusal :=
  .next (s.issue cl i [i.d] (fun a s =>
    match a.c.ring? i.a with
    | none => .fail s ST_RING_ROLE
    | some r =>
      if !s.ringFree a then .wait (s.ringHold a .issue)
      else .done (a.set s (fun k =>
        let k1 := (k.setS i.d (BitVec.ofNat 64 (r.misses + r.worst * 65536))).setP i.c (decide (k.dlSeen.getD i.a 0 < r.misses))
        { k1 with dlSeen := (List.range 8).map (fun q => if q = i.a then r.misses else k.dlSeen.getD q 0) }))))

/-! ## Due slots (R332 to R334) -/

/-- Slot n has been published. -/
def Ring.published (r : Ring) (n : Nat) : Bool := decide (n < r.slotNo)

/-- The slot's due time has come: a slot that is not published is missed, unless END was. -/
def Ring.atDue (r : Ring) : Ring × Bool :=
  let miss := !r.published r.dueNext && !r.endPub
  ({ r with dueNext := r.dueNext + 1, misses := if miss then min 65535 (r.misses + 1) else r.misses }, miss)

/-- SLOT_DUE. -/
def execSlotDue (ctx ring : Nat) (s : State) : Outcome State Fault Refusal :=
  .next (s.whenServing fun s =>
    match (s.ctx? ctx).bind (fun c => (c.ring? ring).map (fun r => (c, r))) with
    | none => s
    | some (c, r) =>
      if c.st = .running ∧ r.mode ≠ 0 ∧ s.reached (r.due c.t0 r.dueNext) then
        let (r', miss) := r.atDue
        let s1 := s.modCtx ctx (fun c => { c with rings := modFirst (·.reg == ring) (fun _ => r') c.rings })
        if miss then
          let s2 := ((s1.count Reg.RING_MISSES 1).latch Reg.RING_STATUS 2).modCtx ctx (fun c => { c with newMisses := c.newMisses + 1 })
          if r.mode = 2 then s2.endLaunch ctx ST_RING_LATE else s2
        else s1
      else s)

/-! ## The stall detector (R339 to R341) -/

/-- The ring side that an engine instruction asks a slot of next: ring and whether it consumes (R315). An operation takes the slots of
its source before it computes, and those of its destination with its output in hand; a MOVE asks for none while it holds one. -/
def Ctx.sides (c : Ctx) (o : EngOp) : List (Nat × Bool) :=
  let tile (n : Nat) (cons : Bool) : List (Nat × Bool) :=
    let t := tileOf (o.t.getD n 0)
    if t.ringed then [(t.ring, cons)] else []
  match o.kind, o.out with
  | .mma, none | .conv1, none | .vred, none | .vcvt, none => tile 1 true
  | .drain, some _ | .vcvt, some _ => tile 0 false
  | .move, out =>
    match o.xfer, out with
    | some x, none => if x.src = 4 ∧ (c.ring? x.srcRing).all (·.taken.isNone) then [(x.srcRing, true)] else []
    | some x, some _ => if x.dst = 4 ∧ x.dstFill = 0 then [(x.dstRing, false)] else []
    | none, _ => []
  | _, _ => []

/-- The ring that a GATHER or POOL of a cluster waits to acquire a slot of: the bags of its next slot are complete. -/
def State.gpeWait (s : State) (cl : Nat) (o : EngOp) : List (Nat × Bool) :=
  match (s.gpes[cl / 16]?).bind (fun g => g.ops.find? (fun x => some x.num == o.gpe && x.abandoned.isNone)) with
  | none => []
  | some x =>
    let l := (x.bags.drop (x.slots * x.perslot)).take x.perslot
    match x.ring with
    | some q => if l.isEmpty ∨ l.any (!·.done) then [] else [(q, false)]
    | none => []

/-- Ring sides that an engine instruction asks a slot of next. -/
def State.sidesOf (s : State) (c : Ctx) (cl : Nat) (o : EngOp) : List (Nat × Bool) := c.sides o ++ s.gpeWait cl o

/-- An acquire of a ring side would wait. -/
def Ctx.blocked (c : Ctx) (e : Nat × Bool) : Bool := (c.ring? e.1).any (fun r => if e.2 then !r.avail else !r.room)

/-- Rings and curtains that a cluster of a launch waits for (R339). -/
def State.waits (s : State) (c : Ctx) (k : ClCtx) : List Nat × List Nat :=
  let heads := k.running.filter (s.isHead k.cl)
  let eng := (heads.flatMap (s.sidesOf c k.cl)).filter c.blocked
  let cur := (heads.filter (fun o => o.kind == .curtain && k.lastGen (curtainNo o.i) == (c.curtain? (curtainNo o.i)).map (·.gen))).map (fun o => curtainNo o.i)
  match k.wait with
  | some (.racq q _) => (q :: eng.map (·.1), cur)
  | some (.curtain n _) => (eng.map (·.1), n :: cur)
  | some (.again n _) => (eng.map (·.1), n :: cur)
  | _ => (eng.map (·.1), cur)

def bitsOf (l : List Nat) : Nat := l.eraseDups.foldl (fun a n => a + 2 ^ n) 0

/-- The context is switched out on a cluster where it has not ended (R340). -/
def State.switchedOut (s : State) (c : Ctx) : Bool :=
  c.cls.any (fun k => !k.exited && !(s.clusters[k.cl]?).any (fun u => u.running && u.ctx == c.id))

/-- A producer side of a ring of the launch is held in a translation fault: a transfer that fills one, or the CFE with a segment
(R315, R323, R340). -/
def State.ringFaulted (s : State) (c : Ctx) : Bool :=
  s.inFault (.args c.id) || c.cls.any (fun k => k.running.any (fun o => o.xfer.any (·.dst == 4) && s.inFault (.te k.cl c.id o.id)))

/-- The stall clock of a launch runs: something waits, the launch is not switched out, no producer side of its rings is held in a
translation fault, and there is a limit (R339, R340). -/
def State.clockRuns (s : State) (c : Ctx) : Bool :=
  s.regF Reg.RING_CTL 15 0 != 0 && decide (c.st = .running) && !s.switchedOut c && !s.ringFaulted c
    && c.cls.any (fun k => s.waits c k != ([], []))

/-- One tick of the stall clocks (log entry 3). -/
def State.stallTick (s : State) : State :=
  { s with ctxs := s.ctxs.map (fun c => if s.clockRuns c then { c with stallClock := c.stallClock + 1 } else c) }

/-- The stall clock of a launch has come to STALL_LIMIT. -/
def State.stalls (s : State) (c : Ctx) : Bool :=
  let limit := s.regF Reg.RING_CTL 15 0
  limit != 0 && decide (c.st = .running) && !c.stalled && c.cls.any (fun k => s.waits c k != ([], [])) && decide (ms limit ≤ c.stallClock)

/-- STALL_DECLARED: the stall clock of a launch has come to the limit. -/
def execStallDeclared (ctx : Nat) (s : State) : Outcome State Fault Refusal :=
  .next (s.whenServing fun s =>
    match s.ctx? ctx with
    | none => s
    | some c =>
      if s.stalls c then
        let w := c.cls.filter (fun k => s.waits c k != ([], []))
        let low := (w.map (·.cl)).foldl min 127
        let info := bitsOf (w.flatMap (fun k => (s.waits c k).2)) * 2 ^ 32 + bitsOf (w.flatMap (fun k => (s.waits c k).1)) * 2 ^ 24
          + low * 2 ^ 16 + c.slot * 2 ^ 12 + c.id
        let s1 := ((s.count Reg.RING_STALLS 1).setRegN Reg.RING_STALL_INFO info).setReg Reg.RING_STALL_TIME s.time.gtime
        let s2 := s1.latch Reg.RING_STATUS 0
        if s.regB Reg.RING_POLICY c.slot then
          ((s2.endLaunch ctx ST_RING_STALL).latch Reg.RING_STATUS 1).count Reg.RING_STALL_ABORTS 1
        else s2.modCtx ctx (fun c => { c with stalled := true })
      else s)

end Sys2Proof.Machine
end

