-- ==== Sys2Proof/Machine/Engine.lean ====
section
/-! DEFINITION. What the arrays, the vector engine and the special-function unit share: tile operands and their checks,
the rows that come from a ring or go to one, output elements, and what an instruction leaves when it ends (R249, R283,
R351, R361 to R364). -/
namespace Sys2Proof.Machine

/-- What an engine instruction leaves when it ends. -/
structure EngRes where
  st : Nat := ST_OK
  /-- writes to the frame: offset, bytes -/
  writes : List (Nat × Bytes) := []
  /-- rows for the slots of a ring, one after another -/
  out : Option Bytes := none
  flags : Nat := 0
  acc : Option Acc := none
  shadow : Option (Nat × Nat × Nat × Nat × Nat) := none
  deriving DecidableEq, Repr

/-- The first status that is not ST_OK. -/
def firstBad : List Nat → Nat
  | [] => ST_OK
  | st :: t => if st = ST_OK then firstBad t else st

def failIf (b : Bool) (st : Nat) : Nat := if b then st else ST_OK

/-! ## Operands -/

/-- The context and the cluster that an engine instruction runs for, as they stand now. -/
def State.engSite (s : State) (cl ctx : Nat) : Option Site := (s.ctx? ctx).bind (fun c => (c.on? cl).map (fun k => ⟨c, k⟩))

/-- A frame range that is written: ST_ISA_RANGE for the shared area, the owning chapter's status elsewhere (R351). -/
def State.writeStat (s : State) (a : Site) (r : Range) (bad : Nat) : Nat :=
  if (s.frameAt a.c a.k r.off r.len).isSome then ST_OK
  else if (s.readAt a.c a.k r.off r.len).isSome then ST_ISA_RANGE else bad

/-- A range that is read. -/
def State.readStat (s : State) (a : Site) (r : Range) (bad : Nat) : Nat :=
  failIf (s.readAt a.c a.k r.off r.len).isNone bad

/-- Bases and strides of a tile are multiples of n, and it lies where it may be read or written. -/
def State.tileStat (s : State) (a : Site) (t : Tile) (n : Nat) (write : Bool) : Nat :=
  firstBad ([failIf (t.stride % n != 0 || (!t.ringed && t.base % n != 0) || (isMx t.fmt && t.mxbase % n != 0)) ST_AR_ALIGN]
    ++ t.ranges.map (fun r => if write then s.writeStat a r ST_AR_ALIGN else s.readStat a r ST_AR_ALIGN))

/-- A tile that names a ring whose side the driver does not own (R315). -/
def tileRole (a : Site) (t : Tile) (cons : Bool) (driver : Nat) : Nat :=
  failIf (t.ringed && (a.c.sideOf a.k.cl t.ring cons driver).isNone) ST_RING_ROLE

/-- A tile that may not come from or go to a ring. -/
def noRing (t : Tile) : Nat := failIf t.ringed ST_RING_ROLE

/-- Element patterns of n elements, low nibble first (R249). -/
def elemsOf (fmt n : Nat) (b : Bytes) : List Nat :=
  if fmtBits fmt = 4 then (List.range n).map (fun j => rd b (j / 2) 1 / 16 ^ (j % 2) % 16)
  else let w := fmtBits fmt / 8; (List.range n).map (fun j => rd b (j * w) w)

/-- Bytes of a row of element patterns. -/
def rowOf (fmt : Nat) (l : List Nat) : Bytes :=
  if fmtBits fmt = 4 then
    (List.range (ceilDiv l.length 2)).map (fun j => BitVec.ofNat 8 (l.getD (2 * j) 0 % 16 + 16 * (l.getD (2 * j + 1) 0 % 16)))
  else l.flatMap (natLE (fmtBits fmt / 8))

/-- Bytes of row r of a frame tile, or of rows taken from a ring. -/
def State.rowBytes (s : State) (a : Site) (t : Tile) (got : Bytes) (r : Nat) : Bytes :=
  let n := elemBytes t.fmt t.cols
  if t.ringed then slice got (r * n) n else s.ctxRead a.c a.k (t.base + r * t.stride) n

/-- Elements of row r. -/
def State.rowElems (s : State) (a : Site) (t : Tile) (got : Bytes) (r : Nat) : List Nat :=
  elemsOf t.fmt t.cols (s.rowBytes a t got r)

/-- Scale bytes of row r of an MX tile. -/
def State.rowScales (s : State) (a : Site) (t : Tile) (r : Nat) : List Nat :=
  if isMx t.fmt then (s.ctxRead a.c a.k (t.mxbase + r * scaleStride t.cols) (ceilDiv t.cols 32)).map BitVec.toNat else []

/-- A read operand of an instruction holds a bad word (R533). -/
def State.operandBad (s : State) (a : Site) (o : EngOp) : Bool := o.reads.any (fun r => s.ctxBad a.c a.k r.off r.len)

/-! ## Rows from a ring (R364) -/

/-- Rows in a slot. A stride of 0 puts every row of the slot at its start. -/
def slotRows (stride fill need : Nat) : Nat := if stride = 0 then need else min need (fill / stride)

/-- How the collecting of rows goes. -/
inductive Coll where
  | full (s : State) (got : Bytes)
  | more (s : State) (got : Bytes)
  | bad (s : State)

/-- Take rows from the slots of a source ring until there are `need`. The slots read stay held: they are released once every step
that read them has passed its checks (R323). A stream that ends before leaves open bytes. -/
def State.collect (s : State) (id : Nat) (t : Tile) (need : Nat) (got : Bytes) : Nat → Coll
  | 0 => .more s got
  | f + 1 =>
    let n := elemBytes t.fmt t.cols
    let left := need - got.length / n
    if left = 0 then .full s got
    else
      match (s.ctx? id).bind (fun c => (c.ring? t.ring).bind (fun r => (c.atIndex r.home).map (fun h => (c, r, h)))) with
      | none => .more s got
      | some (c, r, h) =>
        match r.acqCons with
        | .ok r1 slot fill _ =>
          let rows := (List.range (slotRows t.stride fill left)).map (fun i => r.slotOff slot + i * t.stride)
          if rows.any (fun o => s.ctxBad c h o n) then .bad (s.setRing id r1)
          else State.collect (s.setRing id r1) id t need (got ++ rows.flatMap (fun o => s.ctxRead c h o n)) f
        | .endInd =>
          let (b, s1) := s.freeBytes (left * n)
          .full s1 (got ++ b)
        | _ => .more s got

/-- The slots that an engine holds as the consumer of a ring are released. -/
def State.releaseHeld (s : State) (id q : Nat) : State :=
  match (s.ctx? id).bind (·.ring? q) with
  | none => s
  | some r => if r.rel = r.cacq then s else s.setRing id r.releaseAll

/-- The stream of a ring has been ended by its producer, which may acquire no more (R318). -/
def State.ringEnded (s : State) (id q : Nat) : Bool := ((s.ctx? id).bind (·.ring? q)).any (·.endPub)

/-! ## Rows to a ring (R318, R364) -/

/-- Put the next rows of an output into a slot and publish it; `none` when the ring has no room. The last slot of the
operation is published with the bytes of its rows. The engine of a cancelled cluster publishes no slot (R326). -/
def State.putSlot (s : State) (id : Nat) (t : Tile) (out : Bytes) : Option (State × Bytes) :=
  match (s.ctx? id).bind (fun c => (c.ring? t.ring).bind (fun r => (c.atIndex r.home).map (fun h => (c, r, h)))) with
  | none => none
  | some (c, r, h) =>
    match r.acqProd with
    | .ok r1 slot _ _ =>
      let n := elemBytes t.fmt t.cols
      let per := max 1 (if t.stride = 0 then out.length / n else r.slotBytes / t.stride)
      let m := min per (out.length / n)
      let s1 := (List.range m).foldl (fun s i =>
        s.ctxWrite c h (r.slotOff slot + i * t.stride) ((slice out (i * n) n).take (r.slotBytes - i * t.stride))) (s.setRing id r1)
      let rest := out.drop (m * n)
      let fill := if rest.isEmpty then min r.slotBytes (if t.stride = 0 then n else m * t.stride) else r.slotBytes
      if (c.atIndex r.prodSide).any (·.cancelled) then some (s1, rest) else (s1.ringPublish id t.ring fill false).map (fun s2 => (s2, rest))
    | _ => none

/-- Publish slots until the output is out or the ring is full. -/
def State.fillSlots (s : State) (id : Nat) (t : Tile) (out : Bytes) : Nat → State × Bytes
  | 0 => (s, out)
  | f + 1 =>
    if out.isEmpty then (s, out)
    else
      match s.putSlot id t out with
      | some (s1, rest) => State.fillSlots s1 id t rest f
      | none => (s, out)

/-! ## Output rows (R262, R293) -/

/-- Element results as rows of a tile: patterns and flags. -/
structure OutRows where
  rows : List (List Nat)
  flags : Nat

/-- Where the rows of an output go. -/
def EngRes.place (t : Tile) (o : OutRows) : EngRes :=
  if t.ringed then { out := some (o.rows.flatMap (rowOf t.fmt)), flags := o.flags }
  else { writes := o.rows.zipIdx.map (fun e => (t.base + e.2 * t.stride, rowOf t.fmt e.1)), flags := o.flags }

/-- Exact values converted in order, each with the next value of a generator when there is one (R263, R264). -/
def convertAll (fmt : Nat) (satfin : Bool) : Option (BitVec 32) → List Val → List Nat × Nat × Option (BitVec 32)
  | g, [] => ([], 0, g)
  | none, v :: l =>
    let (b, f) := outElem fmt satfin .even v
    let (bs, fs, g) := convertAll fmt satfin none l
    (b :: bs, f ||| fs, g)
  | some x, v :: l =>
    let y := xorshift x
    let (b, f) := outElem fmt satfin (.stoch (srBits y)) v
    let (bs, fs, g) := convertAll fmt satfin (some y) l
    (b :: bs, f ||| fs, g)

/-- A list cut into rows of n. -/
def chunks (n : Nat) (l : List α) : Nat → List (List α)
  | 0 => []
  | m + 1 => l.take n :: chunks n (l.drop n) m

end Sys2Proof.Machine
end

