-- ==== Sys2Proof/Machine/Arrays.lean ====
section
/-! DEFINITION. The MAC arrays: ROWS, MMA, CONV1, EWA and DRAIN, the fold, the precision of sums, and residue checks
(R245 to R277, R368). -/
namespace Sys2Proof.Machine

/-! ## Formats (R246, R250, R253) -/

/-- Kp: K elements that one cell row reduces in a step. -/
def sliceWidth (fmt : Nat) : Nat := if fmt = 1 ∨ fmt = 9 then 64 else 32

def isInput (fmt : Nat) : Bool := decide (fmt ≤ 9)
def isOutput (fmt : Nat) : Bool := decide (fmt ≤ 5) || fmt == 10 || fmt == 11
def isIntFmt (fmt : Nat) : Bool := decide (fmt ≤ 1)

/-- A streaming and a stationary format that go together. -/
def pairOk (a w : Nat) : Bool :=
  a == w || (a == 2 && w == 3) || (a == 3 && w == 2) || (a == 6 && w == 7) || (a == 7 && w == 6)

/-! ## The fold (R255, R256) -/

/-- A piece of the work: block, logical array, slices of K. -/
structure Job where
  block : Nat
  array : Nat
  slices : List Nat
  deriving DecidableEq, Repr

/-- The arrays of a cluster that are not fenced, ascending. -/
def State.arrays (s : State) (cl : Nat) : List Nat := (List.range 8).filter (fun i => (s.unit (8 * cl + i)).st != .fenced)

/-- Blocks of a tile. -/
def blocksOf (m n : Nat) : Nat := ceilDiv m 64 * ceilDiv n 32

/-- The slices dealt to group j of g. -/
def dealt (nK g j : Nat) : List Nat :=
  let q := nK / g
  let x := nK % g
  (List.range (if j < x then q + 1 else q)).map (· + j * q + min j x)

/-- The fold of an M × N tile with nK slices over P arrays. -/
def foldOf (p m n nK : Nat) : List Job :=
  let b := blocksOf m n
  if p ≤ b then (List.range b).map (fun o => ⟨o, o % p, List.range nK⟩)
  else
    let g := min nK (p / b)
    (List.range b).flatMap (fun o => (List.range g).map (fun j => ⟨o, o * g + j, dealt nK g j⟩))

/-- A fold that puts more than 8 blocks on one array. -/
def tooMany (p m n : Nat) : Bool := p == 0 || decide (8 * p < blocksOf m n)

/-! ## Sums (R252, R259, R260) -/

/-- One pair of elements of a step, with their scale bytes; 127 stands for no scale. -/
structure Pair2 where
  a : Nat
  w : Nat
  sa : Nat
  sw : Nat

/-- The exact product of a pair, scaled. -/
def Pair2.prod (fa fw : Nat) (p : Pair2) : Val :=
  if p.sa = 255 ∨ p.sw = 255 then .nan
  else ((elemVal fa p.a).mul (elemVal fw p.w)).mul (.fin false 1 1 (p.sa + p.sw - 254 : Int))

/-- Every bit below 2^q discarded towards zero. -/
def cutBelow (q : Int) : Val → Val
  | .fin s n d e => .fin s (n * Val.up (e - q) / (d * Val.up (q - e))) 1 q
  | v => v

/-- 2^emax, the weight of the leading bit of the largest product. -/
def topBit : List Val → Option Int
  | [] => none
  | .fin _ n d e :: t =>
    if n = 0 then topBit t else
      match topBit t with
      | none => some (floorLog2 n d e)
      | some x => some (max x (floorLog2 n d e))
  | _ :: t => topBit t

/-- The sum of a cell row's products in one step: exact, but for BF16. -/
def stepSum (fa fw : Nat) (l : List Pair2) : Val :=
  let p := l.map (·.prod fa fw)
  let q := if fa = 5 then
      match topBit p with
      | some x => p.map (cutBelow (x - 47))
      | none => p
    else p
  q.foldl Val.add .zero

/-- An INT32 sum that saturates. -/
def satAdd (a : F32) (v : Int) : F32 × Nat :=
  let r := a.toInt + v
  if 2 ^ 31 ≤ r then (0x7FFFFFFF, fSAT) else if r < -(2 ^ 31) then (0x80000000, fSAT) else (BitVec.ofInt 32 r, 0)

/-- The integer that an exact integer value holds. -/
def Val.int : Val → Int
  | .fin s n d e => roundToInt .zero s n d e
  | _ => 0

/-- An accumulator entry after a step, and the flags raised. -/
def accStep (isInt : Bool) (acc : F32) (v : Val) : F32 × Nat :=
  if isInt then satAdd acc v.int
  else
    let (b, o) := fp32.round ((F32.val acc).add v)
    (BitVec.ofNat 32 b, flagIf o fOVF)

/-- An accumulator entry, its value before the latest pass and before the two latest (R271), and the flags raised. -/
structure Entry where
  now : F32
  prev : F32
  prev2 : F32
  flags : Nat

/-- An entry after a pass. -/
def Entry.step (isInt : Bool) (e : Entry) (v : Val) : Entry :=
  let (x, f) := accStep isInt e.now v
  ⟨x, e.now, e.prev, e.flags ||| f⟩

/-! ## Residue codes and checks (R270, R273) -/

/-- The integer significand of an element: its integer, or its significand with the hidden bit. -/
def elemSig (fmt bits : Nat) : Int :=
  match fmtOf fmt with
  | some f => ((bits % 2 ^ f.mb + (if bits / 2 ^ f.mb % 2 ^ f.eb = 0 then 0 else 2 ^ f.mb) : Nat) : Int)
  | none => sext (fmtBits fmt) bits

/-- A value modulo 15. -/
def residue (x : Int) : Nat := (x % 15).toNat

/-- The residue code of an element. -/
def elemResidue (fmt bits : Nat) : Nat := residue (elemSig fmt bits)

/-- A multiplier checks its product against the residues of its operands. -/
def mulCheck (ra rw : Nat) (product : Int) : Bool := residue product == ra * rw % 15

/-- A reduction tree checks its sum against the residues of its inputs, each weighted by its alignment shift. -/
def treeCheck (inputs : List (Nat × Nat)) (sum : Int) : Bool := residue sum == (inputs.map (fun x => x.1 * (2 ^ x.2 % 15))).sum % 15

/-- An accumulator update is checked against the residues of its inputs and of the rounding increment. -/
def accCheck (old sum increment : Nat) (result : Int) : Bool := residue result == (old + sum + increment) % 15

/-- Exponent and alignment paths, and the stages of DRAIN, are built twice, and the results compared. -/
def twinCheck [DecidableEq α] (x y : α) : Bool := x == y

/-- The checks of the multipliers of a cell row in one step: a streamed row against a stationary row, with the residue codes that the
registers carry. -/
def cellChecks (fa fw : Nat) (a w : ElemRow) : Bool :=
  (List.range a.el.length).all (fun i =>
    mulCheck (a.res.getD i 0) (w.res.getD i 0) (elemSig fa (a.el.getD i 0) * elemSig fw (w.el.getD i 0)))

/-- Elements with their scale bytes and residue codes. -/
def elemRow (fmt : Nat) (el sc : List Nat) : ElemRow := ⟨el, sc, el.map (elemResidue fmt)⟩

/-! ## MMA -/

/-- Element and scale at position k of a row; 127 where it has no scale. -/
def elemAt (r : ElemRow) (k : Nat) : Nat × Nat := (r.el.getD k 0, r.sc.getD (k / 32) 127)

/-- Where a streamed row takes position k of K: nothing where the position is not summed. -/
abbrev Stream := Nat → Option (Nat × Nat)

/-- The slice of a row that enters a cell row, or that it holds: a position that is not summed holds zero (R246). -/
def sliceRow (fmt k slice : Nat) (a : Stream) : ElemRow :=
  let kp := sliceWidth fmt
  let el := (List.range kp).map (fun x => if x + slice * kp < k then ((a (x + slice * kp)).map (·.1)).getD 0 else 0)
  elemRow fmt el (if isMx fmt then (List.range (kp / 32)).map (fun b => ((a (32 * b + slice * kp)).map (·.2)).getD 127) else [])

/-- The pairs of one step: a streamed slice against a stationary row. -/
def stepPairs (a : Stream) (w : ElemRow) (kp k slice : Nat) : List Pair2 :=
  (List.range kp).filterMap (fun x =>
    if x + slice * kp < k then (a (x + slice * kp)).map (fun v => ⟨v.1, (elemAt w x).1, v.2, (elemAt w x).2⟩) else none)

/-- What an MMA or CONV1 works on. -/
structure Gemm where
  m : Nat
  n : Nat
  k : Nat
  fa : Nat
  fw : Nat
  a : List Stream
  w : List ElemRow

/-- Rows and columns of C in a block. -/
def Gemm.rows (g : Gemm) (block : Nat) : List Nat :=
  let r := 64 * (block / ceilDiv g.n 32)
  (List.range (min 64 (g.m - r))).map (· + r)
def Gemm.cols (g : Gemm) (block : Nat) : List Nat :=
  let c := 32 * (block % ceilDiv g.n 32)
  (List.range (min 32 (g.n - c))).map (· + c)

def Gemm.stream (g : Gemm) (r : Nat) : Stream := g.a.getD r (fun _ => none)

/-- The stationary rows of a pass. -/
def Gemm.stationary (g : Gemm) (block slice : Nat) : List ElemRow :=
  (g.cols block).map (fun c => sliceRow g.fw g.k slice (fun j => some (elemAt (g.w.getD c ⟨[], [], []⟩) j)))

/-- The streaming rows of a pass. -/
def Gemm.streaming (g : Gemm) (block slice : Nat) : List ElemRow :=
  (g.rows block).map (fun r => sliceRow g.fa g.k slice (g.stream r))

/-- The passes of a job: slice and stationary rows. The first takes the rows that ROWS loaded, when it did (R258). -/
def Gemm.passes (g : Gemm) (j : Job) (pre : Option (List ElemRow)) : List (Nat × List ElemRow) :=
  j.slices.zipIdx.map (fun x => (x.1, if x.2 = 0 then pre.getD (g.stationary j.block x.1) else g.stationary j.block x.1))

/-- The entries of a block after the passes of a job. -/
def Gemm.run (g : Gemm) (isInt : Bool) (j : Job) (pre : Option (List ElemRow)) (old : Option AccPart) : List (List Entry) :=
  let passes := g.passes j pre
  let was (e : AccPart → List (List F32)) (r c : Nat) : F32 := (((old.map e).getD []).getD r []).getD c 0
  (g.rows j.block).zipIdx.map (fun i => (g.cols j.block).zipIdx.map (fun c =>
    passes.foldl (fun e p => e.step isInt (stepSum g.fa g.fw (stepPairs (g.stream i.1) (p.2.getD c.2 ⟨[], [], []⟩) (sliceWidth g.fa) g.k p.1)))
      ⟨was (·.ent) i.2 c.2, was (·.prev) i.2 c.2, was (·.prev2) i.2 c.2, 0⟩))

/-- The registers of an array after the passes of a job: those of the last pass, with its last streaming row in every cell row. -/
def Gemm.leaves (g : Gemm) (j : Job) (pre : Option (List ElemRow)) (r : ArrayRegs) : ArrayRegs :=
  match (g.passes j pre).getLast? with
  | none => r
  | some (slice, w) =>
    let x := g.streaming j.block slice
    ⟨w, w, x, List.replicate w.length (x.getLastD ⟨[], [], []⟩), none⟩

/-- Registers of an array of a cluster. -/
def State.arrayRegs (s : State) (cl i : Nat) : ArrayRegs := (((s.clusters[cl]?).map (·.arrays)).getD []).getD i ⟨[], [], [], [], none⟩

def State.modArray (s : State) (cl i : Nat) (f : ArrayRegs → ArrayRegs) : State :=
  s.modCluster cl (fun u => { u with arrays := listMod u.arrays i f })

/-- Entries that are open, by rows of n. -/
def State.freeEnt (s : State) (rows n : Nat) : List (List F32) × State :=
  let (b, s1) := s.freeBytes (4 * rows * n)
  (chunks n ((List.range (rows * n)).map (fun i => BitVec.ofNat 32 (rd b (4 * i) 4))) rows, s1)

/-- Entries of a part are open: those of the wrong class, for which the spec states no result, and those of an instruction whose
check failed for good (R266, R272). -/
def State.openPart (s : State) (p : AccPart) : AccPart × State :=
  let (e, s1) := s.freeEnt p.ent.length (((p.ent.head?).map List.length).getD 0)
  ({ p with ent := e }, s1)

def State.openParts (s : State) : List AccPart → List AccPart × State
  | [] => ([], s)
  | p :: t =>
    let (q, s1) := s.openPart p
    let (r, s2) := State.openParts s1 t
    (q :: r, s2)

/-- The stationary rows that a ROWS of a context left in an array for the first pass of a job. -/
def State.preloaded (s : State) (cl phys : Nat) (ctx : Option Nat) (j : Job) : Option (List ElemRow) :=
  let r := s.arrayRegs cl phys
  match r.loaded, ctx with
  | some (c, b, x), some d => if c = d ∧ b = j.block ∧ some x = j.slices.head? then some r.shadow else none
  | _, _ => none

/-- Do every job of the fold on the accumulators; `ctx` is the context whose ROWS the instruction matches. -/
def State.gemmJobs (s : State) (cl : Nat) (ctx : Option Nat) (g : Gemm) (arrays : List Nat) (isInt : Bool) :
    List Job → List AccPart → List AccPart × Nat × State
  | [], parts => (parts, 0, s)
  | j :: t, parts =>
    let phys := arrays.getD j.array 0
    let pre := s.preloaded cl phys ctx j
    let e := g.run isInt j pre (parts.find? (fun p => p.array == phys && p.block == j.block))
    let part : AccPart := ⟨phys, j.block, e.map (·.map (·.now)), e.map (·.map (·.prev)), e.map (·.map (·.prev2))⟩
    let s1 := s.modArray cl phys (g.leaves j pre)
    let same := isInt == isIntFmt g.fa
    let (part2, s2) := if same then (part, s1) else s1.openPart part
    let rest := parts.filter (fun p => !(p.array == phys && p.block == j.block))
    let (ps, f2, s3) := State.gemmJobs s2 cl ctx g arrays isInt t (rest ++ [part2])
    (ps, (if same then (e.flatMap (·.map (·.flags))).foldl (· ||| ·) 0 else 0) ||| f2, s3)

/-- Whether an accumulator holds a NaN. -/
def Acc.hasNan (a : Acc) : Bool := !a.isInt && a.parts.any (fun p => p.ent.any (fun r => r.any (fun x => (F32.val x).isNan)))

/-- C := A·Wᵀ or C := C + A·Wᵀ: the accumulators after it, and NAN. SAT and OVF stay with the accumulators (R266). -/
def State.gemm (s : State) (cl : Nat) (ctx : Option Nat) (g : Gemm) (old : Option Acc) (ring : Option Nat) (history : List ElemRow) :
    EngRes × State :=
  let arrays := s.arrays cl
  let isInt := ((old.map (·.isInt)).getD (isIntFmt g.fa))
  let jobs := foldOf arrays.length g.m g.n (ceilDiv g.k (sliceWidth g.fa))
  let (parts, f, s1) := s.gemmJobs cl ctx g arrays isInt jobs ((old.map (·.parts)).getD [])
  let acc : Acc := ⟨g.m, g.n, isInt, parts, ((old.map (·.flags)).getD 0) ||| f, ring, history⟩
  ({ acc := some acc, flags := flagIf acc.hasNan fNAN }, s1)

/-- A row of a frame or ring tile as an operand. -/
def State.oRow (s : State) (a : Site) (t : Tile) (got : Bytes) (r : Nat) : ElemRow :=
  elemRow t.fmt (s.rowElems a t got r) (s.rowScales a t r)

/-- Tile operand n of an instruction: D, A, B, C in order. -/
def EngOp.tile (o : EngOp) (n : Nat) : Tile := tileOf (o.t.getD n 0)

/-- Scalar operand n as at issue. -/
def EngOp.scalar (o : EngOp) (n : Nat) : Word := o.x.getD n 0

/-- Formats of A and W. -/
def formatStat (fa fw : Nat) : Nat :=
  firstBad [failIf (!isInput fa || !isInput fw) ST_AR_FORMAT, failIf (!pairOk fa fw) ST_AR_FORMAT_MIX]

/-- Limits of R254 and R252. -/
def shapeStat (m n k fa : Nat) : Nat :=
  failIf (m == 0 || decide (256 < m) || n == 0 || decide (256 < n) || k == 0 || decide (16384 < k) || (isMx fa && k % 32 != 0)) ST_AR_SHAPE

/-- The accumulators that an ACC = 1 needs. -/
def accStat (acc : Option Acc) (m n : Nat) : Nat :=
  match acc with
  | none => ST_AR_NO_ACC
  | some c => failIf (c.m != m || c.n != n) ST_AR_ACC_SHAPE

/-- Checks of MMA. -/
def State.mmaStat (s : State) (a : Site) (o : EngOp) : Nat :=
  let x := o.tile 1
  let w := o.tile 2
  firstBad [tileRole a x true 3, noRing w, formatStat x.fmt w.fmt, failIf (w.cols != x.cols) ST_AR_SHAPE,
    shapeStat x.rows w.rows x.cols x.fmt, s.tileStat a x 32 false, s.tileStat a w 32 false,
    failIf (tooMany (s.arrays a.k.cl).length x.rows w.rows) ST_AR_NO_ARRAY,
    if fnBit o.i 0 then accStat a.k.acc x.rows w.rows else ST_OK]

/-- MMA once its rows are in. -/
def State.mmaRun (s : State) (a : Site) (o : EngOp) : EngRes × State :=
  let x := o.tile 1
  let w := o.tile 2
  let g : Gemm := ⟨x.rows, w.rows, x.cols, x.fmt, w.fmt,
    (List.range x.rows).map (fun r => let row := s.oRow a x o.got r; fun k => some (elemAt row k)),
    (List.range w.rows).map (s.oRow a w [])⟩
  let old := if fnBit o.i 0 then a.k.acc else none
  let key := ((o.t.getD 2 0).toNat, g.m, g.n, g.k, g.fa * 16 + g.fw)
  s.gemm a.k.cl (if a.k.shadow = some key then some a.c.id else none) g old (old.bind (·.ring)) ((old.map (·.history)).getD [])

/-! ## CONV1 (R267, R268) -/

/-- The extension word of CONV1. -/
structure Conv where
  d : Nat
  l : Nat
  s : Nat
  outs : Nat
  causal : Bool

def convOf (i : BWord) : Conv :=
  let e := (i.ext.getD 0).toNat
  ⟨fld e 3 0 + 1, fld e 9 4 + 1, fld e 11 10 + 1, fld e 19 12 + 1, fnBit i 1⟩

/-- Cp. -/
def convCp (t : Tile) : Nat := alignUp t.cols (sliceWidth t.fmt)

/-- Rows of X that the window of an output reaches back. -/
def Conv.back (v : Conv) : Nat := (v.d - 1) * v.l

/-- Checks of CONV1. -/
def State.convStat (s : State) (a : Site) (o : EngOp) : Nat :=
  let v := convOf o.i
  let x := o.tile 1
  let w := o.tile 2
  let last := (v.outs - 1) * v.s + (if v.causal then 0 else v.back)
  firstBad [tileRole a x true 3, noRing w, formatStat x.fmt w.fmt,
    failIf (x.cols == 0 || decide (16384 < v.d * convCp x) || w.rows == 0 || decide (256 < w.rows)
      || w.cols != v.d * convCp x || decide (x.rows ≤ last)
      || (x.ringed && decide (65536 < v.back * elemBytes x.fmt x.cols))) ST_AR_CONV,
    s.tileStat a x 32 false, s.tileStat a w 32 false,
    failIf (tooMany (s.arrays a.k.cl).length v.outs w.rows) ST_AR_NO_ARRAY,
    if fnBit o.i 0 then accStat a.k.acc v.outs w.rows else ST_OK]

/-- CONV1 once its rows are in. -/
def State.convRun (s : State) (a : Site) (o : EngOp) : EngRes × State :=
  let v := convOf o.i
  let x := o.tile 1
  let w := o.tile 2
  let cp := convCp x
  let pad := if v.causal then v.back else 0
  let old := if fnBit o.i 0 then a.k.acc else none
  let hist := if x.ringed then (old.filter (fun c => c.ring == some x.ring)).elim [] (·.history) else []
  let rows := (List.range x.rows).map (s.oRow a x o.got)
  let before (j : Nat) : ElemRow := if j ≤ hist.length then hist.getD (hist.length - j) ⟨[], [], []⟩ else ⟨[], [], []⟩
  let row (t d : Nat) : ElemRow :=
    let p := t * v.s + d * v.l
    if pad ≤ p then rows.getD (p - pad) ⟨[], [], []⟩ else before (pad - p)
  let stream (t : Nat) : Stream := fun k => if k % cp < x.cols then some (elemAt (row t (k / cp)) (k % cp)) else none
  let g : Gemm := ⟨v.outs, w.rows, v.d * cp, x.fmt, w.fmt, (List.range v.outs).map stream, (List.range w.rows).map (s.oRow a w [])⟩
  if x.ringed then
    let kept := hist ++ rows
    s.gemm a.k.cl none g old (some x.ring) (kept.drop (kept.length - v.back))
  else s.gemm a.k.cl none g old (old.bind (·.ring)) ((old.map (·.history)).getD [])

/-! ## ROWS (R258) -/

/-- Checks of ROWS. -/
def State.rowsStat (s : State) (a : Site) (o : EngOp) : Nat :=
  let x := o.tile 1
  let w := o.tile 2
  firstBad [noRing w, formatStat x.fmt w.fmt, shapeStat x.rows w.rows w.cols x.fmt, s.tileStat a w 32 false,
    failIf (tooMany (s.arrays a.k.cl).length x.rows w.rows) ST_AR_NO_ARRAY]

/-- What an array holds for its first job once ROWS has loaded the stationary rows of that pass. -/
def Gemm.load (g : Gemm) (ctx : Nat) (jobs : List Job) (n : Nat) (r : ArrayRegs) : ArrayRegs :=
  match (jobs.find? (·.array == n)).bind (fun j => j.slices.head?.map (fun x => (j.block, x))) with
  | some (b, x) => { r with shadow := g.stationary b x, loaded := some (ctx, b, x) }
  | none => r

/-- ROWS: the shadow registers of each array of the fold take the rows of its first pass, and the context keeps the tile, M, N, K and
the formats that they stand for. -/
def State.rowsRun (s : State) (a : Site) (o : EngOp) : EngRes × State :=
  let x := o.tile 1
  let w := o.tile 2
  let g : Gemm := ⟨x.rows, w.rows, w.cols, x.fmt, w.fmt, [], (List.range w.rows).map (s.oRow a w [])⟩
  let arrays := s.arrays a.k.cl
  let jobs := foldOf arrays.length g.m g.n (ceilDiv g.k (sliceWidth g.fa))
  ({ shadow := some ((o.t.getD 2 0).toNat, g.m, g.n, g.k, g.fa * 16 + g.fw) },
   arrays.zipIdx.foldl (fun s e => s.modArray a.k.cl e.1 (g.load a.c.id jobs e.2)) s)

/-! ## EWA (R269) -/

/-- Operation and number of tile inputs. -/
def ewaOp (i : BWord) : Nat := fnFld i 2 0

/-- Tile operands of an EWA. -/
def EngOp.ewaIn (o : EngOp) : List Tile :=
  if ewaOp o.i = 3 then [o.tile 1, o.tile 2, o.tile 3] else [o.tile 1, o.tile 2]

/-- Checks of EWA. -/
def State.ewaStat (s : State) (a : Site) (o : EngOp) : Nat :=
  let d := o.tile 0
  let l := o.ewaIn
  let n := d.rows * d.cols
  firstBad ([noRing d] ++ l.map noRing ++
    [failIf (l.any (fun t => !isInput t.fmt || isMx t.fmt) || !isOutput d.fmt || d.fmt == 11) ST_AR_FORMAT,
     failIf (l.any (fun t => t.fmt != (o.tile 1).fmt)) ST_AR_FORMAT_MIX,
     failIf (n == 0 || decide (65536 < n) || l.any (fun t => t.rows * t.cols != n)) ST_AR_SHAPE]
    ++ l.map (fun t => s.tileStat a t 32 false) ++ [s.tileStat a d 32 true, failIf (s.arrays a.k.cl).isEmpty ST_AR_NO_ARRAY])

/-- A result of integers has no negative zero. -/
def plainZero (int : Bool) (v : Val) : Val := if int ∧ v.isZero then .zero else v

/-- One result. -/
def ewaVal (op : Nat) (x y z s : Val) : Val :=
  match op with
  | 0 => x.add y
  | 1 => x.sub y
  | 2 => x.mul y
  | 3 => x.fma y z
  | 4 => x.fma s y
  | 5 => x.max y
  | _ => x.min y

/-- Seeds of R264 for array i of a cluster. -/
def arrSeed (at_ : Word) (cl i : Nat) : BitVec 32 := srSeed at_ (cl * 8 + i)

/-- The length of run j when n elements are split over p arrays. -/
def runLen (n p j : Nat) : Nat := if j < n % p then n / p + 1 else n / p

/-- Convert runs of values, each on its own array. -/
def convertRuns (fmt : Nat) (satfin sr : Bool) (at_ : Word) (cl : Nat) : List (Nat × Nat) → List Val → List Nat × Nat
  | [], _ => ([], 0)
  | (arr, n) :: t, l =>
    let (b, f, _) := convertAll fmt satfin (if sr then some (arrSeed at_ cl arr) else none) (l.take n)
    let (bs, fs) := convertRuns fmt satfin sr at_ cl t (l.drop n)
    (b ++ bs, f ||| fs)

/-- The group of 32 elements that an array worked on last stays in its input buffer, a row for each operand (R271): `lo` and `n` are
the array's run. -/
def lastGroup (fmt lo n : Nat) (ops : List (List Nat)) (r : ArrayRegs) : ArrayRegs :=
  if n = 0 then r else
    let at_ := lo + (n - 1) / 32 * 32
    { r with input := ops.map (fun l => elemRow fmt ((l.drop at_).take (lo + n - at_)) []) }

/-- EWA. -/
def State.ewaRun (s : State) (a : Site) (o : EngOp) : EngRes × State :=
  let d := o.tile 0
  let raw (t : Tile) : List Nat := (List.range t.rows).flatMap (s.rowElems a t [])
  let el (t : Tile) : List Val := (raw t).map (elemVal t.fmt)
  let x := el (o.tile 1)
  let y := el (o.tile 2)
  let z := if ewaOp o.i = 3 then el (o.tile 3) else []
  let sc := F32.val ((o.scalar 3).setWidth 32)
  let int := isIntFmt (o.tile 1).fmt
  let vals := ((x.zip y).zipIdx).map (fun e => plainZero (int && ewaOp o.i != 4) (ewaVal (ewaOp o.i) e.1.1 e.1.2 (z.getD e.2 .zero) sc))
  let arrays := s.arrays a.k.cl
  let n := d.rows * d.cols
  let p := arrays.length
  let (bits, f) := convertRuns d.fmt (!fnBit o.i 4) (fnBit o.i 3) o.at_ a.k.cl (arrays.zipIdx.map (fun e => (e.1, runLen n p e.2))) vals
  (.place d ⟨chunks d.cols bits d.rows, f⟩,
   arrays.zipIdx.foldl (fun s e => s.modArray a.k.cl e.1
     (lastGroup (o.tile 1).fmt ((List.range e.2).map (runLen n p)).sum (runLen n p e.2) (o.ewaIn.map raw))) s)

/-! ## DRAIN (R262 to R265) -/

/-- Checks of DRAIN. -/
def State.drainStat (s : State) (a : Site) (o : EngOp) : Nat :=
  let d := o.tile 0
  let scale := fnBit o.i 0
  let vec (n : Nat) : Nat :=
    if scale then firstBad [failIf ((o.scalar n).toNat % 32 != 0) ST_AR_ALIGN, s.readStat a ⟨(o.scalar n).toNat, 4 * d.cols⟩ ST_AR_ALIGN] else ST_OK
  match a.k.acc with
  | none => firstBad [tileRole a d false 3, ST_AR_NO_ACC]
  | some c =>
    firstBad [tileRole a d false 3, failIf (!isOutput d.fmt || (d.fmt == 11 && (!c.isInt || scale))) ST_AR_FORMAT,
      failIf (d.rows != c.m || d.cols != c.n) ST_AR_ACC_SHAPE, s.tileStat a d 32 true, vec 1, vec 2]

/-- A permutation of a list chosen by a number: the order in which arrays finish, which is open. -/
def permOf : Nat → Nat → List α → List α
  | 0, _, l => l
  | f + 1, w, l =>
    match l[w % l.length]? with
    | some x => x :: permOf f (w / l.length) (l.eraseIdx (w % l.length))
    | none => l

/-- Combine two partials of a block (stage 1). -/
def combineEnt (isInt : Bool) (a b : List (List F32)) : List (List F32) × Nat :=
  let r := (a.zip b).map (fun e => (e.1.zip e.2).map (fun x =>
    if isInt then satAdd x.1 x.2.toInt
    else let (v, ov) := fp32.round ((F32.val x.1).add (F32.val x.2)); (BitVec.ofNat 32 v, flagIf ov fOVF)))
  (r.map (·.map (·.1)), (r.flatMap (·.map (·.2))).foldl (· ||| ·) 0)

/-- The partials of a block combined in the order in which their arrays finish: entries, the array that finished last,
flags. -/
def combineBlock (isInt : Bool) (l : List AccPart) : List (List F32) × Nat × Nat :=
  match l with
  | [] => ([], 0, 0)
  | p :: t => t.foldl (fun (r : List (List F32) × Nat × Nat) q => let (e, f) := combineEnt isInt r.1 q.ent; (e, q.array, r.2.2 ||| f)) (p.ent, p.array, 0)

/-- The exact value of an output element (stage 2). -/
def drainVal (c : Acc) (scale : Bool) (alpha beta : List F32) (col : Nat) (x : F32) : Val :=
  let v := if c.isInt then Val.ofInt x.toInt else F32.val x
  if scale then v.fma (F32.val (alpha.getD col 0)) (F32.val (beta.getD col 0)) else v

/-- FP32 values in bytes. -/
def f32List (b : Bytes) (n : Nat) : List F32 := (List.range n).map (fun i => BitVec.ofNat 32 (rd b (4 * i) 4))

/-- Drain the blocks in order: converted rows of each block, flags, and the generators of the arrays. -/
def State.drainBlocks (s : State) (c : Acc) (o : EngOp) (cl : Nat) (alpha beta : List F32) :
    List Nat → List (Nat × BitVec 32) → List (List (List Nat)) × Nat × State
  | [], _ => ([], 0, s)
  | b :: t, gens =>
    let parts := c.parts.filter (·.block == b)
    let (w, s1) := if parts.length ≤ 1 then (0, s) else s.free
    let (ent, arr, f0) := combineBlock c.isInt (permOf parts.length w.toNat parts)
    let col0 := 32 * (b % ceilDiv c.n 32)
    let vals := ent.map (fun r => r.zipIdx.map (fun x => drainVal c (fnBit o.i 0) alpha beta (col0 + x.2) x.1))
    let seed := keyGet (arrSeed o.at_ cl arr) gens arr
    let width := ((ent.head?).map List.length).getD 0
    let (bits, f, g) := convertAll (o.tile 0).fmt (!fnBit o.i 2) (if fnBit o.i 1 then some seed else none) vals.flatten
    let gens2 := match g with
      | some x => keyPut gens arr x
      | none => gens
    let (rest, fs, s2) := State.drainBlocks s1 c o cl alpha beta t gens2
    (chunks width bits ent.length :: rest, f0 ||| f ||| fs, s2)

/-- DRAIN. -/
def State.drainRun (s : State) (a : Site) (o : EngOp) : EngRes × State :=
  match a.k.acc with
  | none => ({}, s)
  | some c =>
    let vec (n : Nat) : List F32 := if fnBit o.i 0 then f32List (s.ctxRead a.c a.k (o.scalar n).toNat (4 * c.n)) c.n else []
    let nN := ceilDiv c.n 32
    let (blocks, f, s1) := s.drainBlocks c o a.k.cl (vec 1) (vec 2) (List.range (blocksOf c.m c.n)) []
    let rows := (List.range c.m).map (fun r => (List.range nN).flatMap (fun b => (blocks.getD (r / 64 * nN + b) []).getD (r % 64) []))
    let res := EngRes.place (o.tile 0) ⟨rows, f ||| c.flags⟩
    (res, s1)

/-! ## Issue (R368) -/

/-- Ranges of an array instruction. -/
def arrRanges (k : ClCtx) (kind : EKind) (i : BWord) : List Range × List Range :=
  let t (n : Nat) : List Range := (tileOf (k.t n)).ranges
  match kind with
  | .rows => (t i.b, [])
  | .mma | .conv1 => (t i.a ++ t i.b, [])
  | .ewa => (t i.a ++ t i.b ++ (if ewaOp i = 3 then t i.c else []), t i.d)
  | _ =>
    let n := 4 * (tileOf (k.t i.d)).cols
    (if fnBit i 0 then [⟨(k.s i.a).toNat, n⟩, ⟨(k.s i.b).toNat, n⟩] else [], t i.d)

/-- Scalar registers that an array instruction reads. -/
def arrRegs (kind : EKind) (i : BWord) : List Nat :=
  match kind with
  | .ewa => if ewaOp i = 4 then [i.c] else []
  | .drain => if fnBit i 0 then [i.a, i.b] else []
  | _ => []

/-- Issue of an array instruction. -/
def State.issueArr (s : State) (cl : Nat) (i : BWord) (kind : EKind) : State :=
  s.issue cl i (arrRegs kind i) (fun a s =>
    let (r, w) := arrRanges a.k kind i
    a.enqueue s (a.op s .arr kind i r w))

/-- ROWS. -/
def execRows (cl : Nat) (i : BWord) (s : State) : Outcome State Fault Refusal := .next (s.issueArr cl i .rows)
/-- MMA. -/
def execMma (cl : Nat) (i : BWord) (s : State) : Outcome State Fault Refusal := .next (s.issueArr cl i .mma)
/-- CONV1. -/
def execConv1 (cl : Nat) (i : BWord) (s : State) : Outcome State Fault Refusal := .next (s.issueArr cl i .conv1)
/-- EWA. -/
def execEwa (cl : Nat) (i : BWord) (s : State) : Outcome State Fault Refusal := .next (s.issueArr cl i .ewa)
/-- DRAIN. -/
def execDrain (cl : Nat) (i : BWord) (s : State) : Outcome State Fault Refusal := .next (s.issueArr cl i .drain)

/-! ## Failed checks (R272, R310, R536) -/

/-- Change an engine instruction that runs. -/
def State.modEng (s : State) (cl ctx id : Nat) (f : EngOp → EngOp) : State :=
  s.modOn ctx cl (fun k => { k with running := modFirst (·.id == id) f k.running })

/-- An engine instruction that runs. -/
def State.eng? (s : State) (cl ctx id : Nat) : Option (Site × EngOp) :=
  (s.engSite cl ctx).bind (fun a => (a.k.running.find? (·.id == id)).map (fun o => (a, o)))

/-- The next array in ascending order that is not fenced, wrapping from A7 to A0. -/
def State.nextArray (s : State) (cl i : Nat) : Option Nat :=
  ((List.range 7).map (fun j => (i + 1 + j) % 8)).find? (s.arrays cl).contains

/-- RESIDUE_CHECK_FAILS: `c` is the check that failed, with the hash of the step's inputs. The replay on the same array fails too for
`.other` and `.failed`, and the replay on the next array for `.failed` (R272). -/
def execResidueCheckFails (cl array ctx opId : Nat) (r : Replay) (c : CheckNo) (s : State) : Outcome State Fault Refusal :=
  .next (s.whenServing fun s =>
    match s.eng? cl ctx opId with
    | none => s
    | some (_, o) =>
      if o.cls ≠ .arr ∨ 8 ≤ array ∨ 128 ≤ cl then s
      else
        let u (i : Nat) : Nat := cl * 8 + i
        let c : CheckRep := CheckRep.of c ST_AR_CHECK (some ctx)
        match r with
        | .same => (s.checkFailed (u array) 1 c false).modEng cl ctx opId (fun o => { o with flags := o.flags ||| fREPLAY })
        | .other => (s.checkFailed (u array) 2 c true).modEng cl ctx opId (fun o => { o with flags := o.flags ||| fREPLAY ||| fMOVED })
        | .failed =>
          let s1 := s.checkFailed (u array) 2 c true
          let s2 := match s.nextArray cl array with
            | some j => s1.checkMoved (u j) c
            | none => s1
          s2.modEng cl ctx opId (fun o => { o with flags := o.flags ||| fREPLAY ||| fMOVED, failed := some ST_AR_CHECK }))

/-- VECTOR_CHECK_FAILS: one replay on the same unit, or ST_AR_CHECK (R310). -/
def execVectorCheckFails (cl : Nat) (sfu : Bool) (ctx opId : Nat) (passed : Bool) (c : CheckNo) (s : State) :
    Outcome State Fault Refusal :=
  .next (s.whenServing fun s =>
    match s.eng? cl ctx opId with
    | none => s
    | some (_, o) =>
      if (if sfu then o.onSfu = false else o.cls ≠ .vec) ∨ 128 ≤ cl then s
      else
        (s.checkFailed ((if sfu then 2 else 1) * 4096 + cl) (if passed then 1 else 2) (CheckRep.of c ST_AR_CHECK (some ctx)) (!passed)).modEng
          cl ctx opId (fun o => { o with flags := o.flags ||| fREPLAY, failed := if passed then o.failed else some ST_AR_CHECK }))

/-- TRANSFER_CHECK_FAILS: the run is replayed, or the launch ends with ST_RAS_CHECK (R535, R536). -/
def execTransferCheckFails (cl ctx opId : Nat) (passed : Bool) (c : CheckNo) (s : State) : Outcome State Fault Refusal :=
  .next (s.whenServing fun s =>
    match s.eng? cl ctx opId with
    | none => s
    | some (_, o) =>
      if o.cls ≠ .te ∨ 128 ≤ cl then s
      else
        (s.checkFailed (3 * 4096 + cl) (if passed then 1 else 2) (CheckRep.of c ST_RAS_CHECK (some ctx)) (!passed)).modEng cl ctx opId
          (fun o => { o with failed := if passed then o.failed else some ST_RAS_CHECK }))

end Sys2Proof.Machine
end

