-- ==== Sys2Proof/Machine/Hbm.lean ====
section
/-! DEFINITION. Errors of HBM granules and stacks (R473 to R477, R488, R489). -/
namespace Sys2Proof.Machine

/-- Stack, stack byte and pseudo-channel of a device address (R473). -/
def State.devPlace (s : State) (a : Nat) : Nat × Nat × Nat :=
  let u := a / 256
  let off := u / 16 * 256 + a % 256
  ((u % 16) ^^^ (u / 256 % 16), s.regF Reg.TBL_HEAP 6 0 * 2 ^ 30 + off, off / 256 % 32)

/-- What a read of a granule comes to: parity errors on the way are retried up to 4 times, and then it is uncorrectable (R475). -/
def healthOf (h : HbmHealth) : GranuleHealth := if 4 < h.parity then .uncorrectable else h.code

/-- MEM_ERR: KIND 1 corrected, 2 uncorrectable, 3 poisoned read (R489). -/
def State.memErr (s : State) (k kind pc granule : Nat) : State :=
  s.setRegN (Reg.MEM_ERR k) (kind * 2 ^ 60 + pc % 32 * 2 ^ 40 + granule % 2 ^ 32)

/-- A granule of a stack was corrected. -/
def State.memCorrected (s : State) (k pc granule : Nat) : State :=
  ((s.count (Reg.MEM_CE k) 1).memErr k 1 pc granule).log 1 ST_OK (6 * 4096 + k * 32 + pc % 32) none 0 granule 0

/-- A failed stack makes the part lost (R477, R542). -/
def State.failStack (s : State) (k : Nat) : State :=
  let s1 : State := { s with mem := { s.mem with state := listMod s.mem.state k (fun _ => 2) } }
  s1.declareLost (0x500 + k)

/-- A granule of a stack is uncorrectable; more than UE_LIMIT of them within one second fail the stack. -/
def State.memUncorrectable (s : State) (k pc granule : Nat) : State :=
  let recent := s.mem.ue.filter (fun e => e.1 == k && decide (s.now < e.2.toNat + second))
  let s1 := (((s.count (Reg.MEM_UE k) 1).memErr k 2 pc granule).latch Reg.HST_STATUS 3).log 2 ST_MEM_UNCORR (6 * 4096 + k * 32 + pc % 32) none 0 granule 0
  let s2 : State := { s1 with mem := { s1.mem with ue := (k, s.time.gtime) :: recent ++ s1.mem.ue.filter (fun e => !(e.1 == k)) } }
  if s.regF (Reg.MEM_CTL k) 15 0 < recent.length + 1 then s2.failStack k else s2

/-- A poisoned granule of the general region is read at a device address: the read is logged (R476). -/
def State.poisonRead (s : State) (a : Nat) : State :=
  let (k, byte, pc) := s.devPlace a
  ((s.memErr k 3 pc (byte / 32)).log 2 ST_MEM_POISON (6 * 4096 + k * 32 + pc) none 0 (byte / 32) 0)

/-- An engine reads a poisoned granule of the general region at a device address. -/
def State.memPoisonRead (s : State) (a : Nat) : State := (s.poisonRead a).latch Reg.HST_STATUS 4

/-- The marks that a write of bytes at a device address leaves: a granule written whole is poisoned no longer (R476). -/
def clearPoison (l : List Nat) (a n : Nat) : List Nat := l.filter (fun g => !(decide (a ≤ 32 * g) && decide (32 * g + 32 ≤ a + n)))

/-- An engine writes the general region. -/
def State.devWrite (s : State) (a : Nat) (b : Bytes) : State :=
  let s1 := s.hbmWrite a b
  { s1 with mem := { s1.mem with poisoned := clearPoison s1.mem.poisoned a b.length, bad := clearPoison s1.mem.bad a b.length } }

/-- Address of the first granule of a list that a range touches. -/
def firstIn (l : List Nat) (a n : Nat) : Option Nat := (l.find? (fun g => decide (32 * g < a + n) && decide (a < 32 * g + 32))).map (· * 32)

/-- The first poisoned, and the first uncorrectable, granule of a range. -/
def State.poisonAt (s : State) (a n : Nat) : Option Nat := firstIn s.mem.poisoned a n
def State.badAt (s : State) (a n : Nat) : Option Nat := firstIn s.mem.bad a n

/-- Granules of a list that a range touches. -/
def granulesIn (l : List Nat) (a n : Nat) : List Nat := l.filter (fun g => decide (32 * g < a + n) && decide (a < 32 * g + 32))

/-- An uncorrectable granule is read at a device address. -/
def State.memBadRead (s : State) (a : Nat) : State :=
  let (k, byte, pc) := s.devPlace a
  s.memUncorrectable k pc (byte / 32)

/-- The device address of a stack byte in the HDM area; `none` in the heap and the reserve (R471, R473). -/
def State.devOf (s : State) (k byte : Nat) : Option Nat :=
  let h := s.regF Reg.TBL_HEAP 6 0 * 2 ^ 30
  let off := byte - h
  let u := off / 256
  if h ≤ byte ∧ byte < 80 * 2 ^ 30 - 2 ^ 28 then some ((u * 16 + (k ^^^ (u / 16 % 16))) * 256 + off % 256) else none

end Sys2Proof.Machine
end

