-- ==== Sys2Proof/Machine/Xlat.lean ====
section
/-! DEFINITION. Translation of host addresses, page requests and their failures, and the accesses of engines to the general
region that the host may hold (R452 to R465, R469, R473, R476). -/
namespace Sys2Proof.Machine

/-! ## Who asks, over what (R453) -/

/-- Whether an access may go on. -/
inductive Xr where
  | ok
  | wait
  | fail (st : Nat)
  deriving DecidableEq, Repr

/-- Translation buffer of a requester: its cluster's transfer engine, or the CFE's. -/
def XReq.buf : XReq → Nat
  | .te cl _ _ => cl
  | _ => 128

/-- SOURCE of XLT_FAULT. -/
def XReq.source : XReq → Nat
  | .fetch _ => 0
  | .record _ => 1
  | .args _ => 2
  | .bulk _ _ => 3
  | .te _ _ _ => 4

/-- CLUSTER and CTX of XLT_FAULT. -/
def XReq.where_ : XReq → Nat × Nat
  | .args c => (0, c)
  | .te cl c _ => (cl, c)
  | _ => (0, 0)

/-! ## Runs of a transfer (R372, R406, R463, R464) -/

/-- Runs of a transfer. -/
def Xfer.runs (x : Xfer) : Nat := x.cnt.foldl (· * ·) 1

/-- Offset of run r from the address of a side: dimension 1 varies fastest. -/
def strideSum : Nat → List Nat → List Int → Int
  | _, [], _ => 0
  | _, _, [] => 0
  | r, c :: cs, t :: ts => (r % c : Nat) * t + strideSum (r / c) cs ts

def Xfer.srcAt (x : Xfer) (r : Nat) : Int := x.srcAddr + strideSum r x.cnt x.sstr
def Xfer.dstAt (x : Xfer) (r : Nat) : Int := x.dstAddr + strideSum r x.cnt x.dstr

/-- Bytes of run r. -/
def Xfer.lenAt (x : Xfer) (r : Nat) : Nat := if r + 1 = x.runs then x.last else x.len0

/-- A host virtual address. -/
def hva (a : Int) : Nat := wrapI 64 a

/-- A transfer has failed: the bytes of its runs from the mark on are open, as far as `put` has a place for them (R464). -/
def State.openRuns (s : State) (put : State → Nat → Bytes → State) (x : Xfer) : State :=
  ((List.range x.runs).drop x.mark).foldl (fun s r => let (b, s1) := s.freeBytes (x.lenAt r); put s1 r b) s

/-- A COPY fails: bytes of device memory at and beyond the mark are open. -/
def State.copyFails (s : State) (k n : Nat) (x : Xfer) (st : Nat) : State :=
  let put (s : State) (r : Nat) (b : Bytes) : State :=
    if x.dst = 1 ∧ (x.dstAt r).toNat + b.length ≤ s.hdmSize then s.hbmWrite (x.dstAt r).toNat b else s
  (s.openRuns put x).endCmd k n st 0

/-! ## Failures (R462, R486) -/

/-- A slot sets ERROR (R391). -/
def State.slotError (s : State) (k st : Nat) : State :=
  s.modSlot k (fun q => { q with error := true, errStatus := if st = ST_OK then q.errStatus else st })

/-- A run of a load or transfer command cannot go on. -/
def State.failBulk (s : State) (k n st : Nat) : State :=
  if (s.load? k n).isSome then s.endLoad k n (some st)
  else match (s.cmd? k n).bind (·.xfer) with
    | some x => s.copyFails k n x st
    | none => s.endCmd k n st 0

/-- What a failed access does to its requester. -/
def State.failReq (s : State) (who : XReq) (st : Nat) : State :=
  match who with
  | .fetch k => s.slotError k ST_OK
  | .record k => (s.slotError k ST_OK).modSlot k (fun q => { q with deaf := true, counted := q.counted || (!q.deaf && st != ST_HOST_PORT_DOWN) })
  | .args c => (s.endLaunch c st).settleCtx c
  | .bulk k n => s.failBulk k n st
  | .te cl c op => s.modEng cl c op (fun o => { o with status := if o.status = ST_OK then st else o.status })

/-- A translation failed: it is recorded and counted, and its requester fails. -/
def State.xlatFail (s : State) (who : XReq) (pasid addr : Nat) (write : Bool) (st : Nat) : State :=
  let (cl, c) := who.where_
  let s1 := s.setRegN Reg.XLT_FAULT (st * 2 ^ 48 + pasid * 2 ^ 28 + b2n write * 2 ^ 27 + who.source * 2 ^ 24 + cl * 2 ^ 12 + c)
  let s2 := (s1.setRegN Reg.XLT_FAULT_ADDR addr).count Reg.XLT_FATAL 1
  (s2.latch Reg.HST_STATUS (if st = ST_XLAT_OFF then 1 else 0)).failReq who st

/-! ## Looking up and asking (R457, R458, R460) -/

abbrev atcEntries : Nat := 65536
abbrev bufEntries : Nat := 32

/-- Page request groups that a port may have outstanding: its capacity. -/
abbrev groupLimit : Nat := 512

/-- An entry covers an address of a PASID on a port. -/
def Xlat.covers (x : Xlat) (port pasid addr : Nat) : Bool :=
  x.port == port && x.pasid == pasid && x.page * 4096 / 2 ^ x.log2 == addr / 2 ^ x.log2

/-- Store a translation in a level that keeps its latest entries. -/
def keepXlat (l : List Xlat) (x : Xlat) (room : Nat) : List Xlat :=
  let same := l.filter (fun y => y.buf == x.buf)
  let rest := l.filter (fun y => !(y.buf == x.buf))
  rest ++ (x :: same.filter (fun y => !(y.port == x.port && y.pasid == x.pasid && y.page == x.page))).take room

def State.storeXlat (s : State) (x : Xlat) : State :=
  { s with host := { s.host with
      xlats := keepXlat s.host.xlats x (if x.buf.isSome then bufEntries else atcEntries) } }

/-- Send a page request group for a fault, or join one that asks for the same or more (R460). Answers the group. -/
def State.pageRequest (s : State) (port pasid addr : Nat) (write : Bool) : Nat × State :=
  let page := addr / 4096
  match s.host.groups.find? (fun g => g.port == port && g.pasid == pasid && g.page == page && (g.write || !write)) with
  | some g => (g.id, s)
  | none =>
    let id := s.host.nextId
    let s1 : State := { s with host := { s.host with nextId := id + 1, groups := s.host.groups ++ [⟨id, port, pasid, page, write, s.time.gtime⟩] } }
    (id, (s1.count Reg.XLT_PRI_REQ 1).emit (.pageRequest port id pasid page write false true))

/-- A fault that joins no group finds no room for one of its own within the host's allocation, and waits until a response frees room
(R460). -/
def State.groupFull (s : State) (port pasid addr : Nat) (write : Bool) : Bool :=
  decide (min groupLimit (((s.host.ports[port]?).map (·.alloc)).getD 0) ≤ (s.host.groups.filter (·.port == port)).length)
    && !s.host.groups.any (fun g => g.port == port && g.pasid == pasid && g.page == addr / 4096 && (g.write || !write))

/-- Send a Translation Request for an access. -/
def State.atsRequest (s : State) (who : XReq) (port pasid addr : Nat) (write retried : Bool) : State :=
  let id := s.host.nextId
  let w : XWait := ⟨id, port, pasid, addr, write, who, none, retried, s.time.gtime⟩
  let s1 : State := { s with host := { s.host with nextId := id + 1, waits := s.host.waits ++ [w] } }
  (s1.count Reg.XLT_ATS_REQ 1).emit (.atsRequest port id pasid (addr / 4096) write)

/-- An access whose translation lacks the permission it needs: after Success it fails, and else a page request is made. -/
def State.faultAt (s : State) (who : XReq) (port pasid addr : Nat) (write retried : Bool) : Xr × State :=
  if retried then (.fail ST_XLAT_FATAL, s.xlatFail who pasid addr write ST_XLAT_FATAL)
  else if (s.host.ports[port]?).any (·.priFailed) then (.fail ST_XLAT_OFF, s.xlatFail who pasid addr write ST_XLAT_OFF)
  else if s.groupFull port pasid addr write then
    (.wait, { s with host := { s.host with full := s.host.full ++ [⟨0, port, pasid, addr, write, who, none, false, s.time.gtime⟩] } })
  else
    let (g, s1) := s.pageRequest port pasid addr write
    let w : XWait := ⟨s1.host.nextId, port, pasid, addr, write, who, some g, false, s.time.gtime⟩
    (.wait, { s1 with host := { s1.host with nextId := s1.host.nextId + 1, waits := s1.host.waits ++ [w] } })

/-- An access to the 4 KiB page that holds a host virtual address (R456 to R460). -/
def State.access1 (s : State) (who : XReq) (port pasid addr : Nat) (write : Bool) : Xr × State :=
  if !s.portIsUp port then (.fail ST_HOST_PORT_DOWN, s.failReq who ST_HOST_PORT_DOWN)
  else if !s.xlatOn port then (.fail ST_XLAT_OFF, s.xlatFail who pasid addr write ST_XLAT_OFF)
  else if (s.host.waits ++ s.host.full).any (fun w => w.who == who && w.addr / 4096 == addr / 4096) then (.wait, s)
  else
    let mine (x : Xlat) : Bool := x.covers port pasid addr
    match (s.host.xlats.find? (fun x => x.buf == some who.buf && mine x)).or (s.host.xlats.find? (fun x => x.buf == none && mine x)) with
    | some x =>
      if (if write then x.w else x.r) then (.ok, s.storeXlat { x with buf := some who.buf })
      else s.faultAt who port pasid addr write false
    | none => (.wait, s.atsRequest who port pasid addr write false)

/-- An access to a range: page by page, up to the first that cannot go on. -/
def State.accessPages (s : State) (who : XReq) (port pasid : Nat) (write : Bool) : List Nat → Xr × State
  | [] => (.ok, s)
  | p :: t =>
    match s.access1 who port pasid p write with
    | (.ok, s1) => State.accessPages s1 who port pasid write t
    | r => r

/-- 4 KiB pages of a range of addresses. -/
def pagesOf (addr len : Nat) : List Nat := (List.range ((addr + len - 1) / 4096 - addr / 4096 + 1)).map (fun i => (addr / 4096 + i) * 4096)

/-- The physical address that a host virtual address is translated to, as the caches have it. -/
def State.physOf (s : State) (port pasid addr : Nat) : Nat :=
  match s.host.xlats.find? (fun x => x.covers port pasid addr) with
  | some x => x.phys / 2 ^ x.log2 * 2 ^ x.log2 + addr % 2 ^ x.log2
  | none => addr

/-- Host line that holds a translated address. -/
def State.hostLine (s : State) (port pasid addr : Nat) : Nat := s.physOf port pasid addr / 64

/-- 64-byte lines of a range of addresses. -/
def linesOf (a n : Nat) : List Nat := (List.range ((a + n - 1) / 64 - a / 64 + 1)).map (· + a / 64)

/-- A write of host memory goes out page by page at translated addresses, and the host snoops the lines out of the host line cache
(R455, R456). -/
def State.hostOut (s : State) (port pasid addr : Nat) (b : Bytes) : State :=
  (pagesOf addr b.length).foldl (fun s p =>
    let at_ := max addr p
    let piece := slice b (at_ - addr) (min (p + 4096) (addr + b.length) - at_)
    let phys := s.physOf port pasid at_
    ({ s with host := { s.host with hlc := s.host.hlc.filter (fun l => !(linesOf phys piece.length).contains l) } } : State).emit
      (.hostWrite port pasid phys true piece)) s

/-- An access to len bytes at a host virtual address. -/
def State.access (s : State) (who : XReq) (port pasid addr len : Nat) (write : Bool) : Xr × State :=
  s.accessPages who port pasid write ((pagesOf addr len).map (max addr))

/-! ## Responses (R458, R461) -/

/-- ATS_COMPLETION for request x. -/
def execAtsCompletion (x : Nat) (r : AtsResult) (s : State) : Outcome State Fault Refusal :=
  .next (s.whenServing fun s =>
    match s.host.waits.find? (fun w => w.id == x && w.group.isNone) with
    | none => s
    | some w =>
      let s1 : State := { s with host := { s.host with waits := s.host.waits.filter (fun v => !(v.id == x)) } }
      match r with
      | .grant rd wr log2 phys =>
        let e : Xlat := ⟨none, w.port, w.pasid, w.addr / 4096, max 12 (min 30 log2), phys, rd, wr⟩
        if (if w.write then wr else rd) then (s1.storeXlat e).storeXlat { e with buf := some w.who.buf }
        else (s1.faultAt w.who w.port w.pasid w.addr w.write w.retried).2
      | _ => s1.xlatFail w.who w.pasid w.addr w.write ST_XLAT_FATAL)

/-- ATS_TIMEOUT: no completion within ATS_TO_MS. -/
def execAtsTimeout (x : Nat) (s : State) : Outcome State Fault Refusal :=
  .next (s.whenServing fun s =>
    match s.host.waits.find? (fun w => w.id == x && w.group.isNone) with
    | none => s
    | some w =>
      if !s.reached (w.since.toNat + ms (s.regF Reg.XLT_CTL 15 0)) then s
      else ({ s with host := { s.host with waits := s.host.waits.filter (fun v => !(v.id == x)) } } : State).xlatFail w.who w.pasid w.addr w.write ST_XLAT_TIMEOUT)

/-- The accesses that wait on a group leave it. -/
def State.leaveGroup (s : State) (g : Nat) : List XWait × State :=
  (s.host.waits.filter (·.group == some g), { s with host := { s.host with
    groups := s.host.groups.filter (fun x => !(x.id == g))
    waits := s.host.waits.filter (fun w => !(w.group == some g)) } })

/-- The faults of a port that found no room are tried again, oldest first (R460). -/
def State.admitFull (s : State) (port : Nat) : State :=
  (s.host.full.filter (·.port == port)).foldl (fun s w =>
    if s.groupFull port w.pasid w.addr w.write then s
    else (({ s with host := { s.host with full := s.host.full.erase w } } : State).faultAt w.who port w.pasid w.addr w.write w.retried).2) s

/-- The accesses of a port that wait for a translation or a page request fail. -/
def State.failWaits (s : State) (port st : Nat) : State :=
  let here (w : XWait) : Bool := w.port == port
  let s1 : State := { s with host := { s.host with
    waits := s.host.waits.filter (fun w => !here w), full := s.host.full.filter (fun w => !here w) } }
  ((s.host.waits ++ s.host.full).filter here).foldl (fun s w => s.xlatFail w.who w.pasid w.addr w.write st) s1

/-- Every access of a group fails. -/
def State.failGroup (s : State) (g st : Nat) : State :=
  let (ws, s1) := s.leaveGroup g
  ws.foldl (fun s w => s.xlatFail w.who w.pasid w.addr w.write st) s1

/-- A Response Failure: every outstanding fault on the port fails, and every later one until PRI is enabled anew (R461). -/
def State.priFailure (s : State) (port : Nat) : State :=
  let fault (w : XWait) : Bool := w.port == port && w.group.isSome
  let s1 : State := { s.modHPort port (fun h => { h with priFailed := true }) with host := { (s.modHPort port (fun h => { h with priFailed := true })).host with
    groups := s.host.groups.filter (fun g => !(g.port == port))
    waits := s.host.waits.filter (fun w => !fault w)
    full := s.host.full.filter (fun w => !(w.port == port)) } }
  (s.host.waits.filter fault ++ s.host.full.filter (·.port == port)).foldl (fun s w => s.xlatFail w.who w.pasid w.addr w.write ST_XLAT_OFF) s1

/-- What the response to a group does to the accesses that wait on it. -/
def State.respond (s : State) (x : PGroup) : PriResult → State
  | .success =>
    let (ws, s1) := s.leaveGroup x.id
    (ws.foldl (fun s w => s.atsRequest w.who w.port w.pasid w.addr w.write true) s1).admitFull x.port
  | .invalid => (s.failGroup x.id ST_XLAT_FATAL).admitFull x.port
  | .failure => s.priFailure x.port

/-- PAGE_REQUEST_RESPONSE. A response with no waiter is ignored and counted, and so is one that comes in a warm reset (R461, R481). -/
def execPageRequestResponse (g : Nat) (r : PriResult) (s : State) : Outcome State Fault Refusal :=
  .next (if !s.serving then (if s.pwr.powered ∧ s.pwr.rstN ∧ s.pwr.warm then s.count Reg.XLT_PRI_LATE 1 else s)
    else
      let late := !s.host.waits.any (·.group == some g)
      let s0 := if late then s.count Reg.XLT_PRI_LATE 1 else s
      match s.host.groups.find? (·.id == g) with
      | none => s0
      | some x => if late then (s0.leaveGroup g).2.admitFull x.port else s0.respond x r)

/-- PRI_TIMEOUT: no response within PRI_TO_MS. -/
def execPriTimeout (g : Nat) (s : State) : Outcome State Fault Refusal :=
  .next (s.whenServing fun s => if s.host.groups.any (fun x => x.id == g && s.reached (x.since.toNat + ms (s.regF Reg.XLT_CTL 31 16))) then
      (s.failGroup g ST_XLAT_TIMEOUT).admitFull (((s.host.groups.find? (·.id == g)).map (·.port)).getD 0) else s)

/-- INVALIDATE_REQUEST: matching entries leave the ATC and every buffer (R459). -/
def execInvalidateRequest (p itag pasid page log2 : Nat) (global : Bool) (s : State) : Outcome State Fault Refusal :=
  .next (s.whenServing fun s =>
    let hit (x : Xlat) : Bool := x.port == p && (global || x.pasid == pasid)
      && (decide (x.page * 4096 / 2 ^ x.log2 * 2 ^ x.log2 < page * 4096 / 2 ^ log2 * 2 ^ log2 + 2 ^ log2))
      && (decide (page * 4096 / 2 ^ log2 * 2 ^ log2 < x.page * 4096 / 2 ^ x.log2 * 2 ^ x.log2 + 2 ^ x.log2))
    ({ s with host := { s.host with
        xlats := s.host.xlats.filter (fun x => !hit x)
        invals := s.host.invals ++ [(p, itag)] } } : State).count Reg.XLT_INVAL 1)

/-- INVALIDATE_COMPLETION. -/
def execInvalidateCompletion (p itag : Nat) (s : State) : Outcome State Fault Refusal :=
  .next (s.whenServing fun s =>
    if s.host.invals.contains (p, itag) then
      ({ s with host := { s.host with invals := s.host.invals.erase (p, itag) } } : State).emit (.invalComplete p itag)
    else s)

/-! ## Lines that the host may hold (R469) -/

/-- Lines of a range whose snoop is still to be completed before an engine reads or writes it. -/
def State.toSnoop (s : State) (a n : Nat) (write : Bool) : List Nat :=
  (linesOf a n).filter (fun l => s.mem.dirLines.contains l && (write || !s.mem.snoops.contains (l, false, true)))

/-- The engine may access the range: `none` when it waits for snoops, which are issued. -/
def State.snoopFor (s : State) (a n : Nat) (write : Bool) : Bool × State :=
  let need := s.toSnoop a n write
  if need.isEmpty then
    (true, { s with mem := { s.mem with snoops := s.mem.snoops.filter (fun x => !(!x.2.1 && x.2.2 && (linesOf a n).contains x.1)) } })
  else
    let new := need.filter (fun l => !s.mem.snoops.contains (l, write, false))
    let s1 : State := { s with mem := { s.mem with snoops := s.mem.snoops ++ new.map (fun l => (l, write, false)) } }
    (false, new.foldl (fun s l => (s.count Reg.HST_BISNP 1).emit (.bisnp l write)) s1)

/-- BISNP_COMPLETE: the host gives up a line, or shares it, with its data when it held it modified. -/
def execBisnpComplete (line : Nat) (dirty : Option Bytes) (s : State) : Outcome State Fault Refusal :=
  .next (s.whenServing fun s =>
    match s.mem.snoops.find? (fun x => x.1 == line && !x.2.2) with
    | none => s
    | some (_, inv, _) =>
      let s1 := match dirty with
        | some b => s.devWrite (line * 64) (b.take 64)
        | none => s
      let rest := s1.mem.snoops.erase (line, inv, false)
      if inv then { s1 with mem := { s1.mem with snoops := rest, dirLines := s1.mem.dirLines.filter (· != line) } }
      else { s1 with mem := { s1.mem with snoops := rest ++ [(line, false, true)] } })

/-- How an engine's access to the general region goes. -/
inductive Dev where
  | bytes (s : State) (b : Bytes)
  | wait (s : State)
  | fail (s : State) (st : Nat)

/-- An engine reads the general region (R469, R473, R476). -/
def State.devRead (s : State) (a : Int) (n : Nat) : Dev :=
  if a < 0 ∨ (s.hdmSize : Int) < a + n then .fail s ST_MEM_RANGE
  else
    let (ok, s1) := s.snoopFor a.toNat n false
    if !ok then .wait s1
    else
      match s1.badAt a.toNat n, s1.poisonAt a.toNat n with
      | some g, _ => .fail (s1.memBadRead g) ST_MEM_UNCORR
      | none, some p => .fail (s1.memPoisonRead p) ST_MEM_POISON
      | none, none => .bytes s1 (s1.hbmRead a.toNat n)

/-- An engine writes the general region. -/
def State.devPut (s : State) (a : Int) (b : Bytes) : Dev :=
  if a < 0 ∨ (s.hdmSize : Int) < a + b.length then .fail s ST_MEM_RANGE
  else
    let (ok, s1) := s.snoopFor a.toNat b.length true
    if !ok then .wait s1 else .bytes (s1.devWrite a.toNat b) b

end Sys2Proof.Machine
end

