-- ==== Sys2Proof/Machine/Transfer.lean ====
section
/-! DEFINITION. The transfer engine and the bulk engine: MOVE and COPY run by run, CHORUS and ATOM (R372 to R374, R406, R463,
R464). -/
namespace Sys2Proof.Machine

/-! ## Transfer descriptors (R372) -/

namespace TDesc
def src (d : Bytes) : Nat := rd d 0 1
def dst (d : Bytes) : Nat := rd d 1 1
def ndim (d : Bytes) : Nat := rd d 4 1
def len0 (d : Bytes) : Nat := rd d 24 4
def cnt (d : Bytes) : List Nat := (List.range (ndim d - 1)).map (fun k => rd d (28 + 4 * k) 4)
end TDesc

/-- The transfer that a descriptor names. -/
def xferOf (d : Bytes) : Xfer where
  src := TDesc.src d
  dst := TDesc.dst d
  srcPeer := fld (rd d 3 1) 3 0
  dstPeer := fld (rd d 3 1) 7 4
  srcRing := fld (rd d 2 1) 2 0
  dstRing := fld (rd d 2 1) 6 4
  endFlag := (rd d 5 1).testBit 0
  len0 := TDesc.len0 d
  cnt := TDesc.cnt d
  sstr := (List.range (TDesc.ndim d - 1)).map (fun k => sext 64 (rd d (44 + 8 * k) 8))
  dstr := (List.range (TDesc.ndim d - 1)).map (fun k => sext 64 (rd d (76 + 8 * k) 8))
  srcAddr := rd d 8 8
  dstAddr := rd d 16 8
  mark := 0
  last := TDesc.len0 d
  dstFill := 0

/-- A descriptor field that is invalid (R372). -/
def tdescBad (ncl : Nat) (d : Bytes) : Bool :=
  let x := xferOf d
  decide (4 < x.src) || decide (5 < x.dst) || (rd d 2 1).testBit 3 || (rd d 2 1).testBit 7 || rd d 5 1 / 2 != 0
    || (x.src == 1 && decide (ncl ≤ x.srcPeer)) || (x.dst == 1 && decide (ncl ≤ x.dstPeer))
    || TDesc.ndim d == 0 || decide (5 < TDesc.ndim d) || !allZero (slice d 6 2) || !allZero (slice d 108 18)
    || x.len0 == 0 || decide (2 ^ 24 < x.len0) || x.cnt.any (fun c => c == 0 || decide (2 ^ 24 < c)) || decide (2 ^ 40 < x.runs * x.len0)

/-- Ranges of the issuing cluster's frame that the runs of one side take. -/
def sideRanges (x : Xfer) (at_ : Nat → Int) : List Range := ((List.range x.runs).map (fun r => (⟨(at_ r).toNat, x.len0⟩ : Range))).eraseDups

/-- Footprint of a MOVE, its descriptor included (R360). -/
def moveRanges (x : Xfer) (own desc : Nat) : List Range × List Range :=
  let mine (space peer : Nat) : Bool := space == 0 || (space == 1 && peer == own)
  (⟨desc, 128⟩ :: (if mine x.src x.srcPeer then sideRanges x x.srcAt else []),
   if mine x.dst x.dstPeer then sideRanges x x.dstAt else [])

/-! ## Sides of a run -/

/-- A frame side: the cluster's share that holds it. -/
def Site.side (a : Site) (space peer : Nat) : Option ClCtx := if space = 0 then some a.k else a.c.atIndex peer

/-- Read a frame (R351, R533). -/
def State.frameRead (s : State) (a : Site) (space peer : Nat) (off : Int) (n : Nat) : Dev :=
  match a.side space peer with
  | none => .fail s ST_ISA_OPERAND
  | some k =>
    if off < 0 ∨ (s.readAt a.c k off.toNat n).isNone then .fail s ST_ISA_RANGE
    else if s.ctxBad a.c k off.toNat n then .fail s ST_RAS_SRAM_UE
    else .bytes s (s.ctxRead a.c k off.toNat n)

/-- Write a frame. -/
def State.framePut (s : State) (a : Site) (space peer : Nat) (off : Int) (b : Bytes) : Dev :=
  match a.side space peer with
  | none => .fail s ST_ISA_OPERAND
  | some k =>
    if off < 0 ∨ (s.frameAt a.c k off.toNat b.length).isNone then .fail s ST_ISA_RANGE
    else .bytes (s.ctxWrite a.c k off.toNat b) b

/-- A host side: its translation, then the bytes that the host returned. -/
def State.hostGet (s : State) (who : XReq) (slot : Nat) (addr n : Nat) (data : Bytes) : Dev :=
  match s.access who (s.qPort slot) (s.qPasid slot) addr n false with
  | (.ok, s1) => if data.length = n then .bytes s1 data else .wait s1
  | (.wait, s1) => .wait s1
  | (.fail st, s1) => .fail s1 st

/-- A requester has written host memory or a range of the general region, which its scope must make visible (R467). -/
def State.noteWrote (s : State) (who : XReq) (f : Wrote → Wrote) : State :=
  match who with
  | .te _ c _ => s.modCtx c (fun c => { c with wrote := f c.wrote })
  | .bulk k n => s.modCmd k n (fun c => { c with wrote := f c.wrote })
  | _ => s

/-- A write to the host. -/
def State.hostPut (s : State) (who : XReq) (slot : Nat) (addr : Nat) (b : Bytes) : Dev :=
  match s.access who (s.qPort slot) (s.qPasid slot) addr b.length true with
  | (.ok, s1) =>
    .bytes ((s1.hostOut (s.qPort slot) (s.qPasid slot) addr b).noteWrote who (fun w =>
      { w with host := some (s1.physOf (s.qPort slot) (s.qPasid slot) (addr + b.length - 1)) })) b
  | (.wait, s1) => .wait s1
  | (.fail st, s1) => .fail s1 st

/-- A write to the general region. -/
def State.devOut (s : State) (who : XReq) (a : Int) (b : Bytes) : Dev :=
  match s.devPut a b with
  | .bytes s1 b => .bytes (s1.noteWrote who (fun w => { w with dev := w.dev ++ [⟨a.toNat, b.length⟩] })) b
  | d => d

/-! ## Ring sides: byte streams -/

/-- Take up to n bytes of a source ring's stream: bytes, and whether the stream has ended. A slot is released once its FILL
bytes have been read. -/
def State.ringTake (s : State) (id q n : Nat) (got : Bytes) : Nat → State × Bytes × Bool
  | 0 => (s, got, false)
  | f + 1 =>
    if n ≤ got.length then (s, got, false)
    else
      match (s.ctx? id).bind (fun c => (c.ring? q).bind (fun r => (c.atIndex r.home).map (fun h => (c, r, h)))) with
      | none => (s, got, false)
      | some (c, r, h) =>
        match r.taken with
        | none =>
          match r.acqCons with
          | .ok r1 _ _ _ => State.ringTake (s.setRing id { r1 with taken := some 0 }) id q n got f
          | .endInd => (s, got, true)
          | _ => (s, got, false)
        | some t =>
          let fill := ((r.pubs.head?).map (·.fill)).getD 0
          let m := min (n - got.length) (fill - t)
          let b := s.ctxRead c h (r.slotOff (r.slotOf r.rel) + t) m
          if fill ≤ t + m then
            match r.release with
            | .ok r1 _ _ _ => State.ringTake (s.setRing id { r1 with taken := none }) id q n (got ++ b) f
            | _ => (s, got ++ b, false)
          else (s.modCtx id (fun c => { c with rings := modFirst (·.reg == q) (fun r => { r with taken := some (t + m) }) c.rings }), got ++ b, false)

/-- Bytes into the slot of a destination ring whose bytes begin at `base`, `fill` of them taken: the state, the bytes left and the
fill of the slot held. A full slot is published, and the last one with its bytes; the flag says whether the stream goes on. -/
def State.ringFill (s : State) (c : Ctx) (h : ClCtx) (r : Ring) (base : Nat) (endFlag final : Bool) (fill : Nat) (out : Bytes) :
    State × Bytes × Nat × Bool :=
  let m := min out.length (r.slotBytes - fill)
  let s1 := s.ctxWrite c h (base + fill) (out.take m)
  let rest := out.drop m
  let done := rest.isEmpty && final
  if fill + m = r.slotBytes ∨ done then
    match s1.ringPublish c.id r.reg (fill + m) (endFlag && done) with
    | some s2 => (s2, rest, 0, true)
    | none => (s1, rest, fill + m, false)
  else (s1, rest, fill + m, false)

/-- Put bytes into the slots of a destination ring; `fill` bytes are in the slot held, if any, and `final` says that these are the
last bytes. Answers the bytes left, the fill of the slot held, and whether a slot was asked for after END (R318). -/
def State.ringGive (s : State) (id q : Nat) (endFlag final : Bool) (fill : Nat) (out : Bytes) : Nat → State × Bytes × Nat × Bool
  | 0 => (s, out, fill, false)
  | f + 1 =>
    match (s.ctx? id).bind (fun c => (c.ring? q).bind (fun r => (c.atIndex r.home).map (fun h => (c, r, h)))) with
    | none => (s, out, fill, false)
    | some (c, r, h) =>
      if out.isEmpty then (s, out, fill, false)
      else if fill = 0 ∧ r.endPub then (s, out, fill, true)
      else
        let held : Option (State × Nat) :=
          if fill = 0 then
            match r.acqProd with
            | .ok r1 slot _ _ => some (s.setRing id r1, slot)
            | _ => none
          else some (s, r.slotOf r.pub)
        match held with
        | none => (s, out, fill, false)
        | some (s0, slot) =>
          match s0.ringFill c h r (r.slotOff slot) endFlag final fill out with
          | (s1, rest, fill1, true) => State.ringGive s1 id q endFlag final fill1 rest f
          | (s1, rest, fill1, false) => (s1, rest, fill1, false)

/-! ## A run of a MOVE (R463) -/

/-- Bytes of the slot that a MOVE holds as producer from the mark on are open: those of its present run, and what lies beyond them. -/
def State.openSlot (s : State) (a : Site) (o : EngOp) (x : Xfer) : State :=
  match (a.c.ring? x.dstRing).bind (fun r => (a.c.atIndex r.home).map (fun h => (r, h))) with
  | none => s
  | some (r, h) =>
    let run := (o.out.map (fun b => x.lenAt x.mark - b.length)).getD 0
    let keep := x.dstFill - run
    if r.pub = r.pacq then s
    else let (b, s1) := s.freeBytes (r.slotBytes - keep); s1.ctxWrite a.c h (r.slotOff (r.slotOf r.pub) + keep) b

/-- A MOVE has failed: the destination bytes at and beyond the mark are open (R464). -/
def State.openMove (s : State) (a : Site) (o : EngOp) : State :=
  match o.xfer with
  | none => s
  | some x =>
    let put (s : State) (r : Nat) (b : Bytes) : State :=
      let r0 := x.dstAt r
      if x.dst = 0 ∨ x.dst = 1 then
        match s.framePut a x.dst x.dstPeer r0 b with
        | .bytes s1 _ => s1
        | _ => s
      else if x.dst = 2 ∧ 0 ≤ r0 ∧ r0 + b.length ≤ s.hdmSize then s.hbmWrite r0.toNat b else s
    if x.dst = 4 then s.openSlot a o x else s.openRuns put x

/-- A MOVE fails; it ends with its status, and then its destination is open from the mark on. -/
def State.moveFails (s : State) (cl ctx id st : Nat) : State :=
  s.modEng cl ctx id (fun o => { o with status := if o.status = ST_OK then st else o.status })

/-- Source bytes of the present run, kept in `got` while a ring fills it. -/
def State.moveSrc (s : State) (a : Site) (o : EngOp) (x : Xfer) (data : Bytes) : Dev :=
  let n := x.lenAt x.mark
  let at_ := x.srcAt x.mark
  match x.src with
  | 0 | 1 => s.frameRead a x.src x.srcPeer at_ n
  | 2 => s.devRead at_ n
  | 3 => s.hostGet (.te a.k.cl a.c.id o.id) a.c.slot (hva at_) n data
  | _ =>
    let (s1, got, ended) := s.ringTake a.c.id x.srcRing n o.got (2 * n + 2)
    let s2 := s1.modEng a.k.cl a.c.id o.id (fun o => { o with got := got })
    if n ≤ got.length then .bytes s2 got
    else if ended then let (b, s3) := s2.freeBytes (n - got.length); .bytes s3 (got ++ b)
    else .wait s2

/-- Most reply bytes of a context, and the host buffer of a queue launch (R404, R421). -/
def Ctx.replyRoom (c : Ctx) : Nat := if c.cue.isSome then 1048576 else (c.replyBuf.map (·.2)).getD 0

/-- Write the run's bytes: `.bytes s rest` with what a ring has no room for yet. -/
def State.moveDst (s : State) (a : Site) (o : EngOp) (x : Xfer) (b : Bytes) : Dev :=
  let at_ := x.dstAt x.mark
  let full (d : Dev) : Dev := match d with
    | .bytes s1 _ => .bytes s1 []
    | d => d
  match x.dst with
  | 0 | 1 => full (s.framePut a x.dst x.dstPeer at_ b)
  | 2 => full (s.devOut (.te a.k.cl a.c.id o.id) at_ b)
  | 3 => full (s.hostPut (.te a.k.cl a.c.id o.id) a.c.slot (hva at_) b)
  | 4 =>
    let (s1, rest, fill, order) := s.ringGive a.c.id x.dstRing x.endFlag (decide (x.mark + 1 = x.runs)) x.dstFill b (2 * b.length + 2)
    if order then .fail s1 ST_RING_ORDER
    else .bytes (s1.modEng a.k.cl a.c.id o.id (fun o => { o with xfer := o.xfer.map (fun x => { x with dstFill := fill }) })) rest
  | _ =>
    if a.c.replyRoom < a.c.reply.length + b.length then .fail s ST_Q_REPLY_SIZE
    else
      let add (s : State) : State := s.modCtx a.c.id (fun c => { c with reply := c.reply ++ b })
      if a.c.cue.isSome then .bytes (add s) []
      else
        match s.hostPut (.te a.k.cl a.c.id o.id) a.c.slot ((a.c.replyBuf.map (·.1)).getD 0 + a.c.reply.length) b with
        | .bytes s1 _ => .bytes (add s1) []
        | d => d

/-- The present run goes on: its bytes are fetched and written, as far as the rings and translations let them; the mark moves on
when it is wholly written. -/
def State.moveRun (s : State) (a : Site) (o : EngOp) (x : Xfer) (data : Bytes) : State :=
  let id := o.id
  let cl := a.k.cl
  let mod (s : State) (f : EngOp → EngOp) : State := s.modEng cl a.c.id id f
  let get : Dev := match o.out with
    | some b => .bytes s b
    | none => s.moveSrc a o x data
  match get with
  | .wait s1 => s1
  | .fail s1 st => s1.moveFails cl a.c.id id st
  | .bytes s1 b =>
    match s1.eng? cl a.c.id id with
    | none => s1
    | some (a1, o1) =>
      match s1.moveDst a1 o1 x b with
      | .wait s2 => mod s2 (fun o => { o with out := some b, got := [] })
      | .fail s2 st => s2.moveFails cl a.c.id id st
      | .bytes s2 rest =>
        if rest.isEmpty then mod s2 (fun o => { o with out := none, got := [], xfer := o.xfer.map (fun x => { x with mark := x.mark + 1 }) })
        else mod s2 (fun o => { o with out := some rest, got := [] })

/-- A ring side of a MOVE that its cluster's transfer engine does not drive (R315). -/
def moveRole (a : Site) (x : Xfer) : Nat :=
  failIf ((x.src == 4 && (a.c.sideOf a.k.cl x.srcRing true 1).isNone) || (x.dst == 4 && (a.c.sideOf a.k.cl x.dstRing false 1).isNone)) ST_RING_ROLE

/-- MOVE. -/
def execMove (cl : Nat) (i : BWord) (s : State) : Outcome State Fault Refusal :=
  .next (s.issue cl i [i.a] (fun a s =>
    let off := a.addr i
    if (s.readAt a.c a.k off 128).isNone then .fault ST_ISA_RANGE 0
    else if off % 32 ≠ 0 then .fault ST_ISA_ALIGN 0
    else if s.ctxBad a.c a.k off 128 then .fail s ST_RAS_SRAM_UE
    else
      let d := s.ctxRead a.c a.k off 128
      if crc16 (d.take 126) ≠ rd d 126 2 then .fault ST_ISA_DESC_CRC 0
      else if tdescBad a.c.cls.length d then .fault ST_ISA_OPERAND 0
      else
        let x := xferOf d
        let (r, w) := moveRanges x (a.c.index cl) off
        match a.enqueue s { a.op s .te .move i r w with desc := d, xfer := some x, status := moveRole a x } with
        | .done s1 => .done (a.set s1 (fun k => { k with usedTe := true }))
        | q => q))

/-! ## COPY on the bulk engine (R406) -/

/-- The number by which a run of a COPY is named. -/
def copyId (k n : Nat) : Nat := 2 ^ 80 + 16 * n + k

/-- Bytes of a COPY's run. -/
abbrev copyRun : Nat := 4096

/-- The transfer of a COPY: runs of 4 KiB, or one run when source and destination overlap. -/
def copyXfer (args : Bytes) : Xfer :=
  let len := fld (rd args 24 8) 39 0
  let a := rd args 8 8
  let b := rd args 16 8
  let one := rd args 0 1 = rd args 1 1 ∧ a < b + len ∧ b < a + len
  let n := if one then 1 else ceilDiv len copyRun
  { src := rd args 0 1, dst := rd args 1 1, srcPeer := 0, dstPeer := 0, srcRing := 0, dstRing := 0, endFlag := false
    len0 := copyRun, cnt := [n], sstr := [copyRun], dstr := [copyRun], srcAddr := a, dstAddr := b, mark := 0
    last := len - (n - 1) * copyRun, dstFill := 0 }

/-- Bytes of a COPY within one address space: those that lie in both ranges are open (R406). -/
def State.openOverlap (s : State) (src dst : Nat) (b : Bytes) : Bytes × State :=
  let (free, s1) := s.freeBytes b.length
  if src < dst + b.length ∧ dst < src + b.length then
    ((b.zip free).zipIdx.map (fun e => if src ≤ dst + e.2 ∧ dst + e.2 < src + b.length then e.1.2 else e.1.1), s1)
  else (b, s)

/-- A run of a COPY. -/
def State.copyStep (s : State) (k n : Nat) (x : Xfer) (data : Bytes) : State :=
  let len := x.lenAt x.mark
  let src := x.srcAt x.mark
  let dst := x.dstAt x.mark
  let get := if x.src = 1 then s.devRead src len else s.hostGet (.bulk k n) k (hva src) len data
  match get with
  | .wait s1 => s1
  | .fail s1 st => s1.copyFails k n x st
  | .bytes s1 b =>
    let (b2, s2) := if x.src = x.dst then s1.openOverlap src.toNat dst.toNat b else (b, s1)
    match (if x.dst = 1 then s2.devOut (.bulk k n) dst b2 else s2.hostPut (.bulk k n) k (hva dst) b2) with
    | .wait s3 => s3
    | .fail s3 st => s3.copyFails k n x st
    | .bytes s3 _ =>
      if x.mark + 1 = x.runs then (s3.modCmd k n (fun c => { c with xfer := none })).endCmd k n ST_OK 0
      else s3.modCmd k n (fun c => { c with xfer := some { x with mark := x.mark + 1 } })

/-- The running COPY with a number. -/
def State.copy? (s : State) (opId : Nat) : Option (Nat × Nat × Xfer) :=
  let k := opId % 16
  let n := (opId - 2 ^ 80) / 16
  if opId < 2 ^ 80 then none
  else (s.cmd? k n).bind (fun c => if c.status.isNone then c.xfer.map (fun x => (k, n, x)) else none)

/-- The context and cluster that hold an engine instruction. -/
def State.opAt (s : State) (opId : Nat) : Option (Nat × Nat) :=
  (s.ctxs.find? (fun c => c.cls.any (fun k => k.running.any (·.id == opId)))).bind (fun c =>
    (c.cls.find? (fun k => k.running.any (·.id == opId))).map (fun k => (k.cl, c.id)))

/-- TRANSFER_RUN_COMPLETE: `data` is what the host returned for the run. -/
def execTransferRunComplete (opId : Nat) (data : Bytes) (s : State) : Outcome State Fault Refusal :=
  .next (s.whenServing fun s =>
    match s.copy? opId with
    | some (k, n, x) => s.copyStep k n x data
    | none =>
      match (s.opAt opId).bind (fun e => s.eng? e.1 e.2 opId) with
      | none => s
      | some (a, o) =>
        match o.xfer with
        | some x => 
          if s.isHead a.k.cl o ∧ o.status = ST_OK ∧ o.failed.isNone ∧ x.mark < x.runs ∧ !(a.k.cancelled ∧ (x.src = 4 ∨ x.dst = 4)) then
            s.moveRun a o x data
          else s
        | none => s)

/-! ## CHORUS and ATOM (R373, R374) -/

/-- Clusters of a mask. -/
def maskBits (m : Nat) : List Nat := (List.range 16).filter (fun i => m.testBit i)

/-- CHORUS. -/
def execChorus (cl : Nat) (i : BWord) (s : State) : Outcome State Fault Refusal :=
  .next (s.issue cl i [i.a, i.b, i.c, i.d] (fun a s =>
    let src := (a.k.s i.a).toNat
    let n := (a.k.s i.b).toNat
    let mask := (a.k.s i.c).toNat % 65536
    let dst := (a.k.s i.d).toNat
    if n = 0 ∨ 2 ^ 20 < n ∨ (maskBits mask).any (fun j => decide (a.c.cls.length ≤ j)) then .fault ST_ISA_OPERAND 0
    else if (s.readAt a.c a.k src n).isNone ∨ (s.frameAt a.c a.k dst n).isNone then .fault ST_ISA_RANGE 0
    else
      match a.enqueue s (a.op s .te .chorus i [⟨src, n⟩] (if mask.testBit (a.c.index cl) then [⟨dst, n⟩] else [])) with
      | .done s1 => .done (a.set s1 (fun k => { k with usedTe := true }))
      | q => q))

/-- The copies of a CHORUS land. -/
def State.chorusRun (s : State) (a : Site) (o : EngOp) : State :=
  let x (n : Nat) : Nat := (o.x.getD n 0).toNat
  let b := s.ctxRead a.c a.k (x 1) (x 2)
  (maskBits (x 3 % 65536)).foldl (fun s j => match a.c.atIndex j with
    | some k => s.ctxWrite a.c k (x 0) b
    | none => s) s

/-- Space and cluster of an ATOM. -/
def atomDev (i : BWord) : Bool := fnBit i 3
def atomPeer (i : BWord) : Nat := fnFld i 7 4

/-- ATOM. -/
def execAtom (cl : Nat) (i : BWord) (s : State) : Outcome State Fault Refusal :=
  .next (s.issue cl i [i.a, i.b, i.c, i.d] (fun a s =>
    let ad := (a.k.s i.a).toNat
    let enq (r : List Range) : Iss :=
      match a.enqueue s { a.op s .te .atom i r r with dreg := some i.d } with
      | .done s1 => .done (a.set s1 (fun k => { k with usedTe := true }))
      | q => q
    if ad % 8 ≠ 0 then .fault ST_ISA_ALIGN 0
    else if atomDev i then enq []
    else
      match a.c.atIndex (atomPeer i) with
      | none => .fault ST_ISA_OPERAND 0
      | some k => if (s.frameAt a.c k ad 8).isNone then .fault ST_ISA_RANGE 0 else enq (if k.cl = cl then [⟨ad, 8⟩] else [])))

/-- The new value of an atomic operation. -/
def atomVal (op : Nat) (old b c : Word) : Word :=
  match op with
  | 0 => old + b
  | 1 => if b.slt old then b else old
  | 2 => if old.slt b then b else old
  | 3 => b
  | _ => if old = c then b else old

/-- The value that an ATOM finds, once it can have it. -/
def State.atomOld (s : State) (a : Site) (o : EngOp) : Dev :=
  let ad := (o.x.getD 1 0).toNat
  if atomDev o.i then
    match s.devRead ad 8 with
    | .bytes s1 b =>
      match s1.snoopFor ad 8 true with
      | (true, s2) => .bytes s2 b
      | (false, s2) => .wait s2
    | d => d
  else s.frameRead a 1 (atomPeer o.i) ad 8

/-- An ATOM is applied: the old value goes to sD. -/
def State.atomRun (s : State) (a : Site) (o : EngOp) (old : Bytes) : State :=
  let ad := (o.x.getD 1 0).toNat
  let w : Word := BitVec.ofNat 64 (leNat old)
  let v := natLE 8 (atomVal (fnFld o.i 2 0) w (o.x.getD 2 0) (o.x.getD 3 0)).toNat
  let s1 := if atomDev o.i then (s.devWrite ad v).noteWrote (.te a.k.cl a.c.id o.id) (fun w => { w with dev := w.dev ++ [⟨ad, 8⟩] }) else
    match a.c.atIndex (atomPeer o.i) with
    | some k => s.ctxWrite a.c k ad v
    | none => s
  a.set s1 (fun k => k.setS o.i.d w)

end Sys2Proof.Machine
end

