-- ==== Sys2Proof/Machine/Finish.lean ====
section
/-! DEFINITION. The deadline monitor (R429, R430). -/
namespace Sys2Proof.Machine

/-! ## The deadline monitor (R429, R430) -/

/-- The monitor finds that the deadline will be passed: `left` is `num / den` ticks. -/
def Ctx.overdue (c : Ctx) (e : Option Edition) (now guard miss : Nat) : Bool :=
  let (num, den) : Nat × Nat := match e with
    | none => (0, 1)
    | some e =>
      if e.samples < 16 then (0, 1)
      else
        let unit := 2 ^ e.estRun.sh
        let sp := c.safePoints * 2 ^ e.meanSafe.sh
        if e.meanSafe.n = 0 then (e.estRun.n, unit)
        else if 9 * e.meanSafe.n ≤ 10 * sp then (e.estRun.n, 10 * unit)
        else (e.estRun.n * (e.meanSafe.n - sp), e.meanSafe.n * unit)
  decide (c.deadline.toNat * den < (now + c.newMisses * miss + guard) * den + num)

/-- The monitor acts on a launch. -/
def State.monitor (s : State) (id : Nat) : State :=
  match s.ctx? id with
  | none => s
  | some c =>
    if c.deadline = 0 ∨ c.swapped ∨ c.aborting ∨ c.st = .cancelling ∨ c.st = .ended then s
    else
      let guard := us (s.regF (Reg.Q_CFG c.slot) 19 10)
      let miss := us (s.regF (Reg.Q_CFG c.slot) 9 0)
      let late := c.overdue (s.edition? c.script c.edition) s.now guard miss && c.us.isSome
      let s1 := s.modCtx id (fun c => { c with newMisses := 0 })
      if late then
        ((s1.dropWaits (· == .args id)).modCtx id (fun c => { c with st := .cancelling, swapping := true, cls := c.cls.map (fun k => { k with cancelled := true, wait := none }) })).settleCtx id
      else s1

end Sys2Proof.Machine
end

