-- ==== Sys2Proof/Machine/Owner.lean ====
section
/-! DEFINITION. The owner side of look-up: the Wings cache and its sketch, the sums of a bag, row reads and partials (R103 to
R130). -/
namespace Sys2Proof.Machine

/-! ## The frequency sketch and the Wings cache (R122 to R124) -/

/-- The counter of a row in array a of the sketch. -/
def sketchKey (a h row : Nat) : Nat := a * 2 ^ 20 + Config.sketchHash a h row % 2 ^ 20

/-- Every owner read adds one to the row's four counters, which stop at 15. -/
def sketchAdd (l : List (Nat × Nat)) (h row : Nat) : List (Nat × Nat) :=
  (List.range 4).foldl (fun l a => let k := sketchKey a h row; keyPut l k (min 15 (keyGet 0 l k + 1))) l

/-- A row's estimate: the least of its four counters. -/
def estimate (l : List (Nat × Nat)) (h row : Nat) : Nat :=
  (List.range 4).foldl (fun m a => min m (keyGet 0 l (sketchKey a h row))) 15

/-- A row is cacheable when its stored size is at most 256 bytes. -/
def Table.cacheable (t : Table) : Bool := decide (32 * t.granules ≤ 256)

/-- The set of a row. -/
def wingsSetOf (h row : Nat) : Nat := Config.wingsSet h row % 49152

/-- ADMIT_MIN. -/
def State.admitMin (s : State) (die : Nat) : Nat := s.regF (Reg.LKP_WINGS_CTL die) 23 20

/-- Whole rows of a set taken in rising order of estimate, the one admitted longest ago first, until n ways are free. -/
def victims (n : Nat) : List WRow → List WRow
  | [] => []
  | r :: t => if n = 0 then [] else r :: victims (n - r.ways) t

/-- Admit a row that missed (R124); `none` when it is refused. -/
def Wings.admitRow (w : Wings) (min_ : Nat) (r : WRow) : Option Wings :=
  let set := w.rows.filter (·.set == r.set)
  let used := (set.map (·.ways)).sum
  if used + r.ways ≤ 16 then some { w with rows := w.rows ++ [r] }
  else
    let est (x : WRow) : Nat := estimate w.sketch x.handle x.row
    let order := (List.range 16).flatMap (fun e => set.filter (fun x => est x == e))
    let v := victims (used + r.ways - 16) order
    let own := est r
    if min_ ≤ own ∧ v.all (fun x => decide (est x < own)) then some { w with rows := w.rows.filter (fun x => !v.contains x) ++ [r] }
    else none

/-- Change a die's Wings cache. -/
def State.modWings (s : State) (die : Nat) (f : Wings → Wings) : State := s.modGpe die (fun g => { g with wings := f g.wings })

/-- A running sweep goes on: it has passed every set below its position, and the rows those held are invalid. How far it has
come at an instant is open (R129, log entry 41). -/
def Wings.sweepTo (w : Wings) (n : Nat) : Wings :=
  let n' := max w.swept n
  { w with swept := n', rows := w.rows.filter (fun r => decide (r.set < w.swept) || decide (n' ≤ r.set)) }

/-- The sweep of a die's cache, if one runs, comes to where it stands now. -/
def State.sweepOn (s : State) (die : Nat) : State :=
  if (s.gpes[die]?).any (·.wings.invBusy) then
    let (v, s1) := s.free
    s1.modWings die (·.sweepTo (v.toNat % 49153))
  else s

/-- A row read from HBM is offered to the cache of its die while that is ON, with the image that HBM holds now: a delta may
have come since its first granule was read (R124, R125). -/
def State.offer (s : State) (die : Nat) (t : Table) (w : Version) (row : Nat) : State :=
  match s.gpes[die]? with
  | none => s
  | some g =>
    let slot := w.slot
    let r : WRow := ⟨wingsSetOf t.handle row, t.handle, row, slot, ceilDiv t.granules 2, s.rowAt die t.handle w.num row⟩
    if g.wings.st ≠ .on ∨ !t.cacheable ∨ g.wings.rows.any (fun x => x.handle == r.handle && x.row == r.row && x.slot == r.slot) then s
    else
      match g.wings.admitRow (s.admitMin die) r with
      | some w => s.modWings die (fun _ => w)
      | none => s.count (Reg.LKP_WINGS_REFUSED die) 1

/-! ## Sums (R103 to R109) -/

/-- A decoded value in steps of the EPA, 2^-50. -/
def toEpa : Val → Int
  | .fin s n _ e => Val.signed s (n * Val.up (e + 50))
  | _ => 0

/-- The lane before the first term. -/
def lane0 (t : Table) (mode : Nat) : Lane :=
  if t.fmt = 3 then .f32 0 else if mode = 3 then .best none else .epa 0

/-- The zero sign that MAX gives a decoded value: a Q zero is +0 (R104). -/
def negZero (t : Table) (v : Val) : Bool := decide (2 ≤ t.fmt) && v.isZero && v.sign

/-- Add a term to a lane: `first` when no row has been added yet, `w` the weight of WSUM. -/
def Lane.add (t : Table) (mode : Nat) (first : Bool) (w v : Val) : Lane → Lane
  | .epa x => .epa (x + toEpa (if mode = 2 then w.mul v else v))
  | .f32 x =>
    let term := toF32 (if mode = 2 then w.mul v else v)
    if first then .f32 (if mode = 3 then toF32 v else term)
    else if mode = 3 then .f32 (toF32 ((F32.val x).max v))
    else .f32 (f32add x term)
  | .best b =>
    let n := toEpa v
    match b with
    | none => .best (some (n, negZero t v))
    | some (m, z) => if m < n ∨ (m = n ∧ z ∧ !negZero t v) then .best (some (n, negZero t v)) else .best (some (m, z))

/-- The FP32 value a lane gives, and whether it overflowed: an EPA of magnitude 2^45 or more gives NaN (R106, R107). -/
def Lane.value : Lane → F32 × Bool
  | .epa x => if 2 ^ 95 ≤ x.natAbs then (f32nan, true) else (toF32 (.ofInt x (-50)), false)
  | .f32 x => (if (F32.val x).isNan then f32nan else x, !(F32.val x).isFin)
  | .best none => (0, false)
  | .best (some (n, z)) => (if n = 0 then (if z then 0x80000000 else 0) else toF32 (.ofInt n (-50)), false)

/-- The granule of a stored row that holds the code or value of an element (R43 to R45). -/
def Table.granuleOf (t : Table) (e : Nat) : Nat := (if t.fmt = 0 then e else if t.fmt = 1 then e / 2 else 2 * e) / 32

/-- The lane of element e after some terms, in the order they were added: each adds the elements of its granules (R121). -/
def laneAfter (t : Table) (mode : Nat) (terms : List Term) (e : Nat) : Lane :=
  ((terms.filter (·.granules.contains (t.granuleOf e))).foldl
    (fun (a : Bool × Lane) x => (false, a.2.add t mode a.1 (fp16.decode x.entry.weight.toNat) (t.elem x.image e))) (true, lane0 t mode)).2

/-- The lanes of a bag. -/
def OwnBag.lanes (b : OwnBag) (t : Table) (mode : Nat) : List Lane := (List.range t.rowlen).map (laneAfter t mode b.terms)

def fEMPTY : Nat := 1
def fFALLBACK : Nat := 2
def fRANGE : Nat := 4
def fLOVF : Nat := 8
def fINEXACT : Nat := 16
def fMULTI : Nat := 32
def fERR : Nat := 64

/-! ## Requests held by an owner (R110, R112) -/

/-- Requests are named by the owner's die and by the requester's location, context and operation. -/
def OwnReq.is (r : OwnReq) (die src ctx op : Nat) : Bool := r.die == die && r.src == src && r.ctx == ctx && r.op == op

def State.req? (s : State) (die src ctx op : Nat) : Option OwnReq := s.reqs.find? (·.is die src ctx op)

def State.modReq (s : State) (die src ctx op : Nat) (f : OwnReq → OwnReq) : State :=
  { s with reqs := modFirst (·.is die src ctx op) f s.reqs }

def OwnReq.modBag (r : OwnReq) (n : Nat) (f : OwnBag → OwnBag) : OwnReq := { r with bags := modFirst (·.bag == n) f r.bags }

/-- Send a partial to the requester; one that leaves is counted (R136). -/
def State.sendPartial (s : State) (r : OwnReq) (bag flags count : Nat) (value : List F32) (rows : List Bytes) : State :=
  let p : PartialPkt := ⟨s.loc r.die, r.src, r.ctx, r.op, bag, r.mode, r.gen, 1, flags, count, value, rows, 0⟩
  match s.post ⟨r.src, r.die, 0, r.gen, .part p⟩ with
  | (st, s1) => if st = ST_OK then s1.count Reg.LKP_PARTIALS 1 else s1

/-- The owner still works on a request: a bag is not sent, or a packet has not come. -/
def OwnReq.working (r : OwnReq) : Bool := !r.bags.isEmpty || decide (r.pkts.length < r.npkt)

/-- Take a bag out of a request; a request that is done goes. -/
def State.dropBag (s : State) (die src ctx op bag : Nat) : State :=
  let s1 := s.modReq die src ctx op (fun r => { r with bags := r.bags.filter (fun x => !(x.bag == bag)) })
  { s1 with reqs := s1.reqs.filter (·.working) }

/-- Rows of a CONCAT bag, in the order of the indices asked for. -/
def OwnBag.rows (b : OwnBag) : List Bytes := (b.terms.mergeSort (fun x y => decide (x.entry.pos ≤ y.entry.pos))).map (·.image)

/-- The bag's single partial goes out: its lanes, or its rows for CONCAT (R110, R112). -/
def State.finishBag (s : State) (r : OwnReq) (t : Table) (b : OwnBag) : State :=
  let v := if r.mode = 4 then [] else (b.lanes t r.mode).map Lane.value
  let ovf := v.any (·.2)
  let inexact := t.fmt = 3 ∧ r.mode ≤ 2 ∧ 0 < b.count
  let flags := b.flags ||| flagIf ovf fLOVF ||| flagIf inexact fINEXACT
  (s.sendPartial r b.bag flags b.count (v.map (·.1)) (if r.mode = 4 then b.rows else [])).dropBag r.die r.src r.ctx r.op b.bag

/-- Every piece of a bag is in: the one marked LAST, and every packet before its packet (R112). -/
def OwnReq.whole (r : OwnReq) (b : OwnBag) : Bool := b.last.any (fun n => (List.range n).all r.pkts.contains)

/-- Finish a bag if nothing of it is outstanding, in whatever order its packets came (R112). -/
def State.tryFinish (s : State) (die src ctx op bag : Nat) : State :=
  match s.req? die src ctx op with
  | none => s
  | some r =>
    match r.bags.find? (·.bag == bag), s.table? r.handle with
    | some b, some t =>
      if !r.whole b ∨ s.reads.any (fun x => x.die == die && x.src == src && x.ctx == ctx && x.op == op && x.bag == bag) then s
      else s.finishBag r t b
    | _, _ => s

/-- Add granules of a row to a bag, as soon as they are in (R121). -/
def State.addGranules (s : State) (die src ctx op bag : Nat) (x : Term) : State :=
  s.modReq die src ctx op (fun r => r.modBag bag (fun b => { b with terms := b.terms ++ [x] }))

/-- A row's terms are complete: it counts (R98, R121). -/
def State.rowDone (s : State) (die src ctx op bag : Nat) (e : IdxEntry) (lost : Bool) : State :=
  s.modReq die src ctx op (fun r => r.modBag bag (fun b =>
    { b with count := b.count + 1, flags := b.flags ||| flagIf lost fFALLBACK, items := b.items ++ [e] }))

/-- A whole row is in: its terms are added, and it counts. -/
def State.addTerm (s : State) (die src ctx op bag : Nat) (e : IdxEntry) (img : Bytes) (lost : Bool) : State :=
  match (s.req? die src ctx op).bind (fun r => s.table? r.handle) with
  | none => s
  | some t => (s.addGranules die src ctx op bag ⟨none, e, t.pad img, List.range t.granules⟩).rowDone die src ctx op bag e lost

/-- A fallback row stands in for a lost row (R78, R113). -/
def State.noteFallback (s : State) : State := (s.count Reg.LKP_FALLBACK 1).latch Reg.LKP_STATUS 0

/-- Order in which the granules of a row come from HBM: for a Q row first the one that holds the trailer (R120). -/
def Table.granuleOrder (t : Table) : List Nat :=
  let g := t.granules
  if t.fmt ≤ 1 then (t.trailer / 32) :: (List.range g).filter (· != t.trailer / 32) else List.range g

/-- The owner reads one index: the fallback row, the Wings copy, or the row in HBM. A read of the fallback row counts in
LKP_ROWS, and neither in the sketch and its decay nor as a hit or a miss (DESIGN CHOICE, log entry 82: R123 and R139 do
not say). `ecc` says what the Wings blocks of the rows meet: an uncorrectable block is invalidated, and the read goes to HBM as
a miss (R533). -/
def State.readIndex (s : State) (r : OwnReq) (t : Table) (w : Version) (bag : Nat) (ecc : List (Nat × GranuleHealth)) (e : IdxEntry) : State :=
  let s0 := s.count Reg.LKP_ROWS 1
  if e.subst then s0.addTerm r.die r.src r.ctx r.op bag e w.fallback false
  else if s.rowLost t w.num e.row then s0.noteFallback.addTerm r.die r.src r.ctx r.op bag e w.fallback true
  else
    let s1 := ((s0.sweepOn r.die).noteHeat r.die t.handle e.row 1 0).modWings r.die (fun x => { x with sketch := sketchAdd x.sketch t.handle e.row, reads := x.reads + 1 })
    let hit := (s.gpes[r.die]?).bind (fun g =>
      if g.wings.st = .on then g.wings.rows.find? (fun x => x.handle == t.handle && x.row == e.row && x.slot == w.slot) else none)
    let fromHbm (s : State) : State :=
      let s2 := if t.cacheable then s.count (Reg.LKP_WINGS_MISS r.die) 1 else s
      { s2 with nextRead := s2.nextRead + 1, reads := s2.reads ++ [⟨s2.nextRead, r.die, r.src, r.ctx, r.op, bag, e, none, false, t.granuleOrder⟩] }
    match hit with
    | some x =>
      match s1.sramRead ((ecc.lookup e.row).getD .good) (5 * 4096 + r.die) e.row with
      | (false, s2) => (s2.count (Reg.LKP_WINGS_HIT r.die) 1).addTerm r.die r.src r.ctx r.op bag e x.image false
      | (true, s2) => fromHbm (s2.modWings r.die (fun w => { w with rows := w.rows.filter (· != x) }))
    | none => fromHbm s1

/-- A piece of packet n of a request: its indices, from place `i` of the packet, are read, and LAST closes the bag. -/
def State.servePiece (s : State) (r : OwnReq) (t : Table) (w : Version) (ecc : List (Nat × GranuleHealth)) (n i : Nat) (p : Piece) : State :=
  let last := if p.last then some n else none
  let s1 := s.modReq r.die r.src r.ctx r.op (fun q =>
    if q.bags.any (·.bag == p.bag) then q.modBag p.bag (fun b => { b with last := b.last.or last })
    else { q with bags := q.bags ++ [⟨p.bag, last, [], 0, 0, false, []⟩] })
  p.idx.zipIdx.foldl (fun s e => s.readIndex r t w p.bag ecc ⟨e.1.row, e.1.subst, e.1.weight, 65536 * n + i + e.2⟩) s1

/-- The pieces of a packet, end to end. -/
def State.servePieces (s : State) (r : OwnReq) (t : Table) (w : Version) (ecc : List (Nat × GranuleHealth)) (n : Nat) : Nat → List Piece → State
  | _, [] => s
  | i, p :: rest => State.servePieces (s.servePiece r t w ecc n i p) r t w ecc n (i + p.idx.length) rest

/-- The state an owner keeps for an older generation is discarded (R112). -/
def State.dropReq (s : State) (die src ctx op : Nat) : State :=
  { s with
    reqs := s.reqs.filter (fun r => !r.is die src ctx op)
    reads := s.reads.filter (fun x => !(x.die == die && x.src == src && x.ctx == ctx && x.op == op)) }

/-- A generation tag is newer than another, modulo 256: R112 does not say when; a distance of 1 to 127 forward is newer, any
other is not (DESIGN CHOICE, log entry 92). -/
def genNewer (a b : Nat) : Bool := decide (0 < (a + 256 - b) % 256) && decide ((a + 256 - b) % 256 < 128)

/-- POOL_REQ: a request packet reaches an owner. -/
def execPoolReq (die : Nat) (p : ReqIn) (s : State) : Outcome State Fault Refusal :=
  .next (s.whenServing fun s =>
    match (s.table? p.pkt.handle).bind (fun t => (t.ver? p.pkt.ver).map (fun w => (t, w))) with
    | none => s
    | some (t, w) =>
      let held := s.req? die p.pkt.src p.pkt.ctx p.pkt.op
      if held.any (fun r => r.gen != p.pkt.gen && !genNewer p.pkt.gen r.gen) then s
      else
        let r : OwnReq := ⟨die, p.pkt.src, p.pkt.ctx, p.pkt.op, p.pkt.gen, p.pkt.handle, p.pkt.ver, p.pkt.mode, p.pkt.weighted, [], p.pkt.npkt, []⟩
        let s1 := if held.any (fun q => q.gen != p.pkt.gen) then s.dropReq die p.pkt.src p.pkt.ctx p.pkt.op else s
        let s2 : State := if held.any (fun q => q.gen == p.pkt.gen) then s1 else { s1 with reqs := s1.reqs ++ [r] }
        let s3 := (s2.modReq die p.pkt.src p.pkt.ctx p.pkt.op (fun q => { q with pkts := insertNew p.pkt.pkt q.pkts })).servePieces r t w p.ecc p.pkt.pkt 0 p.pkt.pieces
        let open_ := ((s3.req? die p.pkt.src p.pkt.ctx p.pkt.op).map (fun q => q.bags.map (·.bag))).getD []
        let s4 := open_.foldl (fun s b => s.tryFinish die p.pkt.src p.pkt.ctx p.pkt.op b) s3
        { s4 with reqs := s4.reqs.filter (·.working) })

/-! ## Granules (R120, R121, R476) -/

/-- An uncorrectable row of an owner read (R476): a row with another home has the failing home moved to a new location, by the
leader and copied from the other home, where the limits allow it (R155, R156, R171; a later read of the row asks again); a row without
one becomes lost, as every part of the domain learns (R78). -/
def State.failRow (s : State) (die : Nat) (t : Table) (w : Version) (row : Nat) : State :=
  let own := s.loc die
  match s.tableDom t with
  | none => s
  | some (_, d) =>
    if (s.homesOf die t w.slot row).all (· == own) then
      (if s.rowLost t w.num row then s else ((s.loseRow t.handle w.num row).workAll d (.rowLost t.handle w.num row) none).2)
    else if s.leads d then s.moveFailed d t row own
    else
      match d.leader with
      | none => s
      | some l =>
        let asked := s.link.pend.any (fun e => e.p.body == .work (.rowFailed t.handle row own))
        if asked then s else s.write 0 (s.memberNode l) (.work (.rowFailed t.handle row own))

/-- GRANULE_IN: the next granule of a row read comes from HBM, and its elements are added; for a Q row the granule with the
trailer comes first. The image is that of one state of the row (R71, R121). A row with an uncorrectable granule adds
nothing: the fallback row stands in for it (R476), and this counts in LKP_FALLBACK and sets LKP_STATUS.FALLBACK also when the
row has another home and moves (DESIGN CHOICE, log entry 92). -/
def execGranuleIn (die rid granule : Nat) (h : HbmHealth) (s : State) : Outcome State Fault Refusal :=
  .next (s.whenServing fun s =>
    match s.reads.find? (fun x => x.id == rid && x.die == die) with
    | none => s
    | some x =>
      match (s.req? die x.src x.ctx x.op).bind (fun r => (s.table? r.handle).bind (fun t => (t.ver? r.ver).map (fun w => (t, w)))) with
      | none => { s with reads := s.reads.filter (fun y => !(y.id == rid)) }
      | some (t, w) =>
        if x.left.head? ≠ some granule then s
        else
          let k := s.rowStack die t x.entry.row
          let done (s : State) : State := { s with reads := s.reads.filter (fun y => !(y.id == rid)) }
          let health := healthOf h
          match health with
          | .uncorrectable =>
            let (pc, s1) := s.free
            let (g, s2) := s1.free
            let s3 := (((done s2).modReq die x.src x.ctx x.op (fun r => r.modBag x.bag (fun b =>
              { b with terms := b.terms.filter (fun y => y.read != some rid) }))).memUncorrectable k pc.toNat g.toNat).failRow die t w x.entry.row
            (s3.noteFallback.addTerm die x.src x.ctx x.op x.bag x.entry w.fallback true).tryFinish die x.src x.ctx x.op x.bag
          | _ =>
            let s1 := if health = .corrected then
                let (pc, s1) := s.free
                let (g, s2) := s1.free
                s2.memCorrected k pc.toNat g.toNat
              else s
            let img := x.image.getD (s.rowAt die t.handle w.num x.entry.row)
            let concat := (s.req? die x.src x.ctx x.op).any (·.mode == 4)
            let s2 := if concat then s1 else s1.addGranules die x.src x.ctx x.op x.bag ⟨some rid, x.entry, img, [granule]⟩
            if x.left.length ≤ 1 then
              let s3 := if concat then (done s2).addTerm die x.src x.ctx x.op x.bag x.entry img false
                else (done s2).rowDone die x.src x.ctx x.op x.bag x.entry false
              (if x.stale then s3 else (s3.sweepOn die).offer die t w x.entry.row).tryFinish die x.src x.ctx x.op x.bag
            else { s2 with reads := modFirst (·.id == rid) (fun y => { y with left := y.left.drop 1, image := some img }) s2.reads })

/-- SKETCH_DECAY: after 2^DECAY_LOG2 owner reads every counter is halved (R123). -/
def execSketchDecay (die : Nat) (s : State) : Outcome State Fault Refusal :=
  .next (s.whenServing fun s =>
    match s.gpes[die]? with
    | none => s
    | some g =>
      let n := 2 ^ s.regF (Reg.LKP_WINGS_CTL die) 29 24
      if n ≤ g.wings.reads then
        s.modWings die (fun w => { w with reads := w.reads - n, sketch := (w.sketch.map (fun e => (e.1, e.2 / 2))).filter (fun e => e.2 != 0) })
      else s)

/-- GPE_CHECK_FAILS: the owner sums the bag again from its rows once; a second failure sends no partial (R536). -/
def execGpeCheckFails (die src ctx op bag : Nat) (again : Bool) (c : CheckNo) (s : State) : Outcome State Fault Refusal :=
  .next (s.whenServing fun s =>
    match s.req? die src ctx op with
    | none => s
    | some r =>
      match r.bags.find? (·.bag == bag), (s.table? r.handle).bind (fun t => (t.ver? r.ver).map (fun w => (t, w))) with
      | some b, some (t, w) =>
        let failed := again || b.redone
        let s1 := s.checkFailed (5 * 4096 + die) (if again && !b.redone then 2 else 1) (CheckRep.of c ST_RAS_CHECK (some ctx)) failed
        if failed then
          let s2 := s1.dropBag die src ctx op bag
          { s2 with
            reads := s2.reads.filter (fun x => !(x.die == die && x.src == src && x.ctx == ctx && x.op == op && x.bag == bag)) }
        else
          let s2 := s1.modReq die src ctx op (fun r => r.modBag bag (fun b => { b with terms := [], count := 0, flags := 0, redone := true, items := [] }))
          (b.items.foldl (fun s e => s.readIndex r t w bag [] e) s2).tryFinish die src ctx op bag
      | _, _ => s)

/-! ## The states of a Wings cache (R128, R129) -/

/-- DECAY_LOG2 is set to the nearer limit of 20 to 36 (R137). -/
def decayOf (v : Nat) : Nat := max 20 (min 36 (fld v 29 24))

/-- A cache when ENABLE is written. -/
def Wings.enable (w : Wings) (e : Bool) : Wings :=
  match w.st, e with
  | .on, true => w
  | .on, false => { w with st := .stopping }
  | .stopping, _ => { w with pendEnable := e }
  | .off, true => { w with st := .starting }
  | .off, false => w
  | .starting, _ => { w with pendDisable := !e }

/-- A write of LKP_WINGS_CTL. -/
def State.writeWings (s : State) (die v : Nat) : State :=
  if 8 ≤ die then s
  else
    let s1 := s.setRegN (Reg.LKP_WINGS_CTL die) (b2n (v.testBit 31) * 2 ^ 31 + decayOf v * 2 ^ 24 + fld v 23 20 * 2 ^ 20)
    s1.modWings die (fun w => { w.enable (v.testBit 31) with
      invBusy := w.invBusy || v.testBit 30
      swept := if v.testBit 30 then 0 else w.swept })

/-- WINGS_ENABLE. -/
def execWingsEnable (die : Nat) (v : BitVec 32) (s : State) : Outcome State Fault Refusal :=
  .next (s.whenOpen (·.writeWings die v.toNat))

/-- INVALIDATE_ALL: the sweep starts, or starts again. -/
def execInvalidateAll (die : Nat) (v : BitVec 32) (s : State) : Outcome State Fault Refusal :=
  .next (s.whenOpen (·.writeWings die (v.toNat ||| 2 ^ 30)))

/-- WINGS_STOPPED: reads already using the cache have finished. -/
def execWingsStopped (die : Nat) (s : State) : Outcome State Fault Refusal :=
  .next (s.whenServing fun s => s.modWings die (fun w =>
    if w.st = .stopping then { w with st := if w.pendEnable then .starting else .off, pendEnable := false } else w))

/-- WINGS_STARTED: ON is reached only after a running sweep ends. -/
def execWingsStarted (die : Nat) (s : State) : Outcome State Fault Refusal :=
  .next (s.whenServing fun s => s.modWings die (fun w =>
    if w.st = .starting ∧ !w.invBusy then { w with st := if w.pendDisable then .stopping else .on, pendDisable := false } else w))

/-- INVALIDATE_SWEEP_ENDS: the sweep has passed every block. A row admitted behind it stays. -/
def execInvalidateSweepEnds (die : Nat) (s : State) : Outcome State Fault Refusal :=
  .next (s.whenServing fun s => s.modWings die (fun w => if w.invBusy then { w.sweepTo 49152 with invBusy := false, swept := 0 } else w))

def WState.code : WState → Nat
  | .off => 0
  | .starting => 1
  | .on => 2
  | .stopping => 3

/-- LKP_WINGS_STAT (R138). OCC_KBLK is rounded down (DESIGN CHOICE, log entry 83). -/
def State.wingsStat (s : State) (die : Nat) : Nat :=
  match s.gpes[die]? with
  | none => 0
  | some g =>
    let w := g.wings
    w.st.code * 2 ^ 30 + b2n (w.st == .stopping || w.st == .starting) * 2 ^ 29 + b2n w.pendEnable * 2 ^ 28 + b2n w.pendDisable * 2 ^ 27
      + b2n w.invBusy * 2 ^ 26 + (w.rows.map (·.ways)).sum / 1024

end Sys2Proof.Machine
end

