-- ==== Sys2Proof/Machine/Lookup.lean ====
section
/-! DEFINITION. The requester side of look-up: GATHER and POOL, their descriptors, requests, partials, timeouts and
cancels, and the combine buffers of a forwarding part (R92 to R102, R110 to R119). -/
namespace Sys2Proof.Machine

/-! ## Bag descriptors (R94) -/

namespace BagDesc
def mode (d : Bytes) : Nat := rd d 0 1
def idx64 (d : Bytes) : Bool := (rd d 1 1).testBit 0
def lengths (d : Bytes) : Bool := (rd d 1 1).testBit 1
def wbf16 (d : Bytes) : Bool := (rd d 1 1).testBit 2
def range (d : Bytes) : Nat := fld (rd d 1 1) 4 3
def raw (d : Bytes) : Bool := (rd d 1 1).testBit 5
def outRing (d : Bytes) : Bool := (rd d 1 1).testBit 6
def tslot (d : Bytes) : Nat := rd d 2 1 % 16
def ring (d : Bytes) : Nat := rd d 3 1 % 8
def bags (d : Bytes) : Nat := rd d 4 4
def offs (d : Bytes) : Nat := rd d 8 4
def idx (d : Bytes) : Nat := rd d 12 4
def wgt (d : Bytes) : Nat := rd d 16 4
def out (d : Bytes) : Nat := rd d 20 4
def ostride (d : Bytes) : Nat := rd d 24 4
def flg (d : Bytes) : Nat := rd d 28 4
def perslot (d : Bytes) : Nat := rd d 32 2
/-- Bytes of an index. -/
def iw (d : Bytes) : Nat := if idx64 d then 8 else 4
/-- Bytes of the offsets or lengths array. -/
def offsLen (d : Bytes) : Nat := if lengths d then 4 * bags d else iw d * (bags d + 1)
/-- There is a flags array. -/
def hasFlg (d : Bytes) : Bool := flg d != 0xFFFFFFFF
end BagDesc

/-- Most indices of an operation (R95). -/
abbrev maxIndices : Nat := 4194304

/-- First index position and length of every bag; `none` when the array breaks R95. -/
def bagUnits (d arr : Bytes) : Option (List (Nat × Nat)) :=
  if BagDesc.lengths d then
    let l := (List.range (BagDesc.bags d)).map (fun b => sext 32 (rd arr (4 * b) 4))
    if l.any (· < 0) ∨ maxIndices < (l.map Int.toNat).sum then none
    else some ((l.foldl (fun (acc : Nat × List (Nat × Nat)) n => (acc.1 + n.toNat, acc.2 ++ [(acc.1, n.toNat)])) (0, [])).2)
  else
    let w := BagDesc.iw d
    let o := (List.range (BagDesc.bags d + 1)).map (fun b => sext (8 * w) (rd arr (w * b) w))
    if o.any (fun x => x < 0 || decide ((maxIndices : Int) < x)) ∨ (o.zip (o.drop 1)).any (fun e => e.2 < e.1) then none
    else some ((o.zip (o.drop 1)).map (fun e => (e.1.toNat, (e.2 - e.1).toNat)))

/-- An array lies where the launch may read or write it, on its alignment. -/
def State.arrOk (s : State) (a : Site) (write : Bool) (off n align : Nat) : Bool :=
  off % align == 0 && (n == 0 || (if write then s.frameAt a.c a.k off n else s.readAt a.c a.k off n).isSome)

/-- An array to be written lies in the shared area, which no engine may write (R351). -/
def State.arrShared (s : State) (a : Site) (off n : Nat) : Bool :=
  n != 0 && (s.frameAt a.c a.k off n).isNone && (s.readAt a.c a.k off n).isSome

/-- Fields of the descriptor alone (R96, rows 1 to 3). -/
def descStatus (d : Bytes) (gather : Bool) : Nat :=
  if crc16 (slice d 0 48) ≠ rd d 62 2 then ST_LK_DESC_CRC
  else if (rd d 1 1).testBit 7 ∨ 16 ≤ rd d 2 1 ∨ 8 ≤ rd d 3 1 ∨ !allZero (slice d 34 14) ∨ !allZero (slice d 56 6)
      ∨ BagDesc.bags d = 0 ∨ 65536 < BagDesc.bags d ∨ BagDesc.range d = 3 ∨ BagDesc.ostride d % 32 ≠ 0
      ∨ (BagDesc.outRing d == (BagDesc.perslot d == 0)) then ST_LK_BAD_DESC
  else if 4 < BagDesc.mode d ∨ (gather != (BagDesc.mode d == 4)) ∨ (BagDesc.raw d ∧ BagDesc.mode d ≠ 4) then ST_LK_MODE
  else ST_OK

/-- Bytes of one output record (R99). -/
def recordBytes (t : Table) (raw : Bool) : Nat := if raw then alignUp t.imageBytes 32 else 4 * t.rowlen

/-- Records that ring slot k has room for: PERSLOT for the pooled modes, the index positions of its bags for CONCAT (R96,
row 10). -/
def slotRecords (units : List (Nat × Nat)) (per : Nat) (concat : Bool) (k : Nat) : Nat :=
  if concat then (((units.drop (k * per)).take per).map (·.2)).sum else per

/-- The table that a descriptor names and the version bound for it (R93). -/
def State.lookupTable (s : State) (a : Site) (d : Bytes) : Option (Table × Nat) :=
  match (a.k.tslot[BagDesc.tslot d]?).getD none with
  | none => none
  | some h => (s.table? h).bind (fun t => (a.c.versions.lookup h).map (fun v => (t, v)))

/-- The checks of R96 in their order: the table, its bound version and the bags, or the status. -/
def State.lookupCheck (s : State) (a : Site) (d : Bytes) (gather : Bool) : Except Nat (Table × Nat × List (Nat × Nat)) :=
  if descStatus d gather ≠ ST_OK then .error (descStatus d gather)
  else
    match s.lookupTable a d with
    | none => .error ST_LK_UNBOUND
    | some (t, v) =>
      if BagDesc.ostride d < recordBytes t (BagDesc.raw d) then .error ST_LK_BAD_DESC
      else if !s.arrOk a false (BagDesc.offs d) (BagDesc.offsLen d) (if BagDesc.lengths d then 4 else BagDesc.iw d) then .error ST_LK_SCRATCH
      else
        match bagUnits d (s.ctxRead a.c a.k (BagDesc.offs d) (BagDesc.offsLen d)) with
        | none => .error ST_LK_BAD_DESC
        | some units =>
          let n := (units.map (fun u => u.1 + u.2)).foldl max 0
          let recs := if gather then n else BagDesc.bags d
          if (BagDesc.hasFlg d ∧ s.arrShared a (BagDesc.flg d) (2 * BagDesc.bags d))
              ∨ (!BagDesc.outRing d ∧ s.arrShared a (BagDesc.out d) (recs * BagDesc.ostride d)) then .error ST_ISA_RANGE
          else if !s.arrOk a false (BagDesc.idx d) (BagDesc.iw d * n) (BagDesc.iw d)
              ∨ (BagDesc.mode d = 2 ∧ !s.arrOk a false (BagDesc.wgt d) (2 * n) 2)
              ∨ (BagDesc.hasFlg d ∧ !s.arrOk a true (BagDesc.flg d) (2 * BagDesc.bags d) 2)
              ∨ (!BagDesc.outRing d ∧ !s.arrOk a true (BagDesc.out d) (recs * BagDesc.ostride d) 32) then .error ST_LK_SCRATCH
          else if BagDesc.outRing d then
            match a.c.sideOf a.k.cl (BagDesc.ring d) false 2 with
            | none => .error ST_RING_ROLE
            | some r =>
              let per := BagDesc.perslot d
              if (List.range (ceilDiv (BagDesc.bags d) per)).any (fun k =>
                  decide (r.slotBytes < slotRecords units per gather k * BagDesc.ostride d)) then .error ST_LK_BAD_DESC
              else .ok (t, v, units)
          else .ok (t, v, units)

/-- The status that the checks of R96 and R351 find. -/
def State.lookupStatus (s : State) (a : Site) (d : Bytes) (gather : Bool) : Nat :=
  match s.lookupCheck a d gather with
  | .error st => st
  | .ok _ => ST_OK

/-! ## Reading the arrays (R97, R108) -/

/-- A weight as the owners use it, an FP16 pattern; `none` when it fails its bag. -/
def weightOf (bf : Bool) (w : Nat) : Option (BitVec 16) :=
  if bf then
    if !bf16Finite w then none
    else
      let v := bf16.decode w
      if v.abs.lt (.fin false 1 1 (-24)) then some (if v.sign then 0x8000 else 0)
      else
        let r := (fp16.round v).1
        if fp16Finite r then some (BitVec.ofNat 16 r) else none
  else if fp16Finite w then some (BitVec.ofNat 16 w) else none

/-- What the reading of a bag has found: entries, flags, its first failure, out-of-range indices met. -/
structure BagRead where
  idx : List IdxEntry
  flags : Nat
  fail : Option Nat
  range : Nat

/-- Read one index of a bag. The weight at an index that is skipped or fails is not read (DESIGN CHOICE, log entry 92). -/
def BagRead.step (d ia wa : Bytes) (rows : Nat) (r : BagRead) (j : Nat) : BagRead :=
  let iw := BagDesc.iw d
  let x := sext (8 * iw) (rd ia (iw * j) iw)
  let out := decide (x < 0) || decide ((rows : Int) ≤ x)
  let r1 := if out then { r with range := r.range + 1 } else r
  if out ∧ BagDesc.range d = 2 then { r1 with fail := r1.fail.or (some ST_LK_INDEX) }
  else
    let r2 := if out then { r1 with flags := r1.flags ||| fRANGE } else r1
    if out ∧ BagDesc.range d = 0 then r2
    else
      let row := if out then 0 else x.toNat
      if BagDesc.mode d = 2 then
        match weightOf (BagDesc.wbf16 d) (rd wa (2 * j) 2) with
        | some w => { r2 with idx := r2.idx ++ [⟨row, out, w, j⟩] }
        | none => { r2 with fail := r2.fail.or (some ST_LK_WEIGHT) }
      else { r2 with idx := r2.idx ++ [⟨row, out, 0, j⟩] }

/-- The bags of an operation as read, the first failure, and the out-of-range indices. -/
def readBags (d ia wa : Bytes) (rows : Nat) (units : List (Nat × Nat)) : List Bag × Option Nat × Nat :=
  units.zipIdx.foldl (fun (acc : List Bag × Option Nat × Nat) u =>
    let r := ((List.range u.1.2).map (· + u.1.1)).foldl (BagRead.step d ia wa rows) ⟨[], 0, none, 0⟩
    let b : Bag := ⟨u.2, u.1.1, u.1.2, if r.fail.isSome then [] else r.idx, [], 0, [], [], 0,
      r.flags ||| flagIf r.fail.isSome fERR, false⟩
    (acc.1 ++ [b], acc.2.1.or r.fail, acc.2.2 + r.range)) ([], none, 0)

/-! ## Operations at a GPE -/

def State.gpeOp? (s : State) (die num : Nat) : Option GpeOp :=
  (s.gpes[die]?).bind (fun g => g.ops.find? (fun o => o.num == num && o.abandoned.isNone))

def State.modGpeOp (s : State) (die num : Nat) (f : GpeOp → GpeOp) : State :=
  s.modGpe die (fun g => { g with ops := modFirst (fun o => o.num == num && o.abandoned.isNone) f g.ops })

def GpeOp.modBag (o : GpeOp) (n : Nat) (f : Bag → Bag) : GpeOp := { o with bags := modFirst (·.num == n) f o.bags }

/-- The 16-bit OP field of requests and partials (R111). -/
def opField (die num : Nat) : Nat := die * 8192 + num

/-- The context and the cluster that an operation works for. -/
def State.opSite (s : State) (o : GpeOp) : Option Site := (s.ctx? o.ctx).bind (fun c => (c.on? o.cl).map (fun k => ⟨c, k⟩))

/-- The bytes of a bag's record: n FP32 values. -/
def f32Bytes (l : List F32) : Bytes := l.flatMap (fun x => natLE 4 x.toNat)

/-- Records of a bag as the operation writes them: number of the record, bytes. -/
def GpeOp.records (o : GpeOp) (b : Bag) : List (Nat × Bytes) := if o.mode = 4 then b.recs else [(b.num, f32Bytes b.value)]

/-- The output of a failed bag is undefined: free bytes in every record it would have written (R98). -/
def State.freeRecords (s : State) (n : Nat) : List Nat → List (Nat × Bytes) × State
  | [] => ([], s)
  | r :: t =>
    let (b, s1) := s.freeBytes n
    let (l, s2) := State.freeRecords s1 n t
    ((r, b) :: l, s2)

/-- Write the record and the flags word of a bag that is complete or has failed (R99, R100, R101). -/
def State.bagOut (s : State) (die num n : Nat) : State :=
  match s.gpeOp? die num with
  | none => s
  | some o =>
    match o.bags.find? (·.num == n), s.opSite o, s.table? o.handle with
    | some b, some a, some t =>
      let err := b.flags.testBit 6
      let s1 := if b.flags.testBit 3 then s.latch Reg.LKP_STATUS 1 else s
      let s2 := if o.flg = 0xFFFFFFFF then s1 else s1.ctxWrite a.c a.k (o.flg + 2 * n) (natLE 2 b.flags)
      let (recs, s3) := if err then
          s2.freeRecords (recordBytes t o.raw) (if o.mode = 4 then (List.range b.len).map (· + b.first) else [n])
        else (o.records b, s2)
      if o.ring.isSome then s3.modGpeOp die num (fun o => o.modBag n (fun b => { b with recs := recs }))
      else recs.foldl (fun s e => s.ctxWrite a.c a.k (o.out + e.1 * o.ostride) e.2) s3
    | _, _, _ => s

/-- A bag is complete or has failed. -/
def State.bagDone (s : State) (die num n : Nat) (err : Bool) : State :=
  (s.modGpeOp die num (fun o => o.modBag n (fun b =>
    let empty := b.count = 0 ∧ !err ∧ !b.flags.testBit 6
    { b with
      done := true
      flags := b.flags ||| flagIf err fERR ||| flagIf empty fEMPTY
      value := if o.mode = 1 ∧ 0 < b.count then b.value.map (fun x => toF32 ((F32.val x).div (.ofInt b.count))) else b.value }))).bagOut die num n

/-- A failure is noted; the first one stands (R101). -/
def State.opFail (s : State) (die num st : Nat) : State := s.modGpeOp die num (fun o => { o with fail := o.fail.or (some st) })

/-! ## Requests (R110, R112) -/

/-- Indices that fit in the rest of a packet. -/
def fitIn (weighted : Bool) (room : Nat) : Nat := min 2040 ((room - 4) / (if weighted then 8 else 6))

/-- Split bag lists into packets of at most 16,368 bytes of pieces, in bag order. A bag of more than the 2,040 indices of a
piece goes on as a second piece of the same packet while that has room (DESIGN CHOICE, log entry 84). -/
def packPieces (weighted : Bool) : Nat → Nat → List Piece → List (Nat × List PieceIdx) → List (List Piece)
  | 0, _, cur, _ => if cur.isEmpty then [] else [cur]
  | _ + 1, _, cur, [] => if cur.isEmpty then [] else [cur]
  | f + 1, room, cur, (bag, l) :: rest =>
    let n := if room < 12 then 0 else fitIn weighted room
    if n = 0 then cur :: packPieces weighted f 16368 [] ((bag, l) :: rest)
    else if l.length ≤ n then
      let p : Piece := ⟨bag, true, l⟩
      packPieces weighted f (room - pieceBytes weighted p) (cur ++ [p]) rest
    else
      let p : Piece := ⟨bag, false, l.take n⟩
      packPieces weighted f (room - pieceBytes weighted p) (cur ++ [p]) ((bag, l.drop n) :: rest)

/-- Where each index of a bag is read: owner, the index as sent, and whether it is read as lost (R157, R597). -/
def State.assign (s : State) (die : Nat) (t : Table) (vslot : Nat) (b : Bag) : List (Nat × PieceIdx × Bool) :=
  b.idx.map (fun e =>
    if e.subst then (s.loc die, ⟨e.row, true, e.weight⟩, false)
    else
      match s.resolve die t vslot e.row with
      | some l => (l, ⟨e.row, false, e.weight⟩, false)
      | none => (s.loc die, ⟨e.row, true, e.weight⟩, true))

/-- Send one owner its request packets; the status of the first that could not leave. -/
def State.sendRequest (s : State) (die : Nat) (o : GpeOp) (owner : Nat) (l : List (Nat × List PieceIdx)) : Nat × State :=
  let weighted := o.mode == 2
  let pk := packPieces weighted (3 * (l.map (fun e => e.2.length + 1)).sum + 2) 16368 [] l
  pk.zipIdx.foldl (fun (acc : Nat × State) p =>
    let q : PoolReqPkt := ⟨s.loc die, o.ctx, opField die o.num, o.gen, o.handle, o.ver, o.mode, weighted, p.2, pk.length, p.1⟩
    let (st, s1) := acc.2.post ⟨owner, die, opField die o.num, o.gen, .poolReq q⟩
    (if acc.1 = ST_OK then st else acc.1, s1)) (ST_OK, s)

/-- Resolve the indices of every bag that is not complete, and send the requests (R110, R119, R158). A bag with nothing to
ask is complete. -/
def State.dispatch (s : State) (die num : Nat) : State :=
  match s.gpeOp? die num with
  | none => s
  | some o =>
    match s.table? o.handle with
    | none => s
    | some t =>
      let vslot := ((t.ver? o.ver).map (·.slot)).getD 0
      let asg := (o.bags.filter (!·.done)).map (fun b => (b, s.assign die t vslot b))
      let lost := ((asg.flatMap (·.2)).filter (·.2.2)).length
      let s1 : State := if lost = 0 then s else (s.count Reg.LKP_FALLBACK lost).latch Reg.LKP_STATUS 0
      let epoch := (s.tableDom t).map (fun e => keyGet 0 (s.dir die).epochs e.1)
      let s2 := s1.modGpeOp die num (fun o => { o with
        timer := s.time.gtime
        epoch := epoch.getD 0
        bags := o.bags.map (fun b =>
          match asg.find? (·.1.num == b.num) with
          | none => b
          | some (_, l) => { b with
              asked := if o.mode = 4 then l.map (·.1) else (l.map (·.1)).eraseDups
              flags := b.flags ||| flagIf (l.any (·.2.2)) fFALLBACK }) })
      let owners := ((asg.flatMap (·.2)).map (·.1)).eraseDups
      let r := owners.foldl (fun (acc : List Nat × State) w =>
        let l := (asg.map (fun e => (e.1.num, (e.2.filter (·.1 == w)).map (·.2.1)))).filter (fun e => !e.2.isEmpty)
        let (st, s') := acc.2.sendRequest die o w l
        (if st = ST_LNK_NO_ROUTE then w :: acc.1 else acc.1, s')) ([], s2)
      let cut (b : Bag × List (Nat × PieceIdx × Bool)) : Bool := b.2.any (fun e => r.1.contains e.1)
      let s3 := if asg.any cut then r.2.opFail die num ST_LNK_NO_ROUTE else r.2
      (asg.filter (fun e => e.2.isEmpty || cut e)).foldl (fun s e => s.bagDone die num e.1.num (cut e)) s3

/-! ## Issue (R370, R92) -/

/-- The place of cluster n in the rotation that starts after the cluster granted last (R30). -/
def Gpe.turn (g : Gpe) (n : Nat) : Nat := (n + 15 - g.granted) % 16

/-- A cluster that stalls for a place at the GPE still presents the same instruction (R92). -/
def State.stillWaits (s : State) (w : Nat × Nat × Nat) : Bool :=
  (s.site? w.1).any (fun a => a.c.id == w.2.1 && a.k.pc == w.2.2)

/-- The GPE grants a cluster's operation a place: one is free, and no other waiting cluster comes before it in the rotation
(R30, R92). -/
def State.gpeGrants (s : State) (g : Gpe) (cl : Nat) : Bool :=
  decide (g.ops.length < 1024) &&
    (g.waiting.filter s.stillWaits).all (fun w => w.1 == cl || decide (g.turn (cl % 16) < g.turn (w.1 % 16)))

/-- The least operation number that is free (R92, R102). -/
def Gpe.freeNum (g : Gpe) : Nat := ((List.range 1024).find? (fun n => !g.ops.any (·.num == n))).getD 0

/-- The GPE takes an operation: the checks of R96, the reading of its arrays, and the first requests. -/
def State.startLookup (s : State) (a : Site) (desc : Nat) (d : Bytes) (gather : Bool) (num gen : Nat) : State :=
  let die := a.k.cl / 16
  let base : GpeOp := ⟨num, a.c.id, a.k.cl, desc, BagDesc.mode d, BagDesc.raw d, 0, 0, BagDesc.out d, BagDesc.ostride d, BagDesc.flg d,
    if BagDesc.outRing d then some (BagDesc.ring d) else none, BagDesc.perslot d, [], gen, 1, none, 0, 0, s.time.gtime, 0, none⟩
  let add (s : State) (o : GpeOp) : State := s.modGpe die (fun g => { g with ops := g.ops ++ [o], gen := gen })
  match s.lookupCheck a d gather with
  | .error st => (add s { base with fail := some st, ring := none }).latch Reg.LKP_STATUS 4
  | .ok (t, v, units) =>
    let n := (units.map (fun u => u.1 + u.2)).foldl max 0
    let ia := s.ctxRead a.c a.k (BagDesc.idx d) (BagDesc.iw d * n)
    let wa := if BagDesc.mode d = 2 then s.ctxRead a.c a.k (BagDesc.wgt d) (2 * n) else []
    let (bags, fail, out) := readBags d ia wa t.rows units
    let zero := if BagDesc.mode d = 4 then [] else List.replicate t.rowlen (0 : F32)
    let s1 := add (if out = 0 then s else s.count Reg.LKP_RANGE out)
      { base with handle := t.handle, ver := v, bags := bags.map (fun b => { b with value := zero }), fail := fail }
    let s2 := (bags.filter (fun b => b.flags.testBit 6)).foldl (fun s b => s.bagDone die num b.num true) s1
    s2.dispatch die num

/-- Frame ranges that GATHER and POOL read and write, the index and weight arrays left out (R360). -/
def lookupRanges (desc : Nat) (d : Bytes) (gather : Bool) (frame : Nat) : List Range × List Range :=
  let flg := if BagDesc.hasFlg d then [⟨BagDesc.flg d, 2 * BagDesc.bags d⟩] else []
  let out := if BagDesc.outRing d then []
    else if gather then [⟨BagDesc.out d, frame - BagDesc.out d⟩] else [⟨BagDesc.out d, BagDesc.bags d * BagDesc.ostride d⟩]
  ([⟨desc, 64⟩, ⟨BagDesc.offs d, BagDesc.offsLen d⟩], [⟨desc, 64⟩] ++ flg ++ out)

/-- Issue of GATHER and POOL. The descriptor must lie in the frame, since its STATUS is written; an output or a flag array in the shared
area ends the launch, with nothing written (R351). -/
def State.issueLookup (s : State) (cl : Nat) (i : BWord) (gather : Bool) (ecc : GranuleHealth) : State :=
  s.issue cl i [i.a] (fun a s =>
    let off := a.addr i
    if (s.frameAt a.c a.k off 64).isNone then .fault ST_ISA_RANGE 0
    else if off % 64 ≠ 0 then .fault ST_ISA_ALIGN 0
    else if s.ctxBad a.c a.k off 64 then .fail s ST_RAS_SRAM_UE
    else
      let d := s.ctxRead a.c a.k off 64
      let (reads, writes) := lookupRanges off d gather (frameBytes (s.image a.c))
      match s.gpes[cl / 16]? with
      | none => .done s
      | some g =>
        let mine : Nat × Nat × Nat := (cl, a.c.id, a.k.pc)
        let o := { a.op s .lk (if gather then .gather else .pool) i reads writes with desc := d, gpe := some g.freeNum }
        if !a.k.clash o.reads o.writes ∧ a.k.running.length < 32 ∧ !s.gpeGrants g cl then
          .hold (s.modGpe (cl / 16) (fun g => { g with waiting := insertNew mine (g.waiting.filter s.stillWaits) })) (.queueFull .lk)
        else
        match a.enqueue s o with
        | .done s0 =>
          if s.lookupStatus a d gather = ST_ISA_RANGE then .fault ST_ISA_RANGE 0 else
          let s1 := s0.modGpe (cl / 16) (fun g => { g with granted := cl % 16, waiting := g.waiting.filter (fun w => !(w.1 == cl)) })
          .done ((a.set s1 (fun k => { k with usedGpe := true })).dirRead (cl / 16) ecc |>.startLookup a off d gather g.freeNum ((g.gen + 1) % 256))
        | r => r)

/-- GATHER. -/
def execGather (cl : Nat) (w : LookupWord) (s : State) : Outcome State Fault Refusal := .next (s.issueLookup cl w.word true w.ecc)
/-- POOL. -/
def execPool (cl : Nat) (w : LookupWord) (s : State) : Outcome State Fault Refusal := .next (s.issueLookup cl w.word false w.ecc)

/-! ## Partials (R114, R116) -/

/-- Elements of two partials combined. -/
def combineValues (mode : Nat) (a b : List F32) : List F32 :=
  (a.zip b).map (fun e => if mode = 3 then toF32 ((F32.val e.1).max (F32.val e.2)) else f32add e.1 e.2)

/-- Combining finite values gave an infinity or NaN, which only a B16 sum does (R109). -/
def anyOverflow (l : List F32) : Nat := flagIf (l.any (fun x => !(F32.val x).isFin)) fLOVF

/-- The record of a CONCAT index: the padded image for RAW, else each decoded value rounded once, a Q zero being +0 (R99,
R104). -/
def Table.record (t : Table) (raw : Bool) (img : Bytes) : Bytes :=
  if raw then img
  else f32Bytes ((List.range t.rowlen).map (fun i =>
    let v := t.elem img i
    if t.fmt ≤ 1 ∧ v.isZero then 0 else toF32 v))

/-- Positions of the indices of a CONCAT bag that an owner was asked for, in their order. -/
def Bag.askedOf (b : Bag) (owner : Nat) : List Nat := ((b.idx.zip b.asked).filter (fun e => e.2 == owner)).map (·.1.pos)

/-- How many owners a bag was sent to (R114). -/
def Bag.owners (b : Bag) : Nat := b.asked.eraseDups.length

/-- A bag after a partial. -/
def Bag.take (b : Bag) (t : Table) (raw : Bool) (p : PartialPkt) : Bag :=
  let flags := b.flags ||| p.flags
  if p.mode = 4 then
    { b with recs := b.recs ++ (b.askedOf p.src).zip (p.rows.map (t.record raw)), got := b.got + p.owners, count := b.count + p.count, flags := flags }
  else if b.got = 0 then { b with value := p.value, got := p.owners, count := p.count, flags := flags }
  else
    let v := combineValues p.mode b.value p.value
    { b with value := v, got := b.got + p.owners, count := b.count + p.count, flags := flags ||| fMULTI ||| anyOverflow v }

/-- A late partial is dropped and counted (R102, R119). -/
def State.latePartial (s : State) : State := (s.count Reg.LKP_LATE 1).latch Reg.LKP_STATUS 2

/-- A partial that no bag takes: one of an older generation or of a cancelled operation is late, any other is dropped
(R102, R119, R136). -/
def State.strayPartial (s : State) (die : Nat) (p : PartialPkt) : State :=
  let num := p.op % 1024
  let old : Bool := (s.gpes[die]?).all (fun g =>
    match g.ops.find? (·.num == num) with
    | some o => o.abandoned.isSome || o.ctx != p.ctx || o.gen != p.gen
    | none => (g.ended.lookup num).all (fun e => e.2 || e.1 != p.gen))
  if old then s.latePartial else s

/-- PARTIAL: a partial reaches the requesting GPE. -/
def execPartial (die : Nat) (p : PartialPkt) (s : State) : Outcome State Fault Refusal :=
  .next (s.whenServing fun s =>
    let num := p.op % 1024
    match s.gpeOp? die num with
    | none => s.strayPartial die p
    | some o =>
      match o.bags.find? (·.num == p.bag), s.table? o.handle with
      | some b, some t =>
        if o.ctx ≠ p.ctx ∨ o.gen ≠ p.gen ∨ b.done then s.strayPartial die p
        else
          let b1 := b.take t o.raw p
          let s1 := s.modGpeOp die num (fun o => { o.modBag p.bag (fun _ => b1) with timer := s.time.gtime })
          if b.owners ≤ b1.got then s1.bagDone die num p.bag false else s1
      | _, _ => s.strayPartial die p)

/-! ## Ring output (R100) -/

/-- Publish the next slot of an operation if all of its bags are complete and the ring has room. A stream that was ended takes none,
and the operation goes on with ST_RING_ORDER (R318, R362). -/
def State.publishSlot (s : State) (die num : Nat) : Option State :=
  match s.gpeOp? die num with
  | none => none
  | some o =>
    match o.ring, s.opSite o with
    | some q, some a =>
      match a.c.ring? q with
      | none => none
      | some r =>
        let l := (o.bags.drop (o.slots * o.perslot)).take o.perslot
        if l.isEmpty ∨ l.any (!·.done) ∨ a.k.cancelled then none
        else if r.endPub then some ((s.opFail die num ST_RING_ORDER).modGpeOp die num (fun o => { o with slots := ceilDiv o.bags.length o.perslot }))
        else
          match r.acqProd with
          | .ok r' slot _ _ =>
            let first := if o.mode = 4 then ((l.head?).map (·.first)).getD 0 else o.slots * o.perslot
            let n := if o.mode = 4 then (l.map (·.len)).sum else l.length
            match a.c.atIndex r.home with
            | none => none
            | some home =>
              let s1 := (l.flatMap (·.recs)).foldl (fun s e => s.ctxWrite a.c home (r.slotOff slot + (e.1 - first) * o.ostride) e.2) (s.setRing o.ctx r')
              (s1.ringPublish o.ctx q (n * o.ostride) false).map (fun s => s.modGpeOp die num (fun o => { o with slots := o.slots + 1 }))
          | _ => none
    | _, _ => none

/-- Publish every slot that can be published. -/
def State.publishSlots (s : State) (die num : Nat) : Nat → State
  | 0 => s
  | f + 1 =>
    match s.publishSlot die num with
    | some s1 => State.publishSlots s1 die num f
    | none => s

/-- Ring slots that an operation fills. -/
def GpeOp.slotCount (o : GpeOp) : Nat := if o.ring.isSome then ceilDiv o.bags.length o.perslot else 0

/-- STATUS, FLAGS_OR and ROWS are written (R96, R101). -/
def State.writeStatus (s : State) (o : GpeOp) : State :=
  match s.opSite o with
  | none => s
  | some a =>
    let flags := o.bags.foldl (fun f b => f ||| b.flags) 0
    let rows := ((o.bags.filter (fun b => !b.flags.testBit 6)).map (·.count)).sum
    let s1 := s.ctxWrite a.c a.k (o.desc + 48) (natLE 2 (o.fail.getD ST_OK) ++ natLE 2 flags ++ natLE 4 rows)
    if o.fail = some ST_LK_TIMEOUT then s1.latch Reg.LKP_STATUS 3 else s1

/-- GATHER or POOL goes on: its ring slots are published, and once every bag is complete or has failed the operation ends.
`true` when it has ended. -/
def State.lookupEnds (s : State) (die num : Nat) : State × Bool :=
  match s.gpeOp? die num with
  | none => (s, true)
  | some o =>
    let s1 := s.publishSlots die num o.slotCount
    match s1.gpeOp? die num with
    | none => (s1, true)
    | some o1 =>
      if o1.bags.all (·.done) ∧ o1.slotCount ≤ o1.slots then
        ((s1.writeStatus o1).modGpe die (fun g => { g with
          ops := g.ops.filter (fun x => !(x.num == num && x.abandoned.isNone))
          ended := keyPut g.ended num (o1.gen, false) }), true)
      else (s1, false)

/-! ## Timeouts and cancels (R102, R119) -/

/-- TIMEOUT_US in ticks (R509). -/
def State.e2e (s : State) : Nat := us (s.regF Reg.LNK_E2E 15 0)

/-- POOL_TIMEOUT: the second attempt, or the end of the bags that are not complete. -/
def execPoolTimeout (die : Nat) (x : OpIn) (s : State) : Outcome State Fault Refusal :=
  .next (s.whenServing fun s =>
    match s.gpeOp? die x.op with
    | none => s
    | some o =>
      let open_ := o.bags.filter (!·.done)
      if open_.isEmpty ∨ !s.reached (o.timer.toNat + s.e2e) then s
      else if o.attempt = 1 then
        let s1 := (s.dirRead die x.ecc).modGpeOp die x.op (fun o => { o with
          attempt := 2
          gen := (o.gen + 1) % 256
          bags := o.bags.map (fun b => if b.done then b else { b with got := 0, value := b.value.map (fun _ => 0), recs := [], count := 0, flags := b.flags &&& fRANGE }) })
        s1.dispatch die x.op
      else open_.foldl (fun s b => s.bagDone die x.op b.num true) (s.opFail die x.op ST_LK_TIMEOUT))

/-- ABANDONED_OP_NUMBER_FREED. -/
def execAbandonedOpNumberFreed (die op : Nat) (s : State) : Outcome State Fault Refusal :=
  .next (s.whenServing fun s => s.modGpe die (fun g =>
    let freed (o : GpeOp) : Bool := o.num == op && o.abandoned.any (fun t => s.reached (t.toNat + s.e2e))
    { g with
      ops := g.ops.filter (fun o => !freed o)
      ended := (g.ops.filter freed).foldl (fun l o => keyPut l op (o.gen, true)) g.ended }))

/-! ## Sums in transit (R115, R116) -/

/-- Combine buffer entries of an I/O die. -/
abbrev combineSize : Nat := 512

def samePartial (a b : PartialPkt) : Bool :=
  locNode a.dst == locNode b.dst && a.ctx == b.ctx && a.op == b.op && a.bag == b.bag && a.mode == b.mode && a.gen == b.gen && a.dst == b.dst

/-- Two partials combined at this part, whose location it then names as source (R115, R116, R505). -/
def State.combinePkt (s : State) (a b : PartialPkt) : PartialPkt :=
  let v := combineValues a.mode a.value b.value
  { a with
    src := s.node
    owners := a.owners + b.owners
    count := a.count + b.count
    flags := a.flags ||| b.flags ||| fMULTI ||| anyOverflow v
    value := v }

/-- Send a partial on its way through the port chosen for it. -/
def State.forwardPartial (s : State) (p : PartialPkt) (port dl : Nat) : State := s.transmit ⟨p.dst, 0, p.tag, p.gen, .part p⟩ port dl

/-- Partials held by an I/O die. -/
def State.heldAt (s : State) (iod : Nat) : List Held := s.combine.filter (·.iod == iod)

/-- COMBINE_PARTIAL: a partial arrives on a Twiben port for another node. The buffer is that of the I/O die of the port it
leaves by (R115, R505). -/
def execCombinePartial (inPort dl : Nat) (p : PartialPkt) (s : State) : Outcome State Fault Refusal :=
  .next (s.whenServing fun s =>
    if locNode p.dst = s.node ∨ !s.portUp inPort then s
    else
      match s.route (some (dirOf s.map inPort)) dl p.dst 2 with
      | none => s.latch Reg.LNK_STATUS 2
      | some (port, dl') =>
        let iod := iodOf port
        let window := s.regF Reg.LKP_COMBINE 9 0
        let on := s.regB Reg.LKP_COMBINE 31 && window != 0 && p.mode != 4
        if !on then s.forwardPartial p port dl'
        else if (s.heldAt iod).any (fun h => samePartial h.p p) then
          ({ s with combine := modFirst (fun h => h.iod == iod && samePartial h.p p) (fun h => { h with p := s.combinePkt h.p p }) s.combine } : State).count Reg.LKP_COMBINED 1
        else if combineSize ≤ (s.heldAt iod).length then (s.forwardPartial p port dl').count Reg.LKP_PASSED 1
        else { s with combine := s.combine ++ [⟨iod, p, port, s.time.gtime + BitVec.ofNat 64 (4 * window), inPort, dl⟩] })

/-- COMBINE_WINDOW_EXPIRES: entry `idx` of an I/O die's buffer is sent on as one partial, by the port it was held for, or by the one of
R504 when that is not UP; on the sub-channel of R503 for the way it came. -/
def execCombineWindowExpires (iod idx : Nat) (s : State) : Outcome State Fault Refusal :=
  .next (s.whenServing fun s =>
    match (s.heldAt iod)[idx]? with
    | none => s
    | some h =>
      if !s.reached h.until_.toNat then s
      else
        let s1 : State := { s with combine := s.combine.erase h }
        match s1.route (some (dirOf s.map h.inPort)) h.dl h.p.dst 2 with
        | some (port, dl) => s1.forwardPartial h.p (if s1.portUp h.outPort then h.outPort else port) dl
        | none => s1.latch Reg.LNK_STATUS 2)

end Sys2Proof.Machine
end

