-- ==== Sys2Proof/Machine/Sfn.lean ====
section
/-! DEFINITION. The special functions of R298 and R299 on FP32 arguments: special arguments, flush, overflow, the results that
are stated exactly, and an open value within the stated error where they are not. -/
namespace Sys2Proof.Machine

/-- floor(√n) by bits from 2^k down. -/
def isqrtFrom (n : Nat) : Nat → Nat → Nat
  | 0, r => if (r + 1) * (r + 1) ≤ n then r + 1 else r
  | k + 1, r => isqrtFrom n k (if (r + 2 ^ (k + 1)) * (r + 2 ^ (k + 1)) ≤ n then r + 2 ^ (k + 1) else r)

/-- A value just above r × 2^q unless exact, so that one rounding of it is that of the exact value. -/
def sticky (r : Nat) (exact : Bool) (q : Int) : Val := .fin false (2 * r + b2n (!exact)) 1 (q - 1)

/-- √(n × 2^e), to be rounded once. -/
def sqrtVal (n : Nat) (e : Int) : Val :=
  let k : Int := if e % 2 = 0 then 64 else 65
  let m := n * Val.up k
  let r := isqrtFrom m 60 0
  sticky r (r * r == m) ((e - k) / 2)

/-- 1 / √(n × 2^e), to be rounded once. -/
def rsqrtVal (n : Nat) (e : Int) : Val :=
  let den := n * Val.up e
  let num := 2 ^ 200 * Val.up (-e)
  let m := num / den
  let r := isqrtFrom m 190 0
  sticky r (r * r * den == num) (-100)

/-! ## Real functions in fixed point

The exactly rounded FP32 result of R298 is the rounding of the function's value computed to some hundred bits more than FP32 has: an
integer times 2^-384. -/

/-- Bits after the point. -/
abbrev fixBits : Nat := 384
abbrev fixOne : Nat := 2 ^ fixBits

/-- x in fixed point, rounded down. -/
def fixOf : Val → Int
  | .fin s n d e => Val.signed s n * Val.up (e + fixBits) / (d * Val.up (-(e + fixBits)) : Nat)
  | _ => 0

/-- The value of a fixed-point number times 2^k. -/
def ofFix (v : Int) (k : Int := 0) : Val := .ofInt v (k - fixBits)

/-- Terms t, t·r/(i+1), t·r²/((i+1)(i+2)), … of the exponential series, summed. -/
def expTerms (r : Nat) : Nat → Nat → Nat → Nat → Nat
  | 0, _, _, acc => acc
  | k + 1, i, t, acc => expTerms r k (i + 1) (t * r / fixOne / (i + 1)) (acc + t)

/-- Terms p/i, p·w/(i+2), p·w²/(i+4), … of the inverse hyperbolic tangent, summed. -/
def atanhTerms (w : Nat) : Nat → Nat → Nat → Nat → Nat
  | 0, _, _, acc => acc
  | k + 1, i, p, acc => atanhTerms w k (i + 2) (p * w / fixOne) (acc + p / i)

/-- ln of (1 + z) / (1 − z) for z = n/d from 0 to 1/3. -/
def lnRatio (n d : Nat) : Nat :=
  let z := n * fixOne / d
  2 * atanhTerms (z * z / fixOne) 130 1 z 0

/-- ln 2. -/
def ln2 : Nat := lnRatio 1 3

/-- e^r × 2^k for r from 0 to 1. -/
def expVal' (k : Int) (r : Nat) : Val := ofFix (expTerms r 90 0 fixOne 0) k

/-- e^x for x below 2^7 in magnitude. -/
def expVal (x : Val) : Val :=
  let v := fixOf x
  expVal' (v / ln2) (v % ln2).toNat

/-- 2^x for x below 2^8 in magnitude. -/
def exp2Val (x : Val) : Val :=
  let v := fixOf x
  expVal' (v / fixOne) ((v % fixOne).toNat * ln2 / fixOne)

/-- ln of a positive value, in fixed point. -/
def lnFix : Val → Int
  | .fin _ n _ e =>
    let k := 2 ^ n.log2
    (n.log2 + e) * ln2 + lnRatio (n - k) (n + k)
  | _ => 0

/-- x, or 128 of its sign where it is larger: what e^−|x| adds there is below every FP32 rounding. -/
def capped (x : Val) : Val := if x.abs.lt (.ofInt 128) then x else .fin x.sign 128 1 0

/-- 1 / (1 + e^−x). -/
def sigmoidVal (x : Val) : Val :=
  let t := expVal (capped x).abs.neg
  (if x.sign then t else .one).div (Val.one.add t)

/-- tanh x. -/
def tanhVal (x : Val) : Val :=
  let t := expVal ((capped x).abs.neg.mul (.ofInt 2))
  let v := (Val.one.sub t).div (Val.one.add t)
  if x.sign then v.neg else v

/-- ln(1 + e^x). -/
def softplusVal (x : Val) : Val :=
  let t := (fixOf (expVal (capped x).abs.neg)).toNat
  (if x.sign then .zero else x).add (ofFix (lnRatio t (2 * fixOne + t)))

/-- Terms t, t·w/(i+2), t·w²/((i+2)(i+4)), … : x + x³/3 + x⁵/15 + …, summed. -/
def phiTerms (w : Nat) : Nat → Nat → Nat → Nat → Nat
  | 0, _, _, acc => acc
  | k + 1, i, t, acc => phiTerms w k (i + 2) (t * w / fixOne / (i + 2)) (acc + t)

/-- 1 / √(2π). -/
def phiScale : Nat := 3989422804014326779399460599343818684758586311649346576659258296706579258993018385012523339073069364303025588626351826855109919545 * fixOne / 10 ^ 130

/-- Φ(x) for x up to 13 in magnitude: 1/2 and the integral from 0 to x, e^(−x²/2)/√(2π) × (x + x³/3 + x⁵/15 + …). -/
def phiVal (x : Val) : Val :=
  let a := (fixOf x.abs).toNat
  let g := (fixOf (expVal ((x.mul x).mul (.fin true 1 1 (-1))))).toNat
  let h : Int := phiTerms (a * a / fixOne) 480 1 a 0 * g / fixOne * phiScale / fixOne
  ofFix (fixOne / 2 + (if x.sign then -h else h))

/-- x × Φ(x); above 13 the product rounds to x. -/
def geluVal (x : Val) : Val := if x.lt (.ofInt 13) then x.mul (phiVal x) else x

/-- One unit in the last place of an FP32 number. -/
def ulpOf (r : F32) : Val := .fin false 1 1 ((max 1 (r.toNat % 2 ^ 31 / 2 ^ 23) : Nat) - 150)

/-- The FP32 number that an open choice picks for an exact value v that rounds to r: any within k ulp of v, the ulp being that of r
(R298). A zero is exact, and a step that would leave the finite numbers of that sign is not taken; a subnormal result may come
out as zero (R299). Below a power of two the numbers lie at half an ulp, hence the 2k steps down. -/
def within (k choice : Nat) (v : Val) (r : F32) : F32 :=
  let m := r.toNat % 2 ^ 31
  let c := m + choice % (3 * k + 1)
  let x := r - BitVec.ofNat 32 m + BitVec.ofNat 32 (c - 2 * k)
  if m = 0 ∨ c < 2 * k ∨ 0x7F800000 + 2 * k ≤ c then r
  else if m < 0x00800000 ∧ choice / (3 * k + 1) % 2 = 1 then r - BitVec.ofNat 32 m
  else if (((F32.val x).sub v).abs).le ((ulpOf r).mul (.ofInt k)) then x
  else r

/-- A result with an error bound of k ulp: an open choice among the FP32 numbers within it; a value too large is an infinity and
sets OVF. -/
def bounded (k choice : Nat) (v : Val) : Val × Nat :=
  match fp32.round v with
  | (b, true) => (F32.val (BitVec.ofNat 32 b), fOVF)
  | (b, false) => (F32.val (within k choice v (BitVec.ofNat 32 b)), 0)

/-- Whether x is below a decimal n / d, negative when `neg`. -/
def below (x : Val) (neg : Bool) (n d : Nat) : Bool := x.lt (.fin neg n d 0)

/-- The power of two that a value is, if it is one. -/
def powerOf : Val → Option Int
  | .fin false n 1 e => if n ≠ 0 ∧ n = 2 ^ n.log2 then some (n.log2 + e) else none
  | _ => none

/-- The integer that a value is, if it is one. -/
def wholeOf : Val → Option Int
  | .fin s n d e => if (n * Val.up e) % (d * Val.up (-e)) = 0 then some (Val.signed s (n * Val.up e / (d * Val.up (-e)))) else none
  | _ => none

/-- A signed zero. -/
def zeroOf (s : Bool) : Val := .fin s 0 1 0

/-- Function f at an FP32 argument: result and flags. -/
def sfn (f : Nat) (a : F32) : Val × Nat :=
  let x := F32.val a
  let near (k : Nat) (v : Val) : Val × Nat := bounded k (Config.sfnStep f a) v
  if x.isNan then (.nan, fNAN)
  else
    match f with
    | 0 =>
      if below x true 8733 100 then (.zero, fFLUSH) else if x = .inf false then (x, 0)
      else if !x.le (.fin false 887228 10000 0) then (.inf false, fOVF) else near 2 (expVal x)
    | 1 =>
      if below x true 126 1 then (.zero, fFLUSH) else if x = .inf false then (x, 0)
      else if !below x false 128 1 then (.inf false, fOVF)
      else match wholeOf x with
        | some k => (.fin false 1 1 k, 0)
        | none => near 1 (exp2Val x)
    | 2 =>
      if x.isZero then (.inf true, 0) else if x.sign then (.nan, fDOMAIN + fNAN) else if x = .inf false then (x, 0) else near 2 (ofFix (lnFix x))
    | 3 =>
      if x.isZero then (.inf true, 0) else if x.sign then (.nan, fDOMAIN + fNAN) else if x = .inf false then (x, 0)
      else match powerOf x with
        | some k => (.ofInt k, 0)
        | none => near 2 (ofFix (lnFix x * fixOne / ln2))
    | 4 =>
      if x.isZero then (.inf x.sign, fOVF)
      else if !x.abs.le (.fin false 1 1 126) then (zeroOf x.sign, fFLUSH)
      else near 1 (Val.one.div x)
    | 5 =>
      if x.isZero then (.inf x.sign, 0) else if x.sign then (.nan, fDOMAIN + fNAN)
      else match x with
        | .fin _ n _ e => near 1 (rsqrtVal n e)
        | _ => (.zero, 0)
    | 6 =>
      if x.isZero then (x, 0) else if x.sign then (.nan, fDOMAIN + fNAN)
      else match x with
        | .fin _ n _ e => (F32.val (toF32 (sqrtVal n e)), 0)
        | _ => (x, 0)
    | 7 =>
      if x.abs = .inf false then (.fin x.sign 1 1 0, 0)
      else if x.abs.lt (.fin false 1 1 (-126)) then (zeroOf x.sign, fFLUSH) else near 2 (tanhVal x)
    | 8 =>
      if below x true 8733 100 then (.zero, fFLUSH) else if x = .inf false then (.one, 0) else near 2 (sigmoidVal x)
    | 9 =>
      if below x true 918 10 then (zeroOf true, fFLUSH) else if x = .inf false then (x, 0) else near 2 (x.mul (sigmoidVal x))
    | 10 =>
      if below x true 13 1 then (zeroOf true, fFLUSH) else if x = .inf false then (x, 0) else near 2 (geluVal x)
    | _ =>
      if below x true 8733 100 then (.zero, fFLUSH) else if x = .inf false then (x, 0) else near 2 (softplusVal x)

/-- EXP at the exact difference z − m, for SMAX.E with a finite m: no FLUSH (R302). -/
def expDiff (z m : F32) : Val × Nat :=
  let d := (F32.val z).sub (F32.val m)
  if d.isNan then (.nan, fNAN)
  else if below d true 8733 100 then (.zero, 0)
  else if d = .inf false then (d, 0)
  else if !d.le (.fin false 887228 10000 0) then (.inf false, fOVF)
  else bounded 2 (Config.expStep z m) (expVal d)

end Sys2Proof.Machine
end

