-- ==== Sys2Proof/Machine/Vector.lean ====
section
/-! DEFINITION. The vector engine and the special-function unit: chains, reductions, conversion, special functions, the soft
maximum and normalisation statistics (R278 to R312, R369). -/
namespace Sys2Proof.Machine

/-! ## Chain descriptors (R281 to R283) -/

/-- An operand record. -/
structure Opnd where
  off : Nat
  stride : Nat
  fmt : Nat
  deriving DecidableEq, Repr

namespace Chain
def cols (d : Bytes) : Nat := rd d 0 2
def rows (d : Bytes) : Nat := rd d 2 2
def nstage (d : Bytes) : Nat := rd d 4 1
def ctype (d : Bytes) : Nat := rd d 5 1
def sr (d : Bytes) : Bool := (rd d 6 1).testBit 0
def satfin (d : Bytes) : Bool := (rd d 6 1).testBit 1
def red (d : Bytes) : Bool := (rd d 6 1).testBit 2
def noy (d : Bytes) : Bool := (rd d 6 1).testBit 3
def redop (d : Bytes) : Nat := fld (rd d 7 1) 1 0
def redstage (d : Bytes) : Nat := fld (rd d 7 1) 4 2
def op (d : Bytes) (i : Nat) : Nat := rd d (16 + 4 * i) 1
/-- Source A, B or C of a stage. -/
def src (d : Bytes) (i j : Nat) : Nat :=
  match j with
  | 0 => fld (rd d (17 + 4 * i) 1) 3 0
  | 1 => fld (rd d (17 + 4 * i) 1) 7 4
  | _ => fld (rd d (18 + 4 * i) 1) 3 0
def k (d : Bytes) (i : Nat) : F32 := BitVec.ofNat 32 (rd d (48 + 4 * i) 4)
/-- Record j: X0 to X3, P0, P1, Q0, Q1, Y, RD. -/
def opnd (d : Bytes) (j : Nat) : Opnd := ⟨rd d (80 + 8 * j) 4, rd d (84 + 8 * j) 3, rd d (87 + 8 * j) 1⟩
end Chain

/-- Formats of vector operands (R284). -/
def vecFmt (f : Nat) : Bool := [0, 2, 3, 4, 5, 10, 11].contains f

def elemW (fmt : Nat) : Nat := fmtBits fmt / 8

/-- The bytes of record j of a chain of R rows and E columns. -/
def opndRanges (j rows cols : Nat) (o : Opnd) : List Range :=
  if j = 4 ∨ j = 5 then [⟨o.off, cols * elemW o.fmt⟩]
  else if j = 6 ∨ j = 7 ∨ j = 9 then rowsRanges o.off rows o.stride (elemW o.fmt)
  else rowsRanges o.off rows o.stride (cols * elemW o.fmt)

/-- Number of sources that an operation uses; `none` when it is unassigned (R287). -/
def opArity (op : Nat) : Option Nat :=
  if op = 0 ∨ op = 7 ∨ op = 8 ∨ op = 13 then some 1
  else if op = 4 ∨ op = 10 ∨ op = 12 then some 3
  else if op ≤ 11 then some 2
  else if 0x20 ≤ op ∧ op ≤ 0x2B then some 1 else none

/-- Records in use: inputs that have a format, Y and RD when they are written. -/
def chainUsed (d : Bytes) : List Nat :=
  (List.range 8).filter (fun j => (Chain.opnd d j).fmt != 0xFF) ++ (if Chain.noy d then [] else [8]) ++ (if Chain.red d then [9] else [])

/-- Sources of a stage that its operation uses. -/
def stageSrcs (d : Bytes) (i : Nat) : List Nat := (List.range ((opArity (Chain.op d i)).getD 0)).map (Chain.src d i)

/-- The checks of R285 that lead to the illegal-operand trap. -/
def chainIllegal (addr : Nat) (d : Bytes) : Bool :=
  let st := List.range (Chain.nstage d)
  addr % 32 != 0 || decide (2 < Chain.ctype d) || fld (rd d 6 1) 7 4 != 0 || fld (rd d 7 1) 7 5 != 0 || !allZero (slice d 8 8)
    || Chain.redop d == 3 || decide (Chain.nstage d ≤ Chain.redstage d)
    || st.any (fun i => (opArity (Chain.op d i)).isNone || fld (rd d (18 + 4 * i) 1) 7 4 != 0 || rd d (19 + 4 * i) 1 != 0
      || (stageSrcs d i).any (fun c => (c == 0 && i == 0) || (decide (10 ≤ c) && decide (i ≤ c - 10))))

/-- Y overlaps an input otherwise than as the same operand (R289). -/
def chainOverlap (d : Bytes) : Bool :=
  let y := Chain.opnd d 8
  let r (j : Nat) : List Range := opndRanges j (Chain.rows d) (Chain.cols d) (Chain.opnd d j)
  !Chain.noy d && ((chainUsed d).filter (· < 8)).any (fun j =>
    let x := Chain.opnd d j
    meetAny (r 8) (r j) && !(decide (j < 4) && x.off == y.off && x.stride == y.stride && elemW x.fmt == elemW y.fmt))

/-- The checks of R285 in the order of its table. -/
def State.chainStat (s : State) (a : Site) (addr : Nat) (d : Bytes) : Nat :=
  let e := Chain.cols d
  let r := Chain.rows d
  let n := Chain.nstage d
  let used := chainUsed d
  let op (j : Nat) : Opnd := Chain.opnd d j
  firstBad ([failIf (e == 0 || decide (16384 < e) || r == 0 || decide (256 < r) || n == 0 || decide (8 < n)) ST_AR_SHAPE,
    failIf (used.any (fun j => !vecFmt (op j).fmt || (j == 9 && (op j).fmt != 10))
      || (List.range n).any (fun i => (stageSrcs d i).any (fun c => decide (1 ≤ c) && decide (c ≤ 8) && (op (c - 1)).fmt == 0xFF))) ST_AR_FORMAT,
    failIf (used.any (fun j => (op j).off % 4 != 0 || (j != 4 && j != 5 && (op j).stride % 4 != 0))) ST_AR_ALIGN]
    ++ used.flatMap (fun j => (opndRanges j r e (op j)).map (fun x => if j < 8 then s.readStat a x ST_AR_ALIGN else s.writeStat a x ST_AR_ALIGN))
    ++ [failIf (chainOverlap d) ST_AR_ALIGN, failIf (chainIllegal addr d) ST_ISA_OPERAND])

/-! ## Stages (R284, R286, R287) -/

/-- The compute type. -/
def ctFmt (c : Nat) : Fmt := if c = 1 then bf16 else if c = 2 then fp16 else fp32

/-- L (R278). -/
def lanesOf (c : Nat) : Nat := if c = 0 then 128 else 256

/-- A value rounded to the compute type, and OVF for a finite one that overflows. -/
def toType (f : Fmt) (v : Val) : Val × Nat :=
  let (b, o) := f.round v
  (f.decode b, flagIf o fOVF)

/-- RINT. -/
def rint : Val → Val
  | .fin s n d e => .fin s (roundToInt .even s n d e).natAbs 1 0
  | v => v

/-- The result of an operation, exact but for the special functions, and its flags. -/
def stageOp (op : Nat) (a b c : Val) : Val × Nat :=
  match op with
  | 0 => (a, 0)
  | 1 => (a.add b, 0)
  | 2 => (a.sub b, 0)
  | 3 => (a.mul b, 0)
  | 4 => (a.fma b c, 0)
  | 5 => (a.max b, 0)
  | 6 => (a.min b, 0)
  | 7 => (a.abs, 0)
  | 8 => (a.neg, 0)
  | 9 => (a.div b, flagIf (b.isZero && !a.isZero && !a.isNan) fOVF)
  | 10 => ((a.max b).min c, 0)
  | 11 => (if b.lt a then .one else .zero, 0)
  | 12 => (if !c.isZero ∧ !c.isNan then a else b, 0)
  | 13 => (rint a, 0)
  | n => sfn (n - 0x20) (toF32 a)

/-- A stage: the result rounded once, and flags. -/
def stageRun (f : Fmt) (op : Nat) (a b c : Val) : Val × Nat :=
  let (v, f1) := stageOp op a b c
  let (w, f2) := toType f v
  (w, f1 ||| f2 ||| flagIf w.isNan fNAN)

/-- An element of record j at row r and column e, as the engine reads it. -/
def State.opndElem (s : State) (a : Site) (d : Bytes) (j r e : Nat) : Val :=
  let o := Chain.opnd d j
  let w := elemW o.fmt
  let off := if j = 4 ∨ j = 5 then o.off + e * w else if j = 6 ∨ j = 7 then o.off + r * o.stride else o.off + r * o.stride + e * w
  elemVal o.fmt (leNat (s.ctxRead a.c a.k off w))

/-- A source of stage i: results so far are latest first. -/
def State.srcVal (s : State) (a : Site) (d : Bytes) (r e i : Nat) (res : List Val) (c : Nat) : Val × Nat :=
  let f := ctFmt (Chain.ctype d)
  if c = 0 then (res.headD .zero, 0)
  else if c ≤ 8 then toType f (s.opndElem a d (c - 1) r e)
  else if c = 9 then toType f (F32.val (Chain.k d i))
  else (res.reverse.getD (c - 10) .zero, 0)

/-- The stages of one element: results, latest first, and flags. -/
def State.elemRun (s : State) (a : Site) (d : Bytes) (r e : Nat) : List Val × Nat :=
  (List.range (Chain.nstage d)).foldl (fun (acc : List Val × Nat) i =>
    let l := (stageSrcs d i).map (s.srcVal a d r e i acc.1)
    let v (n : Nat) : Val := (l.getD n (.zero, 0)).1
    let (x, f) := stageRun (ctFmt (Chain.ctype d)) (Chain.op d i) (v 0) (v 1) (v 2)
    (x :: acc.1, acc.2 ||| f ||| (l.map (·.2)).foldl (· ||| ·) 0)) ([], 0)

/-! ## The reduction tree (R291) -/

/-- One level: neighbouring pairs are combined, and one without a partner passes up. -/
def treeLevel (f : α → α → α) : List α → List α
  | x :: y :: t => f x y :: treeLevel f t
  | l => l

/-- Eight levels leave one value of at most 256. -/
def treeOf (f : α → α → α) (l : List α) : Option α := (Nat.repeat (treeLevel f) 8 l).head?

/-- Groups of L in ascending order, each reduced by the tree. -/
def groupsOf (lanes : Nat) (f : α → α → α) (l : List α) : Option α :=
  let g := (chunks lanes l (ceilDiv l.length lanes)).filterMap (treeOf f)
  match g with
  | [] => none
  | x :: t => some (t.foldl f x)

/-- An FP32 value with the flags of the operations behind it. -/
abbrev FF := Val × Nat

/-- One reduction step: 0 SUM, 1 MAX, 2 MIN. -/
def redStep (op : Nat) (a b : FF) : FF :=
  let (v, f) := if op = 0 then toType fp32 (a.1.add b.1) else if op = 1 then (a.1.max b.1, 0) else (a.1.min b.1, 0)
  (v, a.2 ||| b.2 ||| f ||| flagIf v.isNan fNAN)

/-- A row reduced. -/
def redRow (lanes op : Nat) (l : List Val) : FF := (groupsOf lanes (redStep op) (l.map (fun v => (v, 0)))).getD (.zero, 0)

/-- The seed of the vector engine's generator (R293). -/
def vecSeed (at_ : Word) (cl : Nat) : BitVec 32 := srSeed at_ (1024 + cl)

def f32Of (v : Val) : Bytes := natLE 4 (toF32 v).toNat

/-- VCHAIN: every element through the stages; Y and RD. -/
def State.chainRun (s : State) (a : Site) (o : EngOp) : EngRes :=
  let d := o.desc
  let e := Chain.cols d
  let r := Chain.rows d
  let cells := (List.range r).map (fun i => (List.range e).map (s.elemRun a d i))
  let flags := (cells.flatMap (·.map (·.2))).foldl (· ||| ·) 0
  let y := Chain.opnd d 8
  let (bits, f1, _) := if Chain.noy d then ([], 0, none) else
    convertAll y.fmt (Chain.satfin d) (if Chain.sr d then some (vecSeed o.at_ a.k.cl) else none) (cells.flatMap (·.map (fun c => c.1.headD .zero)))
  let red := if Chain.red d then cells.map (fun row =>
    redRow (lanesOf (Chain.ctype d)) (Chain.redop d) (row.map (fun c => c.1.reverse.getD (Chain.redstage d) .zero))) else []
  let z := Chain.opnd d 9
  { writes := (if Chain.noy d then [] else (chunks e bits r).zipIdx.map (fun x => (y.off + x.2 * y.stride, rowOf y.fmt x.1)))
      ++ red.zipIdx.map (fun x => (z.off + x.2 * z.stride, f32Of x.1.1))
    flags := flags ||| f1 ||| (red.map (·.2)).foldl (· ||| ·) 0 }

/-! ## Tiles of the vector engine -/

/-- Rows and columns within R279. -/
def vecShape (t : Tile) : Nat :=
  failIf (t.rows == 0 || decide (256 < t.rows) || t.cols == 0 || decide (16384 < t.cols)) ST_AR_SHAPE

/-- The same operand (R289). -/
def sameTile (x y : Tile) : Bool := x.base == y.base && x.stride == y.stride && elemW x.fmt == elemW y.fmt

/-- Written ranges meet an input, otherwise than as the same operand. -/
def overlapStat (x y : Tile) : Nat :=
  failIf (!x.ringed && !y.ringed && meetAny x.range y.range && !sameTile x y) ST_AR_ALIGN

/-- The exact values of a tile's rows. -/
def State.tileVals (s : State) (a : Site) (t : Tile) (got : Bytes) : List (List Val) :=
  (List.range t.rows).map (fun r => (s.rowElems a t got r).map (elemVal t.fmt))

/-- The FP32 values of a tile's rows, and flags of the conversion (R284). -/
def State.tileF32 (s : State) (a : Site) (t : Tile) (got : Bytes) : List (List FF) :=
  (s.tileVals a t got).map (·.map (toType fp32))

/-- Output values converted into a tile. -/
def vecOut (t : Tile) (satfin sr : Bool) (at_ : Word) (cl : Nat) (rows : List (List Val)) (flags : Nat) : EngRes :=
  let (bits, f, _) := convertAll t.fmt satfin (if sr then some (vecSeed at_ cl) else none) rows.flatten
  .place t ⟨chunks t.cols bits t.rows, f ||| flags⟩

def flagsIn (l : List (List FF)) : Nat := (l.flatMap (·.map (·.2))).foldl (· ||| ·) 0

/-! ## VRED, VCVT and SFN (R295, R297) -/

/-- Checks of VRED. -/
def State.vredStat (s : State) (a : Site) (o : EngOp) : Nat :=
  let d := o.tile 0
  let x := o.tile 1
  firstBad [noRing d, tileRole a x true 4, vecShape x, failIf (d.cols != 1 || d.rows != x.rows) ST_AR_SHAPE,
    failIf (!vecFmt x.fmt || d.fmt != 10) ST_AR_FORMAT, s.tileStat a x 4 false, s.tileStat a d 4 true]

/-- VRED. -/
def State.vredRun (s : State) (a : Site) (o : EngOp) : EngRes :=
  let d := o.tile 0
  let x := s.tileF32 a (o.tile 1) o.got
  let nan := x.any (·.any (·.1.isNan))
  let r := x.map (fun row => redRow 128 (fnFld o.i 1 0) (row.map (·.1)))
  { writes := r.zipIdx.map (fun e => (d.base + e.2 * d.stride, f32Of e.1.1))
    flags := flagsIn x ||| flagIf nan fNAN ||| (r.map (·.2)).foldl (· ||| ·) 0 }

/-- Checks of VCVT and SFN, whose output has the shape of its input. -/
def State.mapStat (s : State) (a : Site) (o : EngOp) (rings : Bool) : Nat :=
  let d := o.tile 0
  let x := o.tile 1
  firstBad [if rings then tileRole a d false 4 else noRing d, if rings then tileRole a x true 4 else noRing x, vecShape x,
    failIf (d.rows != x.rows || d.cols != x.cols) ST_AR_SHAPE, failIf (!vecFmt x.fmt || !vecFmt d.fmt) ST_AR_FORMAT,
    s.tileStat a x 4 false, s.tileStat a d 4 true, overlapStat d x]

/-- VCVT: X0 × K0, rounded once. -/
def State.vcvtRun (s : State) (a : Site) (o : EngOp) : EngRes :=
  let k := if fnBit o.i 0 then Val.one else F32.val ((o.scalar 2).setWidth 32)
  vecOut (o.tile 0) (!fnBit o.i 2) (fnBit o.i 1) o.at_ a.k.cl ((s.tileVals a (o.tile 1) o.got).map (·.map (·.mul k))) 0

/-- SFN. -/
def State.sfnRun (s : State) (a : Site) (o : EngOp) : EngRes :=
  let x := s.tileF32 a (o.tile 1) []
  let y := x.map (·.map (fun v => sfn (fnFld o.i 3 0) (toF32 v.1)))
  vecOut (o.tile 0) (!fnBit o.i 5) (fnBit o.i 4) o.at_ a.k.cl (y.map (·.map (·.1))) (flagsIn x ||| flagsIn y)

/-! ## The soft maximum (R300 to R303) -/

/-- Offset of W, and of LEN when there is one. -/
def EngOp.smaxW (o : EngOp) : Nat :=
  (match o.kind with
  | .smaxM => o.scalar 0
  | .smaxE => o.scalar 4
  | _ => o.scalar 2).toNat

def EngOp.smaxLen (o : EngOp) : Option Nat := if fnBit o.i 0 then none else some (o.scalar 3).toNat

/-- Ranges of W and LEN. -/
def EngOp.wRange (o : EngOp) : Range := ⟨o.smaxW, 8 * (o.tile 1).rows⟩
def EngOp.lenRange (o : EngOp) : List Range := (o.smaxLen.map (fun l => (⟨l, 4 * (o.tile 1).rows⟩ : Range))).toList

/-- Length of row r. -/
def State.smaxLenOf (s : State) (a : Site) (o : EngOp) (r : Nat) : Int :=
  match o.smaxLen with
  | none => (o.tile 1).cols
  | some l => sext 32 (leNat (s.ctxRead a.c a.k (l + 4 * r) 4))

/-- Checks shared by the three passes: `out` is the tile written by SMAX.E and SMAX.D. -/
def State.smaxStat (s : State) (a : Site) (o : EngOp) : Nat :=
  let x := o.tile 1
  let d := o.tile 0
  let out := o.kind != .smaxM
  let w := o.wRange
  let wr := if o.kind = .smaxD then s.readStat a w ST_AR_ALIGN else s.writeStat a w ST_AR_ALIGN
  firstBad ([noRing x, if out then noRing d else ST_OK, vecShape x, if out then failIf (d.rows != x.rows || d.cols != x.cols) ST_AR_SHAPE else ST_OK,
    failIf (!vecFmt x.fmt || (o.kind == .smaxE && d.fmt != 10) || (o.kind == .smaxD && (x.fmt != 10 || !vecFmt d.fmt))) ST_AR_FORMAT,
    s.tileStat a x 4 false, if out then s.tileStat a d 4 true else ST_OK,
    failIf (w.off % 4 != 0 || o.lenRange.any (fun r => r.off % 4 != 0)) ST_AR_ALIGN, wr]
    ++ o.lenRange.map (fun r => s.readStat a r ST_AR_ALIGN)
    ++ [failIf (meetAny (x.range ++ (if out then d.range else [])) (w :: o.lenRange) || o.lenRange.any w.meets) ST_AR_ALIGN,
      failIf (out && meetAny d.range x.range && !(sameTile d x && x.fmt == 10 && d.fmt == 10)) ST_AR_ALIGN,
      failIf ((List.range x.rows).any (fun r => let n := s.smaxLenOf a o r; decide (n < 0) || decide ((x.cols : Int) < n))) ST_AR_SHAPE])

/-- z of a row below its length: τ × x rounded to FP32. -/
def State.smaxZ (s : State) (a : Site) (o : EngOp) : List (List FF) :=
  let tau := F32.val ((o.scalar 2).setWidth 32)
  (s.tileF32 a (o.tile 1) []).zipIdx.map (fun row =>
    (row.1.take (s.smaxLenOf a o row.2).toNat).map (fun v => let (z, f) := toType fp32 (tau.mul v.1); (z, f ||| v.2 ||| flagIf z.isNan fNAN)))

/-- SMAX.M. -/
def State.smaxMRun (s : State) (a : Site) (o : EngOp) : EngRes :=
  let z := s.smaxZ a o
  let m := z.map (fun row => match row with
    | [] => (Val.inf true)
    | v :: t => t.foldl (fun x y => x.max y.1) v.1)
  { writes := m.zipIdx.map (fun e => (o.smaxW + 8 * e.2, f32Of e.1)), flags := flagsIn z }

/-- e of one column (R302). -/
def smaxExp (m : F32) (z : Val) : FF :=
  match F32.val m with
  | .nan => (.nan, fNAN)
  | .inf true => (.zero, 0)
  | .inf false => (if z = .inf false then .one else .zero, 0)
  | .fin _ _ _ _ => expDiff (toF32 z) m

/-- SMAX.E. -/
def State.smaxERun (s : State) (a : Site) (o : EngOp) : EngRes :=
  let d := o.tile 0
  let z := s.smaxZ a o
  let e := z.zipIdx.map (fun row =>
    let m : F32 := BitVec.ofNat 32 (leNat (s.ctxRead a.c a.k (o.smaxW + 8 * row.2) 4))
    row.1.map (fun v => smaxExp m v.1))
  let sums := e.map (fun row => redRow 128 0 (row.map (·.1)))
  { writes := e.zipIdx.map (fun row => (d.base + row.2 * d.stride,
        (row.1.map (·.1) ++ List.replicate (d.cols - row.1.length) Val.zero).flatMap f32Of))
      ++ sums.zipIdx.map (fun x => (o.smaxW + 8 * x.2 + 4, f32Of x.1.1))
    flags := flagsIn z ||| flagsIn e ||| (sums.map (·.2)).foldl (· ||| ·) 0 }

/-- SMAX.D. -/
def State.smaxDRun (s : State) (a : Site) (o : EngOp) : EngRes :=
  let d := o.tile 0
  let t := s.tileVals a (o.tile 1) []
  let rows := t.zipIdx.map (fun row =>
    let sum := F32.val (BitVec.ofNat 32 (leNat (s.ctxRead a.c a.k (o.smaxW + 8 * row.2 + 4) 4)))
    let n := (s.smaxLenOf a o row.2).toNat
    (row.1.zipIdx.map (fun e => if n ≤ e.2 ∨ sum.isZero then Val.zero else if sum.isNan then .nan else e.1.div sum), sum.isZero))
  vecOut d (!fnBit o.i 2) (fnBit o.i 1) o.at_ a.k.cl (rows.map (·.1)) (flagIf (rows.any (·.2)) fMASKED)

/-! ## Normalisation statistics (R305 to R307) -/

def rnd (v : Val) : Val := F32.val (toF32 v)

/-- A lane of NORM.S: count, mean, sum of squared deviations. -/
structure NLane where
  c : Nat
  m : Val
  m2 : Val

/-- lane step(x). -/
def NLane.step (l : NLane) (x : Val) : NLane :=
  if l.c = 0 then ⟨1, x, .zero⟩
  else
    let c := l.c + 1
    let d := rnd (x.sub l.m)
    let m := rnd (l.m.add (rnd (d.div (.ofInt c))))
    let e := rnd (x.sub m)
    let inc := rnd (d.mul e)
    ⟨c, m, rnd (l.m2.add (if inc.lt .zero then .zero else inc))⟩

/-- merge(a, b). -/
def NLane.merge (a b : NLane) : NLane :=
  let c := a.c + b.c
  let d := rnd (b.m.sub a.m)
  let f := rnd ((Val.ofInt b.c).div (.ofInt c))
  let t := rnd ((rnd (d.mul d)).mul (rnd ((Val.ofInt a.c).mul f)))
  ⟨c, rnd (d.fma f a.m), rnd ((rnd (a.m2.add b.m2)).add t)⟩

/-- Elements of lane ℓ. -/
def laneElems (l : List Val) (lane : Nat) : List Val := (l.zipIdx.filter (fun e => e.2 % 128 == lane)).map (·.1)

/-- Mean, variance, and whether the variance was clamped: stable mode. -/
def normS (l : List Val) : Val × Val × Bool :=
  let lanes := (List.range (min 128 l.length)).map (fun i => (laneElems l i).foldl NLane.step ⟨0, .zero, .zero⟩)
  match treeOf NLane.merge lanes with
  | none => (.zero, .zero, false)
  | some r => (r.m, rnd (r.m2.div (.ofInt l.length)), false)

/-- Fast mode. -/
def normF (l : List Val) : Val × Val × Bool :=
  let lanes := (List.range (min 128 l.length)).map (fun i =>
    (laneElems l i).foldl (fun (r : Val × Val) x => (rnd (r.1.add x), rnd (x.fma x r.2))) (.zero, .zero))
  let sum (p : List Val) : Val := (treeOf (fun a b => rnd (a.add b)) p).getD .zero
  let n := Val.ofInt l.length
  let mu := rnd ((sum (lanes.map (·.1))).div n)
  let q := rnd ((sum (lanes.map (·.2))).div n)
  let v := rnd (mu.neg.fma mu q)
  if v.sign ∧ !v.isNan then (mu, .zero, true) else (mu, v, false)

/-- Checks of NORM. -/
def State.normStat (s : State) (a : Site) (o : EngOp) : Nat :=
  let x := o.tile 1
  let eps : F32 := (o.scalar 2).setWidth 32
  let r : Range := ⟨(o.scalar 0).toNat, 16 * x.rows⟩
  firstBad [noRing x, vecShape x, failIf (!vecFmt x.fmt || (F32.val eps).isNan || eps.msb) ST_AR_FORMAT, s.tileStat a x 4 false,
    failIf (r.off % 4 != 0) ST_AR_ALIGN, s.writeStat a r ST_AR_ALIGN]

/-- The statistics of one row: 16 bytes and flags. -/
def normRow (fast : Bool) (eps : Val) (row : List FF) : Bytes × Nat :=
  if row.any (fun v => !v.1.isFin) then (f32Of .nan ++ f32Of .nan ++ f32Of .nan ++ natLE 4 2, fNAN)
  else
    let (mu, v, cancel) := if fast then normF (row.map (·.1)) else normS (row.map (·.1))
    let (x, f) := toType fp32 (v.add eps)
    let (rstd, g) := sfn 5 (toF32 x)
    let nan := mu.isNan || v.isNan || rstd.isNan
    (f32Of mu ++ f32Of v ++ f32Of rstd ++ natLE 4 (b2n cancel + 2 * b2n nan),
      f ||| g ||| flagIf (!mu.isFin || !v.isFin || x.isZero) fOVF ||| flagIf nan fNAN ||| flagIf cancel fCANCEL)

/-- NORM.S and NORM.F. -/
def State.normRun (s : State) (a : Site) (o : EngOp) (fast : Bool) : EngRes :=
  let x := s.tileF32 a (o.tile 1) []
  let r := x.map (normRow fast (F32.val ((o.scalar 2).setWidth 32)))
  { writes := r.zipIdx.map (fun e => ((o.scalar 0).toNat + 16 * e.2, e.1.1)), flags := flagsIn x ||| (r.map (·.2)).foldl (· ||| ·) 0 }

/-! ## Issue (R369) -/

/-- Reads and writes of a vector instruction that names tiles. -/
def EngOp.vecRanges (o : EngOp) : List Range × List Range :=
  let d := (o.tile 0).ranges
  let x := (o.tile 1).ranges
  match o.kind with
  | .smaxM => (x ++ o.lenRange, [o.wRange])
  | .smaxE => (x ++ o.lenRange ++ [o.wRange], d ++ [o.wRange])
  | .smaxD => (x ++ o.lenRange ++ [o.wRange], d)
  | .normS | .normF => (x, [⟨(o.scalar 0).toNat, 16 * (o.tile 1).rows⟩])
  | _ => (x, d)

/-- Scalar registers that it reads. -/
def vecRegs (kind : EKind) (i : BWord) : List Nat :=
  let len := if fnBit i 0 then [] else [i.c]
  match kind with
  | .vcvt => if fnBit i 0 then [] else [i.b]
  | .smaxM => [i.d, i.b] ++ len
  | .smaxE => [i.b, (i.ext.getD 0).toNat % 32] ++ len
  | .smaxD => [i.b] ++ len
  | .normS | .normF => [i.d, i.b]
  | _ => []

/-- Issue of a vector or special-function instruction. -/
def State.issueVec (s : State) (cl : Nat) (i : BWord) (cls : EClass) (kind : EKind) : State :=
  s.issue cl i (vecRegs kind i) (fun a s =>
    let o := a.op s cls kind i [] []
    let (r, w) := o.vecRanges
    a.enqueue s { o with reads := r, writes := w })

/-- Ranges that a chain descriptor names, and the descriptor. -/
def chainRanges (addr : Nat) (d : Bytes) : List Range × List Range :=
  let r (j : Nat) : List Range := opndRanges j (Chain.rows d) (Chain.cols d) (Chain.opnd d j)
  (⟨addr, 160⟩ :: ((chainUsed d).filter (· < 8)).flatMap r, ((chainUsed d).filter (8 ≤ ·)).flatMap r)

/-- VCHAIN. -/
def execVchain (cl : Nat) (i : BWord) (s : State) : Outcome State Fault Refusal :=
  .next (s.issue cl i [i.a] (fun a s =>
    let off := a.addr i
    if (s.readAt a.c a.k off 160).isNone then .fault ST_ISA_RANGE 0
    else if s.ctxBad a.c a.k off 160 then .fail s ST_RAS_SRAM_UE
    else
      let d := s.ctxRead a.c a.k off 160
      let (r, w) := chainRanges off d
      a.enqueue s { a.op s .vec .vchain i r w with desc := d }))

/-- VRED. -/
def execVred (cl : Nat) (i : BWord) (s : State) : Outcome State Fault Refusal := .next (s.issueVec cl i .vec .vred)
/-- VCVT. -/
def execVcvt (cl : Nat) (i : BWord) (s : State) : Outcome State Fault Refusal := .next (s.issueVec cl i .vec .vcvt)
/-- SFN. -/
def execSfn (cl : Nat) (i : BWord) (s : State) : Outcome State Fault Refusal := .next (s.issueVec cl i .sfu .sfn)
/-- SMAX.M. -/
def execSmaxM (cl : Nat) (i : BWord) (s : State) : Outcome State Fault Refusal := .next (s.issueVec cl i .vec .smaxM)
/-- SMAX.E. -/
def execSmaxE (cl : Nat) (i : BWord) (s : State) : Outcome State Fault Refusal := .next (s.issueVec cl i .vec .smaxE)
/-- SMAX.D. -/
def execSmaxD (cl : Nat) (i : BWord) (s : State) : Outcome State Fault Refusal := .next (s.issueVec cl i .vec .smaxD)
/-- NORM.S. -/
def execNormS (cl : Nat) (i : BWord) (s : State) : Outcome State Fault Refusal := .next (s.issueVec cl i .vec .normS)
/-- NORM.F. -/
def execNormF (cl : Nat) (i : BWord) (s : State) : Outcome State Fault Refusal := .next (s.issueVec cl i .vec .normF)

end Sys2Proof.Machine
end

