-- ==== Sys2Proof/Machine/Ends.lean ====
section
/-! DEFINITION. ENGINE_INSTRUCTION_ENDS: what each engine does when an instruction ends, and what that leaves (R311, R318 to R320,
R322, R361 to R363). -/
namespace Sys2Proof.Machine

/-! ## The arrays, the vector engine and the special-function unit -/

/-- Checks of an instruction when it runs. -/
def State.engStat (s : State) (a : Site) (o : EngOp) : Nat :=
  match o.kind with
  | .rows => s.rowsStat a o
  | .mma => s.mmaStat a o
  | .conv1 => s.convStat a o
  | .ewa => s.ewaStat a o
  | .drain => s.drainStat a o
  | .vchain => s.chainStat a (o.scalar 1 + immOf o.i).toNat o.desc
  | .vred => s.vredStat a o
  | .vcvt => s.mapStat a o true
  | .sfn => s.mapStat a o false
  | .smaxM => s.smaxStat a o
  | .smaxE => s.smaxStat a o
  | .smaxD => s.smaxStat a o
  | .normS => s.normStat a o
  | .normF => s.normStat a o
  | _ => ST_OK

/-- What an instruction computes once its checks have passed and its rows are in. -/
def State.engRun (s : State) (a : Site) (o : EngOp) : EngRes × State :=
  match o.kind with
  | .rows => s.rowsRun a o
  | .mma => s.mmaRun a o
  | .conv1 => s.convRun a o
  | .ewa => s.ewaRun a o
  | .drain => s.drainRun a o
  | .vchain => (s.chainRun a o, s)
  | .vred => (s.vredRun a o, s)
  | .vcvt => (s.vcvtRun a o, s)
  | .sfn => (s.sfnRun a o, s)
  | .smaxM => (s.smaxMRun a o, s)
  | .smaxE => (s.smaxERun a o, s)
  | .smaxD => (s.smaxDRun a o, s)
  | .normS => (s.normRun a o false, s)
  | .normF => (s.normRun a o true, s)
  | _ => ({}, s)

/-- The tile whose rows come from a ring. -/
def EngOp.source (o : EngOp) : Option Tile :=
  let t := o.tile 1
  match o.kind with
  | .mma | .conv1 | .vred | .vcvt => if t.ringed then some t else none
  | _ => none

/-- An engine instruction ends with a status: its flags are ORed in, and a status other than ST_OK ends a launch that runs (R362,
R363, R368, R369). A fault of R380 is a trap. -/
def State.endEng (s : State) (a : Site) (o : EngOp) (st : Nat) : State :=
  let s1 := s.modOn a.c.id a.k.cl (fun k => { k with
    running := k.running.filter (fun x => !(x.id == o.id))
    aflags := if o.cls = .arr then k.aflags ||| o.flags else k.aflags
    vflags := if o.cls = .vec ∨ o.cls = .sfu then k.vflags ||| o.flags else k.vflags })
  if st = ST_OK ∨ a.c.st ≠ .running ∨ a.k.cancelled then s1
  else if st / 256 = 6 then s1.trap a.c.id a.k.cl o.pc st 0
  else s1.endLaunch a.c.id st

/-- Bytes that an instruction whose check failed twice has written are open (R272, R310). -/
def State.openWrites (s : State) : List (Nat × Bytes) → List (Nat × Bytes) × State
  | [] => ([], s)
  | (off, b) :: t =>
    let (f, s1) := s.freeBytes b.length
    let (r, s2) := State.openWrites s1 t
    ((off, f) :: r, s2)

/-- The accumulators of an instruction whose check failed for good are open (R272). -/
def State.openAcc (s : State) : Option Acc → Option Acc × State
  | none => (none, s)
  | some c => let (p, s1) := s.openParts c.parts; (some { c with parts := p }, s1)

/-- The output of an instruction goes to its ring as far as there is room; the instruction ends with its last slot. In a launch that is
cancelled it runs on while it finds slots, and ends where it would wait (R274, R326). A stream that was ended takes none (R318). -/
def State.toRing (s : State) (a : Site) (o : EngOp) (out : Bytes) : State :=
  let (s1, rest) := s.fillSlots a.c.id (o.tile 0) out out.length
  if rest.isEmpty then s1.endEng a o ST_OK
  else if s1.ringEnded a.c.id (o.tile 0).ring then s1.endEng a o ST_RING_ORDER
  else if a.k.cancelled then s1.endEng a o ST_OK
  else s1.modEng a.k.cl a.c.id o.id (fun x => { x with out := some rest, flags := o.flags })

/-- Apply what an instruction computed. -/
def State.applyRes (s : State) (a : Site) (o : EngOp) (r : EngRes) : State :=
  let o1 := { o with flags := o.flags ||| r.flags }
  let (w, s1) := if o.failed.isSome then s.openWrites r.writes else (r.writes, s)
  let s2 := w.foldl (fun s e => s.ctxWrite a.c a.k e.1 e.2) s1
  let (acc, s2b) := if o.failed.isSome then s2.openAcc r.acc else (r.acc, s2)
  let s3 := a.set s2b (fun k => { k with
    acc := match o.kind with
      | .mma | .conv1 => acc
      | .drain => none
      | _ => k.acc
    shadow := match o.kind with
      | .rows => r.shadow
      | .mma | .conv1 => none
      | _ => k.shadow })
  match o.failed, r.out with
  | some st, _ => s3.endEng a o1 st
  | none, some b => s3.toRing a o1 b
  | none, none => s3.endEng a o1 ST_OK

/-- An instruction of an array, the vector engine or the special-function unit goes on. -/
def State.unitEnds (s : State) (a : Site) (o : EngOp) : State :=
  match o.out with
  | some b => s.toRing a o b
  | none =>
    let st := s.engStat a o
    if st ≠ ST_OK then s.endEng a o st
    else if s.operandBad a o then s.endEng a o ST_RAS_SRAM_UE
    else
      match o.source with
      | none => let (r, s1) := s.engRun a o; s1.applyRes a o r
      | some t =>
        let n := elemBytes t.fmt t.cols
        if o.failed.isSome then
          let (b, s1) := s.freeBytes (t.rows * n - o.got.length)
          let o1 := { o with got := o.got ++ b }
          let (r, s2) := s1.engRun a o1
          s2.applyRes a o1 r
        else
          match (s.releaseHeld a.c.id t.ring).collect a.c.id t t.rows o.got (t.rows + 1) with
          | .full s1 got =>
            let o1 := { o with got := got }
            let (r, s2) := (s1.releaseHeld a.c.id t.ring).engRun a o1
            s2.applyRes a o1 r
          | .more s1 got =>
            if a.k.cancelled then s1.endEng a o ST_OK
            else s1.modEng a.k.cl a.c.id o.id (fun x => { x with got := got })
          | .bad s1 => s1.endEng a o ST_RAS_SRAM_UE

/-! ## The transfer engine, the rings and curtains, the look-up engine -/

/-- A MOVE has moved its last run, or has failed. -/
def State.moveEnds (s : State) (a : Site) (o : EngOp) : State :=
  match o.failed with
  | some st => (s.openMove a o).endEng a o st
  | none =>
    if o.status = ST_RING_ROLE then s.endEng a o o.status
    else if o.status ≠ ST_OK then (s.openMove a o).endEng a o o.status
    else if o.xfer.any (fun x => decide (x.mark < x.runs)) then s else s.endEng a o ST_OK

/-- A CHORUS ends when every copy has landed. -/
def State.chorusEnds (s : State) (a : Site) (o : EngOp) : State :=
  match o.failed with
  | some st => s.endEng a o st
  | none => if s.operandBad a o then s.endEng a o ST_RAS_SRAM_UE else (s.chorusRun a o).endEng a o ST_OK

/-- An ATOM ends with its old value in sD. -/
def State.atomEnds (s : State) (a : Site) (o : EngOp) : State :=
  match o.failed with
  | some st => s.endEng a o st
  | none =>
    match s.atomOld a o with
    | .wait s1 => s1
    | .fail s1 st => s1.endEng a o st
    | .bytes s1 b => (s1.atomRun a o b).endEng a o ST_OK

/-- A publish, a release or an arrival takes its turn after every earlier instruction of its prompter (R322, R328). An arrival at a
generation already arrived at waits until it opens (R330). -/
def State.ringEnds (s : State) (a : Site) (o : EngOp) : State :=
  if a.k.running.any (fun x => decide (x.id < o.id)) then s
  else if a.k.cancelled ∧ o.kind = .rpub then s.endEng a o ST_OK
  else if o.kind = .curtain then
    let n := curtainNo o.i
    if (a.c.curtain? n).any (fun u => a.k.lastGen n == some u.gen) then s else (s.arriveAt a.c.id a.k.cl n).endEng a o ST_OK
  else
    let fill := match a.c.ring? o.i.a with
      | some r => rpubFill o.i (o.scalar 2) r
      | none => 0
    match s.slotEvent a.c.id o.i.a (o.kind == .rrel) fill (fnBit o.i 0) with
    | some s1 => s1.endEng a o ST_OK
    | none => s.endEng a o ST_RING_ORDER

/-- A GATHER or POOL ends once its bags are complete; its status stands in its descriptor (R362). -/
def State.gpeEnds (s : State) (a : Site) (o : EngOp) : State :=
  match o.gpe with
  | none => s.endEng a o ST_OK
  | some num =>
    match s.lookupEnds (a.k.cl / 16) num with
    | (s1, true) => s1.endEng a o ST_OK
    | (s1, false) => s1

/-- The oldest instruction of its class goes on, and ends if it can. -/
def State.engEnds (s : State) (a : Site) (o : EngOp) : State :=
  match o.kind with
  | .gather | .pool => s.gpeEnds a o
  | .move => s.moveEnds a o
  | .chorus => s.chorusEnds a o
  | .atom => s.atomEnds a o
  | .rpub | .rrel | .curtain => s.ringEnds a o
  | _ => s.unitEnds a o

/-- ENGINE_INSTRUCTION_ENDS. -/
def execEngineInstructionEnds (cl ctx opId : Nat) (s : State) : Outcome State Fault Refusal :=
  .next (s.whenServing fun s =>
    match s.eng? cl ctx opId with
    | none => s
    | some (a, o) => if s.isHead cl o then (s.engEnds a o).settleCtx ctx else s)

end Sys2Proof.Machine
end

