-- ==== Sys2Proof/Machine/Control.lean ====
section
/-! DEFINITION. SAFE, YIELD, FENCE, TRAP and EXIT, the cancel of a launch, and instruction-cache misses (R363, R376 to R379, R384,
R425). -/
namespace Sys2Proof.Machine

/-! ## Safe points (R378, R425) -/

/-- The context has issued on the cluster for longer than QUANTUM_US. -/
def State.quantumOver (s : State) (k : ClCtx) : Bool :=
  let q := s.regF Reg.CFE_SCHED 15 0
  q != 0 && decide (k.since.toNat + us q < s.now)

/-- A context that may take over at a safe point: any other at YIELD; at SAFE one of higher priority, or of the same once the
quantum is over. -/
def State.mayTake (s : State) (c : Ctx) (k : ClCtx) (yield : Bool) (d : Ctx) : Bool :=
  d.id != c.id && (yield || decide (rank d.slot < rank c.slot) || (rank d.slot == rank c.slot && s.quantumOver k))

/-- A safe point: the deadline monitor acts, and the prompter may switch; a switch loses the accumulators (R261). -/
def atSafe (yield : Bool) (a : Site) (s : State) : State :=
  let cl := a.k.cl
  let s1 := (a.set s (fun k => { k with safes := k.safes + 1 })).monitor a.c.id
  match s1.engSite cl a.c.id with
  | none => s1
  | some b =>
    if !b.c.held b.k then s1
    else
      let s2 := s1.switchTo cl (s1.mayTake b.c b.k yield)
      if (s2.clusters[cl]?).any (·.ctx == a.c.id) then s2 else a.set s2 (fun k => { k with acc := none, shadow := none })

/-- Array, vector and special-function instructions of the context run. -/
def ClCtx.computing (k : ClCtx) : Bool := k.running.any (fun o => o.cls == .arr || o.cls == .vec || o.cls == .sfu)

/-- Issue of SAFE and YIELD. -/
def State.issueSafe (s : State) (cl : Nat) (i : BWord) (yield : Bool) : State :=
  s.issueWith cl i [] (atSafe yield) (fun _ s => s) (fun a s => if a.k.computing then .wait .issue else .safe s)

/-- SAFE. -/
def execSafe (cl : Nat) (i : BWord) (s : State) : Outcome State Fault Refusal := .next (s.issueSafe cl i false)
/-- YIELD. -/
def execYield (cl : Nat) (i : BWord) (s : State) : Outcome State Fault Refusal := .next (s.issueSafe cl i true)

/-! ## FENCE, TRAP, EXIT (R376, R377) -/

/-- FENCE. -/
def execFence (cl : Nat) (i : BWord) (s : State) : Outcome State Fault Refusal :=
  .next (s.issue cl i [] (fun a s =>
    let mask := fnFld i 4 0
    if a.k.running.any (fun o => fenceNames mask o.cls) then .wait (.fence mask) else .done s))

/-- TRAP. -/
def execTrap (cl : Nat) (i : BWord) (s : State) : Outcome State Fault Refusal :=
  .next (s.issue cl i [] (fun _ _ => .fault ST_ISA_USER_TRAP i.imm.toNat))

/-- A prompter that issued for a context takes another (R425). -/
def State.freePrompter (s : State) (cl id : Nat) : State :=
  (s.modCluster cl (fun u => if u.ctx = id then { u with running := false } else u)).repick cl

/-- The cluster's part of a launch is done; the launch ends with ST_OK when every cluster has come here (R377). -/
def atExit (a : Site) (s : State) : State :=
  let s1 := (a.set s (fun k => { k with exited := true, acc := none, shadow := none })).freePrompter a.k.cl a.c.id
  match s1.ctx? a.c.id with
  | none => s1
  | some c => if c.cls.all (·.exited) then s1.finishLaunch c.id else s1.abortDone c.id

/-- EXIT. -/
def execExit (cl : Nat) (i : BWord) (s : State) : Outcome State Fault Refusal :=
  .next (s.issueWith cl i [] (fun _ s => s) atExit (fun a s => if a.k.running.isEmpty then .exit s else .wait .issue))

/-! ## Cancel (R102, R274, R311, R326, R363) -/

/-- An instruction that runs on to its end after a cancel: one in progress that is neither a MOVE nor waits for a ring. The look-up
engine's are stopped by their own cancel. -/
def State.runsOn (s : State) (c : Ctx) (k : ClCtx) (o : EngOp) : Bool :=
  o.cls == .lk || (s.isHead k.cl o && o.cls != .ring && o.kind != .move
    && !(c.sides o).any c.blocked)

/-- A cancel of the launch is on its way, or has come: of its failure or swap, or of the abort of its queue. -/
def Ctx.toCancel (c : Ctx) : Bool := decide (c.st = .cancelling) || (c.aborting && decide (c.st = .running))

/-- CANCEL reaches the prompter and the engines of a cluster. One of a queue's abort that finds the cluster at work takes the launch's
record away (R435). -/
def execCancel (ctx cl : Nat) (s : State) : Outcome State Fault Refusal :=
  .next (s.whenServing fun s =>
    match s.ctx? ctx with
    | none => s
    | some c =>
      if !c.toCancel then s
      else
        match c.on? cl with
        | none => s.settleCtx ctx
        | some k =>
          let gone := k.running.filter (fun o => !s.runsOn c k o)
          let s1 := s.modOn ctx cl (fun x => { x with
            acked := true
            cancelled := true
            wait := none
            running := k.running.filter (s.runsOn c k)
            cutTe := x.cutTe || gone.any (·.cls == .te) })
          let s2 := (s1.dropWaits (fun w => gone.any (fun o => w == .te cl ctx o.id))).modCtx ctx (fun c => { c with
            aborted := c.aborted || (c.aborting && !k.exited) })
          (s2.freePrompter cl ctx).abortDone ctx)

/-- CANCEL_AT_GPE: the operations of a cancelled launch are abandoned, and the GPE acknowledges. -/
def execCancelAtGpe (die ctx : Nat) (s : State) : Outcome State Fault Refusal :=
  .next (s.whenServing fun s =>
    match s.ctx? ctx, s.gpes[die]? with
    | some c, some g =>
      if !c.toCancel ∨ c.die ≠ die then s
      else
        let mine := g.ops.filter (fun o => o.ctx == ctx && o.abandoned.isNone)
        let stop (s : State) (o : GpeOp) : State :=
          let s1 := if o.bags.all (·.done) then s else s.opFail die o.num ST_LK_CANCELLED
          let s2 := (o.bags.filter (!·.done)).foldl (fun s b => s.bagDone die o.num b.num true) s1
          match s2.gpeOp? die o.num with
          | none => s2
          | some o2 => (s2.writeStatus o2).modGpeOp die o.num (fun o => { o with abandoned := some s.time.gtime, bags := [] })
        ((mine.foldl stop s).modCtx ctx (fun c => { c with
          gpeAck := true
          aborted := c.aborted || (c.aborting && !mine.isEmpty)
          cls := c.cls.map (fun k => { k with
            cutGpe := k.cutGpe || mine.any (fun o => o.cl == k.cl && !o.bags.all (·.done))
            running := k.running.filter (fun o => !(o.cls == .lk)) }) })).abortDone ctx
    | _, _ => s)

/-! ## Instruction fetch (R384) -/

/-- ICACHE_MISS_FILL: the miss is counted, and issue resumes. Words of an uncorrectable granule are fetched again from the script store of
another compute die (R476). -/
def execIcacheMissFill (f : FetchIn) (s : State) : Outcome State Fault Refusal :=
  .next (s.whenServing fun s =>
    if (s.site? f.cl).isNone ∨ f.stack / 2 ≠ f.cl / 16 then s
    else
      let s1 := s.count (Reg.CL_ICMISS f.cl) 1
      match healthOf f.health with
      | .good => s1
      | .corrected => s1.memCorrected f.stack (f.granule / 8 % 32) f.granule
      | .uncorrectable => s1.memUncorrectable f.stack (f.granule / 8 % 32) f.granule)

end Sys2Proof.Machine
end

