-- ==== Sys2Proof/Machine/Image.lean ====
section
/-! DEFINITION. Script images: the edition header, programs, records and buffers, and the checks that an image passes before it
becomes an edition (R313 to R315, R327, R336, R337, R355 to R358, R381 to R384). -/
namespace Sys2Proof.Machine

/-! ## The edition header (R381) -/

namespace Img
def clusters (b : Bytes) : Nat := rd b 12 1
def nprog (b : Bytes) : Nat := rd b 13 1
def nring (b : Bytes) : Nat := rd b 14 1
def ncurt (b : Bytes) : Nat := rd b 15 1
def ntable (b : Bytes) : Nat := rd b 16 1
def nbuf (b : Bytes) : Nat := rd b 17 1
def understudy (b : Bytes) : Nat := rd b 18 2
def argOff (b : Bytes) : Nat := rd b 28 4
def clprog (b : Bytes) (i : Nat) : Nat := rd b (64 + i) 1
/-- Places of the tables: offset, bytes of an entry, entries. -/
def progOff (b : Bytes) : Nat := rd b 80 4
def ringOff (b : Bytes) : Nat := rd b 84 4
def curtOff (b : Bytes) : Nat := rd b 88 4
def bufOff (b : Bytes) : Nat := rd b 92 4
def ring (b : Bytes) (i : Nat) : Bytes := slice b (ringOff b + 32 * i) 32
def curt (b : Bytes) (i : Nat) : Bytes := slice b (curtOff b + 8 * i) 8
def buf (b : Bytes) (i : Nat) : Bytes := slice b (bufOff b + 16 * i) 16
def prog (b : Bytes) (i : Nat) : Bytes := slice b (progOff b + 16 * i) 16
/-- Words of program i. -/
def words (b : Bytes) (i : Nat) : List Nat := (List.range (rd (prog b i) 4 4)).map (fun j => rd b (rd (prog b i) 0 4 + 8 * j) 8)
/-- Word index at which program i is entered. -/
def entry (b : Bytes) (i : Nat) : Nat := rd (prog b i) 8 4
end Img

/-- A failed check: status, and WORD of ISA_LOAD_ERR (R387). -/
abbrev Bad := Option (Nat × Nat)

/-- WORD of a failure in the header. -/
abbrev inHeader : Nat := 0xFFFFFFFF

/-- The first failure of a list of checks. -/
def firstFail : List Bad → Bad
  | [] => none
  | some x :: _ => some x
  | none :: t => firstFail t

/-- A check that fails on a condition. -/
def badIf (c : Bool) (st word : Nat) : Bad := if c then some (st, word) else none

/-- The header is as R381 has it, with both CRCs. -/
def headerOk (b : Bytes) (bytes : Nat) : Bool :=
  let n := rd b 8 4
  let k := Img.clusters b
  let frame := frameBytes b
  let shared := sharedBytes b
  decide (128 ≤ b.length) && rd b 0 4 == 0x53414253 && rd b 4 2 == 1 && allZero (slice b 6 2)
    && n == bytes && n == b.length && n % 8 == 0 && decide (n ≤ 4194304)
    && decide (1 ≤ k) && decide (k ≤ 16) && decide (1 ≤ Img.nprog b) && decide (Img.nprog b ≤ 16) && decide (Img.nring b ≤ 8)
    && decide (Img.ncurt b ≤ 8) && decide (Img.ntable b ≤ 16) && decide (Img.nbuf b ≤ 64)
    && frame % 32768 == 0 && decide (32768 ≤ frame) && shared % 32768 == 0 && decide (shared ≤ 4194304)
    && decide (frame + shared ≤ scrSize) && decide (Img.argOff b < frame)
    && allZero (slice b (32 + 2 * Img.ntable b) (32 - 2 * Img.ntable b)) && allZero (slice b (64 + k) (16 - k)) && allZero (slice b 96 24)
    && crc32c (b.drop 128) == rd b 120 4 && crc32c (b.take 124) == rd b 124 4

/-! ## Tables, programs and buffers (R382, R383) -/

/-- A table reaches outside the image. -/
def tableBad (b : Bytes) (off size n : Nat) : Bad := badIf (n != 0 && decide (b.length < off + size * n)) ST_ISA_IMG_FORMAT (off / 8)

/-- A program-table entry. -/
def progBad (b : Bytes) (i : Nat) : Bad :=
  let p := Img.prog b i
  let code := rd p 0 4
  let n := rd p 4 4
  badIf (code % 8 != 0 || n == 0 || decide (131072 < n) || decide (n ≤ rd p 8 4) || !allZero (slice p 12 4) || decide (b.length < code + 8 * n))
    ST_ISA_IMG_FORMAT ((Img.progOff b + 16 * i) / 8)

/-- A buffer record: offset, bytes, image offset of its contents, clusters, flags. -/
structure Buf where
  off : Nat
  bytes : Nat
  init : Option Nat
  mask : Nat
  zero : Bool
  shared : Bool

def bufOf (r : Bytes) : Buf where
  off := rd r 0 4
  bytes := rd r 4 4
  init := if rd r 8 4 = 0xFFFFFFFF then none else some (rd r 8 4)
  mask := rd r 12 2
  zero := (rd r 14 1).testBit 0
  shared := (rd r 14 1).testBit 1

def Img.bufs (b : Bytes) : List Buf := (List.range (Img.nbuf b)).map (fun i => bufOf (Img.buf b i))

/-- Two buffers of one cluster index overlap. -/
def Buf.meets (x y : Buf) : Bool :=
  x.shared == y.shared && x.mask &&& y.mask != 0 && decide (x.off < y.off + y.bytes) && decide (y.off < x.off + x.bytes)

/-- A buffer record breaks R383, reaches outside, or overlaps an earlier one. -/
def bufBad (b : Bytes) (i : Nat) : Bad :=
  let r := Img.buf b i
  let x := bufOf r
  let (lo, hi) := if x.shared then (sharedStart, sharedStart + sharedBytes b) else (0, frameBytes b)
  badIf (x.off % 32 != 0 || x.bytes % 32 != 0 || rd r 14 1 / 4 != 0 || rd r 15 1 != 0 || decide (x.off < lo) || decide (hi < x.off + x.bytes)
      || x.init.any (fun a => decide (b.length < a + x.bytes)) || ((Img.bufs b).take i).any x.meets)
    ST_ISA_IMG_FORMAT ((Img.bufOff b + 16 * i) / 8)

/-- The second row of R384. -/
def layoutBad (b : Bytes) : Bad :=
  firstFail ((List.range (Img.clusters b)).map (fun i => badIf (decide (Img.nprog b ≤ Img.clprog b i)) ST_ISA_IMG_FORMAT inHeader)
    ++ [tableBad b (Img.progOff b) 16 (Img.nprog b), tableBad b (Img.ringOff b) 32 (Img.nring b), tableBad b (Img.curtOff b) 8 (Img.ncurt b),
      tableBad b (Img.bufOff b) 16 (Img.nbuf b)]
    ++ (List.range (Img.nprog b)).map (progBad b) ++ (List.range (Img.nbuf b)).map (bufBad b))

/-! ## Instruction words (R355 to R358, R384) -/

/-- What a word may hold: the sizes of the files that D, A, B and C name (1 for an unused field, which is zero), the FN bits that
have a meaning, and whether its word is extended: 0 never, 1 if it likes, 2 always. -/
structure Form where
  d : Nat
  a : Nat
  b : Nat
  c : Nat
  mask : Nat
  ext : Nat

/-- The form of an opcode with some FN; `none` where the opcode or the FN value is unassigned. -/
def formOf (op fn : Nat) : Option Form :=
  let i := fn.testBit 0
  if op ≤ 0x07 then some ⟨32, 32, if i then 1 else 32, 1, if op = 0x07 then 3 else 1, 0⟩
  else
    match op with
    | 0x08 => if fld fn 3 1 ≤ 5 then some ⟨8, 32, if i then 1 else 32, 1, 15, 0⟩ else none
    | 0x09 => some ⟨32, 32, 32, 8, 0, 0⟩
    | 0x0A => some ⟨32, 1, 1, 1, 0, 1⟩
    | 0x0B => some (if fn.testBit 3 then ⟨32, 1, 1, 1, 8, 0⟩ else ⟨32, 32, 1, 1, 7, 0⟩)
    | 0x0C => some (if fn.testBit 3 then ⟨1, 1, 32, 1, 8, 0⟩ else ⟨1, 32, 32, 1, 3, 0⟩)
    | 0x0D => some ⟨1, 1, 1, 1, 0, 0⟩
    | 0x0E => if fld fn 3 1 ≤ 5 then some ⟨1, 32, 32, 1, 14, 0⟩ else none
    | 0x0F => some ⟨1, 1, 1, 1, 0, 0⟩
    | 0x10 => some ⟨1, 1, 1, 1, 0, 0⟩
    | 0x11 => some ⟨1, 32, 1, 1, 0, 0⟩
    | 0x20 => some ⟨16, 32, 1, 1, 0, 0⟩
    | 0x21 => if fn ≤ 6 then some ⟨16, 32, 1, 1, 7, 0⟩ else none
    | 0x22 => some ⟨16, 32, 1, 1, 1, 0⟩
    | 0x28 => some ⟨1, 16, 16, 1, 0, 0⟩
    | 0x29 => some ⟨1, 16, 16, 1, 1, 0⟩
    | 0x2A => some ⟨1, 16, 16, 1, 3, 2⟩
    | 0x2B => if fld fn 2 0 ≤ 6 then some ⟨16, 16, 16, if fld fn 2 0 = 4 then 32 else 16, 31, 0⟩ else none
    | 0x2C => some ⟨16, 32, 32, 1, 7, 0⟩
    | 0x38 => some ⟨1, 32, 1, 1, 0, 0⟩
    | 0x39 => if fld fn 1 0 ≤ 2 then some ⟨16, 16, 1, 1, 3, 0⟩ else none
    | 0x3A => some ⟨16, 16, 32, 1, 7, 0⟩
    | 0x40 => if fld fn 3 0 ≤ 11 then some ⟨16, 16, 1, 1, 63, 0⟩ else none
    | 0x41 => some ⟨32, 16, 32, 32, 1, 0⟩
    | 0x42 => some ⟨16, 16, 32, 32, 1, 2⟩
    | 0x43 => some ⟨16, 16, 32, 32, 7, 0⟩
    | 0x44 => some ⟨32, 16, 32, 1, 0, 0⟩
    | 0x45 => some ⟨32, 16, 32, 1, 0, 0⟩
    | 0x48 => some ⟨1, 32, 32, 1, 0, 0⟩
    | 0x49 => some ⟨1, 32, 1, 1, 0, 0⟩
    | 0x4A => some ⟨1, 32, 1, 1, 0, 0⟩
    | 0x50 => some ⟨1, 32, 1, 1, 0, 0⟩
    | 0x51 => some ⟨32, 32, 32, 32, 0, 0⟩
    | 0x52 => if fld fn 2 0 ≤ 4 then some ⟨32, 32, 32, 32, 255, 0⟩ else none
    | 0x58 => some ⟨32, 8, 1, 8, 3, 0⟩
    | 0x59 => some ⟨1, 8, 32, 1, 3, 0⟩
    | 0x5A => some ⟨1, 8, 1, 1, 0, 0⟩
    | 0x5B => some ⟨1, 1, 1, 1, 15, 0⟩
    | 0x5C => some ⟨1, 1, 1, 1, 7, 0⟩
    | 0x5D => some ⟨32, 8, 1, 8, 0, 0⟩
    | 0x60 => some ⟨1, 1, 1, 1, 0, 0⟩
    | 0x61 => some ⟨1, 1, 1, 1, 0, 0⟩
    | 0x62 => some ⟨1, 1, 1, 1, 31, 0⟩
    | 0x63 => some ⟨1, 1, 1, 1, 0, 0⟩
    | 0x64 => some ⟨1, 1, 1, 1, 0, 0⟩
    | _ => none

/-- Bits of an extension word that are zero: above bit 19 for CONV1, above bit 4 for SMAX.E. -/
def extOk (op ext : Nat) : Bool :=
  match op with
  | 0x2A => ext / 2 ^ 20 == 0
  | 0x42 => ext / 2 ^ 5 == 0
  | _ => true

/-- A word and the one after it, if the program has one, make a well-formed instruction. -/
def wordOk (w : Nat) (next : Option Nat) : Bool :=
  let op := fld w 62 56
  let fn := fld w 31 24
  let x := w.testBit 63
  match formOf op fn with
  | none => false
  | some f =>
    fn &&& (255 - f.mask) == 0 && decide (fld w 51 47 < f.d) && decide (fld w 46 42 < f.a) && decide (fld w 41 37 < f.b)
      && decide (fld w 36 32 < f.c) && (if x then f.ext != 0 && next.any (extOk op) else f.ext != 2)

/-- An instruction of a program: index of its first word, that word, and how many it has. -/
structure Ins where
  pc : Nat
  w : Nat
  size : Nat

def Ins.op (i : Ins) : Nat := fld i.w 62 56
def Ins.fn (i : Ins) : Nat := fld i.w 31 24
def Ins.imm (i : Ins) : Int := sext 24 i.w
/-- It has a guard that may be false. -/
def Ins.guarded (i : Ins) : Bool := fld i.w 55 52 != 0

/-- The instructions of a program up to its first ill-formed word, and that word. -/
def scan : Nat → Nat → List Nat → List Ins × Option Nat
  | 0, _, _ => ([], none)
  | _, _, [] => ([], none)
  | f + 1, pc, w :: t =>
    if wordOk w t.head? then
      let size := if w.testBit 63 then 2 else 1
      let (l, bad) := scan f (pc + size) (t.drop (size - 1))
      (⟨pc, w, size⟩ :: l, bad)
    else ([], some pc)

def Img.code (b : Bytes) (i : Nat) : List Ins × Option Nat := scan (Img.words b i).length 0 (Img.words b i)

/-- Image word of word j of program i. -/
def Img.wordAt (b : Bytes) (i j : Nat) : Nat := rd (Img.prog b i) 0 4 / 8 + j

/-- An ill-formed word of program i, or an entry that is the second word of a pair. -/
def wordsBad (b : Bytes) (i : Nat) : Bad :=
  match Img.code b i with
  | (_, some pc) => some (ST_ISA_IMG_VERIFY, Img.wordAt b i pc)
  | (l, none) => badIf (!l.any (·.pc == Img.entry b i)) ST_ISA_IMG_VERIFY (Img.wordAt b i (Img.entry b i))

/-! ## Control flow (R365, R366, R384) -/

/-- Where a BR, BRC or CALL goes, and where a LOOP goes past its body. -/
def Ins.target (i : Ins) : Option Int :=
  match i.op with
  | 0x0D | 0x0E | 0x0F => some (i.pc + i.imm)
  | 0x11 => some (i.pc + i.imm + 1)
  | _ => none

/-- The body of a LOOP: first and last word. -/
def Ins.body (i : Ins) : Option (Int × Int) := if i.op = 0x11 then some (i.pc + 1, i.pc + i.imm) else none

def inside (p : Int) (l : Int × Int) : Bool := decide (l.1 ≤ p) && decide (p ≤ l.2)

/-- An instruction of a program breaks the control-flow rules: its target is no first word of the program, its body is empty or
crosses another, or it enters a body from outside. -/
def Ins.flowBad (l : List Ins) (i : Ins) : Bool :=
  let bodies := l.filterMap Ins.body
  let crosses (x y : Int × Int) : Bool := inside (x.1 - 1) y && decide (y.2 < x.2)
  i.target.any (fun t => !l.any (fun j => (j.pc : Int) == t) || bodies.any (fun y => inside t y && !inside i.pc y))
    || i.body.any (fun x => decide (x.2 < x.1) || bodies.any (crosses x))

def flowBad (b : Bytes) (i : Nat) : Bad :=
  let l := (Img.code b i).1
  (l.find? (Ins.flowBad l)).map (fun j => (ST_ISA_IMG_VERIFY, Img.wordAt b i j.pc))

/-! ## Ring and curtain records (R313 to R315, R327, R332, R337) -/

/-- The ring that a record declares, at a launch's start (R316). -/
def ringOf (r : Bytes) : Ring where
  reg := rd r 11 1 % 8
  base := rd r 0 4
  slotBytes := rd r 4 4
  slots := rd r 8 2
  mode := rd r 10 1
  prod := rd r 12 1
  cons := rd r 13 1
  home := rd r 14 1 % 16
  prodSide := rd r 15 1 % 16
  consSide := rd r 15 1 / 16
  period := rd r 16 4
  lead := rd r 20 4
  pacq := 0
  relN := 0
  pub := 0
  cacq := 0
  rel := 0
  pubs := []
  endPub := false
  endLast := false
  misses := 0
  worst := 0
  dueNext := 0
  taken := none

def Img.rings (b : Bytes) : List Ring := (List.range (Img.nring b)).map (fun i => ringOf (Img.ring b i))

/-- The curtain that a record declares. -/
def curtainOf (r : Bytes) : Curtain := ⟨rd r 0 1 % 16, rd r 1 1, 0, 0⟩

def Img.curtains (b : Bytes) : List Curtain := (List.range (Img.ncurt b)).map (fun i => curtainOf (Img.curt b i))

/-- Two records name one ring register, or two rings of one home overlap. -/
def Ring.conflicts (x y : Ring) : Bool :=
  x.reg == y.reg || (x.home == y.home && decide (x.base < y.base + y.slots * y.slotBytes) && decide (y.base < x.base + x.slots * x.slotBytes))

def ringBad (b : Bytes) (i : Nat) : Bad :=
  let r := Img.ring b i
  let x := ringOf r
  let n := Img.clusters b
  badIf (x.base % 32 != 0 || x.slotBytes % 32 != 0 || decide (x.slotBytes < 32) || decide (1048576 < x.slotBytes)
      || decide (x.slots < 3) || decide (256 < x.slots) || decide (frameBytes b < x.base + x.slots * x.slotBytes)
      || decide (2 < x.mode) || decide (8 ≤ rd r 11 1) || decide (5 < x.prod) || !([0, 1, 3, 4].contains x.cons)
      || decide (16 ≤ rd r 14 1) || decide (n ≤ x.home) || decide (n ≤ x.prodSide) || decide (n ≤ x.consSide)
      || (if x.mode = 0 then x.period != 0 || x.lead != 0 else decide (x.period < 4000)) || !allZero (slice r 24 8)
      || ((Img.rings b).take i).any x.conflicts)
    ST_RING_DECL ((Img.ringOff b + 32 * i) / 8)

def curtBad (b : Bytes) (i : Nat) : Bad :=
  let r := Img.curt b i
  badIf (decide (16 ≤ rd r 0 1) || decide (Img.clusters b ≤ rd r 0 1) || rd r 1 1 == 0 || decide (64 < rd r 1 1) || !allZero (slice r 2 6))
    ST_RING_DECL ((Img.curtOff b + 8 * i) / 8)

/-! ## The wait graph (R336) -/

/-- Engine class of an instruction. -/
def Ins.cls (i : Ins) : Option EClass :=
  let op := i.op
  if 0x28 ≤ op ∧ op ≤ 0x2C then some .arr
  else if (0x38 ≤ op ∧ op ≤ 0x3A) ∨ (0x41 ≤ op ∧ op ≤ 0x45) then some .vec
  else if op = 0x40 then some .sfu
  else if op = 0x49 ∨ op = 0x4A then some .lk
  else if 0x50 ≤ op ∧ op ≤ 0x52 then some .te
  else if 0x58 ≤ op ∧ op ≤ 0x5D then some .ring
  else none

/-- Driver code (R315) of an engine instruction that may drive rings. -/
def Ins.driver (i : Ins) : Option Nat :=
  match i.cls with
  | some .te => if i.op = 0x50 then some 1 else none
  | some .lk => some 2
  | some .arr => some 3
  | some .vec => some 4
  | some .sfu => some 4
  | _ => none

/-- Rings whose side an instruction is taken to drive, on the cluster indices that run its program. -/
def Ins.drives (rings : List Ring) (idx : List Nat) (cons : Bool) (i : Ins) : List Nat :=
  match i.driver with
  | none => []
  | some d => (rings.filter (fun r => if cons then r.cons == d && idx.contains r.consSide else r.prod == d && idx.contains r.prodSide)).map (·.reg)

/-- Classes whose earlier instructions an instruction waits for. -/
def Ins.awaits (i : Ins) : EClass → Bool :=
  match i.op with
  | 0x62 => fenceNames i.fn
  | 0x60 | 0x61 => fun e => e == .arr || e == .vec || e == .sfu
  | 0x64 | 0x59 | 0x5A | 0x5B => fun _ => true
  | _ => fun e => i.cls == some e

/-- Where control may go after an instruction. One that control passes at the end of a loop's body may close an iteration (R366). -/
def Ins.next (l : List Ins) (i : Ins) : List Nat :=
  let on := i.pc + i.size
  let to_ : List Nat := (i.target.map (fun t => [t.toNat])).getD []
  let fall : List Nat := if i.guarded then [on] else []
  let own : List Nat := match i.op with
    | 0x0D | 0x0F => to_ ++ fall
    | 0x0E | 0x11 => on :: to_
    | 0x10 => (l.filter (·.op == 0x0F)).map (fun j => j.pc + j.size) ++ fall
    | 0x63 | 0x64 => fall
    | _ => [on]
  if own.contains on then own ++ l.filterMap (fun j => j.body.bind (fun b => if b.2 = (on : Int) - 1 then some b.1.toNat else none))
  else own

/-- Instructions that control may reach from some words. -/
def reachFrom (l : List Ins) : Nat → List Nat → List Nat → List Nat
  | 0, seen, _ => seen
  | _, seen, [] => seen
  | f + 1, seen, q :: t =>
    if seen.contains q then reachFrom l f seen t
    else match l.find? (·.pc == q) with
      | some i => reachFrom l f (q :: seen) (i.next l ++ t)
      | none => reachFrom l f seen t

def Ins.reach (l : List Ins) (i : Ins) : List Nat := reachFrom l ((l.length + 1) * (l.length + 3)) [] (i.next l)

/-- Rings that get a signal of an instruction itself: those it drives, and that of an RPUB or RREL. -/
def Ins.own (drives : Ins → List Nat) (i : Ins) : List Nat := drives i ++ (if i.op = 0x59 ∨ i.op = 0x5A then [fld i.w 46 42] else [])

/-- Rings that get a signal at an instruction: its own, and those of the earlier operations it waits for. -/
def Ins.signals (l : List Ins) (drives : Ins → List Nat) (i : Ins) : List Nat :=
  i.own drives ++ (l.filter (fun j => j.cls.any i.awaits && !(j.own drives).isEmpty && (j.reach l).contains i.pc)).flatMap (Ins.own drives)

/-- Edges Y → X of a program: a signal of Y can wait for X. -/
def progEdges (rings : List Ring) (idx : List Nat) (l : List Ins) : List (Nat × Nat) :=
  let drives (i : Ins) : List Nat := i.drives rings idx false ++ i.drives rings idx true
  let acq := l.filter (fun i => i.op == 0x58 && !i.fn.testBit 1)
  let paths := acq.flatMap (fun i =>
    let x := fld i.w 46 42
    let after := i.reach l
    ((l.filter (fun j => after.contains j.pc)).flatMap (Ins.signals l drives)).map (fun y => (y, x)))
  let ops := l.flatMap (fun i => (i.drives rings idx false).flatMap (fun y => (i.drives rings idx true).map (fun x => (y, x))))
  paths ++ ops

/-- The wait graph: the edges of the program of each cluster index, which drives the sides that name that cluster. -/
def waitEdges (b : Bytes) : List (Nat × Nat) :=
  let rings := Img.rings b
  let regs := rings.map (·.reg)
  ((List.range (Img.clusters b)).flatMap (fun i => progEdges rings [i] (Img.code b (Img.clprog b i)).1)).filter
      (fun e => e.1 != e.2 && regs.contains e.1 && regs.contains e.2) |>.eraseDups

/-- A cycle met from a vertex along a path. -/
def cycleFrom (edges : List (Nat × Nat)) : Nat → List Nat → Nat → Option (List Nat)
  | 0, _, _ => none
  | f + 1, path, v =>
    if path.contains v then some (v :: path.takeWhile (· != v))
    else ((List.range 8).filter (fun x => edges.contains (v, x))).findSome? (cycleFrom edges f (v :: path))

/-- The first cycle of the wait graph: its rings. -/
def waitCycle (b : Bytes) : Option (List Nat) :=
  let e := waitEdges b
  (List.range 8).findSome? (cycleFrom e 9 [])

/-! ## The whole check (R384, R409, R478) -/

/-- An understudy suits a script (R384). -/
def suits (img us : Bytes) : Bool :=
  decide (Img.clusters us ≤ Img.clusters img) && Img.argOff us == Img.argOff img && Img.understudy us == 0xFFFF

/-- The current edition of a resident script. -/
def State.current (s : State) (h : Nat) : Option Edition :=
  (s.scripts.find? (fun c => c.handle == h && c.resident)).bind (fun c => c.editions.find? (·.num == c.cur))

/-- Bytes of the script store in use. -/
def State.storeUse (s : State) : Nat := ((s.scripts.flatMap (·.editions)).map (fun e => alignUp e.image.length 65536)).sum

/-- The checks of an image that an edition passes, in the order of R384; a new edition of a script that others name as their
understudy suits each of them (R409). -/
def State.imageBad (s : State) (h : Nat) (b : Bytes) (bytes : Nat) : Bad :=
  if !headerOk b bytes then some (ST_ISA_IMG_FORMAT, inHeader)
  else
    let u := Img.understudy b
    let users := (s.scripts.filter (fun c => c.resident && c.handle != h)).filterMap (fun c => (c.editions.find? (·.num == c.cur)).map (·.image))
    match layoutBad b with
    | some x => some x
    | none => firstFail ((List.range (Img.nprog b)).map (wordsBad b) ++ (List.range (Img.nprog b)).map (flowBad b)
      ++ (List.range (Img.nring b)).map (ringBad b) ++ (List.range (Img.ncurt b)).map (curtBad b)
      ++ [badIf (waitCycle b).isSome ST_RING_CYCLE (Img.ringOff b / 8),
        badIf (u != 0xFFFF && !(s.current u).any (fun e => suits b e.image)) ST_ISA_UNDERSTUDY inHeader,
        badIf (users.any (fun i => Img.understudy i == h && !suits i b)) ST_ISA_UNDERSTUDY inHeader,
        badIf (decide (2 ^ 27 < s.storeUse + alignUp b.length 65536)) ST_ISA_IMG_SPACE inHeader])

/-- A refused image is recorded (R346, R387). -/
def State.noteRefused (s : State) (h : Nat) (b : Bytes) (st word : Nat) : State :=
  let s1 := s.setRegN Reg.ISA_LOAD_ERR (h * 2 ^ 48 + st * 2 ^ 32 + word % 2 ^ 32)
  if st = ST_RING_CYCLE then
    (s1.setRegN Reg.RING_CYCLE_INFO (h * 2 ^ 16 + bitsOf ((waitCycle b).getD []))).latch Reg.RING_STATUS 3
  else s1

end Sys2Proof.Machine
end

