-- ==== Sys2Proof/Machine/Scripts.lean ====
section
/-! DEFINITION. The script commands and the data that the bulk engine reads for loads and images (R408 to R410, R453, R464,
R478). -/
namespace Sys2Proof.Machine

/-- Scripts that may be resident, and editions that one may hold. -/
abbrev scriptLimit : Nat := 4096
abbrev editionLimit : Nat := 8

/-- A reserved field of SCRIPT_LOAD or SCRIPT_PATCH that is not zero, or an unknown SOURCE. -/
def scriptArgBad (e : Bytes) : Bool :=
  let a := argsOf e
  !hdrZero e || decide (1 < rd a 2 1) || !allZero (slice a 3 5) || !allZero (slice a 20 20)

/-- The status of R409 for a new edition of a script. A handle may be loaded again once every edition of it is freed (R410). -/
def State.scriptStatus (s : State) (patch : Bool) (h : Nat) : Nat :=
  match s.scripts.find? (·.handle == h) with
  | none => if patch then ST_Q_NO_SCRIPT else if scriptLimit ≤ (s.scripts.filter (·.resident)).length then ST_Q_SCRIPTS_FULL else ST_OK
  | some c =>
    if !patch then ST_Q_SCRIPT_EXISTS
    else if !c.resident then ST_Q_NO_SCRIPT
    else if editionLimit ≤ c.editions.length then ST_Q_EDITIONS_FULL
    else ST_OK

/-- The number after the current edition's: zero and the numbers still held are skipped. -/
def Script.nextEdition (c : Script) : Nat :=
  (((List.range (editionLimit + 2)).map (fun i => (c.cur + 1 + i) % 65536)).find? (fun n => n != 0 && !c.editions.any (·.num == n))).getD 1

/-- An edition with empty statistics. -/
def Edition.fresh (n : Nat) (img : Bytes) (now : Nat) : Edition := ⟨n, img, 0, 0, .ofNat 0, .ofNat 0, .ofNat 0, .ofNat 0, none, none, windowOf now⟩

/-- The new edition becomes current; the one before goes at once when no launch holds it. Answers its number. -/
def State.install (s : State) (h : Nat) (img : Bytes) : Nat × State :=
  match s.scripts.find? (·.handle == h) with
  | none => (1, { s with scripts := s.scripts ++ [⟨h, true, 1, [.fresh 1 img s.now]⟩] })
  | some c =>
    let n := c.nextEdition
    (n, { s with scripts := modFirst (·.handle == h) (fun c =>
      { c with cur := n, editions := c.editions.filter (fun e => e.refs != 0) ++ [.fresh n img s.now] }) s.scripts })

/-- A whole image is in: it is checked and becomes an edition, or nothing is stored. -/
def State.scriptDone (s : State) (k n : Nat) (patch : Bool) (h : Nat) (img : Bytes) (bytes : Nat) : State :=
  let st := s.scriptStatus patch h
  if st ≠ ST_OK then s.endCmd k n st 0
  else
    match s.imageBad h img bytes with
    | some (st, word) => (s.noteRefused h img st word).endCmd k n st 0
    | none =>
      let (num, s1) := s.install h img
      s1.endCmd k n ST_OK num

/-- A script command goes on: an image in device memory is read at once, and of one in host memory the bytes that have come
are kept. -/
def State.scriptGo (s : State) (k n : Nat) (data : Bytes) : State :=
  match s.cmd? k n with
  | none => s
  | some c =>
    let a := argsOf c.entry
    let bytes := rd a 16 4
    let addr := rd a 8 8
    let finish (s : State) (img : Bytes) : State := s.scriptDone k n (c.op == 0x21) (rd a 0 2) img bytes
    if c.status.isSome ∨ !(c.op == 0x20 || c.op == 0x21) then s
    else if rd a 2 1 = 1 then
      match s.devRead addr bytes with
      | .wait s1 => s1
      | .fail s1 st => s1.endCmd k n st 0
      | .bytes s1 b => finish s1 b
    else
      let d := data.take (bytes - c.bytes.length)
      match s.access (.bulk k n) (s.qPort k) (s.qPasid k) (hva (addr + c.bytes.length : Nat)) (max 1 d.length) false with
      | (.ok, s1) =>
        if bytes ≤ c.bytes.length + d.length then finish s1 (c.bytes ++ d)
        else s1.modCmd k n (fun c => { c with bytes := c.bytes ++ d })
      | (_, s1) => s1

/-- SCRIPT_LOAD and SCRIPT_PATCH: BYTES that no image can have are refused before the image is read. -/
def State.scriptCmd (s : State) (k : Nat) (patch : Bool) : State :=
  s.admitOp k (if patch then 0x21 else 0x20) fun n e s =>
    let a := argsOf e
    let h := rd a 0 2
    let bytes := rd a 16 4
    let st := s.scriptStatus patch h
    if scriptArgBad e then s.endCmd k n ST_Q_BAD_ARG 0
    else if st ≠ ST_OK then s.endCmd k n st 0
    else if bytes < 128 ∨ 2 ^ 22 < bytes ∨ bytes % 8 ≠ 0 then (s.noteRefused h [] ST_ISA_IMG_FORMAT inHeader).endCmd k n ST_ISA_IMG_FORMAT 0
    else s.scriptGo k n []

/-- SCRIPT_LOAD. -/
def execScriptLoad (k : Nat) (s : State) : Outcome State Fault Refusal := .next (s.scriptCmd k false)

/-- SCRIPT_PATCH. -/
def execScriptPatch (k : Nat) (s : State) : Outcome State Fault Refusal := .next (s.scriptCmd k true)

/-- The current edition of another resident script names this one as its understudy. -/
def State.named (s : State) (h : Nat) : Bool :=
  s.scripts.any (fun c => c.resident && c.handle != h && c.editions.any (fun e => e.num == c.cur && Img.understudy e.image == h))

/-- SCRIPT_DROP: editions that launches hold stay until they are released. -/
def execScriptDrop (k : Nat) (s : State) : Outcome State Fault Refusal :=
  .next (s.admitOp k 0x22 fun n e s =>
    let a := argsOf e
    let h := rd a 0 2
    if !hdrZero e ∨ !allZero (slice a 2 38) then s.endCmd k n ST_Q_BAD_ARG 0
    else if !s.scripts.any (fun c => c.handle == h && c.resident) then s.endCmd k n ST_Q_NO_SCRIPT 0
    else if s.named h then s.endCmd k n ST_Q_SCRIPT_IN_USE 0
    else
      let l := modFirst (·.handle == h) (fun c => { c with resident := false, editions := c.editions.filter (·.refs != 0) }) s.scripts
      ({ s with scripts := l.filter (fun c => c.resident || !c.editions.isEmpty) } : State).endCmd k n ST_OK 0)

/-- CFE_SCRIPTS (R443). -/
def State.cfeScripts (s : State) : Nat :=
  ((s.scripts.map (·.editions.length)).sum) % 65536 * 2 ^ 16 + (s.scripts.filter (·.resident)).length

/-! ## Data for a load (R56, R453) -/

/-- Source rows of a load arrive, or are read from the general region. -/
def State.loadBulk (s : State) (l : Load) (data : Bytes) : State :=
  match s.openTable l.handle with
  | none => s
  | some t =>
    let go (s : State) (b : Bytes) : State := s.loadImages l.slot l.n (imagesIn t.imageBytes l.stride b.length b)
    match l.source with
    | 0 =>
      match s.access (.bulk l.slot l.n) (s.qPort l.slot) (s.qPasid l.slot) (hva (l.addrOf l.next : Nat)) (max 1 data.length) false with
      | (.ok, s1) => go s1 data
      | (_, s1) => s1
    | 1 =>
      match s.devRead (l.addrOf l.next) data.length with
      | .bytes s1 b => go s1 b
      | .wait s1 => s1
      | .fail s1 st => s1.endLoad l.slot l.n (some st)
    | _ => s

/-- BULK_ENGINE_READ_DATA for a TBL_LOAD or a script command: `data` is what the host returned, or tells how many bytes of the
general region are read. -/
def execBulkEngineReadData (slot n : Nat) (data : Bytes) (s : State) : Outcome State Fault Refusal :=
  .next (s.whenServing fun s =>
    match s.load? slot n with
    | some l => s.loadBulk l data
    | none => s.scriptGo slot n data)

end Sys2Proof.Machine
end

