-- ==== Sys2Proof/Machine/Queue.lean ====
section
/-! DEFINITION. The queue slots: their states, doorbells, the fetch of entries, the commands that end at once, COPY, the
completion records and the destroy of a queue (R389 to R402, R406, R407, R411 to R416, R434 to R446). -/
namespace Sys2Proof.Machine

def State.slot (s : State) (k : Nat) : QSlot := (s.slots[k]?).getD .init

/-! ## Starting and destroying a slot (R391, R392, R434, R435) -/

/-- A 32-bit word of a configuration register takes a value (R10, R392). -/
def State.putCfgWord (s : State) (off : Nat) (v : Word) : State :=
  let r := off / 8 * 8
  s.setRegN r (rwInto ⟨0, off, 4, v⟩ r (s.regN r))

/-- STARTING begins: the configuration writes held in STOPPING take effect, and what is left of an earlier life is forgotten. -/
def State.startSlot (s : State) (k : Nat) : State :=
  let s1 := (s.slot k).heldCfg.foldl (fun s e => s.putCfgWord e.1 e.2) s
  s1.modSlot k (fun q => { q with st := .starting, heldCfg := [], pendEnable := false, pendDisable := false, error := false, errStatus := 0 })

/-- The launches of a slot's queue. -/
def Ctx.ofSlot (c : Ctx) (k : Nat) : Bool := c.slot == k && c.cue.isNone

/-- A launch is aborted with its queue. To one that runs a cancel is sent, and it goes on until that reaches it; one that does not
run is cancelled, and posts no record. One that has a status has ended before. -/
def State.abortCtx (s : State) (id : Nat) : State :=
  match s.ctx? id with
  | none => s
  | some c =>
    if c.status.isSome then s
    else if c.st = .running then s.modCtx id (fun c => { c with aborting := true })
    else ((s.modCtx id (fun c => { c with aborted := true })).endLaunch id ST_OK).settleCtx id

/-- What a destroy in ABORT mode stops at once: no entry is fetched or starts any more, table and script commands that run lose
their records, and every launch is cancelled. -/
def State.abortSlot (s : State) (k : Nat) : State :=
  let s1 := s.modSlot k (fun q => { q with
    waiting := []
    torn := none
    fence := none
    loose := q.loose ++ q.cmds.filter (fun c => c.op != 1 && c.status.isNone)
    cmds := q.cmds.filter (fun c => c.op == 1 || c.status.isSome) })
  let s2 := s1.dropWaits (fun w => w == .fetch k)
  ((s2.ctxs.filter (·.ofSlot k)).map (·.id)).foldl State.abortCtx s2

/-- A destroy begins in the mode of ABORT. -/
def State.beginDestroy (s : State) (k : Nat) (abort : Bool) : State :=
  let isLaunch (e : Nat × Bytes) : Bool := rd e.2 0 1 == 1
  let s1 := s.modSlot k (fun q => { q with
    st := .stopping
    destroy := some ⟨abort, q.count, (q.waiting.filter isLaunch).length + (q.cmds.filter (·.op == 1)).length, 0, 0, 0, 0, 0, 0, 0⟩ })
  if abort then s1.abortSlot k else s1

/-- The ABORT mode of the destroy in progress. -/
def QSlot.aborting (q : QSlot) : Bool := q.destroy.any (·.abort)

/-- QUEUE_EN_WRITTEN: a write of Qk_CTL. -/
def execQueueEnWritten (k : Nat) (v : BitVec 32) (s : State) : Outcome State Fault Refusal :=
  .next (if 9 ≤ k then s else s.whenOpen fun s =>
    let en := v.getLsbD 31
    let abort := v.getLsbD 30
    let q := s.slot k
    let s1 := s.modSlot k (fun q => { q with en := en, abort := abort })
    match q.st with
    | .off => if en then s1.startSlot k else s1
    | .starting => s1.modSlot k (fun q => { q with pendDisable := !en })
    | .on => if en then s1 else s1.beginDestroy k abort
    | .stopping =>
      if en then s1.modSlot k (fun q => { q with pendEnable := true })
      else
        let s2 := s1.modSlot k (fun q => { q with pendEnable := false })
        if abort ∧ !q.aborting then
          (s2.modSlot k (fun q => { q with destroy := q.destroy.map (fun d => { d with abort := true }) })).abortSlot k
        else s2)

/-- The ring sizes of a slot are in range (R390); its addresses are aligned by their fields. -/
def State.slotValid (s : State) (k : Nat) : Bool :=
  decide (6 ≤ s.sqLog2 k) && decide (s.sqLog2 k ≤ 16) && decide (6 ≤ s.cqLog2 k) && decide (s.cqLog2 k ≤ 16)

/-- The pointers of a slot at 0. Entry numbers of the model go on from a multiple of 2^32, so that a command of an earlier life is
never taken for a new one. The moderation of the completion vector counts from its last signal, whatever the slot does (R416). -/
def QSlot.fresh (q : QSlot) : QSlot :=
  { q with
    st := .on, pendDisable := false, doorbell := 0, fetched := 0, count := (q.count / 2 ^ 32 + 1) * 2 ^ 32, waiting := [], torn := none
    cmds := [], consumed := 0, posted := 0, postedN := 0, fence := none, deaf := false, counted := false }

/-- QUEUE_STARTED. -/
def execQueueStarted (k : Nat) (s : State) : Outcome State Fault Refusal :=
  .next (s.whenServing fun s =>
    let q := s.slot k
    if q.st ≠ .starting then s
    else if !s.slotValid k then
      (s.modSlot k (fun q => { q with st := .off, pendDisable := false, errStatus := ST_Q_BAD_CFG })).latch Reg.CFE_STATUS 3
    else
      let s1 := s.modSlot k QSlot.fresh
      if q.pendDisable then s1.beginDestroy k q.abort else s1)

/-- The slot and the register that a configuration write names. -/
def cfgTarget (a : Access) : Option (Nat × Nat) :=
  let k := (a.off - 0x101000) / 0x100
  ([Reg.Q_SQBASE k, Reg.Q_CQBASE k, Reg.Q_DREC k, Reg.Q_CFG k].find? (onReg a)).bind (fun r => if k < 9 then some (k, r) else none)

/-- A 32-bit write of a configuration register of slot k (R392). One held in STOPPING gives way to a later write of its word. -/
def State.writeQueueCfg (k r : Nat) (a : Access) (s : State) : State :=
  let q := s.slot k
  match q.st with
  | .off => (s.modSlot k (fun q => { q with heldCfg := q.heldCfg.filter (fun e => !(e.1 == a.off)) })).setRegN r (rwInto a r (s.regN r))
  | .stopping => s.modSlot k (fun q => { q with heldCfg := keyPut q.heldCfg a.off a.value })
  | _ => s.latch Reg.CFE_STATUS 3

/-- QUEUE_CONFIG_WRITE. -/
def execQueueConfigWrite (a : Access) (s : State) : Outcome State Fault Refusal :=
  .next (match cfgTarget a with
    | none => s
    | some (k, r) => s.whenOpen (byWords (State.writeQueueCfg k r) a))

/-! ## Doorbells (R394, R395) -/

/-- The doorbell page of a slot is open: from the way to ON until the destroy begins. -/
def QSlot.pageOpen (q : QSlot) : Bool := q.st == .on

/-- An access to a doorbell page is dropped; the destroy record counts the doorbell writes among them (R394, R436). -/
def State.dbDrop (s : State) (k : Nat) (doorbell : Bool) : State :=
  (s.modSlot k (fun q => { q with destroy := q.destroy.map (fun d => { d with drops := d.drops + b2n doorbell }) })).count (Reg.Q_DBDROP k) 1

/-- SQ_DB. -/
def execSqDb (k : Nat) (v : BitVec 32) (s : State) : Outcome State Fault Refusal :=
  .next (if 9 ≤ k then s else s.whenOpen fun s =>
    let q := s.slot k
    if !q.pageOpen then s.dbDrop k true
    else if v = q.doorbell ∨ 2 ^ 31 ≤ (v - q.doorbell).toNat then s.dbDrop k true
    else if 2 ^ s.sqLog2 k < (v - q.fetched).toNat then
      if q.error then s
      else
        let (x, s1) := s.free
        let c : Cmd := ⟨q.count, fld x.toNat 31 0, 0, [], some ST_Q_DOORBELL, fld x.toNat 63 32, s.time.gtime, none, [], ⟨[], none⟩⟩
        (s1.modSlot k (fun q => { q with error := true, errStatus := ST_Q_DOORBELL, cmds := q.cmds ++ [c] })).latch Reg.CFE_STATUS 1
    else s.modSlot k (fun q => { q with doorbell := v }))

/-- CQ_DB. -/
def execCqDb (k : Nat) (v : BitVec 32) (s : State) : Outcome State Fault Refusal :=
  .next (if 9 ≤ k then s else s.whenOpen fun s =>
    if !(s.slot k).pageOpen then s.dbDrop k true else s.modSlot k (fun q => { q with consumed := v }))

/-- An aligned 32-bit write of SQ_DB or CQ_DB. -/
def isDoorbell (write : Bool) (a : Access) : Bool := write && a.size == 4 && (a.off % 0x10000 == 0 || a.off % 0x10000 == 8)

/-- DOORBELL_ACCESS_DROPPED: an access that is no doorbell write, or a doorbell write while the page is not open. A read answers
zero. -/
def execDoorbellAccessDropped (k : Nat) (write : Bool) (a : Access) (s : State) : Outcome State Fault Refusal :=
  .next (if 9 ≤ k ∨ a.bar ≠ 2 ∨ a.off / 0x10000 ≠ k then s else s.whenOpen fun s =>
    if isDoorbell write a ∧ (s.slot k).pageOpen then s
    else
      let s1 := s.dbDrop k (isDoorbell write a)
      if write then s1 else s1.emit (.readData 0))

/-! ## Fetching (R393, R396, R397, R454) -/

/-- Buffers of the CFE, and where direct fetch begins and ends. -/
abbrev cfeBuffers : Nat := 8 * 2 ^ 20

/-- Bytes of the CFE's buffers in use: entries that wait, and Cue payload that waits for its slot. -/
def State.cfeUse (s : State) : Nat :=
  64 * (s.slots.map (·.waiting.length)).sum
    + (s.ctxs.map (fun c => ((c.cue.map (·.segs)).getD []).foldl
        (fun n g => if g.published then n else n + (g.parts.map (·.2.length)).sum) 0)).sum

/-- Whether the slots use direct fetch, as the room in the buffers stands. -/
def State.noteDirect (s : State) : State :=
  let free := cfeBuffers - s.cfeUse
  { s with direct := decide (free < 256 * 1024) || (s.direct && decide (free < 2 ^ 20)) }

/-- The phase expected of entry or record n of a ring of 2^log2 (R393). -/
def phaseOf (n log2 : Nat) : Nat := 1 - n / 2 ^ log2 % 2

/-- An entry is good (R396). -/
def entryGood (e : Bytes) (n log2 : Nat) : Bool := rd e 1 1 % 2 == phaseOf n log2 && crc16 (e.drop 4) == rd e 2 2

/-- The slot still fetches: entries below the accepted doorbell value, while ON or draining. -/
def QSlot.fetches (q : QSlot) : Bool :=
  (q.st == .on || (q.st == .stopping && !q.aborting)) && !q.error && q.fetched != q.doorbell

/-- Entries that a slot may hold in the buffers. -/
abbrev prefetch : Nat := 64

/-- Contexts that are free (R403, R439). -/
abbrev contexts : Nat := 4096
def State.freeCtxs (s : State) : Nat := contexts - s.ctxs.length

/-- Contexts that a slot holds, for queue and Cue launches alike, and the most it may hold (R445). -/
def State.slotCtxs (s : State) (k : Nat) : Nat := (s.ctxs.filter (·.slot == k)).length
def State.ctxMax (s : State) (k : Nat) : Nat := if s.regF (Reg.Q_CFG k) 31 20 = 0 then contexts else s.regF (Reg.Q_CFG k) 31 20
def State.belowMax (s : State) (k : Nat) : Bool := decide (s.slotCtxs k < s.ctxMax k)

/-! ### The entry of a LAUNCH (R403) and the contexts (R423) -/

namespace LEnt
def scope (e : Bytes) : Nat := fld (rd e 1 1) 2 1
def nous (e : Bytes) : Bool := (rd e 1 1).testBit 3
def lateAbort (e : Bytes) : Bool := (rd e 1 1).testBit 4
def argHost (e : Bytes) : Bool := (rd e 1 1).testBit 5
def deadline (e : Bytes) : Word := BitVec.ofNat 64 (rd e 8 8)
def script (e : Bytes) : Nat := rd e 16 2
def nseg (e : Bytes) : Nat := rd e 18 2
def arglen (e : Bytes) : Nat := rd e 20 4
def segaddr (e : Bytes) : Nat := rd e 24 8
def argaddr (e : Bytes) : Nat := rd e 32 8
end LEnt

/-- A field of a LAUNCH entry is reserved and not zero, or out of range. -/
def launchBad (e : Bytes) : Bool :=
  LEnt.scope e == 3 || fld (rd e 1 1) 7 6 != 0 || decide (256 < LEnt.nseg e)
    || (if LEnt.argHost e then LEnt.arglen e == 0 || decide (65536 < LEnt.arglen e) || !allZero (slice e 40 24) else decide (32 < LEnt.arglen e))
    || (LEnt.nseg e != 0 && LEnt.segaddr e % 16 != 0)

/-- The oldest waiting entry of a slot. -/
def QSlot.front (q : QSlot) : Option (Nat × Bytes) := q.waiting.head?

/-- Slot k has a launch at its front that it could let in if it had a context (R423). -/
def State.wantsCtx (s : State) (k : Nat) : Bool :=
  let q := s.slot k
  (q.front).any (fun e => rd e.2 0 1 == 1) && s.canAdmit k 1 q && s.belowMax k

/-- A context is free for slot k after every slot before it has had one (R423). -/
def State.ctxFor (s : State) (k : Nat) : Bool :=
  s.belowMax k && decide (((List.range 9).filter (fun j => decide (rank j < rank k) && s.wantsCtx j)).length < s.freeCtxs)

/-- An entry could be admitted at once: the slot may let it in, nothing waits before it, and a launch that needs a context finds one
that no higher slot has a claim to. -/
def State.admitNow (s : State) (k : Nat) (e : Bytes) : Bool :=
  let q := s.slot k
  q.waiting.isEmpty && s.canAdmit k (rd e 0 1) q && (rd e 0 1 != 1 || launchBad e || s.pwr.lost || s.ctxFor k)

/-! ### The host line cache (R454, R455) -/

/-- Ways of a set of the host line cache. -/
abbrev hlcWays : Nat := 14

/-- The set of the host line cache that a line goes to, of 8,192. -/
def hlcSetOf (line : Nat) : Nat := Config.hlcSet line % 8192

/-- The cache after a line has been filled: each set keeps its latest lines. -/
def hlcFill (l : List Nat) (line : Nat) : List Nat :=
  let mine (x : Nat) : Bool := hlcSetOf x == hlcSetOf line
  line :: (l.filter mine).take (hlcWays - 1) ++ l.filter (fun x => !mine x)

/-- A read of a host line through the cache: a hit, or a miss that fills it with RdShared. -/
def State.hlcRead (s : State) (port line : Nat) : State :=
  if s.host.hlc.contains line then s.count Reg.HLC_HIT 1
  else (({ s with host := { s.host with hlc := hlcFill s.host.hlc line } } : State).emit (.cxlCacheRead port line false)).count Reg.HLC_MISS 1

/-- Host address of entry n of a slot's submission ring. -/
def State.entryAddr (s : State) (k n : Nat) : Nat := s.regN (Reg.Q_SQBASE k) + n % 2 ^ s.sqLog2 k * 64

/-- A good entry is fetched: it waits for admission. -/
def State.takeEntry (s : State) (k : Nat) (e : Bytes) : State :=
  let s1 := s.modSlot k (fun q => { q with
    fetched := q.fetched + 1, count := q.count + 1, torn := none, waiting := q.waiting ++ [(q.count, e)] })
  let s2 := if s.direct then s1.count Reg.CFE_DIRECT 1 else s1
  s2.noteDirect

/-- A read through the host line cache: a held line with an uncorrectable word is invalidated and read again (R533). -/
def State.hlcFetch (s : State) (port line : Nat) (h : GranuleHealth) : State :=
  if !s.host.hlc.contains line then s.hlcRead port line
  else
    match s.sramRead h (7 * 4096) line with
    | (false, s1) => s1.hlcRead port line
    | (true, s1) => ({ s1 with host := { s1.host with hlc := s1.host.hlc.filter (· != line) } } : State).hlcRead port line

/-- ENTRY_FETCHED: an uncorrectable word in the CFE's buffers makes the entry be fetched again; one of the host line cache, that
the line is invalidated and read again from the host (R533). -/
def execEntryFetched (k : Nat) (entry : Bytes) (ecc : FetchEcc) (s : State) : Outcome State Fault Refusal :=
  .next (s.whenServing fun s0 =>
    let s := s0.noteDirect
    let q := s.slot k
    if !q.fetches ∨ q.torn.isSome ∨ entry.length ≠ 64 ∨ (if s.direct then !s.admitNow k entry else decide (prefetch ≤ q.waiting.length)) then s0
    else
      match s.access (.fetch k) (s.qPort k) (s.qPasid k) (s.entryAddr k q.count) 64 false with
      | (.ok, s1) =>
        let s2 := s1.hlcFetch (s.qPort k) (s1.hostLine (s.qPort k) (s.qPasid k) (s.entryAddr k q.count)) ecc.line
        match ecc.buffer with
        | .uncorrectable => s2.sramUncorrectable (7 * 4096) (s.entryAddr k q.count)
        | _ =>
          let s3 := if ecc.buffer = .corrected then s2.sramCorrected else s2
          if entryGood entry q.count (s.sqLog2 k) then s3.takeEntry k entry
          else s3.modSlot k (fun q => { q with torn := some (q.count, 0), tornAt := some s.time.gtime })
      | (_, s1) => s1)

/-- Re-reads of an entry that is not good. -/
abbrev rereads : Nat := 16

/-- Ticks from one read to the next: 0.5 µs. -/
abbrev rereadTicks : Nat := 2000

/-- ENTRY_REREAD: the read is made with RdCurr and bypasses the host line cache. In direct fetch a good entry is taken only when it can
be admitted at once. -/
def execEntryReread (k : Nat) (entry : Bytes) (s : State) : Outcome State Fault Refusal :=
  .next (s.whenServing fun s =>
    let q := s.slot k
    match q.torn with
    | none => s
    | some (n, r) =>
      let good := entryGood entry n (s.sqLog2 k)
      if !q.fetches ∨ entry.length ≠ 64 ∨ !s.elapsed q.tornAt rereadTicks ∨ (good ∧ s.noteDirect.direct ∧ !s.admitNow k entry) then s
      else
        match s.noteDirect.access (.fetch k) (s.qPort k) (s.qPasid k) (s.entryAddr k n) 64 false with
        | (.ok, s0) =>
          let s1 := s0.emit (.cxlCacheRead (s.qPort k) (s0.hostLine (s.qPort k) (s.qPasid k) (s.entryAddr k n)) true)
          if good then s1.takeEntry k entry
          else if r + 1 < rereads then s1.modSlot k (fun q => { q with torn := some (n, r + 1), tornAt := some s.time.gtime })
          else
            let c : Cmd := ⟨n, 2 ^ 32 - 1, 0, [], some ST_Q_TORN, n % 2 ^ 32, s.time.gtime, none, [], ⟨[], none⟩⟩
            (s1.modSlot k (fun q => { q with error := true, errStatus := ST_Q_TORN, torn := none, cmds := q.cmds ++ [c] })).latch Reg.CFE_STATUS 0
        | (_, s1) => s1)

/-! ## Commands that end at once (R400, R402, R407) -/

/-- Opcodes of R399. -/
def opcodes : List Nat := [0x01, 0x02, 0x03, 0x04, 0x05, 0x10, 0x11, 0x12, 0x13, 0x20, 0x21, 0x22]

/-- FENCE: no later entry is admitted before its record is posted. -/
def execQueueFence (k : Nat) (s : State) : Outcome State Fault Refusal :=
  .next (s.admitOp k 3 fun n e s =>
    (s.modSlot k (fun q => { q with fence := some n })).endCmd k n (if hdrZero e && allZero (argsOf e) then ST_OK else ST_Q_BAD_ARG) 0)

/-- The answer of QUERY: status and value. -/
def State.answer (s : State) (k what arg : Nat) : Nat × Nat :=
  match what with
  | 0 => match s.current arg with
    | some e => (ST_OK, e.num)
    | none => (ST_Q_NO_SCRIPT, 0)
  | 1 => (ST_OK, s.freeCtxs)
  | 2 => (ST_OK, (s.ctxs.filter (·.ofSlot k)).length)
  | 3 => (ST_OK, (((s.table? arg).bind (·.live)).map (·.num)).getD 0)
  | _ => (ST_Q_BAD_ARG, 0)

/-- QUERY. -/
def execQuery (k : Nat) (s : State) : Outcome State Fault Refusal :=
  .next (s.admitOp k 4 fun n e s =>
    let a := argsOf e
    let (st, v) := if hdrZero e && rd a 1 1 == 0 && allZero (slice a 4 36) then s.answer k (rd a 0 1) (rd a 2 2) else (ST_Q_BAD_ARG, 0)
    s.endCmd k n st v)

/-- NOP. -/
def execNop (k : Nat) (s : State) : Outcome State Fault Refusal :=
  .next (s.admitOp k 5 fun n e s => s.endCmd k n (if hdrZero e && allZero (argsOf e) then ST_OK else ST_Q_BAD_ARG) 0)

/-- UNASSIGNED_OPCODE. -/
def execUnassignedOpcode (k : Nat) (s : State) : Outcome State Fault Refusal :=
  .next (s.admitIf k (fun op => !opcodes.contains op) fun n _ s => s.endCmd k n ST_Q_BAD_OPCODE 0)

/-- An entry of COPY with a field that is reserved or out of range (R406). -/
def copyBad (e : Bytes) : Bool :=
  let a := argsOf e
  let f := rd e 1 1
  decide (fld f 2 1 = 3) || fld f 7 3 != 0 || !allZero (slice e 8 16) || decide (1 < rd a 0 1) || decide (1 < rd a 1 1)
    || !allZero (slice a 2 6) || rd a 24 8 == 0 || decide (2 ^ 40 ≤ rd a 24 8) || !allZero (slice a 32 8)

/-- COPY: the bulk engine moves the bytes run by run. -/
def execCopy (k : Nat) (s : State) : Outcome State Fault Refusal :=
  .next (s.admitOp k 2 fun n e s =>
    if copyBad e then s.endCmd k n ST_Q_BAD_ARG 0 else s.modCmd k n (fun c => { c with xfer := some (copyXfer (argsOf e)) }))

/-! ## Completion records (R411 to R416) -/

/-- A completion record. -/
def cqRecord (phase : Nat) (launch : Bool) (fate status tag : Nat) (finish : Word) (slip ctx value edition : Nat) : Bytes :=
  let b := natLE 1 (phase + 2 * b2n launch) ++ natLE 1 fate ++ natLE 2 status ++ natLE 4 tag ++ natLE 8 finish.toNat ++ natLE 2 slip
    ++ natLE 2 ctx ++ natLE 4 value ++ natLE 2 edition ++ natLE 4 0
  b ++ natLE 2 (crc16 b)

/-- The vector of a slot's completion ring is signalled. -/
def State.signalSlot (s : State) (k : Nat) : State := (s.modSlot k (fun q => { q with unsignalled := 0, since := none })).signal k

/-- A record has been posted: it is counted towards the moderation of its vector (R416). -/
def State.moderate (s : State) (k : Nat) : State :=
  let s1 := s.modSlot k (fun q => { q with unsignalled := q.unsignalled + 1, since := some (q.since.getD s.time.gtime) })
  if s.regF (Reg.Q_INTMOD k) 15 0 ≤ (s1.slot k).unsignalled then s1.signalSlot k else s1

/-- What a launch did in a class during a destroy, as (done, aborted). -/
def inClass (used cut : Bool) : Nat × Nat := if !used then (0, 0) else if cut then (0, 1) else (1, 0)

/-- The counts of a destroy after a launch is done with (R436). -/
def Destroy.take (d : Destroy) (c : Ctx) : Destroy :=
  if d.upto ≤ c.n then d
  else
    let p := inClass c.started (c.aborted || c.cls.any (fun k => k.cancelled && !k.exited))
    let g := inClass (c.pastGpe || c.cls.any (·.usedGpe)) (c.pastCutGpe || c.cls.any (·.cutGpe))
    let t := inClass (c.pastTe || c.cls.any (·.usedTe)) (c.pastCutTe || c.cls.any (·.cutTe))
    { d with
      doneP := d.doneP + p.1, abortedP := d.abortedP + p.2, doneG := d.doneG + g.1, abortedG := d.abortedG + g.2
      doneT := d.doneT + t.1, abortedT := d.abortedT + t.2 }

def State.countDestroy (s : State) (k : Nat) (c : Ctx) : State :=
  s.modSlot k (fun q => { q with destroy := q.destroy.map (·.take c) })

/-- The record of an ended command: its bytes, and the state, which for a launch without a context has noted its fate. -/
def State.record (s : State) (k : Nat) (c : Cmd) (ctx : Option Ctx) : Bytes × State :=
  let q := s.slot k
  let ph := phaseOf q.postedN (s.cqLog2 k)
  let st := c.status.getD ST_OK
  if c.op ≠ 1 then (cqRecord ph false 0 st c.tag c.finish 0 0 c.value 0, s)
  else
    match ctx with
    | some x => (cqRecord ph true x.fate st c.tag c.finish x.slip (x.id + 2 ^ 15) c.value x.edition, s)
    | none =>
      let fate := if st = ST_Q_DEADLINE then 5 else 0
      let (x, s1) := s.free
      (cqRecord ph true fate st c.tag c.finish (fld x.toNat 15 0) 0 c.value 0, s1.noteFate fate)

/-- The command leaves its slot, and the context of a launch is released. -/
def State.retire (s : State) (k n : Nat) (ctx : Option Ctx) : State :=
  let s1 := s.modSlot k (fun q => { q with cmds := q.cmds.filter (·.n != n), fence := if q.fence = some n then none else q.fence })
  match ctx with
  | some c => (s1.countDestroy k c).releaseCtx c.id
  | none => s1

/-! ### Completion scopes (R414, R467) -/

/-- The code of scope PATH. -/
abbrev scopePath : Nat := 1

/-- No line of the general region that a command wrote may still be held by the host, as DEVICE and WIRE ask; PATH asks nothing. -/
def State.scopeClear (s : State) (scope : Nat) (w : Wrote) : Bool :=
  scope == scopePath || w.dev.all (fun r => (s.toSnoop r.off r.len true).isEmpty)

/-- The lines that a command wrote and the host may hold are being snooped. -/
def State.scopeSnoop (s : State) (w : Wrote) : State :=
  w.dev.foldl (fun s r => if (s.toSnoop r.off r.len true).isEmpty then s else (s.snoopFor r.off r.len true).2) s

/-- Under DEVICE and WIRE a zero-length read at the last host address written goes ahead of the record. -/
def State.scopeRead (s : State) (scope port : Nat) (w : Wrote) : State :=
  match w.host with
  | some p => if scope = scopePath then s else s.emit (.hostRead port p 0)
  | none => s

/-- Scope of a command and what it has written: those of a LAUNCH stand in its context, and only a COPY has others. -/
def Cmd.scoped (c : Cmd) (ctx : Option Ctx) : Nat × Wrote :=
  match ctx with
  | some x => (x.scope, x.wrote)
  | none => if c.op = 2 then (LEnt.scope c.entry, c.wrote) else (scopePath, c.wrote)

/-- A TORN or DOORBELL record, which no entry admitted under R413 stands for. -/
def Cmd.extra (c : Cmd) : Bool := c.entry.isEmpty

/-- The completion ring has no room for one more record than those of the entries admitted. -/
def State.ringFullFor (s : State) (k : Nat) : Bool := decide (2 ^ s.cqLog2 k < (s.slot k).cmds.length + (s.slot k).unconsumed)

/-- The record of c may go now: every command that ended earlier has its record, and a TORN or DOORBELL record has its room in the
count of R413; while it has none, it holds back no other. -/
def State.recordDue (s : State) (k : Nat) (c : Cmd) : Bool :=
  !(s.slot k).cmds.any (fun d => d.status.isSome && decide (d.finish.toNat < c.finish.toNat) && !(d.extra && s.ringFullFor k))
    && !(c.extra && s.ringFullFor k)

/-- COMPLETION_RECORD: the records of a slot go in the order in which its commands ended, each once its scope's condition holds. -/
def execCompletionRecord (k n : Nat) (s : State) : Outcome State Fault Refusal :=
  .next (s.whenOpen fun s =>
    let q := s.slot k
    match q.cmds.find? (fun c => c.n == n && c.status.isSome) with
    | none => s
    | some c =>
      let ctx := if c.op = 1 then s.ctxs.find? (fun x => x.ofSlot k && x.n == n) else none
      let (scope, w) := c.scoped ctx
      if !s.recordDue k c then s
      else if !s.scopeClear scope w then s.scopeSnoop w
      else if q.deaf then
        let s1 := if q.counted then s.modSlot k (fun q => { q with counted := false }) else s.count Reg.XLT_FATAL 1
        (s1.record k c ctx).2.retire k n ctx
      else
        let addr := s.regN (Reg.Q_CQBASE k) + q.postedN % 2 ^ s.cqLog2 k * 32
        match s.access (.record k) (s.qPort k) (s.qPasid k) addr 32 true with
        | (.ok, s1) =>
          let (b, s2) := (s1.scopeRead scope (s.qPort k) w).record k c ctx
          let s3 := (s2.hostOut (s.qPort k) (s.qPasid k) addr b).modSlot k (fun q => { q with posted := q.posted + 1, postedN := q.postedN + 1 })
          (s3.moderate k).retire k n ctx
        | (_, s1) => s1)

/-- INTMOD_TIMER. -/
def execIntmodTimer (k : Nat) (s : State) : Outcome State Fault Refusal :=
  .next (s.whenOpen fun s =>
    let wait := s.regF (Reg.Q_INTMOD k) 31 16
    if 0 < (s.slot k).unsignalled ∧ wait ≠ 0 ∧ s.elapsed (s.slot k).since (us wait) then s.signalSlot k else s)

/-! ## The destroy record (R434 to R436) -/

/-- The destroy of a slot is finished: nothing is left to fetch or to record, and every aborted launch has come to its end. -/
def State.destroyDone (s : State) (k : Nat) : Bool :=
  let q := s.slot k
  let l := s.ctxs.filter (·.ofSlot k)
  q.st == .stopping && q.waiting.isEmpty && (q.torn.isNone || q.error) && (q.aborting || q.error || q.fetched == q.doorbell)
    && q.cmds.all (fun c => q.aborting && c.op == 1 && c.status.isNone && l.any (fun x => x.n == c.n && x.aborted && decide (x.st = .ended)))

/-- DONE, ABORTED and UNSTARTED of a class. -/
def classCounts (total done_ aborted : Nat) : Bytes := natLE 4 done_ ++ natLE 4 aborted ++ natLE 4 (total - done_ - aborted)

/-- The destroy record. -/
def destroyBytes (k : Nat) (d : Destroy) (now dbdrop : Nat) : Bytes :=
  let b := natLE 1 0xD5 ++ natLE 1 (b2n d.abort) ++ natLE 2 ST_OK ++ natLE 1 k ++ natLE 3 0 ++ natLE 8 now
    ++ classCounts d.total d.doneP d.abortedP ++ classCounts d.total d.doneG d.abortedG ++ classCounts d.total d.doneT d.abortedT
    ++ natLE 4 dbdrop ++ natLE 6 0
  b ++ natLE 2 (crc16 b)

/-- The slot goes OFF after its destroy, and starts again at once when an enable waits. -/
def State.slotOff (s : State) (k : Nat) : State :=
  let again := (s.slot k).pendEnable
  let s1 := s.modSlot k (fun q => { q with st := .off, pendEnable := false, error := false, errStatus := 0, destroy := none, cmds := [] })
  if again then s1.startSlot k else s1

/-- DESTROY_RECORD. -/
def execDestroyRecord (k : Nat) (s : State) : Outcome State Fault Refusal :=
  .next (s.whenOpen fun s =>
    if !s.destroyDone k then s
    else
      let addr := s.regN (Reg.Q_DREC k)
      let (x, s1) := s.access (.record k) (s.qPort k) (s.qPasid k) addr 64 true
      if x = .wait then s1
      else
        let l := (s1.ctxs.filter (·.ofSlot k))
        let s2 := l.foldl (fun s c => s.countDestroy k c) s1
        let b := match (s2.slot k).destroy with
          | some d => destroyBytes k d s.now d.drops
          | none => []
        let s3 := if x = .ok then (s2.hostOut (s.qPort k) (s.qPasid k) addr b).latch Reg.CFE_STATUS 2 else s2
        ((l.map (·.id)).foldl State.releaseCtx s3).slotOff k)

/-! ## Registers read from the typed state (R439, R444, R446) -/

def QState.code : QState → Nat
  | .off => 0
  | .starting => 1
  | .on => 2
  | .stopping => 3

/-- Qk_CTL. -/
def State.qCtl (s : State) (k : Nat) : Nat :=
  let q := s.slot k
  b2n q.en * 2 ^ 31 + b2n q.abort * 2 ^ 30 + q.st.code * 2 ^ 28 + b2n (q.st == .starting || q.st == .stopping) * 2 ^ 27
    + b2n q.pendEnable * 2 ^ 26 + b2n q.pendDisable * 2 ^ 25 + b2n q.error * 2 ^ 24 + b2n q.aborting * 2 ^ 23 + q.errStatus

/-- Qk_PTR and Qk_CQPTR. -/
def State.qPtr (s : State) (k : Nat) : Nat := (s.slot k).doorbell.toNat * 2 ^ 32 + (s.slot k).fetched.toNat
def State.qCqptr (s : State) (k : Nat) : Nat := (s.slot k).consumed.toNat * 2 ^ 32 + (s.slot k).posted.toNat

/-- CFE_CTX. -/
def State.cfeCtx (s : State) : Nat := (s.ctxs.filter (fun c => decide (c.st = .admitted))).length * 2 ^ 16 + s.freeCtxs

end Sys2Proof.Machine
end

