-- ==== Sys2Proof/Machine/Launch.lean ====
section
/-! DEFINITION. Admission, placement and start of a launch, its segments, its understudy and its deadline (R178 to R181, R350 to
R354, R383, R403 to R405, R422 to R424, R429 to R431). -/
namespace Sys2Proof.Machine

/-! ## Clusters that a launch may use (R179 to R181, R193) -/

/-- A cluster is in the mask of a slot. -/
def State.inMask (s : State) (k cl : Nat) : Bool := (s.reg (Reg.PLC_CLMASK (2 * k + cl / 64))).getLsbD (cl % 64)

/-- Clusters of a die, ascending. -/
def dieClusters (d : Nat) : List Nat := (List.range 16).map (· + 16 * d)

/-- Contexts held on a cluster, and the most it may hold (R178). -/
def State.held (s : State) (cl : Nat) : Nat := (s.ctxs.filter (fun c => c.cls.any (·.cl == cl))).length
abbrev heldLimit : Nat := 64

/-- Some die could hold a launch of n clusters under the mask of a slot. -/
def State.hostable (s : State) (k n : Nat) : Bool :=
  (List.range 8).any (fun d => decide (n ≤ ((dieClusters d).filter (fun c => s.inMask k c && s.clOpen c)).length))

/-! ## Admission (R422) -/

/-- Tables that an image lists. -/
def Img.tables (b : Bytes) : List Nat := (List.range (Img.ntable b)).map (fun i => rd b (32 + 2 * i) 2)

/-- The LIVE version of every table listed, or the status of the first that has none. -/
def State.bindTables (s : State) : List Nat → Nat × List (Nat × Nat)
  | [] => (ST_OK, [])
  | h :: t =>
    match s.openTable h with
    | none => (ST_TBL_NO_TABLE, [])
    | some x =>
      match x.live with
      | none => (ST_TBL_NO_VERSION, [])
      | some w =>
        let (st, l) := State.bindTables s t
        (st, (h, w.num) :: l)

/-- The understudy that a launch binds. -/
def State.understudyOf (s : State) (img : Bytes) (nous : Bool) : Option Edition :=
  if nous ∨ Img.understudy img = 0xFFFF then none else s.current (Img.understudy img)

/-- What an admission decision binds. -/
structure Bound where
  edition : Edition
  us : Option (Nat × Nat)
  versions : List (Nat × Nat)

/-- The admission decision: a status, and what is bound. -/
def State.decideAdm (s : State) (k script : Nat) (nous lateAbort : Bool) (deadline : Word) : Nat × Option Bound :=
  match s.current script with
  | none => (ST_Q_NO_SCRIPT, none)
  | some e =>
    let u := s.understudyOf e.image nous
    let tabs := Img.tables e.image ++ ((u.map (fun x => Img.tables x.image)).getD [])
    let (st, vs) := s.bindTables tabs.eraseDups
    if st ≠ ST_OK then (st, none)
    else if !s.hostable k (Img.clusters e.image) then (ST_PLC_NO_CLUSTER, none)
    else if lateAbort ∧ deadline ≠ 0 ∧ deadline.toNat < s.now then (ST_Q_DEADLINE, none)
    else (ST_OK, some ⟨e, u.map (fun x => (Img.understudy e.image, x.num)), vs⟩)

/-- The free context that is taken. -/
def State.freeId (s : State) : Nat := ((List.range contexts).find? (fun i => !s.ctxs.any (·.id == i))).getD contexts

/-- A launch as it stands when it is admitted. -/
def newCtx (id slot n tag script : Nat) (b : Bound) (now deadline : Word) (scope : Nat) (nous lateAbort : Bool) (args segTab : Bytes)
    (cue : Option CueMsg) : Ctx where
  id := id
  slot := slot
  n := n
  cue := cue
  tag := tag
  st := .admitted
  script := script
  edition := b.edition.num
  us := b.us
  versions := b.versions
  admitG := now
  deadline := deadline
  scope := scope
  nous := nous
  lateAbort := lateAbort
  args := args
  segTab := segTab
  segs := []
  replyBuf := none
  reply := []
  swapped := false
  die := 0
  cls := []
  rings := []
  curtains := []
  t0 := 0
  started := false
  newMisses := 0
  status := none
  swapping := false
  expired := false
  aborting := false
  aborted := false
  finish := 0
  slip := 0
  pastGpe := false
  pastTe := false
  pastCutGpe := false
  pastCutTe := false
  wrote := ⟨[], none⟩
  stallClock := 0
  stalled := false
  gpeAck := false

/-- A launch is admitted: references are counted, and the deadline monitor acts (R68, R409, R429). -/
def State.addCtx (s : State) (c : Ctx) : State :=
  let s1 := c.versions.foldl State.takeRef s
  let s2 := s1.modEdition c.script c.edition (fun e => { e with refs := e.refs + 1 })
  let s3 := match c.us with
    | some (h, e) => s2.modEdition h e (fun x => { x with refs := x.refs + 1 })
    | none => s2
  (({ s3 with ctxs := s3.ctxs ++ [c] } : State).count Reg.CFE_ADMITTED 1).monitor c.id

/-! ## LAUNCH (R403) -/

/-- The entry that a LAUNCH admitted under: its queue entry is kept by the command. -/
def State.entryOf (s : State) (c : Ctx) : Bytes := ((s.cmd? c.slot c.n).map (·.entry)).getD []

/-- The CFE reads a host range of a launch through the host line cache. -/
def State.cfeRead (s : State) (who : XReq) (k addr n : Nat) : Xr × State :=
  if n = 0 then (.ok, s)
  else
    match s.access who (s.qPort k) (s.qPasid k) addr n false with
    | (.ok, s1) =>
      (.ok, (linesOf addr n).foldl (fun s l => s.hlcRead (s.qPort k) (s.hostLine (s.qPort k) (s.qPasid k) (l * 64))) s1)
    | r => r

/-- A segment-table entry (R404). -/
def segOf (b : Bytes) : Seg := ⟨rd b 0 8, rd b 8 4, rd b 12 1 % 8, (rd b 13 1).testBit 0⟩
def segReply (b : Bytes) : Bool := (rd b 13 1).testBit 1

def segEntries (t : Bytes) : List Bytes := (List.range (t.length / 16)).map (fun i => slice t (16 * i) 16)

/-- The code of the CFE as a ring's producer (R315). -/
abbrev driverCFE : Nat := 5

/-- A ring of an image that the CFE fills. -/
def cfeRing (img : Bytes) (reg : Nat) : Option Ring := (Img.rings img).find? (fun r => r.reg == reg && r.prod == driverCFE)

/-- An entry of a segment table that is not as R404 has it. -/
def segBad (img b : Bytes) : Bool :=
  rd b 8 4 == 0 || decide (8 ≤ rd b 12 1) || decide (4 ≤ rd b 13 1) || rd b 14 2 != 0
    || (!segReply b && !(cfeRing img (rd b 12 1 % 8)).any (fun r => decide (rd b 8 4 ≤ r.slotBytes)))

/-- A segment table is not as R404 has it, for the rings of the script that was admitted. -/
def segTabBad (img t : Bytes) : Bool :=
  let l := segEntries t
  l.any (segBad img) || decide (1 < (l.filter segReply).length)

/-- The arguments and the segment table of a queue launch are read: `.ok` when both are in. -/
def State.readArgs (s : State) (c : Ctx) : Xr × State :=
  let e := s.entryOf c
  match s.cfeRead (.args c.id) c.slot (LEnt.argaddr e) (if LEnt.argHost e then c.args.length else 0) with
  | (.ok, s1) => s1.cfeRead (.args c.id) c.slot (LEnt.segaddr e) c.segTab.length
  | r => r

/-- A launch ends with a status, and comes to its end at once where nothing of it runs. -/
def State.failCtx (s : State) (id st : Nat) : State := (s.endLaunch id st).settleCtx id

/-- The entry of a LAUNCH is admitted: the launch is refused, or takes a context. -/
def State.launchEntry (s : State) (k n : Nat) (e args segs : Bytes) : State :=
  if launchBad e then s.endCmd k n ST_Q_BAD_ARG 0
  else
    match s.decideAdm k (LEnt.script e) (LEnt.nous e) (LEnt.lateAbort e) (LEnt.deadline e) with
    | (st, none) => s.endCmd k n st 0
    | (_, some b) =>
      if frameBytes b.edition.image < Img.argOff b.edition.image + LEnt.arglen e then s.endCmd k n ST_Q_ARG_SIZE 0
      else
        let a := if LEnt.argHost e then args else slice e 32 (LEnt.arglen e)
        let c := newCtx s.freeId k n (rd e 4 4) (LEnt.script e) b s.time.gtime (LEnt.deadline e) (LEnt.scope e) (LEnt.nous e)
          (LEnt.lateAbort e) a segs none
        ((s.addCtx c).readArgs c).2

/-- LAUNCH: `args` and `segs` are what host memory holds as arguments with ARGHOST and as the segment table (R401). A launch that is
to be refused for a field waits for no context. -/
def execLaunch (k : Nat) (args segs : Bytes) (s : State) : Outcome State Fault Refusal :=
  .next (match (s.slot k).front with
    | none => s
    | some (_, e) =>
      if launchBad e ∨ s.pwr.lost ∨ (s.ctxFor k ∧ args.length = (if LEnt.argHost e then LEnt.arglen e else 0) ∧ segs.length = 16 * LEnt.nseg e) then
        s.admitOp k 1 (fun n e s => s.launchEntry k n e args segs)
      else s)

/-! ## Choice of clusters (R179) -/

/-- GATHER and POOL operations in flight at the GPE of a die. An operation number that a cancel has abandoned (R102) does not count
(DESIGN CHOICE, log entry 89). -/
def State.gpeOps (s : State) (d : Nat) : Nat := (((s.gpes[d]?).getD .init).ops.filter (·.abandoned.isNone)).length

/-- The pick on one die, ascending, and its score times 64. -/
def State.pickOn (s : State) (k n d : Nat) : Option (List Nat × Nat) :=
  let free := (dieClusters d).filter (fun c => s.inMask k c && s.clOpen c && decide (s.held c < heldLimit))
  if n ≤ free.length then
    let pick := (sortBy (fun c => s.held c * 128 + c) free).take n
    some (sortBy id pick, 64 * (pick.map s.held).sum + s.gpeOps d)
  else none

/-- choose: the first die after the one chosen last with the least score, and the clusters. -/
def State.choose (s : State) (k n : Nat) : Option (Nat × List Nat) :=
  ((List.range 8).foldl (fun (best : Option (Nat × List Nat × Nat)) i =>
    let d := (s.lastDie + 1 + i) % 8
    match s.pickOn k n d, best with
    | none, b => b
    | some (p, sc), none => some (d, p, sc)
    | some (p, sc), some (bd, bp, bs) => if sc < bs then some (d, p, sc) else some (bd, bp, bs)) none).map (fun x => (x.1, x.2.1))

/-! ## Frames and shared areas (R350 to R352) -/

/-- Ranges of a cluster's scratch that frames and shared areas take. -/
def State.taken (s : State) (cl : Nat) : List (Nat × Nat) :=
  (s.ctxs.flatMap (fun c => (c.cls.filter (·.cl == cl)).map (fun k => (k.base, frameBytes (s.image c)))))
    ++ (((s.clusters[cl]?).map (·.shared)).getD []).map (fun (h, e, b, _) => (b, sharedBytes (((s.edition? h e).map (·.image)).getD [])))

/-- The lowest place for n bytes beside the ranges taken. -/
def findRoom (l : List (Nat × Nat)) (n : Nat) : Option Nat :=
  let fits (b : Nat) : Bool := decide (b + n ≤ scrSize) && l.all (fun r => decide (b + n ≤ r.1) || decide (r.1 + r.2 ≤ b))
  ((0 :: l.map (fun r => r.1 + r.2)).filter fits).foldl (fun (m : Option Nat) b => match m with
    | none => some b
    | some x => some (min x b)) none

/-- Places on a cluster for the frame and, when the cluster has none yet, for the shared area. -/
def State.roomOn (s : State) (c : Ctx) (cl : Nat) : Option (Nat × Option Nat) :=
  let img := s.image c
  match findRoom (s.taken cl) (frameBytes img) with
  | none => none
  | some b =>
    if sharedBytes img = 0 ∨ (s.sharedBase c cl).isSome then some (b, none)
    else (findRoom ((b, frameBytes img) :: s.taken cl) (sharedBytes img)).map (fun x => (b, some x))

/-- Where a launch would be placed now: die, and cluster, frame and shared area of each index. -/
def State.placing (s : State) (c : Ctx) : Option (Nat × List (Nat × Nat × Option Nat)) :=
  match s.choose c.slot (Img.clusters (s.image c)) with
  | none => none
  | some (d, cls) =>
    let l := cls.filterMap (fun cl => (s.roomOn c cl).map (fun r => (cl, r.1, r.2)))
    if l.length = cls.length then some (d, l) else none

/-- Open bytes from a physical scratch key on, but for those that are skipped. -/
def State.openCells (s : State) (key : Nat) (skip : Nat → Bool) : Nat → Nat → State
  | _, 0 => s
  | off, n + 1 =>
    if skip off then State.openCells s key skip (off + 1) n
    else
      let (w, s1) := s.free
      State.openCells { s1 with scr := s1.scr.put (key + off) (w.setWidth 8) } key skip (off + 1) n

/-- Fill the buffers of an area of cluster index i (R383): offsets of the shared area count from its start (R351). -/
def State.fillBufs (s : State) (img : Bytes) (cl base i : Nat) (shared : Bool) : State :=
  ((Img.bufs img).filter (fun b => b.shared == shared && b.mask.testBit i)).foldl (fun s b =>
    let at_ := base + (if shared then b.off - sharedStart else b.off)
    match b.init with
    | some o => s.scrWrite cl at_ (slice img o b.bytes)
    | none => if b.zero then s.scrWrite cl at_ (List.replicate b.bytes 0) else s) s

/-- The context's part of a cluster before it starts. -/
def newClCtx (cl base pc : Nat) (now : Word) : ClCtx where
  cl := cl
  base := base
  sreg := List.replicate 32 0
  treg := List.replicate 16 0
  preg := List.replicate 8 false
  pc := pc
  link := []
  loops := []
  aflags := 0
  vflags := 0
  tslot := List.replicate 16 none
  acc := none
  shadow := none
  running := []
  wait := none
  exited := false
  cancelled := false
  acked := false
  arrived := List.replicate 8 none
  dlSeen := List.replicate 8 0
  safes := 0
  since := now
  usedGpe := false
  usedTe := false
  cutGpe := false
  cutTe := false

/-- A launch takes its share of a cluster: the shared area is filled when it is the first of its edition there. -/
def State.takeCluster (s : State) (c : Ctx) (img : Bytes) (i cl : Nat) (shared : Option Nat) : State :=
  let (h, e) := c.bound
  let more (l : List (Nat × Nat × Nat × Nat)) : List (Nat × Nat × Nat × Nat) :=
    l.map (fun (a, b, x, n) => if a = h ∧ b = e then (a, b, x, n + 1) else (a, b, x, n))
  match shared with
  | none => s.modCluster cl (fun k => { k with shared := more k.shared })
  | some b =>
    let s1 := s.modCluster cl (fun k => { k with shared := k.shared ++ [(h, e, b, 1)] })
    (s1.openCells (scrKey cl b) (fun _ => false) 0 (sharedBytes img)).fillBufs img cl b i true

/-- A launch is placed: it holds its clusters, its frames and its share of the shared areas. The rotation of the dies moves on here,
and not with a choice that finds no room for its frames (DESIGN CHOICE, log entry 90). -/
def State.placeCtx (s : State) (c : Ctx) (die : Nat) (l : List (Nat × Nat × Option Nat)) : State :=
  let img := s.image c
  let cls := l.zipIdx.map (fun (x, i) => newClCtx x.1 x.2.1 (Img.entry img (Img.clprog img i)) s.time.gtime)
  let s1 : State := { s with lastDie := die }
  let s2 := s1.modCtx c.id (fun c => { c with st := .placed, die := die, cls := cls })
  l.zipIdx.foldl (fun s (x, i) => s.takeCluster c img i x.1 x.2.2) s2

/-- A launch comes before another in the director's order (R424): by priority, then as admitted. -/
def State.before (s : State) (c d : Ctx) : Bool :=
  decide (rank c.slot < rank d.slot) || (rank c.slot == rank d.slot && decide (s.ctxs.findIdx (·.id == c.id) < s.ctxs.findIdx (·.id == d.id)))

/-- Where the director places a launch now: it waits for those that come before it and could be placed. -/
def State.turn (s : State) (c : Ctx) : Option (Nat × List (Nat × Nat × Option Nat)) :=
  if c.st ≠ .admitted ∨ s.ctxs.any (fun d => decide (d.st = .admitted) && s.before d c && (s.placing d).isSome) then none
  else s.placing c

/-- PLACE_LAUNCH: the deadline monitor acts when a launch is placed. -/
def execPlaceLaunch (ctx : Nat) (s : State) : Outcome State Fault Refusal :=
  .next (s.whenServing fun s =>
    match s.ctx? ctx with
    | none => s
    | some c =>
      match s.turn c with
      | some (d, l) => if c.swapped then s else (s.placeCtx c d l).monitor ctx
      | none => s)

/-! ## Start (R316, R326, R353, R354, R405) -/

/-- A byte of a frame that lies in a ring's slots of a cluster index: slots are not touched at a start (R326). -/
def inRing (rings : List Ring) (i off : Nat) : Bool :=
  rings.any (fun r => r.home == i && decide (r.base ≤ off) && decide (off < r.base + r.slots * r.slotBytes))

/-- The frame of a cluster index as it is at a start: open, but for ring slots and filled buffers (R352, R383). -/
def State.fillFrame (s : State) (img : Bytes) (i : Nat) (k : ClCtx) : State :=
  (s.openCells (scrKey k.cl k.base) (inRing (Img.rings img) i) 0 (frameBytes img)).fillBufs img k.cl k.base i false

/-- A placed launch issues its first instruction: buffers and arguments are written, rings and curtains are at their start. -/
def State.startCtx (s : State) (id : Nat) : State :=
  match s.ctx? id with
  | none => s
  | some c =>
    let img := s.image c
    let s1 := c.cls.zipIdx.foldl (fun s (k, i) => s.fillFrame img i k) s
    let s2 := match c.cls with
      | k :: _ => s1.ctxWrite c k (Img.argOff img) c.args
      | [] => s1
    let s3 := s2.modCtx id (fun c => { c with
      st := .running, started := true, t0 := s.time.gtime, rings := Img.rings img, curtains := Img.curtains img, stallClock := 0, stalled := false })
    (c.cls.map (·.cl)).foldl State.repick s3

/-- How far bytes from 0 on are covered by pieces, from `at_` on. -/
def reach (parts : List (Nat × Bytes)) (at_ : Nat) : Nat → Nat
  | 0 => at_
  | f + 1 =>
    match parts.find? (fun p => decide (p.1 ≤ at_) && decide (at_ < p.1 + p.2.length)) with
    | some p => reach parts (p.1 + p.2.length) f
    | none => at_

/-- Bytes of a Cue segment once every one of them is in (R420). -/
def CueSeg.bytes (g : CueSeg) : Option Bytes :=
  if g.len ≤ reach g.parts 0 g.parts.length then
    some ((List.range g.len).map (fun i =>
      ((g.parts.find? (fun p => decide (p.1 ≤ i) && decide (i < p.1 + p.2.length))).bind (fun p => p.2[i - p.1]?)).getD 0))
  else none

/-- The arguments of a Cue request: `none` while segment 0 is not complete. -/
def CueMsg.args (m : CueMsg) : Option Bytes :=
  match m.segs.find? (·.seg == 0) with
  | some g => g.bytes
  | none => if m.frags.length = m.nfrag then some [] else none

/-- What a queue launch has read from its segment table. -/
def State.takeSegs (s : State) (c : Ctx) : State :=
  let l := segEntries c.segTab
  s.modCtx c.id (fun c => { c with
    segs := (l.filter (fun b => !segReply b)).map segOf
    replyBuf := (l.find? segReply).map (fun b => ((segOf b).addr, (segOf b).len)) })

/-- Arguments do not fit the frame of the edition that is to run. -/
def State.argsTooLong (s : State) (c : Ctx) (n : Nat) : Bool := decide (frameBytes (s.image c) < Img.argOff (s.image c) + n)

/-- A launch that waits for its start has its arguments: a queue launch when arguments and segment table are read and good, a Cue
launch when segment 0 is complete. -/
def State.argsIn (s : State) (c : Ctx) : Bool × State :=
  match c.cue with
  | some m =>
    match m.args with
    | none => (false, s)
    | some a => (true, s.modCtx c.id (fun c => { c with args := a }))
  | none =>
    match s.readArgs c with
    | (.ok, s1) =>
      if segTabBad (((s.edition? c.script c.edition).map (·.image)).getD []) c.segTab then (false, s1.failCtx c.id ST_Q_BAD_ARG)
      else (true, s1.takeSegs c)
    | (_, s1) => (false, s1)

/-- LAUNCH_STARTS. -/
def execLaunchStarts (ctx : Nat) (s : State) : Outcome State Fault Refusal :=
  .next (s.whenServing fun s =>
    match s.ctx? ctx with
    | none => s
    | some c =>
      if c.st ≠ .placed then s
      else
        match s.argsIn c with
        | (true, s1) => s1.startCtx ctx
        | (false, s1) => s1)

/-! ## Segments (R404, R405, R420) -/

/-- Put a segment into a slot of its ring and publish the slot; `none` while the ring is full. -/
def State.putSegment (s : State) (c : Ctx) (reg : Nat) (b : Bytes) (fin : Bool) : Option State :=
  if c.st ≠ .running ∨ c.cls.all (·.cancelled) then none
  else (c.ring? reg).bind (fun r => (c.atIndex r.home).bind (fun h =>
    match r.acqProd with
    | .ok r1 slot _ _ =>
      ((s.setRing c.id r1).ctxWrite c h (r.slotOff slot) b).ringPublish c.id reg b.length fin
    | .bad => some (s.failCtx c.id ST_RING_ORDER)
    | _ => none))

/-- The segment of a queue launch that is delivered next, in table order: its bytes are read from the host. -/
def State.queueSegment (s : State) (c : Ctx) (seg : Nat) (bytes : Bytes) : State :=
  match c.segs with
  | [] => s
  | g :: rest =>
    let n := ((segEntries c.segTab).filter (fun b => !segReply b)).length
    if seg ≠ n - c.segs.length ∨ bytes.length ≠ g.len ∨ (c.ring? g.reg).all (fun r => !r.room) then s
    else
      match s.cfeRead (.args c.id) c.slot g.addr g.len with
      | (.ok, s1) =>
        match s1.putSegment c g.reg bytes g.fin with
        | some s2 => s2.modCtx c.id (fun c => { c with segs := rest })
        | none => s1
      | (_, s1) => s1

/-- A Cue segment is delivered once it is complete and every lower-numbered one of its ring is published. A lower-numbered one of
which no fragment has come may be of that ring until the whole message is in. -/
def State.cueSegment (s : State) (c : Ctx) (m : CueMsg) (seg : Nat) : State :=
  match m.segs.find? (fun g => g.seg == seg && !g.published && g.seg != 0) with
  | none => s
  | some g =>
    let known (j : Nat) : Bool := m.segs.any (·.seg == j) || m.frags.length == m.nfrag
    if m.segs.any (fun h => h.seg != 0 && decide (h.seg < seg) && h.reg == g.reg && !h.published) ∨ !((List.range seg).drop 1).all known then s
    else
      match g.bytes with
      | none => s
      | some b =>
        match s.putSegment c g.reg b g.fin with
        | none => s
        | some s1 => s1.modCtx c.id (fun c => { c with cue := c.cue.map (fun m => { m with segs := m.segs.map (fun h =>
            if h.seg = seg then { h with published := true, parts := [] } else h) }) })

/-- SEGMENT_DELIVERED: nothing is delivered to an understudy. -/
def execSegmentDelivered (ctx seg : Nat) (bytes : Bytes) (s : State) : Outcome State Fault Refusal :=
  .next (s.whenServing fun s =>
    match s.ctx? ctx with
    | none => s
    | some c =>
      if c.st ≠ .running ∨ c.swapped then s
      else
        match c.cue with
        | some m => s.cueSegment c m seg
        | none => s.queueSegment c seg bytes)

/-! ## The understudy and the deadline (R430, R431) -/

/-- UNDERSTUDY_START: no segment is delivered to an understudy. -/
def execUnderstudyStart (ctx : Nat) (s : State) : Outcome State Fault Refusal :=
  .next (s.whenServing fun s =>
    match s.ctx? ctx with
    | none => s
    | some c =>
      if !c.swapped then s
      else
        match s.turn c with
        | none => s
        | some (d, l) =>
          match s.argsIn c with
          | (false, s1) => s1
          | (true, s1) =>
            match s1.ctx? ctx with
            | none => s1
            | some c1 =>
              if s1.argsTooLong c1 c1.args.length then s1.failCtx ctx ST_Q_ARG_SIZE
              else (((((s1.modCtx ctx (fun c => { c with segs := [] })).placeCtx c1 d l).startCtx ctx).latch Reg.CFE_STATUS 4).count Reg.CFE_SWAPS 1))

/-- DEADLINE_REACHED. -/
def execDeadlineReached (ctx : Nat) (s : State) : Outcome State Fault Refusal :=
  .next (s.whenServing fun s =>
    match s.ctx? ctx with
    | none => s
    | some c =>
      if !c.lateAbort ∨ c.deadline = 0 ∨ !s.reached c.deadline.toNat ∨ c.status.isSome ∨ c.st = .ended then s
      else (s.modCtx ctx (fun c => { c with expired := true })).failCtx ctx ST_Q_DEADLINE)

end Sys2Proof.Machine
end

