-- ==== Sys2Proof/Machine/Cue.lean ====
section
/-! DEFINITION. Cue requests on the network ports: bindings, fragments, replies and the names of messages (R417 to R421, R442). -/
namespace Sys2Proof.Machine

/-! ## Bindings (R418, R442) -/

/-- CFE_CUE_BIND of a binding. -/
def Binding.value (b : Binding) : Nat :=
  b2n b.valid * 2 ^ 63 + b.slot * 2 ^ 59 + b.scope * 2 ^ 57 + b2n b.nous * 2 ^ 56 + b2n b.lateAbort * 2 ^ 55 + b.service * 2 ^ 32 + b.script

/-- The binding that a value describes. -/
def bindingOf (v : Nat) : Binding :=
  ⟨v.testBit 63, fld v 62 59, fld v 58 57, v.testBit 56, v.testBit 55, fld v 47 32, fld v 15 0⟩

/-- The binding that CFE_CUE_SEL selects. -/
def State.cueSel (s : State) : Nat := s.regF Reg.CFE_CUE_SEL 5 0
def State.binding (s : State) (i : Nat) : Binding := (s.bindings[i]?).getD .init

/-- The valid binding of a service. -/
def State.bindingOn (s : State) (service : Nat) : Option Binding := s.bindings.find? (fun b => b.valid && b.service == service)

/-- A write of CFE_CUE_BIND, or of a half of it: only VALID changes while the binding is valid, and another field written then is dropped
and sets CFG_ERR (R440, R442). -/
def State.writeBinding (a : Access) (s : State) : State :=
  let i := s.cueSel
  let old := s.binding i
  let new := bindingOf (rwInto a Reg.CFE_CUE_BIND old.value)
  let put (b : Binding) : State := { s with bindings := listMod s.bindings i (fun _ => b) }
  if old.valid then
    if 8 < new.slot then s.latch Reg.CFE_STATUS 3
    else if { new with valid := true } = old then put new
    else ({ s with bindings := listMod s.bindings i (fun _ => { old with valid := new.valid }) } : State).latch Reg.CFE_STATUS 3
  else if 8 < new.slot ∨ (new.valid ∧ s.bindings.any (fun b => b.valid && b.service == new.service)) then s.latch Reg.CFE_STATUS 3
  else put new

/-- CUE_BIND_WRITE. -/
def execCueBindWrite (a : Access) (s : State) : Outcome State Fault Refusal :=
  .next (s.whenOn a Reg.CFE_CUE_BIND (byWords State.writeBinding a))

/-! ## The Cue header (R417) -/

namespace CueHdr
def kind (b : Bytes) : Nat := rd b 3 1
def service (b : Bytes) : Nat := rd b 4 2
def flags (b : Bytes) : Nat := rd b 6 2
def rel (b : Bytes) : Bool := (flags b).testBit 0
def fin (b : Bytes) : Bool := (flags b).testBit 1
def msgid (b : Bytes) : Nat := rd b 8 4
def frag (b : Bytes) : Nat := rd b 12 2
def nfrag (b : Bytes) : Nat := rd b 14 2
def seg (b : Bytes) : Nat := rd b 16 1
def reg (b : Bytes) : Nat := rd b 17 1
def seglen (b : Bytes) : Nat := rd b 20 4
def segoff (b : Bytes) : Nat := rd b 24 4
def time (b : Bytes) : Word := BitVec.ofNat 64 (rd b 28 8)
def payload (b : Bytes) : Bytes := b.drop 48
end CueHdr

/-- A request's header that is wrong, or contradicts R417 by itself. -/
def cueBad (b : Bytes) : Bool :=
  decide (b.length < 48) || rd b 0 2 != 0xC0E5 || rd b 2 1 != 1 || CueHdr.kind b != 0 || crc16 (b.take 46) != rd b 46 2
    || decide (4 ≤ CueHdr.flags b) || CueHdr.nfrag b == 0 || decide (4096 < CueHdr.nfrag b) || decide (CueHdr.nfrag b ≤ CueHdr.frag b)
    || decide (8 ≤ CueHdr.reg b) || (CueHdr.seg b == 0 && CueHdr.reg b != 0) || rd b 18 2 != 0 || !allZero (slice b 36 10)
    || decide (CueHdr.seglen b < CueHdr.segoff b + (CueHdr.payload b).length)

/-- A Cue frame. -/
def cueFrame (kind service msgid frag nfrag status seglen segoff : Nat) (finish : Word) (slip fate : Nat) (payload : Bytes) : Bytes :=
  let h := natLE 2 0xC0E5 ++ natLE 1 1 ++ natLE 1 kind ++ natLE 2 service ++ natLE 2 0 ++ natLE 4 msgid ++ natLE 2 frag ++ natLE 2 nfrag
    ++ natLE 2 0 ++ natLE 2 status ++ natLE 4 seglen ++ natLE 4 segoff ++ natLE 8 finish.toNat ++ natLE 2 slip ++ natLE 1 fate ++ natLE 7 0
  h ++ natLE 2 (crc16 h) ++ payload

/-! ## Replies (R421) -/

/-- Most payload bytes of a reply fragment. -/
abbrev cueChunk : Nat := 8192

/-- Send a reply in fragments, always at least one. -/
def State.sendReply (s : State) (m : CueMsg) (status : Nat) (finish : Word) (slip fate : Nat) (reply : Bytes) : State :=
  let n := max 1 (ceilDiv reply.length cueChunk)
  (List.range n).foldl (fun s i =>
    s.sendFrame m.port (.cueFrame m.port m.v6 (s.portAddr m.port m.v6) (s.regF Reg.CFE_CTL 15 0) m.src m.srcPort
      (cueFrame 1 m.service m.msgid i n status reply.length (cueChunk * i) finish slip fate (slice reply (cueChunk * i) cueChunk)))) s

/-- REASM_US in ticks. -/
def State.reasm (s : State) : Nat := us (s.regF Reg.CFE_CUE 31 16)

/-- Names kept for a message (R419). -/
def CueName.is (n : CueName) (src srcPort msgid : Nat) : Bool := n.src == src && n.srcPort == srcPort && n.msgid == msgid

/-- A new message is refused: it gets one fragment, and its name is kept. -/
def State.refuseCue (s : State) (m : CueMsg) (st : Nat) : State :=
  let fate := if st = ST_Q_DEADLINE then 5 else 0
  let (x, s1) := s.free
  let s2 := (s1.noteFate fate).count Reg.CFE_CUE_REFUSED 1
  ({ s2 with cueNames := s2.cueNames ++ [⟨m.src, m.srcPort, m.msgid, some (s.time.gtime + BitVec.ofNat 64 s.reasm)⟩] } : State).sendReply m st s.time.gtime
    (fld x.toNat 15 0) fate []

/-! ## Fragments (R418 to R420) -/

/-- A frame is dropped and counted. -/
def State.dropCue (s : State) : State := (s.count Reg.CFE_CUE_DROPS 1).latch Reg.CFE_STATUS 6

/-- Status of the segment that a fragment belongs to, for an image. -/
def cueSegStatus (img b : Bytes) : Nat :=
  if CueHdr.seg b = 0 then
    if 2048 < CueHdr.seglen b then ST_Q_CUE_SEG
    else if frameBytes img < Img.argOff img + CueHdr.seglen b then ST_Q_ARG_SIZE
    else ST_OK
  else if (cfeRing img (CueHdr.reg b)).any (fun r => decide (CueHdr.seglen b ≤ r.slotBytes)) then ST_OK
  else ST_Q_CUE_SEG

/-- A fragment contradicts the message or the segment that it belongs to. -/
def CueMsg.contradicts (m : CueMsg) (b : Bytes) : Bool :=
  m.time != CueHdr.time b || m.relative != CueHdr.rel b || m.nfrag != CueHdr.nfrag b || m.service != CueHdr.service b
    || m.segs.any (fun g => g.seg == CueHdr.seg b && (g.reg != CueHdr.reg b || g.len != CueHdr.seglen b || g.fin != CueHdr.fin b))

/-- The message with a fragment placed into its segment. -/
def CueMsg.place (m : CueMsg) (b : Bytes) : CueMsg :=
  let part := (CueHdr.segoff b, CueHdr.payload b)
  let segs := if m.segs.any (·.seg == CueHdr.seg b) then
      modFirst (·.seg == CueHdr.seg b) (fun g => { g with parts := g.parts ++ [part] }) m.segs
    else m.segs ++ [⟨CueHdr.seg b, CueHdr.reg b, CueHdr.seglen b, CueHdr.fin b, [part], false⟩]
  { m with frags := m.frags ++ [CueHdr.frag b], segs := segs }

/-- The message that a first fragment opens. -/
def cueMsgOf (f : CueFrame) (now : Word) : CueMsg :=
  let b := f.payload
  ⟨f.v6, f.srcAddr, f.srcPort, f.port, CueHdr.msgid b, CueHdr.service b, CueHdr.time b, CueHdr.rel b, CueHdr.nfrag b, [], [], now⟩

/-- The deadline of a request: anchored at its first fragment's arrival when relative. -/
def CueMsg.deadline (m : CueMsg) : Word := if m.time = 0 then 0 else if m.relative then m.first + m.time else m.time

/-- A fragment of a message that is being served. -/
def State.cueFragment (s : State) (c : Ctx) (m : CueMsg) (b : Bytes) : State :=
  if m.contradicts b then s.dropCue
  else if m.frags.contains (CueHdr.frag b) then s
  else
    let st := cueSegStatus (((s.edition? c.script c.edition).map (·.image)).getD []) b
    if st ≠ ST_OK then s.failCtx c.id st else s.modCtx c.id (fun c => { c with cue := some (m.place b) })

/-- The first fragment of a new message: it is admitted at once, or refused. -/
def State.cueNew (s : State) (bd : Binding) (m : CueMsg) (b : Bytes) : State :=
  if s.pwr.lost then s.refuseCue m ST_RAS_PART_LOST
  else if (s.slot bd.slot).st ≠ .on then s.refuseCue m ST_Q_SLOT_OFF
  else if !s.belowMax bd.slot ∨ s.freeCtxs = 0 then s.refuseCue m ST_Q_BUSY
  else
    match s.decideAdm bd.slot bd.script bd.nous bd.lateAbort m.deadline with
    | (st, none) => s.refuseCue m st
    | (_, some x) =>
      let st := cueSegStatus x.edition.image b
      if st ≠ ST_OK then s.refuseCue m st
      else
        let c := newCtx s.freeId bd.slot 0 0 bd.script x s.time.gtime m.deadline bd.scope bd.nous bd.lateAbort [] [] (some (m.place b))
        let s1 : State := { s with cueNames := s.cueNames ++ [⟨m.src, m.srcPort, m.msgid, none⟩] }
        (s1.count Reg.CFE_CUE_REQS 1).addCtx c

/-- The launch that serves a message. -/
def Ctx.serves (c : Ctx) (src srcPort msgid : Nat) : Bool := c.cue.any (fun m => m.src == src && m.srcPort == srcPort && m.msgid == msgid)

/-- A Cue datagram that a port takes: a fragment for the Cue port, with a right checksum; any other is dropped and counted (R418, R419, R513). -/
def State.cueFrameIn (s : State) (f : CueFrame) : State :=
  let b := f.payload
  let s1 := s.noteDirect
  if !f.eth.udpOk ∨ f.dstPort ≠ s.regF Reg.CFE_CTL 15 0 then s.dropFrame f.port
  else if !s1.regB Reg.CFE_CTL 31 ∨ cueBad b then s1.dropCue
  else
    match s1.bindingOn (CueHdr.service b) with
    | none => s1.dropCue
    | some bd =>
      match s1.ctxs.find? (·.serves f.srcAddr f.srcPort (CueHdr.msgid b)) with
      | some c =>
        match c.cue with
        | some m => (s1.cueFragment c m b).noteDirect
        | none => s1
      | none =>
        if s1.cueNames.any (·.is f.srcAddr f.srcPort (CueHdr.msgid b)) then s1
        else (s1.cueNew bd (cueMsgOf f s.time.gtime) b).noteDirect

/-- CUE_REQUEST: on a network port or an ETH port (R512). -/
def execCueRequest (f : CueFrame) (s : State) : Outcome State Fault Refusal :=
  .next (s.whenOpen fun s => s.rxUdp f.port f.eth f.v6 (·.cueFrameIn f))

/-- REASSEMBLY_TIMEOUT. -/
def execReassemblyTimeout (ctx : Nat) (s : State) : Outcome State Fault Refusal :=
  .next (s.whenServing fun s =>
    match (s.ctx? ctx).bind (·.cue) with
    | none => s
    | some m =>
      if m.frags.length < m.nfrag ∧ s.reached (m.first.toNat + s.reasm) then s.failCtx ctx ST_Q_CUE_INCOMPLETE else s)

/-- MESSAGE_NAME_EXPIRES. -/
def execMessageNameExpires (src srcPort msgid : Nat) (s : State) : Outcome State Fault Refusal :=
  .next (s.whenServing fun s => { s with
    cueNames := s.cueNames.filter (fun n => !(n.is src srcPort msgid && n.until_.any (fun t => s.reached t.toNat))) })

/-- CUE_REPLY: a launch that failed sends no bytes; one that failed before it ran counts as refused. -/
def execCueReply (ctx : Nat) (s : State) : Outcome State Fault Refusal :=
  .next (s.whenOpen fun s =>
    match s.ctx? ctx with
    | none => s
    | some c =>
      match c.cue with
      | none => s
      | some m =>
        if c.st ≠ .ended then s
        else if !s.scopeClear c.scope c.wrote then s.scopeSnoop c.wrote
        else
          let st := c.status.getD ST_OK
          let s1 := s.scopeRead c.scope (s.qPort c.slot) c.wrote
          let s2 := if st ≠ ST_OK ∧ !c.started then s1.count Reg.CFE_CUE_REFUSED 1 else s1
          let s3 := s2.sendReply m st c.finish c.slip c.fate (if st = ST_OK then c.reply else [])
          let s4 : State := { s3 with cueNames := s3.cueNames.map (fun n =>
            if n.is m.src m.srcPort m.msgid then { n with until_ := some (s.time.gtime + BitVec.ofNat 64 s.reasm) } else n) }
          s4.releaseCtx ctx)

end Sys2Proof.Machine
end

