-- ==== Sys2Proof/Machine/HostOps.lean ====
section
/-! DEFINITION. Host ports, HDM decoders, the host's accesses to the general region, and the errors that the patrol scrub finds
(R449 to R454, R461, R469 to R483, R488). -/
namespace Sys2Proof.Machine

def State.hport (s : State) (p : Nat) : HPort := (s.host.ports[p]?).getD .init

/-! ## Ports (R449, R452, R461, R480, R482) -/

/-- HST_PORT n. -/
def State.hstPort (s : State) (p : Nat) : Nat :=
  let h := s.hport p
  b2n h.up * 2 ^ 31 + b2n h.cache * 2 ^ 30 + b2n h.mem * 2 ^ 29 + b2n h.ats * 2 ^ 28 + b2n h.pri * 2 ^ 27 + b2n h.pasid * 2 ^ 26
    + h.width % 32 * 2 ^ 16 + h.rate % 256


/-- A running transfer of a launch uses the host. -/
def EngOp.onHost (o : EngOp) : Bool :=
  o.kind == .move && o.status == ST_OK && o.xfer.any (fun x => ((x.src == 3 && o.out.isNone) || x.dst == 3 || x.dst == 5) && decide (x.mark < x.runs))

/-- Transfers that run over a port fail with its link: COPY, loads and images of the bulk engine, and MOVE (R464, R480). -/
def State.failTransfers (s : State) (p : Nat) : State :=
  let slots := (List.range 9).filter (fun k => s.qPort k == p)
  let hosted (x : Xfer) : Bool := x.src == 0 || x.dst == 0
  let s1 := slots.foldl (fun s k =>
    (((s.slot k).cmds ++ (s.slot k).loose).filter (fun c => c.status.isNone)).foldl (fun s c =>
      match c.xfer with
      | some x => if hosted x then s.copyFails k c.n x ST_HOST_PORT_DOWN else s
      | none => if (c.op = 0x20 ∨ c.op = 0x21) ∧ rd (argsOf c.entry) 2 1 = 0 then s.endCmd k c.n ST_HOST_PORT_DOWN 0 else s) s) s
  let s2 := (s1.loads.filter (fun l => l.source == 0 && slots.contains l.slot)).foldl (fun s l => s.endLoad l.slot l.n (some ST_HOST_PORT_DOWN)) s1
  (s2.ctxs.filter (fun c => slots.contains c.slot)).foldl (fun s c =>
    c.cls.foldl (fun s k => (k.running.filter (fun o => o.onHost && s.isHead k.cl o)).foldl (fun s o => s.moveFails k.cl c.id o.id ST_HOST_PORT_DOWN) s) s) s2

/-- HOST_LINK_DOWN. -/
def execHostLinkDown (p : Nat) (s : State) : Outcome State Fault Refusal :=
  .next (if !s.portIsUp p then s
    else
      let ws := (s.host.waits ++ s.host.full).filter (·.port == p)
      let s1 := s.modHPort p (fun h => { h with up := false, width := 0, rate := 0 })
      let s2 : State := { s1 with host := { s1.host with
        waits := s1.host.waits.filter (fun w => !(w.port == p))
        full := s1.host.full.filter (fun w => !(w.port == p))
        groups := s1.host.groups.filter (fun g => !(g.port == p)) } }
      let s3 := ws.foldl (fun s w => s.failReq w.who ST_HOST_PORT_DOWN) s2
      let s4 := s3.failTransfers p
      let s5 := ((List.range 9).filter (fun k => s4.qPort k == p && (s4.slot k).st != .off)).foldl (fun s k => s.slotError k ST_OK) s4
      s5.latch Reg.HST_STATUS 2)

/-- PASID_ATS_PRI_ENABLE: `pri` enables page requests with the number of groups that the host allows (R460). Enabling PRI anew ends the
state that a Response Failure left; while one of the three is disabled every access over the port fails, those that wait too (R452,
R461). -/
def execPasidAtsPriEnable (p : Nat) (pasid ats : Bool) (pri : Option Nat) (s : State) : Outcome State Fault Refusal :=
  .next (if !s.portIsUp p then s
    else
      let s1 := s.modHPort p (fun h => { h with
        pasid := pasid, ats := ats, pri := pri.isSome, alloc := pri.getD h.alloc, priFailed := h.priFailed && !(pri.isSome && !h.pri) })
      if s1.xlatOn p then s1.admitFull p else s1.failWaits p ST_XLAT_OFF)

/-- GLOBAL_PERSISTENT_FLUSH. -/
def execGlobalPersistentFlush (p : Nat) (s : State) : Outcome State Fault Refusal := .next (if s.portIsUp p then s.emit (.gpfAck p) else s)

/-- HOST_SNOOP: a line of the host line cache is invalidated, and the device answers (R451). -/
def execHostSnoop (line : Nat) (s : State) : Outcome State Fault Refusal :=
  .next (({ s with host := { s.host with hlc := s.host.hlc.filter (· != line) } } : State).emit (.snoopResp line))

/-! ## HDM (R471, R472, R483) -/

/-- G in GiB. -/
def State.sizeGib (s : State) : Nat := s.hdmSize / 2 ^ 30

def State.committed (s : State) : Bool := s.host.ports.any (·.hdm.isSome)

/-- HST_HDM. -/
def State.hstHdm (s : State) : Nat := b2n s.committed * 2 ^ 31 + s.regF Reg.HST_HDM 26 14 * 2 ^ 14 + s.sizeGib % 2048

/-- HDM_DECODER_COMMIT: one decoder per port. -/
def execHdmDecoderCommit (p base : Nat) (s : State) : Outcome State Fault Refusal :=
  .next (if s.portIsUp p then s.modHPort p (fun h => if h.hdm.isSome then h else { h with hdm := some base }) else s)

/-- Device addresses that a port presents: from and up to. -/
def State.hdmRange (s : State) (p : Nat) : Nat × Nat :=
  let split := s.regF Reg.HST_HDM 26 16 * 2 ^ 30
  match s.regF Reg.HST_HDM 15 14 with
  | 0 => if p = 0 then (0, s.hdmSize) else (0, 0)
  | 1 => if p = 1 then (0, s.hdmSize) else (0, 0)
  | _ => if p = 0 then (0, split) else (split, s.hdmSize)

/-- The device address of a host physical address, through a port that is up with CXL.mem enabled. -/
def State.hdmAddr (s : State) (addr : Nat) : Option Nat :=
  (List.range 2).findSome? (fun p =>
    let h := s.hport p
    let (lo, hi) := s.hdmRange p
    match h.hdm with
    | some base => if h.up && h.mem && decide (base ≤ addr) && decide (addr - base + lo < hi) then some (addr - base + lo) else none
    | none => none)

/-- What the function on a port presents: the two ports carry one Device Serial Number, and each reports the range it carries (R450,
R460, R472). -/
def State.hostFn (s : State) (p : Nat) : HostFn where
  fn := 0
  type := 2
  serial := Config.deviceSerial
  bar0 := 2 ^ 28
  bar2 := 2 ^ 20
  bits64 := true
  prefetchable := false
  range := (s.hdmRange p).2 - (s.hdmRange p).1
  capacity := groupLimit

/-- HST_HDM_WRITE: the ports that are up report their new ranges (R472). -/
def execHstHdmWrite (v : BitVec 32) (s : State) : Outcome State Fault Refusal :=
  .next (s.whenOpen fun s =>
    if s.committed ∨ fld v.toNat 15 14 = 3 then s.latch Reg.HST_STATUS 5
    else
      let s1 := s.setRegN Reg.HST_HDM (min (fld v.toNat 26 16) s.sizeGib * 2 ^ 16 + fld v.toNat 15 14 * 2 ^ 14 + 0x0FC)
      ((List.range 2).filter s1.portIsUp).foldl (fun s p => s.emit (.hostFn p (s1.hostFn p))) s1)

/-- HOST_LINK_UP: the port trains, and presents its function. -/
def execHostLinkUp (p width rate : Nat) (cache mem : Bool) (s : State) : Outcome State Fault Refusal :=
  .next (if s.up ∧ p < 2 ∧ 1 ≤ width ∧ width ≤ 16 then
    (s.modHPort p (fun h => { h with up := true, width := width, rate := rate, cache := cache, mem := mem })).emit (.hostFn p (s.hostFn p)) else s)

/-! ## CXL.mem (R469, R476, R477) -/

/-- Granules that a range of bytes touches. -/
def granulesOf (a n : Nat) : List Nat := (List.range ((a + n - 1) / 32 - a / 32 + 1)).map (· + a / 32)

/-- A stack has failed: reads of the part return poison, and writes are dropped. -/
def State.stackDown (s : State) : Bool := s.mem.state.any (· == 2)

/-- The host may hold a line from now on, or no longer. A snoop completed before it took the line serves no later read (R469). -/
def State.noteLine (s : State) (l : Nat) (holds : Bool) : State :=
  { s with mem := { s.mem with
    snoops := if holds then s.mem.snoops.filter (fun x => !(x == (l, false, true))) else s.mem.snoops
    dirLines := if holds then insertNew l s.mem.dirLines else s.mem.dirLines.filter (· != l) } }

/-- A host read of the general region: each uncorrectable granule is marked poisoned, each poisoned one is logged, and either makes the
data poison (R476). -/
def State.cxlRead (s : State) (addr a n : Nat) (keeps : Bool) : State :=
  let bad := granulesIn s.mem.bad a n
  let old := granulesIn s.mem.poisoned a n
  let s1 := old.foldl (fun s g => s.poisonRead (32 * g)) (bad.foldl (fun s g => s.memBadRead (32 * g)) s)
  let s2 : State := { s1 with mem := { s1.mem with
    poisoned := bad.foldl (fun l g => insertNew g l) s1.mem.poisoned, bad := s1.mem.bad.filter (fun g => !bad.contains g) } }
  (if keeps then s2.noteLine (a / 64) true else s2).emit (.cxlData addr (s.hbmRead a n) (!bad.isEmpty || !old.isEmpty))

/-- A host write of the general region; one with poison marks its granules. -/
def State.cxlWrite (s : State) (a : Nat) (b : Bytes) (poison keeps : Bool) : State :=
  let s1 := s.devWrite a b
  let s2 : State := if poison then { s1 with mem := { s1.mem with poisoned := (granulesOf a b.length).foldl (fun l g => insertNew g l) s1.mem.poisoned } } else s1
  s2.noteLine (a / 64) keeps

/-- CXL_MEM_ACCESS within one 64-byte line, at a host physical address; `keeps` says that the host holds the line afterwards. -/
def execCxlMemAccess (write : Bool) (addr : Nat) (bytes : Bytes) (poison keeps : Bool) (s : State) : Outcome State Fault Refusal :=
  .next (s.whenOpen fun s =>
    match s.hdmAddr addr with
    | none => s
    | some a =>
      if bytes.length = 0 ∨ 64 < a % 64 + bytes.length then s
      else if s.stackDown then if write then s else s.emit (.cxlData addr (s.hbmRead a bytes.length) true)
      else if write then s.cxlWrite a bytes poison keeps
      else s.cxlRead addr a bytes.length keeps)

/-! ## Patrol scrub and stacks (R475 to R477) -/

/-- Lines whose bits of the host-state directory lie in a granule of a stack's reserve. -/
def State.dirLinesIn (s : State) (k byte : Nat) : List Nat :=
  let at_ := byte - (80 * 2 ^ 30 - 2 ^ 28)
  if 160 * 2 ^ 20 ≤ at_ then []
  else (List.range 256).filterMap (fun i => (s.devOf k (s.regF Reg.TBL_HEAP 6 0 * 2 ^ 30 + (at_ * 8 + i) * 64)).map (· / 64))

/-- The patrol has come to a granule of a stack again: MEM_CTL.SCRUB_H hours after it read it last (R475). -/
def State.scrubDue (s : State) (k granule : Nat) : Bool :=
  s.elapsed (s.mem.scrubbed.lookup (k, granule)) (hour * s.regF (Reg.MEM_CTL k) 31 24)

/-- What patrol scrub does with a granule of a stack, by what its read met: a corrected one is rewritten. -/
def State.scrub (s : State) (k granule : Nat) : GranuleHealth → State
  | .good => s
  | .corrected => s.memCorrected k (granule / 8 % 32) granule
  | .uncorrectable =>
    let s1 := s.memUncorrectable k (granule / 8 % 32) granule
    match s.devOf k (granule * 32) with
    | some a => { s1 with mem := { s1.mem with bad := insertNew (a / 32) s1.mem.bad } }
    | none =>
      if 80 * 2 ^ 30 - 2 ^ 28 ≤ granule * 32 then (s.dirLinesIn k (granule * 32)).foldl (fun s l => s.noteLine l true) s1 else s1

/-- PATROL_SCRUB of a granule of a stack: `granule` is its stack byte address over 32. -/
def execPatrolScrub (k granule : Nat) (h : HbmHealth) (s : State) : Outcome State Fault Refusal :=
  .next (if !s.up ∨ (s.mem.state[k]?) ≠ some 1 ∨ 80 * 2 ^ 30 ≤ granule * 32 ∨ !s.scrubDue k granule then s
    else ({ s with mem := { s.mem with scrubbed := keyPut s.mem.scrubbed (k, granule) s.time.gtime } } : State).scrub k granule (healthOf h))

/-- STACK_FAILED: a stack fails training or retraining, or has passed UE_LIMIT. -/
def execStackFailed (k : Nat) (s : State) : Outcome State Fault Refusal :=
  .next (if s.up ∧ k < 16 ∧ (s.mem.state[k]?) ≠ some 2 then s.failStack k else s)

/-- MEM_STAT of a stack. -/
def State.memStat (s : State) (k : Nat) : Nat :=
  ((s.mem.state[k]?).getD 0) * 2 ^ 30 + b2n (s.pwr.refresh2x.contains k) * 2 ^ 29 + wrapI 8 (keyGet 0 s.pwr.sensors (0x20 + k))

end Sys2Proof.Machine
end

