-- ==== Sys2Proof/Machine/Links.lean ====
section
/-! DEFINITION. Twiben ports: enabling, training, IDENT, flits and replay, forwarding (R494 to R511, R523, R524,
R580). -/
namespace Sys2Proof.Machine

/-! ## Computed registers -/

/-- LNK_NODE (R523). -/
def State.lnkNode (s : State) : Nat := s.map * 2 ^ 30 + s.side * 2 ^ 8 + s.link.z * 16 + s.nodeY * 4 + s.nodeX

/-- LNK_PORT n (R524); before the straps are latched DIR reads unused. -/
def State.lnkPort (s : State) (n : Nat) : Nat :=
  match s.link.ports[n]? with
  | none => 0
  | some l =>
    let dir := if s.pwr.stage = .reset then 15 else dirOf s.map n
    let st := if dir = 7 then 4 else l.st
    st * 2 ^ 29 + b2n l.miswired * 2 ^ 28 + dir * 2 ^ 24 + l.peer * 2 ^ 12 + l.peerPort * 2 ^ 7 + l.lanes * 2 ^ 4

/-- LAS_EN is high while O_EN or TWIN_EN is 1 and GASP_N is high (R580). -/
def State.lasEn (s : State) : Bool := (s.regB Reg.LNK_CTL 30 || s.regB Reg.LNK_CTL 29) && s.pwr.gaspN

/-! ## LNK_NODE, LNK_TOPO and LNK_CTL (R496, R511, R523) -/

/-- Send IDENT on a port. -/
def State.sendIdent (s : State) (n : Nat) : State := s.sendEmpty n true (identPayload s.node n s.map)

/-- A write of LNK_NODE: Z takes effect at once, and UP E-ports send IDENT again; dropped while O_EN is 1 or a domain
slot holds a table (R496). -/
def State.writeNode (s : State) (v : Nat) : State :=
  if s.regB Reg.LNK_CTL 30 ∨ !s.tables.isEmpty then s.latch Reg.LNK_STATUS 3
  else
    let s1 : State := { s with link := { s.link with z := fld v 7 4 } }
    ((List.range 24).filter s1.portUp).foldl State.sendIdent s1

/-- A write of LNK_TOPO: dropped while E_EN or O_EN is 1, or when it breaks R510. -/
def State.writeTopo (s : State) (v : Nat) : State :=
  if s.regB Reg.LNK_CTL 31 ∨ s.regB Reg.LNK_CTL 30 ∨ (2 ≤ s.map ∧ fld v 7 2 ≠ 0) then s.latch Reg.LNK_STATUS 3
  else s.setRegN Reg.LNK_TOPO (fld v 7 0)

/-- Whether a value of LNK_CTL enables port n under the map. -/
def State.enabled (s : State) (ctl n : Nat) : Bool :=
  match dirOf s.map n with
  | 0 | 1 | 2 | 3 => ctl.testBit 31
  | 4 | 5 => ctl.testBit 30
  | 6 => ctl.testBit 29
  | _ => false

/-- Whether a port has what it trains with: an O-port its laser input, from the board's source while LAS_EN is high (R494, R580; log
entry 97). -/
def State.lit (s : State) (n : Nat) : Bool := decide (n < 24) || (s.lasEn && s.link.laser.getLsbD (n - 24))

/-- A port when LNK_CTL is written: it starts training, stops, or trains again after a miswiring; without laser input it stays DOWN
(R494, R511). -/
def LPort.enable (l : LPort) (was now lit : Bool) : LPort :=
  if !now then LPort.init
  else if !was ∨ l.miswired then { LPort.init with st := if lit then 1 else 0 }
  else l

/-- A write of LNK_CTL (R511, R523). -/
def State.writeLnkCtl (s : State) (v : Nat) : State :=
  let old := s.regN Reg.LNK_CTL
  let s1 := s.setRegN Reg.LNK_CTL (fld v 31 29 * 2 ^ 29 + fld v 7 0)
  let ports := s1.link.ports.mapIdx (fun n l => l.enable (s.enabled old n) (s.enabled v n) (s1.lit n))
  { s1 with link := { s1.link with ports := ports } }

/-- LNK_NODE_WRITE. -/
def execLnkNodeWrite (v : BitVec 32) (s : State) : Outcome State Fault Refusal :=
  .next (s.whenOpen (·.writeNode v.toNat))

/-- LNK_TOPO_WRITE. -/
def execLnkTopoWrite (v : BitVec 32) (s : State) : Outcome State Fault Refusal :=
  .next (s.whenOpen (·.writeTopo v.toNat))

/-- E_EN: the value is the whole of LNK_CTL. -/
def execEEn (v : BitVec 32) (s : State) : Outcome State Fault Refusal := .next (s.whenOpen (·.writeLnkCtl v.toNat))

/-- O_EN: LAS_EN follows. -/
def execOEn (v : BitVec 32) (s : State) : Outcome State Fault Refusal := .next (s.whenOpen (·.writeLnkCtl v.toNat))

/-- TWIN_EN: LAS_EN follows. -/
def execTwinEn (v : BitVec 32) (s : State) : Outcome State Fault Refusal := .next (s.whenOpen (·.writeLnkCtl v.toNat))

/-! ## Training and IDENT -/

/-- The packets that a port was given and of which no flit has left move to the port that R504 chooses now (R508). -/
def State.rehop (s : State) (n : Nat) (waiting : List TxFlit) : State :=
  (waiting.filter (·.part == 0)).foldl (fun s w =>
    match s.route none 0 w.p.dst (vcOf w.p.body.type) with
    | none => s
    | some (port, dl) => s.putPort w.p port (if dirOf s.map port = dirOf s.map n then w.sub % 2 else dl)) s

/-- An UP port goes down: PORT_DOWN is set, and the flits that it keeps for replay are discarded (R508). -/
def State.portFails (s : State) (n : Nat) (l : LPort) : State :=
  ((s.modLPort n (fun _ => { LPort.init with st := 3 })).latch Reg.LNK_STATUS 0).rehop n l.wait

/-- PORT_TRAINED: an enabled port that trains, or retrains after its retry budget ran out, sends IDENT (R494, R508). A port that is UP
and trains again follows the far end, whose budget ran out: it has gone down first (DEDUCED, log entry 97). -/
def execPortTrained (n lanes : Nat) (s : State) : Outcome State Fault Refusal :=
  .next (s.whenServing fun s =>
    match s.link.ports[n]? with
    | none => s
    | some l =>
      if s.enabled (s.regN Reg.LNK_CTL) n ∧ s.lit n ∧ l.st ≤ 3 ∧ !l.miswired ∧ 1 ≤ lanes ∧ lanes ≤ 4 then
        let s1 := if l.st = 2 then s.portFails n l else s
        (s1.modLPort n (fun l => { l with st := 1, lanes := lanes })).sendIdent n
      else s)

/-- The port that R510 pairs with port n of this part. -/
def State.pairedPort (s : State) (n : Nat) : Option Nat :=
  let d := dirOf s.map n
  ((portsOf s.map d).idxOf? n).bind (fun i => (portsOf s.map (oppDir d))[i]?)

/-- The far end identifies itself: the port becomes UP when node, map and port are what R511 requires, else FAILED with MISWIRED. -/
def State.identified (s : State) (n node port map : Nat) : State :=
  match s.link.ports[n]? with
  | none => s
  | some l =>
    if (l.st = 1 ∧ 0 < l.lanes) ∨ l.st = 2 then
      if node = s.neighbour (dirOf s.map n) ∧ map = s.map ∧ some port = s.pairedPort n then
        s.modLPort n (fun l =>
          if l.st = 2 then { l with peer := node, peerPort := port }
          else { LPort.init with st := 2, peer := node, peerPort := port, lanes := l.lanes })
      else
        let s1 := s.modLPort n (fun l => { LPort.init with st := 3, miswired := true, peer := node, peerPort := port, lanes := l.lanes })
        (s1.latch Reg.LNK_STATUS 1).latch Reg.LNK_STATUS 0
    else s

/-- IDENT. -/
def execIdent (n node port map : Nat) (s : State) : Outcome State Fault Refusal := .next (s.whenServing (·.identified n node port map))

/-! ## Flits and replay (R497 to R500, R507, R508) -/

/-- Flits that LACK acknowledges go, from the oldest up to it. -/
def dropAcked (a : Nat) (l : List TxFlit) : List TxFlit :=
  match l.findIdx? (·.lseq == a) with
  | some i => l.drop (i + 1)
  | none => l

/-- The port after the acknowledgement and the credits of a flit header. -/
def LPort.header (l : LPort) (f : Flit) : LPort :=
  let l1 := match f.ack with
    | none => l
    | some a =>
      let tx := dropAcked a l.tx
      if tx.length = l.tx.length then l else { l with tx := tx, replays := 0, failAt := none }
  { l1 with spent := keyPut l1.spent f.crSub (keyGet 0 l1.spent f.crSub - f.crN) }

/-- The bytes of a sub-channel's packet after a payload. -/
def LPort.bytes (l : LPort) (f : Flit) : Bytes := if f.first then f.payload else keyGet [] l.rx (2 * f.vc + f.dl) ++ f.payload

/-- Those bytes are a whole packet (R498, R500). -/
def LPort.whole (l : LPort) (f : Flit) : Bool := decide (16 + rd (l.bytes f) 6 2 ≤ (l.bytes f).length)

/-- The port after a data flit in order: it takes a receive buffer, and the buffers of a whole packet are given back (R499). -/
def LPort.receive (l : LPort) (f : Flit) : LPort :=
  let sub := 2 * f.vc + f.dl
  let held := keyGet 0 l.rxHeld sub + 1
  { l with
    rxNext := (f.lseq + 1) % 4096
    rxAny := true
    retrying := false
    rx := if l.whole f then keyDel l.rx sub else keyPut l.rx sub (l.bytes f)
    rxHeld := if l.whole f then keyDel l.rxHeld sub else keyPut l.rxHeld sub held
    owe := if l.whole f then keyPut l.owe sub (keyGet 0 l.owe sub + held) else l.owe }

/-- A packet has come in on a port: it goes on through the package, to its die or to the port that it leaves by; one that is for this
part and whose PCRC fails or whose TYPE is unassigned is dropped and counted (R500). -/
def State.packetIn (s : State) (n : Nat) (p : Packet) : State :=
  if locNode p.dst = s.node ∧ (!p.pcrcOk ∨ p.type = 0 ∨ 9 < p.type) then s.count Reg.LNK_PKT_BAD 1
  else s.launch ⟨⟨p.dst, locDie p.src, p.tag, p.gen, .raw p⟩, some n, none⟩

/-- A data flit in order is taken, and acknowledged by an IDLE flit (log entry 96). -/
def State.takeFlit (s : State) (n : Nat) (f : Flit) : State :=
  match s.link.ports[n]? with
  | none => s
  | some l =>
    let s1 := s.modLPort n (fun l => l.receive f)
    (if l.whole f then s1.packetIn n (packetOf f.vc f.dl (l.bytes f)) else s1).sendEmpty n false []

/-- The receiver lacks a flit: it asks for the replay from the first LSEQ that it lacks. -/
def State.askReplay (s : State) (n lseq : Nat) : State :=
  ((s.modLPort n (fun l => { l with retrying := true })).count (Reg.LNK_REPLAYS n) 1).sendEmpty n true (retryPayload lseq)

/-- The flits held from the named LSEQ are sent again, up to eight times for one LSEQ (R507, R508). -/
def State.replay (s : State) (n lseq : Nat) : State :=
  match s.link.ports[n]? with
  | none => s
  | some l =>
    match l.tx.findIdx? (·.lseq == lseq) with
    | none => s
    | some i =>
      let k := if l.replaySeq = lseq then l.replays else 0
      if l.st ≠ 2 ∨ 8 ≤ k then s
      else
        let s1 := s.modLPort n (fun l => { l with replaySeq := lseq, replays := k + 1, failAt := l.failAt.or (some s.time.gtime) })
        s1.emit (.flits n ((l.tx.drop i).map (fun t => t.flit s.node l.lack 0 0)))

/-- RETRY_REQ. -/
def execRetryReq (n lseq : Nat) (s : State) : Outcome State Fault Refusal := .next (s.whenServing (·.replay n lseq))

/-- A control flit: RETRY_REQ, or IDENT (R498). -/
def State.control (s : State) (n : Nat) (b : Bytes) : State :=
  if rd b 0 1 = 1 then s.replay n (rd b 2 2 % 4096)
  else if rd b 0 1 = 2 then s.identified n (rd b 2 2) (rd b 4 1) (rd b 5 1)
  else s

/-- FLIT (R507): a flit that FEC or HCRC fails asks for a replay, while one is awaited too; of a good one the acknowledgement and the
credits are taken, and the port sends what they let it; a data flit is taken in LSEQ order, and an earlier one is a duplicate. -/
def execFlit (n : Nat) (f : Flit) (s : State) : Outcome State Fault Refusal :=
  .next (s.whenServing fun s =>
    match s.link.ports[n]? with
    | none => s
    | some l =>
      if l.st ≠ 2 then s
      else
        let s1 := if f.fecCorrected then s.count (Reg.LNK_FEC_CORR n) 1 else s
        let s2 := if f.fecBad then s1.count (Reg.LNK_FEC_UNCORR n) 1 else s1
        let s3 := if f.crcBad then s2.count (Reg.LNK_CRC_ERR n) 1 else s2
        if f.fecBad || f.crcBad then s3.askReplay n l.rxNext
        else
          let s4 := (s3.modLPort n (·.header f)).portGo n
          if f.ctrl then s4.control n f.payload
          else if f.idle then s4
          else if f.lseq = l.rxNext then s4.takeFlit n f
          else if (l.rxNext + 4096 - f.lseq) % 4096 ≤ 2048 ∨ l.retrying then s4
          else s4.askReplay n l.rxNext)

/-- RETRY_BUDGET_EXHAUSTED: eight replays of one LSEQ, or 4 µs from the first failure (R508); the neighbour is
reported once every port of its direction has FAILED (R543). -/
def execRetryBudgetExhausted (n : Nat) (s : State) : Outcome State Fault Refusal :=
  .next (s.whenServing fun s =>
    match s.link.ports[n]? with
    | none => s
    | some l =>
      if l.st = 2 ∧ (8 ≤ l.replays ∨ l.failAt.any (fun t => s.reached (t.toNat + us 4))) then
        let s1 := s.portFails n l
        let d := dirOf s.map n
        if (portsOf s.map d).all (fun p => (s1.link.ports[p]?).any (·.st == 3)) then s1.reportSuspect (s.neighbour d) true
        else s1
      else s)

/-! ## Forwarding (R502 to R506) -/

/-- FORWARD: a packet for this part is dropped when its header CRC or TYPE is bad; a packet for another node leaves on
the port of R504, a partial by way of the combine buffer (COMBINE_PARTIAL). -/
def execForward (inPort : Option Nat) (p : Packet) (s : State) : Outcome State Fault Refusal :=
  .next (s.whenServing fun s =>
    if locNode p.dst = s.node then
      if !p.pcrcOk ∨ p.type = 0 ∨ 9 < p.type then s.count Reg.LNK_PKT_BAD 1 else s
    else if s.ras.lostNodes.contains (locNode p.dst) then s
    else if p.type = 2 ∧ inPort.isSome then s
    else
      match s.route (inPort.map (fun n => oppDir (dirOf s.map n))) p.dl p.dst p.vc with
      | none => s.latch Reg.LNK_STATUS 2
      | some (port, dl) =>
        let s1 := if inPort.isSome then s.count Reg.LNK_FWD 1 else s
        s1.transmit ⟨p.dst, locDie p.src, p.tag, p.gen, .raw p⟩ port dl)

end Sys2Proof.Machine
end

