-- ==== Sys2Proof/Machine/Mgmt.lean ====
section
/-! DEFINITION. The mailbox, OTP, MCTP, PLDM and SPDM commands of the management subsystem (R547 to R555, R562,
R563). -/
namespace Sys2Proof.Machine

/-! ## OTP (R554) -/

/-- Width of a record in bits. -/
def otpWidth (id : Nat) : Nat :=
  match id with
  | 0 => 128 | 1 => 256 | 2 => 32 | 3 => 256 | 4 => 128 | 5 => 32 | 6 => 32 | _ => 0

/-- Default of a record with no current generation: FENCE holds eight empty entries. -/
def otpDefault (id : Nat) : Nat := if id = 4 then 2 ^ 128 - 1 else 0

def State.otp (s : State) (id : Nat) : Otp := (s.mgmt.otp.find? (·.id == id)).getD ⟨id, [], 0⟩

/-- The current generation of a record (0 = default) and its value: the highest sensed whose CRC passes. -/
def Otp.current (o : Otp) : Nat × Nat :=
  match ((o.gens.take o.sensed).zipIdx.filter (·.1.2)).getLast? with
  | some ((v, _), i) => (i + 1, v)
  | none => (0, otpDefault o.id)

def State.otpValue (s : State) (id : Nat) : Nat := (s.otp id).current.2

/-- Sense the fuses at cold reset; a failing generation is logged. -/
def State.senseOtp (s : State) : State :=
  let bad := s.mgmt.otp.filter (fun o => o.gens.any (fun g => !g.2))
  let s1 : State := { s with mgmt := { s.mgmt with otp := s.mgmt.otp.map (fun o => { o with sensed := o.gens.length }) } }
  bad.foldl (fun s o => s.log 1 ST_MSS_OTP_VERIFY (15 * 4096) none 0 o.id 0) s1

/-- MSS_OTP_INFO of the selected record (R563). -/
def State.otpInfo (s : State) : Nat :=
  let o := s.otp (s.regF Reg.MSS_OTP_SEL 7 0)
  b2n (decide (o.sensed < o.gens.length)) * 2 ^ 31 + otpWidth o.id * 2 ^ 8 + o.gens.length * 8 + o.current.1

/-- MSS_OTP_DATA k of the selected record. -/
def State.otpData (s : State) (k : Nat) : Nat :=
  let o := s.otp (s.regF Reg.MSS_OTP_SEL 7 0)
  o.current.2 % 2 ^ otpWidth o.id / 2 ^ (64 * k) % 2 ^ 64

/-! ## The mailbox (R562) -/

/-- The input or output bytes of MSS_MB_DATA. -/
def State.mbRead (s : State) (n : Nat) : Bytes :=
  ((List.range (ceilDiv n 4)).flatMap (fun i => natLE 4 (s.regN (Reg.MSS_MB_DATA i)))).take n

/-- Fill MSS_MB_DATA from word i with bytes. -/
def State.mbFill (s : State) (i : Nat) : Nat → Bytes → State
  | 0, _ => s
  | n + 1, b => State.mbFill (if b.isEmpty then s else s.setRegN (Reg.MSS_MB_DATA i) (leNat (b.take 4))) (i + 1) n (b.drop 4)

/-- The command ends: its output, its status, MB_DONE. -/
def State.mbEnd (s : State) (status : Nat) (out : Bytes) : State :=
  let s1 := (s.mbFill 0 1024 out).setRegN Reg.MSS_MB_STAT (status * 2 ^ 16 + out.length)
  ({ s1 with mgmt := { s1.mgmt with mbBusy := false } } : State).latch Reg.RAS_STATUS 7

/-- A write of MSS_MB_CTL takes OP and LEN; LEN above 4,096 is malformed. -/
def State.mbFields (s : State) (v : Nat) : State :=
  s.setRegN Reg.MSS_MB_CTL (fld v 23 16 * 2 ^ 16 + fld v 12 0)

/-- A mailbox command with an OP starts when GO is written and none runs; `f` gets the input. A write of GO while one
runs is dropped. -/
def State.mbRun (s : State) (op : Nat) (v : BitVec 32) (f : Bytes → State → State) : State :=
  if !s.barOpen ∨ s.mgmt.mbBusy ∨ !v.getLsbD 31 ∨ fld v.toNat 23 16 ≠ op then s
  else
    let s1 := s.mbFields v.toNat
    let n := fld v.toNat 12 0
    if 4096 < n then s1.mbEnd ST_MSS_BAD_CMD [] else f (s1.mbRead n) s1

/-- An unknown OP fails with ST_MSS_BAD_CMD. -/
def State.mbUnknown (s : State) (v : BitVec 32) : State := (s.mbFields v.toNat).mbEnd ST_MSS_BAD_CMD []

/-- The 32 bytes of a log record (R545). -/
def LogRec.bytes (r : LogRec) : Bytes :=
  let b := natLE 8 r.gtime.toNat ++ natLE 4 r.seq ++ natLE 1 r.sev ++ natLE 1 0 ++ natLE 2 r.code ++ natLE 2 r.unit ++
    natLE 2 (match r.ctx with | some c => c % 4096 + 2 ^ 15 | none => 0) ++ natLE 4 r.info0.toNat ++
    natLE 4 r.info1.toNat ++ natLE 2 r.info2
  b ++ natLE 2 (crc16 b)

/-- LOG_READ: the held records from SEQ onward, at most 127, read from the management SRAM: with an uncorrectable word there,
the part declares itself lost (R533, R545). -/
def execLogRead (v : LogReadIn) (s : State) : Outcome State Fault Refusal :=
  .next (s.mbRun 1 v.value fun inp s0 =>
    let (bad, s) := s0.sramRead v.ecc (7 * 4096 + 1) 0
    if bad then s.declareLost 0x701
    else if inp.length ≠ 4 then s.mbEnd ST_MSS_BAD_CMD []
    else s.mbEnd ST_OK (((s.ras.log.filter (fun r => decide (leNat inp ≤ r.seq))).take 127).flatMap LogRec.bytes))

/-- Whether an ID names a sensor (R548). -/
def sensorId (i : Nat) : Bool :=
  (decide (0x10 ≤ i) && decide (i ≤ 0x19)) || (decide (0x20 ≤ i) && decide (i ≤ 0x30)) || (decide (0x40 ≤ i) && decide (i ≤ 0x48))

def State.sensor (s : State) (i : Nat) : Int := keyGet 0 s.pwr.sensors i

/-- SENSOR_READ: one signed reading per ID. -/
def execSensorRead (v : BitVec 32) (s : State) : Outcome State Fault Refusal :=
  .next (s.mbRun 2 v fun inp s =>
    if 64 < inp.length ∨ inp.any (fun b => !sensorId b.toNat) then s.mbEnd ST_MSS_BAD_CMD []
    else s.mbEnd ST_OK (inp.flatMap (fun b => natLE 4 (wrapI 32 (s.sensor b.toNat)))))

/-- OTP_WRITE: programs one generation and reads it back; a mismatch still counts as written (R555). -/
def execOtpWrite (v : BitVec 32) (readBack : Bool) (s : State) : Outcome State Fault Refusal :=
  .next (s.mbRun 3 v fun inp s =>
    let id := rd inp 0 1
    let o := s.otp id
    if otpWidth id = 0 ∨ inp.length ≠ 2 + otpWidth id / 8 then s.mbEnd ST_MSS_BAD_CMD []
    else if id = 0 then s.mbEnd ST_MSS_OTP_DENIED []
    else if 4 ≤ o.gens.length then s.mbEnd ST_MSS_OTP_FULL []
    else if rd inp 1 1 ≠ o.gens.length + 1 then s.mbEnd ST_MSS_OTP_GEN []
    else
      let g := (leNat (inp.drop 2), readBack)
      let s1 : State := { s with mgmt := { s.mgmt with otp := modFirst (·.id == id) (fun o => { o with gens := o.gens ++ [g] }) s.mgmt.otp } }
      s1.mbEnd (if readBack then ST_OK else ST_MSS_OTP_VERIFY) [])

/-- DUMP: the dump runs until its RDMA WRITE is acknowledged (R549). -/
def execDump (v : BitVec 32) (s : State) : Outcome State Fault Refusal :=
  .next (s.mbRun 4 v fun _ s =>
    match s.writeDump (s.regF Reg.RAS_LAST_CAUSE 11 0) with
    | (0, s1) => { s1 with mgmt := { s1.mgmt with mbBusy := true, dumpBusy := true } }
    | (st, s1) => s1.mbEnd st [])

/-- SHUTDOWN begins an orderly shutdown as a self-loss (R550). -/
def execShutdown (v : BitVec 32) (s : State) : Outcome State Fault Refusal :=
  .next (s.mbRun 5 v fun _ s => (s.mbEnd ST_OK []).declareLost 0x100)

/-- FENCE (R538). -/
def execMbFence (v : BitVec 32) (s : State) : Outcome State Fault Refusal :=
  .next (s.mbRun 6 v fun inp s =>
    let u := leNat inp
    if inp.length ≠ 2 then s.mbEnd ST_MSS_BAD_CMD []
    else if !scored u then s.mbEnd ST_MSS_UNIT []
    else
      let st := (s.unit u).st
      if st = .healthy ∨ st = .suspect then (s.mbEnd ST_OK []).enterFencing u else s.mbEnd ST_OK [])

/-- SELFTEST (R539). -/
def execSelftest (v : BitVec 32) (passed : Bool) (s : State) : Outcome State Fault Refusal :=
  .next (s.mbRun 7 v fun inp s =>
    let u := leNat inp
    if inp.length ≠ 2 then s.mbEnd ST_MSS_BAD_CMD []
    else if !scored u then s.mbEnd ST_MSS_UNIT []
    else (s.mbEnd ST_OK []).selfTest u passed)

/-! ## MCTP bindings (R547) -/

/-- Whether a binding answers: its MGMT_CFG bit, and in recovery only PCIe VDM (R554, R575). -/
def State.mctpOn (s : State) (pcie : Bool) : Bool :=
  s.managed && !((s.otpValue 6).testBit (if pcie then 0 else 1)) && (pcie || !decide (s.pwr.stage = .recovery))

/-- What a binding does with a message, when it answers and the firmware runs. -/
def State.onMctp (s : State) (pcie : Bool) (f : State → State) : State :=
  if s.mctpOn pcie && !decide (s.pwr.stage = .recovery) then f s else s

/-- As `onMctp`, for PLDM Type 5, which the boot ROM serves in recovery too (R575). -/
def State.onUpdate (s : State) (pcie : Bool) (f : State → State) : State := if s.mctpOn pcie then f s else s

/-- MCTP_CONTROL: a Set Endpoint ID (code 1) is taken; every control message is answered. -/
def execMctpControl (pcie : Bool) (code eid : Nat) (s : State) : Outcome State Fault Refusal :=
  .next (s.onMctp pcie fun s =>
    let m := s.regN Reg.MSS_MCTP
    let s1 := if code = 1 then s.setRegN Reg.MSS_MCTP (if pcie then putFld m 7 0 eid else putFld m 15 8 eid) else s
    let m1 := s1.regN Reg.MSS_MCTP
    s1.emit (.mctp pcie "control" (natLE 1 code ++ natLE 1 (if pcie then fld m1 7 0 else fld m1 15 8))))

/-- I3C_DYNAMIC_ADDRESS. -/
def execI3cDynamicAddress (addr : Nat) (s : State) : Outcome State Fault Refusal :=
  .next (if s.managed then s.setRegN Reg.MSS_MCTP (putFld (s.regN Reg.MSS_MCTP) 22 16 addr) else s)

/-- SET_EVENT_RECEIVER (R545). -/
def execSetEventReceiver (pcie : Bool) (eid : Nat) (s : State) : Outcome State Fault Refusal :=
  .next (s.onMctp pcie fun s => { s with mgmt := { s.mgmt with eventReceiver := some (pcie, eid) } })

/-! ## PLDM -/

/-- PLDM_SENSOR_READ: a numeric sensor, or the PDR repository (R547, R548). -/
def execPldmSensorRead (pcie : Bool) (sensor : Option Nat) (s : State) : Outcome State Fault Refusal :=
  .next (s.onMctp pcie fun s =>
    match sensor with
    | none => s.emit (.mctp pcie "pdr repository" [])
    | some i =>
      if sensorId i then s.emit (.mctp pcie "sensor reading" (natLE 4 (wrapI 32 (s.sensor i))))
      else s.emit (.mctp pcie "invalid sensor" []))

/-- PLDM_SHUTDOWN (R550). -/
def execPldmShutdown (pcie : Bool) (s : State) : Outcome State Fault Refusal :=
  .next (s.onMctp pcie fun s => s.declareLost 0x101)

/-! ## Firmware (R551, R552) -/

/-- SVN floor of a component: its byte of MIN_SVN. -/
def State.minSvn (s : State) (c : Nat) : Nat := s.otpValue 2 / 2 ^ (8 * (c - 1)) % 256

/-- The checks of R552 step 3, in order; ST_OK when the image passes. -/
def State.fwCheck (s : State) (c : Nat) (img : Bytes) : Nat :=
  let body := img.drop 256
  if img.length < 256 ∨ rd img 0 4 ≠ 0x46575551 ∨ rd img 4 2 ≠ c ∨ rd img 6 2 ≠ 1 ∨ !allZero (slice img 13 3)
      ∨ 8388608 < rd img 16 4 ∨ rd img 16 4 ≠ body.length ∨ !allZero (slice img 180 76) then ST_MSS_FW_FORMAT
  else if Config.sha256 (slice img 52 64) ≠ natLE 32 (s.otpValue 1) then ST_MSS_FW_SIG
  else if !Config.ecdsaVerify (slice img 52 64) (Config.sha256 (img.take 116)) (slice img 116 64) then ST_MSS_FW_SIG
  else if rd img 12 1 < s.minSvn c then ST_MSS_FW_SVN
  else if Config.sha256 body ≠ slice img 20 32 then ST_MSS_FW_SIG
  else ST_OK

/-- The image in a bank of a component. -/
def State.bank (s : State) (c : Nat) (b : Bool) : Bytes :=
  ((s.mgmt.banks.find? (fun e => e.1 == c && e.2.1 == b)).map (·.2.2)).getD []

def MgmtSt.putBank (m : MgmtSt) (c : Nat) (b : Bool) (img : Bytes) : MgmtSt :=
  { m with banks := (c, b, img) :: m.banks.filter (fun e => !(e.1 == c && e.2.1 == b)) }

/-- Whether bank B of a component is active. -/
def State.bankB (s : State) (c : Nat) : Bool := s.mgmt.activeB.getD (c - 1) false

/-- REQUEST_UPDATE: refused while an update runs. -/
def execRequestUpdate (pcie : Bool) (s : State) : Outcome State Fault Refusal :=
  .next (s.onUpdate pcie fun s =>
    if s.mgmt.fw.isSome then s.emit (.mctp pcie "update refused" [])
    else ({ s with mgmt := { s.mgmt with fw := some ⟨none, [], false⟩ } } : State).emit (.mctp pcie "update accepted" []))

/-- PASS_COMPONENT_TABLE: components 1 to 3 are accepted. -/
def execPassComponentTable (pcie : Bool) (comp : Nat) (s : State) : Outcome State Fault Refusal :=
  .next (s.onUpdate pcie fun s =>
    match s.mgmt.fw with
    | none => s.emit (.mctp pcie "no update" [])
    | some u =>
      if 1 ≤ comp ∧ comp ≤ 3 then
        ({ s with mgmt := { s.mgmt with fw := some { u with table := true } } } : State).emit (.mctp pcie "component accepted" (natLE 2 comp))
      else s.emit (.mctp pcie "component refused" (natLE 2 comp)))

/-- UPDATE_COMPONENT: the image of a component is now received into its inactive bank. -/
def execUpdateComponent (pcie : Bool) (comp : Nat) (s : State) : Outcome State Fault Refusal :=
  .next (s.onUpdate pcie fun s =>
    match s.mgmt.fw with
    | none => s.emit (.mctp pcie "no update" [])
    | some u =>
      if u.table ∧ 1 ≤ comp ∧ comp ≤ 3 then
        ({ s with mgmt := { s.mgmt with fw := some { u with comp := some comp, bytes := [] } } } : State).emit (.mctp pcie "firmware data wanted" (natLE 2 comp))
      else s.emit (.mctp pcie "component refused" (natLE 2 comp)))

/-- A whole image is in the inactive bank: it is checked, and marked pending, or ACTIVE in recovery (R552, R575). -/
def State.fwVerify (s : State) (c : Nat) (img : Bytes) : State :=
  let st := s.fwCheck c img
  let m := { s.mgmt.putBank c (!s.bankB c) img with fw := some ⟨none, [], true⟩, fwStatus := st }
  if st ≠ ST_OK then { s with mgmt := m }
  else if s.pwr.stage = .recovery then
    { s with mgmt := { m with activeB := m.activeB.modify (c - 1) (fun b => !b) } }
  else ({ s with mgmt := { m with pending := insertNew c m.pending } } : State).latch Reg.RAS_STATUS 9

/-- FIRMWARE_DATA_RECEIVED. -/
def execFirmwareDataReceived (pcie : Bool) (bytes : Bytes) (last : Bool) (s : State) : Outcome State Fault Refusal :=
  .next (s.onUpdate pcie fun s =>
    match s.mgmt.fw with
    | some ⟨some c, got, t⟩ =>
      if last then (s.fwVerify c (got ++ bytes)).emit (.mctp pcie "verify complete" (natLE 2 (s.fwCheck c (got ++ bytes))))
      else { s with mgmt := { s.mgmt with fw := some ⟨some c, got ++ bytes, t⟩ } }
    | _ => s)

/-- ACTIVATE_FIRMWARE: activation waits for a warm reset; the update ends (R552). -/
def execActivateFirmware (pcie : Bool) (s : State) : Outcome State Fault Refusal :=
  .next (s.onUpdate pcie fun s =>
    ({ s with mgmt := { s.mgmt with fw := none } } : State).emit (.mctp pcie "activation waits for a warm reset" []))

/-- MSS_FW (R563). -/
def State.mssFw (s : State) : Nat :=
  let bitsOf (f : Nat → Bool) : Nat := b2n (f 1) + 2 * b2n (f 2) + 4 * b2n (f 3)
  s.mgmt.fwStatus * 2 ^ 48 + bitsOf (fun c => s.mgmt.pending.contains c) * 16 + bitsOf s.bankB

/-! ## SPDM (R553) -/

/-- The chain of slot 0 is served when its digest is that of CERT_HASH. -/
def State.certOk (s : State) : Bool := Config.sha256 s.mgmt.certChain == natLE 32 (s.otpValue 3)

/-- Index of a binding in the list of negotiated algorithms. -/
def bindingIdx (pcie : Bool) : Nat := if pcie then 0 else 1

/-- GET_VERSION: SPDM 1.2. -/
def execGetVersion (pcie : Bool) (s : State) : Outcome State Fault Refusal :=
  .next (s.onMctp pcie fun s => s.emit (.mctp pcie "version" [0x12]))

/-- GET_CAPABILITIES: certificates, challenge and signed measurements; no key exchange. -/
def execGetCapabilities (pcie : Bool) (s : State) : Outcome State Fault Refusal :=
  .next (s.onMctp pcie fun s => s.emit (.mctp pcie "capabilities: CERT, CHAL, MEAS signed" []))

/-- NEGOTIATE_ALGORITHMS: ECDSA P-256 with SHA-256 when the requester offers both. -/
def execNegotiateAlgorithms (pcie p256 sha : Bool) (s : State) : Outcome State Fault Refusal :=
  .next (s.onMctp pcie fun s =>
    let ok := p256 && sha
    let s1 : State := { s with mgmt := { s.mgmt with spdm := s.mgmt.spdm.modify (bindingIdx pcie) (fun _ => ok) } }
    s1.emit (.mctp pcie (if ok then "algorithms: ECDSA P-256, SHA-256" else "no algorithm") []))

/-- GET_DIGESTS: the digest of slot 0. -/
def execGetDigests (pcie : Bool) (s : State) : Outcome State Fault Refusal :=
  .next (s.onMctp pcie fun s => s.emit (.mctp pcie "digest" (Config.sha256 s.mgmt.certChain)))

/-- GET_CERTIFICATE: a part of the chain, or an SPDM error. -/
def execGetCertificate (pcie : Bool) (slot offset len : Nat) (s : State) : Outcome State Fault Refusal :=
  .next (s.onMctp pcie fun s =>
    if slot = 0 ∧ s.certOk then s.emit (.mctp pcie "certificate" (slice s.mgmt.certChain offset len))
    else s.emit (.mctp pcie "error" []))

/-- CHALLENGE: signed with the identity key, once algorithms are negotiated (log entry 9). -/
def execChallenge (pcie : Bool) (slot : Nat) (nonce : Bytes) (s : State) : Outcome State Fault Refusal :=
  .next (s.onMctp pcie fun s =>
    if slot = 0 ∧ s.mgmt.spdm.getD (bindingIdx pcie) false then
      s.emit (.mctp pcie "challenge auth" (Config.identitySign (nonce ++ Config.sha256 s.mgmt.certChain)))
    else s.emit (.mctp pcie "error" []))

/-- A measurement digest by index (R553). -/
def State.measurement (s : State) (i : Nat) : Bytes :=
  if i = 1 then Config.bootRomDigest
  else if 2 ≤ i ∧ i ≤ 4 then Config.sha256 ((s.bank (i - 1) (s.bankB (i - 1))).drop 256)
  else if i = 5 then Config.sha256 ([1, 2, 3, 4, 5, 6].flatMap (fun id => natLE (otpWidth id / 8) (s.otpValue id)))
  else []

/-- GET_MEASUREMENTS: one measurement, or all with index 255, signed. -/
def execGetMeasurements (pcie : Bool) (index : Nat) (nonce : Bytes) (s : State) : Outcome State Fault Refusal :=
  .next (s.onMctp pcie fun s =>
    if s.mgmt.spdm.getD (bindingIdx pcie) false ∧ (index ≤ 5 ∨ index = 255) then
      let m := if index = 0 then [5] else if index = 255 then [1, 2, 3, 4, 5].flatMap s.measurement else s.measurement index
      s.emit (.mctp pcie "measurements" (m ++ Config.identitySign (nonce ++ m)))
    else s.emit (.mctp pcie "error" []))

end Sys2Proof.Machine
end

