-- ==== Sys2Proof/Machine/Messages.lean ====
section
/-! DEFINITION. Work packets, acknowledgements, the end-to-end timeout, and the loss of another part (R47, R77, R78, R173 to
R177, R216, R217, R509, R541, R543, R544). -/
namespace Sys2Proof.Machine

/-! ## WORK (R47, R501) -/

/-- Rows of a unit that a die no longer holds by the directory are freed there. -/
def State.freeStale (s : State) (u : MigUnit) (die : Nat) : State :=
  let gone (h row : Nat) : Bool := (s.table? h).any (fun t => s.unitHolds u t row && !(s.copies die t t.vslot row).contains (s.loc die)
    && !(s.refillTo die t row).contains (s.loc die))
  let s1 := (s.dropRows (fun r => r.die == die && gone r.handle r.row)).dropWings die gone
  { s1 with replicas := s1.replicas.filter (fun r => !(r.2.2 == die && gone r.1 r.2.1)) }

/-- A move that another part ran has ended: its records go here, and a copy that it left behind is freed (R167). -/
def State.moveEnded (s : State) (die : Nat) (u : MigUnit) : State :=
  let others (m : Mig) : Bool := if m.moves then locNode m.from_ != s.node else locNode m.to_ != s.node
  ({ s with migs := s.migs.filter (fun m => !(m.unit == u && others m)) } : State).freeStale u die

/-- Where a change of a unit's home puts it. -/
def changeLoc : DirChange → Option Nat
  | .setHome _ _ _ l => some l
  | .moved _ _ l _ _ => some l
  | _ => none

/-- A flip that another part made: the new home takes it at once, and the leader writes it to every directory copy (R167). -/
def State.flipped (s : State) (die : Nat) (u : MigUnit) (c : DirChange) : State :=
  let s1 := if changeLoc c = some (s.loc die) then s.applyDir die c else s
  let waits (m : Mig) : Bool := m.unit == u && locNode m.from_ != s.node && m.st != .draining
  match s1.domOf (s1.unitDom u) with
  | none => s1
  | some (_, d) =>
    if s1.leads d ∧ (s1.migs.any waits ∨ !s1.migs.any (·.unit == u)) then
      (s1.modMig waits (fun m => { m with st := .draining, change := some c })).chorusAll d c
    else s1

/-- A version is created on this part for a load of another: by the version checks of R54, and with heap for it (R52,
R54, R57). -/
def State.reserveVersion (s : State) (h v : Nat) : Nat × State :=
  match s.openTable h with
  | none => (ST_TBL_NO_TABLE, s)
  | some t =>
    if (t.ver? v).any (fun w => w.st == .building && !w.dropped) then (ST_OK, s)
    else if t.build.isSome ∨ (t.ver? v).isSome then (ST_TBL_NOT_BUILDING, s)
    else if 4 ≤ t.versions.length then (ST_TBL_VERSIONS_FULL, s)
    else if s.heapFree < s.newBytes t then (ST_TBL_NO_SPACE, s)
    else (ST_OK, s.newVersion h v)

/-- A reservation that failed on some part is undone on this one (R57). -/
def State.unreserve (s : State) (h v : Nat) : State :=
  if ((s.table? h).bind (·.ver? v)).any (·.st == .building) then (s.dropBuilding h v).killVersion h v else s

/-- A drop carried here: its answer waits until the rows of the version that this part has sent are acknowledged (R595). -/
def State.takeDrop (s : State) (w : WriteHdr) (h v : Nat) : Option Nat × State :=
  let (st, s1) := s.dropTable h v
  let dropped := ((s1.table? h).map (fun t => t.versions.filter (·.dropped))).getD []
  let waits := dropped.flatMap (fun x => s1.rowsOut h x.num)
  if st ≠ ST_OK ∨ waits.isEmpty then (some st, s1) else (none, s1.owe ⟨w, ST_OK, waits, none, []⟩)

/-- What a work message does here, and the status that its acknowledgement carries, or that it is owed. -/
def State.doWork (s : State) (w : WriteHdr) (m : WorkMsg) : Option Nat × State :=
  let ok (s : State) : Option Nat × State := (some ST_OK, s)
  let answers (r : Nat × State) : Option Nat × State := (some r.1, r.2)
  match m with
  | .tblCreate made a => if (s.table? (rd a 0 2)).isSome then (some ST_TBL_HANDLE_BUSY, s) else ok (s.createTable made a)
  | .tblUncreate h made => ok (s.uncreate h made)
  | .mismatch n => ok (s.setMismatch n true)
  | .tblReserve h v => answers (s.reserveVersion h v)
  | .tblUnreserve h v => ok (s.unreserve h v)
  | .tblFallback h v img => ok (s.setFallback h v img)
  | .tblLoaded h v first count => ok (s.rowsArrived h v first count)
  | .tblCommit cid at_ l => if s.commitCheck l = ST_OK then ok ((s.beginCommit cid none at_ l false).commitLoads cid) else (some (s.commitCheck l), s)
  | .loadsDone cid node => ok ((s.modCommit cid (fun c => { c with ready := insertNew node c.ready })).commitReady cid)
  | .commitGo cid => ok (s.commitGo cid)
  | .tblUncommit cid => ok (s.uncommit cid)
  | .tblDrop h v => s.takeDrop w h v
  | .tblUndrop h v => ok (s.undrop h v)
  | .dropFree h v => ok (s.dropFree h v)
  | .rowLost h v row => ok (s.loseRow h v row)
  | .versionFree h v => ok (s.retireDone h v)
  | .zeroRefs h v node => ok (s.noteZero h v node)
  | .switched cid node instant late => ok (s.modCommit cid (fun c => { c with reports := c.reports ++ [⟨node, instant, late⟩] }))
  | .pin op h row copies => answers (s.remotePin (locNode w.src) op h row copies)
  | .pinDone h row status => ok (if isStatus status then s.pinDone h row status else s)
  | .startMove u isB from_ to_ remirror => ok (s.startMove u isB from_ to_ remirror)
  | .takeMove u isB from_ to_ remirror => answers (s.takeMove u isB from_ to_ remirror)
  | .moving u isB from_ to_ remirror change => ok (s.noteMove u isB from_ to_ remirror change)
  | .copyTo h row home to_ pin => ok (s.beginCopy h row home to_ pin)
  | .copied h row vmask to_ pin full => ok (s.landCopied h row vmask to_ pin full)
  | .dropCopy h row => ok { s with reps := s.reps.filter (fun r => !(r.handle == h && r.row == row)) }
  | .rowFailed h row loc => ok (s.rowFailed h row loc)
  | .refilled h row => ok (match (s.table? h).bind s.tableDom with
    | some (_, d) => if s.leads d then s.chorusAll d (.refilled h row) else s
    | none => s)
  | .draining h row from_ to_ => ok (s.startDrain (.row h row) false from_ to_ none)
  | .welcome x => ok (s.landWelcome x)
  | .flipped u c => ok (s.flipped w.die u c)
  | .endMove u => ok (s.moveEnded w.die u)
  | .lowWater n loc epoch => ok (match s.domOf n with
    | some (slot, _) => s.noteLow slot loc epoch
    | none => s)
  | .reserve n node gib => ok (s.takeReserve n node gib)

/-- WORK. -/
def execWork (h : WriteHdr) (m : WorkMsg) (s : State) : Outcome State Fault Refusal :=
  .next (s.whenServing fun s => s.recvOwed h fun s => s.doWork h m)

/-! ## ACK (R217, R509) -/

/-- The unacknowledged write with a number to a location. -/
def State.pend? (s : State) (dst tag : Nat) : Option Pend := s.link.pend.find? (fun e => e.p.dst == dst && e.p.tag == tag && decide (0 < e.attempt))

/-- A write is no longer outstanding. -/
def State.retireWrite (s : State) (e : Pend) : State :=
  { s with link := { s.link with
      pend := s.link.pend.filter (fun x => x.p != e.p)
      owed := s.link.owed.map (fun o => { o with waits := o.waits.filter (· != (e.p.dst, e.p.tag)) }) } }

/-- A record that stream i routed is applied everywhere, or discarded where it would be applied. -/
def State.flightDone (s : State) (i stream : Nat) (seq : Word) (result : Nat) : State :=
  if !(s.strm i).flight.any (fun f => f.seq == seq && f.stream == stream) then s
  else
    let s1 := s.modStrm i (fun x => { x with flight := x.flight.filter (fun f => !(f.seq == seq && f.stream == stream)) })
    if result % 65536 ≠ 0 then s1.discard i (result % 65536)
    else s1.modStrm i (fun x => { x with
      appliedN := x.appliedN + 1
      saturated := if result.testBit 16 then x.saturated + 1 else x.saturated })

/-- The command that waits for a write: a failure ends it, and a load with it, and what it did is undone (R47); else it
ends when nothing is left. A drop that every part has taken does not fail any more: a part that does not answer the release is not
waited for (log entry 95). -/
def State.cmdAnswer (s : State) (cmd : Option (Nat × Nat)) (body : Payload) (result : Nat) : State :=
  match cmd with
  | none => s
  | some (k, n) =>
    if result = ST_OK then s.settleCmd k n
    else
      match body with
      | .work (.dropFree _ _) => s.settleCmd k n
      | .work m => s.cmdFails k n m result
      | _ => if (s.load? k n).isSome then s.endLoad k n (some result) else s.endCmd k n result 0

/-- Every part has room for a version: the RoCEv2 loads that waited for the answers begin to read (R57). -/
def State.startLoads (s : State) (h v : Nat) : State :=
  (s.loads.filter (fun l => l.handle == h && l.ver == v && l.source == 2 && !l.ended && !s.loadHeld l)).foldl
    (fun s l => s.issueReads l 16) s

/-- An answer to rows that this part sent for placement: a replica that the reserve of its part cannot take leaves the creation
(R163), and a home that awaited its copies may have the last of them (log entry 20). -/
def State.rowsAnswered (s : State) (e : Pend) (kind : RowsKind) (h : Nat) (l : List RowImage) (result : Nat) : State :=
  match kind with
  | .replica => if result = ST_OK then s else l.foldl (fun s r => s.replicaRefused h r.row e.p.dst) s
  | .copy => l.foldl (fun s r => s.noteRefilled e.p.die h r.row) s
  | _ => s

/-- A creation of replicas whose home could not be told is given up, and a pin that asked for it fails (R162, R185). -/
def State.creationFails (s : State) (h row : Nat) (targets : List Nat) (pin : Bool) (status : Nat) : State :=
  let s1 := s.giveUpCopy h row targets none
  if pin then s1.pinFails h row status else s1

/-- An answer that is owed until a write is answered takes the result of that write (R167, R595). -/
def State.owedResult (s : State) (e : Pend) (result : Nat) : State :=
  { s with link := { s.link with owed := s.link.owed.map (fun o =>
      if o.waits.contains (e.p.dst, e.p.tag) ∧ o.result = 0 then { o with result := result } else o) } }

/-- What an answer means to the sender of a write. -/
def State.answered (s : State) (e : Pend) (result : Nat) : State :=
  match e.p.body with
  | .work (.pin _ h row _) => if result = ST_OK then s else s.pinDone h row result
  | .work (.takeMove u isB from_ to_ remirror) => s.moveAnswered u isB from_ to_ remirror result
  | .work (.copyTo h row _ to_ pin) => if result = ST_OK then s else s.creationFails h row to_ pin result
  | .work (.copied h row _ _ _ _) =>
    if result = ST_OK then s else { s with reps := s.reps.map (fun r => if r.handle = h ∧ r.row = row then { r with told := false } else r) }
  | .work (.tblReserve h v) => (s.cmdAnswer e.cmd e.p.body result).startLoads h v
  | .work _ => s.cmdAnswer e.cmd e.p.body result
  | .rows kind h v l => match e.cmd with
    | some c => (if result = ST_OK then (s.rowsAcked c h v l).settleCmd c.1 c.2 else s.cmdAnswer e.cmd e.p.body result).settleDrops
    | none => (s.rowsAnswered e kind h l result).owedResult e result
  | .suspect node _ => { s with ras := { s.ras with reports := s.ras.reports.filter (fun r => !(r.node == node)) } }
  | .twin _ _ => match e.rec_ with
    | some (i, seq) => s.modStrm i (fun x => { x with twin := x.twin.filter (· != seq), twinAt := some s.time.gtime })
    | none => s
  | .delta r => match e.rec_ with
    | some (i, seq) => s.flightDone i r.stream seq result
    | none => s.owedResult e result
  | _ => s

/-- A write has failed for good: the command or the placement step that it belongs to fails with a status (R506, R509). -/
def State.workFails (s : State) (e : Pend) (status : Nat) : State :=
  let s1 := s.retireWrite e
  match e.p.body with
  | .work (.startMove u _ _ _ _) => { s1 with migs := s1.migs.filter (fun m => !(m.unit == u && locNode m.from_ != s.node)) }
  | .suspect _ _ => s1
  | _ => s1.answered e status

/-- Writes that wait for the limit or for a resend go out while the limit lets them; one that finds no route fails (R506). -/
def State.drainAll (s : State) (dst : Nat) : Nat → State
  | 0 => s
  | fuel + 1 =>
    if writeLimit ≤ (s.link.pend.filter (fun e => e.p.dst == dst && decide (0 < e.attempt))).length then s
    else
      match s.drain dst with
      | (none, s1) => State.drainAll s1 dst fuel
      | (some (e, st), s1) => State.drainAll (s1.workFails e st) dst fuel

/-- The results that an acknowledgement can carry: a status of R14, with bit 16 for a saturated delta (log entry 81). -/
def ackResult (result : Nat) : Bool := decide (result < 2 ^ 17) && isStatus (result % 65536)

/-- The unacknowledged write that an answer with a GEN is for. -/
def State.answers? (s : State) (src tag gen : Nat) : Option Pend :=
  s.link.pend.find? (fun e => e.p.dst == src && e.p.tag == tag && e.p.gen == gen && decide (0 < e.attempt))

/-- ACK: an answer with the present GEN retires its write; any other is counted: its write was sent again since, to the same place or to
another, and may have been answered (R509). -/
def execAck (src tag gen result : Nat) (s : State) : Outcome State Fault Refusal :=
  .next (s.whenServing fun s =>
    if !ackResult result then s
    else
      match s.answers? src tag gen with
      | none => s.count Reg.LNK_LATE 1
      | some e =>
        let others : State := { s with link := { s.link with pend := s.link.pend.filter (· != e) } }
        let s1 := (others.answered e result).retireWrite e
        (s1.drainAll src s1.link.pend.length).settleOwed)

/-! ## The end-to-end timeout (R216, R509) -/

/-- Send a write once more, with a new generation, TAG unchanged, to the location it now resolves to; whoever waited for it waits for
its new name. It fails with the status of R506 or R544 when it cannot be sent and does not stay. -/
def State.againTo (s : State) (e : Pend) (dst : Nat) : State :=
  let p := { e.p with dst := dst, gen := (e.p.gen + 1) % 256 }
  let e2 := { e with p := p, attempt := 2, since := s.time.gtime, stuck := false }
  let old := (e.p.dst, e.p.tag)
  let (st, s1) := s.post p
  let s2 := ({ s1 with link := { s1.link with
      pend := modFirst (· == e) (fun _ => e2) s1.link.pend
      owed := s1.link.owed.map (fun o => if o.waits.contains old then { o with waits := (dst, e.p.tag) :: o.waits.filter (· != old) } else o) } }
    : State).count Reg.LNK_E2E_RETRY 1
  if st = ST_OK ∨ p.body.keeps st e.cmd then s2 else (s2.workFails e2 st).settleOwed

/-- Send a write once more to where it went. -/
def State.again (s : State) (e : Pend) : State := s.againTo e e.p.dst

/-- A delta of a stream takes the present directory epoch when it is resolved again (R169). -/
def State.retag (s : State) (e : Pend) : State :=
  match e.p.body, e.rec_ with
  | .delta r, some (i, seq) =>
    match (s.table? r.handle).bind s.tableDom with
    | some (slot, _) => s.modStrm i (fun x => { x with flight := x.flight.map (fun f =>
        if f.seq = seq ∧ f.stream = r.stream then { f with epoch := keyGet 0 (s.dir e.p.die).epochs slot } else f) })
    | none => s
  | _, _ => s

/-- A delta that resolves to no apply point any more is discarded as a lost row (R78, R211). -/
def State.dropDelta (s : State) (e : Pend) : State :=
  let others : State := { s with link := { s.link with pend := s.link.pend.filter (· != e) } }
  ((others.answered e ST_FD_LOST_ROW).retireWrite e).settleOwed

/-- Where a forward of an apply point goes when it is sent again: the copy itself while it is one, and copies that have not
had it. -/
def State.againForward (s : State) (e : Pend) (f : RowForward) (o : Owed) : State :=
  match (s.table? f.handle).bind (fun t => (t.ver? f.ver).map (fun v => s.forwardTo e.p.die t v.slot f.row)) with
  | none => s.again e
  | some now =>
    let s1 := if now.any (fun x => x.1 == e.p.dst) then s.again e else s.retireWrite e
    let new := now.filter (fun l => !o.sent.contains l.1)
    let (names, s2) := s1.sendForwards e.p.die f new
    let mine (x : Owed) : Bool := x.h == o.h && x.sent == o.sent
    ({ s2 with link := { s2.link with owed := s2.link.owed.map (fun x =>
        if mine x then { x with waits := x.waits ++ names, sent := x.sent ++ names.map (·.1) } else x) } } : State).settleOwed

/-- The second attempt of a write: its destination is resolved again where R216 says so. -/
def State.secondAttempt (s : State) (e : Pend) : State :=
  let owner := s.link.owed.find? (fun o => o.waits.contains (e.p.dst, e.p.tag) && o.sent.contains e.p.dst)
  match e.p.body with
  | .delta r =>
    match s.table? r.handle with
    | none => s.again e
    | some t =>
      match s.applyPoint e.p.die t t.vslot r.row with
      | none => s.dropDelta e
      | some l => if l = e.p.dst then (s.retag e).again e else (s.retag e).againTo e l
  | .forward f => match owner with
    | some o => s.againForward e f o
    | none => s.again e
  | .chorus (.row f) => match owner with
    | some o => s.againForward e f o
    | none => s.again e
  | _ => s.again e

/-- The second attempt has timed out too. -/
def State.secondTimeout (s : State) (e : Pend) : State :=
  let s1 := s.count Reg.LNK_E2E_FAIL 1
  match e.p.body.type with
  | 4 => (s1.workFails e ST_LNK_TIMEOUT).settleOwed
  | 8 => s1.retireWrite e
  | _ =>
    ({ s1 with link := { s1.link with
        pend := modFirst (fun x => x.p.dst == e.p.dst && x.p.tag == e.p.tag) (fun x => { x with stuck := true }) s1.link.pend } }
      : State).reportSuspect (locNode e.p.dst) false

/-- E2E_TIMEOUT of a write. The timeout of a pooling request is POOL_TIMEOUT. -/
def execE2eTimeout (dst tag : Nat) (s : State) : Outcome State Fault Refusal :=
  .next (s.whenServing fun s =>
    match s.pend? dst tag with
    | none => s
    | some e =>
      if e.stuck ∨ !s.reached (e.since.toNat + s.e2e) then s
      else if e.attempt = 1 then s.secondAttempt e
      else s.secondTimeout e)

/-! ## LOST (R543, R544) -/

/-- A lost part is not waited for: whoever waited for its answer goes on without it (R65, R544). -/
def State.partGone (s : State) (e : Pend) : State :=
  match e.p.body with
  | .rows _ h v l => match e.cmd with
    | some c => (s.rowsGone c h v (locNode e.p.dst) l).settleDrops
    | none => s
  | .work (.tblReserve h v) => (s.cmdAnswer e.cmd e.p.body ST_OK).startLoads h v
  | .work (.pin _ _ _ _) => s
  | .work (.takeMove _ _ _ _ _) => s
  | _ => s.cmdAnswer e.cmd e.p.body ST_OK

/-- Packets for a lost node: those that wait to be sent fail, and writes that wait for its answer are dropped; a delta or
its timer stays, so that it is resolved again (R216). -/
def State.dropPackets (s : State) (node : Nat) : State :=
  let mine (e : Pend) : Bool := locNode e.p.dst == node
  let isDelta (e : Pend) : Bool := match e.p.body with
    | .delta _ => true
    | _ => false
  let gone := s.link.pend.filter (fun e => mine e && !isDelta e)
  let s1 : State := { s with link := { s.link with
    pend := (s.link.pend.filter (fun e => !(mine e && !isDelta e))).map (fun e => if mine e then { e with attempt := 1, stuck := false } else e) } }
  gone.foldl (fun s e =>
    if e.p.body.type = 4 ∧ e.attempt = 0 then s.workFails e ST_RAS_PART_LOST
    else (s.retireWrite e).partGone e) s1

/-- Migrations that involve a lost node (R167). -/
def State.dropMoves (s : State) (node : Nat) : State :=
  let at_ (l : Nat) : Bool := locNode l == node
  (s.migs.filter (fun m => at_ m.from_ || at_ m.to_)).foldl (fun s m =>
    let without : State := { s with migs := s.migs.filter (fun x => !x.same m) }
    if at_ m.from_ then
      (if m.st = .draining ∨ locNode m.to_ ≠ s.node then without else without.freeStale m.unit (locDie m.to_))
    else if locNode m.from_ ≠ s.node then without
    else
      match m.st with
      | .draining => s.endDrain m
      | .inTransit => m.held.foldl State.release (s.abortMove m)
      | _ => s.abortMove m) s

/-- What the leader of a slot does when a member is lost (R173 to R175). -/
def State.promote (s : State) (slot : Nat) (d : Dom) (node : Nat) : State :=
  let at_ (l : Option Nat) : Bool := l.any (fun x => locNode x == node)
  let hit := (List.range (2 ^ d.log2)).filter (fun b => let e := s.bentry 0 slot b; at_ e.homeA || at_ e.homeB)
  let s1 := hit.foldl (fun s b =>
    let e := s.bentry 0 slot b
    let s1 := if at_ e.homeA then s.putDir d (.clearHome d.number b false) else s
    let s2 := if at_ e.homeB then s1.putDir d (.clearHome d.number b true) else s1
    if (s2.bentry 0 slot b).homes.isEmpty then s2.putDir d (.relost d.number b) else s2) s
  (s1.putDir d (.dropNode d.number node)).remirror slot

/-- The loss of a node takes the home of a creation, or its last target. -/
def RepJob.lostBy (r : RepJob) (node : Nat) : Bool := locNode r.home == node || r.targets.all (fun l => locNode l == node)

/-- The leader begins the creation that a pin asked for again, from the homes that are left; the pin fails where it cannot
(R184, R185). -/
def State.pinAgain (s : State) (r : RepJob) : State :=
  match (s.table? r.handle).bind s.tableDom with
  | none => s
  | some (_, d) =>
    if !s.leads d then s
    else
      let (st, s1) := s.leaderPin 1 r.handle r.row r.targets.length
      if st = ST_OK then s1 else s1.pinFails r.handle r.row st

/-- A replica in creation whose home is lost is given up, and its targets free what they hold (R162). -/
def State.dropCopies (s : State) (node : Nat) : State :=
  let gone := s.reps.filter (fun r => locNode r.home == node)
  let s1 : State := { s with reps := (s.reps.filter (fun r => locNode r.home != node)).map (fun r =>
    { r with targets := r.targets.filter (fun l => locNode l != node) }) }
  let s2 : State := { s1 with reps := s1.reps.filter (fun r => !r.targets.isEmpty) }
  gone.foldl (fun s r => (r.targets.filter (fun l => locNode l != node)).foldl (fun s l => s.write 0 l (.work (.endMove (.row r.handle r.row)))) s) s2

/-- Commits that wait for a lost part go on: the issuing part without it, and a part whose issuing part is lost once its own
loads have finished (R64, R65; log entry 88). -/
def State.dropCommits (s : State) (node : Nat) : State :=
  s.commits.foldl (fun s c =>
    if commitNode c.cid = node then
      (if s.loads.any (fun l => c.loads.contains (l.slot, l.n)) then s else s.commitGo c.cid)
    else s.commitReady c.cid) s

/-- A domain slot loses a member: it is live no more, and when it led, the next live member leads (R146). -/
def State.leaveDom (s : State) (slot : Nat) (node : Nat) : State :=
  match s.doms[slot]? with
  | none => s
  | some d =>
    if !(d.valid && d.members.getLsbD (node % 256)) ∨ d.excluded.contains (node % 256) then s
    else
      let d1 := { d with excluded := (node % 256) :: d.excluded, rejoined := d.rejoined.filter (· != node % 256) }
      let s1 := s.modDom slot (fun _ => d1)
      if d.leader = d1.leader then s1 else s1.leaderChanged d.number

/-- The leader of a slot acts on a lost member (R173). -/
def State.loseMember (s : State) (slot : Nat) (node : Nat) : State :=
  match s.doms[slot]? with
  | none => s
  | some d => if d.valid && d.members.getLsbD (node % 256) && s.leads d then s.promote slot d node else s

/-- A node is lost to this part. -/
def State.loseNode (s : State) (node : Nat) : State :=
  if s.ras.lostNodes.contains node then s
  else
    let s1 : State := { s with ras := { s.ras with
      lostNodes := s.ras.lostNodes ++ [node]
      probes := s.ras.probes.filter (fun p => !(p.node == node))
      reports := s.ras.reports.filter (fun p => !(p.node == node)) } }
    if node / 256 ≠ s.side then (s1.dropPackets node).settleOwed
    else
      let a := Reg.RAS_LOST_MAP (node % 256 / 64)
      let s2 := (s1.setReg a (s1.reg a ||| BitVec.ofNat 64 (2 ^ (node % 64)))).latch Reg.RAS_STATUS 5
      let s3 := (List.range 8).foldl (fun s k => s.leaveDom k node) s2
      let s4 := (((s3.dropPackets node).dropMoves node).dropCopies node).dropCommits node
      let s5 := (List.range 8).foldl (fun s k => s.loseMember k node) s4
      ((s3.reps.filter (fun r => r.pin && r.lostBy node)).foldl State.pinAgain s5).settleOwed

/-- LOST: about this part itself; from the lost part to the RAS leader, which declares it; or a declaration (R542 to R544). -/
def execLost (h : WriteHdr) (node : Nat) (s : State) : Outcome State Fault Refusal :=
  .next (s.whenServing fun s => s.recvWrite h fun s =>
    (ST_OK,
      if node = s.node then s.declareLost 0x800
      else if locNode h.src = node ∧ node / 256 = s.side ∧ !s.ras.lostNodes.contains node then s.declareNode node 1
      else s.loseNode node))

end Sys2Proof.Machine
end

