-- ==== Sys2Proof/Machine/NetOps.lean ====
section
/-! DEFINITION. Ethernet ports and RoCEv2 connections (R512 to R514, R525, R527, R528). -/
namespace Sys2Proof.Machine

/-! ## Ports (R512, R513, R527) -/

/-- NP_CTL with LINK. -/
def State.npCtl (s : State) (p : Nat) : Nat := putFld (s.regN (Reg.NP_CTL p)) 30 30 (b2n (s.net.link.getD p false))

/-- NP_FRAME: a frame that is no feed, Cue or PTP frame is answered when it asks for the port's own address, and dropped and counted else, an RDMA
request among them (R513, R514). -/
def execNpFrame (p : Nat) (tag : Option Nat) (len : Nat) (fcsOk query : Bool) (target : Nat) (v6 : Bool) (s : State) : Outcome State Fault Refusal :=
  .next (s.whenServing fun s =>
    if !s.npOn p ∨ !s.npExists p then s
    else if !fcsOk then s.count (Reg.NP_FCS_ERR p) 1
    else
      let s1 := s.rxFrame p
      if s.frameOk p len tag ∧ query ∧ target = s.portAddr p v6 then s1.sendFrame p (.arp p target v6)
      else s1.dropFrame p)

/-- The ticks of a pause: a quantum is the time of 512 bits at 800 Gb/s, 2.56 ticks, rounded up (log entry 98). -/
def pauseTicks (quanta : Nat) : Nat := ceilDiv (quanta * 256) 100

/-- The pauses of a port after a PFC frame at a GTIME: zero quanta end one. -/
def pauseBy (p now : Nat) (honour : Nat) (prios : BitVec 8) (quanta : List Nat) (l : List (Nat × Nat × Nat)) : List (Nat × Nat × Nat) :=
  let named (k : Nat) : Bool := prios.getLsbD k && honour.testBit k
  l.filter (fun e => !(e.1 == p && named e.2.1)) ++
    (((List.range 8).filter (fun k => named k && quanta.getD k 0 != 0)).map (fun k => (p, k, now + pauseTicks (quanta.getD k 0))))

/-- PFC_FRAME_RECEIVED: the pauses of the port change, and frames whose pause has ended go. -/
def execPfcFrameReceived (p : Nat) (prios : BitVec 8) (quanta : List Nat) (s : State) : Outcome State Fault Refusal :=
  .next (s.whenServing fun s =>
    if !s.npOn p ∨ !s.npExists p then s
    else
      let s1 := (s.rxFrame p).count (Reg.NP_PFC_RX p) 1
      ({ s1 with net := { s1.net with paused := pauseBy p s1.now (s1.regF (Reg.NP_CTL p) 23 16) prios quanta s1.net.paused } } : State).resumeFrames)

/-! ## Connections (R514, R528) -/

def State.roce (s : State) (c : Nat) : Roce := (s.net.roce[c]?).getD .init

/-- Every operation on a connection ends: loads with ST_TBL_SOURCE (R58), and a dump of the mailbox. -/
def State.roceEnds (s : State) (c : Nat) : State :=
  let r := s.roce c
  let s1 := s.modRoce c (fun r => { r with reads := [], writes := [], dumping := false })
  let s2 := (s1.loads.filter (fun l => l.source == 2 && l.conn == c)).foldl (fun s l => s.endLoad l.slot l.n (some ST_TBL_SOURCE)) s1
  if r.dumping ∧ s2.mgmt.dumpBusy then
    ({ s2 with mgmt := { s2.mgmt with dumpBusy := false } } : State).mbEnd ST_MSS_NO_CONN []
  else s2

/-- A READY connection enters ERROR with a cause. -/
def State.roceError (s : State) (c cause : Nat) : State :=
  if (s.roce c).st ≠ 1 then s
  else ((s.modRoce c (fun r => { r with st := 2, lastErr := cause })).roceEnds c).latch Reg.LNK_STATUS 4

/-- NP_ROCE_CFG of a connection. -/
def Roce.cfg (r : Roce) : Nat :=
  b2n r.valid * 2 ^ 63 + r.port % 16 * 2 ^ 59 + r.prio % 8 * 2 ^ 56 + r.st % 4 * 2 ^ 54 + r.lastErr % 2 ^ 16 * 2 ^ 32
    + r.ackUs % 256 * 2 ^ 24 + r.rqpn % 2 ^ 24

/-- The fields of a written NP_ROCE_CFG value other than VALID. -/
def Roce.withCfg (r : Roce) (v : Nat) : Roce := { r with port := fld v 62 59, prio := fld v 58 56, ackUs := fld v 31 24, rqpn := fld v 23 0 }

/-- The connection that NP_ROCE_SEL selects. -/
def State.roceSel (s : State) : Nat := s.regF Reg.NP_ROCE_SEL 5 0

/-- A connection starts from PSN 0 at the full rate. -/
def Roce.start (r : Roce) (now : Word) : Roce :=
  { r with valid := true, st := 1, psn := 0, retries := 0, rate := 100, reads := [], writes := [], dumping := false, since := now, rateAt := now }

/-- A write of NP_ROCE_CFG, or of a half of it: the fields beside VALID are taken only while VALID is 0. A connection in ERROR stays there until
VALID is 1 again (R514). -/
def State.writeRoceCfg (a : Access) (s : State) : State :=
  let c := s.roceSel
  let r := s.roce c
  let v := rwInto a Reg.NP_ROCE_CFG r.cfg
  if r.valid then
    let s1 := if r.withCfg v = r then s else s.latch Reg.LNK_STATUS 3
    if v.testBit 63 then s1 else (s1.roceEnds c).modRoce c (fun r => { r with valid := false, st := if r.st = 2 then 2 else 0 })
  else s.modRoce c (fun r => if v.testBit 63 then (r.withCfg v).start s.time.gtime else r.withCfg v)

/-- ROCE_VALID_WRITE. -/
def execRoceValidWrite (a : Access) (s : State) : Outcome State Fault Refusal :=
  .next (s.whenOn a Reg.NP_ROCE_CFG (byWords State.writeRoceCfg a))

/-- The loads of a connection issue the READs that its limit lets out. -/
def State.roceGo (s : State) (c : Nat) : State :=
  (s.loads.filter (fun l => l.source == 2 && l.conn == c)).foldl (fun s l => s.issueReads l 16) s

/-- ROCE_READ_RESPONSE: rows of the oldest READ arrive. -/
def execRoceReadResponse (c psn : Nat) (rows : List RowImage) (s : State) : Outcome State Fault Refusal :=
  .next (s.whenServing fun s =>
    let r := s.roce c
    match r.reads with
    | [] => s
    | (q, k, n, first, m) :: rest =>
      if r.st ≠ 1 ∨ q ≠ psn ∨ rows.isEmpty then s
      else
        let got := rows.take m
        let left := if got.length = m then rest else (q, k, n, first + got.length, m - got.length) :: rest
        let s1 := s.modRoce c (fun r => { r with reads := left, retries := 0, since := s.time.gtime })
        (s1.loadImages k n (got.map (·.image))).roceGo c)

/-- ROCE_ACKNOWLEDGEMENT: WRITEs up to a PSN are retired; a dump is complete when none is left (R549). -/
def execRoceAcknowledgement (c psn : Nat) (s : State) : Outcome State Fault Refusal :=
  .next (s.whenServing fun s =>
    let r := s.roce c
    match r.writes.idxOf? psn with
    | none => s
    | some i =>
      if r.st ≠ 1 then s
      else
        let left := r.writes.drop (i + 1)
        let s1 := s.modRoce c (fun r => { r with writes := left, retries := 0, since := s.time.gtime, dumping := r.dumping && !left.isEmpty })
        if left.isEmpty ∧ r.dumping ∧ s1.mgmt.dumpBusy then
          ({ s1 with mgmt := { s1.mgmt with dumpBusy := false } } : State).mbEnd ST_OK []
        else s1)

/-- The PSN that a connection waits for. -/
def Roce.oldest (r : Roce) : Option Nat := ((r.reads.head?).map (·.1)).or r.writes.head?

/-- ROCE_ACK_TIMEOUT. -/
def execRoceAckTimeout (c : Nat) (s : State) : Outcome State Fault Refusal :=
  .next (s.whenServing fun s =>
    let r := s.roce c
    match r.oldest with
    | none => s
    | some q =>
      if r.st ≠ 1 ∨ !s.reached (r.since.toNat + us r.ackUs) then s
      else if 7 ≤ r.retries then s.roceError c ST_ROCE_RETRY
      else (s.modRoce c (fun r => { r with retries := r.retries + 1, since := s.time.gtime })).sendPrio r.port r.prio (.roceResend c q))

/-- ROCE_NAK that reports a remote error. -/
def execRoceNak (c : Nat) (s : State) : Outcome State Fault Refusal :=
  .next (s.whenServing fun s => s.roceError c ST_ROCE_REMOTE)

/-- CONGESTION_NOTIFICATION. -/
def execCongestionNotification (c : Nat) (s : State) : Outcome State Fault Refusal :=
  .next (s.whenServing fun s =>
    if (s.roce c).st = 1 then s.modRoce c (fun r => { r with rate := r.rate / 2, rateAt := s.time.gtime }) else s)

/-- ROCE_RATE_RECOVERY. -/
def execRoceRateRecovery (c : Nat) (s : State) : Outcome State Fault Refusal :=
  .next (s.whenServing fun s =>
    let r := s.roce c
    if r.st = 1 ∧ r.rate < 100 ∧ s.reached (r.rateAt.toNat + us 50) then
      s.modRoce c (fun r => { r with rate := min 100 (r.rate + 5), rateAt := s.time.gtime })
    else s)

/-! ## Links (R525, R527) -/

/-- NP_LINK_UP. -/
def execNpLinkUp (p : Nat) (s : State) : Outcome State Fault Refusal :=
  .next (if s.up ∧ s.npExists p then { s with net := { s.net with link := listMod s.net.link p (fun _ => true) } } else s)

/-- NP_LINK_DOWN: the pauses of the port end, and its connections enter ERROR. -/
def execNpLinkDown (p : Nat) (s : State) : Outcome State Fault Refusal :=
  .next (if s.up ∧ s.net.link.getD p false then
    let s1 : State := { s with net := { s.net with
      link := listMod s.net.link p (fun _ => false)
      paused := s.net.paused.filter (fun e => !(e.1 == p))
      held := s.net.held.filter (fun e => !(e.1 == p)) } }
    ((List.range 64).foldl (fun s c => if (s.roce c).port = p then s.roceError c ST_ROCE_PORT_DOWN else s) s1).latch Reg.LNK_STATUS 5
  else s)

end Sys2Proof.Machine
end

