-- ==== Sys2Proof/Machine/Power.lean ====
section
/-! DEFINITION. Power, the three resets, and the protection against heat, power and rail faults (R447, R481, R566 to R582,
R590, R591, and what each chapter keeps through a warm reset). -/
namespace Sys2Proof.Machine

/-! ## Registers (R31, R582, R590, R591) -/

/-- A temperature throttles the clocks. -/
def Power.thermal (p : Power) : Bool := !p.thrSensors.isEmpty

/-- Any throttle is in force. -/
def Power.throttled (p : Power) : Bool := p.thermal || p.thrPower || !p.throttleN

/-- DEV_CLK. -/
def State.devClk (s : State) : Nat :=
  let t := s.pwr.throttled
  let hot := s.pwr.thrSensors.any (fun i => decide (0x20 ≤ i) && decide (i ≤ 0x2F))
  (if hot then 6400 else 10000) * 2 ^ 48 + (if t then 1000 else 2000) * 2 ^ 32 + (if t then 800 else 1600) * 2 ^ 16 + (if t then 500 else 1000)

/-- DEV_STAT.STAGE. -/
def Stage.code : Stage → Nat
  | .reset => 0
  | .rom => 1
  | .firmware => 2
  | .training => 3
  | .zeroing => 4
  | .ready => 5
  | .strapFault => 6
  | .recovery => 7

/-- DEV_STAT. -/
def State.devStat (s : State) : Nat :=
  b2n s.barOpen * 2 ^ 31 + s.pwr.stage.code * 2 ^ 28 + b2n (!s.pwr.throttleN) * 2 ^ 26 + b2n s.pwr.thermal * 2 ^ 25 + b2n s.pwr.thrPower * 2 ^ 24
    + s.pwr.lastReset % 4 * 2 ^ 12

/-! ## What a reset releases (R447, R481) -/

/-- A slot that a reset has returned to OFF. -/
def QSlot.offed (q : QSlot) : QSlot := { QSlot.init with count := q.count }

/-- Every context is cancelled and every slot is OFF, with no record; translations and page requests are gone, and the host
line cache holds nothing. -/
def State.releaseAll (s : State) : State :=
  let s1 := s.dropContexts
  { s1 with
    slots := s1.slots.map (·.offed)
    host := { s1.host with hlc := [], xlats := [], waits := [], full := [], groups := [] } }

/-- Loads that satisfy p stop. -/
def State.stopLoads (s : State) (p : Load → Bool) : State :=
  (s.loads.filter p).foldl (fun s l => s.endLoad l.slot l.n (some ST_TBL_SOURCE)) s

/-! ## Cold reset (R572) -/

/-- What a cold reset leaves: OTP and board flash; what the part has sent before and the commands that wait are not of the
part's state. -/
def State.cold (s : State) (powered : Bool) : State :=
  { State.reset with
    pending := s.pending
    out := s.out
    freeCtr := s.freeCtr
    pwr := { Power.init with powered := powered }
    mgmt := { MgmtSt.init with activeB := s.mgmt.activeB, pending := s.mgmt.pending, banks := s.mgmt.banks, certChain := s.mgmt.certChain, otp := s.mgmt.otp } }

/-- RST_N_LOW: a cold reset begins; with the rails down it is the power-up (R568, R571). -/
def execRstNLow (s : State) : Outcome State Fault Refusal := .next (s.cold true)

/-- RAILS_FALL: nothing is retained. -/
def execRailsFall (s : State) : Outcome State Fault Refusal := .next (s.cold false)

/-- A strap set is valid: an odd number of ones, and OB9 and OB10 are 0 (R576). -/
def strapsOk (w : BitVec 12) : Bool :=
  ((List.range 12).filter (fun i => w.getLsbD i)).length % 2 == 1 && !w.getLsbD 9 && !w.getLsbD 10

/-- The flash descriptor is good (R574). -/
def descOk (flash : Bytes) : Bool := rd flash 0 4 == 0x4C465551 && decide (64 ≤ flash.length) && crc32c (flash.take 60) == rd flash 60 4

/-- Whether the descriptor names bank B for a component, and whether a bank of it is pending. -/
def descActiveB (flash : Bytes) (c : Nat) : Bool := descOk flash && rd flash (3 + c) 1 == 1
def descPending (flash : Bytes) (c : Nat) : Bool := descOk flash && rd flash (6 + c) 1 == 1

/-- The bank first tried for a component by the BOOT strap. -/
def bootB (boot : Nat) (flash : Bytes) (c : Nat) : Bool := if boot = 0 then descActiveB flash c else boot == 2

/-- The boot ROM finds a bank for a component: the first tried, or with BOOT 0 the other one. -/
def bootFound (boot : Nat) (first other : List Bool) (c : Nat) : Bool := first.getD (c - 1) false || (boot == 0 && other.getD (c - 1) false)

/-- The management state after the boot ROM: each component runs from the bank found. -/
def MgmtSt.boot (m : MgmtSt) (boot : Nat) (flash : Bytes) (first : List Bool) : MgmtSt :=
  { m with
    activeB := [1, 2, 3].map (fun c => if first.getD (c - 1) false then bootB boot flash c else (if boot = 0 then !bootB boot flash c else bootB boot flash c))
    pending := [1, 2, 3].filter (descPending flash)
    certChain := slice flash 0x1000 65536 }

/-- RAS_CTL as the RAS_CFG record has it (R554, R556). -/
def State.rasCfg (s : State) : State :=
  let v := s.otpValue 5
  let keep (x hi lo : Nat) (n : Nat) : Nat := if x = 0 then n else putFld n hi lo x
  s.setRegN Reg.RAS_CTL (keep (fld v 15 0) 31 16 (keep (fld v 23 16) 15 8 (keep (fld v 27 24) 7 4 (s.regN Reg.RAS_CTL))))

/-- Unit IDs of the FENCE record. -/
def State.fenceRecord (s : State) : List Nat := ((List.range 8).map (fun i => s.otpValue 4 / 2 ^ (16 * i) % 65536)).filter (· != 0xFFFF)

/-- Fence the units that the FENCE record names, at a reset (R538). -/
def State.fenceNamed (s : State) : State :=
  s.fenceRecord.foldl (fun s u => if scored u ∧ ((s.unit u).st = .healthy ∨ (s.unit u).st = .suspect) then s.enterFencing u else s) s

/-- RST_N_RISES. `flash` is the board flash from its first byte; `goodFirst` and `goodOther` say which banks pass their checks:
the bank that the BOOT strap tries first for each component, and the other. -/
def execRstNRises (straps : BitVec 12) (flash : Bytes) (goodFirst goodOther : List Bool) (s : State) : Outcome State Fault Refusal :=
  .next (if !s.pwr.powered ∨ s.pwr.rstN then s
    else
      let s1 : State := { s with pwr := { s.pwr with rstN := true, straps := straps } }
      let s2 := s1.senseOtp
      if !strapsOk straps then { s2 with pwr := { s2.pwr with stage := .strapFault, fatal := true } }
      else
        let boot := fld straps.toNat 8 7
        let s3 := s2.rasCfg
        let s4 : State := { s3 with mgmt := s3.mgmt.boot boot flash goodFirst }
        if boot = 3 ∨ [1, 2, 3].any (fun c => !bootFound boot goodFirst goodOther c) then
          { s4 with pwr := { s4.pwr with stage := .recovery, fatal := true } }
        else
          let fell := [1, 2, 3].filter (fun c => !goodFirst.getD (c - 1) false)
          let s5 := fell.foldl (fun s c => s.log 2 ST_MSS_FW_SIG (15 * 4096) none c 0 0) s4
          ({ s5 with pwr := { s5.pwr with stage := .training } } : State).fenceNamed)

/-- READY: training and zeroing have ended on a part that has not lost itself. -/
def execReady (s : State) : Outcome State Fault Refusal :=
  .next (if s.pwr.powered ∧ s.pwr.rstN ∧ s.pwr.stage = .training ∧ !s.pwr.lost ∧ s.mem.state.all (· != 2) then
    { s with
      pwr := { s.pwr with stage := .ready, lastReset := 0 }
      hbm := []
      mem := { s.mem with state := List.replicate 16 1, poisoned := [], bad := [] } }
  else s)

/-! ## Warm reset (R570, R571) -/

/-- Whether a warm reset keeps a stored register (R90, R140, R196, R243, R348, R387, R447, R490, R530, R564, R591). -/
def keepsWarm (a : Nat) : Bool :=
  decide (a < 0x100000)
    || [Reg.CFE_CTL, Reg.CFE_CUE, Reg.CFE_SCHED, Reg.RING_CTL, Reg.RING_POLICY, Reg.RING_INT_EN, Reg.ISA_LOAD_ERR, Reg.FEED_CTL,
        Reg.FEED_SKID 0, Reg.FEED_SKID 1, Reg.NP_ROCE_SEL, Reg.LNK_TOPO, Reg.LNK_CTL, Reg.LNK_E2E, Reg.LNK_INT_EN, Reg.TIME_CTL,
        Reg.TIME_SKEW, Reg.TIME_ASYM, Reg.TIME_INT_EN, Reg.RAS_CTL, Reg.RAS_LOSS, Reg.RAS_ALERT_EN, Reg.RAS_DUMP, Reg.RAS_LAST_CAUSE].contains a
    || (decide (0x101000 ≤ a) && decide (a < 0x101900) && decide (8 ≤ a % 256) && decide (a % 256 < 0x28))
    || (decide (0x200000 ≤ a) && decide (a < 0x280000))
    || (decide (0x301000 ≤ a) && decide (a < 0x301A00) && decide (a % 256 < 0x40))
    || (decide (0x1000000 ≤ a) && decide (a < 0x2000000) && a % 0x20000 == 8)
    || decide (0x2100000 ≤ a)

/-- Units that copy or hold writes are aborted; their held writes go to the old home (R196). -/
def State.abortMoves (s : State) : State :=
  (s.migs.filter (fun m => (m.st == .copying || m.st == .inTransit) && locNode m.from_ == s.node)).foldl
    (fun s m => m.held.foldl State.release (s.abortMove m)) s

/-- A stream after a warm reset: APPLIED still names the first record that is not applied, so that the producer can resend
from it (R243; log entry 87). -/
def Strm.idle (x : Strm) (applied : Word) : Strm :=
  { x with floor := some applied, active := false, held := [], gap := none, flight := [], marks := [], twin := [], twinAt := none, pairLost := false, twinFirst := false }

/-- A connection after a warm reset (R530). -/
def Roce.idle (r : Roce) : Roce := { r with st := 0, reads := [], writes := [], dumping := false, retries := 0, rate := 100 }

/-- A part that had lost itself comes back with no homes: its own copies of the directory name none on it, its rows are gone,
and it waits to be admitted to its domains (R176, R542). -/
def State.homeless (s : State) : State :=
  let mine (l : Option Nat) : Bool := l.any (fun x => locNode x == s.node)
  let s1 := (List.range 8).foldl (fun s slot =>
    match s.doms[slot]? with
    | none => s
    | some d =>
      if !d.valid then s
      else
        (List.range 8).foldl (fun s die => (List.range (2 ^ d.log2)).foldl (fun s b =>
          let e := s.bentry die slot b
          if mine e.homeA || mine e.homeB then
            s.setBentry die slot b { e with homeA := if mine e.homeA then none else e.homeA, homeB := if mine e.homeB then none else e.homeB }
          else s) s) (s.modDom slot (fun d => { d with excluded := insertNew s.member d.excluded }))) s
  { s1 with heap := [], replicas := [], migs := [], dirs := s1.dirs.map (fun d => d.dropNode s.node (fun _ => true)) }

/-- Pins in progress fail when a warm reset takes away what they wait for (DESIGN CHOICE, log entry 93). -/
def State.endPins (s : State) : State :=
  let s1 := s.pinJobs.foldl (fun s j => s.write 0 j.node (.work (.pinDone j.handle j.row ST_PLC_PIN_BUSY))) s
  { s1 with
    pinJobs := []
    pin := if s1.pin.busy ∧ s1.pin.outcome = 0 then { s1.pin with outcome := ST_PLC_PIN_BUSY, remote := false } else s1.pin }

/-- A warm reset begins: READY reads 0, contexts and slots are released, migrations aborted, the feed emptied, and every engine,
link and counter that no chapter keeps starts afresh. A feed port is ON or OFF at once by its EN bit, with no STARTING
and no frame of pause release (DESIGN CHOICE, log entry 94). -/
def State.warmStart (s : State) : State :=
  let s1 := s.abortMoves.endPins.releaseAll.stopLoads (fun _ => true)
  let s2 := if s1.pwr.lost then s1.homeless else s1
  { s2 with
    regs := s2.regs.filter (fun e => keepsWarm e.1)
    pwr := { s2.pwr with warm := true, warmWaits := false }
    gpes := s2.gpes.map (fun _ => Gpe.init)
    reqs := []
    reads := []
    combine := []
    reps := []
    lastDie := 7
    fports := [s2.regB Reg.FEED_CTL 30, s2.regB Reg.FEED_CTL 31].map (fun on => { FPort.init with st := if on then .on else .off })
    strms := s2.strms.mapIdx (fun i x => x.idle (s.applied i))
    pair := Pair.init
    clusters := (List.range 128).map Cluster.init
    cueNames := []
    direct := false
    mem := { s2.mem with state := List.replicate 16 0, snoops := [] }
    link := { LinkSt.init with z := s2.link.z }
    net := { link := List.replicate 10 false, paused := [], held := [], roce := s2.net.roce.map (·.idle) }
    ras := { s2.ras with probes := [], reports := [], lostNodes := [] }
    mgmt := { s2.mgmt with fw := none, fwStatus := 0, mbBusy := false, dumpBusy := false, eventReceiver := none, spdm := [false, false] } }

/-- Ask for a warm reset: it waits for an FLR, and one that runs ignores it. -/
def State.warmRequest (s : State) : State :=
  if s.pwr.warm then s
  else if !s.pwr.flr.isEmpty then { s with pwr := { s.pwr with warmWaits := true } }
  else s.warmStart

/-- WARM_RESET: a write of DEV_RST; without WARM or with another KEY it is dropped. -/
def execWarmReset (v : BitVec 32) (s : State) : Outcome State Fault Refusal :=
  .next (s.whenOpen fun s => if v.getLsbD 31 ∧ fld v.toNat 7 0 = 0xA5 then s.warmRequest else s)

/-- PLDM_RESET. -/
def execPldmReset (pcie : Bool) (s : State) : Outcome State Fault Refusal := .next (s.onMctp pcie (·.warmRequest))

/-- A pending bank of a component is checked, and becomes active or is left (R552). -/
def State.activate (s : State) (c : Nat) : State :=
  let st := s.fwCheck c (s.bank c (!s.bankB c))
  if st = ST_OK then { s with mgmt := { s.mgmt with activeB := s.mgmt.activeB.modify (c - 1) (fun b => !b) } }
  else ({ s with mgmt := { s.mgmt with fwStatus := st } } : State).log 2 st (15 * 4096) none c 0 0

/-- WARM_RESET_DONE: pending firmware is active, the Wings caches are empty and ON, enabled Twiben ports retrain, stacks are
ACTIVE, and READY reads 1; FLRs that were absorbed are complete. A stack that failed while it retrained stays FAILED, and the part that
it made lost stays lost (R477). -/
def execWarmResetDone (s : State) : Outcome State Fault Refusal :=
  .next (if !s.pwr.warm then s
    else
      let s1 := s.mgmt.pending.foldl State.activate s
      let ctl := s1.regN Reg.LNK_CTL
      let s2 : State := { s1 with
        mgmt := { s1.mgmt with pending := [] }
        mem := { s1.mem with state := s1.mem.state.map (fun x => if x = 2 then 2 else 1) }
        pwr := if s1.mem.state.any (· == 2) then { s1.pwr with warm := false, lastReset := 1, flrAbsorbed := [] }
          else { s1.pwr with warm := false, lost := false, fatal := false, gaspN := true, gaspCode := none, lastReset := 1, flrAbsorbed := [] } }
      ({ s2 with
        link := { s2.link with ports := s2.link.ports.mapIdx (fun n l => if s1.enabled ctl n then { LPort.init with st := if s2.lit n then 1 else 0 } else l) } }
        : State).fenceNamed)

/-! ## Function-level reset (R570, R571) -/

/-- The configuration space of a port's function returns to its defaults; PERST# takes the link down too. -/
def HPort.flr (h : HPort) (perst : Bool) : HPort :=
  let h1 := { h with ats := false, pri := false, pasid := false, priFailed := false }
  if perst then { h1 with up := false, width := 0, rate := 0 } else h1

/-- The function of a port is reset; a link that PERST# takes down sets PORT_DOWN (R480). -/
def State.functionReset (s : State) (p : Nat) (perst : Bool) : State :=
  let s1 := s.modHPort p (·.flr perst)
  if perst && s.portIsUp p then s1.latch Reg.HST_STATUS 2 else s1

/-- FUNCTION_LEVEL_RESET. -/
def execFunctionLevelReset (p : Nat) (perst : Bool) (s : State) : Outcome State Fault Refusal :=
  .next (if !s.pwr.powered ∨ !s.pwr.rstN ∨ s.pwr.stage ≠ .ready ∨ 2 ≤ p then s
    else if s.pwr.warm then
      let s1 := s.functionReset p perst
      { s1 with pwr := { s1.pwr with flrAbsorbed := insertNew p s1.pwr.flrAbsorbed } }
    else
      let s1 := (s.releaseAll.stopLoads (fun l => l.source == 0)).functionReset p perst
      { s1 with pwr := { s1.pwr with flr := insertNew p s1.pwr.flr } })

/-- FLR_DONE: a warm reset that waited begins. -/
def execFlrDone (s : State) : Outcome State Fault Refusal :=
  .next (if s.pwr.flr.isEmpty then s
    else
      let s1 : State := { s with pwr := { s.pwr with flr := [], lastReset := 2, warmWaits := false } }
      if s.pwr.warmWaits then s1.warmStart else s1)

/-! ## Rails, heat, power and the throttle input (R569, R581) -/

/-- RAIL_FAULT. -/
def execRailFault (rail : Nat) (s : State) : Outcome State Fault Refusal :=
  .next (if s.up ∧ rail < 9 then s.declareLost (0x300 + rail) else s)

/-- A list with x in it or not: in from `hi` up, out below `lo`, else as it was. -/
def band (x : Nat) (v hi lo : Int) (l : List Nat) : List Nat :=
  if hi ≤ v then insertNew x l else if v < lo then l.filter (· != x) else l

/-- The thresholds of a sensor after a reading. -/
def Power.reading (p : Power) (i : Nat) (v : Int) : Power :=
  let p1 := { p with sensors := keyPut p.sensors i v }
  if 0x10 ≤ i ∧ i ≤ 0x19 then
    { p1 with thermAlert := band i v 100 97 p.thermAlert, thrSensors := band i v 105 102 p.thrSensors }
  else if 0x20 ≤ i ∧ i ≤ 0x2F then
    { p1 with
      refresh2x := if 85 < v then insertNew (i - 0x20) p.refresh2x else p.refresh2x.filter (· != i - 0x20)
      thermAlert := band i v 92 89 p.thermAlert
      thrSensors := band i v 95 92 p.thrSensors }
  else if i = 0x30 ∧ v < 2300 then { p1 with thrPower := false }
  else p1

/-- SENSOR_UPDATE. -/
def execSensorUpdate (sensor : Nat) (value : Int) (s : State) : Outcome State Fault Refusal :=
  .next (if s.up ∧ sensorId sensor then { s with pwr := s.pwr.reading sensor value } else s)

/-- OVER_TEMPERATURE: a reading at the self-loss threshold has held for 1 ms. -/
def execOverTemperature (sensor : Nat) (s : State) : Outcome State Fault Refusal :=
  .next (if !s.up then s
    else if 0x10 ≤ sensor ∧ sensor ≤ 0x19 ∧ 115 ≤ s.sensor sensor then s.declareLost (0x200 + (sensor - 0x10))
    else if 0x20 ≤ sensor ∧ sensor ≤ 0x2F ∧ 105 ≤ s.sensor sensor then s.declareLost (0x210 + (sensor - 0x20))
    else s)

/-- POWER_LIMIT: a reading above 2,400 W has held for 1 ms. -/
def execPowerLimit (s : State) : Outcome State Fault Refusal :=
  .next (if s.up ∧ 2400 < s.sensor 0x30 then { s with pwr := { s.pwr with thrPower := true } } else s)

/-- THROTTLE_N falls or rises; in a last gasp the land carries a code bit. -/
def execThrottleN (high : Bool) (s : State) : Outcome State Fault Refusal :=
  .next (if s.up ∧ s.pwr.gaspN then
    { s with pwr := { s.pwr with throttleN := high, thrSince := if s.pwr.throttleN then s.time.gtime else s.pwr.thrSince } }
  else s)

/-- SHUT_MS. -/
def State.shutMs (s : State) : Nat := s.regF Reg.DEV_PWR 31 16

/-- THROTTLE_SHUTDOWN: an orderly shutdown; SHUT_MS 0 means never. -/
def execThrottleShutdown (s : State) : Outcome State Fault Refusal :=
  .next (if s.up ∧ !s.pwr.throttleN ∧ 0 < s.shutMs ∧ s.reached (s.pwr.thrSince.toNat + ms s.shutMs) then s.declareLost 0x102 else s)

end Sys2Proof.Machine
end

