-- ==== Sys2Proof/Machine/Time.lean ====
section
/-! DEFINITION. GTIME, markers, the leader's servo, PTP and the tick (R515 to R522, R529). -/
namespace Sys2Proof.Machine

/-- Periods of the rack clock between two markers. -/
abbrev periodsPerMarker : Nat := 156250000

/-- TIME_CTL.ROLE. -/
def State.role (s : State) : Nat := s.regF Reg.TIME_CTL 31 30

/-- TIME_SKEW and TIME_ASYM, in ticks. -/
def State.skew (s : State) : Int := sext 32 (s.regN Reg.TIME_SKEW)
def State.asym (s : State) : Int := sext 32 (s.regN Reg.TIME_ASYM)

/-- An integer number of ticks as a GTIME value. -/
def ticks (v : Int) : Word := BitVec.ofInt 64 v

/-- Ticks of one marker interval at an INC (32.32). -/
def interval (inc : Word) : Nat := periodsPerMarker * inc.toNat / 2 ^ 32

/-- INC for a rate in ticks per marker interval, rounded to nearest as TIME_INC's reset value is (R518, R529). -/
def incOf (rate : Int) : Word := BitVec.ofInt 64 ((rate * 2 ^ 32 + periodsPerMarker / 2) / periodsPerMarker)

/-- Insert into a rising list. -/
def insertInt (x : Int) : List Int → List Int
  | [] => [x]
  | y :: t => if x ≤ y then x :: y :: t else y :: insertInt x t

/-- Median of the offsets; the lower of the two middle ones of an even number, and the old value when there is
none. -/
def median (old : Int) (l : List Int) : Int :=
  (l.foldl (fun a x => insertInt x a) []).getD ((l.length - 1) / 2) old

def clampI (v lo hi : Int) : Int := max lo (min v hi)

/-- The other parts of this rack. -/
def State.rackOthers (s : State) : List Nat :=
  let all := (List.range s.sizeY).flatMap (fun y => (List.range s.sizeX).map (fun x => x + 4 * y + 16 * s.link.z + 256 * s.side))
  all.filter (fun n => !(n == s.node) && !s.ras.lostNodes.contains n)

/-- One run of the leader's servo at marker m: the time state and the update for marker m + 1 (R518). -/
def State.servo (s : State) : TimeSt × TimeUpd :=
  let t := s.time
  let theta := median t.theta.toInt t.offsets
  let next : Int := t.base.toNat + interval t.inc
  let step := decide (t.st = 1) && decide ((s.regF Reg.TIME_CTL 7 0 * 4000 : Int) < theta.natAbs)
  let ki := s.regF Reg.TIME_CTL 11 8
  let kp := s.regF Reg.TIME_CTL 15 12
  let integ := if step then 0 else if t.st = 1 ∨ t.st = 2 then t.integ + theta / 2 ^ ki else t.integ
  let want0 := 4000000000 - theta / 2 ^ kp - integ
  let want := if t.st = 2 then clampI want0 (t.rate - 4000) (t.rate + 4000) else want0
  let rate := if !step ∧ (t.st = 1 ∨ t.st = 2) then clampI want 3999200000 4000800000 else t.rate
  let run := if theta.natAbs ≤ 400 then t.lockRun + 1 else 0
  let st := if t.st = 1 ∧ 8 ≤ run then 2 else t.st
  ({ t with theta := BitVec.ofInt 32 theta, integ := integ, rate := rate, lockRun := run, st := st, offsets := [] },
   ⟨t.markers + 1, ticks (if step then next - theta else next), incOf rate, t.st, s.node⟩)

/-- The leader's servo runs and the update for the next marker goes to every other part of the rack; a step sets
STEPPED (R518, R521). -/
def State.lead (s : State) : State :=
  let (t, u) := s.servo
  let s1 : State := { s with time := { t with update := some u, leader := s.node } }
  let step := decide (s.time.st = 1) && decide ((s.regF Reg.TIME_CTL 7 0 * 4000 : Int) < t.theta.toInt.natAbs)
  let s2 := if step then s1.latch Reg.TIME_STATUS 2 else s1
  s2.rackOthers.foldl (fun s n => s.tell n 0 (.time u.marker u.gtime u.inc u.state)) s2

/-- The lock state of a STANDBY at a marker. -/
def State.standbyLock (s : State) : State :=
  let (t, _) := s.servo
  { s with time := { s.time with theta := t.theta, lockRun := t.lockRun, st := t.st, offsets := [] } }

/-- GTIME at this marker from its value without skew. A value below GTIME is met by holding still, but for a leader's
step and the first value after cold reset (R518, R521, R530). -/
def State.setMark (s : State) (base : Word) (jump : Bool) : State :=
  let v := ticks (base.toNat + s.skew)
  let back := decide (v.toNat < s.now) && !jump
  { s with time := { s.time with
      base := base
      mark := if back then s.time.gtime else v
      gtime := if back then s.time.gtime else v
      hold := if back then s.now - v.toNat else 0
      markers := s.time.markers + 1 } }

/-- The part meets a marker: it takes the update for it, or keeps its INC and sets UPDATE_MISS (R521). -/
def State.atMarker (s : State) : State :=
  match s.time.update with
  | some u =>
    if u.marker = s.time.markers + 1 then
      let s1 := s.setMark u.gtime (s.time.leading || !s.time.taken)
      { s1 with time := { s1.time with
          inc := u.inc, update := none, missed := 0, taken := true, leader := u.leader
          st := if s.role = 0 ∧ !s.time.leading then u.state else s1.time.st } }
    else (s.setMark (ticks (s.time.base.toNat + interval s.time.inc)) false).latch Reg.TIME_STATUS 4
  | none =>
    if s.time.leading then s.setMark (if s.time.markers = 0 then 0 else ticks (s.time.base.toNat + interval s.time.inc)) true
    else
      let s1 := s.setMark (ticks (s.time.base.toNat + interval s.time.inc)) false
      ({ s1 with time := { s1.time with missed := s1.time.missed + 1 } } : State).latch Reg.TIME_STATUS 4

/-- MARKER (R517): one that is not exactly 156,250,000 periods after the last is ignored. -/
def execMarker (periods : Nat) (s : State) : Outcome State Fault Refusal :=
  .next (
    if !s.pwr.powered ∨ !s.pwr.rstN ∨ s.time.stopped then s
    else if 0 < s.time.markers ∧ periods ≠ periodsPerMarker then s.latch Reg.TIME_STATUS 1
    else
      let s1 := s.atMarker
      if s1.time.leading then s1.lead else if s1.role = 2 then s1.standbyLock else s1)

/-- REFCLK_LOST: GTIME stops and the part declares itself lost (R517). -/
def execRefclkLost (s : State) : Outcome State Fault Refusal :=
  .next (
    if !s.pwr.powered ∨ !s.pwr.rstN then s
    else (({ s with time := { s.time with stopped := true } } : State).latch Reg.TIME_STATUS 0).declareLost 0x400)

/-- TIME_UPDATE: held for its marker. A part that never took one counts markers from it; a leader that returned gives
the role up (R521, R522). -/
def execTimeUpdate (src marker : Nat) (gtime inc : Word) (state : Nat) (s : State) : Outcome State Fault Refusal :=
  .next (s.whenServing fun s =>
    if s.time.leading ∧ s.role ≠ 1 then s
    else if locNode src = s.node then s
    else
      let m := if s.time.taken then s.time.markers else marker - 1
      { s with time := { s.time with markers := m, leading := false, update := some ⟨marker, gtime, inc, state, locNode src⟩ } })

/-- The GTIME that lies 100 ms before the next marker (R521). -/
def State.askAt (s : State) : Int := (s.time.base.toNat : Int) + interval s.time.inc + s.skew - ms 100

/-- UPDATE_REQUEST (R521). -/
def execUpdateRequest (s : State) : Outcome State Fault Refusal :=
  .next (s.whenServing fun s =>
    if s.time.update.isNone ∧ !s.time.leading ∧ s.askAt ≤ s.now then s.tell s.time.leader 0 (.timeAsk (s.time.markers + 1)) else s)

/-- STANDBY_TAKEOVER: after three markers without an update the live LOCKED standby with the lowest member index
leads; `candidates` are those of the rack (R522). -/
def execStandbyTakeover (candidates : List Nat) (s : State) : Outcome State Fault Refusal :=
  .next (s.whenServing fun s =>
    let own := decide (s.role = 2) && decide (s.time.st = 2)
    let live := candidates.filter (fun m => !s.ras.lostNodes.contains (s.memberNode m) && (!(m == s.member) || own))
    if s.time.missed < 3 ∨ s.time.leading then s
    else
      match live.min? with
      | none => s
      | some m =>
        let s1 : State := { s with time := { s.time with leader := s.memberNode m, leading := m == s.member, missed := 0 } }
        let s2 := s1.latch Reg.TIME_STATUS 3
        if m = s.member then s2.lead else s2)

/-- Offset from the master, by IEEE 1588 from the four timestamps and the corrections, with TIME_ASYM (R519). -/
def ptpOffset (t : PtpTimes) (asym : Int) : Int :=
  let mean := ((t.t2 - t.t1) + (t.t4 - t.t3) - t.corr) / 2
  (t.t2 - t.t1) - mean - t.corr - asym

/-- PTP_MESSAGE: dropped and counted at a FOLLOWER or an ETH port; a Sync selects a master and a full exchange gives
an offset (R518, R519). -/
def execPtpMessage (p : Nat) (sync : Bool) (t : Option PtpTimes) (s : State) : Outcome State Fault Refusal :=
  .next (s.whenServing fun s =>
    if !s.npOn p then s
    else if 2 ≤ p ∨ (s.role = 0 ∧ !s.time.leading) then (s.rxFrame p).count (Reg.NP_PTP_RX p) 1
    else if p ≠ s.regF Reg.TIME_CTL 29 29 then s.rxFrame p
    else
      let s := s.rxFrame p
      let s1 : State := if sync then
          { s with time := { s.time with
              lastSync := s.time.gtime
              st := if s.time.st = 0 ∨ s.time.st = 3 then 1 else s.time.st } }
        else s
      let s2 : State := match t with
        | none => s1
        | some x => { s1 with time := { s1.time with offsets := s1.time.offsets ++ [ptpOffset x s.asym] } }
      if sync then s2.sendFrame p (.delayReq p) else s2)

/-- HOLDOVER: no Sync for 8 s after LOCKED (R518). -/
def execHoldover (s : State) : Outcome State Fault Refusal :=
  .next (s.whenServing fun s =>
    if s.time.st = 2 ∧ (s.time.leading ∨ s.role = 2) ∧ s.reached (s.time.lastSync.toNat + 8 * second) then
      let s1 : State := { s with time := { s.time with st := 3, lockRun := 0 } }
      if s.time.leading then (s1.latch Reg.TIME_STATUS 6).latch Reg.TIME_STATUS 5 else s1
    else s)

/-- One tick of GTIME while no command waits (log entry 3). -/
def State.tick (s : State) : State :=
  if !s.pwr.powered ∨ !s.pwr.rstN ∨ s.time.stopped then s
  else if 0 < s.time.hold then { s with time := { s.time with hold := s.time.hold - 1 } }
  else { s with time := { s.time with gtime := s.time.gtime + 1 } }

/-- TIME_STAT (R529). -/
def State.timeStat (s : State) : Nat :=
  s.time.st * 2 ^ 62 + s.time.leader * 2 ^ 32 + (if s.role = 0 ∧ !s.time.leading then 0 else s.time.theta.toNat)

/-- A write of TIME_CTL: a ROLE of LEADER takes the role (R518, R522). -/
def State.writeTimeCtl (s : State) (v : Nat) : State :=
  let s1 := s.setRegN Reg.TIME_CTL (fld v 31 27 * 2 ^ 27 + fld v 23 0)
  { s1 with time := { s1.time with leading := decide (fld v 31 30 = 1) || (s.time.leading && decide (fld v 31 30 = 2) && decide (s.role = 2)) } }

end Sys2Proof.Machine
end

