-- ==== Sys2Proof/Machine/Regs.lean ====
section
/-! DEFINITION. The BAR accesses: the value of every register, a write that follows the access codes, refused accesses, and the
cluster windows (R6 to R12, R385, R386, R558, R573). -/
namespace Sys2Proof.Machine

/-! ## The value of a register -/

/-- A stream-table register of the selected entry (R236 to R238). -/
def State.strmReg (s : State) (a : Nat) : Nat :=
  let x := s.strm s.strmSel
  if a = Reg.FEED_STRM_CFG then x.cfg
  else if a = Reg.FEED_STRM_NEXT then x.next.toNat
  else if a = Reg.FEED_STRM_APPLIED then (s.applied s.strmSel).toNat
  else if a = Reg.FEED_STRM_DUP then x.dup.toNat
  else if a = Reg.FEED_STRM_STALE then x.stale.toNat
  else if a = Reg.FEED_STRM_LOST_ROW then x.lostRow.toNat
  else if a = Reg.FEED_STRM_NO_TABLE then x.noTable.toNat
  else if a = Reg.FEED_STRM_RANGE then x.range.toNat
  else if a = Reg.FEED_STRM_BAD_OP then x.badOp.toNat
  else if a = Reg.FEED_STRM_NONFINITE then x.nonfinite.toNat
  else if a = Reg.FEED_STRM_SATURATED then x.saturated.toNat
  else if a = Reg.FEED_STRM_REC_CRC then x.recCrc.toNat
  else if a = Reg.FEED_STRM_GAP_LOST then x.gapLost.toNat
  else x.appliedN.toNat

/-- CL_STAT (R385). -/
def State.clStat (s : State) (m : Nat) : Nat :=
  let c := (s.clusters[m]?).getD (.init m)
  b2n c.running * 2 ^ 20 + c.ctx % 4096 * 2 ^ 8 + (s.ctxs.filter (fun x => x.cls.any (·.cl == m))).length % 128

/-- The computed registers of the DEV_, HST_, CFE_, Q_ and TBL_ groups. -/
def State.typedA (s : State) (a : Nat) : Nat :=
  if a = Reg.DEV_CLK then s.devClk
  else if a = Reg.DEV_STAT then s.devStat
  else if a = Reg.DEV_STRAP then s.pwr.straps.toNat
  else if a = Reg.HST_PORT 0 then s.hstPort 0
  else if a = Reg.HST_PORT 1 then s.hstPort 1
  else if a = Reg.HST_HDM then s.hstHdm
  else if a = Reg.CFE_CTX then s.cfeCtx
  else if a = Reg.CFE_CUE_BIND then (s.binding s.cueSel).value
  else if a = Reg.CFE_SCRIPTS then s.cfeScripts
  else if a < 0x200000 then
    let k := (a - 0x101000) / 0x100
    if a = Reg.Q_CTL k then s.qCtl k else if a = Reg.Q_PTR k then s.qPtr k else s.qCqptr k
  else if a = Reg.TBL_HEAP_USE then s.tblHeapUse
  else if a = Reg.TBL_COUNT then s.tblCount
  else if a = Reg.TBL_QINFO then s.tblQinfo
  else if a = Reg.TBL_QREF then s.tblQref
  else if a = Reg.TBL_QROWS then s.tblQrows
  else s.tblQlost

/-- The computed registers of the PLC_, LKP_, FEED_ and NP_ groups. -/
def State.typedB (s : State) (a : Nat) : Nat :=
  if a = Reg.PLC_DOM_CFG then s.plcDomCfg
  else if Reg.PLC_DOM_MEMBERS 0 ≤ a ∧ a < Reg.PLC_DOM_MEMBERS 4 then s.plcDomMembers ((a - Reg.PLC_DOM_MEMBERS 0) / 8)
  else if a = Reg.PLC_PIN_STAT then s.plcPinStat
  else if a = Reg.PLC_EPOCH then s.plcEpoch
  else if a = Reg.PLC_REPL_ROWS then s.plcReplRows
  else if a = Reg.PLC_REPL_MIB then s.plcReplMib
  else if a = Reg.PLC_OVR_USED then s.plcOvrUsed
  else if a = Reg.PLC_DRAINING then s.plcDraining
  else if a < 0x300000 then s.wingsStat ((a - 0x281000) / 0x100)
  else if a = Reg.FEED_STATE 0 then s.feedState 0
  else if a = Reg.FEED_STATE 1 then s.feedState 1
  else if a = Reg.FEED_PAIR_TICKET then s.pair.at_.toNat
  else if a = Reg.FEED_PAIR_TSTAT then s.pairTstat
  else if a = Reg.FEED_PAIR_STAT then s.pairStat
  else if a = Reg.NP_ROCE_CFG then (s.roce s.roceSel).cfg
  else if a = Reg.NP_ROCE_RKEY then (s.roce s.roceSel).rkey
  else if a = Reg.NP_ROCE_RMAC then (s.roce s.roceSel).rmac
  else if a = Reg.NP_ROCE_RIP_LO then (s.roce s.roceSel).ripLo.toNat
  else if a = Reg.NP_ROCE_RIP_HI then (s.roce s.roceSel).ripHi.toNat
  else s.strmReg a

/-- The computed registers of the LNK_, TIME_, RAS_, MSS_, CL_ and MEM_ groups. -/
def State.typedC (s : State) (a : Nat) : Nat :=
  if a = Reg.LNK_NODE then s.lnkNode
  else if a < 0x500000 then s.lnkPort ((a - Reg.LNK_PORT 0) / 4)
  else if a = Reg.TIME_NOW then s.time.gtime.toNat
  else if a = Reg.TIME_STAT then s.timeStat
  else if a = Reg.TIME_MARK then s.time.mark.toNat
  else if a = Reg.TIME_INC then s.time.inc.toNat
  else if a = Reg.RAS_UNIT_STAT then s.unitStat
  else if a = Reg.RAS_FENCE_CL 0 then s.fenceCl 0
  else if a = Reg.RAS_FENCE_CL 1 then s.fenceCl 1
  else if a = Reg.RAS_WATCH then s.watch.length
  else if a = Reg.RAS_LOG_HEAD then s.ras.seq
  else if a = Reg.MSS_FW then s.mssFw
  else if a = Reg.MSS_OTP_INFO then s.otpInfo
  else if a < 0x800000 then s.otpData ((a - Reg.MSS_OTP_DATA 0) / 8)
  else if a < 0x2000000 then s.clStat ((a - 0x1000000) / 0x20000)
  else s.memStat ((a - 0x4000000) / 0x100000)

/-- The value of the register at its own address a. LINK of NP_CTL, BUSY of MSS_MB_CTL and LEADER of RAS_LOSS join the stored
fields. -/
def State.readReg (s : State) (a : Nat) : Nat :=
  if a = Reg.MSS_MB_CTL then s.regN a + b2n s.mgmt.mbBusy * 2 ^ 30
  else if a = Reg.RAS_LOSS then s.rasLoss
  else if (List.range 10).any (fun p => Reg.NP_CTL p == a) then s.npCtl ((a - Reg.NP_CTL 0) / 0x100)
  else match regAt a with
    | none => 0
    | some (r, _) =>
      if !r.computed then s.regN a
      else if a < 0x240000 then s.typedA a
      else if a < 0x400000 then s.typedB a
      else s.typedC a

/-- What a 32-bit read of a register word answers: nothing is assigned there, zero; else its half of the register (R6, R7). -/
def State.regWord (s : State) (a : Nat) : Nat :=
  match regAt a with
  | none => 0
  | some (_, base) => s.readReg base / 2 ^ (32 * ((a - base) / 4)) % 2 ^ 32

/-- The physical scratch offset that an aperture offset of a cluster maps to. -/
def State.apOff (s : State) (m off : Nat) : Nat := s.regN (Reg.CL_APBASE m) * 0x10000 + (off - 0x10000)

/-- The clusters of group g, by GRP_MASK. -/
def State.groupOf (s : State) (g : Nat) : List Nat :=
  (List.range 128).filter (fun m => if m < 64 then s.regB (Reg.GRP_MASK_LO g) m else s.regB (Reg.GRP_MASK_HI g) (m - 64))

/-- Whether an access of a window touches the words where GRP_MASK lies. -/
def maskWord (off : Nat) : Bool := off / 16 == 0xFF0

/-- The clusters that a BAR0 offset of a unicast, the chorus or a group window covers; `none` outside them, and at the words that a
window keeps to itself (R385, R386). -/
def State.covered (s : State) (off : Nat) : Option (List Nat) :=
  if 0x1000000 ≤ off ∧ off < 0x2000000 then some [(off - 0x1000000) / 0x20000]
  else if maskWord (off % 0x20000) then none
  else if 0x2000000 ≤ off ∧ off < 0x2020000 then some (List.range 128)
  else if 0x2100000 ≤ off ∧ off < 0x2300000 then some (s.groupOf ((off - 0x2100000) / 0x20000))
  else none

/-- What a 32-bit read of a word answers. In a cluster window it is the word of the lowest-numbered cluster covered, and zero where
there is none; scratch stands behind the aperture (R385, R386). -/
def State.readWord (s : State) (a : Nat) : Nat :=
  match s.covered a with
  | none => s.regWord a
  | some [] => 0
  | some (m :: _) =>
    let off := a % 0x20000
    if 0x10000 ≤ off then leNat (s.scrRead m (s.apOff m off) 4) else s.regWord (0x1000000 + m * 0x20000 + off)

/-- What an aligned read of 32 or 64 bits at an address answers: each word as a 32-bit read of it (R6). -/
def State.readWords (s : State) (a size : Nat) : Nat :=
  s.readWord a + (if size = 8 then 2 ^ 32 * s.readWord (a + 4) else 0)

/-! ## A plain write (R9 to R11) -/

/-- A written value of a register, brought to the limits that its table gives. -/
def clampReg (a v : Nat) : Nat :=
  let one (v hi lo : Nat) := if fld v hi lo = 0 then putFld v hi lo 1 else v
  if a = Reg.XLT_CTL then one (one v 31 16) 15 0
  else if a = Reg.LNK_E2E then max 40 v
  else if a = Reg.RAS_CTL then one (one (one v 31 16) 15 8) 7 4
  else if a = Reg.RAS_LOSS then one v 15 0
  else if a = Reg.CFE_CUE then putFld v 31 16 (max 10 (fld v 31 16))
  else if a = Reg.PLC_HOT then one (putFld v 63 48 (max 100 (fld v 63 48))) 15 0
  else if 0x4000000 ≤ a ∧ a < 0x5000000 ∧ a % 0x100000 = 4 then one (one v 31 24) 15 0
  else if 0x1000000 ≤ a ∧ a < 0x2000000 then min 191 v
  else v

/-- A register's value after a write: RW fields take the written bits, RW1C bits written as 1 clear, the rest stays. -/
def codedWrite (r : RegRow) (old v hi : Nat) : Nat :=
  let new := putFld old (32 * hi + 31) (32 * hi) v
  let clr := v <<< (32 * hi) &&& r.w1c
  ((old &&& (2 ^ 64 - 1 - r.rw)) ||| (new &&& r.rw)) &&& (2 ^ 64 - 1 - clr)

/-- A vector's mask bit was written: a pending vector that is not masked is sent (PCIe layout of R415). -/
def State.unmask (s : State) (v : Nat) : State :=
  if !s.regB (Reg.MSIX_VCTL v) 0 ∧ s.regB Reg.MSIX_PBA v then
    (s.setReg Reg.MSIX_PBA (s.reg Reg.MSIX_PBA &&& ~~~(BitVec.ofNat 64 (2 ^ v)))).emit (.msix (s.vectorPort v) v)
  else s

/-- Whether a register takes a write at this moment, or its chapter drops it with an error bit (R527). -/
def State.locked (s : State) (a : Nat) : Bool :=
  decide (0x301000 ≤ a) && decide (a < 0x301A00) && decide (8 ≤ a % 0x100) && decide (a % 0x100 < 0x40)
    && s.regB (a - a % 0x100) 31

/-- A stored register takes a 32-bit write of word hi. -/
def State.plainWrite (s : State) (r : RegRow) (a hi v : Nat) : State :=
  let old := s.regN a
  let new := clampReg a (codedWrite r old v hi)
  if s.locked a then s.latch Reg.LNK_STATUS 3
  else if a = Reg.CFE_CTL ∧ old.testBit 31 ∧ fld new 15 0 ≠ fld old 15 0 then
    (s.setRegN a (putFld new 15 0 (fld old 15 0))).latch Reg.CFE_STATUS 3
  else
    let s1 := s.setEvent a (BitVec.ofNat 64 new)
    if 0x10090000 ≤ a ∧ a < 0x10090100 ∧ a % 16 = 12 then s1.unmask ((a - 0x10090000) / 16) else s1

/-- A connection's address fields change only while VALID is 0 (R528). -/
def State.writeRoce (s : State) (a hi v : Nat) : State :=
  let c := s.roceSel
  let r := s.roce c
  if r.valid then s.latch Reg.LNK_STATUS 3
  else s.modRoce c (fun r =>
    if a = Reg.NP_ROCE_RKEY then { r with rkey := v % 2 ^ 32 }
    else if a = Reg.NP_ROCE_RMAC then { r with rmac := putFld r.rmac (32 * hi + 31) (32 * hi) v % 2 ^ 48 }
    else if a = Reg.NP_ROCE_RIP_LO then { r with ripLo := BitVec.ofNat 64 (putFld r.ripLo.toNat (32 * hi + 31) (32 * hi) v) }
    else { r with ripHi := BitVec.ofNat 64 (putFld r.ripHi.toNat (32 * hi + 31) (32 * hi) v) })

/-! ## Writes that have a row of their own -/

/-- The state that an outcome leaves. -/
def after (o : Outcome State Fault Refusal) (s : State) : State :=
  match o with
  | .next t => t
  | .fault _ => s
  | .refused _ => s

/-- A write of MSS_MB_CTL: its fields, and with GO the command (R562). What the fuses read back and whether a unit passes its
test are open values here (log entry 71). -/
def State.writeMb (s : State) (v : BitVec 32) : State :=
  if s.mgmt.mbBusy then s
  else if !v.getLsbD 31 then s.mbFields v.toNat
  else match fld v.toNat 23 16 with
    | 1 => after (execLogRead ⟨v, .good⟩ s) s
    | 2 => after (execSensorRead v s) s
    | 3 => after (execOtpWrite v (s.free.1.getLsbD 0) s.free.2) s
    | 4 => after (execDump v s) s
    | 5 => after (execShutdown v s) s
    | 6 => after (execMbFence v s) s
    | 7 => after (execSelftest v (s.free.1.getLsbD 0) s.free.2) s
    | _ => s.mbUnknown v

/-- A write of PLC_PIN_CMD (R184). -/
def State.writePin (s : State) (v : BitVec 32) : State :=
  match fld v.toNat 1 0 with
  | 1 => after (execPinReplicate v s) s
  | 2 => after (execPinHold v s) s
  | 3 => after (execUnpin v s) s
  | _ => s

/-- A 32-bit write of a register whose write is a command of its own. -/
def State.ownWrite (s : State) (a : Nat) (v : BitVec 32) : Option State :=
  if a = Reg.DEV_RST then some (after (execWarmReset v s) s)
  else if a = Reg.HST_HDM then some (after (execHstHdmWrite v s) s)
  else if 0x101000 ≤ a ∧ a < 0x101900 ∧ a % 0x100 = 0 then some (after (execQueueEnWritten ((a - 0x101000) / 0x100) v s) s)
  else if a = Reg.TBL_HEAP then some (after (execTblHeapWrite v s) s)
  else if a = Reg.PLC_CTL then some (after (execReplicaReserveLowered v s) s)
  else if a = Reg.PLC_PIN_CMD then some (s.writePin v)
  else if 0x281000 ≤ a ∧ a < 0x281800 ∧ a % 0x100 = 0 then some (after (execWingsEnable ((a - 0x281000) / 0x100) v s) s)
  else if a = Reg.FEED_CTL then some (after (execFeedEn v s) s)
  else if a = Reg.FEED_PAIR_REQ then some (after (execPairReqGo v s) s)
  else if a = Reg.LNK_NODE then some (after (execLnkNodeWrite v s) s)
  else if a = Reg.LNK_TOPO then some (after (execLnkTopoWrite v s) s)
  else if a = Reg.LNK_CTL then some (after (execEEn v s) s)
  else if a = Reg.TIME_CTL then some (s.writeTimeCtl v.toNat)
  else if a = Reg.MSS_MB_CTL then some (s.writeMb v)
  else none

/-- A write of a 64-bit register that has a row of its own, which takes it by words or, where its table says so, whole. -/
def State.accessWrite (s : State) (a : Access) : Option State :=
  if onReg a Reg.PLC_DOM_CFG then some (after (execPlcDomCfgWrite a s) s)
  else if (List.range 4).any (fun j => onReg a (Reg.PLC_DOM_MEMBERS j)) then some (after (execPlcDomMembersWrite a s) s)
  else if onReg a (Reg.FEED_SKID 0) || onReg a (Reg.FEED_SKID 1) then some (after (execFeedSkidWrite a s) s)
  else if onReg a Reg.FEED_STRM_CFG then some (after (execFeedStrmCfgWrite a s) s)
  else if onReg a Reg.CFE_CUE_BIND then some (after (execCueBindWrite a s) s)
  else if onReg a Reg.NP_ROCE_CFG then some (after (execRoceValidWrite a s) s)
  else if (cfgTarget a).isSome then some (after (execQueueConfigWrite a s) s)
  else none

/-- The unified address of a BAR offset: BAR2 is numbered from 2^28. -/
def barAddr (bar off : Nat) : Nat := if bar = 0 then off else 2 ^ 28 + off

/-- A 32-bit write to a word (R6): nothing at a word with no register. -/
def State.writeWord (s : State) (a : Nat) (v : BitVec 32) : State :=
  match regAt a with
  | none => s
  | some (r, base) =>
    match s.ownWrite base v with
    | some t => t
    | none =>
      if Reg.NP_ROCE_RKEY ≤ base ∧ base ≤ Reg.NP_ROCE_RIP_HI then s.writeRoce base ((a - base) / 4) v.toNat
      else if r.computed then s
      else s.plainWrite r base ((a - base) / 4) v.toNat

/-- A naturally aligned access of 32 or 64 bits. -/
def Access.aligned (a : Access) : Bool := (a.size == 4 || a.size == 8) && a.off % a.size == 0

/-- A register write of 32 or 64 bits: each word as a 32-bit write, low word first, but where a register's table says so the
write acts whole (R6, R7). -/
def State.writeAccess (s : State) (a : Access) : State :=
  match s.accessWrite a with
  | some t => t
  | none =>
    let w := barAddr a.bar a.off
    let s1 := s.writeWord w (a.value.setWidth 32)
    if a.size = 8 then s1.writeWord (w + 4) ((a.value >>> 32).setWidth 32) else s1

/-- REGISTER_WRITE. -/
def execRegisterWrite (a : Access) (s : State) : Outcome State Fault Refusal :=
  .next (s.whenOpen fun s => if Access.aligned a then s.writeAccess a else s)

/-! ## Refused accesses (R6, R8, R558, R573) -/

/-- Whether an offset of a cluster's window holds a register or the aperture. -/
def windowWord (off : Nat) : Bool := decide (0x10000 ≤ off) || (regAt (0x1000000 + off)).isSome

/-- Whether a word of a BAR is assigned: a register, a scratch aperture or a window of R386. The doorbell pages of BAR2 have
their own rule (R394). -/
def assigned (bar off : Nat) : Bool :=
  if bar = 0 then
    (regAt off).isSome
      || (decide (0x1000000 ≤ off) && decide (off < 0x2000000) && windowWord (off % 0x20000))
      || (decide (0x2000000 ≤ off) && decide (off < 0x2020000) && (windowWord (off % 0x20000) || off % 0x20000 / 16 == 0xFF0))
      || (decide (0x2100000 ≤ off) && decide (off < 0x2300000) && windowWord (off % 0x20000))
  else decide (off < 0x90000) || (regAt (2 ^ 28 + off)).isSome

/-- Whether an access is refused. -/
def refused (a : Access) : Bool :=
  if a.bar ≠ 0 ∧ a.off < 0x90000 then false
  else if !Access.aligned a then true
  else !(assigned a.bar a.off) && (a.size == 4 || !(assigned a.bar (a.off + 4)))

/-- A refused read answers zero. -/
def State.answerZero (s : State) (write : Bool) : State := if write then s else s.emit (.readData 0)

/-- REFUSED_ACCESS; until READY is 1 a BAR0 read answers zero and nothing is recorded (R573). -/
def execRefusedAccess (write : Bool) (a : Access) (s : State) : Outcome State Fault Refusal :=
  .next (if !refused a then s
    else if !s.barOpen then (if s.pwr.powered ∧ s.pwr.rstN ∧ a.bar = 0 then s.answerZero write else s)
    else
      let s1 := s.latch Reg.RAS_STATUS 0
      let s2 := if s.regB Reg.RAS_BAD_ACCESS 63 then s1
        else s1.setRegN Reg.RAS_BAD_ACCESS
          (2 ^ 63 + b2n write * 2 ^ 62 + b2n (decide (a.bar ≠ 0)) * 2 ^ 61 + a.size % 16 * 2 ^ 57 + a.off % 2 ^ 28)
      s2.answerZero write)

/-! ## Scratch apertures and windows (R385, R386, R533) -/

/-- A write at an offset of a cluster's window. -/
def State.windowWrite (s : State) (m : Nat) (a : Access) (off : Nat) : State :=
  if 0x10000 ≤ off then s.scrWrite m (s.apOff m off) (natLE a.size a.value.toNat)
  else s.writeAccess { a with off := 0x1000000 + m * 0x20000 + off }

/-- A read through an aperture: all ones for an uncorrectable word. -/
def State.windowRead (s : State) (m size off : Nat) (ecc : GranuleHealth) : State :=
  let o := s.apOff m off
  let ones := 2 ^ (8 * size) - 1
  if s.rangeBad m o size then (s.latch Reg.RAS_STATUS 1).emit (.readData (BitVec.ofNat 64 ones))
  else match ecc with
    | .uncorrectable => (s.scratchBadWord m o).emit (.readData (BitVec.ofNat 64 ones))
    | .corrected => s.sramCorrected.emit (.readData (BitVec.ofNat 64 (leNat (s.scrRead m o size))))
    | .good => s.emit (.readData (BitVec.ofNat 64 (leNat (s.scrRead m o size))))

/-- SCRATCH_APERTURE_ACCESS; a read through the chorus window or a group window answers for the lowest-numbered cluster that it covers
(R386). `ecc` is what a read of scratch meets (R533). -/
def execScratchApertureAccess (write : Bool) (a : Access) (ecc : GranuleHealth) (s : State) : Outcome State Fault Refusal :=
  let off := a.off % 0x20000
  .next (if a.bar ≠ 0 ∨ !Access.aligned a ∨ off < 0x10000 ∨ (write ∧ 0x2000000 ≤ a.off) then s
    else
      match s.covered a.off with
      | none => s
      | some l =>
        if !s.barOpen then (if s.pwr.powered ∧ s.pwr.rstN then s.answerZero write else s)
        else
          match l with
          | [] => s.answerZero write
          | m :: _ => if write then s.windowWrite m a off else s.windowRead m a.size off ecc)

/-- A write to each of the listed clusters' windows. -/
def State.writeEach (s : State) (l : List Nat) (a : Access) (off : Nat) : State := l.foldl (fun s m => s.windowWrite m a off) s

/-- CHORUS_WINDOW_WRITE. -/
def execChorusWindowWrite (a : Access) (s : State) : Outcome State Fault Refusal :=
  let off := a.off % 0x20000
  .next (s.whenOpen fun s =>
    if a.bar ≠ 0 ∨ !Access.aligned a ∨ a.off < 0x2000000 ∨ 0x2020000 ≤ a.off ∨ maskWord off then s
    else s.writeEach (List.range 128) a off)

/-- GROUP_WINDOW_WRITE: a write of GRP_MASK itself is not forwarded. -/
def execGroupWindowWrite (a : Access) (s : State) : Outcome State Fault Refusal :=
  let off := a.off % 0x20000
  let g := (a.off - 0x2100000) / 0x20000
  .next (s.whenOpen fun s =>
    if a.bar ≠ 0 ∨ !Access.aligned a ∨ a.off < 0x2100000 ∨ 0x2300000 ≤ a.off then s
    else if maskWord off then s.writeAccess a
    else s.writeEach (s.groupOf g) a off)

end Sys2Proof.Machine
end

