-- ==== Sys2Proof/Machine/Dispatch.lean ====
section
/-! DEFINITION. The meaning of each command: one arm per constructor, one call per arm. -/
namespace Sys2Proof.Machine

def exec (i : Instr) (s : State) : Host.Outcome State Fault Refusal :=
  match i with
  | .registerWrite a => Sys2Proof.Machine.execRegisterWrite a s
  | .refusedAccess write a => Sys2Proof.Machine.execRefusedAccess write a s
  | .edgeFailed edge => Sys2Proof.Machine.execEdgeFailed edge s
  | .parityFailure packet => Sys2Proof.Machine.execParityFailure packet s
  | .tblHeapWrite v => Sys2Proof.Machine.execTblHeapWrite v s
  | .tblCreate slot answers => Sys2Proof.Machine.execTblCreate slot answers s
  | .tblLoad slot allow => Sys2Proof.Machine.execTblLoad slot allow s
  | .tblCommit slot => Sys2Proof.Machine.execTblCommit slot s
  | .tblDrop slot => Sys2Proof.Machine.execTblDrop slot s
  | .commitInstantReached cid => Sys2Proof.Machine.execCommitInstantReached cid s
  | .commitComplete cid => Sys2Proof.Machine.execCommitComplete cid s
  | .versionFreed handle ver => Sys2Proof.Machine.execVersionFreed handle ver s
  | .work h m => Sys2Proof.Machine.execWork h m s
  | .gather cl w => Sys2Proof.Machine.execGather cl w s
  | .pool cl w => Sys2Proof.Machine.execPool cl w s
  | .poolReq die p => Sys2Proof.Machine.execPoolReq die p s
  | .granuleIn die rid granule health => Sys2Proof.Machine.execGranuleIn die rid granule health s
  | .sketchDecay die => Sys2Proof.Machine.execSketchDecay die s
  | .partialIn die p => Sys2Proof.Machine.execPartial die p s
  | .combinePartial inPort dl p => Sys2Proof.Machine.execCombinePartial inPort dl p s
  | .combineWindowExpires iod idx => Sys2Proof.Machine.execCombineWindowExpires iod idx s
  | .poolTimeout die op => Sys2Proof.Machine.execPoolTimeout die op s
  | .cancelAtGpe die ctx => Sys2Proof.Machine.execCancelAtGpe die ctx s
  | .abandonedOpNumberFreed die op => Sys2Proof.Machine.execAbandonedOpNumberFreed die op s
  | .wingsEnable die v => Sys2Proof.Machine.execWingsEnable die v s
  | .invalidateAll die v => Sys2Proof.Machine.execInvalidateAll die v s
  | .wingsStopped die => Sys2Proof.Machine.execWingsStopped die s
  | .wingsStarted die => Sys2Proof.Machine.execWingsStarted die s
  | .invalidateSweepEnds die => Sys2Proof.Machine.execInvalidateSweepEnds die s
  | .plcDomCfgWrite a => Sys2Proof.Machine.execPlcDomCfgWrite a s
  | .plcDomMembersWrite a => Sys2Proof.Machine.execPlcDomMembersWrite a s
  | .hotPeriod reports => Sys2Proof.Machine.execHotPeriod reports s
  | .replicaCopyConfirmed handle row => Sys2Proof.Machine.execReplicaCopyConfirmed handle row s
  | .replicaReserveLowered v => Sys2Proof.Machine.execReplicaReserveLowered v s
  | .balanceCheck slot loads buckets => Sys2Proof.Machine.execBalanceCheck slot loads buckets s
  | .copyConfirmed u => Sys2Proof.Machine.execCopyConfirmed u s
  | .flip u => Sys2Proof.Machine.execFlip u s
  | .holdTimerExpires u => Sys2Proof.Machine.execHoldTimerExpires u s
  | .flipAcknowledged u => Sys2Proof.Machine.execFlipAcknowledged u s
  | .epochAdvance slot => Sys2Proof.Machine.execEpochAdvance slot s
  | .lowWaterReport slot loc epoch => Sys2Proof.Machine.execLowWaterReport slot loc epoch s
  | .remirrorRetry slot loads => Sys2Proof.Machine.execRemirrorRetry slot loads s
  | .rejoin slot m => Sys2Proof.Machine.execRejoin slot m s
  | .placeLaunch ctx => Sys2Proof.Machine.execPlaceLaunch ctx s
  | .pinReplicate v => Sys2Proof.Machine.execPinReplicate v s
  | .pinHold v => Sys2Proof.Machine.execPinHold v s
  | .unpin v => Sys2Proof.Machine.execUnpin v s
  | .pinComplete => Sys2Proof.Machine.execPinComplete s
  | .data f => Sys2Proof.Machine.execData f s
  | .resync f => Sys2Proof.Machine.execResync f s
  | .recordIngested port => Sys2Proof.Machine.execRecordIngested port s
  | .xoffRepeat port => Sys2Proof.Machine.execXoffRepeat port s
  | .gapDeclaredLost idx => Sys2Proof.Machine.execGapDeclaredLost idx s
  | .sendAck idx => Sys2Proof.Machine.execSendAck idx s
  | .sendNack idx => Sys2Proof.Machine.execSendNack idx s
  | .deltaApply h r fails => Sys2Proof.Machine.execDeltaApply h r fails s
  | .deltaForward h f => Sys2Proof.Machine.execDeltaForward h f s
  | .ack src tag gen result => Sys2Proof.Machine.execAck src tag gen result s
  | .markComplete idx => Sys2Proof.Machine.execMarkComplete idx s
  | .twinRecord h first r => Sys2Proof.Machine.execTwinRecord h first r s
  | .pairLinkLost idx => Sys2Proof.Machine.execPairLinkLost idx s
  | .pairReqGo v => Sys2Proof.Machine.execPairReqGo v s
  | .ticketProposal h number at_ => Sys2Proof.Machine.execTicketProposal h number at_ s
  | .ticketAccepted number => Sys2Proof.Machine.execTicketAccepted number s
  | .ticketTimeout => Sys2Proof.Machine.execTicketTimeout s
  | .ticketExpired => Sys2Proof.Machine.execTicketExpired s
  | .pairReport h tables status finish => Sys2Proof.Machine.execPairReport h tables status finish s
  | .pairReportTimeout => Sys2Proof.Machine.execPairReportTimeout s
  | .feedEn v => Sys2Proof.Machine.execFeedEn v s
  | .feedStopped port => Sys2Proof.Machine.execFeedStopped port s
  | .feedStarted port => Sys2Proof.Machine.execFeedStarted port s
  | .feedSkidWrite a => Sys2Proof.Machine.execFeedSkidWrite a s
  | .feedStrmCfgWrite a => Sys2Proof.Machine.execFeedStrmCfgWrite a s
  | .qdelayRead port => Sys2Proof.Machine.execQdelayRead port s
  | .rowsPacket h kind handle ver rows => Sys2Proof.Machine.execRowsPacket h kind handle ver rows s
  | .chorusWrite h m => Sys2Proof.Machine.execChorusWrite h m s
  | .rows cl w => Sys2Proof.Machine.execRows cl w s
  | .mma cl w => Sys2Proof.Machine.execMma cl w s
  | .conv1 cl w => Sys2Proof.Machine.execConv1 cl w s
  | .ewa cl w => Sys2Proof.Machine.execEwa cl w s
  | .drain cl w => Sys2Proof.Machine.execDrain cl w s
  | .residueCheckFails cl array ctx opId r c => Sys2Proof.Machine.execResidueCheckFails cl array ctx opId r c s
  | .vchain cl w => Sys2Proof.Machine.execVchain cl w s
  | .vred cl w => Sys2Proof.Machine.execVred cl w s
  | .vcvt cl w => Sys2Proof.Machine.execVcvt cl w s
  | .sfn cl w => Sys2Proof.Machine.execSfn cl w s
  | .smaxM cl w => Sys2Proof.Machine.execSmaxM cl w s
  | .smaxE cl w => Sys2Proof.Machine.execSmaxE cl w s
  | .smaxD cl w => Sys2Proof.Machine.execSmaxD cl w s
  | .normS cl w => Sys2Proof.Machine.execNormS cl w s
  | .normF cl w => Sys2Proof.Machine.execNormF cl w s
  | .vectorCheckFails cl sfu ctx opId passed c => Sys2Proof.Machine.execVectorCheckFails cl sfu ctx opId passed c s
  | .transferCheckFails cl ctx opId passed c => Sys2Proof.Machine.execTransferCheckFails cl ctx opId passed c s
  | .gpeCheckFails die src ctx op bag again c => Sys2Proof.Machine.execGpeCheckFails die src ctx op bag again c s
  | .engineInstructionEnds cl ctx opId => Sys2Proof.Machine.execEngineInstructionEnds cl ctx opId s
  | .add cl w => Sys2Proof.Machine.execAdd cl w s
  | .sub cl w => Sys2Proof.Machine.execSub cl w s
  | .mul cl w => Sys2Proof.Machine.execMul cl w s
  | .and cl w => Sys2Proof.Machine.execAnd cl w s
  | .or cl w => Sys2Proof.Machine.execOr cl w s
  | .xor cl w => Sys2Proof.Machine.execXor cl w s
  | .shl cl w => Sys2Proof.Machine.execShl cl w s
  | .shr cl w => Sys2Proof.Machine.execShr cl w s
  | .cmp cl w => Sys2Proof.Machine.execCmp cl w s
  | .sel cl w => Sys2Proof.Machine.execSel cl w s
  | .li cl w => Sys2Proof.Machine.execLi cl w s
  | .ld cl w ecc => Sys2Proof.Machine.execLd cl w ecc s
  | .st cl w => Sys2Proof.Machine.execSt cl w s
  | .br cl w => Sys2Proof.Machine.execBr cl w s
  | .brc cl w => Sys2Proof.Machine.execBrc cl w s
  | .call cl w => Sys2Proof.Machine.execCall cl w s
  | .ret cl w => Sys2Proof.Machine.execRet cl w s
  | .loop cl w => Sys2Proof.Machine.execLoop cl w s
  | .tdef cl w => Sys2Proof.Machine.execTdef cl w s
  | .tset cl w => Sys2Proof.Machine.execTset cl w s
  | .tadv cl w => Sys2Proof.Machine.execTadv cl w s
  | .tbind cl w => Sys2Proof.Machine.execTbind cl w s
  | .move cl w => Sys2Proof.Machine.execMove cl w s
  | .transferRunComplete opId data => Sys2Proof.Machine.execTransferRunComplete opId data s
  | .chorus cl w => Sys2Proof.Machine.execChorus cl w s
  | .atom cl w => Sys2Proof.Machine.execAtom cl w s
  | .racq cl w => Sys2Proof.Machine.execRacq cl w s
  | .rpub cl w => Sys2Proof.Machine.execRpub cl w s
  | .rrel cl w => Sys2Proof.Machine.execRrel cl w s
  | .curtain cl w => Sys2Proof.Machine.execCurtain cl w s
  | .waitt cl w => Sys2Proof.Machine.execWaitt cl w s
  | .dlchk cl w => Sys2Proof.Machine.execDlchk cl w s
  | .slotDue ctx ring => Sys2Proof.Machine.execSlotDue ctx ring s
  | .stallDeclared ctx => Sys2Proof.Machine.execStallDeclared ctx s
  | .safe cl w => Sys2Proof.Machine.execSafe cl w s
  | .yield cl w => Sys2Proof.Machine.execYield cl w s
  | .fence cl w => Sys2Proof.Machine.execFence cl w s
  | .trap cl w => Sys2Proof.Machine.execTrap cl w s
  | .exit cl w => Sys2Proof.Machine.execExit cl w s
  | .cancel ctx cl => Sys2Proof.Machine.execCancel ctx cl s
  | .icacheMissFill f => Sys2Proof.Machine.execIcacheMissFill f s
  | .scratchApertureAccess write a ecc => Sys2Proof.Machine.execScratchApertureAccess write a ecc s
  | .chorusWindowWrite a => Sys2Proof.Machine.execChorusWindowWrite a s
  | .groupWindowWrite a => Sys2Proof.Machine.execGroupWindowWrite a s
  | .queueEnWritten k v => Sys2Proof.Machine.execQueueEnWritten k v s
  | .queueStarted k => Sys2Proof.Machine.execQueueStarted k s
  | .queueConfigWrite a => Sys2Proof.Machine.execQueueConfigWrite a s
  | .sqDb k v => Sys2Proof.Machine.execSqDb k v s
  | .cqDb k v => Sys2Proof.Machine.execCqDb k v s
  | .doorbellAccessDropped k write a => Sys2Proof.Machine.execDoorbellAccessDropped k write a s
  | .entryFetched k entry ecc => Sys2Proof.Machine.execEntryFetched k entry ecc s
  | .entryReread k entry => Sys2Proof.Machine.execEntryReread k entry s
  | .launch k args segs => Sys2Proof.Machine.execLaunch k args segs s
  | .launchStarts ctx => Sys2Proof.Machine.execLaunchStarts ctx s
  | .segmentDelivered ctx seg bytes => Sys2Proof.Machine.execSegmentDelivered ctx seg bytes s
  | .copy k => Sys2Proof.Machine.execCopy k s
  | .queueFence k => Sys2Proof.Machine.execQueueFence k s
  | .query k => Sys2Proof.Machine.execQuery k s
  | .nop k => Sys2Proof.Machine.execNop k s
  | .unassignedOpcode k => Sys2Proof.Machine.execUnassignedOpcode k s
  | .scriptLoad k => Sys2Proof.Machine.execScriptLoad k s
  | .scriptPatch k => Sys2Proof.Machine.execScriptPatch k s
  | .scriptDrop k => Sys2Proof.Machine.execScriptDrop k s
  | .completionRecord k n => Sys2Proof.Machine.execCompletionRecord k n s
  | .intmodTimer k => Sys2Proof.Machine.execIntmodTimer k s
  | .cueRequest f => Sys2Proof.Machine.execCueRequest f s
  | .reassemblyTimeout ctx => Sys2Proof.Machine.execReassemblyTimeout ctx s
  | .messageNameExpires src srcPort msgid => Sys2Proof.Machine.execMessageNameExpires src srcPort msgid s
  | .cueReply ctx => Sys2Proof.Machine.execCueReply ctx s
  | .cueBindWrite a => Sys2Proof.Machine.execCueBindWrite a s
  | .deadlineReached ctx => Sys2Proof.Machine.execDeadlineReached ctx s
  | .understudyStart ctx => Sys2Proof.Machine.execUnderstudyStart ctx s
  | .destroyRecord k => Sys2Proof.Machine.execDestroyRecord k s
  | .hostLinkUp p width rate cache mem => Sys2Proof.Machine.execHostLinkUp p width rate cache mem s
  | .hostLinkDown p => Sys2Proof.Machine.execHostLinkDown p s
  | .hdmDecoderCommit p base => Sys2Proof.Machine.execHdmDecoderCommit p base s
  | .hstHdmWrite v => Sys2Proof.Machine.execHstHdmWrite v s
  | .atsCompletion x r => Sys2Proof.Machine.execAtsCompletion x r s
  | .atsTimeout x => Sys2Proof.Machine.execAtsTimeout x s
  | .pageRequestResponse g r => Sys2Proof.Machine.execPageRequestResponse g r s
  | .priTimeout g => Sys2Proof.Machine.execPriTimeout g s
  | .invalidateRequest p itag pasid page log2 global => Sys2Proof.Machine.execInvalidateRequest p itag pasid page log2 global s
  | .invalidateCompletion p itag => Sys2Proof.Machine.execInvalidateCompletion p itag s
  | .hostSnoop line => Sys2Proof.Machine.execHostSnoop line s
  | .cxlMemAccess write addr bytes poison keeps => Sys2Proof.Machine.execCxlMemAccess write addr bytes poison keeps s
  | .bisnpComplete line dirty => Sys2Proof.Machine.execBisnpComplete line dirty s
  | .patrolScrub k granule h => Sys2Proof.Machine.execPatrolScrub k granule h s
  | .stackFailed k => Sys2Proof.Machine.execStackFailed k s
  | .portTrained n lanes => Sys2Proof.Machine.execPortTrained n lanes s
  | .ident n node port map => Sys2Proof.Machine.execIdent n node port map s
  | .flit n f => Sys2Proof.Machine.execFlit n f s
  | .retryReq n lseq => Sys2Proof.Machine.execRetryReq n lseq s
  | .retryBudgetExhausted n => Sys2Proof.Machine.execRetryBudgetExhausted n s
  | .forward inPort p => Sys2Proof.Machine.execForward inPort p s
  | .e2eTimeout dst tag => Sys2Proof.Machine.execE2eTimeout dst tag s
  | .lnkNodeWrite v => Sys2Proof.Machine.execLnkNodeWrite v s
  | .lnkTopoWrite v => Sys2Proof.Machine.execLnkTopoWrite v s
  | .eEn v => Sys2Proof.Machine.execEEn v s
  | .oEn v => Sys2Proof.Machine.execOEn v s
  | .twinEn v => Sys2Proof.Machine.execTwinEn v s
  | .npFrame p tag len fcsOk query target v6 => Sys2Proof.Machine.execNpFrame p tag len fcsOk query target v6 s
  | .pfcFrameReceived p prios quanta => Sys2Proof.Machine.execPfcFrameReceived p prios quanta s
  | .npLinkDown p => Sys2Proof.Machine.execNpLinkDown p s
  | .roceValidWrite a => Sys2Proof.Machine.execRoceValidWrite a s
  | .roceReadResponse c psn rows => Sys2Proof.Machine.execRoceReadResponse c psn rows s
  | .roceAckTimeout c => Sys2Proof.Machine.execRoceAckTimeout c s
  | .roceNak c => Sys2Proof.Machine.execRoceNak c s
  | .congestionNotification c => Sys2Proof.Machine.execCongestionNotification c s
  | .roceRateRecovery c => Sys2Proof.Machine.execRoceRateRecovery c s
  | .marker periods => Sys2Proof.Machine.execMarker periods s
  | .refclkLost => Sys2Proof.Machine.execRefclkLost s
  | .timeUpdate src marker gtime inc state => Sys2Proof.Machine.execTimeUpdate src marker gtime inc state s
  | .updateRequest => Sys2Proof.Machine.execUpdateRequest s
  | .standbyTakeover candidates => Sys2Proof.Machine.execStandbyTakeover candidates s
  | .ptpMessage p sync t => Sys2Proof.Machine.execPtpMessage p sync t s
  | .holdover => Sys2Proof.Machine.execHoldover s
  | .selfTestInterval unit passed => Sys2Proof.Machine.execSelfTestInterval unit passed s
  | .unitFenced unit => Sys2Proof.Machine.execUnitFenced unit s
  | .watchListExpiry unit => Sys2Proof.Machine.execWatchListExpiry unit s
  | .suspect h node portsFailed => Sys2Proof.Machine.execSuspect h node portsFailed s
  | .probe h node => Sys2Proof.Machine.execProbe h node s
  | .probeTimeout node => Sys2Proof.Machine.execProbeTimeout node s
  | .suspectReportTimeout node => Sys2Proof.Machine.execSuspectReportTimeout node s
  | .lost h node => Sys2Proof.Machine.execLost h node s
  | .watchdogExpired core => Sys2Proof.Machine.execWatchdogExpired core s
  | .logRead v => Sys2Proof.Machine.execLogRead v s
  | .sensorRead v => Sys2Proof.Machine.execSensorRead v s
  | .otpWrite v readBack => Sys2Proof.Machine.execOtpWrite v readBack s
  | .dump v => Sys2Proof.Machine.execDump v s
  | .shutdown v => Sys2Proof.Machine.execShutdown v s
  | .mbFence v => Sys2Proof.Machine.execMbFence v s
  | .selftest v passed => Sys2Proof.Machine.execSelftest v passed s
  | .mctpControl pcie code eid => Sys2Proof.Machine.execMctpControl pcie code eid s
  | .pldmSensorRead pcie sensor => Sys2Proof.Machine.execPldmSensorRead pcie sensor s
  | .pldmShutdown pcie => Sys2Proof.Machine.execPldmShutdown pcie s
  | .pldmReset pcie => Sys2Proof.Machine.execPldmReset pcie s
  | .requestUpdate pcie => Sys2Proof.Machine.execRequestUpdate pcie s
  | .passComponentTable pcie comp => Sys2Proof.Machine.execPassComponentTable pcie comp s
  | .updateComponent pcie comp => Sys2Proof.Machine.execUpdateComponent pcie comp s
  | .firmwareDataReceived pcie bytes last => Sys2Proof.Machine.execFirmwareDataReceived pcie bytes last s
  | .activateFirmware pcie => Sys2Proof.Machine.execActivateFirmware pcie s
  | .getVersion pcie => Sys2Proof.Machine.execGetVersion pcie s
  | .getCapabilities pcie => Sys2Proof.Machine.execGetCapabilities pcie s
  | .negotiateAlgorithms pcie offersP256 offersSha256 => Sys2Proof.Machine.execNegotiateAlgorithms pcie offersP256 offersSha256 s
  | .getDigests pcie => Sys2Proof.Machine.execGetDigests pcie s
  | .getCertificate pcie slot offset len => Sys2Proof.Machine.execGetCertificate pcie slot offset len s
  | .challenge pcie slot nonce => Sys2Proof.Machine.execChallenge pcie slot nonce s
  | .getMeasurements pcie index nonce => Sys2Proof.Machine.execGetMeasurements pcie index nonce s
  | .rstNLow => Sys2Proof.Machine.execRstNLow s
  | .rstNRises straps flash goodFirst goodOther => Sys2Proof.Machine.execRstNRises straps flash goodFirst goodOther s
  | .ready => Sys2Proof.Machine.execReady s
  | .warmReset v => Sys2Proof.Machine.execWarmReset v s
  | .warmResetDone => Sys2Proof.Machine.execWarmResetDone s
  | .functionLevelReset p perst => Sys2Proof.Machine.execFunctionLevelReset p perst s
  | .flrDone => Sys2Proof.Machine.execFlrDone s
  | .railFault rail => Sys2Proof.Machine.execRailFault rail s
  | .railsFall => Sys2Proof.Machine.execRailsFall s
  | .sensorUpdate sensor value => Sys2Proof.Machine.execSensorUpdate sensor value s
  | .overTemperature sensor => Sys2Proof.Machine.execOverTemperature sensor s
  | .powerLimit => Sys2Proof.Machine.execPowerLimit s
  | .throttleN high => Sys2Proof.Machine.execThrottleN high s
  | .throttleShutdown => Sys2Proof.Machine.execThrottleShutdown s
  | .pasidAtsPriEnable p pasid ats pri => Sys2Proof.Machine.execPasidAtsPriEnable p pasid ats pri s
  | .npLinkUp p => Sys2Proof.Machine.execNpLinkUp p s
  | .roceAcknowledgement c psn => Sys2Proof.Machine.execRoceAcknowledgement c psn s
  | .bulkEngineReadData slot n data => Sys2Proof.Machine.execBulkEngineReadData slot n data s
  | .globalPersistentFlush p => Sys2Proof.Machine.execGlobalPersistentFlush p s
  | .probeAnswer h node alive => Sys2Proof.Machine.execProbeAnswer h node alive s
  | .setEventReceiver pcie eid => Sys2Proof.Machine.execSetEventReceiver pcie eid s
  | .i3cDynamicAddress addr => Sys2Proof.Machine.execI3cDynamicAddress addr s

end Sys2Proof.Machine
end

