-- ==== Sys2Proof/Machine/Fabric.lean ====
section
/-! DEFINITION. The package and its network: where the dies stand, the edges that join them, the routes between them, and the spines
that carry packets from die to die (R16, R17, R20, R30, R33 to R37). -/
namespace Sys2Proof.Machine

/-! ## Dies and edges (R16, R17) -/

abbrev iodSL : Nat := 8
abbrev iodSR : Nat := 9

/-- Column and row of a compute die. -/
def dieCol (d : Nat) : Nat := d / 2
def dieRow (d : Nat) : Nat := d % 2

/-- The dies that each of the 14 edges joins. Their numbers are not in the spec (log entry 86). -/
def dieEdges : List (Nat × Nat) :=
  [(0, 1), (2, 3), (4, 5), (6, 7), (0, 2), (2, 4), (4, 6), (1, 3), (3, 5), (5, 7), (iodSL, 0), (iodSL, 1), (iodSR, 6), (iodSR, 7)]

/-- An edge joins two dies. -/
def joined (a b : Nat) : Bool := dieEdges.contains (a, b) || dieEdges.contains (b, a)

/-- The dies at the far ends of a die's edges. -/
def edgesOf (d : Nat) : List Nat := (List.range 10).filter (joined d)

/-! ## Routes (R35) -/

/-- The next die on the way from die d to another: along the long axis in its row, then along the short axis; between the I/O dies
along row 0 or row 1. -/
def nextDie (d dst : Nat) : Nat :=
  if d = iodSL then (if dst = iodSR then 0 else dieRow dst)
  else if d = iodSR then (if dst = iodSL then 7 else 6 + dieRow dst)
  else if dst = iodSL then (if dieCol d = 0 then iodSL else d - 2)
  else if dst = iodSR then (if dieCol d = 3 then iodSR else d + 2)
  else if dieCol d < dieCol dst then d + 2
  else if dieCol dst < dieCol d then d - 2
  else dst

/-- The dies that a packet passes after die d, its destination last; no route is longer than five edges. -/
def dieRoute (d dst : Nat) : Nat → List Nat
  | 0 => []
  | n + 1 => if d = dst then [] else nextDie d dst :: dieRoute (nextDie d dst) dst n

/-- The next router of the grid of a compute die, by row and column: first along the row, then along the column. -/
def nextRouter (at_ dst : Nat × Nat) : Nat × Nat :=
  if at_.2 < dst.2 then (at_.1, at_.2 + 1)
  else if dst.2 < at_.2 then (at_.1, at_.2 - 1)
  else if at_.1 < dst.1 then (at_.1 + 1, at_.2)
  else if dst.1 < at_.1 then (at_.1 - 1, at_.2)
  else at_

/-! ## Where a packet enters and leaves (R20, R25, R28) -/

/-- Spine ports beside the edges: of a compute die, and the first of the eight blocks of an I/O die. -/
abbrev gpePort : Nat := 10
abbrev gridPort : Nat := 13
abbrev blockPort : Nat := 14

/-- Blocks of the I/O dies in the order of R28: the network port, the CFE of IOD-SL, the director and the management subsystem of
IOD-SR, and the group of a Twiben port. -/
abbrev netBlock : Nat := blockPort + 1
abbrev cfeEnd : Nat × Nat := (iodSL, blockPort + 6)
abbrev directorEnd : Nat × Nat := (iodSR, blockPort + 6)
abbrev mgmtEnd : Nat × Nat := (iodSR, blockPort + 7)
def linkEnd (n : Nat) : Nat × Nat := (8 + iodOf n, blockPort + (if 24 ≤ n then 5 else 2 + n % 12 / 4))

/-- The port of the HBM controller that holds a row on a die (R19, R594). -/
def State.hbmPort (s : State) (die h row : Nat) : Nat := 11 + ((s.table? h).map (fun t => s.rowStack die t row)).getD 0 % 2

/-- The block that the records of a stream come from: the network port that it names, and one and the same, NP0, for a stream that may
use either, so that its records keep their order (R36, R200; log entry 86). -/
def State.streamEnd (s : State) (stream : Nat) : Nat × Nat :=
  if s.strms.any (fun x => x.valid && x.stream == stream && x.port == 1) then (iodSR, netBlock) else (iodSL, netBlock)

/-- The write that a packet is belongs to a record of the feed, or to a command of a queue. -/
def State.ofFeed (s : State) (p : Send) : Bool := s.link.pend.any (fun e => e.p == p && e.rec_.isSome)
def State.ofQueue (s : State) (p : Send) : Bool := s.link.pend.any (fun e => e.p == p && e.cmd.isSome)

/-- The work of a table command; the rest is the director's. -/
def ofTable : WorkMsg → Bool
  | .tblCreate _ _ => true
  | .tblUncreate _ _ => true
  | .mismatch _ => true
  | .tblReserve _ _ => true
  | .tblUnreserve _ _ => true
  | .tblFallback _ _ _ => true
  | .tblLoaded _ _ _ _ => true
  | .tblCommit _ _ _ => true
  | .loadsDone _ _ => true
  | .commitGo _ => true
  | .tblUncommit _ => true
  | .tblDrop _ _ => true
  | .tblUndrop _ _ => true
  | .dropFree _ _ => true
  | _ => false

/-- The block of a part that a packet's contents concern, at a die; `sends` at its source. -/
def State.blockOf (s : State) (p : Send) (d : Nat) (sends : Bool) : Nat × Nat :=
  match p.body with
  | .poolReq _ => (d, gpePort)
  | .part _ => (d, gpePort)
  | .delta r => if sends ∧ s.ofFeed p then s.streamEnd r.stream else (d, s.hbmPort d r.handle r.row)
  | .forward f => (d, s.hbmPort d f.handle f.row)
  | .chorus (.row f) => (d, s.hbmPort d f.handle f.row)
  | .chorus (.dir _) => if sends then directorEnd else (d, gpePort)
  | .rows _ h _ l => if sends ∧ s.ofQueue p then cfeEnd else (d, s.hbmPort d h (((l.head?).map (·.row)).getD 0))
  | .twin _ r => s.streamEnd r.stream
  | .work m => if ofTable m then cfeEnd else directorEnd
  | .ticket _ _ => cfeEnd
  | .ticketReply _ => cfeEnd
  | .report _ => cfeEnd
  | .ack tag _ _ =>
    if sends then (d, 11)
    else
      match (s.link.pend.find? (fun e => e.p.dst == s.loc p.die && e.p.tag == tag)) with
      | some e => if e.cmd.isSome then cfeEnd else match e.p.body, e.rec_ with
        | .delta r, some _ => s.streamEnd r.stream
        | .work _, _ => directorEnd
        | _, _ => (d, 11)
      | none => (d, 11)
  | .raw q => if q.type = 1 ∨ q.type = 2 then (d, gpePort) else if q.type = 6 ∨ q.type = 7 then (d, 11) else directorEnd
  | _ => mgmtEnd

/-- The die and port that a packet comes from, and those it goes to: from the Twiben port it came in on or from the block that sent it, to
the Twiben port it leaves by, which for one that is passed on is that of R504, or to the block it is for (R35). -/
def State.nocEnds (s : State) (x : Parcel) : (Nat × Nat) × (Nat × Nat) :=
  let from_ := match x.inPort with
    | some n => linkEnd n
    | none => s.blockOf x.p x.p.die true
  let to_ := match x.hop with
    | some (port, _) => linkEnd port
    | none =>
      if locNode x.p.dst = s.node then s.blockOf x.p (locDie x.p.dst) false
      else ((s.upPorts ((s.nextDir (locNode x.p.dst)).getD 15)).head?.map linkEnd).getD from_
  (from_, to_)

/-- The command that a packet for this part is at its destination. A packet that came in on a Twiben port and whose payload has no layout in
the spec comes as a command of its own (log entry 10). -/
def State.arrival (s : State) (p : Send) : Option Instr :=
  let d := locDie p.dst
  let h : WriteHdr := ⟨s.loc p.die, d, p.tag, p.gen, false⟩
  match p.body with
  | .poolReq q => some (.poolReq d ⟨q, []⟩)
  | .part q => some (.partialIn d q)
  | .work m => some (.work h m)
  | .chorus m => some (.chorusWrite h m)
  | .delta r => some (.deltaApply h r ⟨0, 0, 0⟩)
  | .forward f => some (.deltaForward h f)
  | .twin first r => some (.twinRecord h first r)
  | .rows kind hd v l => some (.rowsPacket h kind hd v l)
  | .suspect node failed => some (.suspect h node failed)
  | .probeAsk node => some (.probe h node)
  | .probe node => some (.probe h node)
  | .lost node => some (.lost h node)
  | .ticket number at_ => some (.ticketProposal h number at_)
  | .ticketReply number => some (.ticketAccepted number)
  | .report r => some (.pairReport h r.tables r.status r.finish)
  | .ack tag gen result => some (.ack (s.loc p.die) tag gen result)
  | .raw q => if q.type = 1 then some (.poolReq d ⟨poolReqOf (headOf q) q.payload, []⟩)
    else if q.type = 2 then some (.partialIn d (partialOf (headOf q) q.payload)) else none
  | _ => none

/-! ## Spines (R30, R33, R34, R36) -/

/-- Put a packet at the end of an input buffer. -/
def Noc.push (n : Noc) (key : Nat × Nat × Nat) (x : Flying) : Noc := { n with bufs := keyPut n.bufs key (keyGet [] n.bufs key ++ [x]) }

/-- Take the oldest packet off an input buffer. -/
def Noc.pop (n : Noc) (key : Nat × Nat × Nat) : Noc := { n with bufs := keyPut n.bufs key ((keyGet [] n.bufs key).drop 1) }

/-- Packets that were sent enter their source's spine, each in the buffer of its class. -/
def State.nocEnter (s : State) : State :=
  let n := s.link.noc.entry.foldl (fun (n : Noc) x =>
    let e := s.nocEnds x
    n.push (e.1.1, e.1.2, vcOf x.p.body.type) ⟨x, e.2.1, e.2.2⟩) { s.link.noc with entry := [] }
  { s with link := { s.link with noc := n } }

/-- The output port of die d that a packet leaves by. -/
def Flying.out (x : Flying) (d : Nat) : Nat := if d = x.dst then x.port else nextDie d x.dst

/-- The turn of an input buffer at an output port: how far it comes after the one granted last (R30). -/
def Noc.turn (n : Noc) (d o : Nat) (k : Nat × Nat × Nat) : Nat := (4 * k.2.1 + k.2.2 + 87 - keyGet 87 n.granted (d, o)) % 88

/-- The input buffer that output port o of die d grants: of those whose oldest packet leaves by it, the one next after the buffer
granted last (R30). -/
def Noc.grant (n : Noc) (d o : Nat) : Option ((Nat × Nat × Nat) × Flying) :=
  let heads := (n.bufs.filter (fun e => e.1.1 == d)).filterMap (fun e => (e.2.head?).map (fun x => (e.1, x)))
  (heads.filter (fun e => e.2.out d == o)).foldl (fun best e =>
    match best with
    | none => some e
    | some b => if n.turn d o e.1 < n.turn d o b.1 then some e else some b) none

/-- Every output port of every spine grants one packet. -/
def Noc.grants (n : Noc) : List ((Nat × Nat) × ((Nat × Nat × Nat) × Flying)) :=
  (List.range 10).flatMap (fun d => (List.range 22).filterMap (fun o => (n.grant d o).map (fun e => ((d, o), e))))

/-- A packet comes to its block: to the port that it leaves the part by, or the one that R504 chooses then when that one is not UP; to the
requests that the owner side of a GPE serves in turn; or as a command of the part. -/
def State.comesOut (s : State) (x : Parcel) : State :=
  match x.hop with
  | some (port, dl) =>
    if s.portUp port then s.putPort x.p port dl
    else
      match s.route none 0 x.p.dst (vcOf x.p.body.type) with
      | some (port, dl) => s.putPort x.p port dl
      | none => s
  | none =>
    if locNode x.p.dst ≠ s.node then
      match x.p.body, x.inPort with
      | .raw q, some n =>
        { s with pending := s.pending ++ [if q.type = 2 then .combinePartial n q.dl (partialOf (headOf q) q.payload) else .forward (some n) q] }
      | _, _ => s
    else
      match s.arrival x.p with
      | some (.poolReq d q) => s.modGpe d (fun g => { g with asked := g.asked ++ [q.pkt] })
      | c => { s with pending := s.pending ++ c.toList }

/-- A granted packet moves on: over its edge into the next spine, or to its block. -/
def State.nocMove (s : State) (g : (Nat × Nat) × ((Nat × Nat × Nat) × Flying)) : State :=
  let ((d, o), (key, x)) := g
  let n := { s.link.noc.pop key with granted := keyPut s.link.noc.granted (d, o) (4 * key.2.1 + key.2.2) }
  if o < 10 then { s with link := { s.link with noc := n.push (o, d, key.2.2) x } }
  else ({ s with link := { s.link with noc := n } } : State).comesOut x.x

/-! ## The owner side of a GPE (R30, R92) -/

/-- The request packet that the owner side of a GPE takes next: the oldest of the requester whose turn it is, the one next after the one
granted last. -/
def Gpe.takes (g : Gpe) : Option PoolReqPkt :=
  g.asked.foldl (fun (best : Option PoolReqPkt) q =>
    let turn (l : Nat) : Nat := (l + 32767 - g.askedLast) % 32768
    match best with
    | none => some q
    | some b => if turn q.src < turn b.src then some q else best) none

/-- The owner side of a die's GPE takes a request packet. -/
def State.ownerTurn (s : State) (die : Nat) : State :=
  match (s.gpes[die]?).bind Gpe.takes with
  | none => s
  | some q =>
    let s1 := s.modGpe die (fun g => { g with asked := g.asked.erase q, askedLast := q.src })
    { s1 with pending := s1.pending ++ [.poolReq die ⟨q, []⟩] }

/-- The network moves while no command waits: every spine port passes at most one packet on, and the owner side of every GPE takes one
request (log entry 86). -/
def State.netTick (s : State) : State :=
  if !s.serving then s
  else
    let s1 := s.nocEnter
    (List.range 8).foldl State.ownerTurn (s1.link.noc.grants.foldl State.nocMove s1)

end Sys2Proof.Machine
end

