-- ==== Sys2Proof/Safety.lean ====
section
/-! DEFINITION. What claims about runs are stated with: the sound states, in which the part has all the units the spec gives it and
its memories stand in their one canonical form, and steps that go on. -/
namespace Sys2Proof.Machine

/-- The register bank, the general region of HBM and scratch are in canonical form: addresses rising, no entry equal to what its
address holds unlisted. -/
def State.memOk (s : State) : Bool := Sparse.wf regReset 0 s.regs && s.hbm.wf && s.scr.wf

/-- The part has its 8 GPEs, domain slots and directory copies, 2 feed and host ports, 64 stream entries, Cue bindings and RoCEv2
connections, 128 clusters, 9 queue slots, 16 stacks, 32 Twiben ports and 10 network ports (R18, R19, R142, R152, R198, R389, R418,
R494, R514). -/
def State.shapeOk (s : State) : Bool :=
  s.gpes.length == 8 && s.doms.length == 8 && s.dirs.length == 8 && s.fports.length == 2 && s.strms.length == 64
    && s.clusters.length == 128 && s.slots.length == 9 && s.bindings.length == 64 && s.host.ports.length == 2
    && s.mem.state.length == 16 && s.link.ports.length == 32 && s.net.link.length == 10 && s.net.roce.length == 64

/-- A sound state. -/
def State.Sound (s : State) : Prop := s.memOk = true ∧ s.shapeOk = true

/-- No register but those of `l` has changed from s to t. -/
def State.regsBut (s t : State) (l : List Nat) : Prop := ∀ a, a ∉ l → t.reg a = s.reg a

/-- From s to t the part has sent `l`, and before it at most interrupts. -/
def State.sent (s t : State) (l : List Out) : Prop := ∃ m, t.out = s.out ++ m ++ l ∧ ∀ o ∈ m, ∃ p v, o = .msix p v

/-- From s to t the part has at most sent packets: only its links, LNK_STATUS with its interrupt, and what has gone out can have changed. -/
def State.onlySends (s t : State) : Prop :=
  t = { s with link := t.link, regs := t.regs, out := t.out } ∧ s.regsBut t [Reg.LNK_STATUS, Reg.MSIX_PBA] ∧ s.out <+: t.out

/-- A packet of class vc finds a way to a location of another part, which is not lost (R506, R544). -/
def State.reaches (s : State) (dst vc : Nat) : Prop :=
  s.ras.lostNodes.contains (locNode dst) = false ∧ (s.route none 0 dst vc).isSome = true

/-! ## What an issued instruction leaves -/

/-- The prompter of a cluster issues word i for the context and share `a`: the guard is true, and no ATOM has yet to fill a register
of `regs` (R356, R374). -/
def State.issues (s : State) (cl : Nat) (i : BWord) (regs : List Nat) (a : Site) : Prop :=
  s.serving = true ∧ s.site? cl = some a ∧ (a.k.p i.pg == i.pn) = false ∧ a.k.running.any (fun o => o.dreg.any regs.contains) = false

/-- A context's share of a cluster. -/
def State.onCl (s : State) (id cl : Nat) : Option ClCtx := (s.ctx? id).bind (·.on? cl)

/-- A context without its shares. -/
def Ctx.sansCls (c : Ctx) : Ctx := { c with cls := [] }

/-- A share after an instruction of its own that does not branch. -/
def ClCtx.past (k : ClCtx) (i : BWord) : ClCtx := { k.advance (wordsOf i) with wait := none }

/-- From s to t the issuing share has become k and CL_ISSUED has counted one; nothing else has changed. -/
def State.Retired (s t : State) (a : Site) (k : ClCtx) : Prop :=
  t = { s.count (Reg.CL_ISSUED a.k.cl) 1 with ctxs := t.ctxs } ∧ t.onCl a.c.id a.k.cl = some k
    ∧ (∀ id, (t.ctx? id).map Ctx.sansCls = (s.ctx? id).map Ctx.sansCls)
    ∧ (∀ id cl, ¬(id = a.c.id ∧ cl = a.k.cl) → t.onCl id cl = s.onCl id cl)

/-- An engine operation can be queued: its footprint meets none that runs, the context has one of its 32 places, and the queue of
its class has room (R359, R360). -/
def State.takes (s : State) (a : Site) (o : EngOp) : Prop :=
  a.k.clash o.reads o.writes = false ∧ a.k.running.length < 32 ∧ s.queueFull a.k.cl o.cls = false

/-! ## What a queue slot does with its next entry -/

/-- Slot k is about to run entry number n with the 64 bytes e, whose opcode is op: READY is 1, the part has not lost itself, the entry
is the oldest that waits, and the slot may let it in (R400, R402, R413, R434). -/
def State.admits (s : State) (k op n : Nat) (e : Bytes) (q : QSlot) (rest : List (Nat × Bytes)) : Prop :=
  s.barOpen = true ∧ s.pwr.lost = false ∧ s.slots[k]? = some q ∧ q.waiting = (n, e) :: rest ∧ rd e 0 1 = op ∧ s.canAdmit k op q = true

/-- The state in which that entry has left the queue and runs. -/
def State.took (s : State) (k n : Nat) (e : Bytes) (rest : List (Nat × Bytes)) : State :=
  s.modSlot k (fun q => { q with waiting := rest, cmds := q.cmds ++ [⟨n, rd e 4 4, rd e 0 1, e, none, 0, 0, none, [], ⟨[], none⟩⟩] })

/-- The step goes on: it ends in no fault and no refusal. -/
def State.goesOn (s : State) : Prop := ∃ t, step s = .next t

end Sys2Proof.Machine
end

