-- ==== Sys2Proof/WellFormed.lean ====
section
/-! DEFINITION. The ranges of a command's operands, as the rules that name them give them. A command outside them names
nothing that the part has. -/
namespace Sys2Proof

/-- A number below a bound. -/
def below (v n : Nat) : Bool := decide (v < n)

/-- The fields of a Bassaso word fit their widths (R355). -/
def BWord.wf (i : BWord) : Bool := below i.pg 8 && below i.d 32 && below i.a 32 && below i.b 32 && below i.c 32

/-- A naturally aligned access of 1, 2, 4 or 8 bytes in BAR0 or BAR2 (R6). -/
def Access.wf (a : Access) : Bool :=
  (a.bar == 0 || a.bar == 2) && (a.size == 1 || a.size == 2 || a.size == 4 || a.size == 8) && below a.off (2 ^ 28)

/-- Locations have 12 bits of node and 3 of die, numbers 16 bits (R153, R500, R541). -/
def WriteHdr.wf (h : WriteHdr) : Bool := below h.src 32768 && below h.die 8 && below h.tag (2 ^ 32) && below h.gen 256

/-- The fields of a delta record fit their widths (R203). -/
def DeltaRec.wf (r : DeltaRec) : Bool :=
  below r.stream 65536 && below r.op 256 && below r.handle 65536 && below r.target 65536

/-- Destination and source of a packet (R500). -/
def Packet.wf (p : Packet) : Bool := below p.dst 32768 && below p.src 32768 && below p.gen 256 && below p.tag (2 ^ 32) && decide (p.payload.length ≤ 16384)

/-- Sequence number, class and sub-channel of a flit (R497). -/
def Flit.wf (f : Flit) : Bool := below f.lseq 4096 && below f.vc 4 && below f.dl 2 && below f.crSub 8 && below f.crN 256

/-- Header fields and pieces of a pooling request (R112). -/
def PoolReqPkt.wf (p : PoolReqPkt) : Bool := below p.src 32768 && below p.ctx 4096 && below p.op 65536 && below p.gen 256 && below p.pkt p.npkt && decide (p.npkt ≤ 4096)
  && p.pieces.all (fun x => below x.bag 65536 && decide (1 ≤ x.idx.length) && decide (x.idx.length ≤ 2040) && x.idx.all (fun e => below e.row (2 ^ 40)))

/-- Source, destination and context of a partial (R111). -/
def PartialPkt.wf (p : PartialPkt) : Bool := below p.src 32768 && below p.dst 32768 && below p.ctx 4096

/-- The operands of a command are in range. -/
def Instr.wf (i : Instr) : Bool :=
  match i with
  | .registerWrite a => a.wf
  | .refusedAccess _ a => a.wf
  | .edgeFailed edge => below edge 14
  | .parityFailure _ => true
  | .tblHeapWrite _ => true
  | .tblCreate slot _ => below slot 9
  | .tblLoad slot _ => below slot 9
  | .tblCommit slot => below slot 9
  | .tblDrop slot => below slot 9
  | .commitInstantReached _ => true
  | .commitComplete _ => true
  | .versionFreed handle ver => below handle 65536 && below ver 65536
  | .work h _ => h.wf
  | .gather cl w => below cl 128 && w.word.wf
  | .pool cl w => below cl 128 && w.word.wf
  | .poolReq die p => below die 8 && p.pkt.wf
  | .granuleIn die _ _ _ => below die 8
  | .sketchDecay die => below die 8
  | .partialIn die p => below die 8 && p.wf
  | .combinePartial _ _ p => p.wf
  | .combineWindowExpires iod _ => below iod 2
  | .poolTimeout die _ => below die 8
  | .cancelAtGpe die ctx => below die 8 && below ctx 4096
  | .abandonedOpNumberFreed die _ => below die 8
  | .wingsEnable die _ => below die 8
  | .invalidateAll die _ => below die 8
  | .wingsStopped die => below die 8
  | .wingsStarted die => below die 8
  | .invalidateSweepEnds die => below die 8
  | .plcDomCfgWrite a => a.wf
  | .plcDomMembersWrite a => a.wf
  | .hotPeriod _ => true
  | .replicaCopyConfirmed handle row => below handle 65536 && below row (2 ^ 40)
  | .replicaReserveLowered _ => true
  | .balanceCheck slot _ _ => below slot 8
  | .copyConfirmed _ => true
  | .flip _ => true
  | .holdTimerExpires _ => true
  | .flipAcknowledged _ => true
  | .epochAdvance slot => below slot 8
  | .lowWaterReport slot _ _ => below slot 8
  | .remirrorRetry slot _ => below slot 8
  | .rejoin slot m => below slot 8 && below m.member 256
  | .placeLaunch ctx => below ctx 4096
  | .pinReplicate _ => true
  | .pinHold _ => true
  | .unpin _ => true
  | .pinComplete => true
  | .data f => decide (f.port < 10)
  | .resync f => decide (f.port < 10)
  | .recordIngested port => below port 2
  | .xoffRepeat port => below port 2
  | .gapDeclaredLost idx => below idx 64
  | .sendAck idx => below idx 64
  | .sendNack idx => below idx 64
  | .deltaApply h r fails => h.wf && r.wf && below fails.check.no 65536
  | .deltaForward h _ => h.wf
  | .ack _ _ _ _ => true
  | .markComplete idx => below idx 64
  | .twinRecord h _ r => h.wf && r.wf
  | .pairLinkLost idx => below idx 64
  | .pairReqGo _ => true
  | .ticketProposal h _ _ => h.wf
  | .ticketAccepted _ => true
  | .ticketTimeout => true
  | .ticketExpired => true
  | .pairReport h _ _ _ => h.wf
  | .pairReportTimeout => true
  | .feedEn _ => true
  | .feedStopped port => below port 2
  | .feedStarted port => below port 2
  | .feedSkidWrite a => a.wf
  | .feedStrmCfgWrite a => a.wf
  | .qdelayRead port => below port 2
  | .rowsPacket h _ handle ver _ => h.wf && below handle 65536 && below ver 65536
  | .chorusWrite h _ => h.wf
  | .rows cl i => below cl 128 && i.wf
  | .mma cl i => below cl 128 && i.wf
  | .conv1 cl i => below cl 128 && i.wf
  | .ewa cl i => below cl 128 && i.wf
  | .drain cl i => below cl 128 && i.wf
  | .residueCheckFails cl array ctx _ _ c => below cl 128 && below array 8 && below ctx 4096 && below c.no 65536
  | .vchain cl i => below cl 128 && i.wf
  | .vred cl i => below cl 128 && i.wf
  | .vcvt cl i => below cl 128 && i.wf
  | .sfn cl i => below cl 128 && i.wf
  | .smaxM cl i => below cl 128 && i.wf
  | .smaxE cl i => below cl 128 && i.wf
  | .smaxD cl i => below cl 128 && i.wf
  | .normS cl i => below cl 128 && i.wf
  | .normF cl i => below cl 128 && i.wf
  | .vectorCheckFails cl _ ctx _ _ c => below cl 128 && below ctx 4096 && below c.no 65536
  | .transferCheckFails cl ctx _ _ c => below cl 128 && below ctx 4096 && below c.no 65536
  | .gpeCheckFails die _ ctx _ _ _ c => below die 8 && below ctx 4096 && below c.no 65536
  | .engineInstructionEnds cl ctx _ => below cl 128 && below ctx 4096
  | .add cl i => below cl 128 && i.wf
  | .sub cl i => below cl 128 && i.wf
  | .mul cl i => below cl 128 && i.wf
  | .and cl i => below cl 128 && i.wf
  | .or cl i => below cl 128 && i.wf
  | .xor cl i => below cl 128 && i.wf
  | .shl cl i => below cl 128 && i.wf
  | .shr cl i => below cl 128 && i.wf
  | .cmp cl i => below cl 128 && i.wf
  | .sel cl i => below cl 128 && i.wf
  | .li cl i => below cl 128 && i.wf
  | .ld cl i _ => below cl 128 && i.wf
  | .st cl i => below cl 128 && i.wf
  | .br cl i => below cl 128 && i.wf
  | .brc cl i => below cl 128 && i.wf
  | .call cl i => below cl 128 && i.wf
  | .ret cl i => below cl 128 && i.wf
  | .loop cl i => below cl 128 && i.wf
  | .tdef cl i => below cl 128 && i.wf
  | .tset cl i => below cl 128 && i.wf
  | .tadv cl i => below cl 128 && i.wf
  | .tbind cl i => below cl 128 && i.wf
  | .move cl i => below cl 128 && i.wf
  | .transferRunComplete _ _ => true
  | .chorus cl i => below cl 128 && i.wf
  | .atom cl i => below cl 128 && i.wf
  | .racq cl i => below cl 128 && i.wf
  | .rpub cl i => below cl 128 && i.wf
  | .rrel cl i => below cl 128 && i.wf
  | .curtain cl i => below cl 128 && i.wf
  | .waitt cl i => below cl 128 && i.wf
  | .dlchk cl i => below cl 128 && i.wf
  | .slotDue ctx ring => below ctx 4096 && below ring 16
  | .stallDeclared ctx => below ctx 4096
  | .safe cl i => below cl 128 && i.wf
  | .yield cl i => below cl 128 && i.wf
  | .fence cl i => below cl 128 && i.wf
  | .trap cl i => below cl 128 && i.wf
  | .exit cl i => below cl 128 && i.wf
  | .cancel ctx cl => below ctx 4096 && below cl 128
  | .icacheMissFill _ => true
  | .scratchApertureAccess _ a _ => a.wf
  | .chorusWindowWrite a => a.wf
  | .groupWindowWrite a => a.wf
  | .queueEnWritten k _ => below k 9
  | .queueStarted k => below k 9
  | .queueConfigWrite a => a.wf
  | .sqDb k _ => below k 9
  | .cqDb k _ => below k 9
  | .doorbellAccessDropped k _ a => below k 9 && a.wf
  | .entryFetched k _ _ => below k 9
  | .entryReread k _ => below k 9
  | .launch k _ _ => below k 9
  | .launchStarts ctx => below ctx 4096
  | .segmentDelivered ctx _ _ => below ctx 4096
  | .copy k => below k 9
  | .queueFence k => below k 9
  | .query k => below k 9
  | .nop k => below k 9
  | .unassignedOpcode k => below k 9
  | .scriptLoad k => below k 9
  | .scriptPatch k => below k 9
  | .scriptDrop k => below k 9
  | .completionRecord k _ => below k 9
  | .intmodTimer k => below k 9
  | .cueRequest f => decide (f.port < 10)
  | .reassemblyTimeout ctx => below ctx 4096
  | .messageNameExpires _ _ _ => true
  | .cueReply ctx => below ctx 4096
  | .cueBindWrite a => a.wf
  | .deadlineReached ctx => below ctx 4096
  | .understudyStart ctx => below ctx 4096
  | .destroyRecord k => below k 9
  | .hostLinkUp p _ _ _ _ => below p 2
  | .hostLinkDown p => below p 2
  | .hdmDecoderCommit p _ => below p 2
  | .hstHdmWrite _ => true
  | .atsCompletion _ _ => true
  | .atsTimeout _ => true
  | .pageRequestResponse _ _ => true
  | .priTimeout _ => true
  | .invalidateRequest p _ _ _ _ _ => below p 2
  | .invalidateCompletion p _ => below p 2
  | .hostSnoop _ => true
  | .cxlMemAccess _ _ _ _ _ => true
  | .bisnpComplete _ _ => true
  | .patrolScrub k _ _ => below k 16
  | .stackFailed k => below k 16
  | .portTrained n _ => below n 32
  | .ident n node _ _ => below n 32 && below node 512
  | .flit n f => below n 32 && f.wf
  | .retryReq n _ => below n 32
  | .retryBudgetExhausted n => below n 32
  | .forward _ p => p.wf
  | .e2eTimeout _ _ => true
  | .lnkNodeWrite _ => true
  | .lnkTopoWrite _ => true
  | .eEn _ => true
  | .oEn _ => true
  | .twinEn _ => true
  | .npFrame p _ _ _ _ _ _ => below p 10
  | .pfcFrameReceived p _ _ => below p 10
  | .npLinkDown p => below p 10
  | .roceValidWrite a => a.wf
  | .roceReadResponse c _ _ => below c 64
  | .roceAckTimeout c => below c 64
  | .roceNak c => below c 64
  | .congestionNotification c => below c 64
  | .roceRateRecovery c => below c 64
  | .marker _ => true
  | .refclkLost => true
  | .timeUpdate _ _ _ _ _ => true
  | .updateRequest => true
  | .standbyTakeover _ => true
  | .ptpMessage p _ _ => below p 10
  | .holdover => true
  | .selfTestInterval unit _ => below unit 65536
  | .unitFenced unit => below unit 65536
  | .watchListExpiry unit => below unit 65536
  | .suspect h node _ => h.wf && below node 512
  | .probe h node => h.wf && below node 512
  | .probeTimeout node => below node 512
  | .suspectReportTimeout node => below node 512
  | .lost h node => h.wf && below node 512
  | .watchdogExpired core => below core 2
  | .logRead _ => true
  | .sensorRead _ => true
  | .otpWrite _ _ => true
  | .dump _ => true
  | .shutdown _ => true
  | .mbFence _ => true
  | .selftest _ _ => true
  | .mctpControl _ _ _ => true
  | .pldmSensorRead _ _ => true
  | .pldmShutdown _ => true
  | .pldmReset _ => true
  | .requestUpdate _ => true
  | .passComponentTable _ _ => true
  | .updateComponent _ _ => true
  | .firmwareDataReceived _ _ _ => true
  | .activateFirmware _ => true
  | .getVersion _ => true
  | .getCapabilities _ => true
  | .negotiateAlgorithms _ _ _ => true
  | .getDigests _ => true
  | .getCertificate _ slot _ _ => below slot 8
  | .challenge _ slot _ => below slot 8
  | .getMeasurements _ _ _ => true
  | .rstNLow => true
  | .rstNRises _ _ _ _ => true
  | .ready => true
  | .warmReset _ => true
  | .warmResetDone => true
  | .functionLevelReset p _ => below p 2
  | .flrDone => true
  | .railFault rail => below rail 9
  | .railsFall => true
  | .sensorUpdate _ _ => true
  | .overTemperature _ => true
  | .powerLimit => true
  | .throttleN _ => true
  | .throttleShutdown => true
  | .pasidAtsPriEnable p _ _ _ => below p 2
  | .npLinkUp p => below p 10
  | .roceAcknowledgement c _ => below c 64
  | .bulkEngineReadData slot _ _ => below slot 9
  | .globalPersistentFlush p => below p 2
  | .probeAnswer h node _ => h.wf && below node 512
  | .setEventReceiver _ _ => true
  | .i3cDynamicAddress addr => below addr 128

/-- The cluster and the word of a command that is a Bassaso instruction (R358). -/
def Instr.word (i : Instr) : Option (Nat × BWord) :=
  match i with
  | .registerWrite _ => none
  | .refusedAccess _ _ => none
  | .edgeFailed _ => none
  | .parityFailure _ => none
  | .tblHeapWrite _ => none
  | .tblCreate _ _ => none
  | .tblLoad _ _ => none
  | .tblCommit _ => none
  | .tblDrop _ => none
  | .commitInstantReached _ => none
  | .commitComplete _ => none
  | .versionFreed _ _ => none
  | .work _ _ => none
  | .gather cl w => some (cl, w.word)
  | .pool cl w => some (cl, w.word)
  | .poolReq _ _ => none
  | .granuleIn _ _ _ _ => none
  | .sketchDecay _ => none
  | .partialIn _ _ => none
  | .combinePartial _ _ _ => none
  | .combineWindowExpires _ _ => none
  | .poolTimeout _ _ => none
  | .cancelAtGpe _ _ => none
  | .abandonedOpNumberFreed _ _ => none
  | .wingsEnable _ _ => none
  | .invalidateAll _ _ => none
  | .wingsStopped _ => none
  | .wingsStarted _ => none
  | .invalidateSweepEnds _ => none
  | .plcDomCfgWrite _ => none
  | .plcDomMembersWrite _ => none
  | .hotPeriod _ => none
  | .replicaCopyConfirmed _ _ => none
  | .replicaReserveLowered _ => none
  | .balanceCheck _ _ _ => none
  | .copyConfirmed _ => none
  | .flip _ => none
  | .holdTimerExpires _ => none
  | .flipAcknowledged _ => none
  | .epochAdvance _ => none
  | .lowWaterReport _ _ _ => none
  | .remirrorRetry _ _ => none
  | .rejoin _ _ => none
  | .placeLaunch _ => none
  | .pinReplicate _ => none
  | .pinHold _ => none
  | .unpin _ => none
  | .pinComplete => none
  | .data _ => none
  | .resync _ => none
  | .recordIngested _ => none
  | .xoffRepeat _ => none
  | .gapDeclaredLost _ => none
  | .sendAck _ => none
  | .sendNack _ => none
  | .deltaApply _ _ _ => none
  | .deltaForward _ _ => none
  | .ack _ _ _ _ => none
  | .markComplete _ => none
  | .twinRecord _ _ _ => none
  | .pairLinkLost _ => none
  | .pairReqGo _ => none
  | .ticketProposal _ _ _ => none
  | .ticketAccepted _ => none
  | .ticketTimeout => none
  | .ticketExpired => none
  | .pairReport _ _ _ _ => none
  | .pairReportTimeout => none
  | .feedEn _ => none
  | .feedStopped _ => none
  | .feedStarted _ => none
  | .feedSkidWrite _ => none
  | .feedStrmCfgWrite _ => none
  | .qdelayRead _ => none
  | .rowsPacket _ _ _ _ _ => none
  | .chorusWrite _ _ => none
  | .rows cl i => some (cl, i)
  | .mma cl i => some (cl, i)
  | .conv1 cl i => some (cl, i)
  | .ewa cl i => some (cl, i)
  | .drain cl i => some (cl, i)
  | .residueCheckFails _ _ _ _ _ _ => none
  | .vchain cl i => some (cl, i)
  | .vred cl i => some (cl, i)
  | .vcvt cl i => some (cl, i)
  | .sfn cl i => some (cl, i)
  | .smaxM cl i => some (cl, i)
  | .smaxE cl i => some (cl, i)
  | .smaxD cl i => some (cl, i)
  | .normS cl i => some (cl, i)
  | .normF cl i => some (cl, i)
  | .vectorCheckFails _ _ _ _ _ _ => none
  | .transferCheckFails _ _ _ _ _ => none
  | .gpeCheckFails _ _ _ _ _ _ _ => none
  | .engineInstructionEnds _ _ _ => none
  | .add cl i => some (cl, i)
  | .sub cl i => some (cl, i)
  | .mul cl i => some (cl, i)
  | .and cl i => some (cl, i)
  | .or cl i => some (cl, i)
  | .xor cl i => some (cl, i)
  | .shl cl i => some (cl, i)
  | .shr cl i => some (cl, i)
  | .cmp cl i => some (cl, i)
  | .sel cl i => some (cl, i)
  | .li cl i => some (cl, i)
  | .ld cl i _ => some (cl, i)
  | .st cl i => some (cl, i)
  | .br cl i => some (cl, i)
  | .brc cl i => some (cl, i)
  | .call cl i => some (cl, i)
  | .ret cl i => some (cl, i)
  | .loop cl i => some (cl, i)
  | .tdef cl i => some (cl, i)
  | .tset cl i => some (cl, i)
  | .tadv cl i => some (cl, i)
  | .tbind cl i => some (cl, i)
  | .move cl i => some (cl, i)
  | .transferRunComplete _ _ => none
  | .chorus cl i => some (cl, i)
  | .atom cl i => some (cl, i)
  | .racq cl i => some (cl, i)
  | .rpub cl i => some (cl, i)
  | .rrel cl i => some (cl, i)
  | .curtain cl i => some (cl, i)
  | .waitt cl i => some (cl, i)
  | .dlchk cl i => some (cl, i)
  | .slotDue _ _ => none
  | .stallDeclared _ => none
  | .safe cl i => some (cl, i)
  | .yield cl i => some (cl, i)
  | .fence cl i => some (cl, i)
  | .trap cl i => some (cl, i)
  | .exit cl i => some (cl, i)
  | .cancel _ _ => none
  | .icacheMissFill _ => none
  | .scratchApertureAccess _ _ _ => none
  | .chorusWindowWrite _ => none
  | .groupWindowWrite _ => none
  | .queueEnWritten _ _ => none
  | .queueStarted _ => none
  | .queueConfigWrite _ => none
  | .sqDb _ _ => none
  | .cqDb _ _ => none
  | .doorbellAccessDropped _ _ _ => none
  | .entryFetched _ _ _ => none
  | .entryReread _ _ => none
  | .launch _ _ _ => none
  | .launchStarts _ => none
  | .segmentDelivered _ _ _ => none
  | .copy _ => none
  | .queueFence _ => none
  | .query _ => none
  | .nop _ => none
  | .unassignedOpcode _ => none
  | .scriptLoad _ => none
  | .scriptPatch _ => none
  | .scriptDrop _ => none
  | .completionRecord _ _ => none
  | .intmodTimer _ => none
  | .cueRequest _ => none
  | .reassemblyTimeout _ => none
  | .messageNameExpires _ _ _ => none
  | .cueReply _ => none
  | .cueBindWrite _ => none
  | .deadlineReached _ => none
  | .understudyStart _ => none
  | .destroyRecord _ => none
  | .hostLinkUp _ _ _ _ _ => none
  | .hostLinkDown _ => none
  | .hdmDecoderCommit _ _ => none
  | .hstHdmWrite _ => none
  | .atsCompletion _ _ => none
  | .atsTimeout _ => none
  | .pageRequestResponse _ _ => none
  | .priTimeout _ => none
  | .invalidateRequest _ _ _ _ _ _ => none
  | .invalidateCompletion _ _ => none
  | .hostSnoop _ => none
  | .cxlMemAccess _ _ _ _ _ => none
  | .bisnpComplete _ _ => none
  | .patrolScrub _ _ _ => none
  | .stackFailed _ => none
  | .portTrained _ _ => none
  | .ident _ _ _ _ => none
  | .flit _ _ => none
  | .retryReq _ _ => none
  | .retryBudgetExhausted _ => none
  | .forward _ _ => none
  | .e2eTimeout _ _ => none
  | .lnkNodeWrite _ => none
  | .lnkTopoWrite _ => none
  | .eEn _ => none
  | .oEn _ => none
  | .twinEn _ => none
  | .npFrame _ _ _ _ _ _ _ => none
  | .pfcFrameReceived _ _ _ => none
  | .npLinkDown _ => none
  | .roceValidWrite _ => none
  | .roceReadResponse _ _ _ => none
  | .roceAckTimeout _ => none
  | .roceNak _ => none
  | .congestionNotification _ => none
  | .roceRateRecovery _ => none
  | .marker _ => none
  | .refclkLost => none
  | .timeUpdate _ _ _ _ _ => none
  | .updateRequest => none
  | .standbyTakeover _ => none
  | .ptpMessage _ _ _ => none
  | .holdover => none
  | .selfTestInterval _ _ => none
  | .unitFenced _ => none
  | .watchListExpiry _ => none
  | .suspect _ _ _ => none
  | .probe _ _ => none
  | .probeTimeout _ => none
  | .suspectReportTimeout _ => none
  | .lost _ _ => none
  | .watchdogExpired _ => none
  | .logRead _ => none
  | .sensorRead _ => none
  | .otpWrite _ _ => none
  | .dump _ => none
  | .shutdown _ => none
  | .mbFence _ => none
  | .selftest _ _ => none
  | .mctpControl _ _ _ => none
  | .pldmSensorRead _ _ => none
  | .pldmShutdown _ => none
  | .pldmReset _ => none
  | .requestUpdate _ => none
  | .passComponentTable _ _ => none
  | .updateComponent _ _ => none
  | .firmwareDataReceived _ _ _ => none
  | .activateFirmware _ => none
  | .getVersion _ => none
  | .getCapabilities _ => none
  | .negotiateAlgorithms _ _ _ => none
  | .getDigests _ => none
  | .getCertificate _ _ _ _ => none
  | .challenge _ _ _ => none
  | .getMeasurements _ _ _ => none
  | .rstNLow => none
  | .rstNRises _ _ _ _ => none
  | .ready => none
  | .warmReset _ => none
  | .warmResetDone => none
  | .functionLevelReset _ _ => none
  | .flrDone => none
  | .railFault _ => none
  | .railsFall => none
  | .sensorUpdate _ _ => none
  | .overTemperature _ => none
  | .powerLimit => none
  | .throttleN _ => none
  | .throttleShutdown => none
  | .pasidAtsPriEnable _ _ _ _ => none
  | .npLinkUp _ => none
  | .roceAcknowledgement _ _ => none
  | .bulkEngineReadData _ _ _ => none
  | .globalPersistentFlush _ => none
  | .probeAnswer _ _ _ => none
  | .setEventReceiver _ _ => none
  | .i3cDynamicAddress _ => none

end Sys2Proof
end

