-- ==== Sys2Proof/Certificates/Slice0/Obligations.lean ====
section
/-! DEFINITION. The statements about the model, for the provers. -/
open Sys2Proof Sys2Proof.Machine

/-! ## Bassaso instructions: issue -/

/-- R356: with a false guard every instruction is a no-op that moves the PC past its words and waits for nothing; nothing else changes. The
guard is p[PG] XOR PN, so PG = 0 with PN = 0 is never false.
R374: an instruction that reads or writes the register an ATOM has yet to fill waits, as does one whose queue is full or whose
footprint is in use; nothing but the wait and the choice of context changes. -/
def Obligations.Issue : Prop :=
  (∀ (c : Instr) (cl : Nat) (i : BWord) (s : State) (a : Site), c.word = some (cl, i) → s.serving = true → s.site? cl = some a →
     (a.k.p i.pg == i.pn) = true → (∃ t, exec c s = .next t ∧ s.Retired t a (a.k.past i)) ∧ ¬(i.pg = 0 ∧ i.pn = false))
  ∧ (∀ (s : State) (cl : Nat) (i : BWord) (a : Site), s.serving = true → s.site? cl = some a → (a.k.p i.pg == i.pn) = false →
       (a.k.running.any (fun o => o.dreg.any (aluRegs i).contains) = true → exec (.add cl i) s = .next (s.park a .issue))
       ∧ (a.k.running.any (fun o => o.dreg.any (arrRegs .mma i).contains) = false →
           32 ≤ a.k.running.length → exec (.mma cl i) s = .next (s.park a .issue))
       ∧ s.park a .issue = { s with ctxs := (s.park a .issue).ctxs }
       ∧ (s.park a .issue).onCl a.c.id a.k.cl = some { a.k with wait := some .issue })

/-- R365: ADD, SUB, MUL, AND, OR, XOR, SHL and SHR write sD and nothing else; MUL keeps the low 64 bits, shifts use the low six bits
of operand B, and SHR is arithmetic only with ARITH. A D of 0 names s0, which discards the write.
R365: CMP writes pD with its condition, SEL chooses by pC, LI takes the immediate or the extension word.
R353: s0 reads zero and discards writes; p0 reads 1 and discards writes. -/
def Obligations.ScalarResult : Prop :=
  (∀ (s : State) (cl : Nat) (i : BWord) (a : Site), s.issues cl i (aluRegs i) a →
     let x := a.k.s i.a
     let y := opB i a.k
     let n := y.toNat % 64
     let put (v : Word) : ClCtx := (a.k.setS i.d v).past i
     (∃ t, exec (.add cl i) s = .next t ∧ s.Retired t a (put (x + y)))
       ∧ (∃ t, exec (.sub cl i) s = .next t ∧ s.Retired t a (put (x - y)))
       ∧ (∃ t, exec (.mul cl i) s = .next t ∧ s.Retired t a (put (x * y)))
       ∧ (∃ t, exec (.and cl i) s = .next t ∧ s.Retired t a (put (x &&& y)))
       ∧ (∃ t, exec (.or cl i) s = .next t ∧ s.Retired t a (put (x ||| y)))
       ∧ (∃ t, exec (.xor cl i) s = .next t ∧ s.Retired t a (put (x ^^^ y)))
       ∧ (∃ t, exec (.shl cl i) s = .next t ∧ s.Retired t a (put (x <<< n)))
       ∧ (∃ t, exec (.shr cl i) s = .next t ∧ s.Retired t a (put (if i.fn.getLsbD 1 then x.sshiftRight n else x >>> n))))
  ∧ (∀ (s : State) (cl : Nat) (i : BWord) (a : Site),
       (s.issues cl i ((aluRegs i).drop 1) a →
         let x := a.k.s i.a
         let y := opB i a.k
         let holds : Bool := match fnFld i 3 1 with
           | 0 => x == y
           | 1 => x != y
           | 2 => decide (x.toInt < y.toInt)
           | 3 => decide (y.toInt ≤ x.toInt)
           | 4 => decide (x.toNat < y.toNat)
           | _ => decide (y.toNat ≤ x.toNat)
         ∃ t, exec (.cmp cl i) s = .next t ∧ s.Retired t a ((a.k.setP i.d holds).past i))
       ∧ (s.issues cl i [i.d, i.a, i.b] a →
         ∃ t, exec (.sel cl i) s = .next t ∧ s.Retired t a ((a.k.setS i.d (if a.k.p i.c then a.k.s i.a else a.k.s i.b)).past i))
       ∧ (s.issues cl i [i.d] a →
         ∃ t, exec (.li cl i) s = .next t ∧ s.Retired t a ((a.k.setS i.d (i.ext.getD (i.imm.signExtend 64))).past i)))
  ∧ (∀ (k : ClCtx) (v : Word) (b : Bool) (n : Nat),
       k.s 0 = 0 ∧ k.setS 0 v = k ∧ k.p 0 = true ∧ k.setP 0 b = k
         ∧ (0 < n → n < k.sreg.length → (k.setS n v).s n = v)
         ∧ (∀ m, m ≠ n → (k.setS n v).s m = k.s m))

/-- R354, R365: LD of an aligned range of the frame or the shared area loads its little-endian value, sign-extended with SX, once no
running operation writes there; with SPR it reads a special register; a range outside or a bad address is a fault.
R351, R365: ST writes the low bytes of sB to the frame and no other byte of scratch; to AFLAGS and VFLAGS a 1 clears the bit. -/
def Obligations.LoadStoreResult : Prop :=
  (∀ (s : State) (cl : Nat) (i : BWord) (a : Site), s.issues cl i [i.d, i.a] a →
     let n := 2 ^ fnFld i 1 0
     let off := (a.k.s i.a + i.imm.signExtend 64).toNat
     let v := leNat (s.ctxRead a.c a.k off n)
     (i.fn.getLsbD 3 = false → (s.readAt a.c a.k off n).isSome = true → off % n = 0 → a.k.clash [⟨off, n⟩] [] = false →
         s.ctxBad a.c a.k off n = false →
       ∃ t, exec (.ld cl i .good) s = .next t
         ∧ s.Retired t a ((a.k.setS i.d (if i.fn.getLsbD 2 then BitVec.ofInt 64 (sext (8 * n) v) else BitVec.ofNat 64 v)).past i))
     ∧ (∀ ecc w, i.fn.getLsbD 3 = true → s.spr a (i.imm.signExtend 64).toNat = some w →
       ∃ t, exec (.ld cl i ecc) s = .next t ∧ s.Retired t a ((a.k.setS i.d w).past i))
     ∧ (∀ ecc, i.fn.getLsbD 3 = false → s.readAt a.c a.k off n = none →
       exec (.ld cl i ecc) s = .next ((s.issued a id).trap a.c.id a.k.cl a.k.pc ST_ISA_RANGE 0))
     ∧ (∀ ecc, i.fn.getLsbD 3 = false → (s.readAt a.c a.k off n).isSome = true → off % n ≠ 0 →
       exec (.ld cl i ecc) s = .next ((s.issued a id).trap a.c.id a.k.cl a.k.pc ST_ISA_ALIGN 0)))
  ∧ (∀ (s : State) (cl : Nat) (i : BWord) (a : Site), s.issues cl i [i.a, i.b] a →
       let n := 2 ^ fnFld i 1 0
       let off := (a.k.s i.a + i.imm.signExtend 64).toNat
       (∀ base, i.fn.getLsbD 3 = false → s.frameAt a.c a.k off n = some base → off % n = 0 → a.k.clash [] [⟨off, n⟩] = false →
         ∃ t, exec (.st cl i) s = .next t
           ∧ (s.scrWrite a.k.cl base (natLE n (a.k.s i.b).toNat)).Retired t a (a.k.past i)
           ∧ (∀ key, key < scrKey a.k.cl base ∨ scrKey a.k.cl base + n ≤ key → t.scr.get key = s.scr.get key)
           ∧ (s.Sound → t.scrRead a.k.cl base n = natLE n (a.k.s i.b).toNat))
       ∧ (i.fn.getLsbD 3 = true → (i.imm.signExtend 64).toNat = 8 →
         ∃ t, exec (.st cl i) s = .next t
           ∧ s.Retired t a ({ a.k with aflags := a.k.aflags - (a.k.aflags &&& (a.k.s i.b).toNat) }.past i))
       ∧ (i.fn.getLsbD 3 = true → (i.imm.signExtend 64).toNat = 9 →
         ∃ t, exec (.st cl i) s = .next t
           ∧ s.Retired t a ({ a.k with vflags := a.k.vflags - (a.k.vflags &&& (a.k.s i.b).toNat) }.past i)))

/-- R365, R366: BR and a taken BRC set the PC and leave the loops whose body does not hold it; CALL pushes the next word and RET pops
it, neither touching the loops; LOOP with a count opens a level, with 0 jumps past its body. -/
def Obligations.BranchResult : Prop :=
  ∀ (s : State) (cl : Nat) (i : BWord) (a : Site),
    let target := ((a.k.pc : Int) + i.imm.toInt).toNat
    let jump : ClCtx := { a.k.branch target with wait := none }
    (s.issues cl i [] a → ∃ t, exec (.br cl i) s = .next t ∧ s.Retired t a jump)
    ∧ (s.issues cl i [i.a, i.b] a →
      ∃ t, exec (.brc cl i) s = .next t ∧ s.Retired t a (if condHolds (fnFld i 3 1) (a.k.s i.a) (a.k.s i.b) then jump else a.k.past i))
    ∧ (s.issues cl i [] a → a.k.link.length < 16 →
      ∃ t, exec (.call cl i) s = .next t ∧ s.Retired t a { a.k with pc := target, link := (a.k.pc + 1) :: a.k.link, wait := none })
    ∧ (∀ p rest, s.issues cl i [] a → a.k.link = p :: rest →
      ∃ t, exec (.ret cl i) s = .next t ∧ s.Retired t a { a.k with pc := p, link := rest, wait := none })
    ∧ (s.issues cl i [i.a] a → a.k.s i.a ≠ 0 → a.k.loops.length < 4 →
      ∃ t, exec (.loop cl i) s = .next t
        ∧ s.Retired t a ({ a.k with loops := ⟨a.k.pc + 1, target, a.k.s i.a⟩ :: a.k.loops }.past i))
    ∧ (s.issues cl i [i.a] a → a.k.s i.a = 0 →
      ∃ t, exec (.loop cl i) s = .next t ∧ s.Retired t a { a.k with pc := target + 1, wait := none })

/-- R363, R365, R366, R380: a seventeenth CALL and a RET with nothing to pop fault with ST_ISA_STACK, a fifth loop level with
ST_ISA_LOOP; TRAP faults with ST_ISA_USER_TRAP and its IMM. The fault is recorded in CL_TRAP and CL_TRAP_PC. -/
def Obligations.FaultRecorded : Prop :=
  ∀ (s : State) (cl : Nat) (i : BWord) (a : Site), s.Sound →
    let trapped (c : Instr) (st code : Nat) : Prop := ∃ t, exec c s = .next t
      ∧ t.reg (Reg.CL_TRAP cl) = BitVec.ofNat 64 (code * 2 ^ 40 + st * 2 ^ 24 + a.c.id)
      ∧ t.reg (Reg.CL_TRAP_PC cl) = BitVec.ofNat 64 (a.c.bound.1 * 2 ^ 48 + a.c.bound.2 * 2 ^ 32 + a.k.pc)
      ∧ t.reg Reg.ISA_TRAPS = s.reg Reg.ISA_TRAPS + 1
      ∧ t.hbm = s.hbm ∧ t.scr = s.scr ∧ t.tables = s.tables
    (s.issues cl i [] a → trapped (.trap cl i) ST_ISA_USER_TRAP i.imm.toNat)
    ∧ (s.issues cl i [] a → 16 ≤ a.k.link.length → trapped (.call cl i) ST_ISA_STACK 0)
    ∧ (s.issues cl i [] a → a.k.link = [] → trapped (.ret cl i) ST_ISA_STACK 0)
    ∧ (s.issues cl i [i.a] a → a.k.s i.a ≠ 0 → 4 ≤ a.k.loops.length → trapped (.loop cl i) ST_ISA_LOOP 0)

/-- R367, R370: TDEF loads a descriptor from scratch, TSET sets one field, TADV moves BASE (by rows with ROWS, the scales too), TBIND
names a table of the image's list in a slot.
R367: a value that TSET's field does not hold faults with ST_ISA_OPERAND and changes no descriptor; what a descriptor's field holds
after TSET is the value, and the other fields keep theirs. -/
def Obligations.TileAndBind : Prop :=
  (∀ (s : State) (cl : Nat) (i : BWord) (a : Site), s.issues cl i [i.a] a →
     let off := (a.k.s i.a + i.imm.signExtend 64).toNat
     let sel := fnFld i 2 0
     ((s.readAt a.c a.k off 16).isSome = true → off % 16 = 0 → s.ctxBad a.c a.k off 16 = false →
       ∃ t, exec (.tdef cl i) s = .next t
         ∧ s.Retired t a ((a.k.setT i.d (BitVec.ofNat 128 (leNat (s.ctxRead a.c a.k off 16)))).past i))
     ∧ ((a.k.s i.a).toNat < 2 ^ tileWidth sel →
       ∃ t, exec (.tset cl i) s = .next t ∧ s.Retired t a ((a.k.setT i.d (setTileField (a.k.t i.d) sel (a.k.s i.a).toNat)).past i))
     ∧ (let d := tileOf (a.k.t i.d)
       let n : Int := (a.k.s i.a).toInt
       let b : Int := if i.fn.getLsbD 0 then d.base + n * d.stride else d.base + n
       let m : Int := if i.fn.getLsbD 0 ∧ 6 ≤ d.fmt ∧ d.fmt ≤ 9 then d.mxbase + n * scaleStride d.cols else d.mxbase
       0 ≤ b → b < 2 ^ 24 → 0 ≤ m → m < 2 ^ 24 →
         ∃ t, exec (.tadv cl i) s = .next t
           ∧ s.Retired t a ((a.k.setT i.d (setTileField (setTileField (a.k.t i.d) 0 b.toNat) 5 m.toNat)).past i))
     ∧ (s.issues cl i [i.a, i.b] a → (imgTables (s.image a.c)).contains (a.k.s i.a).toNat = true →
       ∃ t k, exec (.tbind cl i) s = .next t ∧ s.Retired t a k
         ∧ k.tslot[(a.k.s i.b).toNat % 16]? = some (some (a.k.s i.a).toNat)
         ∧ (∀ j, j < 16 → j ≠ (a.k.s i.b).toNat % 16 → k.tslot[j]? = some ((a.k.tslot[j]?).getD none))
         ∧ { k with tslot := a.k.tslot } = a.k.past i))
  ∧ ((∀ (d : BitVec 128) (sel v : Nat), sel ≤ 6 → v < 2 ^ tileWidth sel → tileField (setTileField d sel v) sel = v)
     ∧ (∀ (d : BitVec 128) (sel sel' v : Nat), sel ≤ 5 → sel' ≤ 6 → sel ≠ sel' → tileField (setTileField d sel v) sel' = tileField d sel')
     ∧ (∀ (s : State) (cl : Nat) (i : BWord) (a : Site), s.issues cl i [i.a] a → 2 ^ tileWidth (fnFld i 2 0) ≤ (a.k.s i.a).toNat →
         exec (.tset cl i) s = .next ((s.issued a id).trap a.c.id a.k.cl a.k.pc ST_ISA_OPERAND 0)))

/-- R359 to R361: an array, vector or special-function instruction that can be queued is issued as an operation of its class with its
registers as they stand, and the PC goes on; nothing is computed yet.
R371 to R374: VCHAIN, MOVE, CHORUS and ATOM are queued with the descriptor or the operands they read at issue. -/
def Obligations.EngineIssue : Prop :=
  (∀ (s : State) (cl : Nat) (i : BWord) (a : Site),
     let queued (c : Instr) (o : EngOp) : Prop := s.takes a o → ∃ t, exec c s = .next t
       ∧ ({ s with nextOp := s.nextOp + 1 } : State).Retired t a ({ a.k with running := a.k.running ++ [o] }.past i)
     let arr (k : EKind) : EngOp := a.op s .arr k i (arrRanges a.k k i).1 (arrRanges a.k k i).2
     let vec (c : EClass) (k : EKind) : EngOp :=
       { a.op s c k i [] [] with reads := (a.op s c k i [] []).vecRanges.1, writes := (a.op s c k i [] []).vecRanges.2 }
     (s.issues cl i (arrRegs .rows i) a → queued (.rows cl i) (arr .rows))
     ∧ (s.issues cl i (arrRegs .mma i) a → queued (.mma cl i) (arr .mma))
     ∧ (s.issues cl i (arrRegs .conv1 i) a → queued (.conv1 cl i) (arr .conv1))
     ∧ (s.issues cl i (arrRegs .ewa i) a → queued (.ewa cl i) (arr .ewa))
     ∧ (s.issues cl i (arrRegs .drain i) a → queued (.drain cl i) (arr .drain))
     ∧ (s.issues cl i (vecRegs .vred i) a → queued (.vred cl i) (vec .vec .vred))
     ∧ (s.issues cl i (vecRegs .vcvt i) a → queued (.vcvt cl i) (vec .vec .vcvt))
     ∧ (s.issues cl i (vecRegs .sfn i) a → queued (.sfn cl i) (vec .sfu .sfn))
     ∧ (s.issues cl i (vecRegs .smaxM i) a → queued (.smaxM cl i) (vec .vec .smaxM))
     ∧ (s.issues cl i (vecRegs .smaxE i) a → queued (.smaxE cl i) (vec .vec .smaxE))
     ∧ (s.issues cl i (vecRegs .smaxD i) a → queued (.smaxD cl i) (vec .vec .smaxD))
     ∧ (s.issues cl i (vecRegs .normS i) a → queued (.normS cl i) (vec .vec .normS))
     ∧ (s.issues cl i (vecRegs .normF i) a → queued (.normF cl i) (vec .vec .normF)))
  ∧ (∀ (s : State) (cl : Nat) (i : BWord) (a : Site),
       let queued (c : Instr) (o : EngOp) (te : Bool) : Prop := s.takes a o → ∃ t, exec c s = .next t
         ∧ ({ s with nextOp := s.nextOp + 1 } : State).Retired t a
             ({ a.k with running := a.k.running ++ [o], usedTe := a.k.usedTe || te }.past i)
       let off := (a.k.s i.a + i.imm.signExtend 64).toNat
       (s.issues cl i [i.a] a → (s.readAt a.c a.k off 160).isSome = true → s.ctxBad a.c a.k off 160 = false →
         let d := s.ctxRead a.c a.k off 160
         queued (.vchain cl i) { a.op s .vec .vchain i (chainRanges off d).1 (chainRanges off d).2 with desc := d } false)
       ∧ (s.issues cl i [i.a] a → (s.readAt a.c a.k off 128).isSome = true → off % 32 = 0 → s.ctxBad a.c a.k off 128 = false →
         let d := s.ctxRead a.c a.k off 128
         crc16 (d.take 126) = rd d 126 2 → tdescBad a.c.cls.length d = false →
         let x := xferOf d
         let r := moveRanges x (a.c.index cl) off
         queued (.move cl i) { a.op s .te .move i r.1 r.2 with desc := d, xfer := some x, status := moveRole a x } true)
       ∧ (s.issues cl i [i.a, i.b, i.c, i.d] a →
         let src := (a.k.s i.a).toNat
         let n := (a.k.s i.b).toNat
         let mask := (a.k.s i.c).toNat % 65536
         let dst := (a.k.s i.d).toNat
         1 ≤ n → n ≤ 2 ^ 20 → (maskBits mask).any (fun j => decide (a.c.cls.length ≤ j)) = false →
         (s.readAt a.c a.k src n).isSome = true → (s.frameAt a.c a.k dst n).isSome = true →
         queued (.chorus cl i) (a.op s .te .chorus i [⟨src, n⟩] (if mask.testBit (a.c.index cl) then [⟨dst, n⟩] else [])) true)
       ∧ (s.issues cl i [i.a, i.b, i.c, i.d] a → (a.k.s i.a).toNat % 8 = 0 → atomDev i = true →
         queued (.atom cl i) { a.op s .te .atom i [] [] with dreg := some i.d } true)
       ∧ (∀ k, s.issues cl i [i.a, i.b, i.c, i.d] a → (a.k.s i.a).toNat % 8 = 0 → atomDev i = false → a.c.atIndex (atomPeer i) = some k →
         (s.frameAt a.c k (a.k.s i.a).toNat 8).isSome = true →
         let r : List Range := if k.cl = cl then [⟨(a.k.s i.a).toNat, 8⟩] else []
         queued (.atom cl i) { a.op s .te .atom i r r with dreg := some i.d } true))

/-! ## The step, the registers and the package -/

/-- A step runs the command at the front of the queue on the state with the queue's rest; with none waiting it is one tick of the part: of GTIME, of
the package network, of the pauses of the Ethernet ports and of the stall clocks (the tick is the model's, log entries 3, 86 and 98).
With no command waiting a powered part whose clock runs moves GTIME on by one, or takes a tick off what holds GTIME back; the package network changes nothing
but the links, the requests at the GPEs, the queue and what the ports send, and nothing at all when it is empty and no request waits at a GPE; a port with no frame held sends none, and
a held frame goes out once its pause has ended; a launch that waits on no ring and no curtain has its stall clock left alone (log entries 3, 86 and 98).
R17, R35: every hop of a route between two dies follows an edge, and the route ends at its destination.
Every command goes on: no step ends in a fault or a refusal, so no command of the table is turned away. -/
def Obligations.StepRunsFront : Prop :=
  (∀ (s : State) (c : Instr) (rest : List Instr),
     step { s with pending := c :: rest } = exec c { s with pending := rest }
       ∧ (s.pending = [] → step s = .next s.tick.netTick.resumeFrames.stallTick))
  ∧ ((∀ s : State, s.pending = [] → s.pwr.powered = true → s.pwr.rstN = true → s.time.stopped = false →
       let u : State := { s with time := if s.time.hold = 0 then { s.time with gtime := s.time.gtime + 1 } else { s.time with hold := s.time.hold - 1 } }
       step s = .next u.netTick.resumeFrames.stallTick
         ∧ (∃ l q g o, u.netTick = { u with link := l, pending := q, gpes := g, out := o })
         ∧ (s.link.noc.entry = [] → (∀ b ∈ s.link.noc.bufs, b.2 = []) → (∀ g ∈ s.gpes, g.asked = []) → u.netTick = u)
         ∧ (∀ v : State, v.net.held = [] → v.resumeFrames = v)
         ∧ (∀ (v : State) p q o, v.net.held = [(p, q, o)] → (v.paused p q = true → v.resumeFrames = v)
             ∧ (v.paused p q = false → v.resumeFrames = ({ v with net := { v.net with held := [] } } : State).sendFrame p o))
         ∧ (∀ v : State, (∀ c ∈ v.ctxs, v.clockRuns c = false) → v.stallTick = v))
     ∧ (∀ d dst, d < 10 → dst < 10 → d ≠ dst →
         joined d (nextDie d dst) = true ∧ (dieRoute d dst 6).getLast? = some dst
           ∧ (∀ k a b, (d :: dieRoute d dst 6)[k]? = some a → (d :: dieRoute d dst 6)[k + 1]? = some b → joined a b = true)))
  ∧ (∀ s : State, s.goesOn)

/-- Every command keeps the register bank, the general region and scratch in canonical form, and the part its units. -/
def Obligations.StepKeepsSound : Prop :=
  ∀ s t : State, s.Sound → step s = .next t → t.Sound

/-- The part right after reset is sound. -/
def Obligations.ResetIsSound : Prop := State.reset.Sound

/-- R10: bit by bit, a 32-bit write of half `hi` of a register sets its RW bits, clears an RW1C bit written as 1, and leaves every
other bit, and the other half, as they were.
R6, R7, R10: a 32-bit write of a stored register that has no effect but its own value sets the fields that its access codes let
it, brought to the limits of its table, and changes no other register; a 64-bit write acts word by word. -/
def Obligations.RegisterWrite : Prop :=
  (∀ (r : RegRow) (old v hi k : Nat), r.rw < 2 ^ 64 → r.w1c < 2 ^ 64 → old < 2 ^ 64 → v < 2 ^ 32 → hi ≤ 1 → k < 64 →
     (codedWrite r old v hi).testBit k =
       (if 32 * hi ≤ k ∧ k < 32 * hi + 32 then
         (if r.w1c.testBit k ∧ v.testBit (k - 32 * hi) then false
          else if r.rw.testBit k then v.testBit (k - 32 * hi) else old.testBit k)
       else old.testBit k))
  ∧ (∀ (s : State) (a : Access), s.barOpen = true → Access.aligned a = true → s.accessWrite a = none →
       let w := barAddr a.bar a.off
       (∀ (r : RegRow) (base : Nat), a.size = 4 → regAt w = some (r, base) → r.computed = false →
         s.ownWrite base (a.value.setWidth 32) = none → ¬(Reg.NP_ROCE_RKEY ≤ base ∧ base ≤ Reg.NP_ROCE_RIP_HI) →
         s.locked base = false → base ≠ Reg.CFE_CTL → vectorOf base = none → ¬(0x10090000 ≤ base ∧ base < 0x10090100) →
         exec (.registerWrite a) s
           = .next (s.setRegN base (clampReg base (codedWrite r (s.regN base) (a.value.setWidth 32).toNat ((w - base) / 4)))))
       ∧ (a.size = 8 → exec (.registerWrite a) s
           = .next ((s.writeWord w (a.value.setWidth 32)).writeWord (w + 4) ((a.value >>> 32).setWidth 32)))
       ∧ (a.size = 4 → regAt w = none → exec (.registerWrite a) s = .next s))

/-- R6, R8, R558: a refused access sets RAS_STATUS.BAD_ACCESS and is recorded in RAS_BAD_ACCESS while VALID is 0 there, not after; a refused
read answers zero, last of all; no other register changes but the pending interrupts, and nothing else of the part. -/
def Obligations.RefusedAccess : Prop :=
  ∀ (s : State) (write : Bool) (a : Access), s.Sound → s.barOpen = true → refused a = true →
    ∃ t, exec (.refusedAccess write a) s = .next t
      ∧ t = { s with regs := t.regs, out := t.out }
      ∧ s.regsBut t [Reg.RAS_STATUS, Reg.RAS_BAD_ACCESS, Reg.MSIX_PBA]
      ∧ t.reg Reg.RAS_STATUS = s.reg Reg.RAS_STATUS ||| 1
      ∧ (s.regB Reg.RAS_BAD_ACCESS 63 = true → t.reg Reg.RAS_BAD_ACCESS = s.reg Reg.RAS_BAD_ACCESS)
      ∧ (s.regB Reg.RAS_BAD_ACCESS 63 = false →
          t.regB Reg.RAS_BAD_ACCESS 63 = true ∧ t.regB Reg.RAS_BAD_ACCESS 62 = write ∧ t.regB Reg.RAS_BAD_ACCESS 61 = decide (a.bar ≠ 0)
          ∧ t.regF Reg.RAS_BAD_ACCESS 60 57 = a.size % 16 ∧ t.regF Reg.RAS_BAD_ACCESS 27 0 = a.off % 2 ^ 28)
      ∧ s.sent t (if write then [] else [.readData 0])

/-- R386, R533: an access at an offset of 0x10000 or more of a cluster's window is an access of its scratch: a write stores the bytes
there, a read of good words answers them.
R386: a write to the chorus window acts on the same offset of every cluster's window, a write to a group's window on those of its
mask; the words of GRP_MASK themselves take the write and forward nothing. -/
def Obligations.WindowAccess : Prop :=
  (∀ (s : State) (a : Access) (m off : Nat), s.barOpen = true → Access.aligned a = true → a.bar = 0 → m < 128 → 0x10000 ≤ off → off < 0x20000 →
     a.off = 0x1000000 + m * 0x20000 + off →
     let o := s.regN (Reg.CL_APBASE m) * 0x10000 + (off - 0x10000)
     (∀ ecc, exec (.scratchApertureAccess true a ecc) s = .next (s.scrWrite m o (natLE a.size a.value.toNat)))
     ∧ (s.rangeBad m o a.size = false →
         exec (.scratchApertureAccess false a .good) s = .next (s.emit (.readData (BitVec.ofNat 64 (leNat (s.scrRead m o a.size)))))))
  ∧ (∀ (s : State) (a : Access) (off : Nat), s.barOpen = true → Access.aligned a = true → a.bar = 0 → off < 0x20000 →
       (a.off = 0x2000000 + off → maskWord off = false →
         exec (.chorusWindowWrite a) s = .next ((List.range 128).foldl (fun s m => s.windowWrite m a off) s))
       ∧ (∀ g, g < 16 → a.off = 0x2100000 + g * 0x20000 + off → maskWord off = false →
         exec (.groupWindowWrite a) s = .next ((s.groupOf g).foldl (fun s m => s.windowWrite m a off) s))
       ∧ (∀ g, g < 16 → a.off = 0x2100000 + g * 0x20000 + off → maskWord off = true →
         exec (.groupWindowWrite a) s = .next (s.writeAccess a))
       ∧ (∀ m, 0x10000 ≤ off → s.windowWrite m a off = s.scrWrite m (s.regN (Reg.CL_APBASE m) * 0x10000 + (off - 0x10000)) (natLE a.size a.value.toNat))
       ∧ (∀ m, off < 0x10000 → s.windowWrite m a off = s.writeAccess { a with off := 0x1000000 + m * 0x20000 + off }))

/-- R18, R535: a failed package edge makes the part lost with reason 0x600 + edge; a parity failure is counted, and the fourth of one
packet makes the part lost. -/
def Obligations.PackageFailures : Prop :=
  ∀ (s : State) (edge packet : Nat),
    (s.up = true → edge < 14 → exec (.edgeFailed edge) s = .next (s.declareLost (0x600 + edge)))
    ∧ (s.serving = true → s.Sound → keyGet 0 s.link.parity packet < 3 →
        ∃ t, exec (.parityFailure packet) s = .next t ∧ keyGet 0 t.link.parity packet = keyGet 0 s.link.parity packet + 1
          ∧ t.reg Reg.RAS_PARITY = s.reg Reg.RAS_PARITY + 1 ∧ t.pwr = s.pwr
          ∧ t = { s with regs := t.regs, out := t.out, ras := t.ras, link := t.link })
    ∧ (s.serving = true → keyGet 0 s.link.parity packet = 3 → ∃ u : State, exec (.parityFailure packet) s = .next (u.declareLost 0x700)
          ∧ u = { s with regs := u.regs, out := u.out, ras := u.ras })

/-! ## Tables -/

/-- R39, R40: TBL_HEAP takes the written number of GiB a stack, at most 75, and is dropped with HEAP_ERR while a table exists or an HDM decoder is
committed.
R49, R50, R144: a TBL_CREATE makes the checks of R50 in their order and ends with the status of the first that fails, and no table is created; one that
passes them all, in a domain whose other live members can be reached, adds the table of its argument block, with no version, and clears MISMATCH of its slot. -/
def Obligations.CreateTable : Prop :=
  (∀ (s : State) (v : BitVec 32), s.barOpen = true →
     (s.tables = [] → s.host.ports.any (·.hdm.isSome) = false → exec (.tblHeapWrite v) s = .next (s.setRegN Reg.TBL_HEAP (min 75 (v.toNat % 128))))
     ∧ (s.tables ≠ [] ∨ s.host.ports.any (·.hdm.isSome) = true → exec (.tblHeapWrite v) s = .next (s.latch Reg.TBL_STATUS 0)))
  ∧ (∀ (s : State) (slot n : Nat) (e : Bytes) (q : QSlot) (rest : List (Nat × Bytes)) (answers : Answers),
       s.admits slot 0x10 n e q rest →
       let u := s.took slot n e rest
       let a := argsOf e
       let ends (st : Nat) : Prop := exec (.tblCreate slot answers) s = .next (u.endCmd slot n st 0)
       let zeros := hdrZero e = true ∧ allZero (slice a 20 20) = true ∧ rd a 8 8 < 2 ^ 41
       let shape := rd a 2 1 ≤ 3 ∧ rd a 3 1 ≤ 1 ∧ 8 ≤ rd a 4 2 ∧ rd a 4 2 ≤ 1024 ∧ rd a 4 2 % 8 = 0 ∧ 1 ≤ rd a 8 8 ∧ rd a 8 8 ≤ 2 ^ 40
       let hints := badHints (rd a 16 4) = false
       let fresh := s.handleBusy (rd a 0 2) (rd a 6 2) answers = false
       (¬zeros → ends ST_TBL_BAD_ARG)
       ∧ (zeros → ¬shape → ends ST_TBL_BAD_FORMAT)
       ∧ (zeros → shape → ¬hints → ends ST_PLC_BAD_HINT)
       ∧ (zeros → shape → hints → ¬fresh → ends ST_TBL_HANDLE_BUSY)
       ∧ (zeros → shape → hints → fresh → s.domOf (rd a 6 2) = none → ends ST_PLC_NO_DOMAIN)
       ∧ (∀ i d, zeros → shape → hints → fresh → s.domOf (rd a 6 2) = some (i, d) →
           (d.members.getLsbD s.member = false → ends ST_PLC_NO_DOMAIN)
           ∧ (d.members.getLsbD s.member = true →
             let others := d.live.filter (· != s.member)
             let own := Config.domainDigest d.number d.log2 d.members.toNat
             ((∃ m ∈ others, (answers.lookup m).getD none = none) → ends ST_LNK_TIMEOUT)
             ∧ ((∀ m ∈ others, ∃ x, answers.lookup m = some (some x)) → (∃ m ∈ others, ∃ x b, answers.lookup m = some (some (x, b)) ∧ x ≠ own) →
               ∃ v : State, exec (.tblCreate slot answers) s = .next (v.endCmd slot n ST_PLC_DOMAIN_MISMATCH 0) ∧ v.tables = s.tables
                 ∧ v.doms[i]? = some { d with mismatch := true })
             ∧ ((∀ m ∈ others, ∃ b, answers.lookup m = some (some (own, b))) →
               (rd a 3 1 = 0 → d.memberList.length < 2 → ∃ v : State, exec (.tblCreate slot answers) s = .next (v.endCmd slot n ST_TBL_DOMAIN_SMALL 0)
                 ∧ v = { u with doms := v.doms } ∧ v.doms[i]? = some { d with mismatch := false })
               ∧ ((rd a 3 1 = 0 → 2 ≤ d.memberList.length) → (∀ m ∈ s.others d, s.reaches m 0) →
                 ∃ t made, exec (.tblCreate slot answers) s = .next t
                   ∧ t.tables = s.tables ++ [{ handle := rd a 0 2, fmt := rd a 2 1, reloadable := rd a 3 1 == 1, rowlen := rd a 4 2, domain := rd a 6 2,
                                               rows := rd a 8 8 % 2 ^ 41, hints := rd a 16 4, draining := false, made := made, versions := [] }]
                   ∧ t.doms[i]? = some { d with mismatch := false } ∧ (∀ j, j ≠ i → t.doms[j]? = s.doms[j]?)
                   ∧ t = { s with tables := t.tables, doms := t.doms, slots := t.slots, nextCid := s.nextCid + 1, link := t.link, regs := t.regs, out := t.out }
                   ∧ s.regsBut t [Reg.LNK_STATUS, Reg.MSIX_PBA])))))

/-- R54 to R57, R61: a TBL_LOAD that fails a check ends its command with that status and changes no table; one that passes them begins its load at row 0 of its count; a
version that does not exist yet is created in BUILDING, with nothing written and the fallback row of the LIVE version, when the other live members can be reached. -/
def Obligations.LoadBegins : Prop :=
  ∀ (s : State) (slot n : Nat) (e : Bytes) (q : QSlot) (rest : List (Nat × Bytes)) (allow : Bool), s.admits slot 0x11 n e q rest →
    let u := s.took slot n e rest
    let l := loadOf slot n (argsOf e)
    (u.loadStatus e l allow ≠ ST_OK → exec (.tblLoad slot allow) s = .next (u.endCmd slot n (u.loadStatus e l allow) 0))
    ∧ (∀ t0, u.loadStatus e l allow = ST_OK → s.openTable l.handle = some t0 →
      (t0.ver? l.ver ≠ none → ∃ t, exec (.tblLoad slot allow) s = .next t ∧ t.loads = s.loads ++ [l] ∧ l.next = 0
          ∧ t = { u with loads := t.loads, net := t.net, out := t.out } ∧ (l.source ≠ 2 → t.net = s.net ∧ t.out = s.out))
      ∧ (t0.ver? l.ver = none → (∀ i d, s.tableDom t0 = some (i, d) → ∀ m ∈ s.others d, s.reaches m 0) →
        ∃ t w, exec (.tblLoad slot allow) s = .next t ∧ t.loads = s.loads ++ [l] ∧ l.next = 0
          ∧ (t.table? l.handle).bind (·.ver? l.ver) = some w ∧ w.st = .building ∧ w.written = [] ∧ w.refs = 0 ∧ w.dropped = false
          ∧ w.fallback = ((t0.live).map (·.fallback)).getD (List.replicate t0.imageBytes 0)
          ∧ (∀ h, h ≠ l.handle → t.table? h = s.table? h)
          ∧ t = { s with loads := t.loads, tables := t.tables, dirs := t.dirs, reps := t.reps, slots := t.slots, link := t.link, regs := t.regs,
                         out := t.out, net := t.net }))

/-- R62 to R66: a TBL_COMMIT that fails a check ends its command with that status; one that passes them all, in a domain whose other live members can be reached, puts its
versions in COMMITTING with its instant. At the instant the versions become LIVE on a part that may switch, one that is late sets its error bit, and a part that did not
issue the commit reports to the one that did; a version that is being dropped does not switch (log entry 95); before the instant, or before the part may switch, nothing happens. Once every live member has
switched the command ends, with the latest switch as its finish; the twin is told when the commit used a ticket.
R54: a switch makes the committed version LIVE and the former LIVE version RETIRING, and touches no other version and no other table. -/
def Obligations.CommitGoes : Prop :=
  ((∀ (s : State) (slot n : Nat) (e : Bytes) (q : QSlot) (rest : List (Nat × Bytes)), s.admits slot 0x12 n e q rest →
     let u := s.took slot n e rest
     let l := commitTables (argsOf e)
     (u.commitStatus e ≠ ST_OK → exec (.tblCommit slot) s = .next (u.endCmd slot n (u.commitStatus e) 0))
     ∧ (u.commitStatus e = ST_OK → (∀ h v rest' t0 i d, l = (h, v) :: rest' → s.table? h = some t0 → s.tableDom t0 = some (i, d) → ∀ m ∈ s.others d, s.reaches m 0) →
       ∃ t, exec (.tblCommit slot) s = .next t ∧ t.nextCid = s.nextCid + 1
         ∧ (∃ c ∈ t.commits, c.tables = l ∧ c.waiting = l ∧ c.own = some (slot, n) ∧ c.here = none
             ∧ c.instant = (if rd (argsOf e) 0 8 = 0 then s.time.gtime + 400000 else BitVec.ofNat 64 (rd (argsOf e) 0 8)))
         ∧ (∀ x ∈ l, ∀ w, (t.table? x.1).bind (·.ver? x.2) = some w → w.st = .committing)
         ∧ t = { s with nextCid := t.nextCid, commits := t.commits, tables := t.tables, pair := t.pair, slots := t.slots, link := t.link,
                        regs := t.regs, out := t.out }))
   ∧ (∀ (s : State) (cid : Nat) (c : Commit), s.serving = true → s.commit? cid = some c →
       let now := c.waiting.filter (fun x => !((s.table? x.1).bind (·.ver? x.2)).any (·.dropped))
       let rest := c.waiting.filter (fun x => !now.contains x)
       (now ≠ [] → c.go = true → c.instant.toNat ≤ s.time.gtime.toNat →
         let u := now.foldl (fun s x => s.switch x.1 x.2) s
         let v := if c.late then u.latch Reg.TBL_STATUS 3 else u
         (c.own.isSome = true ∨ rest ≠ [] → exec (.commitInstantReached cid) s
           = .next (v.modCommit cid (fun c => { c with here := some ⟨s.node, s.time.gtime, c.late⟩, waiting := rest })))
         ∧ (c.own = none → rest = [] → exec (.commitInstantReached cid) s
           = .next (({ v with commits := v.commits.filter (fun x => !(x.cid == cid)) } : State).write 0 (commitNode cid)
               (.work (.switched cid s.node s.time.gtime c.late)))))
       ∧ (now = [] ∨ c.go = false ∨ s.time.gtime.toNat < c.instant.toNat → exec (.commitInstantReached cid) s = .next s)
       ∧ (c.waiting ≠ [] → exec (.commitComplete cid) s = .next s)
       ∧ (∀ k n sw, c.own = some (k, n) → c.here = some sw → c.waiting = [] → c.cancelled = false →
         (∀ d, s.commitDom c = some d → ∀ m ∈ s.others d, ∃ r ∈ c.reports, r.node = m) →
         ∃ fin, (∀ r ∈ sw :: c.reports, r.instant.toNat ≤ fin.toNat) ∧ (fin = 0 ∨ ∃ r ∈ sw :: c.reports, fin = r.instant)
           ∧ (let st := if sw.late = true ∨ c.reports.any (·.late) = true then ST_TBL_COMMIT_LATE else ST_OK
             let w := (({ s with commits := s.commits.filter (fun x => !(x.cid == cid)) } : State).endCmd k n st 0).modCmd k n (fun x => { x with finish := fin })
             exec (.commitComplete cid) s = .next (if c.usedTicket then
               (w.setPair { s.pair with own := some ⟨c.tables, st, fin⟩, ownAt := s.time.gtime }).write 0 s.twinNode (.report ⟨c.tables, st, fin⟩) else w)))))
  ∧ (∀ (s : State) (h v : Nat) (t0 : Table), s.table? h = some t0 →
       ∃ t1, (s.switch h v).table? h = some t1
         ∧ t1.versions.map (·.num) = t0.versions.map (·.num)
         ∧ t1.versions.map (·.st) = t0.versions.map (fun w => if w.num = v then .live else if w.st = .live then .retiring else w.st)
         ∧ (∀ h', h' ≠ h → (s.switch h v).table? h' = s.table? h'))

/-- R54, R70, R177, R595: TBL_DROP of a BUILDING or COMMITTING version drops it, and removes it at once when no other part is in the domain, no load or commit names it
and no row of it is in flight; TBL_DROP with version 0 leaves the table draining or gone; a drop that fails a check ends its command with that status. A RETIRING version
that no live member refers to is freed by the leader, and is then no version of its table. -/
def Obligations.VersionsGo : Prop :=
  (∀ (s : State) (slot n : Nat) (e : Bytes) (q : QSlot) (rest : List (Nat × Bytes)), s.admits slot 0x13 n e q rest →
    let u := s.took slot n e rest
    let h := rd (argsOf e) 0 2
    let v := rd (argsOf e) 2 2
    (u.dropStatus e ≠ ST_OK → exec (.tblDrop slot) s = .next (u.endCmd slot n (u.dropStatus e) 0))
    ∧ (∀ t0, u.dropStatus e = ST_OK → s.table? h = some t0 → (∀ i d, s.tableDom t0 = some (i, d) → ∀ m ∈ s.others d, s.reaches m 0) →
      ∃ t, exec (.tblDrop slot) s = .next t
        ∧ (v ≠ 0 → (t.table? h).all (fun x => x.versions.all (fun w => w.num != v || w.dropped)) = true)
        ∧ (v ≠ 0 → (∀ i d, s.tableDom t0 = some (i, d) → s.others d = []) → s.rowsOut h v = [] → s.cmdBusy slot n = false →
            s.loads.any (fun l => l.handle == h && l.ver == v) = false → s.commits.any (fun c => c.waiting.contains (h, v)) = false →
            (t.table? h).all (fun x => x.versions.all (fun w => w.num != v)) = true)
        ∧ (v = 0 → (t.table? h).all (·.draining) = true)
        ∧ (∀ h', h' ≠ h → t.table? h' = s.table? h')))
  ∧ (∀ (s : State) (h v i : Nat) (t0 : Table) (w : Version) (d : Dom), s.serving = true → s.table? h = some t0 → t0.ver? v = some w →
      s.tableDom t0 = some (i, d) → s.leads d = true → w.st = .retiring → w.refs = 0 → (s.others d).all (fun n => w.zero.contains n) = true →
      ∃ t, exec (.versionFreed h v) s = .next t
        ∧ (t.table? h).all (fun x => x.versions.all (fun w => w.num != v)) = true
        ∧ t.heap = s.heap.filter (fun r => !(r.handle == h && r.ver == v))
        ∧ (∀ h', h' ≠ h → t.table? h' = s.table? h'))

/-! ## Look-up -/

/-- R106, R104: the sums and the maxima of an owner over rows of a Q8, Q4 or F16 table are the same in whatever order the granules of the rows come.
R105, R106, R107: what an EPA holds is the exact sum of its terms in steps of 2^-50; only a final sum of 2^45 or more overflows, and
then gives the quiet NaN with OVF; any other is rounded once to the nearest FP32 number, ties to the even one, and is +0 or a normal number. -/
def Obligations.PoolingOrder : Prop :=
  (∀ (t : Table) (mode : Nat) (b : OwnBag) (m : List Term), t.fmt ≠ 3 → b.terms.Perm m →
     (∀ e, laneAfter t mode b.terms e = laneAfter t mode m e) ∧ b.lanes t mode = { b with terms := m }.lanes t mode)
  ∧ (∀ (t : Table) (mode : Nat) (x : Int) (terms : List (Bool × Val × Val)), mode ≠ 3 → t.fmt ≠ 3 →
       let total : Int := x + (terms.map (fun e => toEpa (if mode = 2 then e.2.1.mul e.2.2 else e.2.2))).sum
       terms.foldl (fun (a : Lane) e => a.add t mode e.1 e.2.1 e.2.2) (.epa x) = .epa total
         ∧ (2 ^ 95 ≤ total.natAbs → (Lane.epa total).value = (0x7FC00000, true))
         ∧ (total.natAbs < 2 ^ 95 → (Lane.epa total).value.2 = false)
         ∧ (total = 0 → (Lane.epa total).value = (0, false))
         ∧ (total ≠ 0 → total.natAbs < 2 ^ 95 →
           let v := (Lane.epa total).value.1.toNat
           let frac := v % 2 ^ 23
           let expo := v / 2 ^ 23 % 256
           let at_ := (2 ^ 23 + frac) * 2 ^ expo
           let exact := total.natAbs * 2 ^ 100
           1 ≤ expo ∧ expo ≤ 254 ∧ (v / 2 ^ 31 = if total < 0 then 1 else 0)
             ∧ 2 * (at_ - exact) ≤ 2 ^ expo ∧ 2 * (exact - at_) ≤ 2 ^ expo ∧ (2 * (at_ - exact) = 2 ^ expo ∨ 2 * (exact - at_) = 2 ^ expo → frac % 2 = 0)))

/-- R92, R94, R96: GATHER and POOL whose descriptor lies in the frame, with a place at the die's GPE, are queued as a look-up operation of it under the
least free number and the next generation; an operation that fails a check of R96 is there with that status and asks nobody. -/
def Obligations.LookupIssue : Prop :=
  ∀ (s : State) (cl : Nat) (i : BWord) (a : Site) (g : Gpe) (gather : Bool) (ecc : GranuleHealth), s.issues cl i [i.a] a → s.gpes[cl / 16]? = some g →
    let off := (a.k.s i.a + i.imm.signExtend 64).toNat
    (s.frameAt a.c a.k off 64).isSome = true → off % 64 = 0 → s.ctxBad a.c a.k off 64 = false →
    let d := s.ctxRead a.c a.k off 64
    let r := lookupRanges off d gather (frameBytes (s.image a.c))
    let o : EngOp := { a.op s .lk (if gather then .gather else .pool) i r.1 r.2 with desc := d, gpe := some g.freeNum }
    s.takes a o → s.gpeGrants g cl = true → s.lookupStatus a d gather ≠ ST_ISA_RANGE →
    let moved : ClCtx := { a.k with running := a.k.running ++ [o], usedGpe := true }
    ∃ t g', exec (if gather then .gather cl ⟨i, ecc⟩ else .pool cl ⟨i, ecc⟩) s = .next t
      ∧ t.gpes[cl / 16]? = some g' ∧ g'.ops.length = g.ops.length + 1 ∧ g'.gen = (g.gen + 1) % 256
      ∧ (g'.ops.getLast?).any (fun x => x.num == g.freeNum && x.ctx == a.c.id && x.cl == a.k.cl && x.gen == (g.gen + 1) % 256 && x.abandoned.isNone) = true
      ∧ t.onCl a.c.id a.k.cl = some (moved.past i)
      ∧ (∀ st, s.lookupCheck a d gather = .error st →
          (g'.ops.getLast?).any (fun x => x.fail == some st && x.bags.isEmpty) = true ∧ t.link = s.link)
      ∧ t = { s with ctxs := t.ctxs, nextOp := s.nextOp + 1, gpes := t.gpes, dirs := t.dirs, scr := t.scr, ras := t.ras, regs := t.regs, out := t.out,
                     link := t.link, freeCtr := t.freeCtr }

/-- R112, R120, R121: an owner that is asked for an index whose row is not lost and not in its Wings cache begins one read of the row,
with its granules in the order of R120; a granule that comes is added to the bag, but for CONCAT, and one that is not the last goes on to the next;
with the last the row counts, and the bag is sent when nothing of it is outstanding; a request of an older generation does nothing.
R114, R102, R119, R136: a partial for a bag that waits is combined into it, and completes it once every owner asked has answered; one that belongs to
no operation, generation or open bag changes no bag: it is late, and counted, where its operation number is held by a cancelled operation or by one of another
generation, and is dropped without being counted where the generation is that of the operation that ended last. -/
def Obligations.OwnerAndPartial : Prop :=
  (∀ (s : State) (die : Nat), s.serving = true →
     (∀ (p : PoolReqPkt) (ecc : List (Nat × GranuleHealth)) (t0 : Table) (w : Version) (g : Gpe) (bag : Nat) (last : Bool) (e : PieceIdx),
       s.table? p.handle = some t0 → t0.ver? p.ver = some w → s.req? die p.src p.ctx p.op = none → p.pieces = [⟨bag, last, [e]⟩] →
       e.subst = false → s.rowLost t0 w.num e.row = false → s.gpes[die]? = some g → g.wings.st ≠ .on →
       ∃ t, exec (.poolReq die ⟨p, ecc⟩) s = .next t
         ∧ t.reads = s.reads ++ [⟨s.nextRead, die, p.src, p.ctx, p.op, bag, ⟨e.row, false, e.weight, 65536 * p.pkt⟩, none, false, t0.granuleOrder⟩]
         ∧ t.nextRead = s.nextRead + 1
         ∧ t = { s with reads := t.reads, nextRead := t.nextRead, reqs := t.reqs, gpes := t.gpes, regs := t.regs, freeCtr := t.freeCtr })
     ∧ (∀ (p : PoolReqPkt) (ecc : List (Nat × GranuleHealth)) (q : OwnReq), s.req? die p.src p.ctx p.op = some q → q.gen ≠ p.gen → genNewer p.gen q.gen = false →
       exec (.poolReq die ⟨p, ecc⟩) s = .next s)
     ∧ (∀ (x : RowRead) (q : OwnReq) (t0 : Table) (w : Version) (g : Nat) (rest : List Nat),
       s.reads.find? (fun y => y.id == x.id && y.die == die) = some x → s.req? die x.src x.ctx x.op = some q → s.table? q.handle = some t0 →
       t0.ver? q.ver = some w → x.left = g :: rest →
       let img := x.image.getD (s.rowAt die t0.handle w.num x.entry.row)
       let u : State := if q.mode = 4 then s else s.addGranules die x.src x.ctx x.op x.bag ⟨some x.id, x.entry, img, [g]⟩
       let fin : State := { u with reads := s.reads.filter (fun y => !(y.id == x.id)) }
       let v : State := if q.mode = 4 then fin.addTerm die x.src x.ctx x.op x.bag x.entry img false else fin.rowDone die x.src x.ctx x.op x.bag x.entry false
       (rest ≠ [] → exec (.granuleIn die x.id g ⟨0, .good⟩) s
         = .next { u with reads := modFirst (·.id == x.id) (fun y => { y with left := y.left.drop 1, image := some img }) s.reads })
       ∧ (rest = [] → exec (.granuleIn die x.id g ⟨0, .good⟩) s
         = .next ((if x.stale then v else (v.sweepOn die).offer die t0 w x.entry.row).tryFinish die x.src x.ctx x.op x.bag))))
  ∧ (∀ (s : State) (die : Nat) (p : PartialPkt), s.serving = true →
       let num := p.op % 1024
       (s.gpeOp? die num = none → exec (.partialIn die p) s = .next (s.strayPartial die p))
       ∧ (∀ o b, s.gpeOp? die num = some o → o.bags.find? (·.num == p.bag) = some b → (o.ctx ≠ p.ctx ∨ o.gen ≠ p.gen ∨ b.done = true) →
           exec (.partialIn die p) s = .next (s.strayPartial die p))
       ∧ (∀ o b t, s.gpeOp? die num = some o → o.bags.find? (·.num == p.bag) = some b → s.table? o.handle = some t →
           o.ctx = p.ctx → o.gen = p.gen → b.done = false →
           let u := s.modGpeOp die num (fun o => { o.modBag p.bag (fun _ => b.take t o.raw p) with timer := s.time.gtime })
           exec (.partialIn die p) s = .next (if b.owners ≤ (b.take t o.raw p).got then u.bagDone die num p.bag false else u))
       ∧ (∀ g o, s.gpes[die]? = some g → g.ops.find? (·.num == num) = some o → (o.abandoned.isSome = true ∨ o.ctx ≠ p.ctx ∨ o.gen ≠ p.gen) →
           s.strayPartial die p = s.latePartial)
       ∧ (∀ g, s.gpes[die]? = some g → g.ops.find? (·.num == num) = none → g.ended.lookup num = some (p.gen, false) → s.strayPartial die p = s)
       ∧ (s.Sound → ∃ t, t = s.latePartial ∧ t = { s with regs := t.regs, out := t.out } ∧ t.reg Reg.LKP_LATE = s.reg Reg.LKP_LATE + 1
           ∧ s.regsBut t [Reg.LKP_LATE, Reg.LKP_STATUS, Reg.MSIX_PBA]))

/-- R115, R116, R505: with combining on, a partial for another node that has a fellow in the buffer of the I/O die it leaves by is added to it and counted, one that has
none is held for the window while the buffer has room, and passes on when it is full; with combining off it passes on; a window that expires sends its entry on. -/
def Obligations.CombineBuffer : Prop :=
  ∀ (s : State) (inPort dl port dl' : Nat) (p : PartialPkt), s.serving = true → locNode p.dst ≠ s.node → s.portUp inPort = true →
    s.route (some (dirOf s.map inPort)) dl p.dst 2 = some (port, dl') →
    let iod := iodOf port
    let window := s.regF Reg.LKP_COMBINE 9 0
    let on := s.regB Reg.LKP_COMBINE 31 = true ∧ window ≠ 0 ∧ p.mode ≠ 4
    (¬on → exec (.combinePartial inPort dl p) s = .next (s.forwardPartial p port dl'))
    ∧ (on → (s.heldAt iod).any (fun h => samePartial h.p p) = true → exec (.combinePartial inPort dl p) s
        = .next (({ s with combine := modFirst (fun h => h.iod == iod && samePartial h.p p) (fun h => { h with p := s.combinePkt h.p p }) s.combine } : State).count
            Reg.LKP_COMBINED 1))
    ∧ (on → (s.heldAt iod).any (fun h => samePartial h.p p) = false → 512 ≤ (s.heldAt iod).length →
        exec (.combinePartial inPort dl p) s = .next ((s.forwardPartial p port dl').count Reg.LKP_PASSED 1))
    ∧ (on → (s.heldAt iod).any (fun h => samePartial h.p p) = false → (s.heldAt iod).length < 512 → exec (.combinePartial inPort dl p) s
        = .next { s with combine := s.combine ++ [⟨iod, p, port, s.time.gtime + BitVec.ofNat 64 (4 * window), inPort, dl⟩] })
    ∧ (∀ io idx h port2 dl2, (s.heldAt io)[idx]? = some h → h.until_.toNat ≤ s.time.gtime.toNat → s.route (some (dirOf s.map h.inPort)) h.dl h.p.dst 2 = some (port2, dl2) →
        exec (.combineWindowExpires io idx) s
          = .next (({ s with combine := s.combine.erase h } : State).forwardPartial h.p (if s.portUp h.outPort then h.outPort else port2) dl2))
    ∧ (∀ io idx h, (s.heldAt io)[idx]? = some h → s.time.gtime.toNat < h.until_.toNat → exec (.combineWindowExpires io idx) s = .next s)

/-- R119, R102: a look-up with a bag that is not complete and that has waited for the end-to-end timeout is asked a second time under a new generation, and at the second
timeout fails with ST_LK_TIMEOUT in every such bag; before its timeout nothing happens. A cancelled launch's look-up operations leave its clusters when the GPE
acknowledges, and an abandoned operation's number is free once the timeout has passed. -/
def Obligations.LookupEndsBadly : Prop :=
  ∀ (s : State) (die op : Nat) (ecc : GranuleHealth), s.serving = true →
    (∀ o, s.gpeOp? die op = some o → o.bags.any (!·.done) = true → o.timer.toNat + s.e2e ≤ s.time.gtime.toNat → o.attempt ≠ 1 →
      exec (.poolTimeout die ⟨op, ecc⟩) s
        = .next ((o.bags.filter (!·.done)).foldl (fun s b => s.bagDone die op b.num true) (s.opFail die op ST_LK_TIMEOUT)))
    ∧ (∀ o, s.gpeOp? die op = some o → o.bags.any (!·.done) = true → o.timer.toNat + s.e2e ≤ s.time.gtime.toNat → o.attempt = 1 →
      ∃ u : State, exec (.poolTimeout die ⟨op, ecc⟩) s = .next (u.dispatch die op)
        ∧ u = { s with gpes := u.gpes, dirs := u.dirs, regs := u.regs, ras := u.ras, out := u.out }
        ∧ (u.gpeOp? die op).any (fun x => x.attempt == 2 && x.gen == (o.gen + 1) % 256 && x.bags.all (fun b => b.done || b.got == 0)) = true)
    ∧ (∀ o, s.gpeOp? die op = some o → s.time.gtime.toNat < o.timer.toNat + s.e2e → exec (.poolTimeout die ⟨op, ecc⟩) s = .next s)
    ∧ (∀ g, s.gpes[die]? = some g → ∃ t g', exec (.abandonedOpNumberFreed die op) s = .next t ∧ t = { s with gpes := t.gpes } ∧ t.gpes[die]? = some g'
        ∧ g'.ops = g.ops.filter (fun o => !(o.num == op && o.abandoned.any (fun x => decide (x.toNat + s.e2e ≤ s.time.gtime.toNat))))
        ∧ { g' with ops := g.ops, ended := g.ended } = g ∧ (∀ d, d ≠ die → t.gpes[d]? = s.gpes[d]?))
    ∧ (∀ ctx c g, s.ctx? ctx = some c → s.gpes[die]? = some g → c.st = .cancelling → c.die = die →
      ∃ (u : State) (c' : Ctx), exec (.cancelAtGpe die ctx) s = .next (u.settleCtx ctx) ∧ u.ctx? ctx = some c' ∧ c'.gpeAck = true
        ∧ (∀ k ∈ c'.cls, ∀ o ∈ k.running, o.cls ≠ .lk) ∧ { c' with gpeAck := c.gpeAck, cls := c.cls } = c)

/-- R122 to R124, R128, R129: ENABLE starts and stops a Wings cache by the states of R128, and one that comes meanwhile waits; INVALIDATE_ALL starts a sweep, from its
first set; when it ends, of the rows in the sets it had yet to pass none is left; the sketch halves its counters when its decay comes. -/
def Obligations.WingsStates : Prop :=
  ∀ (s : State) (die : Nat) (g : Gpe), s.serving = true → die < 8 → s.gpes[die]? = some g →
    (∀ v : BitVec 32, ∃ t g', exec (.wingsEnable die v) s = .next t ∧ t = { s with gpes := t.gpes, regs := t.regs } ∧ t.gpes[die]? = some g'
        ∧ { g' with wings := g.wings } = g ∧ g'.wings.rows = g.wings.rows ∧ g'.wings.sketch = g.wings.sketch
        ∧ g'.wings.invBusy = (g.wings.invBusy || v.getLsbD 30)
        ∧ g'.wings.swept = (if v.getLsbD 30 then 0 else g.wings.swept)
        ∧ g'.wings.st = (match g.wings.st, v.getLsbD 31 with
            | .on, false => .stopping
            | .off, true => .starting
            | x, _ => x)
        ∧ g'.wings.pendEnable = (if g.wings.st = .stopping then v.getLsbD 31 else g.wings.pendEnable)
        ∧ g'.wings.pendDisable = (if g.wings.st = .starting then !v.getLsbD 31 else g.wings.pendDisable)
        ∧ s.regsBut t [Reg.LKP_WINGS_CTL die]
        ∧ (∀ d, d ≠ die → t.gpes[d]? = s.gpes[d]?))
    ∧ (∀ v : BitVec 32, exec (.invalidateAll die v) s = exec (.wingsEnable die (v ||| 0x40000000)) s)
    ∧ (g.wings.st = .stopping → ∃ t, exec (.wingsStopped die) s = .next t ∧ t = { s with gpes := t.gpes } ∧ (∀ d, d ≠ die → t.gpes[d]? = s.gpes[d]?)
        ∧ t.gpes[die]? = some { g with wings := { g.wings with st := if g.wings.pendEnable then .starting else .off, pendEnable := false } })
    ∧ (g.wings.st = .starting → g.wings.invBusy = false → ∃ t, exec (.wingsStarted die) s = .next t ∧ t = { s with gpes := t.gpes }
        ∧ (∀ d, d ≠ die → t.gpes[d]? = s.gpes[d]?)
        ∧ t.gpes[die]? = some { g with wings := { g.wings with st := if g.wings.pendDisable then .stopping else .on, pendDisable := false } })
    ∧ (g.wings.invBusy = true → ∃ t, exec (.invalidateSweepEnds die) s = .next t ∧ t = { s with gpes := t.gpes } ∧ (∀ d, d ≠ die → t.gpes[d]? = s.gpes[d]?)
        ∧ t.gpes[die]? = some { g with wings := { g.wings with
            invBusy := false, swept := 0, rows := g.wings.rows.filter (fun r => decide (r.set < g.wings.swept) || decide (max g.wings.swept 49152 ≤ r.set)) } })
    ∧ (let n := 2 ^ s.regF (Reg.LKP_WINGS_CTL die) 29 24
      n ≤ g.wings.reads → ∃ t, exec (.sketchDecay die) s = .next t ∧ t = { s with gpes := t.gpes } ∧ (∀ d, d ≠ die → t.gpes[d]? = s.gpes[d]?)
        ∧ t.gpes[die]? = some { g with wings := { g.wings with
            reads := g.wings.reads - n, sketch := (g.wings.sketch.map (fun e => (e.1, e.2 / 2))).filter (fun e => e.2 != 0) } })

/-! ## Placement -/

/-- R144, R145, R189 to R191: a write of a domain register is dropped with an error while the slot's domain has a table here, and an impossible
size is refused; else the slot takes it, with a bucket map that starts afresh and MISMATCH clear. A 32-bit write of PLC_DOM_MEMBERS sets its half, and a
64-bit one acts on its two halves, the low one first (log entry 70). -/
def Obligations.DomainRegisters : Prop :=
  ∀ (s : State) (a : Access), s.barOpen = true →
    let k := s.domSel
    let d := (s.doms[k]?).getD .init
    (onReg a Reg.PLC_DOM_CFG = true →
      let v := intoReg a Reg.PLC_DOM_CFG s.plcDomCfg
      let new : Dom := { d with number := fld v 63 48, log2 := fld v 36 32, valid := v.testBit 31 }
      (s.domHeld d = true ∨ (new.valid = true ∧ ¬(14 ≤ new.log2 ∧ new.log2 ≤ 18 ∧ s.bucketsUsed k + 2 ^ new.log2 ≤ 2 ^ 18)) →
        exec (.plcDomCfgWrite a) s = .next (s.latch Reg.PLC_STATUS 4))
      ∧ (s.domHeld d = false → (new.valid = true → 14 ≤ new.log2 ∧ new.log2 ≤ 18 ∧ s.bucketsUsed k + 2 ^ new.log2 ≤ 2 ^ 18) →
        exec (.plcDomCfgWrite a) s = .next (s.setDomain k new)))
    ∧ (∀ j, j < 4 → onReg a (Reg.PLC_DOM_MEMBERS j) = true → a.size = 4 →
      (s.domHeld d = true → exec (.plcDomMembersWrite a) s = .next (s.latch Reg.PLC_STATUS 4))
      ∧ (s.domHeld d = false → ∃ m : BitVec 256, exec (.plcDomMembersWrite a) s = .next (s.setDomain k { d with members := m })
          ∧ (let lo := 8 * (a.off - Reg.PLC_DOM_MEMBERS 0)
            ∀ n, n < 256 → m.getLsbD n = if lo ≤ n ∧ n < lo + 32 then a.value.getLsbD (n - lo) else d.members.getLsbD n)))
    ∧ (∀ j, j < 4 → onReg a (Reg.PLC_DOM_MEMBERS j) = true → a.size = 8 →
        ∃ t, exec (.plcDomMembersWrite ⟨a.bar, a.off, 4, a.value⟩) s = .next t
          ∧ exec (.plcDomMembersWrite a) s = exec (.plcDomMembersWrite ⟨a.bar, a.off + 4, 4, a.value >>> 32⟩) t)
    ∧ (∀ new : Dom, ∃ t, t = s.setDomain k new ∧ t = { s with doms := t.doms, dirs := t.dirs }
        ∧ (∀ n, n ≠ k → t.doms[n]? = s.doms[n]?)
        ∧ (k < s.doms.length → (t.doms[k]?).any (fun x => x.number == new.number && x.log2 == new.log2 && x.valid == new.valid && x.members == new.members
            && x.mismatch == false) = true)
        ∧ (∀ x ∈ t.dirs, ∀ b, x.buckets.lookup (k, b) = none))

/-- R152, R166 to R169: a copied unit enters IN_TRANSIT with a hold of 5 µs; a hold that expires sends it back to COPYING; the flip begins its drain, when N has
confirmed every forwarded write and the drain table has room; once every copy has acknowledged the flip the leader gives it the next epoch; the leader announces epochs;
the low water of a GPE is noted and told to the other members. -/
def Obligations.MigrationSteps : Prop :=
  ∀ (s : State) (u : MigUnit) (m : Mig), s.serving = true →
    (s.ownMig u .copying = some m → s.unackedTo u m.to_ true = [] → exec (.copyConfirmed u) s
        = .next ((s.unitState m .inTransit).modMig (· == m) (fun m => { m with
            st := .inTransit, holdUntil := some (s.time.gtime + 20000), fwd := s.unackedTo u m.to_ false })))
    ∧ (s.ownMig u .copying = some m → s.unackedTo u m.to_ true ≠ [] → exec (.copyConfirmed u) s = .next s)
    ∧ (∀ x, s.ownMig u .inTransit = some m → m.holdUntil = some x → x.toNat ≤ s.time.gtime.toNat →
        exec (.holdTimerExpires u) s = .next (s.backToCopying m))
    ∧ (∀ x, s.ownMig u .inTransit = some m → m.holdUntil = some x → s.time.gtime.toNat < x.toNat → exec (.holdTimerExpires u) s = .next s)
    ∧ (s.ownMig u .inTransit = some m → s.unackedTo u m.to_ false = [] → m.st = .inTransit → s.drainFull m.from_ = false →
        ∃ t, exec (.flip u) s = .next t ∧ m ∉ t.migs
          ∧ { m with st := .draining, holdUntil := none, held := [], fwd := [], change := some (s.flipChange m) } ∈ t.migs
          ∧ t.hbm = s.hbm ∧ (m.remirror = false ∨ m.held = [] → t.heap = s.heap) ∧ t.ctxs = s.ctxs)
    ∧ (s.ownMig u .inTransit = some m → (s.unackedTo u m.to_ false ≠ [] ∨ s.drainFull m.from_ = true) → exec (.flip u) s = .next s)
    ∧ (∀ slot d, s.domOf (s.unitDom u) = some (slot, d) →
        let waits (m : Mig) : Bool := m.unit == u && m.st == .draining && m.flipEpoch.isNone
        (s.leads d = true → s.migs.any waits = true → s.changePending (fun _ => true) = false →
          exec (.flipAcknowledged u) s = .next (s.chorusAll d (.flipEpoch u ((d.epoch + 1) % 2 ^ 32))))
        ∧ (s.leads d = false ∨ s.migs.any waits = false → exec (.flipAcknowledged u) s = .next s)
        ∧ (∀ x c, x ∈ s.migs → waits x = true → x.change = some c → s.changePending (· == c) = true → exec (.flipAcknowledged u) s = .next s))
    ∧ (∀ slot d, s.doms[slot]? = some d → d.valid = true → s.leads d = true → s.elapsed d.epochAt (us 10) = true → exec (.epochAdvance slot) s
        = .next ((s.modDom slot (fun x => { x with epoch := (d.epoch + 1) % 2 ^ 32, epochAt := some s.time.gtime })).chorusAll d (.epoch d.number ((d.epoch + 1) % 2 ^ 32))))
    ∧ (∀ slot d loc epoch, s.doms[slot]? = some d → d.valid = true → (s.domDies d).contains loc = true → locNode loc ≠ s.node →
        exec (.lowWaterReport slot loc epoch) s = .next ((s.modDom slot (fun d => { d with low := keyPut d.low loc epoch })).endDrains slot))
    ∧ (∀ slot d loc epoch g, s.doms[slot]? = some d → d.valid = true → (s.domDies d).contains loc = true → locNode loc = s.node → s.gpes[locDie loc]? = some g →
        s.elapsed ((g.lowAt.find? (·.1 == slot)).map (·.2)) (us 10) = true →
        let e := s.lowWater slot (locDie loc)
        let v : State := { s with gpes := listMod s.gpes (locDie loc) (fun g => { g with lowAt := keyPut g.lowAt slot s.time.gtime }) }
        exec (.lowWaterReport slot loc epoch) s = .next (((v.workAll d (.lowWater d.number loc e) none).2).noteLow slot loc e))

/-- R144, R160, R162, R163, R172, R174, R176: at a hot period the load counters are published and start again; replicas that every target holds get their entry, by the
leader, or the leader is told; PLC_CTL takes its value; the leader's balance check notes the loads and orders moves; its re-mirror check goes through the buckets
with one home; it admits a part that rejoins with its digest and no other; a part that does not lead does none of this.
R184, R185, R192: a pin command is dropped while one is busy, or when its OP is another's; one for a row of no table here ends with ST_PLC_PIN_ARG; the leader
carries a pin out itself, another part sends it to the leader; a pin that has failed, or whose entry has flipped in every copy, writes its status and is busy no longer. -/
def Obligations.LeaderDuties : Prop :=
  (∀ s : State, s.serving = true →
     (s.Sound → (s.gpes.head?).all (fun g => s.elapsed g.hotAt (us (s.regF Reg.PLC_HOT 63 48))) = true → ∃ t, exec (.hotPeriod []) s = .next t ∧ t = { s with regs := t.regs, gpes := t.gpes }
         ∧ (∀ c g, c < 8 → s.gpes[c]? = some g → t.regN (Reg.PLC_DIE_LOAD c) = g.load % 2 ^ 64 ∧ t.gpes[c]? = some { g with load := 0, heat := [], hotAt := some s.time.gtime }))
     ∧ (∀ h row r t0 i d, s.reps.find? (fun r => r.handle == h && r.row == row && !r.told) = some r → locNode r.home = s.node → s.table? h = some t0 →
         s.tableDom t0 = some (i, d) → s.link.pend = [] →
         let u : State := { s with reps := s.reps.map (fun x => if x.handle = h ∧ x.row = row then { x with told := true } else x) }
         let isHeld := ((s.dir 0).place h row).any (·.kind == .held)
         (s.leads d = true → r.full = false → r.targets ≠ [] → (isHeld = false ∨ r.pin = true) →
           exec (.replicaCopyConfirmed h row) s = .next (u.chorusAll d (.replica h row r.vmask r.targets r.pin)))
         ∧ (s.leads d = true → r.full = false → isHeld = true → r.pin = false →
           exec (.replicaCopyConfirmed h row) s = .next (s.giveUpCopy h row r.targets none))
         ∧ (s.leads d = true → r.full = true → r.pin = true →
           exec (.replicaCopyConfirmed h row) s = .next (((s.latch Reg.PLC_STATUS 2).giveUpCopy h row r.targets none).pinFails h row ST_PLC_REPLICA_FULL))
         ∧ (∀ l, s.leads d = false → d.leader = some l → r.full = false → r.targets ≠ [] →
             exec (.replicaCopyConfirmed h row) s = .next (u.write 0 (s.memberNode l) (.work (.copied h row r.vmask r.targets r.pin r.full)))))
     ∧ (∀ v : BitVec 32, s.reserveUse s.node ≤ v.toNat % 256 * 2 ^ 30 → exec (.replicaReserveLowered v) s
           = .next (s.setRegN Reg.PLC_CTL (v.toNat % 256 + v.toNat / 2 ^ 29 * 2 ^ 29)))
     ∧ (∀ slot d loads buckets, s.doms[slot]? = some d → d.valid = true → s.leads d = true →
         let heard : Dom := { d with loads := s.ownLoads.map (fun l => { l with load := s.dieLoad d l.loc }) ++ loads.filter (fun l => locNode l.loc != s.node) }
         (s.elapsed d.balAt s.balTicks = true →
           exec (.balanceCheck slot loads []) s
               = .next (s.modDom slot (fun _ => { heard with balAt := some s.time.gtime, rejoined := d.rejoined.filter (s.filling slot d) }))
           ∧ ∃ t, exec (.balanceCheck slot loads buckets) s = .next t
               ∧ t = { s with doms := t.doms, dirs := t.dirs, migs := t.migs, link := t.link, regs := t.regs, out := t.out })
         ∧ (s.elapsed d.mirrorAt s.balTicks = true →
           exec (.remirrorRetry slot loads) s = .next ((s.modDom slot (fun _ => { heard with mirrorAt := some s.time.gtime })).remirror slot)))
     ∧ (∀ slot d loads buckets member digest, s.doms[slot]? = some d → s.leads d = false →
         exec (.balanceCheck slot loads buckets) s = .next s ∧ exec (.remirrorRetry slot loads) s = .next s ∧ exec (.epochAdvance slot) s = .next s
           ∧ exec (.rejoin slot ⟨member, digest⟩) s = .next s)
     ∧ (∀ slot d member digest, s.doms[slot]? = some d → d.valid = true → s.leads d = true → d.excluded.contains member = true → s.domOf d.number = some (slot, d) →
         (digest = Config.domainDigest d.number d.log2 d.members.toNat →
           ∃ t d', exec (.rejoin slot ⟨member, digest⟩) s = .next t ∧ t.doms[slot]? = some d' ∧ d'.excluded = d.excluded.filter (· != member)
             ∧ d'.rejoined.contains member = true ∧ t.ras.lostNodes = s.ras.lostNodes.filter (· != s.memberNode member))
         ∧ (digest ≠ Config.domainDigest d.number d.log2 d.members.toNat → exec (.rejoin slot ⟨member, digest⟩) s = .next s)))
  ∧ (∀ (s : State) (v : BitVec 32), s.serving = true →
       let h := s.regF Reg.PLC_PIN_ROW 15 0
       let row := s.regF Reg.PLC_PIN_ROW 55 16
       let copies := if v.toNat / 256 % 64 = 0 then 64 else v.toNat / 256 % 64
       let cmd (op : Nat) : Instr := if op = 1 then .pinReplicate v else if op = 2 then .pinHold v else .unpin v
       (∀ op, 1 ≤ op → op ≤ 3 → (s.pin.busy = true ∨ v.toNat % 4 ≠ op) → exec (cmd op) s = .next s)
       ∧ (∀ op, 1 ≤ op → op ≤ 3 → s.pin.busy = false → v.toNat % 4 = op →
           let p : Pin := { s.pin with busy := true, op := op, handle := h, row := row, copies := copies, outcome := 0, remote := false }
           let u : State := { s with pin := p }
           ((s.table? h).bind s.tableDom = none → exec (cmd op) s = .next { s with pin := { p with outcome := ST_PLC_PIN_ARG } })
           ∧ (∀ i d, (s.table? h).bind s.tableDom = some (i, d) → s.leads d = true →
               exec (cmd op) s = .next { (u.leaderPin op h row copies).2 with pin := { p with outcome := (u.leaderPin op h row copies).1 } })
           ∧ (∀ i d l, (s.table? h).bind s.tableDom = some (i, d) → s.leads d = false → d.leader = some l → s.reaches (s.memberNode l) 0 →
               ∃ t, u.onlySends t ∧ exec (cmd op) s = .next { t with pin := { p with remote := true } }))
       ∧ (let u : State := { s with pinJobs := s.pinJobs.filter (fun j => s.pinWaits j.handle j.row) }
         let p := s.pin
         ∃ t, u.onlySends t ∧ exec .pinComplete s
           = .next (if p.busy = true ∧ (p.outcome ≠ 0 ∨ (p.remote = false ∧ s.pinWaits p.handle p.row = false))
               then { t with pin := { p with busy := false, remote := false, status := p.outcome } } else t)))

/-! ## Writes between parts, the update feed -/

/-- R541: the duplicate filter lets a numbered write through once: a number it has just accepted comes `again`, and the windows of other
nodes and dies stay as they were.
R541, R215, R216: a write that crosses a link is applied only when the filter lets it through; a duplicate is counted and answered as before, one too old
is counted and not answered. A write between dies of the part is applied and answered. Where an answer may have to wait, nothing goes out when it is owed, and a
duplicate of a write that is still owed, between dies too, is not applied again: the answer takes its generation. -/
def Obligations.ReceiveWrite : Prop :=
  (∀ (s : State) (die node n : Nat), 0 < n → n < 2 ^ 31 → s.verdict die node n = .apply →
     (∀ w ∈ s.link.windows, w.high < 2 ^ 32) →
     (s.accept die node n).verdict die node n = .again
       ∧ (∀ die' node' m, ¬(die' = die ∧ node' = node) → (s.accept die node n).verdict die' node' m = s.verdict die' node' m))
  ∧ (∀ (s : State) (h : WriteHdr) (f : State → Nat × State) (g : State → Option Nat × State),
       let node := locNode h.src
       let owed := s.link.owed.any (·.isFor h)
       (h.linked = false → s.recvWrite h f = (f s).2.sendAck h (f s).1)
       ∧ (h.linked = true → s.verdict h.die node h.tag = .old → s.recvWrite h f = s.count Reg.RAS_DUP_OLD 1 ∧ s.recvOwed h g = s.count Reg.RAS_DUP_OLD 1)
       ∧ (h.linked = true → s.verdict h.die node h.tag = .again → ∃ r, s.recvWrite h f = (s.count Reg.RAS_DUP 1).sendAck h r
           ∧ (∀ x, s.link.results.find? (fun e => e.1 == filterKey h && e.2.1 == h.tag) = some x → r = x.2.2)
           ∧ (owed = false → s.recvOwed h g = (s.count Reg.RAS_DUP 1).sendAck h r)
           ∧ (owed = true → s.recvOwed h g = (s.count Reg.RAS_DUP 1).renew h))
       ∧ (h.linked = true → s.verdict h.die node h.tag = .apply →
           let r := f (s.accept h.die node h.tag)
           s.recvWrite h f = (r.2.keepResult h r.1).sendAck h r.1)
       ∧ (h.linked = false → (owed = false → (g s).1 = none → s.recvOwed h g = (g s).2)
           ∧ (owed = false → ∀ r, (g s).1 = some r → s.recvOwed h g = (g s).2.sendAck h r)
           ∧ (owed = true → s.recvOwed h g = s.renew h))
       ∧ (h.linked = true → s.verdict h.die node h.tag = .apply →
           let r := g (s.accept h.die node h.tag)
           (r.1 = none → s.recvOwed h g = r.2) ∧ (∀ x, r.1 = some x → s.recvOwed h g = (r.2.keepResult h x).sendAck h x))
       ∧ (∀ r, ∃ l, s.keepResult h r = { s with link := { s.link with results := l } }
           ∧ l.find? (fun e => e.1 == filterKey h && e.2.1 == h.tag) = some (filterKey h, h.tag, r)
           ∧ (∀ e ∈ s.link.results, e.1 ≠ filterKey h → e ∈ l))
       ∧ (∃ l, s.renew h = { s with link := { s.link with owed := l } } ∧ l.length = s.link.owed.length ∧ (∀ o ∈ l, o.isFor h = true → o.h = h))
       ∧ (∀ r, s.onlySends (s.sendAck h r) ∧ (s.sendAck h r).link.seqs = s.link.seqs ∧ (s.sendAck h r).link.windows = s.link.windows))

/-- R47, R62, R143, R162, R228, R543: what a work packet, a chorus write, a ticket proposal, a report of the pair and the packets of the loss protocol do is done under the filter
of R541: a message is acted on, a directory change lands, and one that came from another part goes to each of the eight dies, and is owed till they answer; a row image is written, a suspicion starts a probe; a probe is answered or passed on, an answer ends the
probe at the leader, and a loss is taken as it is declared. -/
def Obligations.WritesApply : Prop :=
  ∀ (s : State) (h : WriteHdr), s.serving = true →
    (∀ m, exec (.work h m) s = .next (s.recvOwed h (fun s => s.doWork h m)))
    ∧ (∀ c, h.linked = false → exec (.chorusWrite h (.dir c)) s = .next (s.recvOwed h (fun s => (some ST_OK, s.applyDir h.die c))))
    ∧ (∀ c, h.linked = true → ∃ f, exec (.chorusWrite h (.dir c)) s = .next (s.recvOwed h f) ∧ (∀ u : State, u.node < 4096 →
        ∃ v names, u.onlySends v ∧ names.map (·.1) = (List.range 8).map u.loc ∧ f u = (none, v.owe ⟨h, ST_OK, names, none, []⟩)))
    ∧ (∀ f, exec (.chorusWrite h (.row f)) s = .next (s.recvOwed h (fun s => (some ST_OK, s.takeImage h.die f))))
    ∧ (∀ node failed, exec (.suspect h node failed) s = .next (s.recvWrite h (fun s => (ST_OK, s.startProbe node failed))))
    ∧ (∀ node, ∃ f, exec (.probe h node) s = .next (s.recvWrite h f) ∧ (∀ u : State, (f u).1 = ST_OK
        ∧ (let reply (alive : Bool) : State := if locNode h.src = u.node then u.probeSays u.node node alive else u.write 0 h.src (.probeAns node alive)
          (node = u.node → (f u).2 = reply true)
          ∧ (node ≠ u.node →
            let failed := (((List.range 6).filter (fun d => u.neighbour d == node)).flatMap (portsOf u.map)).all (fun n => (u.link.ports[n]?).any (·.st == 3))
            (f u).2 = if failed = true then reply false else u.write 0 node (.probe node)))))
    ∧ (∀ node alive, ∃ f, exec (.probeAnswer h node alive) s = .next (s.recvWrite h f) ∧ (∀ u : State, (f u).1 = ST_OK ∧ (f u).2 = u.probeSays (locNode h.src) node alive))
    ∧ (∀ (u : State) src node alive,
        (alive = true → u.ras.probes.any (·.node == node) = true → u.probeSays src node alive = { u with ras := { u.ras with probes := u.ras.probes.filter (fun p => !(p.node == node)) } })
        ∧ (u.ras.probes.any (·.node == node) = false → u.rasLeader ≠ u.member → u.probeSays src node alive = u.write 0 (u.memberNode u.rasLeader) (.probeAns node alive)))
    ∧ (∀ node, ∃ f, exec (.lost h node) s = .next (s.recvWrite h f) ∧ (∀ u : State, (f u).1 = ST_OK
        ∧ (node = u.node → (f u).2 = u.declareLost 0x800)
        ∧ (node ≠ u.node → locNode h.src ≠ node → (f u).2 = u.loseNode node)))
    ∧ (∀ number at_, ∃ f, exec (.ticketProposal h number at_) s = .next (s.recvWrite h f) ∧ (∀ u : State, (f u).1 = ST_OK
        ∧ (u.pair.proposal.isSome = true → u.side = 0 → (f u).2 = u)
        ∧ (u.pair.proposal = none → (f u).2.pair = { u.pair with ticket := .armed, fromTwin := true, number := number, at_ := at_, proposal := none, own := none,
                                                                 twin := none, result := 0, status := 0 })))
    ∧ (∀ tables status finish, ∃ f, exec (.pairReport h tables status finish) s = .next (s.recvWrite h f) ∧ (∀ u : State, (f u).1 = ST_OK
        ∧ (u.pair.ticket = .used → (f u).2.pair = ({ u.pair with twin := some ⟨tables, status, finish⟩ } : Pair).judge)))

/-- R14, R217, R509: an acknowledgement whose generation no unacknowledged write of its number and location has is counted and retires nothing; one with the present
generation retires its write, whose sender takes the result, and the writes that waited for its place go out; one that carries no status does nothing (log entry 81). A
write that has waited for the end-to-end timeout is sent once more, a work packet with the same TAG under a new generation, and is counted; at the second timeout it
fails; one that has not waited so long is left alone. -/
def Obligations.Acknowledgements : Prop :=
  ∀ (s : State) (dst tag gen result : Nat), s.serving = true →
    (ackResult result = false → exec (.ack dst tag gen result) s = .next s)
    ∧ (ackResult result = true → (∀ x ∈ s.link.pend, 0 < x.attempt → x.p.dst = dst → x.p.tag = tag → x.p.gen ≠ gen) →
        exec (.ack dst tag gen result) s = .next (s.count Reg.LNK_LATE 1))
    ∧ (∀ e, ackResult result = true → s.answers? dst tag gen = some e →
        let others : State := { s with link := { s.link with pend := s.link.pend.filter (· != e) } }
        let u := (others.answered e result).retireWrite e
        let none_ (v : State) : Prop := ∀ x ∈ v.link.pend, x.p.dst = dst → 0 < x.attempt
        e ∈ s.link.pend ∧ e.p.dst = dst ∧ e.p.tag = tag ∧ e.p.gen = gen
          ∧ exec (.ack dst tag gen result) s = .next ((u.drainAll dst u.link.pend.length).settleOwed)
          ∧ (none_ u ∨ locNode dst = u.node → ∃ t, u.onlySends t ∧ exec (.ack dst tag gen result) s = .next t)
          ∧ ((∃ b, e.p.body = .chorus b) → none_ s → ∃ t, s.onlySends t ∧ exec (.ack dst tag gen result) s = .next t))
    ∧ (∀ e, s.pend? dst tag = some e →
      (s.time.gtime.toNat < e.since.toNat + s.e2e → exec (.e2eTimeout dst tag) s = .next s)
      ∧ (e.since.toNat + s.e2e ≤ s.time.gtime.toNat → e.stuck = false →
          (e.attempt = 1 → exec (.e2eTimeout dst tag) s = .next (s.secondAttempt e)) ∧ (e.attempt ≠ 1 → exec (.e2eTimeout dst tag) s = .next (s.secondTimeout e)))
      ∧ (∀ m, e.p.body = .work m → (locNode dst = s.node ∨ s.reaches dst 0) → ∃ u : State, s.secondAttempt e = u.count Reg.LNK_E2E_RETRY 1 ∧ s.onlySends u
          ∧ u.link.pend = modFirst (· == e) (fun _ => { e with p := { e.p with gen := (e.p.gen + 1) % 256 }, attempt := 2, since := s.time.gtime, stuck := false }) s.link.pend))

/-- R198, R201, R204, R205, R207, R212, R513: a datagram reaches its port when the frame is whole, of at most 9,216 bytes with the port's tag, not a fragment, without options
and for the port's own address; any other is counted, as is one for another UDP port. A feed frame at a port that does not ingest, or of no stream, is counted unbound, one that would
overrun the skid is dropped and counted, a bad one is counted; the records of a DATA frame of an ACTIVE stream are taken in their order; a RESYNC makes its stream ACTIVE at its
number with nothing held.
R208: of an ACTIVE stream's records the one with the next number enters the ingest queue and moves the number on; an earlier one is a duplicate, and
counts as such and does nothing else; a later one is held, and opens a gap if none is open. -/
def Obligations.FeedFrames : Prop :=
  (∀ (s : State) (f : FeedFrame), s.serving = true → f.port < 2 → s.npOn f.port = true → f.ecc = .good →
     let p := f.port
     let u := s.rxFrame p
     let st := (s.fport p).st
     let tagged := (match f.eth.tag with
       | some vid => vid = s.regF (Reg.NP_CTL p) 11 0
       | none => s.regB (Reg.NP_CTL p) 29 = false)
     let taken := f.eth.len ≤ 9216 ∧ tagged ∧ f.eth.fragment = false ∧ f.eth.options = false ∧ f.eth.dstAddr = s.portAddr p f.v6
     let excess := 2 ^ 24 < u.holdSize p + (s.fport p).bytes + f.payload.length
     (f.eth.fcsOk = false → exec (.data f) s = .next (s.count (Reg.NP_FCS_ERR p) 1))
     ∧ (f.eth.fcsOk = true → ¬taken → exec (.data f) s = .next (u.count (Reg.NP_RX_DROP p) 1))
     ∧ (f.eth.fcsOk = true → taken → f.dstPort ≠ u.regF Reg.FEED_CTL 15 0 → exec (.data f) s = .next (u.count (Reg.NP_RX_DROP p) 1))
     ∧ (f.eth.fcsOk = true → taken → f.dstPort = u.regF Reg.FEED_CTL 15 0 →
       (st = .off ∨ st = .starting → exec (.data f) s = .next (u.count (Reg.FEED_PORT_UNBOUND p) 1))
       ∧ (st ≠ .off → st ≠ .starting → excess → exec (.data f) s = .next ((u.count (Reg.FEED_PORT_OVERRUN p) 1).latch Reg.FEED_STATUS 1))
       ∧ (st ≠ .off → st ≠ .starting → ¬excess → feedBad f = true → exec (.data f) s = .next (u.count (Reg.FEED_PORT_BAD p) 1))
       ∧ (st ≠ .off → st ≠ .starting → ¬excess → feedBad f = false → s.strmFor (rd f.payload 4 2) p = none →
           exec (.data f) s = .next (u.count (Reg.FEED_PORT_UNBOUND p) 1))
       ∧ (∀ i, st ≠ .off → st ≠ .starting → ¬excess → feedBad f = false → s.strmFor (rd f.payload 4 2) p = some i → rd f.payload 3 1 = 0 →
           (s.strm i).active = true →
           exec (.data f) s = .next (((u.noteSource i f).count (Reg.FEED_PORT_FRAMES p) 1).feedRecords p i (rd f.payload 4 2)
             (BitVec.ofNat 64 (rd f.payload 8 8)) (f.payload.drop 32) (rd f.payload 6 2)))
       ∧ (∀ i x, st ≠ .off → st ≠ .starting → ¬excess → feedBad f = false → s.strmFor (rd f.payload 4 2) p = some i → rd f.payload 3 1 = 1 → s.strms[i]? = some x →
           ∃ t y, exec (.resync f) s = .next t ∧ t.strms[i]? = some y ∧ y.next = BitVec.ofNat 64 (rd f.payload 8 8) ∧ y.active = true ∧ y.held = []
             ∧ y.gap = none ∧ y.flight = x.flight ∧ y.dup = x.dup ∧ (∀ j, j ≠ i → t.strms[j]? = s.strms[j]?)
             ∧ t = { s with strms := t.strms, regs := t.regs, out := t.out, link := t.link, net := t.net })))
  ∧ (∀ (s : State) (p i : Nat) (r : DeltaRec) (bytes : Nat) (x : Strm), s.strms[i]? = some x → p < s.fports.length →
       (r.seq.toNat < x.next.toNat → ∃ t, s.feedRecord p i r bytes = t ∧ t = { s with strms := t.strms } ∧ t.strms[i]? = some { x with dup := x.dup + 1 }
           ∧ (∀ j, j ≠ i → t.strms[j]? = s.strms[j]?))
       ∧ (r.seq = x.next → x.held = [] → ∃ t, s.feedRecord p i r bytes = t
           ∧ t.strms[i]? = some { x with next := x.next + 1, queued := x.queued + 1, gap := none } ∧ (∀ j, j ≠ i → t.strms[j]? = s.strms[j]?)
           ∧ (t.fport p).queue = (s.fport p).queue ++ [⟨i, x.queued, r, bytes, s.time.gtime⟩]
           ∧ t = { s with strms := t.strms, fports := t.fports, regs := t.regs, out := t.out })
       ∧ (x.next.toNat < r.seq.toNat → x.held = [] → s.holdBytes p + bytes ≤ s.holdSize p → ∃ t y, s.feedRecord p i r bytes = t ∧ t.strms[i]? = some y
           ∧ y.next = x.next ∧ y.held = [(p, r, bytes)] ∧ y.gap = (if x.gap.isSome then x.gap else some s.time.gtime)
           ∧ (∀ j, j ≠ i → t.strms[j]? = s.strms[j]?)
           ∧ t = { s with strms := t.strms, regs := t.regs, out := t.out, net := t.net }))

/-- R200, R210 to R212, R226: a record whose turn it is in its stream, and that may be ingested, leaves the queue of its port; a MARK joins the marks of its stream, and is complete once
nothing before it is undone; a record of no table is discarded and counted, one that has an apply point is in flight; XOFF is repeated every 20 µs while the port must stay paused.
R205, R206, R209, R513: a gap that has been open for GAP_US is declared lost, its numbers are counted and passed over; an ACK goes out when one of its fields has
changed and ACK_US has passed, of a stream with a producer, or waits while its priority is paused; a NACK every NACK_US while a gap is open. -/
def Obligations.FeedIngest : Prop :=
  (∀ (s : State) (port : Nat), s.serving = true →
     (∀ q rest, (s.fport port).queue = q :: rest → (s.outOfTurn q = true ∨ s.mayIngest q.idx q.r = false) → exec (.recordIngested port) s = .next s)
     ∧ (∀ q rest x, (s.fport port).queue = q :: rest → s.outOfTurn q = false → s.mayIngest q.idx q.r = true → s.strms[q.idx]? = some x → x.forwards = false →
         ∃ t y, exec (.recordIngested port) s = .next t ∧ (t.fport port).queue = rest ∧ t.strms[q.idx]? = some y ∧ (∀ j, j ≠ q.idx → t.strms[j]? = s.strms[j]?)
           ∧ (q.r.op = 6 → markOk q.r = true → y = { x with marks := x.marks ++ [q.r.seq] })
           ∧ (q.r.op ≠ 6 → s.table? q.r.handle = none → y = { x with discards := x.discards + 1, lastDisc := ST_FD_NO_TABLE, noTable := x.noTable + 1 })
           ∧ (∀ t0 l, q.r.op ≠ 6 → s.recordStatus q.r = (ST_OK, some t0) → s.applyPoint 0 t0 t0.vslot q.r.row = some l →
               ∃ f, y = { x with flight := x.flight ++ [f] } ∧ f.seq = q.r.seq ∧ f.handle = q.r.handle ∧ f.row = q.r.row)
           ∧ t = { s with strms := t.strms, fports := t.fports, link := t.link, regs := t.regs, out := t.out })
     ∧ ((s.fport port).queue = [] → exec (.recordIngested port) s = .next s)
     ∧ ((s.fport port).paused = true → (s.fport port).st = .stopping → s.elapsed (s.fport port).xoffAt (us 20) = true →
         exec (.xoffRepeat port) s = .next ((s.modFPort port (fun f => { f with xoffAt := some s.time.gtime })).sendFrame port (.pfc port s.feedPrio 0xFFFF)))
     ∧ ((s.fport port).paused = false → exec (.xoffRepeat port) s = .next s)
     ∧ (∀ i x m rest, s.strms[i]? = some x → x.marks = m :: rest → (s.undone i).any (fun q => decide (q.toNat < m.toNat)) = false →
         ∃ t y, exec (.markComplete i) s = .next t ∧ t.strms[i]? = some y ∧ y.marks = rest ∧ y.mark = m ∧ y.next = x.next
           ∧ (∀ j, j ≠ i → t.strms[j]? = s.strms[j]?)
           ∧ t = { s with strms := t.strms, regs := t.regs, out := t.out, link := t.link, net := t.net }))
  ∧ (∀ (s : State) (i : Nat), s.serving = true →
       (∀ g, (s.strm i).gap = some g → g.toNat + us (s.strm i).gapUs ≤ s.time.gtime.toNat → exec (.gapDeclaredLost i) s = .next (s.gapLost i))
       ∧ (∀ g, (s.strm i).gap = some g → s.time.gtime.toNat < g.toNat + us (s.strm i).gapUs → exec (.gapDeclaredLost i) s = .next s)
       ∧ ((s.strm i).valid = true → s.ackFields i ≠ (s.strm i).lastAck → s.elapsed (s.strm i).ackAt (us (s.strm i).ackUs) = true → ∃ t, exec (.sendAck i) s = .next t
           ∧ t = { s with strms := t.strms, regs := t.regs, out := t.out, net := t.net } ∧ (∀ j, j ≠ i → t.strms[j]? = s.strms[j]?)
           ∧ (let p := (s.strm i).lastPort
             (p < 2 → s.paused p s.feedPrio = false → s.net.held = [] → t.out.length = s.out.length + 1 ∧ t.net = s.net)
             ∧ (p < 2 → s.paused p s.feedPrio = true → t.out = s.out ∧ t.net.held.length = s.net.held.length + 1)
             ∧ (2 ≤ p → t.out = s.out ∧ t.net = s.net)))
       ∧ (s.ackFields i = (s.strm i).lastAck → exec (.sendAck i) s = .next s)
       ∧ ((s.strm i).gap.isSome = true → exec (.sendNack i) s
           = .next (if s.elapsed (s.strm i).nackAt (us (s.strm i).nackUs) = true then s.nackGap i else s))
       ∧ ((s.strm i).gap = none → exec (.sendNack i) s = .next s)
       ∧ (∀ x h rest, s.strms[i]? = some x → x.gap.isSome = true → x.held = h :: rest → ∃ y, (s.gapLost i).strms[i]? = some y
           ∧ y.gapLost = x.gapLost + (h.2.1.seq - x.next)))

/-- R215, R219, R221 to R225: a delta, a forward and a ROWS packet are taken by the die they reach, and answered then or when every copy has the row; a delta whose
updater fails a fourth time is not taken. With no migration a forward is written, and rows of a copy always are; a delta of the LIVE version changes its row, one for another
version is discarded. A record of the twin for no stream here, or for one that is IDLE, is counted unbound and answered; any other is taken in its stream's order, the first since
the sender's RESYNC as a RESYNC here, and is answered at once when it is done and is owed otherwise. -/
def Obligations.UpdatesArrive : Prop :=
  ∀ (s : State) (h : WriteHdr), s.serving = true →
    (∀ r fails no hash,
      let failed (s : State) : State :=
        s.updaterFails (((s.table? r.handle).map (fun t => s.rowStack h.die t r.row)).getD (2 * h.die)) ⟨fails, no, hash⟩
      (fails < 4 → exec (.deltaApply h r ⟨fails, no, hash⟩) s = .next (s.recvOwed h (fun s => ((failed s).spill h.die).takeDelta h r)))
      ∧ (4 ≤ fails → exec (.deltaApply h r ⟨fails, no, hash⟩) s = .next (s.recvOwed h (fun s => (none, failed s))))
      ∧ (fails = 0 → failed s = s))
    ∧ (∀ f, exec (.deltaForward h f) s = .next (s.recvOwed h (fun s => (s.spill h.die).takeForward h f)))
    ∧ (∀ kind hd v rows, exec (.rowsPacket h kind hd v rows) s = .next (s.recvOwed h (fun s => (s.spill h.die).takeRows h kind hd v rows)))
    ∧ (∀ f : RowForward, s.migs = [] → s.takeForward h f = (some ST_OK, s.takeImage h.die f))
    ∧ (∀ hd v rows, s.takeRows h .copy hd v rows = (some ST_OK, s.putRows .copy h.die hd v rows))
    ∧ (∀ r t0 v img sat, s.table? r.handle = some t0 → t0.live = some v → (r.target = 0 ∨ r.target = v.num) → s.rowLost t0 v.num r.row = false →
        t0.applyOp (s.rowAt h.die t0.handle v.num r.row) r = some (img, sat) →
        let u := (s.setImage h.die t0.handle v.num r.row img).noteHeat h.die t0.handle r.row 0 1
        u.forwardTo h.die t0 v.slot r.row = [] → s.applyDelta h r = (some (if sat then 65536 else 0), u))
    ∧ (∀ r : DeltaRec, s.strmFor r.stream 3 = none → h.linked = false → s.link.owed.any (·.isFor h) = false →
        exec (.twinRecord h false r) s = .next ((s.count (Reg.FEED_PORT_UNBOUND 0) 1).sendAck h ST_OK))
    ∧ (∀ (first : Bool) (r : DeltaRec), ∃ f, exec (.twinRecord h first r) s = .next (s.recvOwed h f) ∧ (∀ u : State,
        (u.strmFor r.stream 3 = none → f u = (some ST_OK, u.count (Reg.FEED_PORT_UNBOUND 0) 1))
        ∧ (∀ i, u.strmFor r.stream 3 = some i →
          let v := if first = true then u.resync i r.seq else u
          let w := (v.modStrm i (fun x => { x with lastPort := 3 })).feedRecord 0 i r (recBytes r.len)
          ((v.strm i).active = false → f u = (some ST_OK, v.count (Reg.FEED_PORT_UNBOUND 0) 1))
          ∧ ((v.strm i).active = true → w.recordDone i r.seq = true → f u = (some ST_OK, w))
          ∧ ((v.strm i).active = true → w.recordDone i r.seq = false → f u = (none, w.owe ⟨h, ST_OK, [], some (i, r.seq), []⟩))
          ∧ (first = true → u.strms[i]? ≠ none → (v.strm i).active = true ∧ (v.strm i).next = r.seq ∧ (v.strm i).held = []))))
    ∧ (∀ r t0 v, s.table? r.handle = some t0 → t0.live = some v → r.target ≠ 0 → r.target ≠ v.num → s.applyDelta h r = (some ST_FD_STALE_VERSION, s))

/-- R219, R228 to R230, R244: a ticket is proposed, armed when the twin accepts, given up after 50 µs without an answer, and expires 1 ms after its instant; a pair whose twin does not
report within 2 ms has no result; forwarding to a twin that has answered nothing for GAP_US ends. -/
def Obligations.PairTickets : Prop :=
  ∀ (s : State), s.serving = true →
    (∀ v : BitVec 32, ∃ t, exec (.pairReqGo v) s = .next t ∧ t = { s with regs := t.regs, pair := t.pair, link := t.link, out := t.out }
        ∧ s.regsBut t [Reg.FEED_PAIR_REQ, Reg.LNK_STATUS, Reg.MSIX_PBA]
        ∧ (v.getLsbD 31 = false → t = s.setRegN Reg.FEED_PAIR_REQ (max 100 (v.toNat % 65536)))
        ∧ (v.getLsbD 31 = true → t.pair = { s.pair with proposal := some ((s.pair.number + 1) % 65536,
              s.time.gtime + BitVec.ofNat 64 (4000 * max 100 (v.toNat % 65536)), s.time.gtime) }))
    ∧ (∀ n at_ t0, s.pair.proposal = some (n, at_, t0) →
        exec (.ticketAccepted n) s = .next (s.armTicket false n at_)
        ∧ (∀ m, m ≠ n → exec (.ticketAccepted m) s = .next s)
        ∧ (t0.toNat + 200000 ≤ s.time.gtime.toNat → exec .ticketTimeout s
            = .next (({ s with pair := { s.pair with proposal := none, status := ST_FD_PAIR_UNREACHABLE } } : State).latch Reg.FEED_STATUS 6))
        ∧ (s.time.gtime.toNat < t0.toNat + 200000 → exec .ticketTimeout s = .next s))
    ∧ (s.pair.ticket = .armed → s.pair.at_.toNat + 4000000 ≤ s.time.gtime.toNat →
        exec .ticketExpired s = .next { s with pair := if s.pair.twin.isSome then { s.pair with ticket := .expired, result := 3, status := ST_FD_PAIR_UNREACHABLE }
          else { s.pair with ticket := .expired } })
    ∧ (s.pair.ticket ≠ .armed → exec .ticketExpired s = .next s)
    ∧ (s.pair.own.isSome = true → s.pair.twin = none → s.pair.result ≠ 3 → s.pair.ownAt.toNat + 8000000 ≤ s.time.gtime.toNat →
        exec .pairReportTimeout s = .next { s with pair := { s.pair with result := 3, status := ST_FD_PAIR_UNREACHABLE } })
    ∧ (∀ i x t0, s.strms[i]? = some x → x.forwards = true → x.twin ≠ [] → x.twinAt = some t0 → t0.toNat + us x.gapUs ≤ s.time.gtime.toNat →
        ∃ t, exec (.pairLinkLost i) s = .next t ∧ t.strms[i]? = some { x with pairLost := true, twin := [], twinAt := none }
          ∧ (∀ j, j ≠ i → t.strms[j]? = s.strms[j]?)
          ∧ t = { s with strms := t.strms, regs := t.regs, out := t.out, link := t.link })

/-- R231, R232, R213, R236, R237, R240: EN starts and stops the ingest of a port by the states of R232; FEED_SKID is taken, brought to its limits, while its port is OFF and its sum fits
(a 32-bit write acts on its half, a 64-bit one on its two halves, the low one first: log entry 70); FEED_STRM_CFG is taken while its entry is not VALID, an entry given another STREAM has no source, no MARK and no discards (R205), and clearing VALID makes the stream IDLE;
QDELAY is cleared by its read. -/
def Obligations.FeedControl : Prop :=
  ∀ (s : State) (port : Nat), s.serving = true → port < 2 → s.fports.length = 2 →
    (∀ v : BitVec 32, ∃ t, exec (.feedEn v) s = .next t ∧ t = { s with regs := t.regs, fports := t.fports, out := t.out }
        ∧ (t.fport port).st = (match (s.fport port).st, v.getLsbD (30 + port) with
            | .on, false => .stopping
            | .off, true => .starting
            | x, _ => x))
    ∧ ((s.fport port).st = .stopping → (s.fport port).queue = [] → ∃ t, exec (.feedStopped port) s = .next t
        ∧ t = { s with regs := t.regs, fports := t.fports, out := t.out }
        ∧ (t.fport port).st = (if (s.fport port).pendEnable then .starting else .off) ∧ (t.fport port).paused = false)
    ∧ ((s.fport port).st = .stopping → (s.fport port).queue ≠ [] → exec (.feedStopped port) s = .next s)
    ∧ ((s.fport port).st = .starting → (s.fport port).pendDisable = false → ∃ t, exec (.feedStarted port) s = .next t
        ∧ t = { s with fports := t.fports } ∧ t.fport port = { s.fport port with st := .on })
    ∧ (∀ a, onReg a (Reg.FEED_SKID port) = true → a.size = 4 →
        let v := intoReg a (Reg.FEED_SKID port) (s.regN (Reg.FEED_SKID port))
        let hold := max 4 (min 32 (v / 2 ^ 26 % 64))
        let cable := min 10000 (v / 2 ^ 12 % 2 ^ 14)
        let skid := (100 * (10 * cable + v % 2 ^ 12 + 300) + 18496 + 4095) / 4096 * 4
        exec (.feedSkidWrite a) s = .next (if (s.fport port).st = .off ∧ 1024 + hold * 256 + skid ≤ 16384
          then s.setRegN (Reg.FEED_SKID port) (skid * 2 ^ 48 + (16384 - hold * 256 - skid) * 2 ^ 32 + hold * 2 ^ 26 + cable * 2 ^ 12 + v % 2 ^ 12)
          else s.latch Reg.FEED_STATUS 2))
    ∧ (∀ a, onReg a (Reg.FEED_SKID port) = true → a.size = 8 → ∃ t, exec (.feedSkidWrite ⟨a.bar, a.off, 4, a.value⟩) s = .next t
        ∧ exec (.feedSkidWrite a) s = exec (.feedSkidWrite ⟨a.bar, a.off + 4, 4, a.value >>> 32⟩) t)
    ∧ (∀ a x, onReg a Reg.FEED_STRM_CFG = true → s.strms[s.strmSel]? = some x →
        let v := intoReg a Reg.FEED_STRM_CFG x.cfg
        (x.valid = false → (v.testBit 63 = false ∨ s.strms.any (fun z => z.valid && z.stream == v / 2 ^ 32 % 65536) = false) →
          ∃ t, exec (.feedStrmCfgWrite a) s = .next t ∧ t = { s with strms := t.strms }
            ∧ t.strms[s.strmSel]? = some { (x.forStream (v / 2 ^ 32 % 65536)).withCfg v with valid := v.testBit 63 } ∧ (∀ j, j ≠ s.strmSel → t.strms[j]? = s.strms[j]?))
        ∧ (∀ n, (x.stream = n → x.forStream n = x)
          ∧ (x.stream ≠ n → let y := x.forStream n
            y.src = 0 ∧ y.srcPort = 0 ∧ y.lastPort = 3 ∧ y.mark = 0 ∧ y.marks = [] ∧ y.discards = 0 ∧ y.lastDisc = 0 ∧ y.next = x.next ∧ y.flight = x.flight))
        ∧ (x.valid = true → v.testBit 63 = true → exec (.feedStrmCfgWrite a) s = .next (if x.withCfg v = x then s else s.latch Reg.FEED_STATUS 2))
        ∧ (x.valid = true → v.testBit 63 = false → x.withCfg v = x →
          ∃ t, exec (.feedStrmCfgWrite a) s = .next t ∧ t = { s with strms := t.strms, link := t.link, regs := t.regs, out := t.out }
            ∧ t.strms[s.strmSel]? = some { x with held := [], gap := none, valid := false, active := false } ∧ (∀ j, j ≠ s.strmSel → t.strms[j]? = s.strms[j]?)))
    ∧ exec (.qdelayRead port) s = .next ((s.emit (.readData (s.reg (Reg.FEED_PORT_QDELAY port)))).setReg (Reg.FEED_PORT_QDELAY port) 0)

/-! ## Rings, curtains and control -/

/-- R316 to R320: an acquire, a publish and a release keep a ring's counts in order: what is released has been acquired by its consumer, what is acquired
published, what is published acquired by its producer, and no more slots than the ring has are between release and acquire. No producer acquire succeeds after END
has been published, and the end indication comes when every slot is acquired and the last one carried END. The place of a slot is its number in the stream modulo the slots of the ring. -/
def Obligations.RingOrder : Prop :=
  ∀ (r r' : Ring) (fill slot f : Nat) (fin b : Bool),
    let good (x : Ring) : Prop := x.pubs.length = (x.pub - x.rel).toNat ∧ (x.cacq - x.rel).toNat ≤ (x.pub - x.rel).toNat
      ∧ (x.pub - x.rel).toNat ≤ (x.pacq - x.rel).toNat ∧ (x.pacq - x.rel).toNat ≤ x.slots
    r.slots < 2 ^ 31 → good r →
    (r.acqProd = .ok r' slot f b → good r' ∧ slot = (r.relN + (r.pacq - r.rel).toNat) % r.slots ∧ r'.pacq = r.pacq + 1 ∧ r'.pubs = r.pubs)
    ∧ (r.publish fill fin = .ok r' slot f b → good r' ∧ r'.pub = r.pub + 1 ∧ r'.pubs = r.pubs ++ [⟨fill, fin⟩] ∧ fill ≤ r.slotBytes
        ∧ r'.endPub = (r.endPub || fin) ∧ r'.endLast = fin)
    ∧ (r.acqCons = .ok r' slot f b → good r' ∧ r'.cacq = r.cacq + 1 ∧ r.pubs[(r.cacq - r.rel).toNat]? = some ⟨f, b⟩)
    ∧ (r.release = .ok r' slot f b → good r' ∧ r'.rel = r.rel + 1 ∧ r'.relN = r.relN + 1 ∧ slot = r.relN % r.slots ∧ r'.pubs = r.pubs.drop 1)
    ∧ (r.acqCons = .wait → r.cacq = r.pub ∧ r.endLast = false)
    ∧ (r.acqCons = .endInd → r.cacq = r.pub ∧ r.endLast = true)
    ∧ (r.endPub = true → r.acqProd = .bad)

/-- R315, R317 to R322, R375: an RACQ whose side is its own takes a slot if there is one, with NOWAIT answers false if there is none, and waits otherwise, or takes the end
indication of a stream that has ended; An instruction of the class waits while the context has 32 engine
instructions or the class's queue is full. RPUB and RREL act at once when every earlier engine instruction has ended and the class is idle, and are queued behind them otherwise; a side that is another's ends the launch. -/
def Obligations.RingInstructions : Prop :=
  ∀ (s : State) (cl : Nat) (i : BWord) (a : Site),
    (s.issues cl i [i.d] a → ∀ r, a.c.sideOf cl i.a (i.fn.getLsbD 0) 0 = some r → s.ringFree a = true →
      let res := if i.fn.getLsbD 0 then r.acqCons else r.acqProd
      (∀ r' slot fill fin, res = .ok r' slot fill fin → ∃ t k, exec (.racq cl i) s = .next t ∧ t = { s.count (Reg.CL_ISSUED a.k.cl) 1 with ctxs := t.ctxs }
          ∧ t.onCl a.c.id a.k.cl = some (k.past i)
          ∧ k = (let k1 := a.k.setS i.d (BitVec.ofNat 64 ((r.base + slot * r.slotBytes) % 2 ^ 24 + fill * 2 ^ 24 + (if fin then 2 ^ 63 else 0)))
                 if i.fn.getLsbD 1 then k1.setP i.c true else k1)
          ∧ (t.ctx? a.c.id).map (·.rings) = some (modFirst (·.reg == r'.reg) (fun _ => r') a.c.rings))
      ∧ (res = .endInd → ∃ t, exec (.racq cl i) s = .next t ∧ t = { s.count (Reg.CL_ISSUED a.k.cl) 1 with ctxs := t.ctxs }
          ∧ t.onCl a.c.id a.k.cl = some ((let k1 := a.k.setS i.d (BitVec.ofNat 64 (2 ^ 62))
                 if i.fn.getLsbD 1 then k1.setP i.c true else k1).past i))
      ∧ (res = .bad → exec (.racq cl i) s = .next ((s.issued a id).endLaunch a.c.id ST_RING_ORDER))
      ∧ (res = .wait → i.fn.getLsbD 1 = true → ∃ t, exec (.racq cl i) s = .next t ∧ s.Retired t a ((a.k.setP i.c false).past i))
      ∧ (res = .wait → i.fn.getLsbD 1 = false → exec (.racq cl i) s = .next (s.park a (.racq i.a (i.fn.getLsbD 0)))))
    ∧ (s.issues cl i [i.d] a → (a.c.sideOf cl i.a (i.fn.getLsbD 0) 0).isSome = true →
        (32 ≤ a.k.running.length → exec (.racq cl i) s = .next (s.park a .issue))
        ∧ (a.k.running.length < 32 → 8 ≤ s.queueLen a.k.cl .ring → exec (.racq cl i) s = .next (s.park a (.queueFull .ring)))
        ∧ (a.k.running.length < 32 → 0 < s.queueLen a.k.cl .ring → s.queueLen a.k.cl .ring < 8 →
            exec (.racq cl i) s = .next (s.park a (if i.fn.getLsbD 1 then .issue else .racq i.a (i.fn.getLsbD 0)))))
    ∧ (s.issues cl i [i.d] a → a.c.sideOf cl i.a (i.fn.getLsbD 0) 0 = none →
        exec (.racq cl i) s = .next ((s.issued a id).endLaunch a.c.id ST_RING_ROLE))
    ∧ (s.issues cl i [i.b] a → ∀ r, a.c.sideOf cl i.a false 0 = some r →
        let fill := if i.fn.getLsbD 1 then r.slotBytes else (a.k.s i.b).toNat
        (∀ u, a.k.running = [] → s.queueLen a.k.cl .ring = 0 → s.ringPublish a.c.id i.a fill (i.fn.getLsbD 0) = some u → exec (.rpub cl i) s = .next (u.issued a (·.advance (wordsOf i))))
        ∧ (a.k.running = [] → s.queueLen a.k.cl .ring = 0 → s.ringPublish a.c.id i.a fill (i.fn.getLsbD 0) = none →
            exec (.rpub cl i) s = .next ((s.issued a id).endLaunch a.c.id ST_RING_ORDER))
        ∧ (a.k.running ≠ [] ∨ s.queueLen a.k.cl .ring ≠ 0 → let o := a.op s .ring .rpub i [] []
            s.takes a o → ∃ t, exec (.rpub cl i) s = .next t
              ∧ ({ s with nextOp := s.nextOp + 1 } : State).Retired t a ({ a.k with running := a.k.running ++ [o] }.past i)))
    ∧ (s.issues cl i [] a → ∀ r, a.c.sideOf cl i.a true 0 = some r →
        (∀ q r' slot f b, a.k.running = [] → s.queueLen a.k.cl .ring = 0 → a.c.ring? i.a = some q → q.release = .ok r' slot f b →
            exec (.rrel cl i) s = .next ((s.setRing a.c.id r').issued a (·.advance (wordsOf i))))
        ∧ (a.k.running ≠ [] ∨ s.queueLen a.k.cl .ring ≠ 0 → let o := a.op s .ring .rrel i [] []
            s.takes a o → ∃ t, exec (.rrel cl i) s = .next t
              ∧ ({ s with nextOp := s.nextOp + 1 } : State).Retired t a ({ a.k with running := a.k.running ++ [o] }.past i)))

/-- R328 to R330, R335: the arrival that makes EXPECT opens the next generation and starts the count again; an arrival with nothing running counts at once; WAITT goes on once the generation it
waits for is past, and waits until then; DLCHK reads and notes the misses of a ring. -/
def Obligations.CurtainInstructions : Prop :=
  (∀ u : Curtain, 0 < u.expect → u.count < u.expect → u.arrive.expect = u.expect ∧ u.arrive.count < u.expect
      ∧ (u.count + 1 = u.expect → u.arrive.gen = u.gen + 1 ∧ u.arrive.count = 0) ∧ (u.count + 1 < u.expect → u.arrive.gen = u.gen ∧ u.arrive.count = u.count + 1))
  ∧ (∀ (s : State) (cl : Nat) (i : BWord) (a : Site), s.issues cl i [] a →
      let n := fnFld i 2 0
      (a.c.curtain? n = none → exec (.curtain cl i) s = .next ((s.issued a id).endLaunch a.c.id ST_RING_ROLE)
          ∧ exec (.waitt cl i) s = .next ((s.issued a id).endLaunch a.c.id ST_RING_ROLE))
      ∧ (∀ u, a.c.curtain? n = some u → i.fn.getLsbD 3 = false → a.k.running = [] → s.queueLen a.k.cl .ring = 0 → a.k.lastGen n ≠ some u.gen →
          exec (.curtain cl i) s = .next ((s.arriveAt a.c.id cl n).issued a (·.advance (wordsOf i))))
      ∧ (∀ u, a.c.curtain? n = some u → i.fn.getLsbD 3 = true → a.k.running = [] → s.queueLen a.k.cl .ring = 0 → a.k.lastGen n ≠ some u.gen → a.k.wait = none →
          exec (.curtain cl i) s = .next (if u.expect ≤ u.count + 1 then (s.arriveAt a.c.id cl n).issued a (·.advance (wordsOf i))
            else (s.arriveAt a.c.id cl n).park a (.curtain n u.gen)))
      ∧ (∀ u, a.c.curtain? n = some u → s.ringFree a = true → u.gen ≠ a.k.waitGen n u →
          ∃ t, exec (.waitt cl i) s = .next t ∧ s.Retired t a (a.k.past i))
      ∧ (∀ u, a.c.curtain? n = some u → s.ringFree a = true → u.gen = a.k.waitGen n u → exec (.waitt cl i) s = .next (s.park a (.curtain n u.gen))))
  ∧ (∀ (s : State) (cl : Nat) (i : BWord) (a : Site) (r : Ring), s.issues cl i [i.d] a → a.c.ring? i.a = some r → s.ringFree a = true →
      ∃ (t : State) (k : ClCtx), exec (.dlchk cl i) s = .next t ∧ s.Retired t a (k.past i)
        ∧ k = { (a.k.setS i.d (BitVec.ofNat 64 (r.misses + r.worst * 65536))).setP i.c (decide (a.k.dlSeen.getD i.a 0 < r.misses)) with dlSeen := k.dlSeen }
        ∧ (i.a < 8 → k.dlSeen[i.a]? = some r.misses) ∧ (∀ q, q < 8 → q ≠ i.a → k.dlSeen[q]? = some (a.k.dlSeen.getD q 0)))

/-- R332 to R334, R339 to R341: a real-time slot that is not published when it is due is missed, and ends the launch in mode 2; a launch that stalls is recorded with its time, and is ended
where the policy of its slot says so. -/
def Obligations.DueSlotsAndStalls : Prop :=
  ∀ (s : State) (ctx ring : Nat) (c : Ctx), s.serving = true → s.ctx? ctx = some c →
    (∀ r, c.ring? ring = some r → c.st = .running → r.mode ≠ 0 → r.due c.t0 r.dueNext ≤ s.time.gtime.toNat →
      let u := s.modCtx ctx (fun c => { c with rings := modFirst (·.reg == ring) (fun _ => r.atDue.1) c.rings })
      let v := ((u.count Reg.RING_MISSES 1).latch Reg.RING_STATUS 2).modCtx ctx (fun c => { c with newMisses := c.newMisses + 1 })
      exec (.slotDue ctx ring) s = .next (if r.published r.dueNext ∨ r.endPub then u else if r.mode = 2 then v.endLaunch ctx ST_RING_LATE else v))
    ∧ (∀ r, c.ring? ring = some r → s.time.gtime.toNat < r.due c.t0 r.dueNext → exec (.slotDue ctx ring) s = .next s)
    ∧ (s.stalls c = false → exec (.stallDeclared ctx) s = .next s)
    ∧ (s.Sound → s.stalls c = true → ∃ t, exec (.stallDeclared ctx) s = .next t
        ∧ t.reg Reg.RING_STALLS = s.reg Reg.RING_STALLS + 1 ∧ t.reg Reg.RING_STALL_TIME = s.time.gtime
        ∧ t = { s with regs := t.regs, out := t.out, ctxs := t.ctxs, host := t.host }
        ∧ (s.regB Reg.RING_POLICY c.slot = false → c.id = ctx → t.ctx? ctx = some { c with stalled := true })
        ∧ (s.regB Reg.RING_POLICY c.slot = true → c.status = none → (t.ctx? ctx).any (fun x => x.status == some ST_RING_STALL && x.st == .cancelling) = true))

/-- R363, R376 to R378: FENCE waits for the classes it names and then goes on; SAFE and YIELD pass a safe point once no array or vector instruction runs; EXIT waits for
every instruction of its cluster, and the launch ends with ST_OK when every cluster has come to its EXIT.
R363, R384, R102, R435, R476: a cancel that reaches a cluster is acknowledged there, and of its instructions only those that run to their end stay; a miss of the instruction cache is counted. -/
def Obligations.ControlInstructions : Prop :=
  (∀ (s : State) (cl : Nat) (i : BWord) (a : Site), s.issues cl i [] a →
     (a.k.running.any (fun o => fenceNames (fnFld i 4 0) o.cls) = false → ∃ t, exec (.fence cl i) s = .next t ∧ s.Retired t a (a.k.past i))
     ∧ (a.k.running.any (fun o => fenceNames (fnFld i 4 0) o.cls) = true → exec (.fence cl i) s = .next (s.park a (.fence (fnFld i 4 0))))
     ∧ (a.k.computing = true → exec (.safe cl i) s = .next (s.park a .issue) ∧ exec (.yield cl i) s = .next (s.park a .issue))
     ∧ (a.k.computing = false → a.c.deadline = 0 → s.ctxs.all (fun d => d.id == a.c.id) = true →
         (∃ t, exec (.safe cl i) s = .next t ∧ s.Retired t a { a.k.past i with safes := a.k.safes + 1 })
         ∧ (∃ t, exec (.yield cl i) s = .next t ∧ s.Retired t a { a.k.past i with safes := a.k.safes + 1 }))
     ∧ (a.k.running ≠ [] → exec (.exit cl i) s = .next (s.park a .issue))
     ∧ (a.k.running = [] → ∃ t, exec (.exit cl i) s = .next t
         ∧ (t.onCl a.c.id a.k.cl).any (fun k => k.exited && k.acc.isNone && k.shadow.isNone) = true
         ∧ t.hbm = s.hbm ∧ t.scr = s.scr ∧ t.tables = s.tables
         ∧ (a.c.cls.all (fun k => k.cl == cl || k.exited) = true → (a.c.cls.map (·.cl)).Nodup →
             (t.ctx? a.c.id).any (fun c => c.st == .ended && c.status == some (a.c.status.getD ST_OK) && c.finish == s.time.gtime) = true)))
  ∧ (∀ (s : State) (ctx cl : Nat), s.serving = true →
       (∀ c, s.ctx? ctx = some c → c.st ≠ .cancelling → (c.aborting = false ∨ c.st ≠ .running) → exec (.cancel ctx cl) s = .next s)
       ∧ (∀ c k, s.ctx? ctx = some c → c.st = .cancelling → c.on? cl = some k → ∃ u : State, exec (.cancel ctx cl) s = .next (u.settleCtx ctx)
           ∧ (∃ k', u.onCl ctx cl = some k' ∧ k'.acked = true ∧ k'.running = k.running.filter (s.runsOn c k) ∧ k'.sreg = k.sreg ∧ k'.pc = k.pc)
           ∧ u.hbm = s.hbm ∧ u.scr = s.scr ∧ u.tables = s.tables ∧ u.slots = s.slots)
       ∧ (∀ c k, s.ctx? ctx = some c → c.st = .running → c.aborting = true → c.on? cl = some k → ∃ u : State, exec (.cancel ctx cl) s = .next (u.abortDone ctx)
           ∧ (∃ k', u.onCl ctx cl = some k' ∧ k'.acked = true ∧ k'.cancelled = true ∧ k'.running = k.running.filter (s.runsOn c k))
           ∧ (u.ctx? ctx).any (fun x => x.aborted == (c.aborted || !k.exited)) = true ∧ u.hbm = s.hbm ∧ u.tables = s.tables ∧ u.slots = s.slots)
       ∧ (∀ (a : Site) (f : FetchIn), f.cl = cl → s.site? cl = some a → f.stack / 2 = cl / 16 →
           let u := s.count (Reg.CL_ICMISS cl) 1
           (f.health.parity ≤ 4 → f.health.code = .good → exec (.icacheMissFill f) s = .next u)
           ∧ (f.health.parity ≤ 4 → f.health.code = .corrected → exec (.icacheMissFill f) s = .next (u.memCorrected f.stack (f.granule / 8 % 32) f.granule))
           ∧ (f.health.code = .uncorrectable ∨ 4 < f.health.parity → exec (.icacheMissFill f) s = .next (u.memUncorrectable f.stack (f.granule / 8 % 32) f.granule)))
       ∧ (∀ f : FetchIn, f.cl = cl → s.site? cl = none → exec (.icacheMissFill f) s = .next s))

/-! ## The end of engine instructions, and failed checks -/

/-- R326, R359, R361 to R363, R368, R369: only the oldest instruction of its class goes on; one that fails a check ends with its status; an instruction that ends leaves its place and
ORs its flags in; a run of a MOVE moves, but to or from a ring of a cancelled launch, and the MOVE ends with its last run; a run of a COPY moves on. -/
def Obligations.EngineEnds : Prop :=
  ∀ (s : State) (cl ctx id : Nat) (a : Site) (o : EngOp), s.serving = true → s.eng? cl ctx id = some (a, o) →
    (s.isHead cl o = false → exec (.engineInstructionEnds cl ctx id) s = .next s)
    ∧ (s.isHead cl o = true → exec (.engineInstructionEnds cl ctx id) s = .next ((s.engEnds a o).settleCtx ctx))
    ∧ (([.rows, .mma, .conv1, .ewa, .drain, .vchain, .vred, .vcvt, .sfn, .smaxM, .smaxE, .smaxD, .normS, .normF] : List EKind).contains o.kind = true → o.out = none → s.engStat a o ≠ ST_OK → s.engEnds a o = s.endEng a o (s.engStat a o))
    ∧ (∀ st, ∃ t k, s.endEng a o st = t ∧ t.onCl a.c.id a.k.cl = some k ∧ k.running = a.k.running.filter (fun x => !(x.id == o.id)) ∧ k.sreg = a.k.sreg
        ∧ k.aflags = (if o.cls = .arr then a.k.aflags ||| o.flags else a.k.aflags)
        ∧ k.vflags = (if o.cls = .vec ∨ o.cls = .sfu then a.k.vflags ||| o.flags else a.k.vflags)
        ∧ t = { s with ctxs := t.ctxs, regs := t.regs })
    ∧ (∀ x data, o.xfer = some x → s.copy? id = none → s.opAt id = some (cl, ctx) → s.isHead a.k.cl o = true → o.status = ST_OK → o.failed = none →
        (x.mark < x.runs → (a.c.st ≠ .cancelling ∨ (x.src ≠ 4 ∧ x.dst ≠ 4)) → exec (.transferRunComplete id data) s = .next (s.moveRun a o x data))
        ∧ (a.c.st = .cancelling → (x.src = 4 ∨ x.dst = 4) → exec (.transferRunComplete id data) s = .next s)
        ∧ (x.runs ≤ x.mark → exec (.transferRunComplete id data) s = .next s ∧ (o.kind = .move → s.engEnds a o = s.endEng a o ST_OK)))
    ∧ (∀ k n x data, s.copy? id = some (k, n, x) → exec (.transferRunComplete id data) s = .next (s.copyStep k n x data))

/-- R272, R310, R535 to R537: a failed check of an array, a vector engine or a transfer engine is counted, set against the unit and replayed, and marks the instruction REPLAY, MOVED when another
array replays it; a check that fails again fails the instruction with the status of the unit; the owner of a look-up sums a bag again once, and then sends no partial for it.
R270, R273: the residue checks of an array let a right product, sum or accumulator update pass, and miss an error only when it changes the value by a multiple of 15, which
no error within three adjacent bits does; the registers of a cell carry the residues of their elements, and what is built twice is compared bit for bit. -/
def Obligations.ChecksFail : Prop :=
  (∀ (s : State) (cl ctx id : Nat) (a : Site) (o : EngOp) (no : Nat) (hash : BitVec 32), s.serving = true → cl < 128 → s.eng? cl ctx id = some (a, o) →
     let rep (st : Nat) : CheckRep := ⟨st, hash.toNat, no, some ctx⟩
     (∀ array, array < 8 → o.cls = .arr →
       let u := cl * 8 + array
       exec (.residueCheckFails cl array ctx id .same ⟨no, hash⟩) s
           = .next ((s.checkFailed u 1 (rep ST_AR_CHECK) false).modEng cl ctx id (fun o => { o with flags := o.flags ||| fREPLAY }))
       ∧ exec (.residueCheckFails cl array ctx id .other ⟨no, hash⟩) s
           = .next ((s.checkFailed u 2 (rep ST_AR_CHECK) true).modEng cl ctx id (fun o => { o with flags := o.flags ||| fREPLAY ||| fMOVED }))
       ∧ (∀ j, s.nextArray cl array = some j → exec (.residueCheckFails cl array ctx id .failed ⟨no, hash⟩) s
           = .next (((s.checkFailed u 2 (rep ST_AR_CHECK) true).checkMoved (cl * 8 + j) (rep ST_AR_CHECK)).modEng cl ctx id
               (fun o => { o with flags := o.flags ||| fREPLAY ||| fMOVED, failed := some ST_AR_CHECK }))))
     ∧ (∀ (sfu : Bool), (if sfu then o.onSfu = true else o.cls = .vec) →
       let u := (if sfu then 2 else 1) * 4096 + cl
       exec (.vectorCheckFails cl sfu ctx id true ⟨no, hash⟩) s
           = .next ((s.checkFailed u 1 (rep ST_AR_CHECK) false).modEng cl ctx id (fun o => { o with flags := o.flags ||| fREPLAY }))
       ∧ exec (.vectorCheckFails cl sfu ctx id false ⟨no, hash⟩) s
           = .next ((s.checkFailed u 2 (rep ST_AR_CHECK) true).modEng cl ctx id (fun o => { o with flags := o.flags ||| fREPLAY, failed := some ST_AR_CHECK })))
     ∧ (o.cls = .te →
       exec (.transferCheckFails cl ctx id true ⟨no, hash⟩) s = .next ((s.checkFailed (3 * 4096 + cl) 1 (rep ST_RAS_CHECK) false).modEng cl ctx id (fun o => o))
       ∧ exec (.transferCheckFails cl ctx id false ⟨no, hash⟩) s
           = .next ((s.checkFailed (3 * 4096 + cl) 2 (rep ST_RAS_CHECK) true).modEng cl ctx id (fun o => { o with failed := some ST_RAS_CHECK })))
     ∧ (∀ u n c event, u < 4 * 4096 → s.Sound → (s.checkFailed u n c event).reg Reg.RAS_CHECK_FAIL = s.reg Reg.RAS_CHECK_FAIL + BitVec.ofNat 64 n
         ∧ (s.checkFailed u n c event).ctxs = s.ctxs ∧ (s.checkFailed u n c event).scr = s.scr ∧ (s.checkFailed u n c event).hbm = s.hbm)
     ∧ (∀ die src c op bag r b t0 w, s.req? die src c op = some r → r.bags.find? (·.bag == bag) = some b → s.table? r.handle = some t0 → t0.ver? r.ver = some w →
       (∃ t, exec (.gpeCheckFails die src c op bag true ⟨no, hash⟩) s = .next t
         ∧ t.reads = s.reads.filter (fun x => !(x.die == die && x.src == src && x.ctx == c && x.op == op && x.bag == bag))
         ∧ t.reqs = (modFirst (·.is die src c op) (fun r => { r with bags := r.bags.filter (fun x => !(x.bag == bag)) }) s.reqs).filter (·.working))
       ∧ (b.redone = false →
         let u := (s.checkFailed (5 * 4096 + die) 1 ⟨ST_RAS_CHECK, hash.toNat, no, some c⟩ false).modReq die src c op
           (fun r => r.modBag bag (fun b => { b with terms := [], count := 0, flags := 0, redone := true, items := [] }))
         exec (.gpeCheckFails die src c op bag false ⟨no, hash⟩) s = .next ((b.items.foldl (fun s e => s.readIndex r t0 w bag [] e) u).tryFinish die src c op bag))))
  ∧ ((∀ x w product : Int, mulCheck (residue x) (residue w) product = true ↔ (product - x * w) % 15 = 0)
     ∧ (∀ (inputs : List (Int × Nat)) (sum : Int), treeCheck (inputs.map (fun x => (residue x.1, x.2))) sum = true
         ↔ (sum - (inputs.map (fun x => x.1 * 2 ^ x.2)).sum) % 15 = 0)
     ∧ (∀ old sum inc result : Int, accCheck (residue old) (residue sum) (residue inc) result = true ↔ (result - (old + sum + inc)) % 15 = 0)
     ∧ (∀ (x : Int) (m j : Nat), 1 ≤ m → m ≤ 7 → residue (x + m * 2 ^ j) ≠ residue x ∧ residue (x - m * 2 ^ j) ≠ residue x)
     ∧ (∀ (fa fw k slice : Nat) (a w : Stream), cellChecks fa fw (sliceRow fa k slice a) (sliceRow fw k slice w) = true)
     ∧ (∀ x y : F32, twinCheck x y = true ↔ x = y))

/-! ## Queues, scripts, launches and Cue -/

/-- R390 to R395, R434, R435: a slot is OFF, STARTING, ON or STOPPING; enabling one that is OFF starts it, disabling one that is ON begins its destroy, which in ABORT mode
takes back what waits, and a write meanwhile is kept; its configuration is written while it is OFF, and held while it is STOPPING. A doorbell that goes forward within
the ring is taken while the slot is ON; one that does not is counted, and one past the ring is the slot's error. A write of 64 bits is its two words, the low one first (log entry 70). -/
def Obligations.QueueSlots : Prop :=
  ∀ (s : State) (k : Nat) (q : QSlot), s.barOpen = true → k < 9 → s.slots[k]? = some q →
    let put (x : QSlot) : State := s.modSlot k (fun _ => x)
    (∀ v : BitVec 32,
      let en := v.getLsbD 31
      let ab := v.getLsbD 30
      let q1 : QSlot := { q with en := en, abort := ab }
      (q.st = .off → en = true → ∃ t, exec (.queueEnWritten k v) s = .next t ∧ t = { s with slots := t.slots, regs := t.regs }
          ∧ t.slots[k]? = some { q1 with st := .starting, heldCfg := [], pendEnable := false, pendDisable := false, error := false, errStatus := 0 }
          ∧ t.regs = (q.heldCfg.foldl (fun s e => s.putCfgWord e.1 e.2) s).regs)
      ∧ (q.st = .off → en = false → exec (.queueEnWritten k v) s = .next (put q1))
      ∧ (q.st = .starting → exec (.queueEnWritten k v) s = .next (put { q1 with pendDisable := !en }))
      ∧ (q.st = .on → en = true → exec (.queueEnWritten k v) s = .next (put q1))
      ∧ (q.st = .on → en = false → ∃ t q', exec (.queueEnWritten k v) s = .next t ∧ t.slots[k]? = some q' ∧ q'.st = .stopping
          ∧ q'.destroy.any (fun d => d.abort == ab) = true ∧ t.hbm = s.hbm ∧ t.tables = s.tables
          ∧ (ab = false → q'.waiting = q.waiting ∧ q'.cmds = q.cmds ∧ t = { s with slots := t.slots })
          ∧ (ab = true → q'.waiting = [] ∧ q'.torn = none ∧ q'.fence = none))
      ∧ (q.st = .stopping → en = true → exec (.queueEnWritten k v) s = .next (put { q1 with pendEnable := true }))
      ∧ (q.st = .stopping → en = false → (ab = false ∨ q.aborting = true) → exec (.queueEnWritten k v) s = .next (put { q1 with pendEnable := false })))
    ∧ (s.serving = true → q.st = .starting → q.pendDisable = false →
      exec (.queueStarted k) s = .next (if s.slotValid k then put q.fresh
        else (put { q with st := .off, pendDisable := false, errStatus := ST_Q_BAD_CFG }).latch Reg.CFE_STATUS 3))
    ∧ (∀ (a : Access) (r : Nat), cfgTarget a = some (k, r) → a.size = 4 →
      (q.st = .off → exec (.queueConfigWrite a) s = .next ((put { q with heldCfg := q.heldCfg.filter (fun e => !(e.1 == a.off)) }).setRegN r (rwInto a r (s.regN r))))
      ∧ (q.st = .on ∨ q.st = .starting → exec (.queueConfigWrite a) s = .next (s.latch Reg.CFE_STATUS 3))
      ∧ (q.st = .stopping → exec (.queueConfigWrite a) s
          = .next (put { q with heldCfg := keyPut q.heldCfg a.off a.value })))
    ∧ (∀ (a : Access) (r : Nat), cfgTarget a = some (k, r) → a.size = 8 → ∃ t, exec (.queueConfigWrite ⟨a.bar, a.off, 4, a.value⟩) s = .next t
        ∧ exec (.queueConfigWrite a) s = exec (.queueConfigWrite ⟨a.bar, a.off + 4, 4, a.value >>> 32⟩) t)
    ∧ (∀ v : BitVec 32,
      let dropped := (put { q with destroy := q.destroy.map (fun d => { d with drops := d.drops + 1 }) }).count (Reg.Q_DBDROP k) 1
      (q.st ≠ .on → exec (.sqDb k v) s = .next dropped ∧ exec (.cqDb k v) s = .next dropped)
      ∧ (q.st = .on → exec (.cqDb k v) s = .next (put { q with consumed := v }))
      ∧ (q.st = .on → (v = q.doorbell ∨ 2 ^ 31 ≤ (v - q.doorbell).toNat) → exec (.sqDb k v) s = .next dropped)
      ∧ (q.st = .on → v ≠ q.doorbell → (v - q.doorbell).toNat < 2 ^ 31 →
        ((v - q.fetched).toNat ≤ 2 ^ s.sqLog2 k → exec (.sqDb k v) s = .next (put { q with doorbell := v }))
        ∧ (2 ^ s.sqLog2 k < (v - q.fetched).toNat → q.error = false → ∃ t q' c, exec (.sqDb k v) s = .next t
            ∧ t = { s with slots := t.slots, regs := t.regs, out := t.out, freeCtr := t.freeCtr } ∧ t.slots[k]? = some q'
            ∧ q' = { q with error := true, errStatus := ST_Q_DOORBELL, cmds := q.cmds ++ [c] } ∧ c.status = some ST_Q_DOORBELL
            ∧ (s.Sound → t.regB Reg.CFE_STATUS 1 = true))))
    ∧ (∀ a : Access, a.bar = 2 → a.off / 0x10000 = k →
      (∀ write, ¬(isDoorbell write a = true ∧ q.st = .on) →
        let dropped := (put { q with destroy := q.destroy.map (fun d => { d with drops := d.drops + b2n (isDoorbell write a) }) }).count (Reg.Q_DBDROP k) 1
        exec (.doorbellAccessDropped k write a) s = .next (if write then dropped else dropped.emit (.readData 0))))

/-- R393, R396, R397, R533: a good entry that the CFE fetches joins those that wait, in order; one that is not good is read again, at most 16 times, past the host line cache, and then
is the slot's error, with a record; an entry that the CFE's own buffer has lost is fetched again. -/
def Obligations.EntryFetch : Prop :=
  ∀ (s u : State) (k : Nat) (q : QSlot) (e : Bytes) (line : GranuleHealth), s.serving = true → s.slots[k]? = some q → q.fetches = true → e.length = 64 →
    let good := entryGood e q.count (s.sqLog2 k)
    let took : QSlot := { q with fetched := q.fetched + 1, count := q.count + 1, torn := none, waiting := q.waiting ++ [(q.count, e)] }
    (q.torn = none → s.noteDirect.direct = false → q.waiting.length < 64 →
      s.noteDirect.access (.fetch k) (s.qPort k) (s.qPasid k) (s.entryAddr k q.count) 64 false = (.ok, u) →
      (∀ ecc, ecc ≠ .uncorrectable → good = true → ∃ t, exec (.entryFetched k e ⟨ecc, line⟩) s = .next t ∧ t.slots[k]? = some took ∧ (∀ j, j ≠ k → t.slots[j]? = s.slots[j]?)
          ∧ t = { s with slots := t.slots, host := t.host, regs := t.regs, direct := t.direct, ras := t.ras, out := t.out })
      ∧ (∀ ecc, ecc ≠ .uncorrectable → good = false → ∃ t, exec (.entryFetched k e ⟨ecc, line⟩) s = .next t ∧ t.slots[k]? = some { q with torn := some (q.count, 0), tornAt := some s.time.gtime }
          ∧ t = { s with slots := t.slots, host := t.host, regs := t.regs, direct := t.direct, ras := t.ras, out := t.out })
      ∧ (∃ t, exec (.entryFetched k e ⟨.uncorrectable, line⟩) s = .next t ∧ t = { s with host := t.host, regs := t.regs, direct := t.direct, ras := t.ras, out := t.out }))
    ∧ (∀ r, q.torn = some (q.count, r) → s.elapsed q.tornAt 2000 = true →
      s.noteDirect.access (.fetch k) (s.qPort k) (s.qPasid k) (s.entryAddr k q.count) 64 false = (.ok, u) →
      let v := u.emit (.cxlCacheRead (s.qPort k) (u.hostLine (s.qPort k) (s.qPasid k) (s.entryAddr k q.count)) true)
      (good = true → (s.noteDirect.direct = true → s.admitNow k e = true) →
        ∃ t, exec (.entryReread k e) s = .next t ∧ t.slots[k]? = some took ∧ t.host.hlc = s.host.hlc ∧ t.out = v.out)
      ∧ (good = true → s.noteDirect.direct = true → s.admitNow k e = false → exec (.entryReread k e) s = .next s)
      ∧ (good = false → r < 15 → exec (.entryReread k e) s = .next (v.modSlot k (fun q => { q with torn := some (q.count, r + 1), tornAt := some s.time.gtime })))
      ∧ (good = false → 15 ≤ r → ∃ t c, exec (.entryReread k e) s = .next t ∧ c.status = some ST_Q_TORN
          ∧ t.slots[k]? = some { q with error := true, errStatus := ST_Q_TORN, torn := none, cmds := q.cmds ++ [c] }
          ∧ (s.Sound → t.regB Reg.CFE_STATUS 0 = true) ∧ t = { s with slots := t.slots, host := t.host, regs := t.regs, out := t.out, direct := t.direct }))

/-- R398 to R402, R406, R407: an admitted NOP, QUERY or entry with an opcode that is not assigned ends at once, FENCE ends when all before it have and holds back those after it, and COPY becomes a
transfer of the bulk engine; a reserved field that is not zero ends the command with ST_Q_BAD_ARG. A command ends once, with its status, its value and its time. -/
def Obligations.QueueCommands : Prop :=
  ∀ (s : State) (k op n : Nat) (e : Bytes) (q : QSlot) (rest : List (Nat × Bytes)), s.admits k op n e q rest →
    let u := s.took k n e rest
    let a := argsOf e
    let plain := hdrZero e && allZero a
    (op = 3 → exec (.queueFence k) s = .next ((u.modSlot k (fun q => { q with fence := some n })).endCmd k n (if plain then ST_OK else ST_Q_BAD_ARG) 0))
    ∧ (op = 5 → exec (.nop k) s = .next (u.endCmd k n (if plain then ST_OK else ST_Q_BAD_ARG) 0))
    ∧ (op ∉ opcodes → exec (.unassignedOpcode k) s = .next (u.endCmd k n ST_Q_BAD_OPCODE 0))
    ∧ (op = 2 → exec (.copy k) s
        = .next (if copyBad e then u.endCmd k n ST_Q_BAD_ARG 0 else u.modCmd k n (fun c => { c with xfer := some (copyXfer a) })))
    ∧ (op = 4 → hdrZero e = true → rd a 1 1 = 0 → allZero (slice a 4 36) = true →
      (rd a 0 1 = 0 → ∀ x, s.current (rd a 2 2) = some x → exec (.query k) s = .next (u.endCmd k n ST_OK x.num))
      ∧ (rd a 0 1 = 0 → s.current (rd a 2 2) = none → exec (.query k) s = .next (u.endCmd k n ST_Q_NO_SCRIPT 0))
      ∧ (rd a 0 1 = 1 → exec (.query k) s = .next (u.endCmd k n ST_OK s.freeCtxs))
      ∧ (rd a 0 1 = 2 → exec (.query k) s = .next (u.endCmd k n ST_OK (s.ctxs.filter (·.ofSlot k)).length))
      ∧ (∀ t v, rd a 0 1 = 3 → s.table? (rd a 2 2) = some t → t.live = some v → exec (.query k) s = .next (u.endCmd k n ST_OK v.num))
      ∧ (rd a 0 1 = 3 → (s.table? (rd a 2 2)).bind (·.live) = none → exec (.query k) s = .next (u.endCmd k n ST_OK 0))
      ∧ (4 ≤ rd a 0 1 → exec (.query k) s = .next (u.endCmd k n ST_Q_BAD_ARG 0)))
    ∧ (∀ (v : State) (x : QSlot) (c : Cmd) (st val : Nat), v.slots[k]? = some x → x.cmds.find? (·.n == n) = some c → c.status = none →
      ∃ x', (v.endCmd k n st val).slots[k]? = some x' ∧ x'.cmds.find? (·.n == n) = some { c with status := some st, value := val, finish := v.time.gtime }
        ∧ x'.cmds.map (·.n) = x.cmds.map (·.n) ∧ (∀ m, m ≠ n → x'.cmds.find? (·.n == m) = x.cmds.find? (·.n == m)))

/-- R411 to R416, R434 to R436, R467: the record of a command that has ended goes to the next place of the completion ring with the phase of its round, behind the reads that its scope asks for, and the command then leaves its slot; no record goes before
that of a command that ended earlier, and none of a COPY while a line that it wrote may be held by the host, but under PATH. A record that no entry was admitted for takes its room from the same count. The moderation timer signals the records that are not signalled yet. A destroy that has ended posts its record and leaves the slot OFF, or
STARTING when an enable waits. -/
def Obligations.CompletionRecords : Prop :=
  ∀ (s : State) (k n : Nat) (q : QSlot), s.barOpen = true → s.slots[k]? = some q →
    (∀ (c : Cmd) (u : State), q.cmds.find? (fun c => c.n == n && c.status.isSome) = some c → c.op ≠ 1 → q.deaf = false →
      q.cmds.any (fun d => d.status.isSome && decide (d.finish.toNat < c.finish.toNat)) = false →
      (c.entry = [] → q.cmds.length + q.unconsumed ≤ 2 ^ s.cqLog2 k) →
      let scope := if c.op = 2 then LEnt.scope c.entry else scopePath
      s.scopeClear scope c.wrote = true →
      let addr := s.regN (Reg.Q_CQBASE k) + q.postedN % 2 ^ s.cqLog2 k * 32
      s.access (.record k) (s.qPort k) (s.qPasid k) addr 32 true = (.ok, u) →
      ∃ t q' l, exec (.completionRecord k n) s = .next t
        ∧ t.out = ((u.scopeRead scope (s.qPort k) c.wrote).hostOut (s.qPort k) (s.qPasid k) addr
            (cqRecord (1 - q.postedN / 2 ^ s.cqLog2 k % 2) false 0 (c.status.getD ST_OK) c.tag c.finish 0 0 c.value 0)).out ++ l
        ∧ t.slots[k]? = some q' ∧ q'.posted = q.posted + 1 ∧ q'.postedN = q.postedN + 1 ∧ q'.cmds = q.cmds.filter (·.n != n)
        ∧ q'.fence = (if q.fence = some n then none else q.fence)
        ∧ t = { s with slots := t.slots, out := t.out, regs := t.regs, host := t.host })
    ∧ (∀ (c : Cmd), q.cmds.find? (fun c => c.n == n && c.status.isSome) = some c →
      let full := decide (2 ^ s.cqLog2 k < q.cmds.length + q.unconsumed)
      (q.cmds.any (fun d => d.status.isSome && decide (d.finish.toNat < c.finish.toNat) && !(d.entry.isEmpty && full)) = true ∨ (c.entry = [] ∧ full = true) →
        exec (.completionRecord k n) s = .next s)
      ∧ (s.recordDue k c = true → c.op = 2 → s.scopeClear (LEnt.scope c.entry) c.wrote = false → exec (.completionRecord k n) s = .next (s.scopeSnoop c.wrote)))
    ∧ (0 < q.unsignalled → s.regF (Reg.Q_INTMOD k) 31 16 ≠ 0 → s.elapsed q.since (us (s.regF (Reg.Q_INTMOD k) 31 16)) = true →
        exec (.intmodTimer k) s = .next ((s.modSlot k (fun q => { q with unsignalled := 0, since := none })).signal k))
    ∧ (∀ t, q.since = some t → s.time.gtime.toNat < t.toNat + us (s.regF (Reg.Q_INTMOD k) 31 16) → exec (.intmodTimer k) s = .next s)
    ∧ (q.unsignalled = 0 ∨ s.regF (Reg.Q_INTMOD k) 31 16 = 0 → exec (.intmodTimer k) s = .next s)
    ∧ (∀ (d : Destroy) (u : State), q.st = .stopping → q.waiting = [] → q.cmds = [] → q.torn = none → q.fetched = q.doorbell → q.destroy = some d →
      s.ctxs.any (·.ofSlot k) = false → s.access (.record k) (s.qPort k) (s.qPasid k) (s.regN (Reg.Q_DREC k)) 64 true = (.ok, u) →
      ∃ t q' l, exec (.destroyRecord k) s = .next t
        ∧ t.out = (u.hostOut (s.qPort k) (s.qPasid k) (s.regN (Reg.Q_DREC k)) (destroyBytes k d s.now d.drops)).out ++ l
        ∧ (s.Sound → q.pendEnable = false → t.regB Reg.CFE_STATUS 2 = true) ∧ t.slots[k]? = some q' ∧ q'.st = (if q.pendEnable then .starting else .off) ∧ q'.error = false
        ∧ (∀ j, j ≠ k → t.slots[j]? = s.slots[j]?))

/-- R408 to R410, R453, R478: SCRIPT_LOAD and SCRIPT_PATCH bring an image in from device memory, or run by run from the host, check it, and make it the current edition, whose number is the value of the
record; an image that fails a check leaves the scripts as they were. SCRIPT_DROP takes a script away unless another names it. -/
def Obligations.ScriptCommands : Prop :=
  (∀ (s : State) (k n : Nat) (e : Bytes) (q : QSlot) (rest : List (Nat × Bytes)) (patch : Bool), s.admits k (if patch then 0x21 else 0x20) n e q rest →
    s.cmd? k n = none →
    let c : Instr := if patch then .scriptPatch k else .scriptLoad k
    let u := s.took k n e rest
    let a := argsOf e
    let h := rd a 0 2
    let bytes := rd a 16 4
    (scriptArgBad e = true → exec c s = .next (u.endCmd k n ST_Q_BAD_ARG 0))
    ∧ (scriptArgBad e = false → s.scriptStatus patch h ≠ ST_OK → exec c s = .next (u.endCmd k n (s.scriptStatus patch h) 0))
    ∧ (scriptArgBad e = false → s.scriptStatus patch h = ST_OK → 128 ≤ bytes → bytes ≤ 2 ^ 22 → bytes % 8 = 0 → rd a 2 1 = 1 →
      ∀ (v : State) (img : Bytes), u.devRead (rd a 8 8) bytes = .bytes v img →
        (v.imageBad h img bytes = none → exec c s = .next ((v.install h img).2.endCmd k n ST_OK (v.install h img).1))
        ∧ (∀ st w, v.imageBad h img bytes = some (st, w) → exec c s = .next ((v.noteRefused h img st w).endCmd k n st 0))))
  ∧ (∀ (s u : State) (slot n : Nat) (c : Cmd) (data : Bytes), s.serving = true → s.load? slot n = none → s.cmd? slot n = some c → c.status = none → c.op = 0x20 ∨ c.op = 0x21 →
    let a := argsOf c.entry
    let bytes := rd a 16 4
    let d := data.take (bytes - c.bytes.length)
    rd a 2 1 = 0 → s.access (.bulk slot n) (s.qPort slot) (s.qPasid slot) (hva (rd a 8 8 + c.bytes.length : Nat)) (max 1 d.length) false = (.ok, u) →
    exec (.bulkEngineReadData slot n data) s
      = .next (if bytes ≤ c.bytes.length + d.length then u.scriptDone slot n (c.op == 0x21) (rd a 0 2) (c.bytes ++ d) bytes
        else u.modCmd slot n (fun c => { c with bytes := c.bytes ++ d })))
  ∧ (∀ (s : State) (h : Nat) (img : Bytes), (∀ x ∈ s.scripts, x.handle = h → x.resident = true ∧ x.editions.length ≤ 8) →
    ∃ x, (s.install h img).2.current h = some x ∧ x.image = img ∧ x.num = (s.install h img).1 ∧ x.refs = 0 ∧ x.num ≠ 0
      ∧ (∀ h', h' ≠ h → (s.install h img).2.current h' = s.current h'))
  ∧ (∀ (s : State) (k n : Nat) (e : Bytes) (q : QSlot) (rest : List (Nat × Bytes)), s.admits k 0x22 n e q rest →
    let u := s.took k n e rest
    let h := rd (argsOf e) 0 2
    hdrZero e = true → allZero (slice (argsOf e) 2 38) = true →
    (s.scripts.any (fun c => c.handle == h && c.resident) = false → exec (.scriptDrop k) s = .next (u.endCmd k n ST_Q_NO_SCRIPT 0))
    ∧ (s.scripts.any (fun c => c.handle == h && c.resident) = true → s.named h = true → exec (.scriptDrop k) s = .next (u.endCmd k n ST_Q_SCRIPT_IN_USE 0))
    ∧ (s.scripts.any (fun c => c.handle == h && c.resident) = true → s.named h = false → (s.scripts.map (·.handle)).Nodup →
      ∃ t : State, exec (.scriptDrop k) s = .next (t.endCmd k n ST_OK 0) ∧ t = { u with scripts := t.scripts } ∧ t.current h = none
        ∧ (∀ h', h' ≠ h → t.current h' = s.current h') ∧ (∀ x ∈ t.scripts, x.handle = h → x.editions.all (·.refs != 0) = true)))

/-- R179, R352 to R354, R383, R401, R403 to R405, R422, R424, R429: LAUNCH is refused with the status of the first check that fails, or takes a context that binds the current edition and the LIVE versions; placement takes a die
of the least score and its least held open clusters within the slot's mask; the launch starts when its arguments and segments are read. -/
def Obligations.LaunchGoes : Prop :=
  (∀ (s : State) (k n : Nat) (e args segs : Bytes) (q : QSlot) (rest : List (Nat × Bytes)), s.admits k 1 n e q rest → s.cmd? k n = none →
    let u := s.took k n e rest
    (launchBad e = true → exec (.launch k args segs) s = .next (u.endCmd k n ST_Q_BAD_ARG 0))
    ∧ (launchBad e = false → s.ctxFor k = true → args.length = (if LEnt.argHost e then LEnt.arglen e else 0) → segs.length = 16 * LEnt.nseg e →
      let dec := u.decideAdm k (LEnt.script e) (LEnt.nous e) (LEnt.lateAbort e) (LEnt.deadline e)
      (∀ st, dec = (st, none) → exec (.launch k args segs) s = .next (u.endCmd k n st 0))
      ∧ (∀ st b, dec = (st, some b) → frameBytes b.edition.image < Img.argOff b.edition.image + LEnt.arglen e →
          exec (.launch k args segs) s = .next (u.endCmd k n ST_Q_ARG_SIZE 0))
      ∧ (∀ st b, dec = (st, some b) → Img.argOff b.edition.image + LEnt.arglen e ≤ frameBytes b.edition.image → LEnt.deadline e = 0 →
          LEnt.argHost e = false → LEnt.nseg e = 0 → ∃ t c, exec (.launch k args segs) s = .next t ∧ t.ctxs = s.ctxs ++ [c]
            ∧ c.id = s.freeId ∧ c.slot = k ∧ c.n = n ∧ c.st = .admitted ∧ c.script = LEnt.script e ∧ c.edition = b.edition.num ∧ c.versions = b.versions
            ∧ c.args = slice e 32 (LEnt.arglen e) ∧ c.tag = rd e 4 4 ∧ c.admitG = s.time.gtime ∧ t.slots = u.slots)))
  ∧ (∀ (s : State) (k n d : Nat) (p : List Nat), s.choose k n = some (d, p) → d < 8 ∧ p.length = n
      ∧ (∀ c ∈ p, c / 16 = d ∧ s.inMask k c = true ∧ s.clOpen c = true ∧ s.held c < 64)
      ∧ ∃ sc, s.pickOn k n d = some (p, sc) ∧ ∀ d' p' sc', d' < 8 → s.pickOn k n d' = some (p', sc') → sc ≤ sc')
  ∧ (∀ (s : State) (ctx : Nat) (c : Ctx), s.serving = true → s.ctx? ctx = some c →
    (∀ d l, s.turn c = some (d, l) → c.swapped = false → c.deadline = 0 → ∃ t c', exec (.placeLaunch ctx) s = .next t ∧ t.ctx? ctx = some c'
        ∧ c'.st = .placed ∧ c'.die = d ∧ c'.cls.map (·.cl) = l.map (·.1) ∧ c'.cls.map (·.base) = l.map (·.2.1)
        ∧ (∀ k ∈ c'.cls, k.running = [] ∧ k.sreg = List.replicate 32 0 ∧ k.link = [] ∧ k.exited = false) ∧ t.lastDie = d
        ∧ t = { s with ctxs := t.ctxs, lastDie := t.lastDie, clusters := t.clusters, scr := t.scr, freeCtr := t.freeCtr, ras := t.ras, regs := t.regs, out := t.out })
    ∧ (∀ u, c.st = .placed → c.cue = none → s.readArgs c = (.ok, u) →
        segTabBad (((s.edition? c.script c.edition).map (·.image)).getD []) c.segTab = false → exec (.launchStarts ctx) s = .next ((u.takeSegs c).startCtx ctx)
          ∧ ∃ t c', exec (.launchStarts ctx) s = .next t ∧ t.ctx? ctx = some c' ∧ c'.st = .running ∧ c'.started = true ∧ c'.t0 = s.time.gtime
            ∧ c'.cls.map (·.pc) = c.cls.map (·.pc) ∧ t.hbm = s.hbm ∧ t.tables = s.tables)
    ∧ (c.st ≠ .placed → exec (.launchStarts ctx) s = .next s))

/-- R404, R405, R430, R431: the segments of a launch are put into their rings in the order of the segment table while there is room, and none goes to an understudy; an understudy starts after its placement; a launch with LATEABORT is
cancelled when its deadline comes. -/
def Obligations.LaunchLife : Prop :=
  ∀ (s : State) (ctx : Nat) (c : Ctx), s.serving = true → s.ctx? ctx = some c →
    (∀ seg bytes, c.st ≠ .running ∨ c.swapped = true → exec (.segmentDelivered ctx seg bytes) s = .next s)
    ∧ (∀ g rest bytes u, c.st = .running → c.swapped = false → c.cue = none → c.segs = g :: rest → bytes.length = g.len →
        let n := ((segEntries c.segTab).filter (fun b => !segReply b)).length
        let seg := n - c.segs.length
        s.cfeRead (.args ctx) c.slot g.addr g.len = (.ok, u) →
        (∀ v r, c.ring? g.reg = some r → r.room = true → u.putSegment c g.reg bytes g.fin = some v →
          exec (.segmentDelivered ctx seg bytes) s = .next (v.modCtx ctx (fun c => { c with segs := rest })))
        ∧ (∀ r, c.ring? g.reg = some r → r.room = false → exec (.segmentDelivered ctx seg bytes) s = .next s))
    ∧ (∀ d l u c1, c.swapped = true → s.turn c = some (d, l) → s.argsIn c = (true, u) → u.ctx? ctx = some c1 → u.argsTooLong c1 c1.args.length = false →
        exec (.understudyStart ctx) s = .next (((((u.modCtx ctx (fun c => { c with segs := [] })).placeCtx c1 d l).startCtx ctx).latch Reg.CFE_STATUS 4).count Reg.CFE_SWAPS 1))
    ∧ (c.swapped = false → exec (.understudyStart ctx) s = .next s)
    ∧ (c.lateAbort = true → c.deadline ≠ 0 → c.deadline.toNat ≤ s.time.gtime.toNat → c.status = none → c.st ≠ .ended →
        ∃ u : State, exec (.deadlineReached ctx) s = .next (u.settleCtx ctx) ∧ u = { s with ctxs := u.ctxs, host := u.host }
          ∧ (u.ctx? ctx).any (fun x => x.expired && x.st == .cancelling && x.status == some ST_Q_DEADLINE && x.cls.all (·.cancelled)) = true)
    ∧ (c.lateAbort = false ∨ s.time.gtime.toNat < c.deadline.toNat → exec (.deadlineReached ctx) s = .next s)

/-- R417 to R421, R442, R512, R513: a Cue request that comes in a good frame on a network port or an ETH port is, for a bound service, admitted on its first fragment, refused with a reply when it cannot be, and dropped and counted when it is no good request, and counted in NP_RX_DROP when it is for another UDP port; a request that is
not whole in time fails; a launch that has ended sends its reply, and its name is kept for a time in which its fragments are ignored. -/
def Obligations.CueMessages : Prop :=
  (∀ (s : State) (a : Access), s.barOpen = true → onReg a Reg.CFE_CUE_BIND = true → a.size = 8 →
    ∃ t, exec (.cueBindWrite ⟨a.bar, a.off, 4, a.value⟩) s = .next t ∧ exec (.cueBindWrite a) s = exec (.cueBindWrite ⟨a.bar, a.off + 4, 4, a.value >>> 32⟩) t)
  ∧ (∀ (s : State) (a : Access), s.barOpen = true → onReg a Reg.CFE_CUE_BIND = true → a.size = 4 → s.bindings.length = 64 →
    let i := s.regF Reg.CFE_CUE_SEL 5 0
    let old := (s.bindings[i]?).getD .init
    let new := bindingOf (rwInto a Reg.CFE_CUE_BIND old.value)
    let taken := new.valid && s.bindings.any (fun b => b.valid && b.service == new.service)
    (old.valid = true → new.slot ≤ 8 → { new with valid := true } = old → ∃ t, exec (.cueBindWrite a) s = .next t ∧ t = { s with bindings := t.bindings } ∧ t.bindings[i]? = some new)
    ∧ (old.valid = true → new.slot ≤ 8 → { new with valid := true } ≠ old → ∃ t : State, exec (.cueBindWrite a) s = .next (t.latch Reg.CFE_STATUS 3)
        ∧ t = { s with bindings := t.bindings } ∧ t.bindings[i]? = some { old with valid := new.valid })
    ∧ (old.valid = false → new.slot ≤ 8 → taken = false → ∃ t, exec (.cueBindWrite a) s = .next t ∧ t = { s with bindings := t.bindings } ∧ t.bindings[i]? = some new
        ∧ (∀ j, j ≠ i → t.bindings[j]? = s.bindings[j]?))
    ∧ (8 < new.slot ∨ (old.valid = false ∧ taken = true) → exec (.cueBindWrite a) s = .next (s.latch Reg.CFE_STATUS 3)))
  ∧ (∀ (s : State) (f : CueFrame), s.barOpen = true → s.npOn f.port = true → s.npExists f.port = true →
    let b := f.payload
    let v := s.rxFrame f.port
    let r := v.noteDirect
    let tagged := (match f.eth.tag with
      | some vid => vid = s.regF (Reg.NP_CTL f.port) 11 0
      | none => s.regB (Reg.NP_CTL f.port) 29 = false)
    let taken := f.eth.len ≤ 9216 ∧ tagged ∧ f.eth.fragment = false ∧ f.eth.options = false ∧ f.eth.dstAddr = s.portAddr f.port f.v6
    (f.eth.fcsOk = false → exec (.cueRequest f) s = .next (s.count (Reg.NP_FCS_ERR f.port) 1))
    ∧ (f.eth.fcsOk = true → ¬taken ∨ f.eth.udpOk = false ∨ f.dstPort ≠ v.regF Reg.CFE_CTL 15 0 → exec (.cueRequest f) s = .next (v.count (Reg.NP_RX_DROP f.port) 1))
    ∧ (f.eth.fcsOk = true → taken → f.eth.udpOk = true → f.dstPort = v.regF Reg.CFE_CTL 15 0 →
    (r.regB Reg.CFE_CTL 31 = false ∨ cueBad b = true ∨ r.bindingOn (CueHdr.service b) = none → exec (.cueRequest f) s = .next r.dropCue)
    ∧ (∀ bd, r.regB Reg.CFE_CTL 31 = true → cueBad b = false → r.bindingOn (CueHdr.service b) = some bd →
      (∀ c m, r.ctxs.find? (·.serves f.srcAddr f.srcPort (CueHdr.msgid b)) = some c → c.cue = some m →
        exec (.cueRequest f) s = .next (r.cueFragment c m b).noteDirect)
      ∧ (r.ctxs.find? (·.serves f.srcAddr f.srcPort (CueHdr.msgid b)) = none → r.cueNames.any (·.is f.srcAddr f.srcPort (CueHdr.msgid b)) = true →
        exec (.cueRequest f) s = .next r)
      ∧ (r.ctxs.find? (·.serves f.srcAddr f.srcPort (CueHdr.msgid b)) = none → r.cueNames.any (·.is f.srcAddr f.srcPort (CueHdr.msgid b)) = false →
        (r.slots[bd.slot]?).any (fun q => q.st != .on) = true → r.pwr.lost = false → exec (.cueRequest f) s = .next (r.refuseCue (cueMsgOf f s.time.gtime) ST_Q_SLOT_OFF).noteDirect))))
  ∧ (∀ (s : State) (bd : Binding) (m : CueMsg) (b : Bytes) (st : Nat) (x : Bound), s.pwr.lost = false → (s.slots[bd.slot]?).any (fun q => q.st == .on) = true → s.belowMax bd.slot = true →
    0 < s.freeCtxs → s.decideAdm bd.slot bd.script bd.nous bd.lateAbort m.deadline = (st, some x) → cueSegStatus x.edition.image b = ST_OK → m.time = 0 →
    ∃ c, (s.cueNew bd m b).ctxs = s.ctxs ++ [c] ∧ c.cue = some (m.place b) ∧ c.slot = bd.slot ∧ c.script = bd.script ∧ c.st = .admitted ∧ c.versions = x.versions)
  ∧ (∀ (s : State) (ctx : Nat) (c : Ctx) (m : CueMsg), s.serving = true → s.ctx? ctx = some c → c.cue = some m →
    (exec (.reassemblyTimeout ctx) s = .next (if m.frags.length < m.nfrag ∧ m.first.toNat + 4000 * s.regF Reg.CFE_CUE 31 16 ≤ s.time.gtime.toNat
      then s.failCtx ctx ST_Q_CUE_INCOMPLETE else s))
    ∧ (c.st ≠ .ended → exec (.cueReply ctx) s = .next s)
    ∧ (c.st = .ended → s.scopeClear c.scope c.wrote = false → exec (.cueReply ctx) s = .next (s.scopeSnoop c.wrote))
    ∧ (c.st = .ended → s.scopeClear c.scope c.wrote = true → ∃ t u : State, exec (.cueReply ctx) s = .next (u.releaseCtx ctx) ∧ u.time = s.time
        ∧ t = { s with regs := t.regs, out := t.out } ∧ t.out = (s.scopeRead c.scope (s.qPort c.slot) c.wrote).out
        ∧ u = { t.sendReply m (c.status.getD ST_OK) c.finish c.slip c.fate (if c.status.getD ST_OK = ST_OK then c.reply else []) with cueNames := u.cueNames }
        ∧ (∀ x ∈ u.cueNames, x.is m.src m.srcPort m.msgid = true → x.until_.isSome = true)))
  ∧ (∀ (s : State) (src srcPort msgid : Nat), s.serving = true → ∃ t, exec (.messageNameExpires src srcPort msgid) s = .next t ∧ t = { s with cueNames := t.cueNames }
      ∧ (∀ x, x ∈ t.cueNames ↔ x ∈ s.cueNames ∧ ¬(x.is src srcPort msgid = true ∧ x.until_.any (fun t => decide (t.toNat ≤ s.time.gtime.toNat)) = true)))

/-! ## The host -/

/-- R452, R456 to R463: a translation that comes back is kept in the cache and in the buffer of its requester when it lets the access go on; one that does not asks for the page once, and an
access that fails is recorded, counted and fails its requester. A page request is answered with a new try, or with the failure of all that wait for it, which for Response Failure
holds for the whole port; faults beyond the host's allocation then have their turn, and a response with no waiter is only counted. Disabling PASID, ATS or PRI fails what waits. A write
within a page goes out at its translated address, and its lines leave the host line cache. An invalidation takes every translation of the range, and is then answered. -/
def Obligations.HostTranslation : Prop :=
  (∀ (s : State) (x : Nat) (w : XWait), s.serving = true → s.host.waits.find? (fun w => w.id == x && w.group.isNone) = some w →
    let u : State := { s with host := { s.host with waits := s.host.waits.filter (fun v => !(v.id == x)) } }
    (∀ r k log2 phys, (if w.write then k else r) = true → ∃ t e, exec (.atsCompletion x (.grant r k log2 phys)) s = .next t ∧ t = { u with host := t.host }
        ∧ e = ⟨none, w.port, w.pasid, w.addr / 4096, max 12 (min 30 log2), phys, r, k⟩ ∧ e ∈ t.host.xlats ∧ { e with buf := some w.who.buf } ∈ t.host.xlats
        ∧ t.host.waits = u.host.waits)
    ∧ (∀ r k log2 phys, (if w.write then k else r) = false → exec (.atsCompletion x (.grant r k log2 phys)) s
        = .next (u.faultAt w.who w.port w.pasid w.addr w.write w.retried).2)
    ∧ exec (.atsCompletion x .ur) s = .next (u.xlatFail w.who w.pasid w.addr w.write ST_XLAT_FATAL)
    ∧ exec (.atsCompletion x .ca) s = .next (u.xlatFail w.who w.pasid w.addr w.write ST_XLAT_FATAL)
    ∧ exec (.atsTimeout x) s = .next (if w.since.toNat + ms (s.regF Reg.XLT_CTL 15 0) ≤ s.time.gtime.toNat then u.xlatFail w.who w.pasid w.addr w.write ST_XLAT_TIMEOUT else s))
  ∧ (∀ (s : State) (cl ctx op pasid addr st : Nat) (write : Bool), s.Sound → addr < 2 ^ 64 →
    let t := s.xlatFail (.te cl ctx op) pasid addr write st
    t.regN Reg.XLT_FAULT_ADDR = addr ∧ t.reg Reg.XLT_FATAL = s.reg Reg.XLT_FATAL + 1
      ∧ t.reg Reg.XLT_FAULT = BitVec.ofNat 64 (st * 2 ^ 48 + pasid * 2 ^ 28 + b2n write * 2 ^ 27 + 4 * 2 ^ 24 + cl * 2 ^ 12 + ctx)
      ∧ t.regB Reg.HST_STATUS (if st = ST_XLAT_OFF then 1 else 0) = true)
  ∧ (∀ (s : State) (g : Nat) (x : PGroup), s.serving = true → s.host.groups.find? (·.id == g) = some x → s.host.waits.any (·.group == some g) = true → g < s.host.nextId →
    (∃ t, exec (.pageRequestResponse g .success) s = .next t
        ∧ t = ((s.leaveGroup g).1.foldl (fun s w => s.atsRequest w.who w.port w.pasid w.addr w.write true) (s.leaveGroup g).2).admitFull x.port
        ∧ (∀ w ∈ t.host.waits, w.group ≠ some g) ∧ (∀ y ∈ t.host.groups, y.id ≠ g))
    ∧ exec (.pageRequestResponse g .invalid) s = .next ((s.failGroup g ST_XLAT_FATAL).admitFull x.port)
    ∧ (∃ t, exec (.pageRequestResponse g .failure) s = .next t ∧ (t.host.ports[x.port]?).all (·.priFailed) = true ∧ (∀ y ∈ t.host.groups, y.port ≠ x.port)
        ∧ (∀ y ∈ t.host.waits, y.port = x.port → y.group = none) ∧ (∀ y ∈ t.host.full, y.port ≠ x.port))
    ∧ (x.since.toNat + ms (s.regF Reg.XLT_CTL 31 16) ≤ s.time.gtime.toNat → exec (.priTimeout g) s = .next ((s.failGroup g ST_XLAT_TIMEOUT).admitFull x.port)))
  ∧ (∀ (s : State) (g : Nat) (r : PriResult), s.serving = true → s.host.groups.find? (·.id == g) = none → s.host.waits.any (·.group == some g) = false →
    exec (.pageRequestResponse g r) s = .next (s.count Reg.XLT_PRI_LATE 1) ∧ exec (.priTimeout g) s = .next s)
  ∧ (∀ (s : State) (g : Nat) (x : PGroup) (r : PriResult), s.serving = true → s.host.groups.find? (·.id == g) = some x → s.host.waits.any (·.group == some g) = false →
    exec (.pageRequestResponse g r) s = .next (((s.count Reg.XLT_PRI_LATE 1).leaveGroup g).2.admitFull x.port))
  ∧ (∀ (s : State) (g : Nat) (r : PriResult), s.pwr.powered = true → s.pwr.rstN = true → s.pwr.warm = true →
    exec (.pageRequestResponse g r) s = .next (s.count Reg.XLT_PRI_LATE 1))
  ∧ (∀ (s : State) (port pasid addr : Nat) (b : Bytes), b ≠ [] → addr / 4096 = (addr + b.length - 1) / 4096 →
    let phys := s.physOf port pasid addr
    s.hostOut port pasid addr b = { s with
      out := s.out ++ [.hostWrite port pasid phys true b], host := { s.host with hlc := s.host.hlc.filter (fun l => decide (l < phys / 64) || decide ((phys + b.length - 1) / 64 < l)) } })
  ∧ (∀ (s : State) (p itag pasid page log2 : Nat) (global : Bool), s.serving = true →
    (∃ t, exec (.invalidateRequest p itag pasid page log2 global) s = .next t ∧ t = { s with host := t.host, regs := t.regs }
      ∧ t.host = { s.host with xlats := t.host.xlats, invals := s.host.invals ++ [(p, itag)] }
      ∧ (∀ x ∈ t.host.xlats, x ∈ s.host.xlats ∧ ∀ a, x.port = p → (global = true ∨ x.pasid = pasid) → a / 2 ^ log2 = page * 4096 / 2 ^ log2 → x.covers p x.pasid a = false)
      ∧ (∀ x ∈ s.host.xlats, x.port ≠ p ∨ (global = false ∧ x.pasid ≠ pasid) → x ∈ t.host.xlats))
    ∧ ((p, itag) ∈ s.host.invals → ∃ t, exec (.invalidateCompletion p itag) s = .next t ∧ t.out = s.out ++ [.invalComplete p itag]
      ∧ t = { s with host := { s.host with invals := s.host.invals.erase (p, itag) }, out := t.out }))
  ∧ (∀ (s : State) (p : Nat) (h : HPort) (pasid ats : Bool) (pri : Option Nat), s.host.ports[p]? = some h → h.up = true →
    let h1 : HPort := { h with pasid := pasid, ats := ats, pri := pri.isSome, alloc := pri.getD h.alloc, priFailed := h.priFailed && !(pri.isSome && !h.pri) }
    let u := s.modHPort p (fun _ => h1)
    exec (.pasidAtsPriEnable p pasid ats pri) s = .next (if pasid && ats && pri.isSome then u.admitFull p else u.failWaits p ST_XLAT_OFF)
    ∧ ((∀ w ∈ s.host.waits ++ s.host.full, w.port ≠ p) → exec (.pasidAtsPriEnable p pasid ats pri) s = .next u))

/-- R449 to R451, R454, R469 to R472, R476, R480 to R483: a host port comes up with its width and rate and presents its function, and goes down with what waits on it; a decoder is committed once; HST_HDM is dropped
with an error while one is. The host's reads and writes of the general region go to the device address of its decoder: a write stores the bytes and no others, a read answers
what stands there, with poison where a granule is poisoned or a stack has failed. A line that the host gives up is its no more. -/
def Obligations.HostMemory : Prop :=
  (∀ (s : State) (p : Nat) (h : HPort), s.host.ports[p]? = some h →
    (∀ width rate cache mem, s.up = true → p < 2 → 1 ≤ width → width ≤ 16 → ∃ t, exec (.hostLinkUp p width rate cache mem) s = .next t ∧ t = { s with host := t.host, out := t.out }
        ∧ t.out = s.out ++ [.hostFn p ⟨0, 2, Config.deviceSerial, 2 ^ 28, 2 ^ 20, true, false, (s.hdmRange p).2 - (s.hdmRange p).1, 512⟩]
        ∧ t.host = { s.host with ports := t.host.ports } ∧ t.host.ports[p]? = some { h with up := true, width := width, rate := rate, cache := cache, mem := mem })
    ∧ (h.up = true → s.Sound → ∃ t, exec (.hostLinkDown p) s = .next t ∧ t.host.ports[p]? = some { h with up := false, width := 0, rate := 0 }
        ∧ t.regB Reg.HST_STATUS 2 = true ∧ t.tables = s.tables ∧ t.time = s.time)
    ∧ (h.up = false → exec (.hostLinkDown p) s = .next s ∧ exec (.globalPersistentFlush p) s = .next s)
    ∧ (h.up = true → exec (.globalPersistentFlush p) s = .next (s.emit (.gpfAck p)))
    ∧ (∀ base, h.up = true → h.hdm = none → ∃ t, exec (.hdmDecoderCommit p base) s = .next t ∧ t = { s with host := { s.host with ports := t.host.ports } }
        ∧ t.host.ports[p]? = some { h with hdm := some base })
    ∧ (∀ base b, h.up = true → h.hdm = some b → exec (.hdmDecoderCommit p base) s = .next s))
  ∧ (∀ (s : State) (v : BitVec 32), s.barOpen = true →
    (s.host.ports.any (·.hdm.isSome) = true ∨ fld v.toNat 15 14 = 3 → exec (.hstHdmWrite v) s = .next (s.latch Reg.HST_STATUS 5))
    ∧ (s.host.ports.any (·.hdm.isSome) = false → fld v.toNat 15 14 ≠ 3 →
      let u := s.setRegN Reg.HST_HDM (min (fld v.toNat 26 16) (s.hdmSize / 2 ^ 30) * 2 ^ 16 + fld v.toNat 15 14 * 2 ^ 14 + 0x0FC)
      ∃ t, exec (.hstHdmWrite v) s = .next t ∧ t = { u with out := t.out }
        ∧ t.out = s.out ++ ((List.range 2).filter s.portIsUp).map (fun p => .hostFn p ⟨0, 2, Config.deviceSerial, 2 ^ 28, 2 ^ 20, true, false, (u.hdmRange p).2 - (u.hdmRange p).1, 512⟩)))
  ∧ (∀ (s : State) (line : Nat), ∃ t, exec (.hostSnoop line) s = .next t ∧ t = { s with host := { s.host with hlc := t.host.hlc }, out := s.out ++ [.snoopResp line] }
      ∧ (∀ l, l ∈ t.host.hlc ↔ l ∈ s.host.hlc ∧ l ≠ line))
  ∧ (∀ (s : State) (addr a : Nat) (b : Bytes) (poison keeps : Bool), s.barOpen = true → s.hdmAddr addr = some a → b ≠ [] → a % 64 + b.length ≤ 64 →
    (s.mem.state.any (· == 2) = false → ∃ t, exec (.cxlMemAccess true addr b poison keeps) s = .next t ∧ t = { s with hbm := t.hbm, mem := t.mem }
        ∧ (s.Sound → t.hbm.read a b.length = b) ∧ (∀ c, c < a ∨ a + b.length ≤ c → t.hbm.get c = s.hbm.get c)
        ∧ (a / 64 ∈ t.mem.dirLines ↔ keeps = true))
    ∧ (s.mem.state.any (· == 2) = false →
      let bad := granulesIn s.mem.bad a b.length
      let old := granulesIn s.mem.poisoned a b.length
      (bad = [] → old = [] → ∃ t, exec (.cxlMemAccess false addr b poison keeps) s = .next t
        ∧ t.out = s.out ++ [.cxlData addr (s.hbmRead a b.length) false] ∧ t = { s with out := t.out, mem := { s.mem with dirLines := t.mem.dirLines, snoops := t.mem.snoops } }
        ∧ (keeps = true → a / 64 ∈ t.mem.dirLines ∧ (a / 64, false, true) ∉ t.mem.snoops))
      ∧ (bad ≠ [] ∨ old ≠ [] → ∃ t l, exec (.cxlMemAccess false addr b poison keeps) s = .next t ∧ t.out = s.out ++ l ++ [.cxlData addr (s.hbmRead a b.length) true]
        ∧ t.hbm = s.hbm ∧ (∀ g ∈ bad, g ∈ t.mem.poisoned ∧ g ∉ t.mem.bad)))
    ∧ (s.mem.state.any (· == 2) = true → exec (.cxlMemAccess true addr b poison keeps) s = .next s
        ∧ exec (.cxlMemAccess false addr b poison keeps) s = .next (s.emit (.cxlData addr (s.hbmRead a b.length) true))))
  ∧ (∀ (s : State) (addr : Nat) (write : Bool) (b : Bytes) (poison keeps : Bool), s.barOpen = true → s.hdmAddr addr = none → exec (.cxlMemAccess write addr b poison keeps) s = .next s)
  ∧ (∀ (s : State) (line : Nat) (inv : Bool) (dirty : Option Bytes), s.serving = true →
      s.mem.snoops.find? (fun x => x.1 == line && !x.2.2) = some (line, inv, false) →
      ∃ t, exec (.bisnpComplete line dirty) s = .next t ∧ t = { s with hbm := t.hbm, mem := t.mem }
        ∧ (inv = true → line ∉ t.mem.dirLines) ∧ (inv = false → (line, false, true) ∈ t.mem.snoops)
        ∧ (dirty = none → t.hbm = s.hbm) ∧ (∀ b, dirty = some b → b.length = 64 → s.Sound → t.hbm.read (line * 64) 64 = b))

/-! ## Links, networks and time -/

/-- R494 to R511, R523, R543: LNK_NODE and LNK_TOPO are dropped with an error while the links stand on them; a port that LNK_CTL enables trains when it has its laser input, sends IDENT, and comes UP when the neighbour is the one that the map
requires, else it is MISWIRED. A good flit in order is received, one that was received before is dropped, any other, and a bad one, starts a replay; a good one is acknowledged; a control flit or an idle one takes no LSEQ; RETRY_REQ sends what is held again, up to eight times; a port whose budget is spent FAILS, and one that is UP and trains again, for the far end's sake, has gone down first.
A packet for another node goes on by R504.
R493, R499, R507: what a port sends is a flit that waits, of a sub-channel that has a credit, the one whose turn comes first after the sub-channel granted last; it takes the next LSEQ, is kept for
replay and spends the credit; with as many flits kept as the port has room for, 128 on an E-port and 1,024 on an O-port, nothing is sent. Bulk and chorus traffic takes at most BULK_PCT
percent of an E-port's flits while another class waits (how that share is counted is the model's, log entry 96).
R30, R33, R36, R92: a port of a spine passes on the oldest packet of one of the buffers whose oldest packet leaves by it, the one whose turn comes first after the buffer granted last;
the owner side of a GPE takes a request of the requester whose turn comes first after the one granted last.
R111, R498, R500: a packet header, a partial of a pooled mode and a flit are read as they are written. -/
def Obligations.Links : Prop :=
  ((∀ (s : State) (v : BitVec 32), s.barOpen = true →
     let ctl := fld v.toNat 31 29 * 2 ^ 29 + fld v.toNat 7 0
     (s.regB Reg.LNK_CTL 30 = true ∨ s.tables ≠ [] → exec (.lnkNodeWrite v) s = .next (s.latch Reg.LNK_STATUS 3))
     ∧ (s.regB Reg.LNK_CTL 30 = false → s.tables = [] → ∃ t, exec (.lnkNodeWrite v) s = .next t ∧ t.link = { s.link with z := fld v.toNat 7 4 } ∧ t = { s with link := t.link, out := t.out })
     ∧ (s.regB Reg.LNK_CTL 31 = true ∨ s.regB Reg.LNK_CTL 30 = true ∨ (2 ≤ s.map ∧ fld v.toNat 7 2 ≠ 0) → exec (.lnkTopoWrite v) s = .next (s.latch Reg.LNK_STATUS 3))
     ∧ (s.regB Reg.LNK_CTL 31 = false → s.regB Reg.LNK_CTL 30 = false → (2 ≤ s.map → fld v.toNat 7 2 = 0) → exec (.lnkTopoWrite v) s = .next (s.setRegN Reg.LNK_TOPO (fld v.toNat 7 0)))
     ∧ (∀ n, s.lit n = (decide (n < 24) || (s.lasEn && s.link.laser.getLsbD (n - 24))))
     ∧ (∀ c : Instr, c = .eEn v ∨ c = .oEn v ∨ c = .twinEn v → ∃ t, exec c s = .next t ∧ t = { s.setRegN Reg.LNK_CTL ctl with link := t.link }
         ∧ (∀ n l, s.link.ports[n]? = some l →
           (s.enabled v.toNat n = false → t.link.ports[n]? = some LPort.init)
           ∧ (s.enabled v.toNat n = true → s.enabled (s.regN Reg.LNK_CTL) n = false → t.link.ports[n]? = some { LPort.init with st := if (s.setRegN Reg.LNK_CTL ctl).lit n then 1 else 0 })
           ∧ (s.enabled v.toNat n = true → s.enabled (s.regN Reg.LNK_CTL) n = true → l.miswired = false → t.link.ports[n]? = some l))))
   ∧ (∀ (s : State) (n : Nat) (l : LPort), s.serving = true → s.link.ports[n]? = some l →
     let put (x : LPort) : State := s.modLPort n (fun _ => x)
     (∀ lanes, s.enabled (s.regN Reg.LNK_CTL) n = true → s.lit n = true → l.st ≤ 3 → l.miswired = false → 1 ≤ lanes → lanes ≤ 4 →
       (l.st ≠ 2 → exec (.portTrained n lanes) s = .next ((put { l with st := 1, lanes := lanes }).sendEmpty n true (identPayload s.node n s.map)))
       ∧ (l.st = 2 → exec (.portTrained n lanes) s = .next (((s.portFails n l).modLPort n (fun l => { l with st := 1, lanes := lanes })).sendIdent n)))
     ∧ (∀ lanes, s.lit n = false → exec (.portTrained n lanes) s = .next s)
     ∧ (∀ node port map, l.st = 1 → 0 < l.lanes →
       (node = s.neighbour (dirOf s.map n) ∧ map = s.map ∧ some port = s.pairedPort n →
         exec (.ident n node port map) s = .next (put { LPort.init with st := 2, peer := node, peerPort := port, lanes := l.lanes }))
       ∧ (¬(node = s.neighbour (dirOf s.map n) ∧ map = s.map ∧ some port = s.pairedPort n) → ∃ t, exec (.ident n node port map) s = .next t
         ∧ (t.link.ports[n]?).any (fun x => x.st == 3 && x.miswired) = true ∧ t = { s with link := t.link, regs := t.regs, out := t.out }))
     ∧ (∀ f : Flit, l.st = 2 → f.fecCorrected = false →
       let v := (put (l.header f)).portGo n
       let ask (u : State) : State := ((u.modLPort n (fun l => { l with retrying := true })).count (Reg.LNK_REPLAYS n) 1).sendEmpty n true (retryPayload l.rxNext)
       (f.fecBad = false → f.crcBad = true → exec (.flit n f) s = .next (ask (s.count (Reg.LNK_CRC_ERR n) 1)))
       ∧ (f.fecBad = true → f.crcBad = false → exec (.flit n f) s = .next (ask (s.count (Reg.LNK_FEC_UNCORR n) 1)))
       ∧ (f.fecBad = false → f.crcBad = false →
         (f.ctrl = true → exec (.flit n f) s = .next (if rd f.payload 0 1 = 1 then v.replay n (rd f.payload 2 2 % 4096)
           else if rd f.payload 0 1 = 2 then v.identified n (rd f.payload 2 2) (rd f.payload 4 1) (rd f.payload 5 1) else v))
         ∧ (f.ctrl = false → f.idle = true → exec (.flit n f) s = .next v)
         ∧ (f.ctrl = false → f.idle = false → f.lseq = l.rxNext → f.lseq < 4096 → ∃ t x k c o, exec (.flit n f) s = .next t ∧ t.link.ports[n]? = some x
             ∧ x.rxNext = (f.lseq + 1) % 4096 ∧ x.retrying = false ∧ x.st = 2 ∧ t.out = o ++ [.flits n [emptyFlit false [] (some f.lseq) k c]]
             ∧ t = { s with link := t.link, out := t.out, regs := t.regs })
         ∧ (f.ctrl = false → f.idle = false → f.lseq ≠ l.rxNext → (l.rxNext + 4096 - f.lseq) % 4096 ≤ 2048 ∨ l.retrying = true → exec (.flit n f) s = .next v)
         ∧ (f.ctrl = false → f.idle = false → f.lseq ≠ l.rxNext → 2048 < (l.rxNext + 4096 - f.lseq) % 4096 → l.retrying = false → exec (.flit n f) s = .next (ask v))))
     ∧ (∀ lseq i, l.st = 2 → l.tx.findIdx? (·.lseq == lseq) = some i →
       let k := if l.replaySeq = lseq then l.replays else 0
       (k < 8 → exec (.retryReq n lseq) s = .next ((put { l with replaySeq := lseq, replays := k + 1, failAt := l.failAt.or (some s.time.gtime) }).emit
           (.flits n ((l.tx.drop i).map (fun t => t.flit s.node l.lack 0 0)))))
       ∧ (8 ≤ k → exec (.retryReq n lseq) s = .next s))
     ∧ (l.st = 2 → (8 ≤ l.replays ∨ l.failAt.any (fun t => decide (t.toNat + 16000 ≤ s.time.gtime.toNat)) = true) →
         let u := s.portFails n l
         exec (.retryBudgetExhausted n) s
           = .next (if (portsOf s.map (dirOf s.map n)).all (fun p => (u.link.ports[p]?).any (·.st == 3)) then u.reportSuspect (s.neighbour (dirOf s.map n)) true else u))
     ∧ ((s.portFails n l).link.ports[n]? = some { LPort.init with st := 3 } ∧ (l.wait = [] → s.portFails n l = (put { LPort.init with st := 3 }).latch Reg.LNK_STATUS 0))
     ∧ (l.st = 2 → l.replays < 8 → l.failAt = none → exec (.retryBudgetExhausted n) s = .next s))
   ∧ (∀ (s : State) (inPort : Option Nat) (p : Packet), s.serving = true →
     (locNode p.dst = s.node → exec (.forward inPort p) s = .next (if p.pcrcOk = false ∨ p.type = 0 ∨ 9 < p.type then s.count Reg.LNK_PKT_BAD 1 else s))
     ∧ (locNode p.dst ≠ s.node → locNode p.dst ∈ s.ras.lostNodes → exec (.forward inPort p) s = .next s)
     ∧ (locNode p.dst ≠ s.node → locNode p.dst ∉ s.ras.lostNodes → (p.type ≠ 2 ∨ inPort = none) →
       let r := s.route (inPort.map (fun n => oppDir (dirOf s.map n))) p.dl p.dst p.vc
       (r = none → exec (.forward inPort p) s = .next (s.latch Reg.LNK_STATUS 2))
       ∧ (∀ port dl, r = some (port, dl) → exec (.forward inPort p) s
           = .next ((if inPort.isSome then s.count Reg.LNK_FWD 1 else s).transmit ⟨p.dst, locDie p.src, p.tag, p.gen, .raw p⟩ port dl)))))
  ∧ (∀ (l : LPort) (n pct : Nat), l.last < 8 →
       let may (k : Nat) : Prop := k < 8 ∧ (∃ w ∈ l.wait, w.sub = k) ∧ keyGet 0 l.spent k < creditLimit n k ∧ (k < 6 ∨ l.bulkMay n pct = true)
       (∀ t l1, l.next n pct = some (t, l1) →
         l.tx.length < (if n < 24 then 128 else 1024) ∧ may t.sub ∧ (∀ k, may k → (t.sub + 7 - l.last) % 8 ≤ (k + 7 - l.last) % 8)
         ∧ t.lseq = l.txNext ∧ (∃ w ∈ l.wait, t = { w with lseq := l.txNext } ∧ l1.wait = l.wait.erase w)
         ∧ l1.tx = l.tx ++ [t] ∧ l1.txNext = (l.txNext + 1) % 4096 ∧ l1.last = t.sub ∧ keyGet 0 l1.spent t.sub = keyGet 0 l.spent t.sub + 1)
       ∧ (l.tx.length < (if n < 24 then 128 else 1024) → (∃ k, may k) → (l.next n pct).isSome = true)
       ∧ ((if n < 24 then 128 else 1024) ≤ l.tx.length → l.next n pct = none)
       ∧ (24 ≤ n ∨ l.contested n = false → l.bulkMay n pct = true)
       ∧ (n < 24 → l.contested n = true → (l.bulkMay n pct = true ↔ 100 * (l.contest.1 + 1) ≤ pct * (l.contest.2 + 1))))
  ∧ ((∀ (n : Noc) (d o : Nat) (k : Nat × Nat × Nat) (x : Flying), n.grant d o = some (k, x) → k.1 = d ∧ x.out d = o ∧ (∃ l, (k, x :: l) ∈ n.bufs)
         ∧ (∀ j y l, (j, y :: l) ∈ n.bufs → j.1 = d → y.out d = o →
             (4 * k.2.1 + k.2.2 + 87 - keyGet 87 n.granted (d, o)) % 88 ≤ (4 * j.2.1 + j.2.2 + 87 - keyGet 87 n.granted (d, o)) % 88))
     ∧ (∀ (n : Noc) (d o : Nat) (k : Nat × Nat × Nat) (x : Flying) (l : List Flying), (k, x :: l) ∈ n.bufs → k.1 = d → x.out d = o → (n.grant d o).isSome = true)
     ∧ (∀ g : Gpe, (g.asked ≠ [] → g.takes.isSome = true)
         ∧ (∀ q, g.takes = some q → q ∈ g.asked ∧ ∀ r ∈ g.asked, (q.src + 32767 - g.askedLast) % 32768 ≤ (r.src + 32767 - g.askedLast) % 32768))
     ∧ (∀ (s : State) (die : Nat) (g : Gpe) (q : PoolReqPkt), s.gpes[die]? = some g → g.takes = some q → ∃ t, s.ownerTurn die = t
         ∧ t.pending = s.pending ++ [.poolReq die ⟨q, []⟩] ∧ t.gpes[die]? = some { g with asked := g.asked.erase q, askedLast := q.src }
         ∧ t = { s with gpes := t.gpes, pending := t.pending }))
  ∧ ((∀ h : Head, h.dst < 2 ^ 16 → h.src < 2 ^ 16 → h.type < 256 → h.gen < 256 → h.len < 2 ^ 16 → h.tag < 2 ^ 32 → Head.ofBytes h.bytes = some h ∧ h.bytes.length = 16)
     ∧ (∀ p : PartialPkt, p.ctx < 4096 → p.op < 2 ^ 16 → p.op % 8192 < 1024 → p.bag < 2 ^ 16 → p.mode < 256 → p.gen < 256 → p.owners < 2 ^ 16 → p.flags < 64 → p.count < 2 ^ 32 → p.rows = [] →
         ∀ h : Head, h.src = p.src → h.dst = p.dst → h.tag = p.tag → partialOf h (partialBytes p) = p)
     ∧ (∀ f : Flit, f.vc < 4 → f.dl < 2 → f.lseq < 4096 → (∀ a, f.ack = some a → a < 4096) → f.crSub < 8 → f.crN < 256 → f.payload.length ≤ 240 →
         (flitBytes f).length = 256 ∧ flitOf f.fecCorrected f.fecBad (flitBytes f) = { f with crcBad := false }))

/-- R512 to R514, R525, R527, R528: a frame that no protocol claims is answered when it asks for the port's own address, and counted as dropped else; a PFC frame sets and ends pauses, and a frame of a paused priority waits (a
quantum's time in ticks is the model's, log entry 98). A connection starts READY at PSN 0 and full rate
with VALID, a write of 64 bits being its two words with the low one first (log entry 70), takes rows and acknowledgements in PSN order, tries again eight times, and enters ERROR with a cause, ending what runs on it, which it leaves by VALID 0 and then 1; its rate is halved and recovers by 5 %. -/
def Obligations.NetworkPorts : Prop :=
  (∀ (s : State) (p : Nat), s.serving = true → s.npOn p = true → s.npExists p = true →
    (∀ tag len query target v6, exec (.npFrame p tag len false query target v6) s = .next (s.count (Reg.NP_FCS_ERR p) 1))
    ∧ (∀ (tag : Option Nat) len query target v6,
        let tagged := (match tag with
          | some vid => vid = s.regF (Reg.NP_CTL p) 11 0
          | none => s.regB (Reg.NP_CTL p) 29 = false)
        (len ≤ 9216 ∧ tagged ∧ query = true ∧ target = s.portAddr p v6 → exec (.npFrame p tag len true query target v6) s = .next ((s.rxFrame p).sendFrame p (.arp p target v6)))
        ∧ (¬(len ≤ 9216 ∧ tagged ∧ query = true ∧ target = s.portAddr p v6) → exec (.npFrame p tag len true query target v6) s
          = .next ((s.rxFrame p).count (Reg.NP_RX_DROP p) 1)))
    ∧ (∀ prios quanta, ∃ t : State, exec (.pfcFrameReceived p prios quanta) s = .next t.resumeFrames ∧ t = { (s.rxFrame p).count (Reg.NP_PFC_RX p) 1 with net := { s.net with paused := t.net.paused } }
        ∧ (∀ k q, (p, k, q) ∈ t.net.paused → k < 8 → prios.getLsbD k = true → (t.regF (Reg.NP_CTL p) 23 16).testBit k = true →
            q = s.time.gtime.toNat + (quanta.getD k 0 * 256 + 99) / 100 ∧ quanta.getD k 0 ≠ 0)
        ∧ (∀ p' k q, p' ≠ p → ((p', k, q) ∈ t.net.paused ↔ (p', k, q) ∈ s.net.paused)))
    ∧ (∀ prio o, s.paused p prio = true → s.sendPrio p prio o = { s with net := { s.net with held := s.net.held ++ [(p, prio, o)] } })
    ∧ (∀ prio o, s.paused p prio = false → s.net.held.any (fun e => e.1 == p && e.2.1 == prio) = false → s.sendPrio p prio o = s.sendFrame p o))
  ∧ (∀ (s : State) (p : Nat), s.up = true → p < s.net.link.length →
    (s.npExists p = true → ∃ t, exec (.npLinkUp p) s = .next t ∧ t = { s with net := { s.net with link := t.net.link } } ∧ t.net.link[p]? = some true)
    ∧ (s.net.link[p]? = some true → s.Sound → ∃ t, exec (.npLinkDown p) s = .next t ∧ t.net.link[p]? = some false ∧ t.regB Reg.LNK_STATUS 5 = true
        ∧ (∀ e ∈ t.net.paused, e.1 ≠ p) ∧ (∀ c r, c < 64 → t.net.roce[c]? = some r → r.port = p → r.st ≠ 1))
    ∧ (s.net.link[p]? = some false → exec (.npLinkDown p) s = .next s))
  ∧ (∀ (s : State) (a : Access), s.barOpen = true → onReg a Reg.NP_ROCE_CFG = true → a.size = 8 →
    ∃ t, exec (.roceValidWrite ⟨a.bar, a.off, 4, a.value⟩) s = .next t ∧ exec (.roceValidWrite a) s = exec (.roceValidWrite ⟨a.bar, a.off + 4, 4, a.value >>> 32⟩) t)
  ∧ (∀ (s : State) (a : Access) (r : Roce), s.barOpen = true → onReg a Reg.NP_ROCE_CFG = true → a.size = 4 → s.net.roce[s.roceSel]? = some r →
    let v := rwInto a Reg.NP_ROCE_CFG r.cfg
    (r.valid = false → v.testBit 63 = true → ∃ t, exec (.roceValidWrite a) s = .next t ∧ t = { s with net := t.net } ∧ (t.net.roce[s.roceSel]?).any (fun x => x.valid && x.st == 1
        && x.psn == 0 && x.rate == 100 && x.retries == 0 && x.port == fld v 62 59 && x.prio == fld v 58 56 && x.ackUs == fld v 31 24 && x.rqpn == fld v 23 0) = true)
    ∧ (r.valid = false → v.testBit 63 = false → exec (.roceValidWrite a) s = .next (s.modRoce s.roceSel (fun r => r.withCfg v)))
    ∧ (r.valid = true → v.testBit 63 = true → exec (.roceValidWrite a) s = .next (if r.withCfg v = r then s else s.latch Reg.LNK_STATUS 3))
    ∧ (r.valid = true → v.testBit 63 = false → ∃ t, exec (.roceValidWrite a) s = .next t ∧ (t.net.roce[s.roceSel]?).any (fun x => !x.valid && x.st == (if r.st = 2 then 2 else 0) && x.reads.isEmpty && x.writes.isEmpty) = true))
  ∧ (∀ (s : State) (c : Nat) (r : Roce), s.serving = true → s.net.roce[c]? = some r → r.st = 1 →
    let put (x : Roce) : State := s.modRoce c (fun _ => x)
    (∀ psn k n first m rest rows, r.reads = (psn, k, n, first, m) :: rest → rows ≠ [] →
      let got := rows.take m
      let left := if got.length = m then rest else (psn, k, n, first + got.length, m - got.length) :: rest
      exec (.roceReadResponse c psn rows) s = .next (((put { r with reads := left, retries := 0, since := s.time.gtime }).loadImages k n (got.map (·.image))).roceGo c))
    ∧ (∀ psn i, r.writes.idxOf? psn = some i → r.dumping = false → exec (.roceAcknowledgement c psn) s
        = .next (put { r with writes := r.writes.drop (i + 1), retries := 0, since := s.time.gtime }))
    ∧ (∀ psn, r.writes.idxOf? psn = none → exec (.roceAcknowledgement c psn) s = .next s)
    ∧ (∀ q, r.oldest = some q → r.since.toNat + 4000 * r.ackUs ≤ s.time.gtime.toNat → exec (.roceAckTimeout c) s
        = .next (if 7 ≤ r.retries then s.roceError c ST_ROCE_RETRY else (put { r with retries := r.retries + 1, since := s.time.gtime }).sendPrio r.port r.prio (.roceResend c q)))
    ∧ (r.oldest = none → exec (.roceAckTimeout c) s = .next s)
    ∧ exec (.roceNak c) s = .next (s.roceError c ST_ROCE_REMOTE)
    ∧ (∀ cause, s.loads.all (fun l => l.source != 2) = true → r.dumping = false →
        s.roceError c cause = (put { r with st := 2, lastErr := cause, reads := [], writes := [] }).latch Reg.LNK_STATUS 4)
    ∧ exec (.congestionNotification c) s = .next (put { r with rate := r.rate / 2, rateAt := s.time.gtime })
    ∧ (exec (.roceRateRecovery c) s = .next (if r.rate < 100 ∧ r.rateAt.toNat + 200000 ≤ s.time.gtime.toNat then put { r with rate := min 100 (r.rate + 5), rateAt := s.time.gtime } else s)))

/-- R517 to R522, R529: a marker that comes in the wrong place is ignored with MARKER_ERR; at a good one the part takes GTIME and INC of the update for it, and GTIME never goes back but at a step of the leader; a part that has no update keeps its INC and notes the miss.
A part that has lost its clock is lost. After three missed updates the live LOCKED standby of the lowest member index leads; a LOCKED leader with no Sync for 8 s goes to HOLDOVER. -/
def Obligations.TimeKeeping : Prop :=
  (∀ (s : State) (periods : Nat), s.pwr.powered = true → s.pwr.rstN = true → s.time.stopped = false →
    (0 < s.time.markers → periods ≠ 156250000 → exec (.marker periods) s = .next (s.latch Reg.TIME_STATUS 1))
    ∧ (∀ u : TimeUpd, (s.time.markers = 0 ∨ periods = 156250000) → s.time.leading = false → s.role = 0 → s.time.update = some u → u.marker = s.time.markers + 1 →
      let v : Word := BitVec.ofInt 64 (u.gtime.toNat + sext 32 (s.regN Reg.TIME_SKEW))
      ∃ t, exec (.marker periods) s = .next t ∧ t = { s with time := t.time }
        ∧ t.time.markers = s.time.markers + 1 ∧ t.time.inc = u.inc ∧ t.time.update = none ∧ t.time.missed = 0 ∧ t.time.taken = true ∧ t.time.st = u.state ∧ t.time.leader = u.leader
        ∧ (s.time.taken = false → t.time.gtime = v ∧ t.time.hold = 0)
        ∧ (s.time.taken = true → s.time.gtime.toNat ≤ v.toNat → t.time.gtime = v ∧ t.time.hold = 0)
        ∧ (s.time.taken = true → v.toNat < s.time.gtime.toNat → t.time.gtime = s.time.gtime ∧ t.time.hold = s.time.gtime.toNat - v.toNat))
    ∧ ((s.time.markers = 0 ∨ periods = 156250000) → s.time.leading = false → s.role = 0 → s.time.update = none → s.Sound → ∃ t, exec (.marker periods) s = .next t
        ∧ t.time.inc = s.time.inc ∧ t.time.missed = s.time.missed + 1 ∧ t.time.markers = s.time.markers + 1 ∧ s.time.gtime.toNat ≤ t.time.gtime.toNat ∧ t.regB Reg.TIME_STATUS 4 = true)
    ∧ (exec .refclkLost s = .next ((({ s with time := { s.time with stopped := true } } : State).latch Reg.TIME_STATUS 0).declareLost 0x400)))
  ∧ (∀ s : State, s.serving = true →
    (∀ src marker gtime inc state, (s.time.leading = false ∨ s.role = 1) → locNode src ≠ s.node → exec (.timeUpdate src marker gtime inc state) s = .next { s with time := { s.time with
        markers := if s.time.taken then s.time.markers else marker - 1, leading := false, update := some ⟨marker, gtime, inc, state, locNode src⟩ } })
    ∧ (∀ src marker gtime inc state, (s.time.leading = true ∧ s.role ≠ 1) ∨ locNode src = s.node → exec (.timeUpdate src marker gtime inc state) s = .next s)
    ∧ (exec .updateRequest s = .next (if s.time.update = none ∧ s.time.leading = false ∧ s.askAt ≤ s.now then s.tell s.time.leader 0 (.timeAsk (s.time.markers + 1)) else s))
    ∧ (∀ l, s.time.missed < 3 → exec (.standbyTakeover l) s = .next s)
    ∧ (∀ l m, 3 ≤ s.time.missed → s.time.leading = false →
      (l.filter (fun m => !s.ras.lostNodes.contains (s.memberNode m) && (!(m == s.member) || (decide (s.role = 2) && decide (s.time.st = 2))))).min? = some m →
      let u := ({ s with time := { s.time with leader := s.memberNode m, leading := m == s.member, missed := 0 } } : State).latch Reg.TIME_STATUS 3
      exec (.standbyTakeover l) s = .next (if m = s.member then u.lead else u))
    ∧ (∀ p sync t, s.npOn p = true →
      (2 ≤ p ∨ (s.role = 0 ∧ s.time.leading = false) → exec (.ptpMessage p sync t) s = .next ((s.rxFrame p).count (Reg.NP_PTP_RX p) 1))
      ∧ (p < 2 → ¬(s.role = 0 ∧ s.time.leading = false) → p ≠ s.regF Reg.TIME_CTL 29 29 → exec (.ptpMessage p sync t) s = .next (s.rxFrame p))
      ∧ (∀ x, p < 2 → ¬(s.role = 0 ∧ s.time.leading = false) → p = s.regF Reg.TIME_CTL 29 29 → sync = false → t = some x → exec (.ptpMessage p sync t) s
          = .next { s.rxFrame p with time := { s.time with offsets := s.time.offsets ++ [ptpOffset x s.asym] } })
      ∧ (p < 2 → ¬(s.role = 0 ∧ s.time.leading = false) → p = s.regF Reg.TIME_CTL 29 29 → sync = true → t = none → exec (.ptpMessage p sync t) s
          = .next (({ s.rxFrame p with time := { s.time with lastSync := s.time.gtime, st := if s.time.st = 0 ∨ s.time.st = 3 then 1 else s.time.st } } : State).sendFrame p (.delayReq p))))
    ∧ (s.time.st = 2 → s.role = 2 → s.time.leading = false → s.time.lastSync.toNat + 32000000000 ≤ s.time.gtime.toNat →
        exec .holdover s = .next { s with time := { s.time with st := 3, lockRun := 0 } })
    ∧ (s.time.st ≠ 2 ∨ s.time.gtime.toNat < s.time.lastSync.toNat + 32000000000 → exec .holdover s = .next s))

/-! ## Faults, management, power and resets -/

/-- R475 to R477, R533, R536 to R540, R542, R543: the patrol scrub corrects, or marks, a granule; a failed stack, an expired watchdog and whatever else makes the part lost do so once, and then no launch is left, no Twiben
port is UP and the last gasp stands with its code. A unit that has an event becomes SUSPECT, one with too many is FENCING, and is FENCED when its work is done; a day without an event makes it HEALTHY again. A node that does not answer its probes is declared lost. -/
def Obligations.FaultsAndUnits : Prop :=
  (∀ (s : State) (code : Nat),
    (s.pwr.lost = true → s.declareLost code = s)
    ∧ (s.pwr.lost = false → s.Sound → code < 2 ^ 12 → let t := s.declareLost code
        t.pwr = { s.pwr with lost := true, fatal := true, gaspN := false, gaspCode := some code } ∧ t.ctxs = [] ∧ t.hbm = s.hbm ∧ t.time = s.time
          ∧ t.regN Reg.RAS_LAST_CAUSE = 2 ^ 31 + code ∧ (∀ l ∈ t.link.ports, l.st ≠ 2)))
  ∧ (∀ (s : State) (k granule par : Nat), s.up = true → s.mem.state[k]? = some 1 → granule * 32 < 80 * 2 ^ 30 →
    let v : State := { s with mem := { s.mem with scrubbed := keyPut s.mem.scrubbed (k, granule) s.time.gtime } }
    let period := 3600 * 4000000000 * s.regF (Reg.MEM_CTL k) 31 24
    ((∀ t, s.mem.scrubbed.lookup (k, granule) = some t → t.toNat + period ≤ s.time.gtime.toNat) →
      (par ≤ 4 → exec (.patrolScrub k granule ⟨par, .good⟩) s = .next v)
      ∧ (par ≤ 4 → exec (.patrolScrub k granule ⟨par, .corrected⟩) s = .next (v.memCorrected k (granule / 8 % 32) granule))
      ∧ (∀ a h, par ≤ 4 ∧ h = .uncorrectable ∨ 4 < par → s.devOf k (granule * 32) = some a → let u := v.memUncorrectable k (granule / 8 % 32) granule
        exec (.patrolScrub k granule ⟨par, h⟩) s = .next { u with mem := { u.mem with bad := insertNew (a / 32) u.mem.bad } }))
    ∧ (∀ t h, s.mem.scrubbed.lookup (k, granule) = some t → s.time.gtime.toNat < t.toNat + period → exec (.patrolScrub k granule h) s = .next s)
    ∧ (let n := (s.mem.ue.filter (fun e => e.1 == k && decide (s.now < e.2.toNat + 4000000000))).length + 1
      (s.regF (Reg.MEM_CTL k) 15 0 < n → (s.memUncorrectable k (granule / 8 % 32) granule).pwr.lost = true)
      ∧ (n ≤ s.regF (Reg.MEM_CTL k) 15 0 → (s.memUncorrectable k (granule / 8 % 32) granule).pwr = s.pwr))
    ∧ (k < 16 → exec (.stackFailed k) s = .next (s.failStack k) ∧ (s.failStack k).mem.state[k]? = some 2 ∧ (s.failStack k).pwr.lost = true))
  ∧ (∀ (s : State) (core : Nat), s.up = true → core < 2 → exec (.watchdogExpired core) s = .next (s.declareLost 0x730))
  ∧ (∀ (s : State) (u : Nat) (c : CheckRep),
    ((s.unit u).st = .healthy → s.watch.length < 64 → ((s.unitEvent u c).unit u).st = .suspect)
    ∧ (unitKind u ≤ 3 → (s.unit u).st = .suspect →
      let n := ((s.unit u).events.filter (fun t => decide (s.now < t.toNat + 345600000000000))).length + 1
      ((s.unitEvent u c).unit u).st = (if s.regF Reg.RAS_CTL 7 4 ≤ n then .fencing else .suspect)))
  ∧ (∀ (s : State) (u : Nat), s.serving = true →
    (∀ passed, scored u = true → (s.unit u).st = .healthy ∨ (s.unit u).st = .suspect → s.unitBusy u = false → s.elapsed (s.unit u).tested (s.testTicks (s.unit u).st) = true →
        let v := s.putUnit { s.unit u with tested := some s.time.gtime }
        exec (.selfTestInterval u passed) s = .next (if passed then v.count Reg.RAS_SELFTESTS 1 else (v.count Reg.RAS_SELFTESTS 1).unitEvent u ⟨ST_RAS_CHECK, 0, 0, none⟩))
    ∧ (∀ passed, s.unitBusy u = true → exec (.selfTestInterval u passed) s = .next s ∧ exec (.unitFenced u) s = .next s)
    ∧ ((s.unit u).st = .fencing → s.unitBusy u = false → ∃ t, exec (.unitFenced u) s = .next t ∧ (t.unit u).st = .fenced ∧ t = { s with ras := t.ras, regs := t.regs, out := t.out })
    ∧ ((s.unit u).st = .suspect → (s.unit u).last.toNat + 345600000000000 ≤ s.time.gtime.toNat → ∃ t, exec (.watchListExpiry u) s = .next t ∧ (t.unit u).st = .healthy
        ∧ t = { s with ras := t.ras } ∧ (∀ v, v ≠ u → t.unit v = s.unit v))
    ∧ ((s.unit u).st ≠ .suspect → exec (.watchListExpiry u) s = .next s))
  ∧ (∀ (s : State) (node : Nat), s.serving = true → let wait := 4000 * s.regF Reg.RAS_LOSS 15 0
    (∀ p, s.ras.probes.find? (·.node == node) = some p →
      (p.since.toNat + wait ≤ s.time.gtime.toNat → exec (.probeTimeout node) s = .next (s.declareNode node (if p.asked.all (fun n => p.failedSays.contains n) then 3 else 2))
          ∧ (∀ reason, ∀ q ∈ (s.declareNode node reason).ras.probes, q.node ≠ node))
      ∧ (s.time.gtime.toNat < p.since.toNat + wait → exec (.probeTimeout node) s = .next s))
    ∧ (∀ r m, s.ras.reports.find? (·.node == node) = some r → r.since.toNat + wait ≤ s.time.gtime.toNat → s.liveMembers.find? (fun m => decide (r.to_ < m)) = some m →
      let u : State := { s with ras := { s.ras with reports := modFirst (·.node == node) (fun r => { r with to_ := m, since := s.time.gtime }) s.ras.reports } }
      exec (.suspectReportTimeout node) s = .next (if m = s.member then u.startProbe node r.portsFailed else u.write 0 (s.memberNode m) (.suspect node r.portsFailed)))
    ∧ (s.ras.reports.any (·.node == node) = false → exec (.suspectReportTimeout node) s = .next s))

/-- R538, R539, R545, R548 to R550, R554, R555, R562: a mailbox command whose GO is written while none runs is taken with its input and ends with its status and output; while one runs a write of GO is dropped. -/
def Obligations.MailboxCommands : Prop :=
  ∀ (s : State) (v : BitVec 32), s.barOpen = true → v.getLsbD 31 = true → fld v.toNat 12 0 ≤ 4096 →
    let op := fld v.toNat 23 16
    let u := s.mbFields v.toNat
    let inp := u.mbRead (fld v.toNat 12 0)
    let bad := Host.Outcome.next (u.mbEnd ST_MSS_BAD_CMD [])
    (s.mgmt.mbBusy = true → ∀ b ecc, ∀ c ∈ ([.logRead ⟨v, ecc⟩, .sensorRead v, .otpWrite v b, .dump v, .shutdown v, .mbFence v, .selftest v b] : List Instr), exec c s = .next s)
    ∧ (s.mgmt.mbBusy = false →
      (op = 1 → exec (.logRead ⟨v, .good⟩) s = (if inp.length ≠ 4 then bad else
          .next (u.mbEnd ST_OK (((s.ras.log.filter (fun r => decide (leNat inp ≤ r.seq))).take 127).flatMap LogRec.bytes)))
        ∧ exec (.logRead ⟨v, .corrected⟩) s = .next (if inp.length ≠ 4 then u.sramCorrected.mbEnd ST_MSS_BAD_CMD [] else
          u.sramCorrected.mbEnd ST_OK (((s.ras.log.filter (fun r => decide (leNat inp ≤ r.seq))).take 127).flatMap LogRec.bytes))
        ∧ exec (.logRead ⟨v, .uncorrectable⟩) s = .next ((u.sramUncorrectable (7 * 4096 + 1) 0).declareLost 0x701))
      ∧ (op = 2 → exec (.sensorRead v) s = (if 64 < inp.length ∨ inp.any (fun b => !sensorId b.toNat) = true then bad else
          .next (u.mbEnd ST_OK (inp.flatMap (fun b => natLE 4 (wrapI 32 (keyGet 0 s.pwr.sensors b.toNat)))))))
      ∧ (∀ readBack, op = 3 → let id := rd inp 0 1
          let o := s.otp id
          (otpWidth id = 0 ∨ inp.length ≠ 2 + otpWidth id / 8 → exec (.otpWrite v readBack) s = bad)
          ∧ (id ≠ 0 → otpWidth id ≠ 0 → inp.length = 2 + otpWidth id / 8 → o.gens.length < 4 → rd inp 1 1 = o.gens.length + 1 →
            exec (.otpWrite v readBack) s = .next (({ u with mgmt := { u.mgmt with otp := modFirst (·.id == id) (fun o => { o with gens := o.gens ++ [(leNat (inp.drop 2), readBack)] }) u.mgmt.otp } }
              : State).mbEnd (if readBack then ST_OK else ST_MSS_OTP_VERIFY) []))
          ∧ (id = 0 → inp.length = 18 → exec (.otpWrite v readBack) s = .next (u.mbEnd ST_MSS_OTP_DENIED [])))
      ∧ (op = 4 → (∀ w, u.writeDump (u.regF Reg.RAS_LAST_CAUSE 11 0) = (0, w) → exec (.dump v) s = .next { w with mgmt := { w.mgmt with mbBusy := true, dumpBusy := true } })
          ∧ (∀ st w, st ≠ 0 → u.writeDump (u.regF Reg.RAS_LAST_CAUSE 11 0) = (st, w) → exec (.dump v) s = .next (w.mbEnd st [])))
      ∧ (op = 5 → exec (.shutdown v) s = .next ((u.mbEnd ST_OK []).declareLost 0x100))
      ∧ (op = 6 → inp.length = 2 → let w := u.mbEnd ST_OK []
          let st := (s.unit (leNat inp)).st
          exec (.mbFence v) s = (if scored (leNat inp) = false then .next (u.mbEnd ST_MSS_UNIT []) else if st = .healthy ∨ st = .suspect then .next (w.enterFencing (leNat inp)) else .next w))
      ∧ (∀ passed, op = 7 → inp.length = 2 → exec (.selftest v passed) s
          = .next (if scored (leNat inp) = false then u.mbEnd ST_MSS_UNIT [] else (u.mbEnd ST_OK []).selfTest (leNat inp) passed)))
    ∧ (∀ (w : State) (st : Nat) (out : Bytes), w.Sound → st < 2 ^ 16 → out.length ≤ 4096 → let t := w.mbEnd st out
        t.mgmt.mbBusy = false ∧ t.regN Reg.MSS_MB_STAT = st * 2 ^ 16 + out.length ∧ t.regB Reg.RAS_STATUS 7 = true ∧ t.mbRead out.length = out)

/-- R545, R547, R548, R550 to R553: what each MCTP, PLDM and SPDM command does and answers on a binding that is on; on one that is not, nothing. -/
def Obligations.ManagementMessages : Prop :=
  ∀ (s : State) (pcie : Bool),
    (∀ n sens bytes last nonce b c, s.mctpOn pcie = false → ∀ i ∈ ([.mctpControl pcie n n, .setEventReceiver pcie n, .pldmSensorRead pcie sens, .pldmShutdown pcie, .pldmReset pcie, .requestUpdate pcie,
        .passComponentTable pcie n, .updateComponent pcie n, .firmwareDataReceived pcie bytes last, .activateFirmware pcie, .getVersion pcie, .getCapabilities pcie, .negotiateAlgorithms pcie b c,
        .getDigests pcie, .getCertificate pcie n n n, .challenge pcie n nonce, .getMeasurements pcie n nonce] : List Instr), exec i s = .next s)
    ∧ (∀ addr, exec (.i3cDynamicAddress addr) s = .next (if s.managed then s.setRegN Reg.MSS_MCTP (putFld (s.regN Reg.MSS_MCTP) 22 16 addr) else s))
    ∧ (s.mctpOn pcie = true →
      let say (t : State) (m : String) (b : Bytes) : State := t.emit (.mctp pcie m b)
      let withFw (f : Option FwUpd) : State := { s with mgmt := { s.mgmt with fw := f } }
      (s.mgmt.fw = none → exec (.requestUpdate pcie) s = .next (say (withFw (some ⟨none, [], false⟩)) "update accepted" []))
      ∧ (∀ f, s.mgmt.fw = some f →
        exec (.requestUpdate pcie) s = .next (say s "update refused" [])
        ∧ (∀ c, 1 ≤ c → c ≤ 3 → exec (.passComponentTable pcie c) s = .next (say (withFw (some { f with table := true })) "component accepted" (natLE 2 c)))
        ∧ (∀ c, 1 ≤ c → c ≤ 3 → f.table = true → exec (.updateComponent pcie c) s = .next (say (withFw (some { f with comp := some c, bytes := [] })) "firmware data wanted" (natLE 2 c)))
        ∧ (∀ c b, f.comp = some c → exec (.firmwareDataReceived pcie b false) s = .next (withFw (some { f with bytes := f.bytes ++ b })))
        ∧ (∀ c b, f.comp = some c → exec (.firmwareDataReceived pcie b true) s = .next (say (s.fwVerify c (f.bytes ++ b)) "verify complete" (natLE 2 (s.fwCheck c (f.bytes ++ b))))))
      ∧ exec (.activateFirmware pcie) s = .next (say (withFw none) "activation waits for a warm reset" [])
      ∧ (∀ c img, (s.fwCheck c img ≠ ST_OK → (s.fwVerify c img).mgmt.activeB = s.mgmt.activeB ∧ (s.fwVerify c img).mgmt.pending = s.mgmt.pending)
        ∧ (s.fwCheck c img = ST_OK → s.pwr.stage ≠ .recovery → c ∈ (s.fwVerify c img).mgmt.pending ∧ (s.fwVerify c img).mgmt.activeB = s.mgmt.activeB)
        ∧ (s.fwVerify c img).bank c (!s.bankB c) = img)
      ∧ (s.pwr.stage ≠ .recovery →
        (∀ code eid, ∃ t, exec (.mctpControl pcie code eid) s = .next t ∧ t = { s with regs := t.regs, out := t.out } ∧ (code ≠ 1 → t.regs = s.regs)
            ∧ (s.Sound → code = 1 → eid < 256 → t.regF Reg.MSS_MCTP (if pcie then 7 else 15) (if pcie then 0 else 8) = eid) ∧ t.out.length = s.out.length + 1)
        ∧ (∀ eid, exec (.setEventReceiver pcie eid) s = .next { s with mgmt := { s.mgmt with eventReceiver := some (pcie, eid) } })
        ∧ (∀ i, sensorId i = true → exec (.pldmSensorRead pcie (some i)) s = .next (say s "sensor reading" (natLE 4 (wrapI 32 (keyGet 0 s.pwr.sensors i)))))
        ∧ exec (.pldmShutdown pcie) s = .next (s.declareLost 0x101)
        ∧ (s.pwr.warm = false → s.pwr.flr = [] → exec (.pldmReset pcie) s = .next s.warmStart)
        ∧ exec (.getVersion pcie) s = .next (say s "version" [0x12])
        ∧ exec (.getCapabilities pcie) s = .next (say s "capabilities: CERT, CHAL, MEAS signed" [])
        ∧ (∀ b c, ∃ t, exec (.negotiateAlgorithms pcie b c) s = .next t ∧ t = { s with mgmt := { s.mgmt with spdm := t.mgmt.spdm }, out := t.out }
            ∧ (s.mgmt.spdm.length = 2 → t.mgmt.spdm[if pcie then 0 else 1]? = some (b && c)))
        ∧ exec (.getDigests pcie) s = .next (say s "digest" (Config.sha256 s.mgmt.certChain))
        ∧ (∀ slot off len, exec (.getCertificate pcie slot off len) s
            = .next (if slot = 0 ∧ Config.sha256 s.mgmt.certChain = natLE 32 (s.otpValue 3) then say s "certificate" (slice s.mgmt.certChain off len) else say s "error" []))
        ∧ (∀ nonce, exec (.challenge pcie 0 nonce) s = .next (if s.mgmt.spdm.getD (if pcie then 0 else 1) false then
            say s "challenge auth" (Config.identitySign (nonce ++ Config.sha256 s.mgmt.certChain)) else say s "error" []))
        ∧ (∀ i nonce, s.mgmt.spdm.getD (if pcie then 0 else 1) false = true → 1 ≤ i → i ≤ 5 → exec (.getMeasurements pcie i nonce) s
            = .next (say s "measurements" (s.measurement i ++ Config.identitySign (nonce ++ s.measurement i))))))

/-- R447, R481, R552, R566 to R573, R575, R576, R581: a cold reset leaves OTP, flash and what has been sent, and nothing else; when RST_N rises the part latches its straps and goes to training, to the strap fault or to recovery; it is READY after training. A warm reset and an FLR release every
context and slot; after the warm reset the part is in service again. Heat, power and THROTTLE_N throttle the part, and a rail, a temperature or a throttle that lasts makes it lost with its code. -/
def Obligations.PowerAndResets : Prop :=
  (∀ s : State, ∃ t u, exec .rstNLow s = .next t ∧ exec .railsFall s = .next u
      ∧ t = { State.reset with pending := s.pending, out := s.out, freeCtr := s.freeCtr, pwr := { Power.init with powered := true }, mgmt := t.mgmt }
      ∧ u = { t with pwr := { Power.init with powered := false } } ∧ t.mgmt.otp = s.mgmt.otp ∧ t.mgmt.banks = s.mgmt.banks ∧ t.mgmt.activeB = s.mgmt.activeB)
  ∧ (∀ (s : State) (straps : BitVec 12) (flash : Bytes) (good other : List Bool), s.pwr.powered = true → s.pwr.rstN = false →
    ∃ t, exec (.rstNRises straps flash good other) s = .next t ∧ t.pwr.rstN = true ∧ t.pwr.straps = straps
      ∧ (let boot := fld straps.toNat 8 7
        let found := boot ≠ 3 ∧ ∀ c, 1 ≤ c → c ≤ 3 → good.getD (c - 1) false = true ∨ (boot = 0 ∧ other.getD (c - 1) false = true)
        (strapsOk straps = false → t.pwr.stage = .strapFault ∧ t.pwr.fatal = true)
        ∧ (strapsOk straps = true → found → t.pwr.stage = .training)
        ∧ (strapsOk straps = true → ¬found → t.pwr.stage = .recovery ∧ t.pwr.fatal = true)))
  ∧ (∀ s : State, s.pwr.powered = true → s.pwr.rstN = true → s.pwr.stage = .training → s.pwr.lost = false → s.mem.state.all (· != 2) = true →
      exec .ready s = .next { s with pwr := { s.pwr with stage := .ready, lastReset := 0 }, hbm := [], mem := { s.mem with state := List.replicate 16 1, poisoned := [], bad := [] } })
  ∧ (∀ (s : State) (v : BitVec 32), s.barOpen = true →
    (v.getLsbD 31 = false ∨ fld v.toNat 7 0 ≠ 0xA5 → exec (.warmReset v) s = .next s)
    ∧ (v.getLsbD 31 = true → fld v.toNat 7 0 = 0xA5 → s.pwr.flr ≠ [] → exec (.warmReset v) s = .next { s with pwr := { s.pwr with warmWaits := true } })
    ∧ (v.getLsbD 31 = true → fld v.toNat 7 0 = 0xA5 → s.pwr.flr = [] → ∃ t, exec (.warmReset v) s = .next t ∧ t = s.warmStart ∧ t.pwr.warm = true ∧ t.barOpen = false
        ∧ t.ctxs = [] ∧ t.loads = [] ∧ (∀ q ∈ t.slots, q.st = .off ∧ q.waiting = [] ∧ q.cmds = []) ∧ t.host.xlats = [] ∧ t.mgmt.otp = s.mgmt.otp))
  ∧ (∀ s : State, s.pwr.warm = true → ∃ t, exec .warmResetDone s = .next t ∧ t.pwr.warm = false ∧ t.pwr.lastReset = 1 ∧ t.mem.state = List.replicate 16 1 ∧ t.mgmt.pending = []
      ∧ (s.fenceRecord = [] → t.pwr.lost = false ∧ t.pwr.gaspN = true))
  ∧ (∀ (s : State) (p : Nat) (h : HPort) (perst : Bool), s.pwr.powered = true → s.pwr.rstN = true → s.pwr.stage = .ready → p < 2 → s.host.ports[p]? = some h →
    (s.pwr.warm = false → ∃ t, exec (.functionLevelReset p perst) s = .next t ∧ t.ctxs = [] ∧ (∀ q ∈ t.slots, q.st = .off) ∧ p ∈ t.pwr.flr ∧ t.host.xlats = [] ∧ t.host.hlc = []
        ∧ t.host.ports[p]? = some (h.flr perst) ∧ t.hbm = s.hbm ∧ t.gpes.map (·.wings) = s.gpes.map (·.wings) ∧ t.strms = s.strms)
    ∧ (s.pwr.warm = true → ∃ t, exec (.functionLevelReset p perst) s = .next t ∧ p ∈ t.pwr.flrAbsorbed ∧ t.ctxs = s.ctxs))
  ∧ (∀ s : State, s.pwr.flr ≠ [] → let u : State := { s with pwr := { s.pwr with flr := [], lastReset := 2, warmWaits := false } }
      exec .flrDone s = .next (if s.pwr.warmWaits then u.warmStart else u))
  ∧ (∀ s : State, s.up = true →
    (∀ rail, rail < 9 → exec (.railFault rail) s = .next (s.declareLost (0x300 + rail)))
    ∧ (∀ i x, sensorId i = true → ∃ t, exec (.sensorUpdate i x) s = .next t ∧ t = { s with pwr := t.pwr } ∧ keyGet 0 t.pwr.sensors i = x
        ∧ (0x10 ≤ i → i ≤ 0x19 → (105 ≤ x → i ∈ t.pwr.thrSensors) ∧ (x < 102 → i ∉ t.pwr.thrSensors) ∧ (102 ≤ x → x < 105 → t.pwr.thrSensors = s.pwr.thrSensors)
            ∧ (100 ≤ x → i ∈ t.pwr.thermAlert) ∧ (x < 97 → i ∉ t.pwr.thermAlert))
        ∧ (0x20 ≤ i → i ≤ 0x2F → (85 < x → i - 0x20 ∈ t.pwr.refresh2x) ∧ (x ≤ 85 → i - 0x20 ∉ t.pwr.refresh2x) ∧ (95 ≤ x → i ∈ t.pwr.thrSensors) ∧ (x < 92 → i ∉ t.pwr.thrSensors))
        ∧ (i = 0x30 → x < 2300 → t.pwr.thrPower = false))
    ∧ (∀ i, 0x10 ≤ i → i ≤ 0x19 → 115 ≤ keyGet 0 s.pwr.sensors i → exec (.overTemperature i) s = .next (s.declareLost (0x200 + (i - 0x10))))
    ∧ (∀ i, 0x20 ≤ i → i ≤ 0x2F → 105 ≤ keyGet 0 s.pwr.sensors i → exec (.overTemperature i) s = .next (s.declareLost (0x210 + (i - 0x20))))
    ∧ (2400 < keyGet 0 s.pwr.sensors 0x30 → exec .powerLimit s = .next { s with pwr := { s.pwr with thrPower := true } })
    ∧ (∀ high, s.pwr.gaspN = true → exec (.throttleN high) s = .next { s with pwr := { s.pwr with
        throttleN := high, thrSince := if s.pwr.throttleN then s.time.gtime else s.pwr.thrSince } })
    ∧ (s.pwr.throttleN = false → 0 < s.regF Reg.DEV_PWR 31 16 → s.pwr.thrSince.toNat + 4000000 * s.regF Reg.DEV_PWR 31 16 ≤ s.time.gtime.toNat →
        exec .throttleShutdown s = .next (s.declareLost 0x102))
    ∧ (s.pwr.throttleN = true ∨ s.regF Reg.DEV_PWR 31 16 = 0 → exec .throttleShutdown s = .next s))

/-- R573: until READY is 1, writes of BAR0 and accesses of BAR2 are dropped and change nothing; reads of BAR0 answer zero, and no refused access is recorded. No instruction is issued while the part does not serve (log entry 2). -/
def Obligations.NotReady : Prop :=
  (∀ (c : Instr) (cl : Nat) (i : BWord) (s : State), c.word = some (cl, i) → s.serving = false → exec c s = .next s)
  ∧ (∀ (s : State) (v : BitVec 32) (a : Access) (k d : Nat) (b : Bool) (ecc : GranuleHealth), s.barOpen = false →
    (∀ c ∈ ([.registerWrite a, .refusedAccess true a, .chorusWindowWrite a, .groupWindowWrite a, .scratchApertureAccess true a ecc, .tblHeapWrite v, .wingsEnable d v, .invalidateAll d v,
        .plcDomCfgWrite a, .plcDomMembersWrite a, .replicaReserveLowered v, .pinReplicate v, .pinHold v, .unpin v, .pairReqGo v, .feedEn v, .feedSkidWrite a, .feedStrmCfgWrite a,
        .queueEnWritten k v, .queueConfigWrite a, .sqDb k v, .cqDb k v, .doorbellAccessDropped k b a, .cueBindWrite a, .hstHdmWrite v, .lnkNodeWrite v, .lnkTopoWrite v, .eEn v, .oEn v,
        .twinEn v, .roceValidWrite a, .logRead ⟨v, ecc⟩, .sensorRead v, .otpWrite v b, .dump v, .shutdown v, .mbFence v, .selftest v b, .warmReset v] : List Instr), exec c s = .next s)
    ∧ (s.pwr.powered = true → s.pwr.rstN = true →
      (a.bar = 0 → refused a = true → exec (.refusedAccess false a) s = .next (s.emit (.readData 0)))
      ∧ (a.bar = 0 → Access.aligned a = true → 0x1000000 ≤ a.off → a.off < 0x2000000 → 0x10000 ≤ a.off % 0x20000 → exec (.scratchApertureAccess false a ecc) s = .next (s.emit (.readData 0)))
      ∧ (k < 2 → exec (.qdelayRead k) s = .next (s.emit (.readData 0)))))
end

