-- ==== Sys2Proof/Laws/State.lean ====
section
/-! SUPPORT. What each named update of the state leaves in each field, so that no later proof unfolds a record update. -/
namespace Sys2Proof.Machine

@[simp] theorem State.setReg_pending (s : State) (a : Nat) (v : Word) : (s.setReg a v).pending = s.pending := rfl
@[simp] theorem State.setReg_regs (s : State) (a : Nat) (v : Word) : (s.setReg a v).regs = Sparse.put regReset s.regs a v := rfl
@[simp] theorem State.setReg_hbm (s : State) (a : Nat) (v : Word) : (s.setReg a v).hbm = s.hbm := rfl
@[simp] theorem State.setReg_scr (s : State) (a : Nat) (v : Word) : (s.setReg a v).scr = s.scr := rfl
@[simp] theorem State.setReg_pwr (s : State) (a : Nat) (v : Word) : (s.setReg a v).pwr = s.pwr := rfl
@[simp] theorem State.setReg_tables (s : State) (a : Nat) (v : Word) : (s.setReg a v).tables = s.tables := rfl
@[simp] theorem State.setReg_loads (s : State) (a : Nat) (v : Word) : (s.setReg a v).loads = s.loads := rfl
@[simp] theorem State.setReg_commits (s : State) (a : Nat) (v : Word) : (s.setReg a v).commits = s.commits := rfl
@[simp] theorem State.setReg_nextCid (s : State) (a : Nat) (v : Word) : (s.setReg a v).nextCid = s.nextCid := rfl
@[simp] theorem State.setReg_heap (s : State) (a : Nat) (v : Word) : (s.setReg a v).heap = s.heap := rfl
@[simp] theorem State.setReg_lostRows (s : State) (a : Nat) (v : Word) : (s.setReg a v).lostRows = s.lostRows := rfl
@[simp] theorem State.setReg_gpes (s : State) (a : Nat) (v : Word) : (s.setReg a v).gpes = s.gpes := rfl
@[simp] theorem State.setReg_reqs (s : State) (a : Nat) (v : Word) : (s.setReg a v).reqs = s.reqs := rfl
@[simp] theorem State.setReg_reads (s : State) (a : Nat) (v : Word) : (s.setReg a v).reads = s.reads := rfl
@[simp] theorem State.setReg_nextRead (s : State) (a : Nat) (v : Word) : (s.setReg a v).nextRead = s.nextRead := rfl
@[simp] theorem State.setReg_combine (s : State) (a : Nat) (v : Word) : (s.setReg a v).combine = s.combine := rfl
@[simp] theorem State.setReg_doms (s : State) (a : Nat) (v : Word) : (s.setReg a v).doms = s.doms := rfl
@[simp] theorem State.setReg_dirs (s : State) (a : Nat) (v : Word) : (s.setReg a v).dirs = s.dirs := rfl
@[simp] theorem State.setReg_migs (s : State) (a : Nat) (v : Word) : (s.setReg a v).migs = s.migs := rfl
@[simp] theorem State.setReg_reps (s : State) (a : Nat) (v : Word) : (s.setReg a v).reps = s.reps := rfl
@[simp] theorem State.setReg_replicas (s : State) (a : Nat) (v : Word) : (s.setReg a v).replicas = s.replicas := rfl
@[simp] theorem State.setReg_cool (s : State) (a : Nat) (v : Word) : (s.setReg a v).cool = s.cool := rfl
@[simp] theorem State.setReg_pin (s : State) (a : Nat) (v : Word) : (s.setReg a v).pin = s.pin := rfl
@[simp] theorem State.setReg_lastDie (s : State) (a : Nat) (v : Word) : (s.setReg a v).lastDie = s.lastDie := rfl
@[simp] theorem State.setReg_pinJobs (s : State) (a : Nat) (v : Word) : (s.setReg a v).pinJobs = s.pinJobs := rfl
@[simp] theorem State.setReg_fports (s : State) (a : Nat) (v : Word) : (s.setReg a v).fports = s.fports := rfl
@[simp] theorem State.setReg_strms (s : State) (a : Nat) (v : Word) : (s.setReg a v).strms = s.strms := rfl
@[simp] theorem State.setReg_pair (s : State) (a : Nat) (v : Word) : (s.setReg a v).pair = s.pair := rfl
@[simp] theorem State.setReg_ctxs (s : State) (a : Nat) (v : Word) : (s.setReg a v).ctxs = s.ctxs := rfl
@[simp] theorem State.setReg_clusters (s : State) (a : Nat) (v : Word) : (s.setReg a v).clusters = s.clusters := rfl
@[simp] theorem State.setReg_scripts (s : State) (a : Nat) (v : Word) : (s.setReg a v).scripts = s.scripts := rfl
@[simp] theorem State.setReg_nextOp (s : State) (a : Nat) (v : Word) : (s.setReg a v).nextOp = s.nextOp := rfl
@[simp] theorem State.setReg_slots (s : State) (a : Nat) (v : Word) : (s.setReg a v).slots = s.slots := rfl
@[simp] theorem State.setReg_bindings (s : State) (a : Nat) (v : Word) : (s.setReg a v).bindings = s.bindings := rfl
@[simp] theorem State.setReg_cueNames (s : State) (a : Nat) (v : Word) : (s.setReg a v).cueNames = s.cueNames := rfl
@[simp] theorem State.setReg_direct (s : State) (a : Nat) (v : Word) : (s.setReg a v).direct = s.direct := rfl
@[simp] theorem State.setReg_host (s : State) (a : Nat) (v : Word) : (s.setReg a v).host = s.host := rfl
@[simp] theorem State.setReg_mem (s : State) (a : Nat) (v : Word) : (s.setReg a v).mem = s.mem := rfl
@[simp] theorem State.setReg_link (s : State) (a : Nat) (v : Word) : (s.setReg a v).link = s.link := rfl
@[simp] theorem State.setReg_net (s : State) (a : Nat) (v : Word) : (s.setReg a v).net = s.net := rfl
@[simp] theorem State.setReg_time (s : State) (a : Nat) (v : Word) : (s.setReg a v).time = s.time := rfl
@[simp] theorem State.setReg_ras (s : State) (a : Nat) (v : Word) : (s.setReg a v).ras = s.ras := rfl
@[simp] theorem State.setReg_mgmt (s : State) (a : Nat) (v : Word) : (s.setReg a v).mgmt = s.mgmt := rfl
@[simp] theorem State.setReg_out (s : State) (a : Nat) (v : Word) : (s.setReg a v).out = s.out := rfl
@[simp] theorem State.setReg_freeCtr (s : State) (a : Nat) (v : Word) : (s.setReg a v).freeCtr = s.freeCtr := rfl

@[simp] theorem State.setRegN_pending (s : State) (a v : Nat) : (s.setRegN a v).pending = s.pending := rfl
@[simp] theorem State.setRegN_regs (s : State) (a v : Nat) : (s.setRegN a v).regs = Sparse.put regReset s.regs a (BitVec.ofNat 64 v) := rfl
@[simp] theorem State.setRegN_hbm (s : State) (a v : Nat) : (s.setRegN a v).hbm = s.hbm := rfl
@[simp] theorem State.setRegN_scr (s : State) (a v : Nat) : (s.setRegN a v).scr = s.scr := rfl
@[simp] theorem State.setRegN_pwr (s : State) (a v : Nat) : (s.setRegN a v).pwr = s.pwr := rfl
@[simp] theorem State.setRegN_tables (s : State) (a v : Nat) : (s.setRegN a v).tables = s.tables := rfl
@[simp] theorem State.setRegN_loads (s : State) (a v : Nat) : (s.setRegN a v).loads = s.loads := rfl
@[simp] theorem State.setRegN_commits (s : State) (a v : Nat) : (s.setRegN a v).commits = s.commits := rfl
@[simp] theorem State.setRegN_nextCid (s : State) (a v : Nat) : (s.setRegN a v).nextCid = s.nextCid := rfl
@[simp] theorem State.setRegN_heap (s : State) (a v : Nat) : (s.setRegN a v).heap = s.heap := rfl
@[simp] theorem State.setRegN_lostRows (s : State) (a v : Nat) : (s.setRegN a v).lostRows = s.lostRows := rfl
@[simp] theorem State.setRegN_gpes (s : State) (a v : Nat) : (s.setRegN a v).gpes = s.gpes := rfl
@[simp] theorem State.setRegN_reqs (s : State) (a v : Nat) : (s.setRegN a v).reqs = s.reqs := rfl
@[simp] theorem State.setRegN_reads (s : State) (a v : Nat) : (s.setRegN a v).reads = s.reads := rfl
@[simp] theorem State.setRegN_nextRead (s : State) (a v : Nat) : (s.setRegN a v).nextRead = s.nextRead := rfl
@[simp] theorem State.setRegN_combine (s : State) (a v : Nat) : (s.setRegN a v).combine = s.combine := rfl
@[simp] theorem State.setRegN_doms (s : State) (a v : Nat) : (s.setRegN a v).doms = s.doms := rfl
@[simp] theorem State.setRegN_dirs (s : State) (a v : Nat) : (s.setRegN a v).dirs = s.dirs := rfl
@[simp] theorem State.setRegN_migs (s : State) (a v : Nat) : (s.setRegN a v).migs = s.migs := rfl
@[simp] theorem State.setRegN_reps (s : State) (a v : Nat) : (s.setRegN a v).reps = s.reps := rfl
@[simp] theorem State.setRegN_replicas (s : State) (a v : Nat) : (s.setRegN a v).replicas = s.replicas := rfl
@[simp] theorem State.setRegN_cool (s : State) (a v : Nat) : (s.setRegN a v).cool = s.cool := rfl
@[simp] theorem State.setRegN_pin (s : State) (a v : Nat) : (s.setRegN a v).pin = s.pin := rfl
@[simp] theorem State.setRegN_lastDie (s : State) (a v : Nat) : (s.setRegN a v).lastDie = s.lastDie := rfl
@[simp] theorem State.setRegN_pinJobs (s : State) (a v : Nat) : (s.setRegN a v).pinJobs = s.pinJobs := rfl
@[simp] theorem State.setRegN_fports (s : State) (a v : Nat) : (s.setRegN a v).fports = s.fports := rfl
@[simp] theorem State.setRegN_strms (s : State) (a v : Nat) : (s.setRegN a v).strms = s.strms := rfl
@[simp] theorem State.setRegN_pair (s : State) (a v : Nat) : (s.setRegN a v).pair = s.pair := rfl
@[simp] theorem State.setRegN_ctxs (s : State) (a v : Nat) : (s.setRegN a v).ctxs = s.ctxs := rfl
@[simp] theorem State.setRegN_clusters (s : State) (a v : Nat) : (s.setRegN a v).clusters = s.clusters := rfl
@[simp] theorem State.setRegN_scripts (s : State) (a v : Nat) : (s.setRegN a v).scripts = s.scripts := rfl
@[simp] theorem State.setRegN_nextOp (s : State) (a v : Nat) : (s.setRegN a v).nextOp = s.nextOp := rfl
@[simp] theorem State.setRegN_slots (s : State) (a v : Nat) : (s.setRegN a v).slots = s.slots := rfl
@[simp] theorem State.setRegN_bindings (s : State) (a v : Nat) : (s.setRegN a v).bindings = s.bindings := rfl
@[simp] theorem State.setRegN_cueNames (s : State) (a v : Nat) : (s.setRegN a v).cueNames = s.cueNames := rfl
@[simp] theorem State.setRegN_direct (s : State) (a v : Nat) : (s.setRegN a v).direct = s.direct := rfl
@[simp] theorem State.setRegN_host (s : State) (a v : Nat) : (s.setRegN a v).host = s.host := rfl
@[simp] theorem State.setRegN_mem (s : State) (a v : Nat) : (s.setRegN a v).mem = s.mem := rfl
@[simp] theorem State.setRegN_link (s : State) (a v : Nat) : (s.setRegN a v).link = s.link := rfl
@[simp] theorem State.setRegN_net (s : State) (a v : Nat) : (s.setRegN a v).net = s.net := rfl
@[simp] theorem State.setRegN_time (s : State) (a v : Nat) : (s.setRegN a v).time = s.time := rfl
@[simp] theorem State.setRegN_ras (s : State) (a v : Nat) : (s.setRegN a v).ras = s.ras := rfl
@[simp] theorem State.setRegN_mgmt (s : State) (a v : Nat) : (s.setRegN a v).mgmt = s.mgmt := rfl
@[simp] theorem State.setRegN_out (s : State) (a v : Nat) : (s.setRegN a v).out = s.out := rfl
@[simp] theorem State.setRegN_freeCtr (s : State) (a v : Nat) : (s.setRegN a v).freeCtr = s.freeCtr := rfl

@[simp] theorem State.count_pending (s : State) (a n : Nat) : (s.count a n).pending = s.pending := rfl
@[simp] theorem State.count_regs (s : State) (a n : Nat) : (s.count a n).regs = Sparse.put regReset s.regs a (s.reg a + BitVec.ofNat 64 n) := rfl
@[simp] theorem State.count_hbm (s : State) (a n : Nat) : (s.count a n).hbm = s.hbm := rfl
@[simp] theorem State.count_scr (s : State) (a n : Nat) : (s.count a n).scr = s.scr := rfl
@[simp] theorem State.count_pwr (s : State) (a n : Nat) : (s.count a n).pwr = s.pwr := rfl
@[simp] theorem State.count_tables (s : State) (a n : Nat) : (s.count a n).tables = s.tables := rfl
@[simp] theorem State.count_loads (s : State) (a n : Nat) : (s.count a n).loads = s.loads := rfl
@[simp] theorem State.count_commits (s : State) (a n : Nat) : (s.count a n).commits = s.commits := rfl
@[simp] theorem State.count_nextCid (s : State) (a n : Nat) : (s.count a n).nextCid = s.nextCid := rfl
@[simp] theorem State.count_heap (s : State) (a n : Nat) : (s.count a n).heap = s.heap := rfl
@[simp] theorem State.count_lostRows (s : State) (a n : Nat) : (s.count a n).lostRows = s.lostRows := rfl
@[simp] theorem State.count_gpes (s : State) (a n : Nat) : (s.count a n).gpes = s.gpes := rfl
@[simp] theorem State.count_reqs (s : State) (a n : Nat) : (s.count a n).reqs = s.reqs := rfl
@[simp] theorem State.count_reads (s : State) (a n : Nat) : (s.count a n).reads = s.reads := rfl
@[simp] theorem State.count_nextRead (s : State) (a n : Nat) : (s.count a n).nextRead = s.nextRead := rfl
@[simp] theorem State.count_combine (s : State) (a n : Nat) : (s.count a n).combine = s.combine := rfl
@[simp] theorem State.count_doms (s : State) (a n : Nat) : (s.count a n).doms = s.doms := rfl
@[simp] theorem State.count_dirs (s : State) (a n : Nat) : (s.count a n).dirs = s.dirs := rfl
@[simp] theorem State.count_migs (s : State) (a n : Nat) : (s.count a n).migs = s.migs := rfl
@[simp] theorem State.count_reps (s : State) (a n : Nat) : (s.count a n).reps = s.reps := rfl
@[simp] theorem State.count_replicas (s : State) (a n : Nat) : (s.count a n).replicas = s.replicas := rfl
@[simp] theorem State.count_cool (s : State) (a n : Nat) : (s.count a n).cool = s.cool := rfl
@[simp] theorem State.count_pin (s : State) (a n : Nat) : (s.count a n).pin = s.pin := rfl
@[simp] theorem State.count_lastDie (s : State) (a n : Nat) : (s.count a n).lastDie = s.lastDie := rfl
@[simp] theorem State.count_pinJobs (s : State) (a n : Nat) : (s.count a n).pinJobs = s.pinJobs := rfl
@[simp] theorem State.count_fports (s : State) (a n : Nat) : (s.count a n).fports = s.fports := rfl
@[simp] theorem State.count_strms (s : State) (a n : Nat) : (s.count a n).strms = s.strms := rfl
@[simp] theorem State.count_pair (s : State) (a n : Nat) : (s.count a n).pair = s.pair := rfl
@[simp] theorem State.count_ctxs (s : State) (a n : Nat) : (s.count a n).ctxs = s.ctxs := rfl
@[simp] theorem State.count_clusters (s : State) (a n : Nat) : (s.count a n).clusters = s.clusters := rfl
@[simp] theorem State.count_scripts (s : State) (a n : Nat) : (s.count a n).scripts = s.scripts := rfl
@[simp] theorem State.count_nextOp (s : State) (a n : Nat) : (s.count a n).nextOp = s.nextOp := rfl
@[simp] theorem State.count_slots (s : State) (a n : Nat) : (s.count a n).slots = s.slots := rfl
@[simp] theorem State.count_bindings (s : State) (a n : Nat) : (s.count a n).bindings = s.bindings := rfl
@[simp] theorem State.count_cueNames (s : State) (a n : Nat) : (s.count a n).cueNames = s.cueNames := rfl
@[simp] theorem State.count_direct (s : State) (a n : Nat) : (s.count a n).direct = s.direct := rfl
@[simp] theorem State.count_host (s : State) (a n : Nat) : (s.count a n).host = s.host := rfl
@[simp] theorem State.count_mem (s : State) (a n : Nat) : (s.count a n).mem = s.mem := rfl
@[simp] theorem State.count_link (s : State) (a n : Nat) : (s.count a n).link = s.link := rfl
@[simp] theorem State.count_net (s : State) (a n : Nat) : (s.count a n).net = s.net := rfl
@[simp] theorem State.count_time (s : State) (a n : Nat) : (s.count a n).time = s.time := rfl
@[simp] theorem State.count_ras (s : State) (a n : Nat) : (s.count a n).ras = s.ras := rfl
@[simp] theorem State.count_mgmt (s : State) (a n : Nat) : (s.count a n).mgmt = s.mgmt := rfl
@[simp] theorem State.count_out (s : State) (a n : Nat) : (s.count a n).out = s.out := rfl
@[simp] theorem State.count_freeCtr (s : State) (a n : Nat) : (s.count a n).freeCtr = s.freeCtr := rfl

@[simp] theorem State.emit_pending (s : State) (o : Out) : (s.emit o).pending = s.pending := rfl
@[simp] theorem State.emit_regs (s : State) (o : Out) : (s.emit o).regs = s.regs := rfl
@[simp] theorem State.emit_hbm (s : State) (o : Out) : (s.emit o).hbm = s.hbm := rfl
@[simp] theorem State.emit_scr (s : State) (o : Out) : (s.emit o).scr = s.scr := rfl
@[simp] theorem State.emit_pwr (s : State) (o : Out) : (s.emit o).pwr = s.pwr := rfl
@[simp] theorem State.emit_tables (s : State) (o : Out) : (s.emit o).tables = s.tables := rfl
@[simp] theorem State.emit_loads (s : State) (o : Out) : (s.emit o).loads = s.loads := rfl
@[simp] theorem State.emit_commits (s : State) (o : Out) : (s.emit o).commits = s.commits := rfl
@[simp] theorem State.emit_nextCid (s : State) (o : Out) : (s.emit o).nextCid = s.nextCid := rfl
@[simp] theorem State.emit_heap (s : State) (o : Out) : (s.emit o).heap = s.heap := rfl
@[simp] theorem State.emit_lostRows (s : State) (o : Out) : (s.emit o).lostRows = s.lostRows := rfl
@[simp] theorem State.emit_gpes (s : State) (o : Out) : (s.emit o).gpes = s.gpes := rfl
@[simp] theorem State.emit_reqs (s : State) (o : Out) : (s.emit o).reqs = s.reqs := rfl
@[simp] theorem State.emit_reads (s : State) (o : Out) : (s.emit o).reads = s.reads := rfl
@[simp] theorem State.emit_nextRead (s : State) (o : Out) : (s.emit o).nextRead = s.nextRead := rfl
@[simp] theorem State.emit_combine (s : State) (o : Out) : (s.emit o).combine = s.combine := rfl
@[simp] theorem State.emit_doms (s : State) (o : Out) : (s.emit o).doms = s.doms := rfl
@[simp] theorem State.emit_dirs (s : State) (o : Out) : (s.emit o).dirs = s.dirs := rfl
@[simp] theorem State.emit_migs (s : State) (o : Out) : (s.emit o).migs = s.migs := rfl
@[simp] theorem State.emit_reps (s : State) (o : Out) : (s.emit o).reps = s.reps := rfl
@[simp] theorem State.emit_replicas (s : State) (o : Out) : (s.emit o).replicas = s.replicas := rfl
@[simp] theorem State.emit_cool (s : State) (o : Out) : (s.emit o).cool = s.cool := rfl
@[simp] theorem State.emit_pin (s : State) (o : Out) : (s.emit o).pin = s.pin := rfl
@[simp] theorem State.emit_lastDie (s : State) (o : Out) : (s.emit o).lastDie = s.lastDie := rfl
@[simp] theorem State.emit_pinJobs (s : State) (o : Out) : (s.emit o).pinJobs = s.pinJobs := rfl
@[simp] theorem State.emit_fports (s : State) (o : Out) : (s.emit o).fports = s.fports := rfl
@[simp] theorem State.emit_strms (s : State) (o : Out) : (s.emit o).strms = s.strms := rfl
@[simp] theorem State.emit_pair (s : State) (o : Out) : (s.emit o).pair = s.pair := rfl
@[simp] theorem State.emit_ctxs (s : State) (o : Out) : (s.emit o).ctxs = s.ctxs := rfl
@[simp] theorem State.emit_clusters (s : State) (o : Out) : (s.emit o).clusters = s.clusters := rfl
@[simp] theorem State.emit_scripts (s : State) (o : Out) : (s.emit o).scripts = s.scripts := rfl
@[simp] theorem State.emit_nextOp (s : State) (o : Out) : (s.emit o).nextOp = s.nextOp := rfl
@[simp] theorem State.emit_slots (s : State) (o : Out) : (s.emit o).slots = s.slots := rfl
@[simp] theorem State.emit_bindings (s : State) (o : Out) : (s.emit o).bindings = s.bindings := rfl
@[simp] theorem State.emit_cueNames (s : State) (o : Out) : (s.emit o).cueNames = s.cueNames := rfl
@[simp] theorem State.emit_direct (s : State) (o : Out) : (s.emit o).direct = s.direct := rfl
@[simp] theorem State.emit_host (s : State) (o : Out) : (s.emit o).host = s.host := rfl
@[simp] theorem State.emit_mem (s : State) (o : Out) : (s.emit o).mem = s.mem := rfl
@[simp] theorem State.emit_link (s : State) (o : Out) : (s.emit o).link = s.link := rfl
@[simp] theorem State.emit_net (s : State) (o : Out) : (s.emit o).net = s.net := rfl
@[simp] theorem State.emit_time (s : State) (o : Out) : (s.emit o).time = s.time := rfl
@[simp] theorem State.emit_ras (s : State) (o : Out) : (s.emit o).ras = s.ras := rfl
@[simp] theorem State.emit_mgmt (s : State) (o : Out) : (s.emit o).mgmt = s.mgmt := rfl
@[simp] theorem State.emit_out (s : State) (o : Out) : (s.emit o).out = s.out ++ [o] := rfl
@[simp] theorem State.emit_freeCtr (s : State) (o : Out) : (s.emit o).freeCtr = s.freeCtr := rfl

@[simp] theorem State.signal_pending (s : State) (v : Nat) : (s.signal v).pending = s.pending := by unfold State.signal; split <;> rfl
@[simp] theorem State.signal_hbm (s : State) (v : Nat) : (s.signal v).hbm = s.hbm := by unfold State.signal; split <;> rfl
@[simp] theorem State.signal_scr (s : State) (v : Nat) : (s.signal v).scr = s.scr := by unfold State.signal; split <;> rfl
@[simp] theorem State.signal_pwr (s : State) (v : Nat) : (s.signal v).pwr = s.pwr := by unfold State.signal; split <;> rfl
@[simp] theorem State.signal_tables (s : State) (v : Nat) : (s.signal v).tables = s.tables := by unfold State.signal; split <;> rfl
@[simp] theorem State.signal_loads (s : State) (v : Nat) : (s.signal v).loads = s.loads := by unfold State.signal; split <;> rfl
@[simp] theorem State.signal_commits (s : State) (v : Nat) : (s.signal v).commits = s.commits := by unfold State.signal; split <;> rfl
@[simp] theorem State.signal_nextCid (s : State) (v : Nat) : (s.signal v).nextCid = s.nextCid := by unfold State.signal; split <;> rfl
@[simp] theorem State.signal_heap (s : State) (v : Nat) : (s.signal v).heap = s.heap := by unfold State.signal; split <;> rfl
@[simp] theorem State.signal_lostRows (s : State) (v : Nat) : (s.signal v).lostRows = s.lostRows := by unfold State.signal; split <;> rfl
@[simp] theorem State.signal_gpes (s : State) (v : Nat) : (s.signal v).gpes = s.gpes := by unfold State.signal; split <;> rfl
@[simp] theorem State.signal_reqs (s : State) (v : Nat) : (s.signal v).reqs = s.reqs := by unfold State.signal; split <;> rfl
@[simp] theorem State.signal_reads (s : State) (v : Nat) : (s.signal v).reads = s.reads := by unfold State.signal; split <;> rfl
@[simp] theorem State.signal_nextRead (s : State) (v : Nat) : (s.signal v).nextRead = s.nextRead := by unfold State.signal; split <;> rfl
@[simp] theorem State.signal_combine (s : State) (v : Nat) : (s.signal v).combine = s.combine := by unfold State.signal; split <;> rfl
@[simp] theorem State.signal_doms (s : State) (v : Nat) : (s.signal v).doms = s.doms := by unfold State.signal; split <;> rfl
@[simp] theorem State.signal_dirs (s : State) (v : Nat) : (s.signal v).dirs = s.dirs := by unfold State.signal; split <;> rfl
@[simp] theorem State.signal_migs (s : State) (v : Nat) : (s.signal v).migs = s.migs := by unfold State.signal; split <;> rfl
@[simp] theorem State.signal_reps (s : State) (v : Nat) : (s.signal v).reps = s.reps := by unfold State.signal; split <;> rfl
@[simp] theorem State.signal_replicas (s : State) (v : Nat) : (s.signal v).replicas = s.replicas := by unfold State.signal; split <;> rfl
@[simp] theorem State.signal_cool (s : State) (v : Nat) : (s.signal v).cool = s.cool := by unfold State.signal; split <;> rfl
@[simp] theorem State.signal_pin (s : State) (v : Nat) : (s.signal v).pin = s.pin := by unfold State.signal; split <;> rfl
@[simp] theorem State.signal_lastDie (s : State) (v : Nat) : (s.signal v).lastDie = s.lastDie := by unfold State.signal; split <;> rfl
@[simp] theorem State.signal_pinJobs (s : State) (v : Nat) : (s.signal v).pinJobs = s.pinJobs := by unfold State.signal; split <;> rfl
@[simp] theorem State.signal_fports (s : State) (v : Nat) : (s.signal v).fports = s.fports := by unfold State.signal; split <;> rfl
@[simp] theorem State.signal_strms (s : State) (v : Nat) : (s.signal v).strms = s.strms := by unfold State.signal; split <;> rfl
@[simp] theorem State.signal_pair (s : State) (v : Nat) : (s.signal v).pair = s.pair := by unfold State.signal; split <;> rfl
@[simp] theorem State.signal_ctxs (s : State) (v : Nat) : (s.signal v).ctxs = s.ctxs := by unfold State.signal; split <;> rfl
@[simp] theorem State.signal_clusters (s : State) (v : Nat) : (s.signal v).clusters = s.clusters := by unfold State.signal; split <;> rfl
@[simp] theorem State.signal_scripts (s : State) (v : Nat) : (s.signal v).scripts = s.scripts := by unfold State.signal; split <;> rfl
@[simp] theorem State.signal_nextOp (s : State) (v : Nat) : (s.signal v).nextOp = s.nextOp := by unfold State.signal; split <;> rfl
@[simp] theorem State.signal_slots (s : State) (v : Nat) : (s.signal v).slots = s.slots := by unfold State.signal; split <;> rfl
@[simp] theorem State.signal_bindings (s : State) (v : Nat) : (s.signal v).bindings = s.bindings := by unfold State.signal; split <;> rfl
@[simp] theorem State.signal_cueNames (s : State) (v : Nat) : (s.signal v).cueNames = s.cueNames := by unfold State.signal; split <;> rfl
@[simp] theorem State.signal_direct (s : State) (v : Nat) : (s.signal v).direct = s.direct := by unfold State.signal; split <;> rfl
@[simp] theorem State.signal_host (s : State) (v : Nat) : (s.signal v).host = s.host := by unfold State.signal; split <;> rfl
@[simp] theorem State.signal_mem (s : State) (v : Nat) : (s.signal v).mem = s.mem := by unfold State.signal; split <;> rfl
@[simp] theorem State.signal_link (s : State) (v : Nat) : (s.signal v).link = s.link := by unfold State.signal; split <;> rfl
@[simp] theorem State.signal_net (s : State) (v : Nat) : (s.signal v).net = s.net := by unfold State.signal; split <;> rfl
@[simp] theorem State.signal_time (s : State) (v : Nat) : (s.signal v).time = s.time := by unfold State.signal; split <;> rfl
@[simp] theorem State.signal_ras (s : State) (v : Nat) : (s.signal v).ras = s.ras := by unfold State.signal; split <;> rfl
@[simp] theorem State.signal_mgmt (s : State) (v : Nat) : (s.signal v).mgmt = s.mgmt := by unfold State.signal; split <;> rfl
@[simp] theorem State.signal_freeCtr (s : State) (v : Nat) : (s.signal v).freeCtr = s.freeCtr := by unfold State.signal; split <;> rfl

@[simp] theorem State.setEvent_pending (s : State) (a : Nat) (v : Word) : (s.setEvent a v).pending = s.pending := by unfold State.setEvent; (repeat' split) <;> simp
@[simp] theorem State.setEvent_hbm (s : State) (a : Nat) (v : Word) : (s.setEvent a v).hbm = s.hbm := by unfold State.setEvent; (repeat' split) <;> simp
@[simp] theorem State.setEvent_scr (s : State) (a : Nat) (v : Word) : (s.setEvent a v).scr = s.scr := by unfold State.setEvent; (repeat' split) <;> simp
@[simp] theorem State.setEvent_pwr (s : State) (a : Nat) (v : Word) : (s.setEvent a v).pwr = s.pwr := by unfold State.setEvent; (repeat' split) <;> simp
@[simp] theorem State.setEvent_tables (s : State) (a : Nat) (v : Word) : (s.setEvent a v).tables = s.tables := by unfold State.setEvent; (repeat' split) <;> simp
@[simp] theorem State.setEvent_loads (s : State) (a : Nat) (v : Word) : (s.setEvent a v).loads = s.loads := by unfold State.setEvent; (repeat' split) <;> simp
@[simp] theorem State.setEvent_commits (s : State) (a : Nat) (v : Word) : (s.setEvent a v).commits = s.commits := by unfold State.setEvent; (repeat' split) <;> simp
@[simp] theorem State.setEvent_nextCid (s : State) (a : Nat) (v : Word) : (s.setEvent a v).nextCid = s.nextCid := by unfold State.setEvent; (repeat' split) <;> simp
@[simp] theorem State.setEvent_heap (s : State) (a : Nat) (v : Word) : (s.setEvent a v).heap = s.heap := by unfold State.setEvent; (repeat' split) <;> simp
@[simp] theorem State.setEvent_lostRows (s : State) (a : Nat) (v : Word) : (s.setEvent a v).lostRows = s.lostRows := by unfold State.setEvent; (repeat' split) <;> simp
@[simp] theorem State.setEvent_gpes (s : State) (a : Nat) (v : Word) : (s.setEvent a v).gpes = s.gpes := by unfold State.setEvent; (repeat' split) <;> simp
@[simp] theorem State.setEvent_reqs (s : State) (a : Nat) (v : Word) : (s.setEvent a v).reqs = s.reqs := by unfold State.setEvent; (repeat' split) <;> simp
@[simp] theorem State.setEvent_reads (s : State) (a : Nat) (v : Word) : (s.setEvent a v).reads = s.reads := by unfold State.setEvent; (repeat' split) <;> simp
@[simp] theorem State.setEvent_nextRead (s : State) (a : Nat) (v : Word) : (s.setEvent a v).nextRead = s.nextRead := by unfold State.setEvent; (repeat' split) <;> simp
@[simp] theorem State.setEvent_combine (s : State) (a : Nat) (v : Word) : (s.setEvent a v).combine = s.combine := by unfold State.setEvent; (repeat' split) <;> simp
@[simp] theorem State.setEvent_doms (s : State) (a : Nat) (v : Word) : (s.setEvent a v).doms = s.doms := by unfold State.setEvent; (repeat' split) <;> simp
@[simp] theorem State.setEvent_dirs (s : State) (a : Nat) (v : Word) : (s.setEvent a v).dirs = s.dirs := by unfold State.setEvent; (repeat' split) <;> simp
@[simp] theorem State.setEvent_migs (s : State) (a : Nat) (v : Word) : (s.setEvent a v).migs = s.migs := by unfold State.setEvent; (repeat' split) <;> simp
@[simp] theorem State.setEvent_reps (s : State) (a : Nat) (v : Word) : (s.setEvent a v).reps = s.reps := by unfold State.setEvent; (repeat' split) <;> simp
@[simp] theorem State.setEvent_replicas (s : State) (a : Nat) (v : Word) : (s.setEvent a v).replicas = s.replicas := by unfold State.setEvent; (repeat' split) <;> simp
@[simp] theorem State.setEvent_cool (s : State) (a : Nat) (v : Word) : (s.setEvent a v).cool = s.cool := by unfold State.setEvent; (repeat' split) <;> simp
@[simp] theorem State.setEvent_pin (s : State) (a : Nat) (v : Word) : (s.setEvent a v).pin = s.pin := by unfold State.setEvent; (repeat' split) <;> simp
@[simp] theorem State.setEvent_lastDie (s : State) (a : Nat) (v : Word) : (s.setEvent a v).lastDie = s.lastDie := by unfold State.setEvent; (repeat' split) <;> simp
@[simp] theorem State.setEvent_pinJobs (s : State) (a : Nat) (v : Word) : (s.setEvent a v).pinJobs = s.pinJobs := by unfold State.setEvent; (repeat' split) <;> simp
@[simp] theorem State.setEvent_fports (s : State) (a : Nat) (v : Word) : (s.setEvent a v).fports = s.fports := by unfold State.setEvent; (repeat' split) <;> simp
@[simp] theorem State.setEvent_strms (s : State) (a : Nat) (v : Word) : (s.setEvent a v).strms = s.strms := by unfold State.setEvent; (repeat' split) <;> simp
@[simp] theorem State.setEvent_pair (s : State) (a : Nat) (v : Word) : (s.setEvent a v).pair = s.pair := by unfold State.setEvent; (repeat' split) <;> simp
@[simp] theorem State.setEvent_ctxs (s : State) (a : Nat) (v : Word) : (s.setEvent a v).ctxs = s.ctxs := by unfold State.setEvent; (repeat' split) <;> simp
@[simp] theorem State.setEvent_clusters (s : State) (a : Nat) (v : Word) : (s.setEvent a v).clusters = s.clusters := by unfold State.setEvent; (repeat' split) <;> simp
@[simp] theorem State.setEvent_scripts (s : State) (a : Nat) (v : Word) : (s.setEvent a v).scripts = s.scripts := by unfold State.setEvent; (repeat' split) <;> simp
@[simp] theorem State.setEvent_nextOp (s : State) (a : Nat) (v : Word) : (s.setEvent a v).nextOp = s.nextOp := by unfold State.setEvent; (repeat' split) <;> simp
@[simp] theorem State.setEvent_slots (s : State) (a : Nat) (v : Word) : (s.setEvent a v).slots = s.slots := by unfold State.setEvent; (repeat' split) <;> simp
@[simp] theorem State.setEvent_bindings (s : State) (a : Nat) (v : Word) : (s.setEvent a v).bindings = s.bindings := by unfold State.setEvent; (repeat' split) <;> simp
@[simp] theorem State.setEvent_cueNames (s : State) (a : Nat) (v : Word) : (s.setEvent a v).cueNames = s.cueNames := by unfold State.setEvent; (repeat' split) <;> simp
@[simp] theorem State.setEvent_direct (s : State) (a : Nat) (v : Word) : (s.setEvent a v).direct = s.direct := by unfold State.setEvent; (repeat' split) <;> simp
@[simp] theorem State.setEvent_host (s : State) (a : Nat) (v : Word) : (s.setEvent a v).host = s.host := by unfold State.setEvent; (repeat' split) <;> simp
@[simp] theorem State.setEvent_mem (s : State) (a : Nat) (v : Word) : (s.setEvent a v).mem = s.mem := by unfold State.setEvent; (repeat' split) <;> simp
@[simp] theorem State.setEvent_link (s : State) (a : Nat) (v : Word) : (s.setEvent a v).link = s.link := by unfold State.setEvent; (repeat' split) <;> simp
@[simp] theorem State.setEvent_net (s : State) (a : Nat) (v : Word) : (s.setEvent a v).net = s.net := by unfold State.setEvent; (repeat' split) <;> simp
@[simp] theorem State.setEvent_time (s : State) (a : Nat) (v : Word) : (s.setEvent a v).time = s.time := by unfold State.setEvent; (repeat' split) <;> simp
@[simp] theorem State.setEvent_ras (s : State) (a : Nat) (v : Word) : (s.setEvent a v).ras = s.ras := by unfold State.setEvent; (repeat' split) <;> simp
@[simp] theorem State.setEvent_mgmt (s : State) (a : Nat) (v : Word) : (s.setEvent a v).mgmt = s.mgmt := by unfold State.setEvent; (repeat' split) <;> simp
@[simp] theorem State.setEvent_freeCtr (s : State) (a : Nat) (v : Word) : (s.setEvent a v).freeCtr = s.freeCtr := by unfold State.setEvent; (repeat' split) <;> simp

@[simp] theorem State.latch_pending (s : State) (a k : Nat) : (s.latch a k).pending = s.pending := by simp [State.latch]
@[simp] theorem State.latch_hbm (s : State) (a k : Nat) : (s.latch a k).hbm = s.hbm := by simp [State.latch]
@[simp] theorem State.latch_scr (s : State) (a k : Nat) : (s.latch a k).scr = s.scr := by simp [State.latch]
@[simp] theorem State.latch_pwr (s : State) (a k : Nat) : (s.latch a k).pwr = s.pwr := by simp [State.latch]
@[simp] theorem State.latch_tables (s : State) (a k : Nat) : (s.latch a k).tables = s.tables := by simp [State.latch]
@[simp] theorem State.latch_loads (s : State) (a k : Nat) : (s.latch a k).loads = s.loads := by simp [State.latch]
@[simp] theorem State.latch_commits (s : State) (a k : Nat) : (s.latch a k).commits = s.commits := by simp [State.latch]
@[simp] theorem State.latch_nextCid (s : State) (a k : Nat) : (s.latch a k).nextCid = s.nextCid := by simp [State.latch]
@[simp] theorem State.latch_heap (s : State) (a k : Nat) : (s.latch a k).heap = s.heap := by simp [State.latch]
@[simp] theorem State.latch_lostRows (s : State) (a k : Nat) : (s.latch a k).lostRows = s.lostRows := by simp [State.latch]
@[simp] theorem State.latch_gpes (s : State) (a k : Nat) : (s.latch a k).gpes = s.gpes := by simp [State.latch]
@[simp] theorem State.latch_reqs (s : State) (a k : Nat) : (s.latch a k).reqs = s.reqs := by simp [State.latch]
@[simp] theorem State.latch_reads (s : State) (a k : Nat) : (s.latch a k).reads = s.reads := by simp [State.latch]
@[simp] theorem State.latch_nextRead (s : State) (a k : Nat) : (s.latch a k).nextRead = s.nextRead := by simp [State.latch]
@[simp] theorem State.latch_combine (s : State) (a k : Nat) : (s.latch a k).combine = s.combine := by simp [State.latch]
@[simp] theorem State.latch_doms (s : State) (a k : Nat) : (s.latch a k).doms = s.doms := by simp [State.latch]
@[simp] theorem State.latch_dirs (s : State) (a k : Nat) : (s.latch a k).dirs = s.dirs := by simp [State.latch]
@[simp] theorem State.latch_migs (s : State) (a k : Nat) : (s.latch a k).migs = s.migs := by simp [State.latch]
@[simp] theorem State.latch_reps (s : State) (a k : Nat) : (s.latch a k).reps = s.reps := by simp [State.latch]
@[simp] theorem State.latch_replicas (s : State) (a k : Nat) : (s.latch a k).replicas = s.replicas := by simp [State.latch]
@[simp] theorem State.latch_cool (s : State) (a k : Nat) : (s.latch a k).cool = s.cool := by simp [State.latch]
@[simp] theorem State.latch_pin (s : State) (a k : Nat) : (s.latch a k).pin = s.pin := by simp [State.latch]
@[simp] theorem State.latch_lastDie (s : State) (a k : Nat) : (s.latch a k).lastDie = s.lastDie := by simp [State.latch]
@[simp] theorem State.latch_pinJobs (s : State) (a k : Nat) : (s.latch a k).pinJobs = s.pinJobs := by simp [State.latch]
@[simp] theorem State.latch_fports (s : State) (a k : Nat) : (s.latch a k).fports = s.fports := by simp [State.latch]
@[simp] theorem State.latch_strms (s : State) (a k : Nat) : (s.latch a k).strms = s.strms := by simp [State.latch]
@[simp] theorem State.latch_pair (s : State) (a k : Nat) : (s.latch a k).pair = s.pair := by simp [State.latch]
@[simp] theorem State.latch_ctxs (s : State) (a k : Nat) : (s.latch a k).ctxs = s.ctxs := by simp [State.latch]
@[simp] theorem State.latch_clusters (s : State) (a k : Nat) : (s.latch a k).clusters = s.clusters := by simp [State.latch]
@[simp] theorem State.latch_scripts (s : State) (a k : Nat) : (s.latch a k).scripts = s.scripts := by simp [State.latch]
@[simp] theorem State.latch_nextOp (s : State) (a k : Nat) : (s.latch a k).nextOp = s.nextOp := by simp [State.latch]
@[simp] theorem State.latch_slots (s : State) (a k : Nat) : (s.latch a k).slots = s.slots := by simp [State.latch]
@[simp] theorem State.latch_bindings (s : State) (a k : Nat) : (s.latch a k).bindings = s.bindings := by simp [State.latch]
@[simp] theorem State.latch_cueNames (s : State) (a k : Nat) : (s.latch a k).cueNames = s.cueNames := by simp [State.latch]
@[simp] theorem State.latch_direct (s : State) (a k : Nat) : (s.latch a k).direct = s.direct := by simp [State.latch]
@[simp] theorem State.latch_host (s : State) (a k : Nat) : (s.latch a k).host = s.host := by simp [State.latch]
@[simp] theorem State.latch_mem (s : State) (a k : Nat) : (s.latch a k).mem = s.mem := by simp [State.latch]
@[simp] theorem State.latch_link (s : State) (a k : Nat) : (s.latch a k).link = s.link := by simp [State.latch]
@[simp] theorem State.latch_net (s : State) (a k : Nat) : (s.latch a k).net = s.net := by simp [State.latch]
@[simp] theorem State.latch_time (s : State) (a k : Nat) : (s.latch a k).time = s.time := by simp [State.latch]
@[simp] theorem State.latch_ras (s : State) (a k : Nat) : (s.latch a k).ras = s.ras := by simp [State.latch]
@[simp] theorem State.latch_mgmt (s : State) (a k : Nat) : (s.latch a k).mgmt = s.mgmt := by simp [State.latch]
@[simp] theorem State.latch_freeCtr (s : State) (a k : Nat) : (s.latch a k).freeCtr = s.freeCtr := by simp [State.latch]

@[simp] theorem State.sendFrame_pending (s : State) (p : Nat) (o : Out) : (s.sendFrame p o).pending = s.pending := rfl
@[simp] theorem State.sendFrame_hbm (s : State) (p : Nat) (o : Out) : (s.sendFrame p o).hbm = s.hbm := rfl
@[simp] theorem State.sendFrame_scr (s : State) (p : Nat) (o : Out) : (s.sendFrame p o).scr = s.scr := rfl
@[simp] theorem State.sendFrame_pwr (s : State) (p : Nat) (o : Out) : (s.sendFrame p o).pwr = s.pwr := rfl
@[simp] theorem State.sendFrame_tables (s : State) (p : Nat) (o : Out) : (s.sendFrame p o).tables = s.tables := rfl
@[simp] theorem State.sendFrame_loads (s : State) (p : Nat) (o : Out) : (s.sendFrame p o).loads = s.loads := rfl
@[simp] theorem State.sendFrame_commits (s : State) (p : Nat) (o : Out) : (s.sendFrame p o).commits = s.commits := rfl
@[simp] theorem State.sendFrame_nextCid (s : State) (p : Nat) (o : Out) : (s.sendFrame p o).nextCid = s.nextCid := rfl
@[simp] theorem State.sendFrame_heap (s : State) (p : Nat) (o : Out) : (s.sendFrame p o).heap = s.heap := rfl
@[simp] theorem State.sendFrame_lostRows (s : State) (p : Nat) (o : Out) : (s.sendFrame p o).lostRows = s.lostRows := rfl
@[simp] theorem State.sendFrame_gpes (s : State) (p : Nat) (o : Out) : (s.sendFrame p o).gpes = s.gpes := rfl
@[simp] theorem State.sendFrame_reqs (s : State) (p : Nat) (o : Out) : (s.sendFrame p o).reqs = s.reqs := rfl
@[simp] theorem State.sendFrame_reads (s : State) (p : Nat) (o : Out) : (s.sendFrame p o).reads = s.reads := rfl
@[simp] theorem State.sendFrame_nextRead (s : State) (p : Nat) (o : Out) : (s.sendFrame p o).nextRead = s.nextRead := rfl
@[simp] theorem State.sendFrame_combine (s : State) (p : Nat) (o : Out) : (s.sendFrame p o).combine = s.combine := rfl
@[simp] theorem State.sendFrame_doms (s : State) (p : Nat) (o : Out) : (s.sendFrame p o).doms = s.doms := rfl
@[simp] theorem State.sendFrame_dirs (s : State) (p : Nat) (o : Out) : (s.sendFrame p o).dirs = s.dirs := rfl
@[simp] theorem State.sendFrame_migs (s : State) (p : Nat) (o : Out) : (s.sendFrame p o).migs = s.migs := rfl
@[simp] theorem State.sendFrame_reps (s : State) (p : Nat) (o : Out) : (s.sendFrame p o).reps = s.reps := rfl
@[simp] theorem State.sendFrame_replicas (s : State) (p : Nat) (o : Out) : (s.sendFrame p o).replicas = s.replicas := rfl
@[simp] theorem State.sendFrame_cool (s : State) (p : Nat) (o : Out) : (s.sendFrame p o).cool = s.cool := rfl
@[simp] theorem State.sendFrame_pin (s : State) (p : Nat) (o : Out) : (s.sendFrame p o).pin = s.pin := rfl
@[simp] theorem State.sendFrame_lastDie (s : State) (p : Nat) (o : Out) : (s.sendFrame p o).lastDie = s.lastDie := rfl
@[simp] theorem State.sendFrame_pinJobs (s : State) (p : Nat) (o : Out) : (s.sendFrame p o).pinJobs = s.pinJobs := rfl
@[simp] theorem State.sendFrame_fports (s : State) (p : Nat) (o : Out) : (s.sendFrame p o).fports = s.fports := rfl
@[simp] theorem State.sendFrame_strms (s : State) (p : Nat) (o : Out) : (s.sendFrame p o).strms = s.strms := rfl
@[simp] theorem State.sendFrame_pair (s : State) (p : Nat) (o : Out) : (s.sendFrame p o).pair = s.pair := rfl
@[simp] theorem State.sendFrame_ctxs (s : State) (p : Nat) (o : Out) : (s.sendFrame p o).ctxs = s.ctxs := rfl
@[simp] theorem State.sendFrame_clusters (s : State) (p : Nat) (o : Out) : (s.sendFrame p o).clusters = s.clusters := rfl
@[simp] theorem State.sendFrame_scripts (s : State) (p : Nat) (o : Out) : (s.sendFrame p o).scripts = s.scripts := rfl
@[simp] theorem State.sendFrame_nextOp (s : State) (p : Nat) (o : Out) : (s.sendFrame p o).nextOp = s.nextOp := rfl
@[simp] theorem State.sendFrame_slots (s : State) (p : Nat) (o : Out) : (s.sendFrame p o).slots = s.slots := rfl
@[simp] theorem State.sendFrame_bindings (s : State) (p : Nat) (o : Out) : (s.sendFrame p o).bindings = s.bindings := rfl
@[simp] theorem State.sendFrame_cueNames (s : State) (p : Nat) (o : Out) : (s.sendFrame p o).cueNames = s.cueNames := rfl
@[simp] theorem State.sendFrame_direct (s : State) (p : Nat) (o : Out) : (s.sendFrame p o).direct = s.direct := rfl
@[simp] theorem State.sendFrame_host (s : State) (p : Nat) (o : Out) : (s.sendFrame p o).host = s.host := rfl
@[simp] theorem State.sendFrame_mem (s : State) (p : Nat) (o : Out) : (s.sendFrame p o).mem = s.mem := rfl
@[simp] theorem State.sendFrame_link (s : State) (p : Nat) (o : Out) : (s.sendFrame p o).link = s.link := rfl
@[simp] theorem State.sendFrame_net (s : State) (p : Nat) (o : Out) : (s.sendFrame p o).net = s.net := rfl
@[simp] theorem State.sendFrame_time (s : State) (p : Nat) (o : Out) : (s.sendFrame p o).time = s.time := rfl
@[simp] theorem State.sendFrame_ras (s : State) (p : Nat) (o : Out) : (s.sendFrame p o).ras = s.ras := rfl
@[simp] theorem State.sendFrame_mgmt (s : State) (p : Nat) (o : Out) : (s.sendFrame p o).mgmt = s.mgmt := rfl
@[simp] theorem State.sendFrame_out (s : State) (p : Nat) (o : Out) : (s.sendFrame p o).out = s.out ++ [o] := rfl
@[simp] theorem State.sendFrame_freeCtr (s : State) (p : Nat) (o : Out) : (s.sendFrame p o).freeCtr = s.freeCtr := rfl

@[simp] theorem State.rxFrame_pending (s : State) (p : Nat) : (s.rxFrame p).pending = s.pending := rfl
@[simp] theorem State.rxFrame_hbm (s : State) (p : Nat) : (s.rxFrame p).hbm = s.hbm := rfl
@[simp] theorem State.rxFrame_scr (s : State) (p : Nat) : (s.rxFrame p).scr = s.scr := rfl
@[simp] theorem State.rxFrame_pwr (s : State) (p : Nat) : (s.rxFrame p).pwr = s.pwr := rfl
@[simp] theorem State.rxFrame_tables (s : State) (p : Nat) : (s.rxFrame p).tables = s.tables := rfl
@[simp] theorem State.rxFrame_loads (s : State) (p : Nat) : (s.rxFrame p).loads = s.loads := rfl
@[simp] theorem State.rxFrame_commits (s : State) (p : Nat) : (s.rxFrame p).commits = s.commits := rfl
@[simp] theorem State.rxFrame_nextCid (s : State) (p : Nat) : (s.rxFrame p).nextCid = s.nextCid := rfl
@[simp] theorem State.rxFrame_heap (s : State) (p : Nat) : (s.rxFrame p).heap = s.heap := rfl
@[simp] theorem State.rxFrame_lostRows (s : State) (p : Nat) : (s.rxFrame p).lostRows = s.lostRows := rfl
@[simp] theorem State.rxFrame_gpes (s : State) (p : Nat) : (s.rxFrame p).gpes = s.gpes := rfl
@[simp] theorem State.rxFrame_reqs (s : State) (p : Nat) : (s.rxFrame p).reqs = s.reqs := rfl
@[simp] theorem State.rxFrame_reads (s : State) (p : Nat) : (s.rxFrame p).reads = s.reads := rfl
@[simp] theorem State.rxFrame_nextRead (s : State) (p : Nat) : (s.rxFrame p).nextRead = s.nextRead := rfl
@[simp] theorem State.rxFrame_combine (s : State) (p : Nat) : (s.rxFrame p).combine = s.combine := rfl
@[simp] theorem State.rxFrame_doms (s : State) (p : Nat) : (s.rxFrame p).doms = s.doms := rfl
@[simp] theorem State.rxFrame_dirs (s : State) (p : Nat) : (s.rxFrame p).dirs = s.dirs := rfl
@[simp] theorem State.rxFrame_migs (s : State) (p : Nat) : (s.rxFrame p).migs = s.migs := rfl
@[simp] theorem State.rxFrame_reps (s : State) (p : Nat) : (s.rxFrame p).reps = s.reps := rfl
@[simp] theorem State.rxFrame_replicas (s : State) (p : Nat) : (s.rxFrame p).replicas = s.replicas := rfl
@[simp] theorem State.rxFrame_cool (s : State) (p : Nat) : (s.rxFrame p).cool = s.cool := rfl
@[simp] theorem State.rxFrame_pin (s : State) (p : Nat) : (s.rxFrame p).pin = s.pin := rfl
@[simp] theorem State.rxFrame_lastDie (s : State) (p : Nat) : (s.rxFrame p).lastDie = s.lastDie := rfl
@[simp] theorem State.rxFrame_pinJobs (s : State) (p : Nat) : (s.rxFrame p).pinJobs = s.pinJobs := rfl
@[simp] theorem State.rxFrame_fports (s : State) (p : Nat) : (s.rxFrame p).fports = s.fports := rfl
@[simp] theorem State.rxFrame_strms (s : State) (p : Nat) : (s.rxFrame p).strms = s.strms := rfl
@[simp] theorem State.rxFrame_pair (s : State) (p : Nat) : (s.rxFrame p).pair = s.pair := rfl
@[simp] theorem State.rxFrame_ctxs (s : State) (p : Nat) : (s.rxFrame p).ctxs = s.ctxs := rfl
@[simp] theorem State.rxFrame_clusters (s : State) (p : Nat) : (s.rxFrame p).clusters = s.clusters := rfl
@[simp] theorem State.rxFrame_scripts (s : State) (p : Nat) : (s.rxFrame p).scripts = s.scripts := rfl
@[simp] theorem State.rxFrame_nextOp (s : State) (p : Nat) : (s.rxFrame p).nextOp = s.nextOp := rfl
@[simp] theorem State.rxFrame_slots (s : State) (p : Nat) : (s.rxFrame p).slots = s.slots := rfl
@[simp] theorem State.rxFrame_bindings (s : State) (p : Nat) : (s.rxFrame p).bindings = s.bindings := rfl
@[simp] theorem State.rxFrame_cueNames (s : State) (p : Nat) : (s.rxFrame p).cueNames = s.cueNames := rfl
@[simp] theorem State.rxFrame_direct (s : State) (p : Nat) : (s.rxFrame p).direct = s.direct := rfl
@[simp] theorem State.rxFrame_host (s : State) (p : Nat) : (s.rxFrame p).host = s.host := rfl
@[simp] theorem State.rxFrame_mem (s : State) (p : Nat) : (s.rxFrame p).mem = s.mem := rfl
@[simp] theorem State.rxFrame_link (s : State) (p : Nat) : (s.rxFrame p).link = s.link := rfl
@[simp] theorem State.rxFrame_net (s : State) (p : Nat) : (s.rxFrame p).net = s.net := rfl
@[simp] theorem State.rxFrame_time (s : State) (p : Nat) : (s.rxFrame p).time = s.time := rfl
@[simp] theorem State.rxFrame_ras (s : State) (p : Nat) : (s.rxFrame p).ras = s.ras := rfl
@[simp] theorem State.rxFrame_mgmt (s : State) (p : Nat) : (s.rxFrame p).mgmt = s.mgmt := rfl
@[simp] theorem State.rxFrame_out (s : State) (p : Nat) : (s.rxFrame p).out = s.out := rfl
@[simp] theorem State.rxFrame_freeCtr (s : State) (p : Nat) : (s.rxFrame p).freeCtr = s.freeCtr := rfl

@[simp] theorem State.modSlot_pending (s : State) (k : Nat) (f : QSlot → QSlot) : (s.modSlot k f).pending = s.pending := rfl
@[simp] theorem State.modSlot_regs (s : State) (k : Nat) (f : QSlot → QSlot) : (s.modSlot k f).regs = s.regs := rfl
@[simp] theorem State.modSlot_hbm (s : State) (k : Nat) (f : QSlot → QSlot) : (s.modSlot k f).hbm = s.hbm := rfl
@[simp] theorem State.modSlot_scr (s : State) (k : Nat) (f : QSlot → QSlot) : (s.modSlot k f).scr = s.scr := rfl
@[simp] theorem State.modSlot_pwr (s : State) (k : Nat) (f : QSlot → QSlot) : (s.modSlot k f).pwr = s.pwr := rfl
@[simp] theorem State.modSlot_tables (s : State) (k : Nat) (f : QSlot → QSlot) : (s.modSlot k f).tables = s.tables := rfl
@[simp] theorem State.modSlot_loads (s : State) (k : Nat) (f : QSlot → QSlot) : (s.modSlot k f).loads = s.loads := rfl
@[simp] theorem State.modSlot_commits (s : State) (k : Nat) (f : QSlot → QSlot) : (s.modSlot k f).commits = s.commits := rfl
@[simp] theorem State.modSlot_nextCid (s : State) (k : Nat) (f : QSlot → QSlot) : (s.modSlot k f).nextCid = s.nextCid := rfl
@[simp] theorem State.modSlot_heap (s : State) (k : Nat) (f : QSlot → QSlot) : (s.modSlot k f).heap = s.heap := rfl
@[simp] theorem State.modSlot_lostRows (s : State) (k : Nat) (f : QSlot → QSlot) : (s.modSlot k f).lostRows = s.lostRows := rfl
@[simp] theorem State.modSlot_gpes (s : State) (k : Nat) (f : QSlot → QSlot) : (s.modSlot k f).gpes = s.gpes := rfl
@[simp] theorem State.modSlot_reqs (s : State) (k : Nat) (f : QSlot → QSlot) : (s.modSlot k f).reqs = s.reqs := rfl
@[simp] theorem State.modSlot_reads (s : State) (k : Nat) (f : QSlot → QSlot) : (s.modSlot k f).reads = s.reads := rfl
@[simp] theorem State.modSlot_nextRead (s : State) (k : Nat) (f : QSlot → QSlot) : (s.modSlot k f).nextRead = s.nextRead := rfl
@[simp] theorem State.modSlot_combine (s : State) (k : Nat) (f : QSlot → QSlot) : (s.modSlot k f).combine = s.combine := rfl
@[simp] theorem State.modSlot_doms (s : State) (k : Nat) (f : QSlot → QSlot) : (s.modSlot k f).doms = s.doms := rfl
@[simp] theorem State.modSlot_dirs (s : State) (k : Nat) (f : QSlot → QSlot) : (s.modSlot k f).dirs = s.dirs := rfl
@[simp] theorem State.modSlot_migs (s : State) (k : Nat) (f : QSlot → QSlot) : (s.modSlot k f).migs = s.migs := rfl
@[simp] theorem State.modSlot_reps (s : State) (k : Nat) (f : QSlot → QSlot) : (s.modSlot k f).reps = s.reps := rfl
@[simp] theorem State.modSlot_replicas (s : State) (k : Nat) (f : QSlot → QSlot) : (s.modSlot k f).replicas = s.replicas := rfl
@[simp] theorem State.modSlot_cool (s : State) (k : Nat) (f : QSlot → QSlot) : (s.modSlot k f).cool = s.cool := rfl
@[simp] theorem State.modSlot_pin (s : State) (k : Nat) (f : QSlot → QSlot) : (s.modSlot k f).pin = s.pin := rfl
@[simp] theorem State.modSlot_lastDie (s : State) (k : Nat) (f : QSlot → QSlot) : (s.modSlot k f).lastDie = s.lastDie := rfl
@[simp] theorem State.modSlot_pinJobs (s : State) (k : Nat) (f : QSlot → QSlot) : (s.modSlot k f).pinJobs = s.pinJobs := rfl
@[simp] theorem State.modSlot_fports (s : State) (k : Nat) (f : QSlot → QSlot) : (s.modSlot k f).fports = s.fports := rfl
@[simp] theorem State.modSlot_strms (s : State) (k : Nat) (f : QSlot → QSlot) : (s.modSlot k f).strms = s.strms := rfl
@[simp] theorem State.modSlot_pair (s : State) (k : Nat) (f : QSlot → QSlot) : (s.modSlot k f).pair = s.pair := rfl
@[simp] theorem State.modSlot_ctxs (s : State) (k : Nat) (f : QSlot → QSlot) : (s.modSlot k f).ctxs = s.ctxs := rfl
@[simp] theorem State.modSlot_clusters (s : State) (k : Nat) (f : QSlot → QSlot) : (s.modSlot k f).clusters = s.clusters := rfl
@[simp] theorem State.modSlot_scripts (s : State) (k : Nat) (f : QSlot → QSlot) : (s.modSlot k f).scripts = s.scripts := rfl
@[simp] theorem State.modSlot_nextOp (s : State) (k : Nat) (f : QSlot → QSlot) : (s.modSlot k f).nextOp = s.nextOp := rfl
@[simp] theorem State.modSlot_slots (s : State) (k : Nat) (f : QSlot → QSlot) : (s.modSlot k f).slots = s.slots.modify k f := rfl
@[simp] theorem State.modSlot_bindings (s : State) (k : Nat) (f : QSlot → QSlot) : (s.modSlot k f).bindings = s.bindings := rfl
@[simp] theorem State.modSlot_cueNames (s : State) (k : Nat) (f : QSlot → QSlot) : (s.modSlot k f).cueNames = s.cueNames := rfl
@[simp] theorem State.modSlot_direct (s : State) (k : Nat) (f : QSlot → QSlot) : (s.modSlot k f).direct = s.direct := rfl
@[simp] theorem State.modSlot_host (s : State) (k : Nat) (f : QSlot → QSlot) : (s.modSlot k f).host = s.host := rfl
@[simp] theorem State.modSlot_mem (s : State) (k : Nat) (f : QSlot → QSlot) : (s.modSlot k f).mem = s.mem := rfl
@[simp] theorem State.modSlot_link (s : State) (k : Nat) (f : QSlot → QSlot) : (s.modSlot k f).link = s.link := rfl
@[simp] theorem State.modSlot_net (s : State) (k : Nat) (f : QSlot → QSlot) : (s.modSlot k f).net = s.net := rfl
@[simp] theorem State.modSlot_time (s : State) (k : Nat) (f : QSlot → QSlot) : (s.modSlot k f).time = s.time := rfl
@[simp] theorem State.modSlot_ras (s : State) (k : Nat) (f : QSlot → QSlot) : (s.modSlot k f).ras = s.ras := rfl
@[simp] theorem State.modSlot_mgmt (s : State) (k : Nat) (f : QSlot → QSlot) : (s.modSlot k f).mgmt = s.mgmt := rfl
@[simp] theorem State.modSlot_out (s : State) (k : Nat) (f : QSlot → QSlot) : (s.modSlot k f).out = s.out := rfl
@[simp] theorem State.modSlot_freeCtr (s : State) (k : Nat) (f : QSlot → QSlot) : (s.modSlot k f).freeCtr = s.freeCtr := rfl

@[simp] theorem State.modGpe_pending (s : State) (d : Nat) (f : Gpe → Gpe) : (s.modGpe d f).pending = s.pending := rfl
@[simp] theorem State.modGpe_regs (s : State) (d : Nat) (f : Gpe → Gpe) : (s.modGpe d f).regs = s.regs := rfl
@[simp] theorem State.modGpe_hbm (s : State) (d : Nat) (f : Gpe → Gpe) : (s.modGpe d f).hbm = s.hbm := rfl
@[simp] theorem State.modGpe_scr (s : State) (d : Nat) (f : Gpe → Gpe) : (s.modGpe d f).scr = s.scr := rfl
@[simp] theorem State.modGpe_pwr (s : State) (d : Nat) (f : Gpe → Gpe) : (s.modGpe d f).pwr = s.pwr := rfl
@[simp] theorem State.modGpe_tables (s : State) (d : Nat) (f : Gpe → Gpe) : (s.modGpe d f).tables = s.tables := rfl
@[simp] theorem State.modGpe_loads (s : State) (d : Nat) (f : Gpe → Gpe) : (s.modGpe d f).loads = s.loads := rfl
@[simp] theorem State.modGpe_commits (s : State) (d : Nat) (f : Gpe → Gpe) : (s.modGpe d f).commits = s.commits := rfl
@[simp] theorem State.modGpe_nextCid (s : State) (d : Nat) (f : Gpe → Gpe) : (s.modGpe d f).nextCid = s.nextCid := rfl
@[simp] theorem State.modGpe_heap (s : State) (d : Nat) (f : Gpe → Gpe) : (s.modGpe d f).heap = s.heap := rfl
@[simp] theorem State.modGpe_lostRows (s : State) (d : Nat) (f : Gpe → Gpe) : (s.modGpe d f).lostRows = s.lostRows := rfl
@[simp] theorem State.modGpe_gpes (s : State) (d : Nat) (f : Gpe → Gpe) : (s.modGpe d f).gpes = s.gpes.modify d f := rfl
@[simp] theorem State.modGpe_reqs (s : State) (d : Nat) (f : Gpe → Gpe) : (s.modGpe d f).reqs = s.reqs := rfl
@[simp] theorem State.modGpe_reads (s : State) (d : Nat) (f : Gpe → Gpe) : (s.modGpe d f).reads = s.reads := rfl
@[simp] theorem State.modGpe_nextRead (s : State) (d : Nat) (f : Gpe → Gpe) : (s.modGpe d f).nextRead = s.nextRead := rfl
@[simp] theorem State.modGpe_combine (s : State) (d : Nat) (f : Gpe → Gpe) : (s.modGpe d f).combine = s.combine := rfl
@[simp] theorem State.modGpe_doms (s : State) (d : Nat) (f : Gpe → Gpe) : (s.modGpe d f).doms = s.doms := rfl
@[simp] theorem State.modGpe_dirs (s : State) (d : Nat) (f : Gpe → Gpe) : (s.modGpe d f).dirs = s.dirs := rfl
@[simp] theorem State.modGpe_migs (s : State) (d : Nat) (f : Gpe → Gpe) : (s.modGpe d f).migs = s.migs := rfl
@[simp] theorem State.modGpe_reps (s : State) (d : Nat) (f : Gpe → Gpe) : (s.modGpe d f).reps = s.reps := rfl
@[simp] theorem State.modGpe_replicas (s : State) (d : Nat) (f : Gpe → Gpe) : (s.modGpe d f).replicas = s.replicas := rfl
@[simp] theorem State.modGpe_cool (s : State) (d : Nat) (f : Gpe → Gpe) : (s.modGpe d f).cool = s.cool := rfl
@[simp] theorem State.modGpe_pin (s : State) (d : Nat) (f : Gpe → Gpe) : (s.modGpe d f).pin = s.pin := rfl
@[simp] theorem State.modGpe_lastDie (s : State) (d : Nat) (f : Gpe → Gpe) : (s.modGpe d f).lastDie = s.lastDie := rfl
@[simp] theorem State.modGpe_pinJobs (s : State) (d : Nat) (f : Gpe → Gpe) : (s.modGpe d f).pinJobs = s.pinJobs := rfl
@[simp] theorem State.modGpe_fports (s : State) (d : Nat) (f : Gpe → Gpe) : (s.modGpe d f).fports = s.fports := rfl
@[simp] theorem State.modGpe_strms (s : State) (d : Nat) (f : Gpe → Gpe) : (s.modGpe d f).strms = s.strms := rfl
@[simp] theorem State.modGpe_pair (s : State) (d : Nat) (f : Gpe → Gpe) : (s.modGpe d f).pair = s.pair := rfl
@[simp] theorem State.modGpe_ctxs (s : State) (d : Nat) (f : Gpe → Gpe) : (s.modGpe d f).ctxs = s.ctxs := rfl
@[simp] theorem State.modGpe_clusters (s : State) (d : Nat) (f : Gpe → Gpe) : (s.modGpe d f).clusters = s.clusters := rfl
@[simp] theorem State.modGpe_scripts (s : State) (d : Nat) (f : Gpe → Gpe) : (s.modGpe d f).scripts = s.scripts := rfl
@[simp] theorem State.modGpe_nextOp (s : State) (d : Nat) (f : Gpe → Gpe) : (s.modGpe d f).nextOp = s.nextOp := rfl
@[simp] theorem State.modGpe_slots (s : State) (d : Nat) (f : Gpe → Gpe) : (s.modGpe d f).slots = s.slots := rfl
@[simp] theorem State.modGpe_bindings (s : State) (d : Nat) (f : Gpe → Gpe) : (s.modGpe d f).bindings = s.bindings := rfl
@[simp] theorem State.modGpe_cueNames (s : State) (d : Nat) (f : Gpe → Gpe) : (s.modGpe d f).cueNames = s.cueNames := rfl
@[simp] theorem State.modGpe_direct (s : State) (d : Nat) (f : Gpe → Gpe) : (s.modGpe d f).direct = s.direct := rfl
@[simp] theorem State.modGpe_host (s : State) (d : Nat) (f : Gpe → Gpe) : (s.modGpe d f).host = s.host := rfl
@[simp] theorem State.modGpe_mem (s : State) (d : Nat) (f : Gpe → Gpe) : (s.modGpe d f).mem = s.mem := rfl
@[simp] theorem State.modGpe_link (s : State) (d : Nat) (f : Gpe → Gpe) : (s.modGpe d f).link = s.link := rfl
@[simp] theorem State.modGpe_net (s : State) (d : Nat) (f : Gpe → Gpe) : (s.modGpe d f).net = s.net := rfl
@[simp] theorem State.modGpe_time (s : State) (d : Nat) (f : Gpe → Gpe) : (s.modGpe d f).time = s.time := rfl
@[simp] theorem State.modGpe_ras (s : State) (d : Nat) (f : Gpe → Gpe) : (s.modGpe d f).ras = s.ras := rfl
@[simp] theorem State.modGpe_mgmt (s : State) (d : Nat) (f : Gpe → Gpe) : (s.modGpe d f).mgmt = s.mgmt := rfl
@[simp] theorem State.modGpe_out (s : State) (d : Nat) (f : Gpe → Gpe) : (s.modGpe d f).out = s.out := rfl
@[simp] theorem State.modGpe_freeCtr (s : State) (d : Nat) (f : Gpe → Gpe) : (s.modGpe d f).freeCtr = s.freeCtr := rfl

@[simp] theorem State.modCluster_pending (s : State) (c : Nat) (f : Cluster → Cluster) : (s.modCluster c f).pending = s.pending := rfl
@[simp] theorem State.modCluster_regs (s : State) (c : Nat) (f : Cluster → Cluster) : (s.modCluster c f).regs = s.regs := rfl
@[simp] theorem State.modCluster_hbm (s : State) (c : Nat) (f : Cluster → Cluster) : (s.modCluster c f).hbm = s.hbm := rfl
@[simp] theorem State.modCluster_scr (s : State) (c : Nat) (f : Cluster → Cluster) : (s.modCluster c f).scr = s.scr := rfl
@[simp] theorem State.modCluster_pwr (s : State) (c : Nat) (f : Cluster → Cluster) : (s.modCluster c f).pwr = s.pwr := rfl
@[simp] theorem State.modCluster_tables (s : State) (c : Nat) (f : Cluster → Cluster) : (s.modCluster c f).tables = s.tables := rfl
@[simp] theorem State.modCluster_loads (s : State) (c : Nat) (f : Cluster → Cluster) : (s.modCluster c f).loads = s.loads := rfl
@[simp] theorem State.modCluster_commits (s : State) (c : Nat) (f : Cluster → Cluster) : (s.modCluster c f).commits = s.commits := rfl
@[simp] theorem State.modCluster_nextCid (s : State) (c : Nat) (f : Cluster → Cluster) : (s.modCluster c f).nextCid = s.nextCid := rfl
@[simp] theorem State.modCluster_heap (s : State) (c : Nat) (f : Cluster → Cluster) : (s.modCluster c f).heap = s.heap := rfl
@[simp] theorem State.modCluster_lostRows (s : State) (c : Nat) (f : Cluster → Cluster) : (s.modCluster c f).lostRows = s.lostRows := rfl
@[simp] theorem State.modCluster_gpes (s : State) (c : Nat) (f : Cluster → Cluster) : (s.modCluster c f).gpes = s.gpes := rfl
@[simp] theorem State.modCluster_reqs (s : State) (c : Nat) (f : Cluster → Cluster) : (s.modCluster c f).reqs = s.reqs := rfl
@[simp] theorem State.modCluster_reads (s : State) (c : Nat) (f : Cluster → Cluster) : (s.modCluster c f).reads = s.reads := rfl
@[simp] theorem State.modCluster_nextRead (s : State) (c : Nat) (f : Cluster → Cluster) : (s.modCluster c f).nextRead = s.nextRead := rfl
@[simp] theorem State.modCluster_combine (s : State) (c : Nat) (f : Cluster → Cluster) : (s.modCluster c f).combine = s.combine := rfl
@[simp] theorem State.modCluster_doms (s : State) (c : Nat) (f : Cluster → Cluster) : (s.modCluster c f).doms = s.doms := rfl
@[simp] theorem State.modCluster_dirs (s : State) (c : Nat) (f : Cluster → Cluster) : (s.modCluster c f).dirs = s.dirs := rfl
@[simp] theorem State.modCluster_migs (s : State) (c : Nat) (f : Cluster → Cluster) : (s.modCluster c f).migs = s.migs := rfl
@[simp] theorem State.modCluster_reps (s : State) (c : Nat) (f : Cluster → Cluster) : (s.modCluster c f).reps = s.reps := rfl
@[simp] theorem State.modCluster_replicas (s : State) (c : Nat) (f : Cluster → Cluster) : (s.modCluster c f).replicas = s.replicas := rfl
@[simp] theorem State.modCluster_cool (s : State) (c : Nat) (f : Cluster → Cluster) : (s.modCluster c f).cool = s.cool := rfl
@[simp] theorem State.modCluster_pin (s : State) (c : Nat) (f : Cluster → Cluster) : (s.modCluster c f).pin = s.pin := rfl
@[simp] theorem State.modCluster_lastDie (s : State) (c : Nat) (f : Cluster → Cluster) : (s.modCluster c f).lastDie = s.lastDie := rfl
@[simp] theorem State.modCluster_pinJobs (s : State) (c : Nat) (f : Cluster → Cluster) : (s.modCluster c f).pinJobs = s.pinJobs := rfl
@[simp] theorem State.modCluster_fports (s : State) (c : Nat) (f : Cluster → Cluster) : (s.modCluster c f).fports = s.fports := rfl
@[simp] theorem State.modCluster_strms (s : State) (c : Nat) (f : Cluster → Cluster) : (s.modCluster c f).strms = s.strms := rfl
@[simp] theorem State.modCluster_pair (s : State) (c : Nat) (f : Cluster → Cluster) : (s.modCluster c f).pair = s.pair := rfl
@[simp] theorem State.modCluster_ctxs (s : State) (c : Nat) (f : Cluster → Cluster) : (s.modCluster c f).ctxs = s.ctxs := rfl
@[simp] theorem State.modCluster_clusters (s : State) (c : Nat) (f : Cluster → Cluster) : (s.modCluster c f).clusters = s.clusters.modify c f := rfl
@[simp] theorem State.modCluster_scripts (s : State) (c : Nat) (f : Cluster → Cluster) : (s.modCluster c f).scripts = s.scripts := rfl
@[simp] theorem State.modCluster_nextOp (s : State) (c : Nat) (f : Cluster → Cluster) : (s.modCluster c f).nextOp = s.nextOp := rfl
@[simp] theorem State.modCluster_slots (s : State) (c : Nat) (f : Cluster → Cluster) : (s.modCluster c f).slots = s.slots := rfl
@[simp] theorem State.modCluster_bindings (s : State) (c : Nat) (f : Cluster → Cluster) : (s.modCluster c f).bindings = s.bindings := rfl
@[simp] theorem State.modCluster_cueNames (s : State) (c : Nat) (f : Cluster → Cluster) : (s.modCluster c f).cueNames = s.cueNames := rfl
@[simp] theorem State.modCluster_direct (s : State) (c : Nat) (f : Cluster → Cluster) : (s.modCluster c f).direct = s.direct := rfl
@[simp] theorem State.modCluster_host (s : State) (c : Nat) (f : Cluster → Cluster) : (s.modCluster c f).host = s.host := rfl
@[simp] theorem State.modCluster_mem (s : State) (c : Nat) (f : Cluster → Cluster) : (s.modCluster c f).mem = s.mem := rfl
@[simp] theorem State.modCluster_link (s : State) (c : Nat) (f : Cluster → Cluster) : (s.modCluster c f).link = s.link := rfl
@[simp] theorem State.modCluster_net (s : State) (c : Nat) (f : Cluster → Cluster) : (s.modCluster c f).net = s.net := rfl
@[simp] theorem State.modCluster_time (s : State) (c : Nat) (f : Cluster → Cluster) : (s.modCluster c f).time = s.time := rfl
@[simp] theorem State.modCluster_ras (s : State) (c : Nat) (f : Cluster → Cluster) : (s.modCluster c f).ras = s.ras := rfl
@[simp] theorem State.modCluster_mgmt (s : State) (c : Nat) (f : Cluster → Cluster) : (s.modCluster c f).mgmt = s.mgmt := rfl
@[simp] theorem State.modCluster_out (s : State) (c : Nat) (f : Cluster → Cluster) : (s.modCluster c f).out = s.out := rfl
@[simp] theorem State.modCluster_freeCtr (s : State) (c : Nat) (f : Cluster → Cluster) : (s.modCluster c f).freeCtr = s.freeCtr := rfl

@[simp] theorem State.modStrm_pending (s : State) (i : Nat) (f : Strm → Strm) : (s.modStrm i f).pending = s.pending := rfl
@[simp] theorem State.modStrm_regs (s : State) (i : Nat) (f : Strm → Strm) : (s.modStrm i f).regs = s.regs := rfl
@[simp] theorem State.modStrm_hbm (s : State) (i : Nat) (f : Strm → Strm) : (s.modStrm i f).hbm = s.hbm := rfl
@[simp] theorem State.modStrm_scr (s : State) (i : Nat) (f : Strm → Strm) : (s.modStrm i f).scr = s.scr := rfl
@[simp] theorem State.modStrm_pwr (s : State) (i : Nat) (f : Strm → Strm) : (s.modStrm i f).pwr = s.pwr := rfl
@[simp] theorem State.modStrm_tables (s : State) (i : Nat) (f : Strm → Strm) : (s.modStrm i f).tables = s.tables := rfl
@[simp] theorem State.modStrm_loads (s : State) (i : Nat) (f : Strm → Strm) : (s.modStrm i f).loads = s.loads := rfl
@[simp] theorem State.modStrm_commits (s : State) (i : Nat) (f : Strm → Strm) : (s.modStrm i f).commits = s.commits := rfl
@[simp] theorem State.modStrm_nextCid (s : State) (i : Nat) (f : Strm → Strm) : (s.modStrm i f).nextCid = s.nextCid := rfl
@[simp] theorem State.modStrm_heap (s : State) (i : Nat) (f : Strm → Strm) : (s.modStrm i f).heap = s.heap := rfl
@[simp] theorem State.modStrm_lostRows (s : State) (i : Nat) (f : Strm → Strm) : (s.modStrm i f).lostRows = s.lostRows := rfl
@[simp] theorem State.modStrm_gpes (s : State) (i : Nat) (f : Strm → Strm) : (s.modStrm i f).gpes = s.gpes := rfl
@[simp] theorem State.modStrm_reqs (s : State) (i : Nat) (f : Strm → Strm) : (s.modStrm i f).reqs = s.reqs := rfl
@[simp] theorem State.modStrm_reads (s : State) (i : Nat) (f : Strm → Strm) : (s.modStrm i f).reads = s.reads := rfl
@[simp] theorem State.modStrm_nextRead (s : State) (i : Nat) (f : Strm → Strm) : (s.modStrm i f).nextRead = s.nextRead := rfl
@[simp] theorem State.modStrm_combine (s : State) (i : Nat) (f : Strm → Strm) : (s.modStrm i f).combine = s.combine := rfl
@[simp] theorem State.modStrm_doms (s : State) (i : Nat) (f : Strm → Strm) : (s.modStrm i f).doms = s.doms := rfl
@[simp] theorem State.modStrm_dirs (s : State) (i : Nat) (f : Strm → Strm) : (s.modStrm i f).dirs = s.dirs := rfl
@[simp] theorem State.modStrm_migs (s : State) (i : Nat) (f : Strm → Strm) : (s.modStrm i f).migs = s.migs := rfl
@[simp] theorem State.modStrm_reps (s : State) (i : Nat) (f : Strm → Strm) : (s.modStrm i f).reps = s.reps := rfl
@[simp] theorem State.modStrm_replicas (s : State) (i : Nat) (f : Strm → Strm) : (s.modStrm i f).replicas = s.replicas := rfl
@[simp] theorem State.modStrm_cool (s : State) (i : Nat) (f : Strm → Strm) : (s.modStrm i f).cool = s.cool := rfl
@[simp] theorem State.modStrm_pin (s : State) (i : Nat) (f : Strm → Strm) : (s.modStrm i f).pin = s.pin := rfl
@[simp] theorem State.modStrm_lastDie (s : State) (i : Nat) (f : Strm → Strm) : (s.modStrm i f).lastDie = s.lastDie := rfl
@[simp] theorem State.modStrm_pinJobs (s : State) (i : Nat) (f : Strm → Strm) : (s.modStrm i f).pinJobs = s.pinJobs := rfl
@[simp] theorem State.modStrm_fports (s : State) (i : Nat) (f : Strm → Strm) : (s.modStrm i f).fports = s.fports := rfl
@[simp] theorem State.modStrm_strms (s : State) (i : Nat) (f : Strm → Strm) : (s.modStrm i f).strms = s.strms.modify i f := rfl
@[simp] theorem State.modStrm_pair (s : State) (i : Nat) (f : Strm → Strm) : (s.modStrm i f).pair = s.pair := rfl
@[simp] theorem State.modStrm_ctxs (s : State) (i : Nat) (f : Strm → Strm) : (s.modStrm i f).ctxs = s.ctxs := rfl
@[simp] theorem State.modStrm_clusters (s : State) (i : Nat) (f : Strm → Strm) : (s.modStrm i f).clusters = s.clusters := rfl
@[simp] theorem State.modStrm_scripts (s : State) (i : Nat) (f : Strm → Strm) : (s.modStrm i f).scripts = s.scripts := rfl
@[simp] theorem State.modStrm_nextOp (s : State) (i : Nat) (f : Strm → Strm) : (s.modStrm i f).nextOp = s.nextOp := rfl
@[simp] theorem State.modStrm_slots (s : State) (i : Nat) (f : Strm → Strm) : (s.modStrm i f).slots = s.slots := rfl
@[simp] theorem State.modStrm_bindings (s : State) (i : Nat) (f : Strm → Strm) : (s.modStrm i f).bindings = s.bindings := rfl
@[simp] theorem State.modStrm_cueNames (s : State) (i : Nat) (f : Strm → Strm) : (s.modStrm i f).cueNames = s.cueNames := rfl
@[simp] theorem State.modStrm_direct (s : State) (i : Nat) (f : Strm → Strm) : (s.modStrm i f).direct = s.direct := rfl
@[simp] theorem State.modStrm_host (s : State) (i : Nat) (f : Strm → Strm) : (s.modStrm i f).host = s.host := rfl
@[simp] theorem State.modStrm_mem (s : State) (i : Nat) (f : Strm → Strm) : (s.modStrm i f).mem = s.mem := rfl
@[simp] theorem State.modStrm_link (s : State) (i : Nat) (f : Strm → Strm) : (s.modStrm i f).link = s.link := rfl
@[simp] theorem State.modStrm_net (s : State) (i : Nat) (f : Strm → Strm) : (s.modStrm i f).net = s.net := rfl
@[simp] theorem State.modStrm_time (s : State) (i : Nat) (f : Strm → Strm) : (s.modStrm i f).time = s.time := rfl
@[simp] theorem State.modStrm_ras (s : State) (i : Nat) (f : Strm → Strm) : (s.modStrm i f).ras = s.ras := rfl
@[simp] theorem State.modStrm_mgmt (s : State) (i : Nat) (f : Strm → Strm) : (s.modStrm i f).mgmt = s.mgmt := rfl
@[simp] theorem State.modStrm_out (s : State) (i : Nat) (f : Strm → Strm) : (s.modStrm i f).out = s.out := rfl
@[simp] theorem State.modStrm_freeCtr (s : State) (i : Nat) (f : Strm → Strm) : (s.modStrm i f).freeCtr = s.freeCtr := rfl

@[simp] theorem State.modFPort_pending (s : State) (p : Nat) (f : FPort → FPort) : (s.modFPort p f).pending = s.pending := rfl
@[simp] theorem State.modFPort_regs (s : State) (p : Nat) (f : FPort → FPort) : (s.modFPort p f).regs = s.regs := rfl
@[simp] theorem State.modFPort_hbm (s : State) (p : Nat) (f : FPort → FPort) : (s.modFPort p f).hbm = s.hbm := rfl
@[simp] theorem State.modFPort_scr (s : State) (p : Nat) (f : FPort → FPort) : (s.modFPort p f).scr = s.scr := rfl
@[simp] theorem State.modFPort_pwr (s : State) (p : Nat) (f : FPort → FPort) : (s.modFPort p f).pwr = s.pwr := rfl
@[simp] theorem State.modFPort_tables (s : State) (p : Nat) (f : FPort → FPort) : (s.modFPort p f).tables = s.tables := rfl
@[simp] theorem State.modFPort_loads (s : State) (p : Nat) (f : FPort → FPort) : (s.modFPort p f).loads = s.loads := rfl
@[simp] theorem State.modFPort_commits (s : State) (p : Nat) (f : FPort → FPort) : (s.modFPort p f).commits = s.commits := rfl
@[simp] theorem State.modFPort_nextCid (s : State) (p : Nat) (f : FPort → FPort) : (s.modFPort p f).nextCid = s.nextCid := rfl
@[simp] theorem State.modFPort_heap (s : State) (p : Nat) (f : FPort → FPort) : (s.modFPort p f).heap = s.heap := rfl
@[simp] theorem State.modFPort_lostRows (s : State) (p : Nat) (f : FPort → FPort) : (s.modFPort p f).lostRows = s.lostRows := rfl
@[simp] theorem State.modFPort_gpes (s : State) (p : Nat) (f : FPort → FPort) : (s.modFPort p f).gpes = s.gpes := rfl
@[simp] theorem State.modFPort_reqs (s : State) (p : Nat) (f : FPort → FPort) : (s.modFPort p f).reqs = s.reqs := rfl
@[simp] theorem State.modFPort_reads (s : State) (p : Nat) (f : FPort → FPort) : (s.modFPort p f).reads = s.reads := rfl
@[simp] theorem State.modFPort_nextRead (s : State) (p : Nat) (f : FPort → FPort) : (s.modFPort p f).nextRead = s.nextRead := rfl
@[simp] theorem State.modFPort_combine (s : State) (p : Nat) (f : FPort → FPort) : (s.modFPort p f).combine = s.combine := rfl
@[simp] theorem State.modFPort_doms (s : State) (p : Nat) (f : FPort → FPort) : (s.modFPort p f).doms = s.doms := rfl
@[simp] theorem State.modFPort_dirs (s : State) (p : Nat) (f : FPort → FPort) : (s.modFPort p f).dirs = s.dirs := rfl
@[simp] theorem State.modFPort_migs (s : State) (p : Nat) (f : FPort → FPort) : (s.modFPort p f).migs = s.migs := rfl
@[simp] theorem State.modFPort_reps (s : State) (p : Nat) (f : FPort → FPort) : (s.modFPort p f).reps = s.reps := rfl
@[simp] theorem State.modFPort_replicas (s : State) (p : Nat) (f : FPort → FPort) : (s.modFPort p f).replicas = s.replicas := rfl
@[simp] theorem State.modFPort_cool (s : State) (p : Nat) (f : FPort → FPort) : (s.modFPort p f).cool = s.cool := rfl
@[simp] theorem State.modFPort_pin (s : State) (p : Nat) (f : FPort → FPort) : (s.modFPort p f).pin = s.pin := rfl
@[simp] theorem State.modFPort_lastDie (s : State) (p : Nat) (f : FPort → FPort) : (s.modFPort p f).lastDie = s.lastDie := rfl
@[simp] theorem State.modFPort_pinJobs (s : State) (p : Nat) (f : FPort → FPort) : (s.modFPort p f).pinJobs = s.pinJobs := rfl
@[simp] theorem State.modFPort_fports (s : State) (p : Nat) (f : FPort → FPort) : (s.modFPort p f).fports = s.fports.modify p f := rfl
@[simp] theorem State.modFPort_strms (s : State) (p : Nat) (f : FPort → FPort) : (s.modFPort p f).strms = s.strms := rfl
@[simp] theorem State.modFPort_pair (s : State) (p : Nat) (f : FPort → FPort) : (s.modFPort p f).pair = s.pair := rfl
@[simp] theorem State.modFPort_ctxs (s : State) (p : Nat) (f : FPort → FPort) : (s.modFPort p f).ctxs = s.ctxs := rfl
@[simp] theorem State.modFPort_clusters (s : State) (p : Nat) (f : FPort → FPort) : (s.modFPort p f).clusters = s.clusters := rfl
@[simp] theorem State.modFPort_scripts (s : State) (p : Nat) (f : FPort → FPort) : (s.modFPort p f).scripts = s.scripts := rfl
@[simp] theorem State.modFPort_nextOp (s : State) (p : Nat) (f : FPort → FPort) : (s.modFPort p f).nextOp = s.nextOp := rfl
@[simp] theorem State.modFPort_slots (s : State) (p : Nat) (f : FPort → FPort) : (s.modFPort p f).slots = s.slots := rfl
@[simp] theorem State.modFPort_bindings (s : State) (p : Nat) (f : FPort → FPort) : (s.modFPort p f).bindings = s.bindings := rfl
@[simp] theorem State.modFPort_cueNames (s : State) (p : Nat) (f : FPort → FPort) : (s.modFPort p f).cueNames = s.cueNames := rfl
@[simp] theorem State.modFPort_direct (s : State) (p : Nat) (f : FPort → FPort) : (s.modFPort p f).direct = s.direct := rfl
@[simp] theorem State.modFPort_host (s : State) (p : Nat) (f : FPort → FPort) : (s.modFPort p f).host = s.host := rfl
@[simp] theorem State.modFPort_mem (s : State) (p : Nat) (f : FPort → FPort) : (s.modFPort p f).mem = s.mem := rfl
@[simp] theorem State.modFPort_link (s : State) (p : Nat) (f : FPort → FPort) : (s.modFPort p f).link = s.link := rfl
@[simp] theorem State.modFPort_net (s : State) (p : Nat) (f : FPort → FPort) : (s.modFPort p f).net = s.net := rfl
@[simp] theorem State.modFPort_time (s : State) (p : Nat) (f : FPort → FPort) : (s.modFPort p f).time = s.time := rfl
@[simp] theorem State.modFPort_ras (s : State) (p : Nat) (f : FPort → FPort) : (s.modFPort p f).ras = s.ras := rfl
@[simp] theorem State.modFPort_mgmt (s : State) (p : Nat) (f : FPort → FPort) : (s.modFPort p f).mgmt = s.mgmt := rfl
@[simp] theorem State.modFPort_out (s : State) (p : Nat) (f : FPort → FPort) : (s.modFPort p f).out = s.out := rfl
@[simp] theorem State.modFPort_freeCtr (s : State) (p : Nat) (f : FPort → FPort) : (s.modFPort p f).freeCtr = s.freeCtr := rfl

@[simp] theorem State.modDom_pending (s : State) (i : Nat) (f : Dom → Dom) : (s.modDom i f).pending = s.pending := rfl
@[simp] theorem State.modDom_regs (s : State) (i : Nat) (f : Dom → Dom) : (s.modDom i f).regs = s.regs := rfl
@[simp] theorem State.modDom_hbm (s : State) (i : Nat) (f : Dom → Dom) : (s.modDom i f).hbm = s.hbm := rfl
@[simp] theorem State.modDom_scr (s : State) (i : Nat) (f : Dom → Dom) : (s.modDom i f).scr = s.scr := rfl
@[simp] theorem State.modDom_pwr (s : State) (i : Nat) (f : Dom → Dom) : (s.modDom i f).pwr = s.pwr := rfl
@[simp] theorem State.modDom_tables (s : State) (i : Nat) (f : Dom → Dom) : (s.modDom i f).tables = s.tables := rfl
@[simp] theorem State.modDom_loads (s : State) (i : Nat) (f : Dom → Dom) : (s.modDom i f).loads = s.loads := rfl
@[simp] theorem State.modDom_commits (s : State) (i : Nat) (f : Dom → Dom) : (s.modDom i f).commits = s.commits := rfl
@[simp] theorem State.modDom_nextCid (s : State) (i : Nat) (f : Dom → Dom) : (s.modDom i f).nextCid = s.nextCid := rfl
@[simp] theorem State.modDom_heap (s : State) (i : Nat) (f : Dom → Dom) : (s.modDom i f).heap = s.heap := rfl
@[simp] theorem State.modDom_lostRows (s : State) (i : Nat) (f : Dom → Dom) : (s.modDom i f).lostRows = s.lostRows := rfl
@[simp] theorem State.modDom_gpes (s : State) (i : Nat) (f : Dom → Dom) : (s.modDom i f).gpes = s.gpes := rfl
@[simp] theorem State.modDom_reqs (s : State) (i : Nat) (f : Dom → Dom) : (s.modDom i f).reqs = s.reqs := rfl
@[simp] theorem State.modDom_reads (s : State) (i : Nat) (f : Dom → Dom) : (s.modDom i f).reads = s.reads := rfl
@[simp] theorem State.modDom_nextRead (s : State) (i : Nat) (f : Dom → Dom) : (s.modDom i f).nextRead = s.nextRead := rfl
@[simp] theorem State.modDom_combine (s : State) (i : Nat) (f : Dom → Dom) : (s.modDom i f).combine = s.combine := rfl
@[simp] theorem State.modDom_doms (s : State) (i : Nat) (f : Dom → Dom) : (s.modDom i f).doms = s.doms.modify i f := rfl
@[simp] theorem State.modDom_dirs (s : State) (i : Nat) (f : Dom → Dom) : (s.modDom i f).dirs = s.dirs := rfl
@[simp] theorem State.modDom_migs (s : State) (i : Nat) (f : Dom → Dom) : (s.modDom i f).migs = s.migs := rfl
@[simp] theorem State.modDom_reps (s : State) (i : Nat) (f : Dom → Dom) : (s.modDom i f).reps = s.reps := rfl
@[simp] theorem State.modDom_replicas (s : State) (i : Nat) (f : Dom → Dom) : (s.modDom i f).replicas = s.replicas := rfl
@[simp] theorem State.modDom_cool (s : State) (i : Nat) (f : Dom → Dom) : (s.modDom i f).cool = s.cool := rfl
@[simp] theorem State.modDom_pin (s : State) (i : Nat) (f : Dom → Dom) : (s.modDom i f).pin = s.pin := rfl
@[simp] theorem State.modDom_lastDie (s : State) (i : Nat) (f : Dom → Dom) : (s.modDom i f).lastDie = s.lastDie := rfl
@[simp] theorem State.modDom_pinJobs (s : State) (i : Nat) (f : Dom → Dom) : (s.modDom i f).pinJobs = s.pinJobs := rfl
@[simp] theorem State.modDom_fports (s : State) (i : Nat) (f : Dom → Dom) : (s.modDom i f).fports = s.fports := rfl
@[simp] theorem State.modDom_strms (s : State) (i : Nat) (f : Dom → Dom) : (s.modDom i f).strms = s.strms := rfl
@[simp] theorem State.modDom_pair (s : State) (i : Nat) (f : Dom → Dom) : (s.modDom i f).pair = s.pair := rfl
@[simp] theorem State.modDom_ctxs (s : State) (i : Nat) (f : Dom → Dom) : (s.modDom i f).ctxs = s.ctxs := rfl
@[simp] theorem State.modDom_clusters (s : State) (i : Nat) (f : Dom → Dom) : (s.modDom i f).clusters = s.clusters := rfl
@[simp] theorem State.modDom_scripts (s : State) (i : Nat) (f : Dom → Dom) : (s.modDom i f).scripts = s.scripts := rfl
@[simp] theorem State.modDom_nextOp (s : State) (i : Nat) (f : Dom → Dom) : (s.modDom i f).nextOp = s.nextOp := rfl
@[simp] theorem State.modDom_slots (s : State) (i : Nat) (f : Dom → Dom) : (s.modDom i f).slots = s.slots := rfl
@[simp] theorem State.modDom_bindings (s : State) (i : Nat) (f : Dom → Dom) : (s.modDom i f).bindings = s.bindings := rfl
@[simp] theorem State.modDom_cueNames (s : State) (i : Nat) (f : Dom → Dom) : (s.modDom i f).cueNames = s.cueNames := rfl
@[simp] theorem State.modDom_direct (s : State) (i : Nat) (f : Dom → Dom) : (s.modDom i f).direct = s.direct := rfl
@[simp] theorem State.modDom_host (s : State) (i : Nat) (f : Dom → Dom) : (s.modDom i f).host = s.host := rfl
@[simp] theorem State.modDom_mem (s : State) (i : Nat) (f : Dom → Dom) : (s.modDom i f).mem = s.mem := rfl
@[simp] theorem State.modDom_link (s : State) (i : Nat) (f : Dom → Dom) : (s.modDom i f).link = s.link := rfl
@[simp] theorem State.modDom_net (s : State) (i : Nat) (f : Dom → Dom) : (s.modDom i f).net = s.net := rfl
@[simp] theorem State.modDom_time (s : State) (i : Nat) (f : Dom → Dom) : (s.modDom i f).time = s.time := rfl
@[simp] theorem State.modDom_ras (s : State) (i : Nat) (f : Dom → Dom) : (s.modDom i f).ras = s.ras := rfl
@[simp] theorem State.modDom_mgmt (s : State) (i : Nat) (f : Dom → Dom) : (s.modDom i f).mgmt = s.mgmt := rfl
@[simp] theorem State.modDom_out (s : State) (i : Nat) (f : Dom → Dom) : (s.modDom i f).out = s.out := rfl
@[simp] theorem State.modDom_freeCtr (s : State) (i : Nat) (f : Dom → Dom) : (s.modDom i f).freeCtr = s.freeCtr := rfl

@[simp] theorem State.modLPort_pending (s : State) (n : Nat) (f : LPort → LPort) : (s.modLPort n f).pending = s.pending := rfl
@[simp] theorem State.modLPort_regs (s : State) (n : Nat) (f : LPort → LPort) : (s.modLPort n f).regs = s.regs := rfl
@[simp] theorem State.modLPort_hbm (s : State) (n : Nat) (f : LPort → LPort) : (s.modLPort n f).hbm = s.hbm := rfl
@[simp] theorem State.modLPort_scr (s : State) (n : Nat) (f : LPort → LPort) : (s.modLPort n f).scr = s.scr := rfl
@[simp] theorem State.modLPort_pwr (s : State) (n : Nat) (f : LPort → LPort) : (s.modLPort n f).pwr = s.pwr := rfl
@[simp] theorem State.modLPort_tables (s : State) (n : Nat) (f : LPort → LPort) : (s.modLPort n f).tables = s.tables := rfl
@[simp] theorem State.modLPort_loads (s : State) (n : Nat) (f : LPort → LPort) : (s.modLPort n f).loads = s.loads := rfl
@[simp] theorem State.modLPort_commits (s : State) (n : Nat) (f : LPort → LPort) : (s.modLPort n f).commits = s.commits := rfl
@[simp] theorem State.modLPort_nextCid (s : State) (n : Nat) (f : LPort → LPort) : (s.modLPort n f).nextCid = s.nextCid := rfl
@[simp] theorem State.modLPort_heap (s : State) (n : Nat) (f : LPort → LPort) : (s.modLPort n f).heap = s.heap := rfl
@[simp] theorem State.modLPort_lostRows (s : State) (n : Nat) (f : LPort → LPort) : (s.modLPort n f).lostRows = s.lostRows := rfl
@[simp] theorem State.modLPort_gpes (s : State) (n : Nat) (f : LPort → LPort) : (s.modLPort n f).gpes = s.gpes := rfl
@[simp] theorem State.modLPort_reqs (s : State) (n : Nat) (f : LPort → LPort) : (s.modLPort n f).reqs = s.reqs := rfl
@[simp] theorem State.modLPort_reads (s : State) (n : Nat) (f : LPort → LPort) : (s.modLPort n f).reads = s.reads := rfl
@[simp] theorem State.modLPort_nextRead (s : State) (n : Nat) (f : LPort → LPort) : (s.modLPort n f).nextRead = s.nextRead := rfl
@[simp] theorem State.modLPort_combine (s : State) (n : Nat) (f : LPort → LPort) : (s.modLPort n f).combine = s.combine := rfl
@[simp] theorem State.modLPort_doms (s : State) (n : Nat) (f : LPort → LPort) : (s.modLPort n f).doms = s.doms := rfl
@[simp] theorem State.modLPort_dirs (s : State) (n : Nat) (f : LPort → LPort) : (s.modLPort n f).dirs = s.dirs := rfl
@[simp] theorem State.modLPort_migs (s : State) (n : Nat) (f : LPort → LPort) : (s.modLPort n f).migs = s.migs := rfl
@[simp] theorem State.modLPort_reps (s : State) (n : Nat) (f : LPort → LPort) : (s.modLPort n f).reps = s.reps := rfl
@[simp] theorem State.modLPort_replicas (s : State) (n : Nat) (f : LPort → LPort) : (s.modLPort n f).replicas = s.replicas := rfl
@[simp] theorem State.modLPort_cool (s : State) (n : Nat) (f : LPort → LPort) : (s.modLPort n f).cool = s.cool := rfl
@[simp] theorem State.modLPort_pin (s : State) (n : Nat) (f : LPort → LPort) : (s.modLPort n f).pin = s.pin := rfl
@[simp] theorem State.modLPort_lastDie (s : State) (n : Nat) (f : LPort → LPort) : (s.modLPort n f).lastDie = s.lastDie := rfl
@[simp] theorem State.modLPort_pinJobs (s : State) (n : Nat) (f : LPort → LPort) : (s.modLPort n f).pinJobs = s.pinJobs := rfl
@[simp] theorem State.modLPort_fports (s : State) (n : Nat) (f : LPort → LPort) : (s.modLPort n f).fports = s.fports := rfl
@[simp] theorem State.modLPort_strms (s : State) (n : Nat) (f : LPort → LPort) : (s.modLPort n f).strms = s.strms := rfl
@[simp] theorem State.modLPort_pair (s : State) (n : Nat) (f : LPort → LPort) : (s.modLPort n f).pair = s.pair := rfl
@[simp] theorem State.modLPort_ctxs (s : State) (n : Nat) (f : LPort → LPort) : (s.modLPort n f).ctxs = s.ctxs := rfl
@[simp] theorem State.modLPort_clusters (s : State) (n : Nat) (f : LPort → LPort) : (s.modLPort n f).clusters = s.clusters := rfl
@[simp] theorem State.modLPort_scripts (s : State) (n : Nat) (f : LPort → LPort) : (s.modLPort n f).scripts = s.scripts := rfl
@[simp] theorem State.modLPort_nextOp (s : State) (n : Nat) (f : LPort → LPort) : (s.modLPort n f).nextOp = s.nextOp := rfl
@[simp] theorem State.modLPort_slots (s : State) (n : Nat) (f : LPort → LPort) : (s.modLPort n f).slots = s.slots := rfl
@[simp] theorem State.modLPort_bindings (s : State) (n : Nat) (f : LPort → LPort) : (s.modLPort n f).bindings = s.bindings := rfl
@[simp] theorem State.modLPort_cueNames (s : State) (n : Nat) (f : LPort → LPort) : (s.modLPort n f).cueNames = s.cueNames := rfl
@[simp] theorem State.modLPort_direct (s : State) (n : Nat) (f : LPort → LPort) : (s.modLPort n f).direct = s.direct := rfl
@[simp] theorem State.modLPort_host (s : State) (n : Nat) (f : LPort → LPort) : (s.modLPort n f).host = s.host := rfl
@[simp] theorem State.modLPort_mem (s : State) (n : Nat) (f : LPort → LPort) : (s.modLPort n f).mem = s.mem := rfl
@[simp] theorem State.modLPort_link (s : State) (n : Nat) (f : LPort → LPort) : (s.modLPort n f).link = ({ s.link with ports := s.link.ports.modify n f } : LinkSt) := rfl
@[simp] theorem State.modLPort_net (s : State) (n : Nat) (f : LPort → LPort) : (s.modLPort n f).net = s.net := rfl
@[simp] theorem State.modLPort_time (s : State) (n : Nat) (f : LPort → LPort) : (s.modLPort n f).time = s.time := rfl
@[simp] theorem State.modLPort_ras (s : State) (n : Nat) (f : LPort → LPort) : (s.modLPort n f).ras = s.ras := rfl
@[simp] theorem State.modLPort_mgmt (s : State) (n : Nat) (f : LPort → LPort) : (s.modLPort n f).mgmt = s.mgmt := rfl
@[simp] theorem State.modLPort_out (s : State) (n : Nat) (f : LPort → LPort) : (s.modLPort n f).out = s.out := rfl
@[simp] theorem State.modLPort_freeCtr (s : State) (n : Nat) (f : LPort → LPort) : (s.modLPort n f).freeCtr = s.freeCtr := rfl

@[simp] theorem State.modRoce_pending (s : State) (c : Nat) (f : Roce → Roce) : (s.modRoce c f).pending = s.pending := rfl
@[simp] theorem State.modRoce_regs (s : State) (c : Nat) (f : Roce → Roce) : (s.modRoce c f).regs = s.regs := rfl
@[simp] theorem State.modRoce_hbm (s : State) (c : Nat) (f : Roce → Roce) : (s.modRoce c f).hbm = s.hbm := rfl
@[simp] theorem State.modRoce_scr (s : State) (c : Nat) (f : Roce → Roce) : (s.modRoce c f).scr = s.scr := rfl
@[simp] theorem State.modRoce_pwr (s : State) (c : Nat) (f : Roce → Roce) : (s.modRoce c f).pwr = s.pwr := rfl
@[simp] theorem State.modRoce_tables (s : State) (c : Nat) (f : Roce → Roce) : (s.modRoce c f).tables = s.tables := rfl
@[simp] theorem State.modRoce_loads (s : State) (c : Nat) (f : Roce → Roce) : (s.modRoce c f).loads = s.loads := rfl
@[simp] theorem State.modRoce_commits (s : State) (c : Nat) (f : Roce → Roce) : (s.modRoce c f).commits = s.commits := rfl
@[simp] theorem State.modRoce_nextCid (s : State) (c : Nat) (f : Roce → Roce) : (s.modRoce c f).nextCid = s.nextCid := rfl
@[simp] theorem State.modRoce_heap (s : State) (c : Nat) (f : Roce → Roce) : (s.modRoce c f).heap = s.heap := rfl
@[simp] theorem State.modRoce_lostRows (s : State) (c : Nat) (f : Roce → Roce) : (s.modRoce c f).lostRows = s.lostRows := rfl
@[simp] theorem State.modRoce_gpes (s : State) (c : Nat) (f : Roce → Roce) : (s.modRoce c f).gpes = s.gpes := rfl
@[simp] theorem State.modRoce_reqs (s : State) (c : Nat) (f : Roce → Roce) : (s.modRoce c f).reqs = s.reqs := rfl
@[simp] theorem State.modRoce_reads (s : State) (c : Nat) (f : Roce → Roce) : (s.modRoce c f).reads = s.reads := rfl
@[simp] theorem State.modRoce_nextRead (s : State) (c : Nat) (f : Roce → Roce) : (s.modRoce c f).nextRead = s.nextRead := rfl
@[simp] theorem State.modRoce_combine (s : State) (c : Nat) (f : Roce → Roce) : (s.modRoce c f).combine = s.combine := rfl
@[simp] theorem State.modRoce_doms (s : State) (c : Nat) (f : Roce → Roce) : (s.modRoce c f).doms = s.doms := rfl
@[simp] theorem State.modRoce_dirs (s : State) (c : Nat) (f : Roce → Roce) : (s.modRoce c f).dirs = s.dirs := rfl
@[simp] theorem State.modRoce_migs (s : State) (c : Nat) (f : Roce → Roce) : (s.modRoce c f).migs = s.migs := rfl
@[simp] theorem State.modRoce_reps (s : State) (c : Nat) (f : Roce → Roce) : (s.modRoce c f).reps = s.reps := rfl
@[simp] theorem State.modRoce_replicas (s : State) (c : Nat) (f : Roce → Roce) : (s.modRoce c f).replicas = s.replicas := rfl
@[simp] theorem State.modRoce_cool (s : State) (c : Nat) (f : Roce → Roce) : (s.modRoce c f).cool = s.cool := rfl
@[simp] theorem State.modRoce_pin (s : State) (c : Nat) (f : Roce → Roce) : (s.modRoce c f).pin = s.pin := rfl
@[simp] theorem State.modRoce_lastDie (s : State) (c : Nat) (f : Roce → Roce) : (s.modRoce c f).lastDie = s.lastDie := rfl
@[simp] theorem State.modRoce_pinJobs (s : State) (c : Nat) (f : Roce → Roce) : (s.modRoce c f).pinJobs = s.pinJobs := rfl
@[simp] theorem State.modRoce_fports (s : State) (c : Nat) (f : Roce → Roce) : (s.modRoce c f).fports = s.fports := rfl
@[simp] theorem State.modRoce_strms (s : State) (c : Nat) (f : Roce → Roce) : (s.modRoce c f).strms = s.strms := rfl
@[simp] theorem State.modRoce_pair (s : State) (c : Nat) (f : Roce → Roce) : (s.modRoce c f).pair = s.pair := rfl
@[simp] theorem State.modRoce_ctxs (s : State) (c : Nat) (f : Roce → Roce) : (s.modRoce c f).ctxs = s.ctxs := rfl
@[simp] theorem State.modRoce_clusters (s : State) (c : Nat) (f : Roce → Roce) : (s.modRoce c f).clusters = s.clusters := rfl
@[simp] theorem State.modRoce_scripts (s : State) (c : Nat) (f : Roce → Roce) : (s.modRoce c f).scripts = s.scripts := rfl
@[simp] theorem State.modRoce_nextOp (s : State) (c : Nat) (f : Roce → Roce) : (s.modRoce c f).nextOp = s.nextOp := rfl
@[simp] theorem State.modRoce_slots (s : State) (c : Nat) (f : Roce → Roce) : (s.modRoce c f).slots = s.slots := rfl
@[simp] theorem State.modRoce_bindings (s : State) (c : Nat) (f : Roce → Roce) : (s.modRoce c f).bindings = s.bindings := rfl
@[simp] theorem State.modRoce_cueNames (s : State) (c : Nat) (f : Roce → Roce) : (s.modRoce c f).cueNames = s.cueNames := rfl
@[simp] theorem State.modRoce_direct (s : State) (c : Nat) (f : Roce → Roce) : (s.modRoce c f).direct = s.direct := rfl
@[simp] theorem State.modRoce_host (s : State) (c : Nat) (f : Roce → Roce) : (s.modRoce c f).host = s.host := rfl
@[simp] theorem State.modRoce_mem (s : State) (c : Nat) (f : Roce → Roce) : (s.modRoce c f).mem = s.mem := rfl
@[simp] theorem State.modRoce_link (s : State) (c : Nat) (f : Roce → Roce) : (s.modRoce c f).link = s.link := rfl
@[simp] theorem State.modRoce_net (s : State) (c : Nat) (f : Roce → Roce) : (s.modRoce c f).net = ({ s.net with roce := s.net.roce.modify c f } : NetSt) := rfl
@[simp] theorem State.modRoce_time (s : State) (c : Nat) (f : Roce → Roce) : (s.modRoce c f).time = s.time := rfl
@[simp] theorem State.modRoce_ras (s : State) (c : Nat) (f : Roce → Roce) : (s.modRoce c f).ras = s.ras := rfl
@[simp] theorem State.modRoce_mgmt (s : State) (c : Nat) (f : Roce → Roce) : (s.modRoce c f).mgmt = s.mgmt := rfl
@[simp] theorem State.modRoce_out (s : State) (c : Nat) (f : Roce → Roce) : (s.modRoce c f).out = s.out := rfl
@[simp] theorem State.modRoce_freeCtr (s : State) (c : Nat) (f : Roce → Roce) : (s.modRoce c f).freeCtr = s.freeCtr := rfl

@[simp] theorem State.modHPort_pending (s : State) (p : Nat) (f : HPort → HPort) : (s.modHPort p f).pending = s.pending := rfl
@[simp] theorem State.modHPort_regs (s : State) (p : Nat) (f : HPort → HPort) : (s.modHPort p f).regs = s.regs := rfl
@[simp] theorem State.modHPort_hbm (s : State) (p : Nat) (f : HPort → HPort) : (s.modHPort p f).hbm = s.hbm := rfl
@[simp] theorem State.modHPort_scr (s : State) (p : Nat) (f : HPort → HPort) : (s.modHPort p f).scr = s.scr := rfl
@[simp] theorem State.modHPort_pwr (s : State) (p : Nat) (f : HPort → HPort) : (s.modHPort p f).pwr = s.pwr := rfl
@[simp] theorem State.modHPort_tables (s : State) (p : Nat) (f : HPort → HPort) : (s.modHPort p f).tables = s.tables := rfl
@[simp] theorem State.modHPort_loads (s : State) (p : Nat) (f : HPort → HPort) : (s.modHPort p f).loads = s.loads := rfl
@[simp] theorem State.modHPort_commits (s : State) (p : Nat) (f : HPort → HPort) : (s.modHPort p f).commits = s.commits := rfl
@[simp] theorem State.modHPort_nextCid (s : State) (p : Nat) (f : HPort → HPort) : (s.modHPort p f).nextCid = s.nextCid := rfl
@[simp] theorem State.modHPort_heap (s : State) (p : Nat) (f : HPort → HPort) : (s.modHPort p f).heap = s.heap := rfl
@[simp] theorem State.modHPort_lostRows (s : State) (p : Nat) (f : HPort → HPort) : (s.modHPort p f).lostRows = s.lostRows := rfl
@[simp] theorem State.modHPort_gpes (s : State) (p : Nat) (f : HPort → HPort) : (s.modHPort p f).gpes = s.gpes := rfl
@[simp] theorem State.modHPort_reqs (s : State) (p : Nat) (f : HPort → HPort) : (s.modHPort p f).reqs = s.reqs := rfl
@[simp] theorem State.modHPort_reads (s : State) (p : Nat) (f : HPort → HPort) : (s.modHPort p f).reads = s.reads := rfl
@[simp] theorem State.modHPort_nextRead (s : State) (p : Nat) (f : HPort → HPort) : (s.modHPort p f).nextRead = s.nextRead := rfl
@[simp] theorem State.modHPort_combine (s : State) (p : Nat) (f : HPort → HPort) : (s.modHPort p f).combine = s.combine := rfl
@[simp] theorem State.modHPort_doms (s : State) (p : Nat) (f : HPort → HPort) : (s.modHPort p f).doms = s.doms := rfl
@[simp] theorem State.modHPort_dirs (s : State) (p : Nat) (f : HPort → HPort) : (s.modHPort p f).dirs = s.dirs := rfl
@[simp] theorem State.modHPort_migs (s : State) (p : Nat) (f : HPort → HPort) : (s.modHPort p f).migs = s.migs := rfl
@[simp] theorem State.modHPort_reps (s : State) (p : Nat) (f : HPort → HPort) : (s.modHPort p f).reps = s.reps := rfl
@[simp] theorem State.modHPort_replicas (s : State) (p : Nat) (f : HPort → HPort) : (s.modHPort p f).replicas = s.replicas := rfl
@[simp] theorem State.modHPort_cool (s : State) (p : Nat) (f : HPort → HPort) : (s.modHPort p f).cool = s.cool := rfl
@[simp] theorem State.modHPort_pin (s : State) (p : Nat) (f : HPort → HPort) : (s.modHPort p f).pin = s.pin := rfl
@[simp] theorem State.modHPort_lastDie (s : State) (p : Nat) (f : HPort → HPort) : (s.modHPort p f).lastDie = s.lastDie := rfl
@[simp] theorem State.modHPort_pinJobs (s : State) (p : Nat) (f : HPort → HPort) : (s.modHPort p f).pinJobs = s.pinJobs := rfl
@[simp] theorem State.modHPort_fports (s : State) (p : Nat) (f : HPort → HPort) : (s.modHPort p f).fports = s.fports := rfl
@[simp] theorem State.modHPort_strms (s : State) (p : Nat) (f : HPort → HPort) : (s.modHPort p f).strms = s.strms := rfl
@[simp] theorem State.modHPort_pair (s : State) (p : Nat) (f : HPort → HPort) : (s.modHPort p f).pair = s.pair := rfl
@[simp] theorem State.modHPort_ctxs (s : State) (p : Nat) (f : HPort → HPort) : (s.modHPort p f).ctxs = s.ctxs := rfl
@[simp] theorem State.modHPort_clusters (s : State) (p : Nat) (f : HPort → HPort) : (s.modHPort p f).clusters = s.clusters := rfl
@[simp] theorem State.modHPort_scripts (s : State) (p : Nat) (f : HPort → HPort) : (s.modHPort p f).scripts = s.scripts := rfl
@[simp] theorem State.modHPort_nextOp (s : State) (p : Nat) (f : HPort → HPort) : (s.modHPort p f).nextOp = s.nextOp := rfl
@[simp] theorem State.modHPort_slots (s : State) (p : Nat) (f : HPort → HPort) : (s.modHPort p f).slots = s.slots := rfl
@[simp] theorem State.modHPort_bindings (s : State) (p : Nat) (f : HPort → HPort) : (s.modHPort p f).bindings = s.bindings := rfl
@[simp] theorem State.modHPort_cueNames (s : State) (p : Nat) (f : HPort → HPort) : (s.modHPort p f).cueNames = s.cueNames := rfl
@[simp] theorem State.modHPort_direct (s : State) (p : Nat) (f : HPort → HPort) : (s.modHPort p f).direct = s.direct := rfl
@[simp] theorem State.modHPort_host (s : State) (p : Nat) (f : HPort → HPort) : (s.modHPort p f).host = ({ s.host with ports := s.host.ports.modify p f } : HostSt) := rfl
@[simp] theorem State.modHPort_mem (s : State) (p : Nat) (f : HPort → HPort) : (s.modHPort p f).mem = s.mem := rfl
@[simp] theorem State.modHPort_link (s : State) (p : Nat) (f : HPort → HPort) : (s.modHPort p f).link = s.link := rfl
@[simp] theorem State.modHPort_net (s : State) (p : Nat) (f : HPort → HPort) : (s.modHPort p f).net = s.net := rfl
@[simp] theorem State.modHPort_time (s : State) (p : Nat) (f : HPort → HPort) : (s.modHPort p f).time = s.time := rfl
@[simp] theorem State.modHPort_ras (s : State) (p : Nat) (f : HPort → HPort) : (s.modHPort p f).ras = s.ras := rfl
@[simp] theorem State.modHPort_mgmt (s : State) (p : Nat) (f : HPort → HPort) : (s.modHPort p f).mgmt = s.mgmt := rfl
@[simp] theorem State.modHPort_out (s : State) (p : Nat) (f : HPort → HPort) : (s.modHPort p f).out = s.out := rfl
@[simp] theorem State.modHPort_freeCtr (s : State) (p : Nat) (f : HPort → HPort) : (s.modHPort p f).freeCtr = s.freeCtr := rfl

@[simp] theorem State.modCtx_pending (s : State) (id : Nat) (f : Ctx → Ctx) : (s.modCtx id f).pending = s.pending := rfl
@[simp] theorem State.modCtx_regs (s : State) (id : Nat) (f : Ctx → Ctx) : (s.modCtx id f).regs = s.regs := rfl
@[simp] theorem State.modCtx_hbm (s : State) (id : Nat) (f : Ctx → Ctx) : (s.modCtx id f).hbm = s.hbm := rfl
@[simp] theorem State.modCtx_scr (s : State) (id : Nat) (f : Ctx → Ctx) : (s.modCtx id f).scr = s.scr := rfl
@[simp] theorem State.modCtx_pwr (s : State) (id : Nat) (f : Ctx → Ctx) : (s.modCtx id f).pwr = s.pwr := rfl
@[simp] theorem State.modCtx_tables (s : State) (id : Nat) (f : Ctx → Ctx) : (s.modCtx id f).tables = s.tables := rfl
@[simp] theorem State.modCtx_loads (s : State) (id : Nat) (f : Ctx → Ctx) : (s.modCtx id f).loads = s.loads := rfl
@[simp] theorem State.modCtx_commits (s : State) (id : Nat) (f : Ctx → Ctx) : (s.modCtx id f).commits = s.commits := rfl
@[simp] theorem State.modCtx_nextCid (s : State) (id : Nat) (f : Ctx → Ctx) : (s.modCtx id f).nextCid = s.nextCid := rfl
@[simp] theorem State.modCtx_heap (s : State) (id : Nat) (f : Ctx → Ctx) : (s.modCtx id f).heap = s.heap := rfl
@[simp] theorem State.modCtx_lostRows (s : State) (id : Nat) (f : Ctx → Ctx) : (s.modCtx id f).lostRows = s.lostRows := rfl
@[simp] theorem State.modCtx_gpes (s : State) (id : Nat) (f : Ctx → Ctx) : (s.modCtx id f).gpes = s.gpes := rfl
@[simp] theorem State.modCtx_reqs (s : State) (id : Nat) (f : Ctx → Ctx) : (s.modCtx id f).reqs = s.reqs := rfl
@[simp] theorem State.modCtx_reads (s : State) (id : Nat) (f : Ctx → Ctx) : (s.modCtx id f).reads = s.reads := rfl
@[simp] theorem State.modCtx_nextRead (s : State) (id : Nat) (f : Ctx → Ctx) : (s.modCtx id f).nextRead = s.nextRead := rfl
@[simp] theorem State.modCtx_combine (s : State) (id : Nat) (f : Ctx → Ctx) : (s.modCtx id f).combine = s.combine := rfl
@[simp] theorem State.modCtx_doms (s : State) (id : Nat) (f : Ctx → Ctx) : (s.modCtx id f).doms = s.doms := rfl
@[simp] theorem State.modCtx_dirs (s : State) (id : Nat) (f : Ctx → Ctx) : (s.modCtx id f).dirs = s.dirs := rfl
@[simp] theorem State.modCtx_migs (s : State) (id : Nat) (f : Ctx → Ctx) : (s.modCtx id f).migs = s.migs := rfl
@[simp] theorem State.modCtx_reps (s : State) (id : Nat) (f : Ctx → Ctx) : (s.modCtx id f).reps = s.reps := rfl
@[simp] theorem State.modCtx_replicas (s : State) (id : Nat) (f : Ctx → Ctx) : (s.modCtx id f).replicas = s.replicas := rfl
@[simp] theorem State.modCtx_cool (s : State) (id : Nat) (f : Ctx → Ctx) : (s.modCtx id f).cool = s.cool := rfl
@[simp] theorem State.modCtx_pin (s : State) (id : Nat) (f : Ctx → Ctx) : (s.modCtx id f).pin = s.pin := rfl
@[simp] theorem State.modCtx_lastDie (s : State) (id : Nat) (f : Ctx → Ctx) : (s.modCtx id f).lastDie = s.lastDie := rfl
@[simp] theorem State.modCtx_pinJobs (s : State) (id : Nat) (f : Ctx → Ctx) : (s.modCtx id f).pinJobs = s.pinJobs := rfl
@[simp] theorem State.modCtx_fports (s : State) (id : Nat) (f : Ctx → Ctx) : (s.modCtx id f).fports = s.fports := rfl
@[simp] theorem State.modCtx_strms (s : State) (id : Nat) (f : Ctx → Ctx) : (s.modCtx id f).strms = s.strms := rfl
@[simp] theorem State.modCtx_pair (s : State) (id : Nat) (f : Ctx → Ctx) : (s.modCtx id f).pair = s.pair := rfl
@[simp] theorem State.modCtx_ctxs (s : State) (id : Nat) (f : Ctx → Ctx) : (s.modCtx id f).ctxs = modFirst (·.id == id) f s.ctxs := rfl
@[simp] theorem State.modCtx_clusters (s : State) (id : Nat) (f : Ctx → Ctx) : (s.modCtx id f).clusters = s.clusters := rfl
@[simp] theorem State.modCtx_scripts (s : State) (id : Nat) (f : Ctx → Ctx) : (s.modCtx id f).scripts = s.scripts := rfl
@[simp] theorem State.modCtx_nextOp (s : State) (id : Nat) (f : Ctx → Ctx) : (s.modCtx id f).nextOp = s.nextOp := rfl
@[simp] theorem State.modCtx_slots (s : State) (id : Nat) (f : Ctx → Ctx) : (s.modCtx id f).slots = s.slots := rfl
@[simp] theorem State.modCtx_bindings (s : State) (id : Nat) (f : Ctx → Ctx) : (s.modCtx id f).bindings = s.bindings := rfl
@[simp] theorem State.modCtx_cueNames (s : State) (id : Nat) (f : Ctx → Ctx) : (s.modCtx id f).cueNames = s.cueNames := rfl
@[simp] theorem State.modCtx_direct (s : State) (id : Nat) (f : Ctx → Ctx) : (s.modCtx id f).direct = s.direct := rfl
@[simp] theorem State.modCtx_host (s : State) (id : Nat) (f : Ctx → Ctx) : (s.modCtx id f).host = s.host := rfl
@[simp] theorem State.modCtx_mem (s : State) (id : Nat) (f : Ctx → Ctx) : (s.modCtx id f).mem = s.mem := rfl
@[simp] theorem State.modCtx_link (s : State) (id : Nat) (f : Ctx → Ctx) : (s.modCtx id f).link = s.link := rfl
@[simp] theorem State.modCtx_net (s : State) (id : Nat) (f : Ctx → Ctx) : (s.modCtx id f).net = s.net := rfl
@[simp] theorem State.modCtx_time (s : State) (id : Nat) (f : Ctx → Ctx) : (s.modCtx id f).time = s.time := rfl
@[simp] theorem State.modCtx_ras (s : State) (id : Nat) (f : Ctx → Ctx) : (s.modCtx id f).ras = s.ras := rfl
@[simp] theorem State.modCtx_mgmt (s : State) (id : Nat) (f : Ctx → Ctx) : (s.modCtx id f).mgmt = s.mgmt := rfl
@[simp] theorem State.modCtx_out (s : State) (id : Nat) (f : Ctx → Ctx) : (s.modCtx id f).out = s.out := rfl
@[simp] theorem State.modCtx_freeCtr (s : State) (id : Nat) (f : Ctx → Ctx) : (s.modCtx id f).freeCtr = s.freeCtr := rfl

@[simp] theorem State.modOn_pending (s : State) (id cl : Nat) (f : ClCtx → ClCtx) : (s.modOn id cl f).pending = s.pending := rfl
@[simp] theorem State.modOn_regs (s : State) (id cl : Nat) (f : ClCtx → ClCtx) : (s.modOn id cl f).regs = s.regs := rfl
@[simp] theorem State.modOn_hbm (s : State) (id cl : Nat) (f : ClCtx → ClCtx) : (s.modOn id cl f).hbm = s.hbm := rfl
@[simp] theorem State.modOn_scr (s : State) (id cl : Nat) (f : ClCtx → ClCtx) : (s.modOn id cl f).scr = s.scr := rfl
@[simp] theorem State.modOn_pwr (s : State) (id cl : Nat) (f : ClCtx → ClCtx) : (s.modOn id cl f).pwr = s.pwr := rfl
@[simp] theorem State.modOn_tables (s : State) (id cl : Nat) (f : ClCtx → ClCtx) : (s.modOn id cl f).tables = s.tables := rfl
@[simp] theorem State.modOn_loads (s : State) (id cl : Nat) (f : ClCtx → ClCtx) : (s.modOn id cl f).loads = s.loads := rfl
@[simp] theorem State.modOn_commits (s : State) (id cl : Nat) (f : ClCtx → ClCtx) : (s.modOn id cl f).commits = s.commits := rfl
@[simp] theorem State.modOn_nextCid (s : State) (id cl : Nat) (f : ClCtx → ClCtx) : (s.modOn id cl f).nextCid = s.nextCid := rfl
@[simp] theorem State.modOn_heap (s : State) (id cl : Nat) (f : ClCtx → ClCtx) : (s.modOn id cl f).heap = s.heap := rfl
@[simp] theorem State.modOn_lostRows (s : State) (id cl : Nat) (f : ClCtx → ClCtx) : (s.modOn id cl f).lostRows = s.lostRows := rfl
@[simp] theorem State.modOn_gpes (s : State) (id cl : Nat) (f : ClCtx → ClCtx) : (s.modOn id cl f).gpes = s.gpes := rfl
@[simp] theorem State.modOn_reqs (s : State) (id cl : Nat) (f : ClCtx → ClCtx) : (s.modOn id cl f).reqs = s.reqs := rfl
@[simp] theorem State.modOn_reads (s : State) (id cl : Nat) (f : ClCtx → ClCtx) : (s.modOn id cl f).reads = s.reads := rfl
@[simp] theorem State.modOn_nextRead (s : State) (id cl : Nat) (f : ClCtx → ClCtx) : (s.modOn id cl f).nextRead = s.nextRead := rfl
@[simp] theorem State.modOn_combine (s : State) (id cl : Nat) (f : ClCtx → ClCtx) : (s.modOn id cl f).combine = s.combine := rfl
@[simp] theorem State.modOn_doms (s : State) (id cl : Nat) (f : ClCtx → ClCtx) : (s.modOn id cl f).doms = s.doms := rfl
@[simp] theorem State.modOn_dirs (s : State) (id cl : Nat) (f : ClCtx → ClCtx) : (s.modOn id cl f).dirs = s.dirs := rfl
@[simp] theorem State.modOn_migs (s : State) (id cl : Nat) (f : ClCtx → ClCtx) : (s.modOn id cl f).migs = s.migs := rfl
@[simp] theorem State.modOn_reps (s : State) (id cl : Nat) (f : ClCtx → ClCtx) : (s.modOn id cl f).reps = s.reps := rfl
@[simp] theorem State.modOn_replicas (s : State) (id cl : Nat) (f : ClCtx → ClCtx) : (s.modOn id cl f).replicas = s.replicas := rfl
@[simp] theorem State.modOn_cool (s : State) (id cl : Nat) (f : ClCtx → ClCtx) : (s.modOn id cl f).cool = s.cool := rfl
@[simp] theorem State.modOn_pin (s : State) (id cl : Nat) (f : ClCtx → ClCtx) : (s.modOn id cl f).pin = s.pin := rfl
@[simp] theorem State.modOn_lastDie (s : State) (id cl : Nat) (f : ClCtx → ClCtx) : (s.modOn id cl f).lastDie = s.lastDie := rfl
@[simp] theorem State.modOn_pinJobs (s : State) (id cl : Nat) (f : ClCtx → ClCtx) : (s.modOn id cl f).pinJobs = s.pinJobs := rfl
@[simp] theorem State.modOn_fports (s : State) (id cl : Nat) (f : ClCtx → ClCtx) : (s.modOn id cl f).fports = s.fports := rfl
@[simp] theorem State.modOn_strms (s : State) (id cl : Nat) (f : ClCtx → ClCtx) : (s.modOn id cl f).strms = s.strms := rfl
@[simp] theorem State.modOn_pair (s : State) (id cl : Nat) (f : ClCtx → ClCtx) : (s.modOn id cl f).pair = s.pair := rfl
@[simp] theorem State.modOn_clusters (s : State) (id cl : Nat) (f : ClCtx → ClCtx) : (s.modOn id cl f).clusters = s.clusters := rfl
@[simp] theorem State.modOn_scripts (s : State) (id cl : Nat) (f : ClCtx → ClCtx) : (s.modOn id cl f).scripts = s.scripts := rfl
@[simp] theorem State.modOn_nextOp (s : State) (id cl : Nat) (f : ClCtx → ClCtx) : (s.modOn id cl f).nextOp = s.nextOp := rfl
@[simp] theorem State.modOn_slots (s : State) (id cl : Nat) (f : ClCtx → ClCtx) : (s.modOn id cl f).slots = s.slots := rfl
@[simp] theorem State.modOn_bindings (s : State) (id cl : Nat) (f : ClCtx → ClCtx) : (s.modOn id cl f).bindings = s.bindings := rfl
@[simp] theorem State.modOn_cueNames (s : State) (id cl : Nat) (f : ClCtx → ClCtx) : (s.modOn id cl f).cueNames = s.cueNames := rfl
@[simp] theorem State.modOn_direct (s : State) (id cl : Nat) (f : ClCtx → ClCtx) : (s.modOn id cl f).direct = s.direct := rfl
@[simp] theorem State.modOn_host (s : State) (id cl : Nat) (f : ClCtx → ClCtx) : (s.modOn id cl f).host = s.host := rfl
@[simp] theorem State.modOn_mem (s : State) (id cl : Nat) (f : ClCtx → ClCtx) : (s.modOn id cl f).mem = s.mem := rfl
@[simp] theorem State.modOn_link (s : State) (id cl : Nat) (f : ClCtx → ClCtx) : (s.modOn id cl f).link = s.link := rfl
@[simp] theorem State.modOn_net (s : State) (id cl : Nat) (f : ClCtx → ClCtx) : (s.modOn id cl f).net = s.net := rfl
@[simp] theorem State.modOn_time (s : State) (id cl : Nat) (f : ClCtx → ClCtx) : (s.modOn id cl f).time = s.time := rfl
@[simp] theorem State.modOn_ras (s : State) (id cl : Nat) (f : ClCtx → ClCtx) : (s.modOn id cl f).ras = s.ras := rfl
@[simp] theorem State.modOn_mgmt (s : State) (id cl : Nat) (f : ClCtx → ClCtx) : (s.modOn id cl f).mgmt = s.mgmt := rfl
@[simp] theorem State.modOn_out (s : State) (id cl : Nat) (f : ClCtx → ClCtx) : (s.modOn id cl f).out = s.out := rfl
@[simp] theorem State.modOn_freeCtr (s : State) (id cl : Nat) (f : ClCtx → ClCtx) : (s.modOn id cl f).freeCtr = s.freeCtr := rfl

@[simp] theorem State.modTable_pending (s : State) (h : Nat) (f : Table → Table) : (s.modTable h f).pending = s.pending := rfl
@[simp] theorem State.modTable_regs (s : State) (h : Nat) (f : Table → Table) : (s.modTable h f).regs = s.regs := rfl
@[simp] theorem State.modTable_hbm (s : State) (h : Nat) (f : Table → Table) : (s.modTable h f).hbm = s.hbm := rfl
@[simp] theorem State.modTable_scr (s : State) (h : Nat) (f : Table → Table) : (s.modTable h f).scr = s.scr := rfl
@[simp] theorem State.modTable_pwr (s : State) (h : Nat) (f : Table → Table) : (s.modTable h f).pwr = s.pwr := rfl
@[simp] theorem State.modTable_tables (s : State) (h : Nat) (f : Table → Table) : (s.modTable h f).tables = modFirst (·.handle == h) f s.tables := rfl
@[simp] theorem State.modTable_loads (s : State) (h : Nat) (f : Table → Table) : (s.modTable h f).loads = s.loads := rfl
@[simp] theorem State.modTable_commits (s : State) (h : Nat) (f : Table → Table) : (s.modTable h f).commits = s.commits := rfl
@[simp] theorem State.modTable_nextCid (s : State) (h : Nat) (f : Table → Table) : (s.modTable h f).nextCid = s.nextCid := rfl
@[simp] theorem State.modTable_heap (s : State) (h : Nat) (f : Table → Table) : (s.modTable h f).heap = s.heap := rfl
@[simp] theorem State.modTable_lostRows (s : State) (h : Nat) (f : Table → Table) : (s.modTable h f).lostRows = s.lostRows := rfl
@[simp] theorem State.modTable_gpes (s : State) (h : Nat) (f : Table → Table) : (s.modTable h f).gpes = s.gpes := rfl
@[simp] theorem State.modTable_reqs (s : State) (h : Nat) (f : Table → Table) : (s.modTable h f).reqs = s.reqs := rfl
@[simp] theorem State.modTable_reads (s : State) (h : Nat) (f : Table → Table) : (s.modTable h f).reads = s.reads := rfl
@[simp] theorem State.modTable_nextRead (s : State) (h : Nat) (f : Table → Table) : (s.modTable h f).nextRead = s.nextRead := rfl
@[simp] theorem State.modTable_combine (s : State) (h : Nat) (f : Table → Table) : (s.modTable h f).combine = s.combine := rfl
@[simp] theorem State.modTable_doms (s : State) (h : Nat) (f : Table → Table) : (s.modTable h f).doms = s.doms := rfl
@[simp] theorem State.modTable_dirs (s : State) (h : Nat) (f : Table → Table) : (s.modTable h f).dirs = s.dirs := rfl
@[simp] theorem State.modTable_migs (s : State) (h : Nat) (f : Table → Table) : (s.modTable h f).migs = s.migs := rfl
@[simp] theorem State.modTable_reps (s : State) (h : Nat) (f : Table → Table) : (s.modTable h f).reps = s.reps := rfl
@[simp] theorem State.modTable_replicas (s : State) (h : Nat) (f : Table → Table) : (s.modTable h f).replicas = s.replicas := rfl
@[simp] theorem State.modTable_cool (s : State) (h : Nat) (f : Table → Table) : (s.modTable h f).cool = s.cool := rfl
@[simp] theorem State.modTable_pin (s : State) (h : Nat) (f : Table → Table) : (s.modTable h f).pin = s.pin := rfl
@[simp] theorem State.modTable_lastDie (s : State) (h : Nat) (f : Table → Table) : (s.modTable h f).lastDie = s.lastDie := rfl
@[simp] theorem State.modTable_pinJobs (s : State) (h : Nat) (f : Table → Table) : (s.modTable h f).pinJobs = s.pinJobs := rfl
@[simp] theorem State.modTable_fports (s : State) (h : Nat) (f : Table → Table) : (s.modTable h f).fports = s.fports := rfl
@[simp] theorem State.modTable_strms (s : State) (h : Nat) (f : Table → Table) : (s.modTable h f).strms = s.strms := rfl
@[simp] theorem State.modTable_pair (s : State) (h : Nat) (f : Table → Table) : (s.modTable h f).pair = s.pair := rfl
@[simp] theorem State.modTable_ctxs (s : State) (h : Nat) (f : Table → Table) : (s.modTable h f).ctxs = s.ctxs := rfl
@[simp] theorem State.modTable_clusters (s : State) (h : Nat) (f : Table → Table) : (s.modTable h f).clusters = s.clusters := rfl
@[simp] theorem State.modTable_scripts (s : State) (h : Nat) (f : Table → Table) : (s.modTable h f).scripts = s.scripts := rfl
@[simp] theorem State.modTable_nextOp (s : State) (h : Nat) (f : Table → Table) : (s.modTable h f).nextOp = s.nextOp := rfl
@[simp] theorem State.modTable_slots (s : State) (h : Nat) (f : Table → Table) : (s.modTable h f).slots = s.slots := rfl
@[simp] theorem State.modTable_bindings (s : State) (h : Nat) (f : Table → Table) : (s.modTable h f).bindings = s.bindings := rfl
@[simp] theorem State.modTable_cueNames (s : State) (h : Nat) (f : Table → Table) : (s.modTable h f).cueNames = s.cueNames := rfl
@[simp] theorem State.modTable_direct (s : State) (h : Nat) (f : Table → Table) : (s.modTable h f).direct = s.direct := rfl
@[simp] theorem State.modTable_host (s : State) (h : Nat) (f : Table → Table) : (s.modTable h f).host = s.host := rfl
@[simp] theorem State.modTable_mem (s : State) (h : Nat) (f : Table → Table) : (s.modTable h f).mem = s.mem := rfl
@[simp] theorem State.modTable_link (s : State) (h : Nat) (f : Table → Table) : (s.modTable h f).link = s.link := rfl
@[simp] theorem State.modTable_net (s : State) (h : Nat) (f : Table → Table) : (s.modTable h f).net = s.net := rfl
@[simp] theorem State.modTable_time (s : State) (h : Nat) (f : Table → Table) : (s.modTable h f).time = s.time := rfl
@[simp] theorem State.modTable_ras (s : State) (h : Nat) (f : Table → Table) : (s.modTable h f).ras = s.ras := rfl
@[simp] theorem State.modTable_mgmt (s : State) (h : Nat) (f : Table → Table) : (s.modTable h f).mgmt = s.mgmt := rfl
@[simp] theorem State.modTable_out (s : State) (h : Nat) (f : Table → Table) : (s.modTable h f).out = s.out := rfl
@[simp] theorem State.modTable_freeCtr (s : State) (h : Nat) (f : Table → Table) : (s.modTable h f).freeCtr = s.freeCtr := rfl

@[simp] theorem State.modVer_pending (s : State) (h v : Nat) (f : Version → Version) : (s.modVer h v f).pending = s.pending := rfl
@[simp] theorem State.modVer_regs (s : State) (h v : Nat) (f : Version → Version) : (s.modVer h v f).regs = s.regs := rfl
@[simp] theorem State.modVer_hbm (s : State) (h v : Nat) (f : Version → Version) : (s.modVer h v f).hbm = s.hbm := rfl
@[simp] theorem State.modVer_scr (s : State) (h v : Nat) (f : Version → Version) : (s.modVer h v f).scr = s.scr := rfl
@[simp] theorem State.modVer_pwr (s : State) (h v : Nat) (f : Version → Version) : (s.modVer h v f).pwr = s.pwr := rfl
@[simp] theorem State.modVer_loads (s : State) (h v : Nat) (f : Version → Version) : (s.modVer h v f).loads = s.loads := rfl
@[simp] theorem State.modVer_commits (s : State) (h v : Nat) (f : Version → Version) : (s.modVer h v f).commits = s.commits := rfl
@[simp] theorem State.modVer_nextCid (s : State) (h v : Nat) (f : Version → Version) : (s.modVer h v f).nextCid = s.nextCid := rfl
@[simp] theorem State.modVer_heap (s : State) (h v : Nat) (f : Version → Version) : (s.modVer h v f).heap = s.heap := rfl
@[simp] theorem State.modVer_lostRows (s : State) (h v : Nat) (f : Version → Version) : (s.modVer h v f).lostRows = s.lostRows := rfl
@[simp] theorem State.modVer_gpes (s : State) (h v : Nat) (f : Version → Version) : (s.modVer h v f).gpes = s.gpes := rfl
@[simp] theorem State.modVer_reqs (s : State) (h v : Nat) (f : Version → Version) : (s.modVer h v f).reqs = s.reqs := rfl
@[simp] theorem State.modVer_reads (s : State) (h v : Nat) (f : Version → Version) : (s.modVer h v f).reads = s.reads := rfl
@[simp] theorem State.modVer_nextRead (s : State) (h v : Nat) (f : Version → Version) : (s.modVer h v f).nextRead = s.nextRead := rfl
@[simp] theorem State.modVer_combine (s : State) (h v : Nat) (f : Version → Version) : (s.modVer h v f).combine = s.combine := rfl
@[simp] theorem State.modVer_doms (s : State) (h v : Nat) (f : Version → Version) : (s.modVer h v f).doms = s.doms := rfl
@[simp] theorem State.modVer_dirs (s : State) (h v : Nat) (f : Version → Version) : (s.modVer h v f).dirs = s.dirs := rfl
@[simp] theorem State.modVer_migs (s : State) (h v : Nat) (f : Version → Version) : (s.modVer h v f).migs = s.migs := rfl
@[simp] theorem State.modVer_reps (s : State) (h v : Nat) (f : Version → Version) : (s.modVer h v f).reps = s.reps := rfl
@[simp] theorem State.modVer_replicas (s : State) (h v : Nat) (f : Version → Version) : (s.modVer h v f).replicas = s.replicas := rfl
@[simp] theorem State.modVer_cool (s : State) (h v : Nat) (f : Version → Version) : (s.modVer h v f).cool = s.cool := rfl
@[simp] theorem State.modVer_pin (s : State) (h v : Nat) (f : Version → Version) : (s.modVer h v f).pin = s.pin := rfl
@[simp] theorem State.modVer_lastDie (s : State) (h v : Nat) (f : Version → Version) : (s.modVer h v f).lastDie = s.lastDie := rfl
@[simp] theorem State.modVer_pinJobs (s : State) (h v : Nat) (f : Version → Version) : (s.modVer h v f).pinJobs = s.pinJobs := rfl
@[simp] theorem State.modVer_fports (s : State) (h v : Nat) (f : Version → Version) : (s.modVer h v f).fports = s.fports := rfl
@[simp] theorem State.modVer_strms (s : State) (h v : Nat) (f : Version → Version) : (s.modVer h v f).strms = s.strms := rfl
@[simp] theorem State.modVer_pair (s : State) (h v : Nat) (f : Version → Version) : (s.modVer h v f).pair = s.pair := rfl
@[simp] theorem State.modVer_ctxs (s : State) (h v : Nat) (f : Version → Version) : (s.modVer h v f).ctxs = s.ctxs := rfl
@[simp] theorem State.modVer_clusters (s : State) (h v : Nat) (f : Version → Version) : (s.modVer h v f).clusters = s.clusters := rfl
@[simp] theorem State.modVer_scripts (s : State) (h v : Nat) (f : Version → Version) : (s.modVer h v f).scripts = s.scripts := rfl
@[simp] theorem State.modVer_nextOp (s : State) (h v : Nat) (f : Version → Version) : (s.modVer h v f).nextOp = s.nextOp := rfl
@[simp] theorem State.modVer_slots (s : State) (h v : Nat) (f : Version → Version) : (s.modVer h v f).slots = s.slots := rfl
@[simp] theorem State.modVer_bindings (s : State) (h v : Nat) (f : Version → Version) : (s.modVer h v f).bindings = s.bindings := rfl
@[simp] theorem State.modVer_cueNames (s : State) (h v : Nat) (f : Version → Version) : (s.modVer h v f).cueNames = s.cueNames := rfl
@[simp] theorem State.modVer_direct (s : State) (h v : Nat) (f : Version → Version) : (s.modVer h v f).direct = s.direct := rfl
@[simp] theorem State.modVer_host (s : State) (h v : Nat) (f : Version → Version) : (s.modVer h v f).host = s.host := rfl
@[simp] theorem State.modVer_mem (s : State) (h v : Nat) (f : Version → Version) : (s.modVer h v f).mem = s.mem := rfl
@[simp] theorem State.modVer_link (s : State) (h v : Nat) (f : Version → Version) : (s.modVer h v f).link = s.link := rfl
@[simp] theorem State.modVer_net (s : State) (h v : Nat) (f : Version → Version) : (s.modVer h v f).net = s.net := rfl
@[simp] theorem State.modVer_time (s : State) (h v : Nat) (f : Version → Version) : (s.modVer h v f).time = s.time := rfl
@[simp] theorem State.modVer_ras (s : State) (h v : Nat) (f : Version → Version) : (s.modVer h v f).ras = s.ras := rfl
@[simp] theorem State.modVer_mgmt (s : State) (h v : Nat) (f : Version → Version) : (s.modVer h v f).mgmt = s.mgmt := rfl
@[simp] theorem State.modVer_out (s : State) (h v : Nat) (f : Version → Version) : (s.modVer h v f).out = s.out := rfl
@[simp] theorem State.modVer_freeCtr (s : State) (h v : Nat) (f : Version → Version) : (s.modVer h v f).freeCtr = s.freeCtr := rfl

@[simp] theorem State.modCmd_pending (s : State) (k n : Nat) (f : Cmd → Cmd) : (s.modCmd k n f).pending = s.pending := rfl
@[simp] theorem State.modCmd_regs (s : State) (k n : Nat) (f : Cmd → Cmd) : (s.modCmd k n f).regs = s.regs := rfl
@[simp] theorem State.modCmd_hbm (s : State) (k n : Nat) (f : Cmd → Cmd) : (s.modCmd k n f).hbm = s.hbm := rfl
@[simp] theorem State.modCmd_scr (s : State) (k n : Nat) (f : Cmd → Cmd) : (s.modCmd k n f).scr = s.scr := rfl
@[simp] theorem State.modCmd_pwr (s : State) (k n : Nat) (f : Cmd → Cmd) : (s.modCmd k n f).pwr = s.pwr := rfl
@[simp] theorem State.modCmd_tables (s : State) (k n : Nat) (f : Cmd → Cmd) : (s.modCmd k n f).tables = s.tables := rfl
@[simp] theorem State.modCmd_loads (s : State) (k n : Nat) (f : Cmd → Cmd) : (s.modCmd k n f).loads = s.loads := rfl
@[simp] theorem State.modCmd_commits (s : State) (k n : Nat) (f : Cmd → Cmd) : (s.modCmd k n f).commits = s.commits := rfl
@[simp] theorem State.modCmd_nextCid (s : State) (k n : Nat) (f : Cmd → Cmd) : (s.modCmd k n f).nextCid = s.nextCid := rfl
@[simp] theorem State.modCmd_heap (s : State) (k n : Nat) (f : Cmd → Cmd) : (s.modCmd k n f).heap = s.heap := rfl
@[simp] theorem State.modCmd_lostRows (s : State) (k n : Nat) (f : Cmd → Cmd) : (s.modCmd k n f).lostRows = s.lostRows := rfl
@[simp] theorem State.modCmd_gpes (s : State) (k n : Nat) (f : Cmd → Cmd) : (s.modCmd k n f).gpes = s.gpes := rfl
@[simp] theorem State.modCmd_reqs (s : State) (k n : Nat) (f : Cmd → Cmd) : (s.modCmd k n f).reqs = s.reqs := rfl
@[simp] theorem State.modCmd_reads (s : State) (k n : Nat) (f : Cmd → Cmd) : (s.modCmd k n f).reads = s.reads := rfl
@[simp] theorem State.modCmd_nextRead (s : State) (k n : Nat) (f : Cmd → Cmd) : (s.modCmd k n f).nextRead = s.nextRead := rfl
@[simp] theorem State.modCmd_combine (s : State) (k n : Nat) (f : Cmd → Cmd) : (s.modCmd k n f).combine = s.combine := rfl
@[simp] theorem State.modCmd_doms (s : State) (k n : Nat) (f : Cmd → Cmd) : (s.modCmd k n f).doms = s.doms := rfl
@[simp] theorem State.modCmd_dirs (s : State) (k n : Nat) (f : Cmd → Cmd) : (s.modCmd k n f).dirs = s.dirs := rfl
@[simp] theorem State.modCmd_migs (s : State) (k n : Nat) (f : Cmd → Cmd) : (s.modCmd k n f).migs = s.migs := rfl
@[simp] theorem State.modCmd_reps (s : State) (k n : Nat) (f : Cmd → Cmd) : (s.modCmd k n f).reps = s.reps := rfl
@[simp] theorem State.modCmd_replicas (s : State) (k n : Nat) (f : Cmd → Cmd) : (s.modCmd k n f).replicas = s.replicas := rfl
@[simp] theorem State.modCmd_cool (s : State) (k n : Nat) (f : Cmd → Cmd) : (s.modCmd k n f).cool = s.cool := rfl
@[simp] theorem State.modCmd_pin (s : State) (k n : Nat) (f : Cmd → Cmd) : (s.modCmd k n f).pin = s.pin := rfl
@[simp] theorem State.modCmd_lastDie (s : State) (k n : Nat) (f : Cmd → Cmd) : (s.modCmd k n f).lastDie = s.lastDie := rfl
@[simp] theorem State.modCmd_pinJobs (s : State) (k n : Nat) (f : Cmd → Cmd) : (s.modCmd k n f).pinJobs = s.pinJobs := rfl
@[simp] theorem State.modCmd_fports (s : State) (k n : Nat) (f : Cmd → Cmd) : (s.modCmd k n f).fports = s.fports := rfl
@[simp] theorem State.modCmd_strms (s : State) (k n : Nat) (f : Cmd → Cmd) : (s.modCmd k n f).strms = s.strms := rfl
@[simp] theorem State.modCmd_pair (s : State) (k n : Nat) (f : Cmd → Cmd) : (s.modCmd k n f).pair = s.pair := rfl
@[simp] theorem State.modCmd_ctxs (s : State) (k n : Nat) (f : Cmd → Cmd) : (s.modCmd k n f).ctxs = s.ctxs := rfl
@[simp] theorem State.modCmd_clusters (s : State) (k n : Nat) (f : Cmd → Cmd) : (s.modCmd k n f).clusters = s.clusters := rfl
@[simp] theorem State.modCmd_scripts (s : State) (k n : Nat) (f : Cmd → Cmd) : (s.modCmd k n f).scripts = s.scripts := rfl
@[simp] theorem State.modCmd_nextOp (s : State) (k n : Nat) (f : Cmd → Cmd) : (s.modCmd k n f).nextOp = s.nextOp := rfl
@[simp] theorem State.modCmd_bindings (s : State) (k n : Nat) (f : Cmd → Cmd) : (s.modCmd k n f).bindings = s.bindings := rfl
@[simp] theorem State.modCmd_cueNames (s : State) (k n : Nat) (f : Cmd → Cmd) : (s.modCmd k n f).cueNames = s.cueNames := rfl
@[simp] theorem State.modCmd_direct (s : State) (k n : Nat) (f : Cmd → Cmd) : (s.modCmd k n f).direct = s.direct := rfl
@[simp] theorem State.modCmd_host (s : State) (k n : Nat) (f : Cmd → Cmd) : (s.modCmd k n f).host = s.host := rfl
@[simp] theorem State.modCmd_mem (s : State) (k n : Nat) (f : Cmd → Cmd) : (s.modCmd k n f).mem = s.mem := rfl
@[simp] theorem State.modCmd_link (s : State) (k n : Nat) (f : Cmd → Cmd) : (s.modCmd k n f).link = s.link := rfl
@[simp] theorem State.modCmd_net (s : State) (k n : Nat) (f : Cmd → Cmd) : (s.modCmd k n f).net = s.net := rfl
@[simp] theorem State.modCmd_time (s : State) (k n : Nat) (f : Cmd → Cmd) : (s.modCmd k n f).time = s.time := rfl
@[simp] theorem State.modCmd_ras (s : State) (k n : Nat) (f : Cmd → Cmd) : (s.modCmd k n f).ras = s.ras := rfl
@[simp] theorem State.modCmd_mgmt (s : State) (k n : Nat) (f : Cmd → Cmd) : (s.modCmd k n f).mgmt = s.mgmt := rfl
@[simp] theorem State.modCmd_out (s : State) (k n : Nat) (f : Cmd → Cmd) : (s.modCmd k n f).out = s.out := rfl
@[simp] theorem State.modCmd_freeCtr (s : State) (k n : Nat) (f : Cmd → Cmd) : (s.modCmd k n f).freeCtr = s.freeCtr := rfl

@[simp] theorem State.endCmd_pending (s : State) (k n st v : Nat) : (s.endCmd k n st v).pending = s.pending := rfl
@[simp] theorem State.endCmd_regs (s : State) (k n st v : Nat) : (s.endCmd k n st v).regs = s.regs := rfl
@[simp] theorem State.endCmd_hbm (s : State) (k n st v : Nat) : (s.endCmd k n st v).hbm = s.hbm := rfl
@[simp] theorem State.endCmd_scr (s : State) (k n st v : Nat) : (s.endCmd k n st v).scr = s.scr := rfl
@[simp] theorem State.endCmd_pwr (s : State) (k n st v : Nat) : (s.endCmd k n st v).pwr = s.pwr := rfl
@[simp] theorem State.endCmd_tables (s : State) (k n st v : Nat) : (s.endCmd k n st v).tables = s.tables := rfl
@[simp] theorem State.endCmd_loads (s : State) (k n st v : Nat) : (s.endCmd k n st v).loads = s.loads := rfl
@[simp] theorem State.endCmd_commits (s : State) (k n st v : Nat) : (s.endCmd k n st v).commits = s.commits := rfl
@[simp] theorem State.endCmd_nextCid (s : State) (k n st v : Nat) : (s.endCmd k n st v).nextCid = s.nextCid := rfl
@[simp] theorem State.endCmd_heap (s : State) (k n st v : Nat) : (s.endCmd k n st v).heap = s.heap := rfl
@[simp] theorem State.endCmd_lostRows (s : State) (k n st v : Nat) : (s.endCmd k n st v).lostRows = s.lostRows := rfl
@[simp] theorem State.endCmd_gpes (s : State) (k n st v : Nat) : (s.endCmd k n st v).gpes = s.gpes := rfl
@[simp] theorem State.endCmd_reqs (s : State) (k n st v : Nat) : (s.endCmd k n st v).reqs = s.reqs := rfl
@[simp] theorem State.endCmd_reads (s : State) (k n st v : Nat) : (s.endCmd k n st v).reads = s.reads := rfl
@[simp] theorem State.endCmd_nextRead (s : State) (k n st v : Nat) : (s.endCmd k n st v).nextRead = s.nextRead := rfl
@[simp] theorem State.endCmd_combine (s : State) (k n st v : Nat) : (s.endCmd k n st v).combine = s.combine := rfl
@[simp] theorem State.endCmd_doms (s : State) (k n st v : Nat) : (s.endCmd k n st v).doms = s.doms := rfl
@[simp] theorem State.endCmd_dirs (s : State) (k n st v : Nat) : (s.endCmd k n st v).dirs = s.dirs := rfl
@[simp] theorem State.endCmd_migs (s : State) (k n st v : Nat) : (s.endCmd k n st v).migs = s.migs := rfl
@[simp] theorem State.endCmd_reps (s : State) (k n st v : Nat) : (s.endCmd k n st v).reps = s.reps := rfl
@[simp] theorem State.endCmd_replicas (s : State) (k n st v : Nat) : (s.endCmd k n st v).replicas = s.replicas := rfl
@[simp] theorem State.endCmd_cool (s : State) (k n st v : Nat) : (s.endCmd k n st v).cool = s.cool := rfl
@[simp] theorem State.endCmd_pin (s : State) (k n st v : Nat) : (s.endCmd k n st v).pin = s.pin := rfl
@[simp] theorem State.endCmd_lastDie (s : State) (k n st v : Nat) : (s.endCmd k n st v).lastDie = s.lastDie := rfl
@[simp] theorem State.endCmd_pinJobs (s : State) (k n st v : Nat) : (s.endCmd k n st v).pinJobs = s.pinJobs := rfl
@[simp] theorem State.endCmd_fports (s : State) (k n st v : Nat) : (s.endCmd k n st v).fports = s.fports := rfl
@[simp] theorem State.endCmd_strms (s : State) (k n st v : Nat) : (s.endCmd k n st v).strms = s.strms := rfl
@[simp] theorem State.endCmd_pair (s : State) (k n st v : Nat) : (s.endCmd k n st v).pair = s.pair := rfl
@[simp] theorem State.endCmd_ctxs (s : State) (k n st v : Nat) : (s.endCmd k n st v).ctxs = s.ctxs := rfl
@[simp] theorem State.endCmd_clusters (s : State) (k n st v : Nat) : (s.endCmd k n st v).clusters = s.clusters := rfl
@[simp] theorem State.endCmd_scripts (s : State) (k n st v : Nat) : (s.endCmd k n st v).scripts = s.scripts := rfl
@[simp] theorem State.endCmd_nextOp (s : State) (k n st v : Nat) : (s.endCmd k n st v).nextOp = s.nextOp := rfl
@[simp] theorem State.endCmd_bindings (s : State) (k n st v : Nat) : (s.endCmd k n st v).bindings = s.bindings := rfl
@[simp] theorem State.endCmd_cueNames (s : State) (k n st v : Nat) : (s.endCmd k n st v).cueNames = s.cueNames := rfl
@[simp] theorem State.endCmd_direct (s : State) (k n st v : Nat) : (s.endCmd k n st v).direct = s.direct := rfl
@[simp] theorem State.endCmd_host (s : State) (k n st v : Nat) : (s.endCmd k n st v).host = s.host := rfl
@[simp] theorem State.endCmd_mem (s : State) (k n st v : Nat) : (s.endCmd k n st v).mem = s.mem := rfl
@[simp] theorem State.endCmd_link (s : State) (k n st v : Nat) : (s.endCmd k n st v).link = s.link := rfl
@[simp] theorem State.endCmd_net (s : State) (k n st v : Nat) : (s.endCmd k n st v).net = s.net := rfl
@[simp] theorem State.endCmd_time (s : State) (k n st v : Nat) : (s.endCmd k n st v).time = s.time := rfl
@[simp] theorem State.endCmd_ras (s : State) (k n st v : Nat) : (s.endCmd k n st v).ras = s.ras := rfl
@[simp] theorem State.endCmd_mgmt (s : State) (k n st v : Nat) : (s.endCmd k n st v).mgmt = s.mgmt := rfl
@[simp] theorem State.endCmd_out (s : State) (k n st v : Nat) : (s.endCmd k n st v).out = s.out := rfl
@[simp] theorem State.endCmd_freeCtr (s : State) (k n st v : Nat) : (s.endCmd k n st v).freeCtr = s.freeCtr := rfl

@[simp] theorem State.scrWrite_pending (s : State) (cl off : Nat) (b : Bytes) : (s.scrWrite cl off b).pending = s.pending := rfl
@[simp] theorem State.scrWrite_regs (s : State) (cl off : Nat) (b : Bytes) : (s.scrWrite cl off b).regs = s.regs := rfl
@[simp] theorem State.scrWrite_hbm (s : State) (cl off : Nat) (b : Bytes) : (s.scrWrite cl off b).hbm = s.hbm := rfl
@[simp] theorem State.scrWrite_scr (s : State) (cl off : Nat) (b : Bytes) : (s.scrWrite cl off b).scr = s.scr.write (scrKey cl off) b := rfl
@[simp] theorem State.scrWrite_pwr (s : State) (cl off : Nat) (b : Bytes) : (s.scrWrite cl off b).pwr = s.pwr := rfl
@[simp] theorem State.scrWrite_tables (s : State) (cl off : Nat) (b : Bytes) : (s.scrWrite cl off b).tables = s.tables := rfl
@[simp] theorem State.scrWrite_loads (s : State) (cl off : Nat) (b : Bytes) : (s.scrWrite cl off b).loads = s.loads := rfl
@[simp] theorem State.scrWrite_commits (s : State) (cl off : Nat) (b : Bytes) : (s.scrWrite cl off b).commits = s.commits := rfl
@[simp] theorem State.scrWrite_nextCid (s : State) (cl off : Nat) (b : Bytes) : (s.scrWrite cl off b).nextCid = s.nextCid := rfl
@[simp] theorem State.scrWrite_heap (s : State) (cl off : Nat) (b : Bytes) : (s.scrWrite cl off b).heap = s.heap := rfl
@[simp] theorem State.scrWrite_lostRows (s : State) (cl off : Nat) (b : Bytes) : (s.scrWrite cl off b).lostRows = s.lostRows := rfl
@[simp] theorem State.scrWrite_gpes (s : State) (cl off : Nat) (b : Bytes) : (s.scrWrite cl off b).gpes = s.gpes := rfl
@[simp] theorem State.scrWrite_reqs (s : State) (cl off : Nat) (b : Bytes) : (s.scrWrite cl off b).reqs = s.reqs := rfl
@[simp] theorem State.scrWrite_reads (s : State) (cl off : Nat) (b : Bytes) : (s.scrWrite cl off b).reads = s.reads := rfl
@[simp] theorem State.scrWrite_nextRead (s : State) (cl off : Nat) (b : Bytes) : (s.scrWrite cl off b).nextRead = s.nextRead := rfl
@[simp] theorem State.scrWrite_combine (s : State) (cl off : Nat) (b : Bytes) : (s.scrWrite cl off b).combine = s.combine := rfl
@[simp] theorem State.scrWrite_doms (s : State) (cl off : Nat) (b : Bytes) : (s.scrWrite cl off b).doms = s.doms := rfl
@[simp] theorem State.scrWrite_dirs (s : State) (cl off : Nat) (b : Bytes) : (s.scrWrite cl off b).dirs = s.dirs := rfl
@[simp] theorem State.scrWrite_migs (s : State) (cl off : Nat) (b : Bytes) : (s.scrWrite cl off b).migs = s.migs := rfl
@[simp] theorem State.scrWrite_reps (s : State) (cl off : Nat) (b : Bytes) : (s.scrWrite cl off b).reps = s.reps := rfl
@[simp] theorem State.scrWrite_replicas (s : State) (cl off : Nat) (b : Bytes) : (s.scrWrite cl off b).replicas = s.replicas := rfl
@[simp] theorem State.scrWrite_cool (s : State) (cl off : Nat) (b : Bytes) : (s.scrWrite cl off b).cool = s.cool := rfl
@[simp] theorem State.scrWrite_pin (s : State) (cl off : Nat) (b : Bytes) : (s.scrWrite cl off b).pin = s.pin := rfl
@[simp] theorem State.scrWrite_lastDie (s : State) (cl off : Nat) (b : Bytes) : (s.scrWrite cl off b).lastDie = s.lastDie := rfl
@[simp] theorem State.scrWrite_pinJobs (s : State) (cl off : Nat) (b : Bytes) : (s.scrWrite cl off b).pinJobs = s.pinJobs := rfl
@[simp] theorem State.scrWrite_fports (s : State) (cl off : Nat) (b : Bytes) : (s.scrWrite cl off b).fports = s.fports := rfl
@[simp] theorem State.scrWrite_strms (s : State) (cl off : Nat) (b : Bytes) : (s.scrWrite cl off b).strms = s.strms := rfl
@[simp] theorem State.scrWrite_pair (s : State) (cl off : Nat) (b : Bytes) : (s.scrWrite cl off b).pair = s.pair := rfl
@[simp] theorem State.scrWrite_ctxs (s : State) (cl off : Nat) (b : Bytes) : (s.scrWrite cl off b).ctxs = s.ctxs := rfl
@[simp] theorem State.scrWrite_clusters (s : State) (cl off : Nat) (b : Bytes) : (s.scrWrite cl off b).clusters = s.clusters := rfl
@[simp] theorem State.scrWrite_scripts (s : State) (cl off : Nat) (b : Bytes) : (s.scrWrite cl off b).scripts = s.scripts := rfl
@[simp] theorem State.scrWrite_nextOp (s : State) (cl off : Nat) (b : Bytes) : (s.scrWrite cl off b).nextOp = s.nextOp := rfl
@[simp] theorem State.scrWrite_slots (s : State) (cl off : Nat) (b : Bytes) : (s.scrWrite cl off b).slots = s.slots := rfl
@[simp] theorem State.scrWrite_bindings (s : State) (cl off : Nat) (b : Bytes) : (s.scrWrite cl off b).bindings = s.bindings := rfl
@[simp] theorem State.scrWrite_cueNames (s : State) (cl off : Nat) (b : Bytes) : (s.scrWrite cl off b).cueNames = s.cueNames := rfl
@[simp] theorem State.scrWrite_direct (s : State) (cl off : Nat) (b : Bytes) : (s.scrWrite cl off b).direct = s.direct := rfl
@[simp] theorem State.scrWrite_host (s : State) (cl off : Nat) (b : Bytes) : (s.scrWrite cl off b).host = s.host := rfl
@[simp] theorem State.scrWrite_mem (s : State) (cl off : Nat) (b : Bytes) : (s.scrWrite cl off b).mem = s.mem := rfl
@[simp] theorem State.scrWrite_link (s : State) (cl off : Nat) (b : Bytes) : (s.scrWrite cl off b).link = s.link := rfl
@[simp] theorem State.scrWrite_net (s : State) (cl off : Nat) (b : Bytes) : (s.scrWrite cl off b).net = s.net := rfl
@[simp] theorem State.scrWrite_time (s : State) (cl off : Nat) (b : Bytes) : (s.scrWrite cl off b).time = s.time := rfl
@[simp] theorem State.scrWrite_mgmt (s : State) (cl off : Nat) (b : Bytes) : (s.scrWrite cl off b).mgmt = s.mgmt := rfl
@[simp] theorem State.scrWrite_out (s : State) (cl off : Nat) (b : Bytes) : (s.scrWrite cl off b).out = s.out := rfl
@[simp] theorem State.scrWrite_freeCtr (s : State) (cl off : Nat) (b : Bytes) : (s.scrWrite cl off b).freeCtr = s.freeCtr := rfl

@[simp] theorem State.scrCells_pending (s : State) (c : List Host.Cell) : (s.scrCells c).pending = s.pending := rfl
@[simp] theorem State.scrCells_regs (s : State) (c : List Host.Cell) : (s.scrCells c).regs = s.regs := rfl
@[simp] theorem State.scrCells_hbm (s : State) (c : List Host.Cell) : (s.scrCells c).hbm = s.hbm := rfl
@[simp] theorem State.scrCells_scr (s : State) (c : List Host.Cell) : (s.scrCells c).scr = s.scr.writeCells c := rfl
@[simp] theorem State.scrCells_pwr (s : State) (c : List Host.Cell) : (s.scrCells c).pwr = s.pwr := rfl
@[simp] theorem State.scrCells_tables (s : State) (c : List Host.Cell) : (s.scrCells c).tables = s.tables := rfl
@[simp] theorem State.scrCells_loads (s : State) (c : List Host.Cell) : (s.scrCells c).loads = s.loads := rfl
@[simp] theorem State.scrCells_commits (s : State) (c : List Host.Cell) : (s.scrCells c).commits = s.commits := rfl
@[simp] theorem State.scrCells_nextCid (s : State) (c : List Host.Cell) : (s.scrCells c).nextCid = s.nextCid := rfl
@[simp] theorem State.scrCells_heap (s : State) (c : List Host.Cell) : (s.scrCells c).heap = s.heap := rfl
@[simp] theorem State.scrCells_lostRows (s : State) (c : List Host.Cell) : (s.scrCells c).lostRows = s.lostRows := rfl
@[simp] theorem State.scrCells_gpes (s : State) (c : List Host.Cell) : (s.scrCells c).gpes = s.gpes := rfl
@[simp] theorem State.scrCells_reqs (s : State) (c : List Host.Cell) : (s.scrCells c).reqs = s.reqs := rfl
@[simp] theorem State.scrCells_reads (s : State) (c : List Host.Cell) : (s.scrCells c).reads = s.reads := rfl
@[simp] theorem State.scrCells_nextRead (s : State) (c : List Host.Cell) : (s.scrCells c).nextRead = s.nextRead := rfl
@[simp] theorem State.scrCells_combine (s : State) (c : List Host.Cell) : (s.scrCells c).combine = s.combine := rfl
@[simp] theorem State.scrCells_doms (s : State) (c : List Host.Cell) : (s.scrCells c).doms = s.doms := rfl
@[simp] theorem State.scrCells_dirs (s : State) (c : List Host.Cell) : (s.scrCells c).dirs = s.dirs := rfl
@[simp] theorem State.scrCells_migs (s : State) (c : List Host.Cell) : (s.scrCells c).migs = s.migs := rfl
@[simp] theorem State.scrCells_reps (s : State) (c : List Host.Cell) : (s.scrCells c).reps = s.reps := rfl
@[simp] theorem State.scrCells_replicas (s : State) (c : List Host.Cell) : (s.scrCells c).replicas = s.replicas := rfl
@[simp] theorem State.scrCells_cool (s : State) (c : List Host.Cell) : (s.scrCells c).cool = s.cool := rfl
@[simp] theorem State.scrCells_pin (s : State) (c : List Host.Cell) : (s.scrCells c).pin = s.pin := rfl
@[simp] theorem State.scrCells_lastDie (s : State) (c : List Host.Cell) : (s.scrCells c).lastDie = s.lastDie := rfl
@[simp] theorem State.scrCells_pinJobs (s : State) (c : List Host.Cell) : (s.scrCells c).pinJobs = s.pinJobs := rfl
@[simp] theorem State.scrCells_fports (s : State) (c : List Host.Cell) : (s.scrCells c).fports = s.fports := rfl
@[simp] theorem State.scrCells_strms (s : State) (c : List Host.Cell) : (s.scrCells c).strms = s.strms := rfl
@[simp] theorem State.scrCells_pair (s : State) (c : List Host.Cell) : (s.scrCells c).pair = s.pair := rfl
@[simp] theorem State.scrCells_ctxs (s : State) (c : List Host.Cell) : (s.scrCells c).ctxs = s.ctxs := rfl
@[simp] theorem State.scrCells_clusters (s : State) (c : List Host.Cell) : (s.scrCells c).clusters = s.clusters := rfl
@[simp] theorem State.scrCells_scripts (s : State) (c : List Host.Cell) : (s.scrCells c).scripts = s.scripts := rfl
@[simp] theorem State.scrCells_nextOp (s : State) (c : List Host.Cell) : (s.scrCells c).nextOp = s.nextOp := rfl
@[simp] theorem State.scrCells_slots (s : State) (c : List Host.Cell) : (s.scrCells c).slots = s.slots := rfl
@[simp] theorem State.scrCells_bindings (s : State) (c : List Host.Cell) : (s.scrCells c).bindings = s.bindings := rfl
@[simp] theorem State.scrCells_cueNames (s : State) (c : List Host.Cell) : (s.scrCells c).cueNames = s.cueNames := rfl
@[simp] theorem State.scrCells_direct (s : State) (c : List Host.Cell) : (s.scrCells c).direct = s.direct := rfl
@[simp] theorem State.scrCells_host (s : State) (c : List Host.Cell) : (s.scrCells c).host = s.host := rfl
@[simp] theorem State.scrCells_mem (s : State) (c : List Host.Cell) : (s.scrCells c).mem = s.mem := rfl
@[simp] theorem State.scrCells_link (s : State) (c : List Host.Cell) : (s.scrCells c).link = s.link := rfl
@[simp] theorem State.scrCells_net (s : State) (c : List Host.Cell) : (s.scrCells c).net = s.net := rfl
@[simp] theorem State.scrCells_time (s : State) (c : List Host.Cell) : (s.scrCells c).time = s.time := rfl
@[simp] theorem State.scrCells_mgmt (s : State) (c : List Host.Cell) : (s.scrCells c).mgmt = s.mgmt := rfl
@[simp] theorem State.scrCells_out (s : State) (c : List Host.Cell) : (s.scrCells c).out = s.out := rfl
@[simp] theorem State.scrCells_freeCtr (s : State) (c : List Host.Cell) : (s.scrCells c).freeCtr = s.freeCtr := rfl

@[simp] theorem State.hbmWrite_pending (s : State) (a : Nat) (b : Bytes) : (s.hbmWrite a b).pending = s.pending := rfl
@[simp] theorem State.hbmWrite_regs (s : State) (a : Nat) (b : Bytes) : (s.hbmWrite a b).regs = s.regs := rfl
@[simp] theorem State.hbmWrite_hbm (s : State) (a : Nat) (b : Bytes) : (s.hbmWrite a b).hbm = s.hbm.write a b := rfl
@[simp] theorem State.hbmWrite_scr (s : State) (a : Nat) (b : Bytes) : (s.hbmWrite a b).scr = s.scr := rfl
@[simp] theorem State.hbmWrite_pwr (s : State) (a : Nat) (b : Bytes) : (s.hbmWrite a b).pwr = s.pwr := rfl
@[simp] theorem State.hbmWrite_tables (s : State) (a : Nat) (b : Bytes) : (s.hbmWrite a b).tables = s.tables := rfl
@[simp] theorem State.hbmWrite_loads (s : State) (a : Nat) (b : Bytes) : (s.hbmWrite a b).loads = s.loads := rfl
@[simp] theorem State.hbmWrite_commits (s : State) (a : Nat) (b : Bytes) : (s.hbmWrite a b).commits = s.commits := rfl
@[simp] theorem State.hbmWrite_nextCid (s : State) (a : Nat) (b : Bytes) : (s.hbmWrite a b).nextCid = s.nextCid := rfl
@[simp] theorem State.hbmWrite_heap (s : State) (a : Nat) (b : Bytes) : (s.hbmWrite a b).heap = s.heap := rfl
@[simp] theorem State.hbmWrite_lostRows (s : State) (a : Nat) (b : Bytes) : (s.hbmWrite a b).lostRows = s.lostRows := rfl
@[simp] theorem State.hbmWrite_gpes (s : State) (a : Nat) (b : Bytes) : (s.hbmWrite a b).gpes = s.gpes := rfl
@[simp] theorem State.hbmWrite_reqs (s : State) (a : Nat) (b : Bytes) : (s.hbmWrite a b).reqs = s.reqs := rfl
@[simp] theorem State.hbmWrite_reads (s : State) (a : Nat) (b : Bytes) : (s.hbmWrite a b).reads = s.reads := rfl
@[simp] theorem State.hbmWrite_nextRead (s : State) (a : Nat) (b : Bytes) : (s.hbmWrite a b).nextRead = s.nextRead := rfl
@[simp] theorem State.hbmWrite_combine (s : State) (a : Nat) (b : Bytes) : (s.hbmWrite a b).combine = s.combine := rfl
@[simp] theorem State.hbmWrite_doms (s : State) (a : Nat) (b : Bytes) : (s.hbmWrite a b).doms = s.doms := rfl
@[simp] theorem State.hbmWrite_dirs (s : State) (a : Nat) (b : Bytes) : (s.hbmWrite a b).dirs = s.dirs := rfl
@[simp] theorem State.hbmWrite_migs (s : State) (a : Nat) (b : Bytes) : (s.hbmWrite a b).migs = s.migs := rfl
@[simp] theorem State.hbmWrite_reps (s : State) (a : Nat) (b : Bytes) : (s.hbmWrite a b).reps = s.reps := rfl
@[simp] theorem State.hbmWrite_replicas (s : State) (a : Nat) (b : Bytes) : (s.hbmWrite a b).replicas = s.replicas := rfl
@[simp] theorem State.hbmWrite_cool (s : State) (a : Nat) (b : Bytes) : (s.hbmWrite a b).cool = s.cool := rfl
@[simp] theorem State.hbmWrite_pin (s : State) (a : Nat) (b : Bytes) : (s.hbmWrite a b).pin = s.pin := rfl
@[simp] theorem State.hbmWrite_lastDie (s : State) (a : Nat) (b : Bytes) : (s.hbmWrite a b).lastDie = s.lastDie := rfl
@[simp] theorem State.hbmWrite_pinJobs (s : State) (a : Nat) (b : Bytes) : (s.hbmWrite a b).pinJobs = s.pinJobs := rfl
@[simp] theorem State.hbmWrite_fports (s : State) (a : Nat) (b : Bytes) : (s.hbmWrite a b).fports = s.fports := rfl
@[simp] theorem State.hbmWrite_strms (s : State) (a : Nat) (b : Bytes) : (s.hbmWrite a b).strms = s.strms := rfl
@[simp] theorem State.hbmWrite_pair (s : State) (a : Nat) (b : Bytes) : (s.hbmWrite a b).pair = s.pair := rfl
@[simp] theorem State.hbmWrite_ctxs (s : State) (a : Nat) (b : Bytes) : (s.hbmWrite a b).ctxs = s.ctxs := rfl
@[simp] theorem State.hbmWrite_clusters (s : State) (a : Nat) (b : Bytes) : (s.hbmWrite a b).clusters = s.clusters := rfl
@[simp] theorem State.hbmWrite_scripts (s : State) (a : Nat) (b : Bytes) : (s.hbmWrite a b).scripts = s.scripts := rfl
@[simp] theorem State.hbmWrite_nextOp (s : State) (a : Nat) (b : Bytes) : (s.hbmWrite a b).nextOp = s.nextOp := rfl
@[simp] theorem State.hbmWrite_slots (s : State) (a : Nat) (b : Bytes) : (s.hbmWrite a b).slots = s.slots := rfl
@[simp] theorem State.hbmWrite_bindings (s : State) (a : Nat) (b : Bytes) : (s.hbmWrite a b).bindings = s.bindings := rfl
@[simp] theorem State.hbmWrite_cueNames (s : State) (a : Nat) (b : Bytes) : (s.hbmWrite a b).cueNames = s.cueNames := rfl
@[simp] theorem State.hbmWrite_direct (s : State) (a : Nat) (b : Bytes) : (s.hbmWrite a b).direct = s.direct := rfl
@[simp] theorem State.hbmWrite_host (s : State) (a : Nat) (b : Bytes) : (s.hbmWrite a b).host = s.host := rfl
@[simp] theorem State.hbmWrite_mem (s : State) (a : Nat) (b : Bytes) : (s.hbmWrite a b).mem = s.mem := rfl
@[simp] theorem State.hbmWrite_link (s : State) (a : Nat) (b : Bytes) : (s.hbmWrite a b).link = s.link := rfl
@[simp] theorem State.hbmWrite_net (s : State) (a : Nat) (b : Bytes) : (s.hbmWrite a b).net = s.net := rfl
@[simp] theorem State.hbmWrite_time (s : State) (a : Nat) (b : Bytes) : (s.hbmWrite a b).time = s.time := rfl
@[simp] theorem State.hbmWrite_ras (s : State) (a : Nat) (b : Bytes) : (s.hbmWrite a b).ras = s.ras := rfl
@[simp] theorem State.hbmWrite_mgmt (s : State) (a : Nat) (b : Bytes) : (s.hbmWrite a b).mgmt = s.mgmt := rfl
@[simp] theorem State.hbmWrite_out (s : State) (a : Nat) (b : Bytes) : (s.hbmWrite a b).out = s.out := rfl
@[simp] theorem State.hbmWrite_freeCtr (s : State) (a : Nat) (b : Bytes) : (s.hbmWrite a b).freeCtr = s.freeCtr := rfl

@[simp] theorem State.free_pending (s : State) : s.free.2.pending = s.pending := by simp [State.free]
@[simp] theorem State.free_regs (s : State) : s.free.2.regs = s.regs := by simp [State.free]
@[simp] theorem State.free_hbm (s : State) : s.free.2.hbm = s.hbm := by simp [State.free]
@[simp] theorem State.free_scr (s : State) : s.free.2.scr = s.scr := by simp [State.free]
@[simp] theorem State.free_pwr (s : State) : s.free.2.pwr = s.pwr := by simp [State.free]
@[simp] theorem State.free_tables (s : State) : s.free.2.tables = s.tables := by simp [State.free]
@[simp] theorem State.free_loads (s : State) : s.free.2.loads = s.loads := by simp [State.free]
@[simp] theorem State.free_commits (s : State) : s.free.2.commits = s.commits := by simp [State.free]
@[simp] theorem State.free_nextCid (s : State) : s.free.2.nextCid = s.nextCid := by simp [State.free]
@[simp] theorem State.free_heap (s : State) : s.free.2.heap = s.heap := by simp [State.free]
@[simp] theorem State.free_lostRows (s : State) : s.free.2.lostRows = s.lostRows := by simp [State.free]
@[simp] theorem State.free_gpes (s : State) : s.free.2.gpes = s.gpes := by simp [State.free]
@[simp] theorem State.free_reqs (s : State) : s.free.2.reqs = s.reqs := by simp [State.free]
@[simp] theorem State.free_reads (s : State) : s.free.2.reads = s.reads := by simp [State.free]
@[simp] theorem State.free_nextRead (s : State) : s.free.2.nextRead = s.nextRead := by simp [State.free]
@[simp] theorem State.free_combine (s : State) : s.free.2.combine = s.combine := by simp [State.free]
@[simp] theorem State.free_doms (s : State) : s.free.2.doms = s.doms := by simp [State.free]
@[simp] theorem State.free_dirs (s : State) : s.free.2.dirs = s.dirs := by simp [State.free]
@[simp] theorem State.free_migs (s : State) : s.free.2.migs = s.migs := by simp [State.free]
@[simp] theorem State.free_reps (s : State) : s.free.2.reps = s.reps := by simp [State.free]
@[simp] theorem State.free_replicas (s : State) : s.free.2.replicas = s.replicas := by simp [State.free]
@[simp] theorem State.free_cool (s : State) : s.free.2.cool = s.cool := by simp [State.free]
@[simp] theorem State.free_pin (s : State) : s.free.2.pin = s.pin := by simp [State.free]
@[simp] theorem State.free_lastDie (s : State) : s.free.2.lastDie = s.lastDie := by simp [State.free]
@[simp] theorem State.free_pinJobs (s : State) : s.free.2.pinJobs = s.pinJobs := by simp [State.free]
@[simp] theorem State.free_fports (s : State) : s.free.2.fports = s.fports := by simp [State.free]
@[simp] theorem State.free_strms (s : State) : s.free.2.strms = s.strms := by simp [State.free]
@[simp] theorem State.free_pair (s : State) : s.free.2.pair = s.pair := by simp [State.free]
@[simp] theorem State.free_ctxs (s : State) : s.free.2.ctxs = s.ctxs := by simp [State.free]
@[simp] theorem State.free_clusters (s : State) : s.free.2.clusters = s.clusters := by simp [State.free]
@[simp] theorem State.free_scripts (s : State) : s.free.2.scripts = s.scripts := by simp [State.free]
@[simp] theorem State.free_nextOp (s : State) : s.free.2.nextOp = s.nextOp := by simp [State.free]
@[simp] theorem State.free_slots (s : State) : s.free.2.slots = s.slots := by simp [State.free]
@[simp] theorem State.free_bindings (s : State) : s.free.2.bindings = s.bindings := by simp [State.free]
@[simp] theorem State.free_cueNames (s : State) : s.free.2.cueNames = s.cueNames := by simp [State.free]
@[simp] theorem State.free_direct (s : State) : s.free.2.direct = s.direct := by simp [State.free]
@[simp] theorem State.free_host (s : State) : s.free.2.host = s.host := by simp [State.free]
@[simp] theorem State.free_mem (s : State) : s.free.2.mem = s.mem := by simp [State.free]
@[simp] theorem State.free_link (s : State) : s.free.2.link = s.link := by simp [State.free]
@[simp] theorem State.free_net (s : State) : s.free.2.net = s.net := by simp [State.free]
@[simp] theorem State.free_time (s : State) : s.free.2.time = s.time := by simp [State.free]
@[simp] theorem State.free_ras (s : State) : s.free.2.ras = s.ras := by simp [State.free]
@[simp] theorem State.free_mgmt (s : State) : s.free.2.mgmt = s.mgmt := by simp [State.free]
@[simp] theorem State.free_out (s : State) : s.free.2.out = s.out := by simp [State.free]
@[simp] theorem State.free_freeCtr (s : State) : s.free.2.freeCtr = s.freeCtr + 1 := by simp [State.free]

@[simp] theorem State.setRing_pending (s : State) (id : Nat) (r : Ring) : (s.setRing id r).pending = s.pending := rfl
@[simp] theorem State.setRing_regs (s : State) (id : Nat) (r : Ring) : (s.setRing id r).regs = s.regs := rfl
@[simp] theorem State.setRing_hbm (s : State) (id : Nat) (r : Ring) : (s.setRing id r).hbm = s.hbm := rfl
@[simp] theorem State.setRing_scr (s : State) (id : Nat) (r : Ring) : (s.setRing id r).scr = s.scr := rfl
@[simp] theorem State.setRing_pwr (s : State) (id : Nat) (r : Ring) : (s.setRing id r).pwr = s.pwr := rfl
@[simp] theorem State.setRing_tables (s : State) (id : Nat) (r : Ring) : (s.setRing id r).tables = s.tables := rfl
@[simp] theorem State.setRing_loads (s : State) (id : Nat) (r : Ring) : (s.setRing id r).loads = s.loads := rfl
@[simp] theorem State.setRing_commits (s : State) (id : Nat) (r : Ring) : (s.setRing id r).commits = s.commits := rfl
@[simp] theorem State.setRing_nextCid (s : State) (id : Nat) (r : Ring) : (s.setRing id r).nextCid = s.nextCid := rfl
@[simp] theorem State.setRing_heap (s : State) (id : Nat) (r : Ring) : (s.setRing id r).heap = s.heap := rfl
@[simp] theorem State.setRing_lostRows (s : State) (id : Nat) (r : Ring) : (s.setRing id r).lostRows = s.lostRows := rfl
@[simp] theorem State.setRing_gpes (s : State) (id : Nat) (r : Ring) : (s.setRing id r).gpes = s.gpes := rfl
@[simp] theorem State.setRing_reqs (s : State) (id : Nat) (r : Ring) : (s.setRing id r).reqs = s.reqs := rfl
@[simp] theorem State.setRing_reads (s : State) (id : Nat) (r : Ring) : (s.setRing id r).reads = s.reads := rfl
@[simp] theorem State.setRing_nextRead (s : State) (id : Nat) (r : Ring) : (s.setRing id r).nextRead = s.nextRead := rfl
@[simp] theorem State.setRing_combine (s : State) (id : Nat) (r : Ring) : (s.setRing id r).combine = s.combine := rfl
@[simp] theorem State.setRing_doms (s : State) (id : Nat) (r : Ring) : (s.setRing id r).doms = s.doms := rfl
@[simp] theorem State.setRing_dirs (s : State) (id : Nat) (r : Ring) : (s.setRing id r).dirs = s.dirs := rfl
@[simp] theorem State.setRing_migs (s : State) (id : Nat) (r : Ring) : (s.setRing id r).migs = s.migs := rfl
@[simp] theorem State.setRing_reps (s : State) (id : Nat) (r : Ring) : (s.setRing id r).reps = s.reps := rfl
@[simp] theorem State.setRing_replicas (s : State) (id : Nat) (r : Ring) : (s.setRing id r).replicas = s.replicas := rfl
@[simp] theorem State.setRing_cool (s : State) (id : Nat) (r : Ring) : (s.setRing id r).cool = s.cool := rfl
@[simp] theorem State.setRing_pin (s : State) (id : Nat) (r : Ring) : (s.setRing id r).pin = s.pin := rfl
@[simp] theorem State.setRing_lastDie (s : State) (id : Nat) (r : Ring) : (s.setRing id r).lastDie = s.lastDie := rfl
@[simp] theorem State.setRing_pinJobs (s : State) (id : Nat) (r : Ring) : (s.setRing id r).pinJobs = s.pinJobs := rfl
@[simp] theorem State.setRing_fports (s : State) (id : Nat) (r : Ring) : (s.setRing id r).fports = s.fports := rfl
@[simp] theorem State.setRing_strms (s : State) (id : Nat) (r : Ring) : (s.setRing id r).strms = s.strms := rfl
@[simp] theorem State.setRing_pair (s : State) (id : Nat) (r : Ring) : (s.setRing id r).pair = s.pair := rfl
@[simp] theorem State.setRing_clusters (s : State) (id : Nat) (r : Ring) : (s.setRing id r).clusters = s.clusters := rfl
@[simp] theorem State.setRing_scripts (s : State) (id : Nat) (r : Ring) : (s.setRing id r).scripts = s.scripts := rfl
@[simp] theorem State.setRing_nextOp (s : State) (id : Nat) (r : Ring) : (s.setRing id r).nextOp = s.nextOp := rfl
@[simp] theorem State.setRing_slots (s : State) (id : Nat) (r : Ring) : (s.setRing id r).slots = s.slots := rfl
@[simp] theorem State.setRing_bindings (s : State) (id : Nat) (r : Ring) : (s.setRing id r).bindings = s.bindings := rfl
@[simp] theorem State.setRing_cueNames (s : State) (id : Nat) (r : Ring) : (s.setRing id r).cueNames = s.cueNames := rfl
@[simp] theorem State.setRing_direct (s : State) (id : Nat) (r : Ring) : (s.setRing id r).direct = s.direct := rfl
@[simp] theorem State.setRing_host (s : State) (id : Nat) (r : Ring) : (s.setRing id r).host = s.host := rfl
@[simp] theorem State.setRing_mem (s : State) (id : Nat) (r : Ring) : (s.setRing id r).mem = s.mem := rfl
@[simp] theorem State.setRing_link (s : State) (id : Nat) (r : Ring) : (s.setRing id r).link = s.link := rfl
@[simp] theorem State.setRing_net (s : State) (id : Nat) (r : Ring) : (s.setRing id r).net = s.net := rfl
@[simp] theorem State.setRing_time (s : State) (id : Nat) (r : Ring) : (s.setRing id r).time = s.time := rfl
@[simp] theorem State.setRing_ras (s : State) (id : Nat) (r : Ring) : (s.setRing id r).ras = s.ras := rfl
@[simp] theorem State.setRing_mgmt (s : State) (id : Nat) (r : Ring) : (s.setRing id r).mgmt = s.mgmt := rfl
@[simp] theorem State.setRing_out (s : State) (id : Nat) (r : Ring) : (s.setRing id r).out = s.out := rfl
@[simp] theorem State.setRing_freeCtr (s : State) (id : Nat) (r : Ring) : (s.setRing id r).freeCtr = s.freeCtr := rfl

@[simp] theorem State.log_pending (s : State) (sev code unit : Nat) (ctx : Option Nat) (i0 i1 i2 : Nat) : (s.log sev code unit ctx i0 i1 i2).pending = s.pending := by unfold State.log; simp only [apply_ite State.pending, State.latch_pending, State.emit_pending, ite_self]
@[simp] theorem State.log_hbm (s : State) (sev code unit : Nat) (ctx : Option Nat) (i0 i1 i2 : Nat) : (s.log sev code unit ctx i0 i1 i2).hbm = s.hbm := by unfold State.log; simp only [apply_ite State.hbm, State.latch_hbm, State.emit_hbm, ite_self]
@[simp] theorem State.log_scr (s : State) (sev code unit : Nat) (ctx : Option Nat) (i0 i1 i2 : Nat) : (s.log sev code unit ctx i0 i1 i2).scr = s.scr := by unfold State.log; simp only [apply_ite State.scr, State.latch_scr, State.emit_scr, ite_self]
@[simp] theorem State.log_pwr (s : State) (sev code unit : Nat) (ctx : Option Nat) (i0 i1 i2 : Nat) : (s.log sev code unit ctx i0 i1 i2).pwr = s.pwr := by unfold State.log; simp only [apply_ite State.pwr, State.latch_pwr, State.emit_pwr, ite_self]
@[simp] theorem State.log_tables (s : State) (sev code unit : Nat) (ctx : Option Nat) (i0 i1 i2 : Nat) : (s.log sev code unit ctx i0 i1 i2).tables = s.tables := by unfold State.log; simp only [apply_ite State.tables, State.latch_tables, State.emit_tables, ite_self]
@[simp] theorem State.log_loads (s : State) (sev code unit : Nat) (ctx : Option Nat) (i0 i1 i2 : Nat) : (s.log sev code unit ctx i0 i1 i2).loads = s.loads := by unfold State.log; simp only [apply_ite State.loads, State.latch_loads, State.emit_loads, ite_self]
@[simp] theorem State.log_commits (s : State) (sev code unit : Nat) (ctx : Option Nat) (i0 i1 i2 : Nat) : (s.log sev code unit ctx i0 i1 i2).commits = s.commits := by unfold State.log; simp only [apply_ite State.commits, State.latch_commits, State.emit_commits, ite_self]
@[simp] theorem State.log_nextCid (s : State) (sev code unit : Nat) (ctx : Option Nat) (i0 i1 i2 : Nat) : (s.log sev code unit ctx i0 i1 i2).nextCid = s.nextCid := by unfold State.log; simp only [apply_ite State.nextCid, State.latch_nextCid, State.emit_nextCid, ite_self]
@[simp] theorem State.log_heap (s : State) (sev code unit : Nat) (ctx : Option Nat) (i0 i1 i2 : Nat) : (s.log sev code unit ctx i0 i1 i2).heap = s.heap := by unfold State.log; simp only [apply_ite State.heap, State.latch_heap, State.emit_heap, ite_self]
@[simp] theorem State.log_lostRows (s : State) (sev code unit : Nat) (ctx : Option Nat) (i0 i1 i2 : Nat) : (s.log sev code unit ctx i0 i1 i2).lostRows = s.lostRows := by unfold State.log; simp only [apply_ite State.lostRows, State.latch_lostRows, State.emit_lostRows, ite_self]
@[simp] theorem State.log_gpes (s : State) (sev code unit : Nat) (ctx : Option Nat) (i0 i1 i2 : Nat) : (s.log sev code unit ctx i0 i1 i2).gpes = s.gpes := by unfold State.log; simp only [apply_ite State.gpes, State.latch_gpes, State.emit_gpes, ite_self]
@[simp] theorem State.log_reqs (s : State) (sev code unit : Nat) (ctx : Option Nat) (i0 i1 i2 : Nat) : (s.log sev code unit ctx i0 i1 i2).reqs = s.reqs := by unfold State.log; simp only [apply_ite State.reqs, State.latch_reqs, State.emit_reqs, ite_self]
@[simp] theorem State.log_reads (s : State) (sev code unit : Nat) (ctx : Option Nat) (i0 i1 i2 : Nat) : (s.log sev code unit ctx i0 i1 i2).reads = s.reads := by unfold State.log; simp only [apply_ite State.reads, State.latch_reads, State.emit_reads, ite_self]
@[simp] theorem State.log_nextRead (s : State) (sev code unit : Nat) (ctx : Option Nat) (i0 i1 i2 : Nat) : (s.log sev code unit ctx i0 i1 i2).nextRead = s.nextRead := by unfold State.log; simp only [apply_ite State.nextRead, State.latch_nextRead, State.emit_nextRead, ite_self]
@[simp] theorem State.log_combine (s : State) (sev code unit : Nat) (ctx : Option Nat) (i0 i1 i2 : Nat) : (s.log sev code unit ctx i0 i1 i2).combine = s.combine := by unfold State.log; simp only [apply_ite State.combine, State.latch_combine, State.emit_combine, ite_self]
@[simp] theorem State.log_doms (s : State) (sev code unit : Nat) (ctx : Option Nat) (i0 i1 i2 : Nat) : (s.log sev code unit ctx i0 i1 i2).doms = s.doms := by unfold State.log; simp only [apply_ite State.doms, State.latch_doms, State.emit_doms, ite_self]
@[simp] theorem State.log_dirs (s : State) (sev code unit : Nat) (ctx : Option Nat) (i0 i1 i2 : Nat) : (s.log sev code unit ctx i0 i1 i2).dirs = s.dirs := by unfold State.log; simp only [apply_ite State.dirs, State.latch_dirs, State.emit_dirs, ite_self]
@[simp] theorem State.log_migs (s : State) (sev code unit : Nat) (ctx : Option Nat) (i0 i1 i2 : Nat) : (s.log sev code unit ctx i0 i1 i2).migs = s.migs := by unfold State.log; simp only [apply_ite State.migs, State.latch_migs, State.emit_migs, ite_self]
@[simp] theorem State.log_reps (s : State) (sev code unit : Nat) (ctx : Option Nat) (i0 i1 i2 : Nat) : (s.log sev code unit ctx i0 i1 i2).reps = s.reps := by unfold State.log; simp only [apply_ite State.reps, State.latch_reps, State.emit_reps, ite_self]
@[simp] theorem State.log_replicas (s : State) (sev code unit : Nat) (ctx : Option Nat) (i0 i1 i2 : Nat) : (s.log sev code unit ctx i0 i1 i2).replicas = s.replicas := by unfold State.log; simp only [apply_ite State.replicas, State.latch_replicas, State.emit_replicas, ite_self]
@[simp] theorem State.log_cool (s : State) (sev code unit : Nat) (ctx : Option Nat) (i0 i1 i2 : Nat) : (s.log sev code unit ctx i0 i1 i2).cool = s.cool := by unfold State.log; simp only [apply_ite State.cool, State.latch_cool, State.emit_cool, ite_self]
@[simp] theorem State.log_pin (s : State) (sev code unit : Nat) (ctx : Option Nat) (i0 i1 i2 : Nat) : (s.log sev code unit ctx i0 i1 i2).pin = s.pin := by unfold State.log; simp only [apply_ite State.pin, State.latch_pin, State.emit_pin, ite_self]
@[simp] theorem State.log_lastDie (s : State) (sev code unit : Nat) (ctx : Option Nat) (i0 i1 i2 : Nat) : (s.log sev code unit ctx i0 i1 i2).lastDie = s.lastDie := by unfold State.log; simp only [apply_ite State.lastDie, State.latch_lastDie, State.emit_lastDie, ite_self]
@[simp] theorem State.log_pinJobs (s : State) (sev code unit : Nat) (ctx : Option Nat) (i0 i1 i2 : Nat) : (s.log sev code unit ctx i0 i1 i2).pinJobs = s.pinJobs := by unfold State.log; simp only [apply_ite State.pinJobs, State.latch_pinJobs, State.emit_pinJobs, ite_self]
@[simp] theorem State.log_fports (s : State) (sev code unit : Nat) (ctx : Option Nat) (i0 i1 i2 : Nat) : (s.log sev code unit ctx i0 i1 i2).fports = s.fports := by unfold State.log; simp only [apply_ite State.fports, State.latch_fports, State.emit_fports, ite_self]
@[simp] theorem State.log_strms (s : State) (sev code unit : Nat) (ctx : Option Nat) (i0 i1 i2 : Nat) : (s.log sev code unit ctx i0 i1 i2).strms = s.strms := by unfold State.log; simp only [apply_ite State.strms, State.latch_strms, State.emit_strms, ite_self]
@[simp] theorem State.log_pair (s : State) (sev code unit : Nat) (ctx : Option Nat) (i0 i1 i2 : Nat) : (s.log sev code unit ctx i0 i1 i2).pair = s.pair := by unfold State.log; simp only [apply_ite State.pair, State.latch_pair, State.emit_pair, ite_self]
@[simp] theorem State.log_ctxs (s : State) (sev code unit : Nat) (ctx : Option Nat) (i0 i1 i2 : Nat) : (s.log sev code unit ctx i0 i1 i2).ctxs = s.ctxs := by unfold State.log; simp only [apply_ite State.ctxs, State.latch_ctxs, State.emit_ctxs, ite_self]
@[simp] theorem State.log_clusters (s : State) (sev code unit : Nat) (ctx : Option Nat) (i0 i1 i2 : Nat) : (s.log sev code unit ctx i0 i1 i2).clusters = s.clusters := by unfold State.log; simp only [apply_ite State.clusters, State.latch_clusters, State.emit_clusters, ite_self]
@[simp] theorem State.log_scripts (s : State) (sev code unit : Nat) (ctx : Option Nat) (i0 i1 i2 : Nat) : (s.log sev code unit ctx i0 i1 i2).scripts = s.scripts := by unfold State.log; simp only [apply_ite State.scripts, State.latch_scripts, State.emit_scripts, ite_self]
@[simp] theorem State.log_nextOp (s : State) (sev code unit : Nat) (ctx : Option Nat) (i0 i1 i2 : Nat) : (s.log sev code unit ctx i0 i1 i2).nextOp = s.nextOp := by unfold State.log; simp only [apply_ite State.nextOp, State.latch_nextOp, State.emit_nextOp, ite_self]
@[simp] theorem State.log_slots (s : State) (sev code unit : Nat) (ctx : Option Nat) (i0 i1 i2 : Nat) : (s.log sev code unit ctx i0 i1 i2).slots = s.slots := by unfold State.log; simp only [apply_ite State.slots, State.latch_slots, State.emit_slots, ite_self]
@[simp] theorem State.log_bindings (s : State) (sev code unit : Nat) (ctx : Option Nat) (i0 i1 i2 : Nat) : (s.log sev code unit ctx i0 i1 i2).bindings = s.bindings := by unfold State.log; simp only [apply_ite State.bindings, State.latch_bindings, State.emit_bindings, ite_self]
@[simp] theorem State.log_cueNames (s : State) (sev code unit : Nat) (ctx : Option Nat) (i0 i1 i2 : Nat) : (s.log sev code unit ctx i0 i1 i2).cueNames = s.cueNames := by unfold State.log; simp only [apply_ite State.cueNames, State.latch_cueNames, State.emit_cueNames, ite_self]
@[simp] theorem State.log_direct (s : State) (sev code unit : Nat) (ctx : Option Nat) (i0 i1 i2 : Nat) : (s.log sev code unit ctx i0 i1 i2).direct = s.direct := by unfold State.log; simp only [apply_ite State.direct, State.latch_direct, State.emit_direct, ite_self]
@[simp] theorem State.log_host (s : State) (sev code unit : Nat) (ctx : Option Nat) (i0 i1 i2 : Nat) : (s.log sev code unit ctx i0 i1 i2).host = s.host := by unfold State.log; simp only [apply_ite State.host, State.latch_host, State.emit_host, ite_self]
@[simp] theorem State.log_mem (s : State) (sev code unit : Nat) (ctx : Option Nat) (i0 i1 i2 : Nat) : (s.log sev code unit ctx i0 i1 i2).mem = s.mem := by unfold State.log; simp only [apply_ite State.mem, State.latch_mem, State.emit_mem, ite_self]
@[simp] theorem State.log_link (s : State) (sev code unit : Nat) (ctx : Option Nat) (i0 i1 i2 : Nat) : (s.log sev code unit ctx i0 i1 i2).link = s.link := by unfold State.log; simp only [apply_ite State.link, State.latch_link, State.emit_link, ite_self]
@[simp] theorem State.log_net (s : State) (sev code unit : Nat) (ctx : Option Nat) (i0 i1 i2 : Nat) : (s.log sev code unit ctx i0 i1 i2).net = s.net := by unfold State.log; simp only [apply_ite State.net, State.latch_net, State.emit_net, ite_self]
@[simp] theorem State.log_time (s : State) (sev code unit : Nat) (ctx : Option Nat) (i0 i1 i2 : Nat) : (s.log sev code unit ctx i0 i1 i2).time = s.time := by unfold State.log; simp only [apply_ite State.time, State.latch_time, State.emit_time, ite_self]
@[simp] theorem State.log_mgmt (s : State) (sev code unit : Nat) (ctx : Option Nat) (i0 i1 i2 : Nat) : (s.log sev code unit ctx i0 i1 i2).mgmt = s.mgmt := by unfold State.log; simp only [apply_ite State.mgmt, State.latch_mgmt, State.emit_mgmt, ite_self]
@[simp] theorem State.log_freeCtr (s : State) (sev code unit : Nat) (ctx : Option Nat) (i0 i1 i2 : Nat) : (s.log sev code unit ctx i0 i1 i2).freeCtr = s.freeCtr := by unfold State.log; simp only [apply_ite State.freeCtr, State.latch_freeCtr, State.emit_freeCtr, ite_self]

@[simp] theorem State.issued_pending (s : State) (a : Site) (f : ClCtx → ClCtx) : (s.issued a f).pending = s.pending := rfl
@[simp] theorem State.issued_hbm (s : State) (a : Site) (f : ClCtx → ClCtx) : (s.issued a f).hbm = s.hbm := rfl
@[simp] theorem State.issued_scr (s : State) (a : Site) (f : ClCtx → ClCtx) : (s.issued a f).scr = s.scr := rfl
@[simp] theorem State.issued_pwr (s : State) (a : Site) (f : ClCtx → ClCtx) : (s.issued a f).pwr = s.pwr := rfl
@[simp] theorem State.issued_tables (s : State) (a : Site) (f : ClCtx → ClCtx) : (s.issued a f).tables = s.tables := rfl
@[simp] theorem State.issued_loads (s : State) (a : Site) (f : ClCtx → ClCtx) : (s.issued a f).loads = s.loads := rfl
@[simp] theorem State.issued_commits (s : State) (a : Site) (f : ClCtx → ClCtx) : (s.issued a f).commits = s.commits := rfl
@[simp] theorem State.issued_nextCid (s : State) (a : Site) (f : ClCtx → ClCtx) : (s.issued a f).nextCid = s.nextCid := rfl
@[simp] theorem State.issued_heap (s : State) (a : Site) (f : ClCtx → ClCtx) : (s.issued a f).heap = s.heap := rfl
@[simp] theorem State.issued_lostRows (s : State) (a : Site) (f : ClCtx → ClCtx) : (s.issued a f).lostRows = s.lostRows := rfl
@[simp] theorem State.issued_gpes (s : State) (a : Site) (f : ClCtx → ClCtx) : (s.issued a f).gpes = s.gpes := rfl
@[simp] theorem State.issued_reqs (s : State) (a : Site) (f : ClCtx → ClCtx) : (s.issued a f).reqs = s.reqs := rfl
@[simp] theorem State.issued_reads (s : State) (a : Site) (f : ClCtx → ClCtx) : (s.issued a f).reads = s.reads := rfl
@[simp] theorem State.issued_nextRead (s : State) (a : Site) (f : ClCtx → ClCtx) : (s.issued a f).nextRead = s.nextRead := rfl
@[simp] theorem State.issued_combine (s : State) (a : Site) (f : ClCtx → ClCtx) : (s.issued a f).combine = s.combine := rfl
@[simp] theorem State.issued_doms (s : State) (a : Site) (f : ClCtx → ClCtx) : (s.issued a f).doms = s.doms := rfl
@[simp] theorem State.issued_dirs (s : State) (a : Site) (f : ClCtx → ClCtx) : (s.issued a f).dirs = s.dirs := rfl
@[simp] theorem State.issued_migs (s : State) (a : Site) (f : ClCtx → ClCtx) : (s.issued a f).migs = s.migs := rfl
@[simp] theorem State.issued_reps (s : State) (a : Site) (f : ClCtx → ClCtx) : (s.issued a f).reps = s.reps := rfl
@[simp] theorem State.issued_replicas (s : State) (a : Site) (f : ClCtx → ClCtx) : (s.issued a f).replicas = s.replicas := rfl
@[simp] theorem State.issued_cool (s : State) (a : Site) (f : ClCtx → ClCtx) : (s.issued a f).cool = s.cool := rfl
@[simp] theorem State.issued_pin (s : State) (a : Site) (f : ClCtx → ClCtx) : (s.issued a f).pin = s.pin := rfl
@[simp] theorem State.issued_lastDie (s : State) (a : Site) (f : ClCtx → ClCtx) : (s.issued a f).lastDie = s.lastDie := rfl
@[simp] theorem State.issued_pinJobs (s : State) (a : Site) (f : ClCtx → ClCtx) : (s.issued a f).pinJobs = s.pinJobs := rfl
@[simp] theorem State.issued_fports (s : State) (a : Site) (f : ClCtx → ClCtx) : (s.issued a f).fports = s.fports := rfl
@[simp] theorem State.issued_strms (s : State) (a : Site) (f : ClCtx → ClCtx) : (s.issued a f).strms = s.strms := rfl
@[simp] theorem State.issued_pair (s : State) (a : Site) (f : ClCtx → ClCtx) : (s.issued a f).pair = s.pair := rfl
@[simp] theorem State.issued_clusters (s : State) (a : Site) (f : ClCtx → ClCtx) : (s.issued a f).clusters = s.clusters := rfl
@[simp] theorem State.issued_scripts (s : State) (a : Site) (f : ClCtx → ClCtx) : (s.issued a f).scripts = s.scripts := rfl
@[simp] theorem State.issued_nextOp (s : State) (a : Site) (f : ClCtx → ClCtx) : (s.issued a f).nextOp = s.nextOp := rfl
@[simp] theorem State.issued_slots (s : State) (a : Site) (f : ClCtx → ClCtx) : (s.issued a f).slots = s.slots := rfl
@[simp] theorem State.issued_bindings (s : State) (a : Site) (f : ClCtx → ClCtx) : (s.issued a f).bindings = s.bindings := rfl
@[simp] theorem State.issued_cueNames (s : State) (a : Site) (f : ClCtx → ClCtx) : (s.issued a f).cueNames = s.cueNames := rfl
@[simp] theorem State.issued_direct (s : State) (a : Site) (f : ClCtx → ClCtx) : (s.issued a f).direct = s.direct := rfl
@[simp] theorem State.issued_host (s : State) (a : Site) (f : ClCtx → ClCtx) : (s.issued a f).host = s.host := rfl
@[simp] theorem State.issued_mem (s : State) (a : Site) (f : ClCtx → ClCtx) : (s.issued a f).mem = s.mem := rfl
@[simp] theorem State.issued_link (s : State) (a : Site) (f : ClCtx → ClCtx) : (s.issued a f).link = s.link := rfl
@[simp] theorem State.issued_net (s : State) (a : Site) (f : ClCtx → ClCtx) : (s.issued a f).net = s.net := rfl
@[simp] theorem State.issued_time (s : State) (a : Site) (f : ClCtx → ClCtx) : (s.issued a f).time = s.time := rfl
@[simp] theorem State.issued_ras (s : State) (a : Site) (f : ClCtx → ClCtx) : (s.issued a f).ras = s.ras := rfl
@[simp] theorem State.issued_mgmt (s : State) (a : Site) (f : ClCtx → ClCtx) : (s.issued a f).mgmt = s.mgmt := rfl
@[simp] theorem State.issued_out (s : State) (a : Site) (f : ClCtx → ClCtx) : (s.issued a f).out = s.out := rfl
@[simp] theorem State.issued_freeCtr (s : State) (a : Site) (f : ClCtx → ClCtx) : (s.issued a f).freeCtr = s.freeCtr := rfl

@[simp] theorem State.tick_pending (s : State) : s.tick.pending = s.pending := by unfold State.tick; (repeat' split) <;> rfl
@[simp] theorem State.tick_regs (s : State) : s.tick.regs = s.regs := by unfold State.tick; (repeat' split) <;> rfl
@[simp] theorem State.tick_hbm (s : State) : s.tick.hbm = s.hbm := by unfold State.tick; (repeat' split) <;> rfl
@[simp] theorem State.tick_scr (s : State) : s.tick.scr = s.scr := by unfold State.tick; (repeat' split) <;> rfl
@[simp] theorem State.tick_pwr (s : State) : s.tick.pwr = s.pwr := by unfold State.tick; (repeat' split) <;> rfl
@[simp] theorem State.tick_tables (s : State) : s.tick.tables = s.tables := by unfold State.tick; (repeat' split) <;> rfl
@[simp] theorem State.tick_loads (s : State) : s.tick.loads = s.loads := by unfold State.tick; (repeat' split) <;> rfl
@[simp] theorem State.tick_commits (s : State) : s.tick.commits = s.commits := by unfold State.tick; (repeat' split) <;> rfl
@[simp] theorem State.tick_nextCid (s : State) : s.tick.nextCid = s.nextCid := by unfold State.tick; (repeat' split) <;> rfl
@[simp] theorem State.tick_heap (s : State) : s.tick.heap = s.heap := by unfold State.tick; (repeat' split) <;> rfl
@[simp] theorem State.tick_lostRows (s : State) : s.tick.lostRows = s.lostRows := by unfold State.tick; (repeat' split) <;> rfl
@[simp] theorem State.tick_gpes (s : State) : s.tick.gpes = s.gpes := by unfold State.tick; (repeat' split) <;> rfl
@[simp] theorem State.tick_reqs (s : State) : s.tick.reqs = s.reqs := by unfold State.tick; (repeat' split) <;> rfl
@[simp] theorem State.tick_reads (s : State) : s.tick.reads = s.reads := by unfold State.tick; (repeat' split) <;> rfl
@[simp] theorem State.tick_nextRead (s : State) : s.tick.nextRead = s.nextRead := by unfold State.tick; (repeat' split) <;> rfl
@[simp] theorem State.tick_combine (s : State) : s.tick.combine = s.combine := by unfold State.tick; (repeat' split) <;> rfl
@[simp] theorem State.tick_doms (s : State) : s.tick.doms = s.doms := by unfold State.tick; (repeat' split) <;> rfl
@[simp] theorem State.tick_dirs (s : State) : s.tick.dirs = s.dirs := by unfold State.tick; (repeat' split) <;> rfl
@[simp] theorem State.tick_migs (s : State) : s.tick.migs = s.migs := by unfold State.tick; (repeat' split) <;> rfl
@[simp] theorem State.tick_reps (s : State) : s.tick.reps = s.reps := by unfold State.tick; (repeat' split) <;> rfl
@[simp] theorem State.tick_replicas (s : State) : s.tick.replicas = s.replicas := by unfold State.tick; (repeat' split) <;> rfl
@[simp] theorem State.tick_cool (s : State) : s.tick.cool = s.cool := by unfold State.tick; (repeat' split) <;> rfl
@[simp] theorem State.tick_pin (s : State) : s.tick.pin = s.pin := by unfold State.tick; (repeat' split) <;> rfl
@[simp] theorem State.tick_lastDie (s : State) : s.tick.lastDie = s.lastDie := by unfold State.tick; (repeat' split) <;> rfl
@[simp] theorem State.tick_pinJobs (s : State) : s.tick.pinJobs = s.pinJobs := by unfold State.tick; (repeat' split) <;> rfl
@[simp] theorem State.tick_fports (s : State) : s.tick.fports = s.fports := by unfold State.tick; (repeat' split) <;> rfl
@[simp] theorem State.tick_strms (s : State) : s.tick.strms = s.strms := by unfold State.tick; (repeat' split) <;> rfl
@[simp] theorem State.tick_pair (s : State) : s.tick.pair = s.pair := by unfold State.tick; (repeat' split) <;> rfl
@[simp] theorem State.tick_ctxs (s : State) : s.tick.ctxs = s.ctxs := by unfold State.tick; (repeat' split) <;> rfl
@[simp] theorem State.tick_clusters (s : State) : s.tick.clusters = s.clusters := by unfold State.tick; (repeat' split) <;> rfl
@[simp] theorem State.tick_scripts (s : State) : s.tick.scripts = s.scripts := by unfold State.tick; (repeat' split) <;> rfl
@[simp] theorem State.tick_nextOp (s : State) : s.tick.nextOp = s.nextOp := by unfold State.tick; (repeat' split) <;> rfl
@[simp] theorem State.tick_slots (s : State) : s.tick.slots = s.slots := by unfold State.tick; (repeat' split) <;> rfl
@[simp] theorem State.tick_bindings (s : State) : s.tick.bindings = s.bindings := by unfold State.tick; (repeat' split) <;> rfl
@[simp] theorem State.tick_cueNames (s : State) : s.tick.cueNames = s.cueNames := by unfold State.tick; (repeat' split) <;> rfl
@[simp] theorem State.tick_direct (s : State) : s.tick.direct = s.direct := by unfold State.tick; (repeat' split) <;> rfl
@[simp] theorem State.tick_host (s : State) : s.tick.host = s.host := by unfold State.tick; (repeat' split) <;> rfl
@[simp] theorem State.tick_mem (s : State) : s.tick.mem = s.mem := by unfold State.tick; (repeat' split) <;> rfl
@[simp] theorem State.tick_link (s : State) : s.tick.link = s.link := by unfold State.tick; (repeat' split) <;> rfl
@[simp] theorem State.tick_net (s : State) : s.tick.net = s.net := by unfold State.tick; (repeat' split) <;> rfl
@[simp] theorem State.tick_ras (s : State) : s.tick.ras = s.ras := by unfold State.tick; (repeat' split) <;> rfl
@[simp] theorem State.tick_mgmt (s : State) : s.tick.mgmt = s.mgmt := by unfold State.tick; (repeat' split) <;> rfl
@[simp] theorem State.tick_out (s : State) : s.tick.out = s.out := by unfold State.tick; (repeat' split) <;> rfl
@[simp] theorem State.tick_freeCtr (s : State) : s.tick.freeCtr = s.freeCtr := by unfold State.tick; (repeat' split) <;> rfl

/-- A state that differs from another at most in its links, its queue, its GPEs and what has gone out. -/
def State.MovesTo (s t : State) : Prop := ∃ l q g o, t = { s with link := l, pending := q, gpes := g, out := o }

theorem State.movesTo_refl (s : State) : s.MovesTo s := ⟨s.link, s.pending, s.gpes, s.out, rfl⟩

theorem State.movesTo_trans {s t u : State} (h : s.MovesTo t) (h' : t.MovesTo u) : s.MovesTo u := by
  obtain ⟨l, q, g, o, rfl⟩ := h
  obtain ⟨l', q', g', o', rfl⟩ := h'
  exact ⟨l', q', g', o', rfl⟩

theorem State.movesTo_foldl {α : Type} (f : State → α → State) (hf : ∀ s x, State.MovesTo s (f s x)) (l : List α) (s : State) : s.MovesTo (l.foldl f s) := by
  induction l generalizing s with
  | nil => exact s.movesTo_refl
  | cons x l ih => exact State.movesTo_trans (hf s x) (ih _)

/-- What a port that sends can change. -/
theorem State.movesTo_putPort (s : State) (p : Send) (port dl : Nat) : s.MovesTo (s.putPort p port dl) := by
  unfold State.putPort State.portGo
  split
  · exact ⟨_, s.pending, s.gpes, s.out, rfl⟩
  · dsimp only
    split
    · exact ⟨_, s.pending, s.gpes, s.out, rfl⟩
    · exact ⟨_, s.pending, s.gpes, _, rfl⟩

/-- What a packet that comes out of the network can change. -/
theorem State.movesTo_comesOut (s : State) (x : Parcel) : s.MovesTo (s.comesOut x) := by
  unfold State.comesOut
  (repeat' split)
  all_goals
    first
      | exact s.movesTo_refl
      | exact s.movesTo_putPort _ _ _
      | exact ⟨s.link, _, s.gpes, s.out, rfl⟩
      | exact ⟨s.link, s.pending, _, s.out, rfl⟩

theorem State.movesTo_nocMove (s : State) (g : (Nat × Nat) × ((Nat × Nat × Nat) × Flying)) : s.MovesTo (s.nocMove g) := by
  obtain ⟨⟨d, o⟩, key, x⟩ := g
  simp only [State.nocMove]
  split
  · exact ⟨_, s.pending, s.gpes, s.out, rfl⟩
  · exact State.movesTo_trans ⟨_, s.pending, s.gpes, s.out, rfl⟩ (State.movesTo_comesOut _ _)

theorem State.movesTo_ownerTurn (s : State) (die : Nat) : s.MovesTo (s.ownerTurn die) := by
  unfold State.ownerTurn
  split
  · exact s.movesTo_refl
  · exact ⟨s.link, _, _, s.out, rfl⟩

/-- What one tick of the package network can do: it moves packets, to the ports and the GPEs too, and queues those that arrive. -/
theorem State.netTick_eq (s : State) : s.MovesTo s.netTick := by
  unfold State.netTick
  split
  · exact s.movesTo_refl
  · exact State.movesTo_trans (State.movesTo_trans ⟨_, s.pending, s.gpes, s.out, rfl⟩ (State.movesTo_foldl _ State.movesTo_nocMove _ _))
      (State.movesTo_foldl _ State.movesTo_ownerTurn _ _)

@[simp] theorem State.netTick_regs (s : State) : s.netTick.regs = s.regs := by obtain ⟨l, q, g, o, h⟩ := s.netTick_eq; rw [h]
@[simp] theorem State.netTick_hbm (s : State) : s.netTick.hbm = s.hbm := by obtain ⟨l, q, g, o, h⟩ := s.netTick_eq; rw [h]
@[simp] theorem State.netTick_scr (s : State) : s.netTick.scr = s.scr := by obtain ⟨l, q, g, o, h⟩ := s.netTick_eq; rw [h]
@[simp] theorem State.netTick_pwr (s : State) : s.netTick.pwr = s.pwr := by obtain ⟨l, q, g, o, h⟩ := s.netTick_eq; rw [h]
@[simp] theorem State.netTick_tables (s : State) : s.netTick.tables = s.tables := by obtain ⟨l, q, g, o, h⟩ := s.netTick_eq; rw [h]
@[simp] theorem State.netTick_loads (s : State) : s.netTick.loads = s.loads := by obtain ⟨l, q, g, o, h⟩ := s.netTick_eq; rw [h]
@[simp] theorem State.netTick_commits (s : State) : s.netTick.commits = s.commits := by obtain ⟨l, q, g, o, h⟩ := s.netTick_eq; rw [h]
@[simp] theorem State.netTick_nextCid (s : State) : s.netTick.nextCid = s.nextCid := by obtain ⟨l, q, g, o, h⟩ := s.netTick_eq; rw [h]
@[simp] theorem State.netTick_heap (s : State) : s.netTick.heap = s.heap := by obtain ⟨l, q, g, o, h⟩ := s.netTick_eq; rw [h]
@[simp] theorem State.netTick_lostRows (s : State) : s.netTick.lostRows = s.lostRows := by obtain ⟨l, q, g, o, h⟩ := s.netTick_eq; rw [h]
@[simp] theorem State.netTick_reqs (s : State) : s.netTick.reqs = s.reqs := by obtain ⟨l, q, g, o, h⟩ := s.netTick_eq; rw [h]
@[simp] theorem State.netTick_reads (s : State) : s.netTick.reads = s.reads := by obtain ⟨l, q, g, o, h⟩ := s.netTick_eq; rw [h]
@[simp] theorem State.netTick_nextRead (s : State) : s.netTick.nextRead = s.nextRead := by obtain ⟨l, q, g, o, h⟩ := s.netTick_eq; rw [h]
@[simp] theorem State.netTick_combine (s : State) : s.netTick.combine = s.combine := by obtain ⟨l, q, g, o, h⟩ := s.netTick_eq; rw [h]
@[simp] theorem State.netTick_doms (s : State) : s.netTick.doms = s.doms := by obtain ⟨l, q, g, o, h⟩ := s.netTick_eq; rw [h]
@[simp] theorem State.netTick_dirs (s : State) : s.netTick.dirs = s.dirs := by obtain ⟨l, q, g, o, h⟩ := s.netTick_eq; rw [h]
@[simp] theorem State.netTick_migs (s : State) : s.netTick.migs = s.migs := by obtain ⟨l, q, g, o, h⟩ := s.netTick_eq; rw [h]
@[simp] theorem State.netTick_reps (s : State) : s.netTick.reps = s.reps := by obtain ⟨l, q, g, o, h⟩ := s.netTick_eq; rw [h]
@[simp] theorem State.netTick_replicas (s : State) : s.netTick.replicas = s.replicas := by obtain ⟨l, q, g, o, h⟩ := s.netTick_eq; rw [h]
@[simp] theorem State.netTick_cool (s : State) : s.netTick.cool = s.cool := by obtain ⟨l, q, g, o, h⟩ := s.netTick_eq; rw [h]
@[simp] theorem State.netTick_pin (s : State) : s.netTick.pin = s.pin := by obtain ⟨l, q, g, o, h⟩ := s.netTick_eq; rw [h]
@[simp] theorem State.netTick_pinJobs (s : State) : s.netTick.pinJobs = s.pinJobs := by obtain ⟨l, q, g, o, h⟩ := s.netTick_eq; rw [h]
@[simp] theorem State.netTick_lastDie (s : State) : s.netTick.lastDie = s.lastDie := by obtain ⟨l, q, g, o, h⟩ := s.netTick_eq; rw [h]
@[simp] theorem State.netTick_fports (s : State) : s.netTick.fports = s.fports := by obtain ⟨l, q, g, o, h⟩ := s.netTick_eq; rw [h]
@[simp] theorem State.netTick_strms (s : State) : s.netTick.strms = s.strms := by obtain ⟨l, q, g, o, h⟩ := s.netTick_eq; rw [h]
@[simp] theorem State.netTick_pair (s : State) : s.netTick.pair = s.pair := by obtain ⟨l, q, g, o, h⟩ := s.netTick_eq; rw [h]
@[simp] theorem State.netTick_ctxs (s : State) : s.netTick.ctxs = s.ctxs := by obtain ⟨l, q, g, o, h⟩ := s.netTick_eq; rw [h]
@[simp] theorem State.netTick_clusters (s : State) : s.netTick.clusters = s.clusters := by obtain ⟨l, q, g, o, h⟩ := s.netTick_eq; rw [h]
@[simp] theorem State.netTick_scripts (s : State) : s.netTick.scripts = s.scripts := by obtain ⟨l, q, g, o, h⟩ := s.netTick_eq; rw [h]
@[simp] theorem State.netTick_nextOp (s : State) : s.netTick.nextOp = s.nextOp := by obtain ⟨l, q, g, o, h⟩ := s.netTick_eq; rw [h]
@[simp] theorem State.netTick_slots (s : State) : s.netTick.slots = s.slots := by obtain ⟨l, q, g, o, h⟩ := s.netTick_eq; rw [h]
@[simp] theorem State.netTick_bindings (s : State) : s.netTick.bindings = s.bindings := by obtain ⟨l, q, g, o, h⟩ := s.netTick_eq; rw [h]
@[simp] theorem State.netTick_cueNames (s : State) : s.netTick.cueNames = s.cueNames := by obtain ⟨l, q, g, o, h⟩ := s.netTick_eq; rw [h]
@[simp] theorem State.netTick_direct (s : State) : s.netTick.direct = s.direct := by obtain ⟨l, q, g, o, h⟩ := s.netTick_eq; rw [h]
@[simp] theorem State.netTick_host (s : State) : s.netTick.host = s.host := by obtain ⟨l, q, g, o, h⟩ := s.netTick_eq; rw [h]
@[simp] theorem State.netTick_mem (s : State) : s.netTick.mem = s.mem := by obtain ⟨l, q, g, o, h⟩ := s.netTick_eq; rw [h]
@[simp] theorem State.netTick_net (s : State) : s.netTick.net = s.net := by obtain ⟨l, q, g, o, h⟩ := s.netTick_eq; rw [h]
@[simp] theorem State.netTick_time (s : State) : s.netTick.time = s.time := by obtain ⟨l, q, g, o, h⟩ := s.netTick_eq; rw [h]
@[simp] theorem State.netTick_ras (s : State) : s.netTick.ras = s.ras := by obtain ⟨l, q, g, o, h⟩ := s.netTick_eq; rw [h]
@[simp] theorem State.netTick_mgmt (s : State) : s.netTick.mgmt = s.mgmt := by obtain ⟨l, q, g, o, h⟩ := s.netTick_eq; rw [h]
@[simp] theorem State.netTick_freeCtr (s : State) : s.netTick.freeCtr = s.freeCtr := by obtain ⟨l, q, g, o, h⟩ := s.netTick_eq; rw [h]

@[simp] theorem State.stallTick_pending (s : State) : s.stallTick.pending = s.pending := rfl
@[simp] theorem State.stallTick_regs (s : State) : s.stallTick.regs = s.regs := rfl
@[simp] theorem State.stallTick_hbm (s : State) : s.stallTick.hbm = s.hbm := rfl
@[simp] theorem State.stallTick_scr (s : State) : s.stallTick.scr = s.scr := rfl
@[simp] theorem State.stallTick_pwr (s : State) : s.stallTick.pwr = s.pwr := rfl
@[simp] theorem State.stallTick_tables (s : State) : s.stallTick.tables = s.tables := rfl
@[simp] theorem State.stallTick_loads (s : State) : s.stallTick.loads = s.loads := rfl
@[simp] theorem State.stallTick_commits (s : State) : s.stallTick.commits = s.commits := rfl
@[simp] theorem State.stallTick_nextCid (s : State) : s.stallTick.nextCid = s.nextCid := rfl
@[simp] theorem State.stallTick_heap (s : State) : s.stallTick.heap = s.heap := rfl
@[simp] theorem State.stallTick_lostRows (s : State) : s.stallTick.lostRows = s.lostRows := rfl
@[simp] theorem State.stallTick_gpes (s : State) : s.stallTick.gpes = s.gpes := rfl
@[simp] theorem State.stallTick_reqs (s : State) : s.stallTick.reqs = s.reqs := rfl
@[simp] theorem State.stallTick_reads (s : State) : s.stallTick.reads = s.reads := rfl
@[simp] theorem State.stallTick_nextRead (s : State) : s.stallTick.nextRead = s.nextRead := rfl
@[simp] theorem State.stallTick_combine (s : State) : s.stallTick.combine = s.combine := rfl
@[simp] theorem State.stallTick_doms (s : State) : s.stallTick.doms = s.doms := rfl
@[simp] theorem State.stallTick_dirs (s : State) : s.stallTick.dirs = s.dirs := rfl
@[simp] theorem State.stallTick_migs (s : State) : s.stallTick.migs = s.migs := rfl
@[simp] theorem State.stallTick_reps (s : State) : s.stallTick.reps = s.reps := rfl
@[simp] theorem State.stallTick_replicas (s : State) : s.stallTick.replicas = s.replicas := rfl
@[simp] theorem State.stallTick_cool (s : State) : s.stallTick.cool = s.cool := rfl
@[simp] theorem State.stallTick_pin (s : State) : s.stallTick.pin = s.pin := rfl
@[simp] theorem State.stallTick_pinJobs (s : State) : s.stallTick.pinJobs = s.pinJobs := rfl
@[simp] theorem State.stallTick_lastDie (s : State) : s.stallTick.lastDie = s.lastDie := rfl
@[simp] theorem State.stallTick_fports (s : State) : s.stallTick.fports = s.fports := rfl
@[simp] theorem State.stallTick_strms (s : State) : s.stallTick.strms = s.strms := rfl
@[simp] theorem State.stallTick_pair (s : State) : s.stallTick.pair = s.pair := rfl
@[simp] theorem State.stallTick_clusters (s : State) : s.stallTick.clusters = s.clusters := rfl
@[simp] theorem State.stallTick_scripts (s : State) : s.stallTick.scripts = s.scripts := rfl
@[simp] theorem State.stallTick_nextOp (s : State) : s.stallTick.nextOp = s.nextOp := rfl
@[simp] theorem State.stallTick_slots (s : State) : s.stallTick.slots = s.slots := rfl
@[simp] theorem State.stallTick_bindings (s : State) : s.stallTick.bindings = s.bindings := rfl
@[simp] theorem State.stallTick_cueNames (s : State) : s.stallTick.cueNames = s.cueNames := rfl
@[simp] theorem State.stallTick_direct (s : State) : s.stallTick.direct = s.direct := rfl
@[simp] theorem State.stallTick_host (s : State) : s.stallTick.host = s.host := rfl
@[simp] theorem State.stallTick_mem (s : State) : s.stallTick.mem = s.mem := rfl
@[simp] theorem State.stallTick_link (s : State) : s.stallTick.link = s.link := rfl
@[simp] theorem State.stallTick_net (s : State) : s.stallTick.net = s.net := rfl
@[simp] theorem State.stallTick_time (s : State) : s.stallTick.time = s.time := rfl
@[simp] theorem State.stallTick_ras (s : State) : s.stallTick.ras = s.ras := rfl
@[simp] theorem State.stallTick_mgmt (s : State) : s.stallTick.mgmt = s.mgmt := rfl
@[simp] theorem State.stallTick_out (s : State) : s.stallTick.out = s.out := rfl
@[simp] theorem State.stallTick_freeCtr (s : State) : s.stallTick.freeCtr = s.freeCtr := rfl

end Sys2Proof.Machine
end

