-- ==== Sys2Proof/Laws/Issue.lean ====
section
/-! SUPPORT. What the issue of one instruction can do, and what `issued` leaves. -/
namespace Sys2Proof.Machine

/-- A part in service does what the command says. -/
theorem State.whenServing_on (s : State) (f : State → State) (h : s.serving = true) : s.whenServing f = f s := by
  simp [State.whenServing, h]

theorem State.whenServing_off (s : State) (f : State → State) (h : s.serving = false) : s.whenServing f = s := by
  simp [State.whenServing, h]

theorem State.whenOpen_on (s : State) (f : State → State) (h : s.barOpen = true) : s.whenOpen f = f s := by
  simp [State.whenOpen, h]

theorem State.whenOpen_off (s : State) (f : State → State) (h : s.barOpen = false) : s.whenOpen f = s := by
  simp [State.whenOpen, h]

/-- An instruction whose guard is true and that waits for no register goes as its own rule says. -/
theorem State.issueWith_on (s : State) (cl : Nat) (i : BWord) (regs : List Nat) (x y : Site → State → State) (f : Site → State → Iss)
    (a : Site) (h : s.issues cl i regs a) : s.issueWith cl i regs x y f = s.settleIssue a (wordsOf i) x y (f a s) := by
  obtain ⟨h1, h2, h3, h4⟩ := h
  simp [State.issueWith, State.whenServing, h1, h2, h3, h4]

/-- An instruction whose guard is false is a no-op. -/
theorem State.issueWith_guard (s : State) (cl : Nat) (i : BWord) (regs : List Nat) (x y : Site → State → State) (f : Site → State → Iss)
    (a : Site) (h1 : s.serving = true) (h2 : s.site? cl = some a) (h3 : (a.k.p i.pg == i.pn) = true) :
    s.issueWith cl i regs x y f = s.issued a (fun k => k.advance (wordsOf i)) := by
  simp [State.issueWith, State.whenServing, h1, h2, h3]

theorem State.issueWith_off (s : State) (cl : Nat) (i : BWord) (regs : List Nat) (x y : Site → State → State) (f : Site → State → Iss)
    (h : s.serving = false) : s.issueWith cl i regs x y f = s := State.whenServing_off s _ h

/-- The first entry that satisfies p, after it has been changed into one that still does. -/
theorem find_modFirst {α : Type} (p : α → Bool) (f : α → α) (l : List α) (hf : ∀ x, p x = true → p (f x) = true) :
    (modFirst p f l).find? p = (l.find? p).map f := by
  induction l with
  | nil => rfl
  | cons x t ih =>
    simp only [modFirst]
    by_cases h : p x = true
    · simp [h, hf x h]
    · simp [h, ih]

/-- An entry found by another test that the change does not touch. -/
theorem find_modFirst_ne {α : Type} (p q : α → Bool) (f : α → α) (l : List α) (h1 : ∀ x, p x = true → q x = false)
    (h2 : ∀ x, p x = true → q (f x) = false) : (modFirst p f l).find? q = l.find? q := by
  induction l with
  | nil => rfl
  | cons x t ih =>
    simp only [modFirst]
    by_cases h : p x = true
    · simp [h, h1 x h, h2 x h]
    · simp only [h, Bool.false_eq_true, if_false, List.find?_cons, ih]

theorem State.ctx_modOn (s : State) (id cl : Nat) (f : ClCtx → ClCtx) :
    (s.modOn id cl f).ctx? id = (s.ctx? id).map (fun c => { c with cls := modFirst (·.cl == cl) f c.cls }) := by
  show (modFirst (fun c : Ctx => c.id == id) (fun c => { c with cls := modFirst (·.cl == cl) f c.cls }) s.ctxs).find? _ = _
  exact find_modFirst (fun c : Ctx => c.id == id) (fun c : Ctx => { c with cls := modFirst (·.cl == cl) f c.cls }) s.ctxs (fun _ h => h)

theorem State.ctx_modOn_ne (s : State) (id cl id' : Nat) (f : ClCtx → ClCtx) (h : id' ≠ id) : (s.modOn id cl f).ctx? id' = s.ctx? id' := by
  unfold State.ctx? State.modOn State.modCtx
  apply find_modFirst_ne
  · intro x hx; simp only [beq_iff_eq, beq_eq_false_iff_ne] at *; omega
  · intro x hx; simp only [beq_iff_eq, beq_eq_false_iff_ne] at *; omega

theorem State.onCl_modOn (s : State) (id cl : Nat) (f : ClCtx → ClCtx) (hf : ∀ k, (f k).cl = k.cl) :
    (s.modOn id cl f).onCl id cl = (s.onCl id cl).map f := by
  unfold State.onCl
  rw [State.ctx_modOn]
  cases s.ctx? id with
  | none => rfl
  | some c => exact find_modFirst (fun k => k.cl == cl) f c.cls (fun k hk => by simpa [hf] using hk)

theorem State.onCl_modOn_ne (s : State) (id cl id' cl' : Nat) (f : ClCtx → ClCtx) (hf : ∀ k, (f k).cl = k.cl) (h : ¬(id' = id ∧ cl' = cl)) :
    (s.modOn id cl f).onCl id' cl' = s.onCl id' cl' := by
  unfold State.onCl
  by_cases hi : id' = id
  · subst hi
    rw [State.ctx_modOn]
    cases s.ctx? id' with
    | none => rfl
    | some c =>
      have hc : cl' ≠ cl := fun e => h ⟨rfl, e⟩
      show List.find? _ (modFirst _ f c.cls) = List.find? _ c.cls
      apply find_modFirst_ne
      · intro k hk; simp only [beq_iff_eq, beq_eq_false_iff_ne] at *; omega
      · intro k hk; simp only [beq_iff_eq, beq_eq_false_iff_ne, hf] at *; omega
  · rw [State.ctx_modOn_ne s id cl id' f hi]

theorem State.sansCls_modOn (s : State) (id cl id' : Nat) (f : ClCtx → ClCtx) :
    ((s.modOn id cl f).ctx? id').map Ctx.sansCls = (s.ctx? id').map Ctx.sansCls := by
  by_cases hi : id' = id
  · subst hi
    rw [State.ctx_modOn]
    cases s.ctx? id' with
    | none => rfl
    | some c => rfl
  · rw [State.ctx_modOn_ne s id cl id' f hi]

/-- The site that issues is the context's share. -/
theorem State.onCl_site (s : State) (cl : Nat) (a : Site) (h : s.site? cl = some a) : s.onCl a.c.id a.k.cl = some a.k := by
  unfold State.site? at h
  split at h
  · cases h
  · next u _ =>
    split at h
    · cases hc : s.ctx? u.ctx with
      | none => simp [hc] at h
      | some c =>
        cases hk : c.on? cl with
        | none => simp [hc, hk] at h
        | some k =>
          simp only [hc, hk, Option.bind_some] at h
          split at h
          · cases h
            have h1 : c.id = u.ctx := by
              have := List.find?_some hc
              simpa using this
            have h2 : k.cl = cl := by
              have := List.find?_some hk
              simpa using this
            simp only [State.onCl, h1, h2, hc, Option.bind_some, hk]
          · cases h
    · cases h

/-- The cluster of the site that issues. -/
theorem State.site_cl (s : State) (cl : Nat) (a : Site) (h : s.site? cl = some a) : a.k.cl = cl := by
  unfold State.site? at h
  split at h
  · cases h
  · next u _ =>
    split at h
    · cases hc : s.ctx? u.ctx with
      | none => simp [hc] at h
      | some c =>
        cases hk : c.on? cl with
        | none => simp [hc, hk] at h
        | some k =>
          simp only [hc, hk, Option.bind_some] at h
          split at h
          · cases h
            simpa using List.find?_some hk
          · cases h
    · cases h

theorem ClCtx.advance_cl (k : ClCtx) (n : Nat) : (k.advance n).cl = k.cl := by
  unfold ClCtx.advance
  split
  · rfl
  · split
    · split <;> rfl
    · rfl

theorem ClCtx.advance_wait (k : ClCtx) (n : Nat) : ({ k with wait := none } : ClCtx).advance n = { k.advance n with wait := none } := by
  unfold ClCtx.advance
  cases k.loops with
  | nil => rfl
  | cons l rest => simp only []; split <;> (try split) <;> rfl

/-- A change of the issuing share that counts one issued instruction retires it. -/
theorem State.issued_retired (s : State) (cl : Nat) (a : Site) (h : s.site? cl = some a) (f : ClCtx → ClCtx) (hf : ∀ k, (f k).cl = k.cl) :
    s.Retired (s.issued a f) a (f { a.k with wait := none }) := by
  have h0 := State.onCl_site s cl a h
  have h1 : (s.count (Reg.CL_ISSUED a.k.cl) 1).onCl a.c.id a.k.cl = some a.k := h0
  refine ⟨rfl, ?_, ?_, ?_⟩
  · rw [State.issued, State.onCl_modOn _ _ _ _ (fun k => by simpa using hf { k with wait := none }), h1]; rfl
  · intro id
    exact State.sansCls_modOn (s.count (Reg.CL_ISSUED a.k.cl) 1) a.c.id a.k.cl id _
  · intro id cl' h'
    rw [State.issued, State.onCl_modOn_ne _ _ _ _ _ _ (fun k => by simpa using hf { k with wait := none }) h']
    rfl

/-- The same after a change of the share's own registers. -/
theorem State.set_issued_retired (s : State) (cl : Nat) (a : Site) (h : s.site? cl = some a) (g f : ClCtx → ClCtx)
    (hg : ∀ k, (g k).cl = k.cl) (hf : ∀ k, (f k).cl = k.cl) : s.Retired ((a.set s g).issued a f) a (f { g a.k with wait := none }) := by
  have h0 := State.onCl_site s cl a h
  have h2 : ((a.set s g).count (Reg.CL_ISSUED a.k.cl) 1).onCl a.c.id a.k.cl = some (g a.k) := by
    show (s.modOn a.c.id a.k.cl g).onCl a.c.id a.k.cl = _
    rw [State.onCl_modOn _ _ _ _ hg, h0]; rfl
  refine ⟨rfl, ?_, ?_, ?_⟩
  · rw [State.issued, State.onCl_modOn _ _ _ _ (fun k => by simpa using hf { k with wait := none }), h2]; rfl
  · intro id
    refine (State.sansCls_modOn ((a.set s g).count (Reg.CL_ISSUED a.k.cl) 1) a.c.id a.k.cl id _).trans ?_
    exact State.sansCls_modOn s a.c.id a.k.cl id g
  · intro id cl' h'
    rw [State.issued, State.onCl_modOn_ne _ _ _ _ _ _ (fun k => by simpa using hf { k with wait := none }) h']
    exact State.onCl_modOn_ne s a.c.id a.k.cl id cl' g hg h'

/-- An instruction that changes only its own share's registers. -/
theorem State.regs_retired (s : State) (cl : Nat) (i : BWord) (regs : List Nat) (x y : Site → State → State) (a : Site) (g : ClCtx → ClCtx)
    (hg : ∀ k, (g k).cl = k.cl) (h : s.issues cl i regs a) :
    s.Retired (s.settleIssue a (wordsOf i) x y (a.regs s g)) a ((g a.k).past i) := by
  have h3 := State.set_issued_retired s cl a h.2.1 g (fun k => k.advance (wordsOf i)) hg (fun k => ClCtx.advance_cl k _)
  rw [ClCtx.advance_wait] at h3
  exact h3

end Sys2Proof.Machine
end

