-- ==== Sys2Proof/Laws/PerInstr.lean ====
section
/-! SUPPORT. The family F: what every command says of the instruction word that it issues, as syntax. -/
namespace Sys2Proof.Laws.F

/-- A well-formed command that issues a Bassaso word issues it at a cluster of the part, and the fields of the word fit their widths
(R18, R355). -/
def Statement (i : Instr) : Prop := i.wf = true → ∀ cl w, i.word = some (cl, w) → cl < 128 ∧ w.wf = true

theorem of_none (i : Instr) (h : i.word = none) : Statement i := by
  intro _ cl w e
  rw [h] at e
  cases e

theorem of_word (i : Instr) (c : Nat) (w : BWord) (hw : i.word = some (c, w)) (h : i.wf = true → below c 128 = true ∧ w.wf = true) : Statement i := by
  intro k cl v e
  rw [hw] at e
  cases e
  exact ⟨of_decide_eq_true (h k).1, (h k).2⟩

theorem registerWrite (a : Access) : Statement (.registerWrite a) := of_none _ rfl
theorem refusedAccess (write : Bool) (a : Access) : Statement (.refusedAccess write a) := of_none _ rfl
theorem edgeFailed (edge : Nat) : Statement (.edgeFailed edge) := of_none _ rfl
theorem parityFailure (packet : Nat) : Statement (.parityFailure packet) := of_none _ rfl
theorem tblHeapWrite (v : BitVec 32) : Statement (.tblHeapWrite v) := of_none _ rfl
theorem tblCreate (slot : Nat) (answers : List (Nat × Option (BitVec 32 × Bool))) : Statement (.tblCreate slot answers) := of_none _ rfl
theorem tblLoad (slot : Nat) (allow : Bool) : Statement (.tblLoad slot allow) := of_none _ rfl
theorem tblCommit (slot : Nat) : Statement (.tblCommit slot) := of_none _ rfl
theorem tblDrop (slot : Nat) : Statement (.tblDrop slot) := of_none _ rfl
theorem commitInstantReached (cid : Nat) : Statement (.commitInstantReached cid) := of_none _ rfl
theorem commitComplete (cid : Nat) : Statement (.commitComplete cid) := of_none _ rfl
theorem versionFreed (handle ver : Nat) : Statement (.versionFreed handle ver) := of_none _ rfl
theorem work (h : WriteHdr) (m : WorkMsg) : Statement (.work h m) := of_none _ rfl
theorem gather (cl : Nat) (w : LookupWord) : Statement (.gather cl w) := of_word _ cl w.word rfl (fun h => (Bool.and_eq_true _ _).mp h)
theorem pool (cl : Nat) (w : LookupWord) : Statement (.pool cl w) := of_word _ cl w.word rfl (fun h => (Bool.and_eq_true _ _).mp h)
theorem poolReq (die : Nat) (p : ReqIn) : Statement (.poolReq die p) := of_none _ rfl
theorem granuleIn (die rid granule : Nat) (health : HbmHealth) : Statement (.granuleIn die rid granule health) := of_none _ rfl
theorem sketchDecay (die : Nat) : Statement (.sketchDecay die) := of_none _ rfl
theorem partialIn (die : Nat) (p : PartialPkt) : Statement (.partialIn die p) := of_none _ rfl
theorem combinePartial (inPort dl : Nat) (p : PartialPkt) : Statement (.combinePartial inPort dl p) := of_none _ rfl
theorem combineWindowExpires (iod : Nat) (idx : Nat) : Statement (.combineWindowExpires iod idx) := of_none _ rfl
theorem poolTimeout (die : Nat) (op : OpIn) : Statement (.poolTimeout die op) := of_none _ rfl
theorem cancelAtGpe (die ctx : Nat) : Statement (.cancelAtGpe die ctx) := of_none _ rfl
theorem abandonedOpNumberFreed (die op : Nat) : Statement (.abandonedOpNumberFreed die op) := of_none _ rfl
theorem wingsEnable (die : Nat) (v : BitVec 32) : Statement (.wingsEnable die v) := of_none _ rfl
theorem invalidateAll (die : Nat) (v : BitVec 32) : Statement (.invalidateAll die v) := of_none _ rfl
theorem wingsStopped (die : Nat) : Statement (.wingsStopped die) := of_none _ rfl
theorem wingsStarted (die : Nat) : Statement (.wingsStarted die) := of_none _ rfl
theorem invalidateSweepEnds (die : Nat) : Statement (.invalidateSweepEnds die) := of_none _ rfl
theorem plcDomCfgWrite (a : Access) : Statement (.plcDomCfgWrite a) := of_none _ rfl
theorem plcDomMembersWrite (a : Access) : Statement (.plcDomMembersWrite a) := of_none _ rfl
theorem hotPeriod (reports : List (Nat × List HeatRow × List DieLoad)) : Statement (.hotPeriod reports) := of_none _ rfl
theorem replicaCopyConfirmed (handle row : Nat) : Statement (.replicaCopyConfirmed handle row) := of_none _ rfl
theorem replicaReserveLowered (v : BitVec 32) : Statement (.replicaReserveLowered v) := of_none _ rfl
theorem balanceCheck (slot : Nat) (loads : List DieLoad) (buckets : List (Nat × Nat)) : Statement (.balanceCheck slot loads buckets) := of_none _ rfl
theorem copyConfirmed (u : MigUnit) : Statement (.copyConfirmed u) := of_none _ rfl
theorem flip (u : MigUnit) : Statement (.flip u) := of_none _ rfl
theorem holdTimerExpires (u : MigUnit) : Statement (.holdTimerExpires u) := of_none _ rfl
theorem flipAcknowledged (u : MigUnit) : Statement (.flipAcknowledged u) := of_none _ rfl
theorem epochAdvance (slot : Nat) : Statement (.epochAdvance slot) := of_none _ rfl
theorem lowWaterReport (slot loc epoch : Nat) : Statement (.lowWaterReport slot loc epoch) := of_none _ rfl
theorem remirrorRetry (slot : Nat) (loads : List DieLoad) : Statement (.remirrorRetry slot loads) := of_none _ rfl
theorem rejoin (slot : Nat) (m : Joining) : Statement (.rejoin slot m) := of_none _ rfl
theorem placeLaunch (ctx : Nat) : Statement (.placeLaunch ctx) := of_none _ rfl
theorem pinReplicate (v : BitVec 32) : Statement (.pinReplicate v) := of_none _ rfl
theorem pinHold (v : BitVec 32) : Statement (.pinHold v) := of_none _ rfl
theorem unpin (v : BitVec 32) : Statement (.unpin v) := of_none _ rfl
theorem pinComplete : Statement .pinComplete := of_none _ rfl
theorem data (f : FeedFrame) : Statement (.data f) := of_none _ rfl
theorem resync (f : FeedFrame) : Statement (.resync f) := of_none _ rfl
theorem recordIngested (port : Nat) : Statement (.recordIngested port) := of_none _ rfl
theorem xoffRepeat (port : Nat) : Statement (.xoffRepeat port) := of_none _ rfl
theorem gapDeclaredLost (idx : Nat) : Statement (.gapDeclaredLost idx) := of_none _ rfl
theorem sendAck (idx : Nat) : Statement (.sendAck idx) := of_none _ rfl
theorem sendNack (idx : Nat) : Statement (.sendNack idx) := of_none _ rfl
theorem deltaApply (h : WriteHdr) (r : DeltaRec) (fails : UpdFails) : Statement (.deltaApply h r fails) := of_none _ rfl
theorem deltaForward (h : WriteHdr) (f : RowForward) : Statement (.deltaForward h f) := of_none _ rfl
theorem ack (src tag gen result : Nat) : Statement (.ack src tag gen result) := of_none _ rfl
theorem markComplete (idx : Nat) : Statement (.markComplete idx) := of_none _ rfl
theorem twinRecord (h : WriteHdr) (first : Bool) (r : DeltaRec) : Statement (.twinRecord h first r) := of_none _ rfl
theorem pairLinkLost (idx : Nat) : Statement (.pairLinkLost idx) := of_none _ rfl
theorem pairReqGo (v : BitVec 32) : Statement (.pairReqGo v) := of_none _ rfl
theorem ticketProposal (h : WriteHdr) (number : Nat) (at_ : Word) : Statement (.ticketProposal h number at_) := of_none _ rfl
theorem ticketAccepted (number : Nat) : Statement (.ticketAccepted number) := of_none _ rfl
theorem ticketTimeout : Statement .ticketTimeout := of_none _ rfl
theorem ticketExpired : Statement .ticketExpired := of_none _ rfl
theorem pairReport (h : WriteHdr) (tables : List (Nat × Nat)) (status : Nat) (finish : Word) : Statement (.pairReport h tables status finish) := of_none _ rfl
theorem pairReportTimeout : Statement .pairReportTimeout := of_none _ rfl
theorem feedEn (v : BitVec 32) : Statement (.feedEn v) := of_none _ rfl
theorem feedStopped (port : Nat) : Statement (.feedStopped port) := of_none _ rfl
theorem feedStarted (port : Nat) : Statement (.feedStarted port) := of_none _ rfl
theorem feedSkidWrite (a : Access) : Statement (.feedSkidWrite a) := of_none _ rfl
theorem feedStrmCfgWrite (a : Access) : Statement (.feedStrmCfgWrite a) := of_none _ rfl
theorem qdelayRead (port : Nat) : Statement (.qdelayRead port) := of_none _ rfl
theorem rowsPacket (h : WriteHdr) (kind : RowsKind) (handle ver : Nat) (rows : List RowImage) : Statement (.rowsPacket h kind handle ver rows) := of_none _ rfl
theorem chorusWrite (h : WriteHdr) (m : ChorusMsg) : Statement (.chorusWrite h m) := of_none _ rfl
theorem rows (cl : Nat) (i : BWord) : Statement (.rows cl i) := of_word _ cl i rfl (fun h => (Bool.and_eq_true _ _).mp h)
theorem mma (cl : Nat) (i : BWord) : Statement (.mma cl i) := of_word _ cl i rfl (fun h => (Bool.and_eq_true _ _).mp h)
theorem conv1 (cl : Nat) (i : BWord) : Statement (.conv1 cl i) := of_word _ cl i rfl (fun h => (Bool.and_eq_true _ _).mp h)
theorem ewa (cl : Nat) (i : BWord) : Statement (.ewa cl i) := of_word _ cl i rfl (fun h => (Bool.and_eq_true _ _).mp h)
theorem drain (cl : Nat) (i : BWord) : Statement (.drain cl i) := of_word _ cl i rfl (fun h => (Bool.and_eq_true _ _).mp h)
theorem residueCheckFails (cl array ctx opId : Nat) (r : Replay) (c : CheckNo) : Statement (.residueCheckFails cl array ctx opId r c) := of_none _ rfl
theorem vchain (cl : Nat) (i : BWord) : Statement (.vchain cl i) := of_word _ cl i rfl (fun h => (Bool.and_eq_true _ _).mp h)
theorem vred (cl : Nat) (i : BWord) : Statement (.vred cl i) := of_word _ cl i rfl (fun h => (Bool.and_eq_true _ _).mp h)
theorem vcvt (cl : Nat) (i : BWord) : Statement (.vcvt cl i) := of_word _ cl i rfl (fun h => (Bool.and_eq_true _ _).mp h)
theorem sfn (cl : Nat) (i : BWord) : Statement (.sfn cl i) := of_word _ cl i rfl (fun h => (Bool.and_eq_true _ _).mp h)
theorem smaxM (cl : Nat) (i : BWord) : Statement (.smaxM cl i) := of_word _ cl i rfl (fun h => (Bool.and_eq_true _ _).mp h)
theorem smaxE (cl : Nat) (i : BWord) : Statement (.smaxE cl i) := of_word _ cl i rfl (fun h => (Bool.and_eq_true _ _).mp h)
theorem smaxD (cl : Nat) (i : BWord) : Statement (.smaxD cl i) := of_word _ cl i rfl (fun h => (Bool.and_eq_true _ _).mp h)
theorem normS (cl : Nat) (i : BWord) : Statement (.normS cl i) := of_word _ cl i rfl (fun h => (Bool.and_eq_true _ _).mp h)
theorem normF (cl : Nat) (i : BWord) : Statement (.normF cl i) := of_word _ cl i rfl (fun h => (Bool.and_eq_true _ _).mp h)
theorem vectorCheckFails (cl : Nat) (sfu : Bool) (ctx opId : Nat) (passed : Bool) (c : CheckNo) : Statement (.vectorCheckFails cl sfu ctx opId passed c) := of_none _ rfl
theorem transferCheckFails (cl ctx opId : Nat) (passed : Bool) (c : CheckNo) : Statement (.transferCheckFails cl ctx opId passed c) := of_none _ rfl
theorem gpeCheckFails (die src ctx op bag : Nat) (again : Bool) (c : CheckNo) : Statement (.gpeCheckFails die src ctx op bag again c) := of_none _ rfl
theorem engineInstructionEnds (cl ctx opId : Nat) : Statement (.engineInstructionEnds cl ctx opId) := of_none _ rfl
theorem add (cl : Nat) (i : BWord) : Statement (.add cl i) := of_word _ cl i rfl (fun h => (Bool.and_eq_true _ _).mp h)
theorem sub (cl : Nat) (i : BWord) : Statement (.sub cl i) := of_word _ cl i rfl (fun h => (Bool.and_eq_true _ _).mp h)
theorem mul (cl : Nat) (i : BWord) : Statement (.mul cl i) := of_word _ cl i rfl (fun h => (Bool.and_eq_true _ _).mp h)
theorem and (cl : Nat) (i : BWord) : Statement (.and cl i) := of_word _ cl i rfl (fun h => (Bool.and_eq_true _ _).mp h)
theorem or (cl : Nat) (i : BWord) : Statement (.or cl i) := of_word _ cl i rfl (fun h => (Bool.and_eq_true _ _).mp h)
theorem xor (cl : Nat) (i : BWord) : Statement (.xor cl i) := of_word _ cl i rfl (fun h => (Bool.and_eq_true _ _).mp h)
theorem shl (cl : Nat) (i : BWord) : Statement (.shl cl i) := of_word _ cl i rfl (fun h => (Bool.and_eq_true _ _).mp h)
theorem shr (cl : Nat) (i : BWord) : Statement (.shr cl i) := of_word _ cl i rfl (fun h => (Bool.and_eq_true _ _).mp h)
theorem cmp (cl : Nat) (i : BWord) : Statement (.cmp cl i) := of_word _ cl i rfl (fun h => (Bool.and_eq_true _ _).mp h)
theorem sel (cl : Nat) (i : BWord) : Statement (.sel cl i) := of_word _ cl i rfl (fun h => (Bool.and_eq_true _ _).mp h)
theorem li (cl : Nat) (i : BWord) : Statement (.li cl i) := of_word _ cl i rfl (fun h => (Bool.and_eq_true _ _).mp h)
theorem ld (cl : Nat) (i : BWord) (ecc : GranuleHealth) : Statement (.ld cl i ecc) := of_word _ cl i rfl (fun h => (Bool.and_eq_true _ _).mp h)
theorem st (cl : Nat) (i : BWord) : Statement (.st cl i) := of_word _ cl i rfl (fun h => (Bool.and_eq_true _ _).mp h)
theorem br (cl : Nat) (i : BWord) : Statement (.br cl i) := of_word _ cl i rfl (fun h => (Bool.and_eq_true _ _).mp h)
theorem brc (cl : Nat) (i : BWord) : Statement (.brc cl i) := of_word _ cl i rfl (fun h => (Bool.and_eq_true _ _).mp h)
theorem call (cl : Nat) (i : BWord) : Statement (.call cl i) := of_word _ cl i rfl (fun h => (Bool.and_eq_true _ _).mp h)
theorem ret (cl : Nat) (i : BWord) : Statement (.ret cl i) := of_word _ cl i rfl (fun h => (Bool.and_eq_true _ _).mp h)
theorem loop (cl : Nat) (i : BWord) : Statement (.loop cl i) := of_word _ cl i rfl (fun h => (Bool.and_eq_true _ _).mp h)
theorem tdef (cl : Nat) (i : BWord) : Statement (.tdef cl i) := of_word _ cl i rfl (fun h => (Bool.and_eq_true _ _).mp h)
theorem tset (cl : Nat) (i : BWord) : Statement (.tset cl i) := of_word _ cl i rfl (fun h => (Bool.and_eq_true _ _).mp h)
theorem tadv (cl : Nat) (i : BWord) : Statement (.tadv cl i) := of_word _ cl i rfl (fun h => (Bool.and_eq_true _ _).mp h)
theorem tbind (cl : Nat) (i : BWord) : Statement (.tbind cl i) := of_word _ cl i rfl (fun h => (Bool.and_eq_true _ _).mp h)
theorem move (cl : Nat) (i : BWord) : Statement (.move cl i) := of_word _ cl i rfl (fun h => (Bool.and_eq_true _ _).mp h)
theorem transferRunComplete (opId : Nat) (data : Bytes) : Statement (.transferRunComplete opId data) := of_none _ rfl
theorem chorus (cl : Nat) (i : BWord) : Statement (.chorus cl i) := of_word _ cl i rfl (fun h => (Bool.and_eq_true _ _).mp h)
theorem atom (cl : Nat) (i : BWord) : Statement (.atom cl i) := of_word _ cl i rfl (fun h => (Bool.and_eq_true _ _).mp h)
theorem racq (cl : Nat) (i : BWord) : Statement (.racq cl i) := of_word _ cl i rfl (fun h => (Bool.and_eq_true _ _).mp h)
theorem rpub (cl : Nat) (i : BWord) : Statement (.rpub cl i) := of_word _ cl i rfl (fun h => (Bool.and_eq_true _ _).mp h)
theorem rrel (cl : Nat) (i : BWord) : Statement (.rrel cl i) := of_word _ cl i rfl (fun h => (Bool.and_eq_true _ _).mp h)
theorem curtain (cl : Nat) (i : BWord) : Statement (.curtain cl i) := of_word _ cl i rfl (fun h => (Bool.and_eq_true _ _).mp h)
theorem waitt (cl : Nat) (i : BWord) : Statement (.waitt cl i) := of_word _ cl i rfl (fun h => (Bool.and_eq_true _ _).mp h)
theorem dlchk (cl : Nat) (i : BWord) : Statement (.dlchk cl i) := of_word _ cl i rfl (fun h => (Bool.and_eq_true _ _).mp h)
theorem slotDue (ctx ring : Nat) : Statement (.slotDue ctx ring) := of_none _ rfl
theorem stallDeclared (ctx : Nat) : Statement (.stallDeclared ctx) := of_none _ rfl
theorem safe (cl : Nat) (i : BWord) : Statement (.safe cl i) := of_word _ cl i rfl (fun h => (Bool.and_eq_true _ _).mp h)
theorem yield (cl : Nat) (i : BWord) : Statement (.yield cl i) := of_word _ cl i rfl (fun h => (Bool.and_eq_true _ _).mp h)
theorem fence (cl : Nat) (i : BWord) : Statement (.fence cl i) := of_word _ cl i rfl (fun h => (Bool.and_eq_true _ _).mp h)
theorem trap (cl : Nat) (i : BWord) : Statement (.trap cl i) := of_word _ cl i rfl (fun h => (Bool.and_eq_true _ _).mp h)
theorem exit (cl : Nat) (i : BWord) : Statement (.exit cl i) := of_word _ cl i rfl (fun h => (Bool.and_eq_true _ _).mp h)
theorem cancel (ctx cl : Nat) : Statement (.cancel ctx cl) := of_none _ rfl
theorem icacheMissFill (f : FetchIn) : Statement (.icacheMissFill f) := of_none _ rfl
theorem scratchApertureAccess (write : Bool) (a : Access) (ecc : GranuleHealth) : Statement (.scratchApertureAccess write a ecc) := of_none _ rfl
theorem chorusWindowWrite (a : Access) : Statement (.chorusWindowWrite a) := of_none _ rfl
theorem groupWindowWrite (a : Access) : Statement (.groupWindowWrite a) := of_none _ rfl
theorem queueEnWritten (k : Nat) (v : BitVec 32) : Statement (.queueEnWritten k v) := of_none _ rfl
theorem queueStarted (k : Nat) : Statement (.queueStarted k) := of_none _ rfl
theorem queueConfigWrite (a : Access) : Statement (.queueConfigWrite a) := of_none _ rfl
theorem sqDb (k : Nat) (v : BitVec 32) : Statement (.sqDb k v) := of_none _ rfl
theorem cqDb (k : Nat) (v : BitVec 32) : Statement (.cqDb k v) := of_none _ rfl
theorem doorbellAccessDropped (k : Nat) (write : Bool) (a : Access) : Statement (.doorbellAccessDropped k write a) := of_none _ rfl
theorem entryFetched (k : Nat) (entry : Bytes) (ecc : FetchEcc) : Statement (.entryFetched k entry ecc) := of_none _ rfl
theorem entryReread (k : Nat) (entry : Bytes) : Statement (.entryReread k entry) := of_none _ rfl
theorem launch (k : Nat) (args segs : Bytes) : Statement (.launch k args segs) := of_none _ rfl
theorem launchStarts (ctx : Nat) : Statement (.launchStarts ctx) := of_none _ rfl
theorem segmentDelivered (ctx seg : Nat) (bytes : Bytes) : Statement (.segmentDelivered ctx seg bytes) := of_none _ rfl
theorem copy (k : Nat) : Statement (.copy k) := of_none _ rfl
theorem queueFence (k : Nat) : Statement (.queueFence k) := of_none _ rfl
theorem query (k : Nat) : Statement (.query k) := of_none _ rfl
theorem nop (k : Nat) : Statement (.nop k) := of_none _ rfl
theorem unassignedOpcode (k : Nat) : Statement (.unassignedOpcode k) := of_none _ rfl
theorem scriptLoad (k : Nat) : Statement (.scriptLoad k) := of_none _ rfl
theorem scriptPatch (k : Nat) : Statement (.scriptPatch k) := of_none _ rfl
theorem scriptDrop (k : Nat) : Statement (.scriptDrop k) := of_none _ rfl
theorem completionRecord (k n : Nat) : Statement (.completionRecord k n) := of_none _ rfl
theorem intmodTimer (k : Nat) : Statement (.intmodTimer k) := of_none _ rfl
theorem cueRequest (f : CueFrame) : Statement (.cueRequest f) := of_none _ rfl
theorem reassemblyTimeout (ctx : Nat) : Statement (.reassemblyTimeout ctx) := of_none _ rfl
theorem messageNameExpires (src srcPort msgid : Nat) : Statement (.messageNameExpires src srcPort msgid) := of_none _ rfl
theorem cueReply (ctx : Nat) : Statement (.cueReply ctx) := of_none _ rfl
theorem cueBindWrite (a : Access) : Statement (.cueBindWrite a) := of_none _ rfl
theorem deadlineReached (ctx : Nat) : Statement (.deadlineReached ctx) := of_none _ rfl
theorem understudyStart (ctx : Nat) : Statement (.understudyStart ctx) := of_none _ rfl
theorem destroyRecord (k : Nat) : Statement (.destroyRecord k) := of_none _ rfl
theorem hostLinkUp (p width rate : Nat) (cache mem : Bool) : Statement (.hostLinkUp p width rate cache mem) := of_none _ rfl
theorem hostLinkDown (p : Nat) : Statement (.hostLinkDown p) := of_none _ rfl
theorem hdmDecoderCommit (p base : Nat) : Statement (.hdmDecoderCommit p base) := of_none _ rfl
theorem hstHdmWrite (v : BitVec 32) : Statement (.hstHdmWrite v) := of_none _ rfl
theorem atsCompletion (x : Nat) (r : AtsResult) : Statement (.atsCompletion x r) := of_none _ rfl
theorem atsTimeout (x : Nat) : Statement (.atsTimeout x) := of_none _ rfl
theorem pageRequestResponse (g : Nat) (r : PriResult) : Statement (.pageRequestResponse g r) := of_none _ rfl
theorem priTimeout (g : Nat) : Statement (.priTimeout g) := of_none _ rfl
theorem invalidateRequest (p itag pasid page log2 : Nat) (global : Bool) : Statement (.invalidateRequest p itag pasid page log2 global) := of_none _ rfl
theorem invalidateCompletion (p itag : Nat) : Statement (.invalidateCompletion p itag) := of_none _ rfl
theorem hostSnoop (line : Nat) : Statement (.hostSnoop line) := of_none _ rfl
theorem cxlMemAccess (write : Bool) (addr : Nat) (bytes : Bytes) (poison keeps : Bool) : Statement (.cxlMemAccess write addr bytes poison keeps) := of_none _ rfl
theorem bisnpComplete (line : Nat) (dirty : Option Bytes) : Statement (.bisnpComplete line dirty) := of_none _ rfl
theorem patrolScrub (k granule : Nat) (h : HbmHealth) : Statement (.patrolScrub k granule h) := of_none _ rfl
theorem stackFailed (k : Nat) : Statement (.stackFailed k) := of_none _ rfl
theorem portTrained (n lanes : Nat) : Statement (.portTrained n lanes) := of_none _ rfl
theorem ident (n node port map : Nat) : Statement (.ident n node port map) := of_none _ rfl
theorem flit (n : Nat) (f : Flit) : Statement (.flit n f) := of_none _ rfl
theorem retryReq (n lseq : Nat) : Statement (.retryReq n lseq) := of_none _ rfl
theorem retryBudgetExhausted (n : Nat) : Statement (.retryBudgetExhausted n) := of_none _ rfl
theorem forward (inPort : Option Nat) (p : Packet) : Statement (.forward inPort p) := of_none _ rfl
theorem e2eTimeout (dst tag : Nat) : Statement (.e2eTimeout dst tag) := of_none _ rfl
theorem lnkNodeWrite (v : BitVec 32) : Statement (.lnkNodeWrite v) := of_none _ rfl
theorem lnkTopoWrite (v : BitVec 32) : Statement (.lnkTopoWrite v) := of_none _ rfl
theorem eEn (v : BitVec 32) : Statement (.eEn v) := of_none _ rfl
theorem oEn (v : BitVec 32) : Statement (.oEn v) := of_none _ rfl
theorem twinEn (v : BitVec 32) : Statement (.twinEn v) := of_none _ rfl
theorem npFrame (p : Nat) (tag : Option Nat) (len : Nat) (fcsOk : Bool) (query : Bool) (target : Nat) (v6 : Bool) : Statement (.npFrame p tag len fcsOk query target v6) := of_none _ rfl
theorem pfcFrameReceived (p : Nat) (prios : BitVec 8) (quanta : List Nat) : Statement (.pfcFrameReceived p prios quanta) := of_none _ rfl
theorem npLinkDown (p : Nat) : Statement (.npLinkDown p) := of_none _ rfl
theorem roceValidWrite (a : Access) : Statement (.roceValidWrite a) := of_none _ rfl
theorem roceReadResponse (c : Nat) (psn : Nat) (rows : List RowImage) : Statement (.roceReadResponse c psn rows) := of_none _ rfl
theorem roceAckTimeout (c : Nat) : Statement (.roceAckTimeout c) := of_none _ rfl
theorem roceNak (c : Nat) : Statement (.roceNak c) := of_none _ rfl
theorem congestionNotification (c : Nat) : Statement (.congestionNotification c) := of_none _ rfl
theorem roceRateRecovery (c : Nat) : Statement (.roceRateRecovery c) := of_none _ rfl
theorem marker (periods : Nat) : Statement (.marker periods) := of_none _ rfl
theorem refclkLost : Statement .refclkLost := of_none _ rfl
theorem timeUpdate (src marker : Nat) (gtime inc : Word) (state : Nat) : Statement (.timeUpdate src marker gtime inc state) := of_none _ rfl
theorem updateRequest : Statement .updateRequest := of_none _ rfl
theorem standbyTakeover (candidates : List Nat) : Statement (.standbyTakeover candidates) := of_none _ rfl
theorem ptpMessage (p : Nat) (sync : Bool) (t : Option PtpTimes) : Statement (.ptpMessage p sync t) := of_none _ rfl
theorem holdover : Statement .holdover := of_none _ rfl
theorem selfTestInterval (unit : Nat) (passed : Bool) : Statement (.selfTestInterval unit passed) := of_none _ rfl
theorem unitFenced (unit : Nat) : Statement (.unitFenced unit) := of_none _ rfl
theorem watchListExpiry (unit : Nat) : Statement (.watchListExpiry unit) := of_none _ rfl
theorem suspect (h : WriteHdr) (node : Nat) (portsFailed : Bool) : Statement (.suspect h node portsFailed) := of_none _ rfl
theorem probe (h : WriteHdr) (node : Nat) : Statement (.probe h node) := of_none _ rfl
theorem probeTimeout (node : Nat) : Statement (.probeTimeout node) := of_none _ rfl
theorem suspectReportTimeout (node : Nat) : Statement (.suspectReportTimeout node) := of_none _ rfl
theorem lost (h : WriteHdr) (node : Nat) : Statement (.lost h node) := of_none _ rfl
theorem watchdogExpired (core : Nat) : Statement (.watchdogExpired core) := of_none _ rfl
theorem logRead (v : LogReadIn) : Statement (.logRead v) := of_none _ rfl
theorem sensorRead (v : BitVec 32) : Statement (.sensorRead v) := of_none _ rfl
theorem otpWrite (v : BitVec 32) (readBack : Bool) : Statement (.otpWrite v readBack) := of_none _ rfl
theorem dump (v : BitVec 32) : Statement (.dump v) := of_none _ rfl
theorem shutdown (v : BitVec 32) : Statement (.shutdown v) := of_none _ rfl
theorem mbFence (v : BitVec 32) : Statement (.mbFence v) := of_none _ rfl
theorem selftest (v : BitVec 32) (passed : Bool) : Statement (.selftest v passed) := of_none _ rfl
theorem mctpControl (pcie : Bool) (code : Nat) (eid : Nat) : Statement (.mctpControl pcie code eid) := of_none _ rfl
theorem pldmSensorRead (pcie : Bool) (sensor : Option Nat) : Statement (.pldmSensorRead pcie sensor) := of_none _ rfl
theorem pldmShutdown (pcie : Bool) : Statement (.pldmShutdown pcie) := of_none _ rfl
theorem pldmReset (pcie : Bool) : Statement (.pldmReset pcie) := of_none _ rfl
theorem requestUpdate (pcie : Bool) : Statement (.requestUpdate pcie) := of_none _ rfl
theorem passComponentTable (pcie : Bool) (comp : Nat) : Statement (.passComponentTable pcie comp) := of_none _ rfl
theorem updateComponent (pcie : Bool) (comp : Nat) : Statement (.updateComponent pcie comp) := of_none _ rfl
theorem firmwareDataReceived (pcie : Bool) (bytes : Bytes) (last : Bool) : Statement (.firmwareDataReceived pcie bytes last) := of_none _ rfl
theorem activateFirmware (pcie : Bool) : Statement (.activateFirmware pcie) := of_none _ rfl
theorem getVersion (pcie : Bool) : Statement (.getVersion pcie) := of_none _ rfl
theorem getCapabilities (pcie : Bool) : Statement (.getCapabilities pcie) := of_none _ rfl
theorem negotiateAlgorithms (pcie : Bool) (offersP256 offersSha256 : Bool) : Statement (.negotiateAlgorithms pcie offersP256 offersSha256) := of_none _ rfl
theorem getDigests (pcie : Bool) : Statement (.getDigests pcie) := of_none _ rfl
theorem getCertificate (pcie : Bool) (slot offset len : Nat) : Statement (.getCertificate pcie slot offset len) := of_none _ rfl
theorem challenge (pcie : Bool) (slot : Nat) (nonce : Bytes) : Statement (.challenge pcie slot nonce) := of_none _ rfl
theorem getMeasurements (pcie : Bool) (index : Nat) (nonce : Bytes) : Statement (.getMeasurements pcie index nonce) := of_none _ rfl
theorem rstNLow : Statement .rstNLow := of_none _ rfl
theorem rstNRises (straps : BitVec 12) (flash : Bytes) (goodFirst goodOther : List Bool) : Statement (.rstNRises straps flash goodFirst goodOther) := of_none _ rfl
theorem ready : Statement .ready := of_none _ rfl
theorem warmReset (v : BitVec 32) : Statement (.warmReset v) := of_none _ rfl
theorem warmResetDone : Statement .warmResetDone := of_none _ rfl
theorem functionLevelReset (p : Nat) (perst : Bool) : Statement (.functionLevelReset p perst) := of_none _ rfl
theorem flrDone : Statement .flrDone := of_none _ rfl
theorem railFault (rail : Nat) : Statement (.railFault rail) := of_none _ rfl
theorem railsFall : Statement .railsFall := of_none _ rfl
theorem sensorUpdate (sensor : Nat) (value : Int) : Statement (.sensorUpdate sensor value) := of_none _ rfl
theorem overTemperature (sensor : Nat) : Statement (.overTemperature sensor) := of_none _ rfl
theorem powerLimit : Statement .powerLimit := of_none _ rfl
theorem throttleN (high : Bool) : Statement (.throttleN high) := of_none _ rfl
theorem throttleShutdown : Statement .throttleShutdown := of_none _ rfl
theorem pasidAtsPriEnable (p : Nat) (pasid ats : Bool) (pri : Option Nat) : Statement (.pasidAtsPriEnable p pasid ats pri) := of_none _ rfl
theorem npLinkUp (p : Nat) : Statement (.npLinkUp p) := of_none _ rfl
theorem roceAcknowledgement (c psn : Nat) : Statement (.roceAcknowledgement c psn) := of_none _ rfl
theorem bulkEngineReadData (slot n : Nat) (data : Bytes) : Statement (.bulkEngineReadData slot n data) := of_none _ rfl
theorem globalPersistentFlush (p : Nat) : Statement (.globalPersistentFlush p) := of_none _ rfl
theorem probeAnswer (h : WriteHdr) (node : Nat) (alive : Bool) : Statement (.probeAnswer h node alive) := of_none _ rfl
theorem setEventReceiver (pcie : Bool) (eid : Nat) : Statement (.setEventReceiver pcie eid) := of_none _ rfl
theorem i3cDynamicAddress (addr : Nat) : Statement (.i3cDynamicAddress addr) := of_none _ rfl

end Sys2Proof.Laws.F
end

