-- ==== Sys2Proof/Laws/Sparse.lean ====
section
/-! SUPPORT. Sparse maps and memories: a read after a write, a write leaves every other place alone, and every memory operation keeps
the canonical form. -/
namespace Sys2Proof.Machine

section
variable {α : Type} [BEq α] [LawfulBEq α] (d : Nat → α)

omit [LawfulBEq α] in
theorem Sparse.get_put_ne (l : List (Nat × α)) (a b : Nat) (v : α) (h : b ≠ a) : Sparse.get d (Sparse.put d l a v) b = Sparse.get d l b := by
  induction l with
  | nil =>
    simp only [Sparse.put]
    split <;> simp [Sparse.get, Ne.symm h]
  | cons e t ih =>
    obtain ⟨k, w⟩ := e
    simp only [Sparse.put]
    split
    · simp only [Sparse.get, ih]
    · split
      · next hk =>
        subst hk
        split <;> simp [Sparse.get, Ne.symm h]
      · split <;> simp [Sparse.get, Ne.symm h]

omit [LawfulBEq α] in
theorem Sparse.wf_mono {lo hi : Nat} (l : List (Nat × α)) (h : hi ≤ lo) (w : Sparse.wf d lo l = true) : Sparse.wf d hi l = true := by
  cases l with
  | nil => rfl
  | cons e t =>
    obtain ⟨k, v⟩ := e
    simp only [Sparse.wf, Bool.and_eq_true, decide_eq_true_eq] at w ⊢
    exact ⟨⟨Nat.le_trans h w.1.1, w.1.2⟩, w.2⟩

omit [LawfulBEq α] in
/-- An address below every listed one reads as unlisted. -/
theorem Sparse.get_low (l : List (Nat × α)) (lo a : Nat) (h : a < lo) (w : Sparse.wf d lo l = true) : Sparse.get d l a = d a := by
  induction l generalizing lo with
  | nil => rfl
  | cons e t ih =>
    obtain ⟨k, v⟩ := e
    simp only [Sparse.wf, Bool.and_eq_true, decide_eq_true_eq] at w
    have hk : k ≠ a := by omega
    simp only [Sparse.get, hk, if_false]
    exact ih (k + 1) (by omega) w.2

theorem Sparse.get_put (l : List (Nat × α)) (lo a : Nat) (v : α) (w : Sparse.wf d lo l = true) : Sparse.get d (Sparse.put d l a v) a = v := by
  induction l generalizing lo with
  | nil =>
    simp only [Sparse.put]
    split
    · next h => simp [Sparse.get, (beq_iff_eq.mp h)]
    · simp [Sparse.get]
  | cons e t ih =>
    obtain ⟨k, x⟩ := e
    simp only [Sparse.wf, Bool.and_eq_true, decide_eq_true_eq] at w
    simp only [Sparse.put]
    split
    · next h => simp only [Sparse.get, Nat.ne_of_lt h, if_false, ih (k + 1) w.2]
    · split
      · next h =>
        subst h
        split
        · next hv => rw [Sparse.get_low d t (k + 1) k (by omega) w.2, beq_iff_eq.mp hv]
        · simp [Sparse.get]
      · next h1 h2 =>
        split
        · next hv =>
          have hl : Sparse.get d ((k, x) :: t) a = d a :=
            Sparse.get_low d _ k a (by omega) (by simp only [Sparse.wf, Bool.and_eq_true, decide_eq_true_eq]; exact ⟨⟨Nat.le_refl _, w.1.2⟩, w.2⟩)
          rw [hl, beq_iff_eq.mp hv]
        · simp [Sparse.get]

omit [LawfulBEq α] in
theorem Sparse.wf_put (l : List (Nat × α)) (lo a : Nat) (v : α) (h : lo ≤ a) (w : Sparse.wf d lo l = true) :
    Sparse.wf d lo (Sparse.put d l a v) = true := by
  induction l generalizing lo with
  | nil =>
    simp only [Sparse.put]
    split
    · rfl
    · next hv => simp [Sparse.wf, h, hv]
  | cons e t ih =>
    obtain ⟨k, x⟩ := e
    simp only [Sparse.wf, Bool.and_eq_true, decide_eq_true_eq] at w
    simp only [Sparse.put]
    split
    · next hk =>
      simp only [Sparse.wf, Bool.and_eq_true, decide_eq_true_eq]
      exact ⟨w.1, ih (k + 1) (by omega) w.2⟩
    · split
      · next hk =>
        subst hk
        split
        · exact Sparse.wf_mono d t (by omega) w.2
        · next hv => simp only [Sparse.wf, Bool.and_eq_true, decide_eq_true_eq]; exact ⟨⟨h, by simp [hv]⟩, w.2⟩
      · next h1 h2 =>
        split
        · simp only [Sparse.wf, Bool.and_eq_true, decide_eq_true_eq]; exact w
        · next hv =>
          simp only [Sparse.wf, Bool.and_eq_true, decide_eq_true_eq]
          exact ⟨⟨h, by simp [hv]⟩, ⟨by omega, w.1.2⟩, w.2⟩

end

/-! ## Byte memory -/

theorem Mem.put_wf (m : Mem) (a : Nat) (b : Byte) (h : m.wf = true) : (m.put a b).wf = true := Sparse.wf_put _ m 0 a b (Nat.zero_le _) h

theorem Mem.get_put_ne (m : Mem) (a c : Nat) (b : Byte) (h : c ≠ a) : (m.put a b).get c = m.get c := Sparse.get_put_ne _ m a c b h

theorem Mem.get_put (m : Mem) (a : Nat) (b : Byte) (h : m.wf = true) : (m.put a b).get a = b := Sparse.get_put _ m 0 a b h

theorem Mem.write_wf (m : Mem) (a : Nat) (b : Bytes) (h : m.wf = true) : (m.write a b).wf = true := by
  induction b generalizing m a with
  | nil => exact h
  | cons x t ih => exact ih (m.put a x) (a + 1) (Mem.put_wf m a x h)

theorem Mem.writeCells_wf (m : Mem) (c : List Host.Cell) (h : m.wf = true) : (m.writeCells c).wf = true := by
  induction c generalizing m with
  | nil => exact h
  | cons x t ih => exact ih (m.put x.1 x.2) (Mem.put_wf m x.1 x.2 h)

/-- A write leaves every byte outside its range alone. -/
theorem Mem.get_write_ne (m : Mem) (a c : Nat) (b : Bytes) (h : c < a ∨ a + b.length ≤ c) : (m.write a b).get c = m.get c := by
  induction b generalizing m a with
  | nil => rfl
  | cons x t ih =>
    simp only [List.length_cons] at h
    show ((m.put a x).write (a + 1) t).get c = m.get c
    rw [ih (m.put a x) (a + 1) (by omega), Mem.get_put_ne m a c x (by omega)]

/-- What was written is read back. -/
theorem Mem.read_write (m : Mem) (a : Nat) (b : Bytes) (h : m.wf = true) : (m.write a b).read a b.length = b := by
  induction b generalizing m a with
  | nil => rfl
  | cons x t ih =>
    show ((m.put a x).write (a + 1) t).get a :: ((m.put a x).write (a + 1) t).read (a + 1) t.length = x :: t
    rw [ih (m.put a x) (a + 1) (Mem.put_wf m a x h), Mem.get_write_ne _ (a + 1) a t (by omega), Mem.get_put m a x h]

/-! ## The operations of the state -/

theorem State.memOk_iff (s : State) : s.memOk = true ↔ Sparse.wf regReset 0 s.regs = true ∧ s.hbm.wf = true ∧ s.scr.wf = true := by
  simp [State.memOk, Bool.and_eq_true, and_assoc]

theorem State.memOk_setReg (s : State) (a : Nat) (v : Word) (h : s.memOk = true) : (s.setReg a v).memOk = true := by
  rw [State.memOk_iff] at h ⊢
  exact ⟨Sparse.wf_put _ _ 0 a v (Nat.zero_le _) h.1, h.2⟩

theorem State.memOk_scrWrite (s : State) (c o : Nat) (b : Bytes) (h : s.memOk = true) : (s.scrWrite c o b).memOk = true := by
  rw [State.memOk_iff] at h ⊢
  exact ⟨h.1, h.2.1, Mem.write_wf _ _ _ h.2.2⟩

theorem State.memOk_scrCells (s : State) (c : List Host.Cell) (h : s.memOk = true) : (s.scrCells c).memOk = true := by
  rw [State.memOk_iff] at h ⊢
  exact ⟨h.1, h.2.1, Mem.writeCells_wf _ _ h.2.2⟩

theorem State.memOk_hbmWrite (s : State) (a : Nat) (b : Bytes) (h : s.memOk = true) : (s.hbmWrite a b).memOk = true := by
  rw [State.memOk_iff] at h ⊢
  exact ⟨h.1, Mem.write_wf _ _ _ h.2.1, h.2.2⟩

theorem State.memOk_emit (s : State) (o : Out) (h : s.memOk = true) : (s.emit o).memOk = true := h

theorem State.memOk_signal (s : State) (v : Nat) (h : s.memOk = true) : (s.signal v).memOk = true := by
  unfold State.signal
  split
  · exact State.memOk_setReg _ _ _ h
  · exact h

theorem State.memOk_setEvent (s : State) (a : Nat) (v : Word) (h : s.memOk = true) : (s.setEvent a v).memOk = true := by
  unfold State.setEvent
  split
  · exact State.memOk_setReg _ _ _ h
  · split
    · exact State.memOk_signal _ _ (State.memOk_setReg _ _ _ h)
    · exact State.memOk_setReg _ _ _ h

theorem State.memOk_latch (s : State) (a k : Nat) (h : s.memOk = true) : (s.latch a k).memOk = true := State.memOk_setEvent _ _ _ h

theorem State.memOk_count (s : State) (a n : Nat) (h : s.memOk = true) : (s.count a n).memOk = true := State.memOk_setReg _ _ _ h

theorem State.memOk_setRegN (s : State) (a n : Nat) (h : s.memOk = true) : (s.setRegN a n).memOk = true := State.memOk_setReg _ _ _ h

/-- A register reads as it was set, and the others as before. -/
theorem State.reg_setReg (s : State) (a : Nat) (v : Word) (h : s.memOk = true) : (s.setReg a v).reg a = v :=
  Sparse.get_put regReset s.regs 0 a v ((State.memOk_iff s).mp h).1

theorem State.reg_setReg_ne (s : State) (a b : Nat) (v : Word) (h : b ≠ a) : (s.setReg a v).reg b = s.reg b :=
  Sparse.get_put_ne regReset s.regs a b v h

end Sys2Proof.Machine
end

