-- ==== Sys2Proof/Laws/Regs.lean ====
section
/-! SUPPORT. What a write of a register and an event leave: which registers change, and what the part sends. -/
namespace Sys2Proof.Machine

theorem State.regsBut_setReg (s : State) (a : Nat) (v : Word) (l : List Nat) (h : a ∈ l) : s.regsBut (s.setReg a v) l :=
  fun b hb => State.reg_setReg_ne s a b v (fun e => hb (e ▸ h))

theorem State.regsBut_trans {s t u : State} {l : List Nat} (h : s.regsBut t l) (h' : t.regsBut u l) : s.regsBut u l :=
  fun a ha => (h' a ha).trans (h a ha)

theorem State.regsBut_mono {s t : State} {l m : List Nat} (h : s.regsBut t l) (hm : ∀ a ∈ l, a ∈ m) : s.regsBut t m :=
  fun a ha => h a (fun x => ha (hm a x))

/-- A vector's signal changes no register but the pending bits, and sends at most its message. -/
theorem State.signal_says (s : State) (v : Nat) : s.regsBut (s.signal v) [Reg.MSIX_PBA] ∧ s.sent (s.signal v) [] := by
  unfold State.signal
  split
  · exact ⟨s.regsBut_setReg _ _ _ (by simp), [], by simp, by simp⟩
  · exact ⟨fun _ _ => rfl, [.msix (s.vectorPort v) v], by simp, by simp⟩

/-- A write of an event register: beside it only the pending bits change, and at most one interrupt goes out. -/
theorem State.setEvent_but (s : State) (a : Nat) (v : Word) :
    s.regsBut (s.setEvent a v) [a, Reg.MSIX_PBA] ∧ s.sent (s.setEvent a v) [] := by
  have base : s.regsBut (s.setReg a v) [a, Reg.MSIX_PBA] ∧ s.sent (s.setReg a v) [] :=
    ⟨s.regsBut_setReg _ _ _ (by simp), [], by simp, by simp⟩
  unfold State.setEvent
  split
  · exact base
  · split
    · rename_i n _ _
      obtain ⟨hr, m, hm, hv⟩ := (s.setReg a v).signal_says n
      exact ⟨State.regsBut_trans base.1 (State.regsBut_mono hr (by simp)), m, by simpa using hm, hv⟩
    · exact base

/-- An event register takes its value. -/
theorem State.reg_setEvent (s : State) (a : Nat) (v : Word) (h : s.memOk = true) (ha : a ≠ Reg.MSIX_PBA) : (s.setEvent a v).reg a = v := by
  unfold State.setEvent
  split
  · exact State.reg_setReg s a v h
  · split
    · rename_i n _ _
      exact (((s.setReg a v).signal_says n).1 a (by simpa using ha)).trans (State.reg_setReg s a v h)
    · exact State.reg_setReg s a v h

/-- A status bit that is latched: beside its register only the pending bits change. -/
theorem State.latch_but (s : State) (a k : Nat) : s.regsBut (s.latch a k) [a, Reg.MSIX_PBA] ∧ s.sent (s.latch a k) [] :=
  s.setEvent_but a _

/-- A status bit that is latched: its register gains the bit. -/
theorem State.reg_latch (s : State) (a k : Nat) (h : s.memOk = true) (ha : a ≠ Reg.MSIX_PBA) :
    (s.latch a k).reg a = s.reg a ||| BitVec.ofNat 64 (2 ^ k) := s.reg_setEvent a _ h ha

/-- A counter that counts: it alone changes. -/
theorem State.count_says (s : State) (a n : Nat) (h : s.memOk = true) :
    (s.count a n).reg a = s.reg a + BitVec.ofNat 64 n ∧ s.regsBut (s.count a n) [a] :=
  ⟨State.reg_setReg s a _ h, s.regsBut_setReg _ _ _ (by simp)⟩

end Sys2Proof.Machine
end

