-- ==== Sys2Proof/Laws/Wire.lean ====
section
/-! SUPPORT. What sending leaves: the operations that put packets, writes and acknowledgements on their way change nothing but the
links, LNK_STATUS and what has gone out. -/
namespace Sys2Proof.Machine

theorem State.onlySends_refl (s : State) : s.onlySends s := ⟨rfl, fun _ _ => rfl, List.prefix_refl _⟩

theorem State.onlySends_trans {s t u : State} (h : s.onlySends t) (h' : t.onlySends u) : s.onlySends u := by
  obtain ⟨e, r, o⟩ := h
  obtain ⟨e', r', o'⟩ := h'
  refine ⟨?_, State.regsBut_trans r r', o.trans o'⟩
  rw [e', e]

/-- A change of the links alone. -/
theorem State.onlySends_link (s : State) (l : LinkSt) : s.onlySends { s with link := l } := ⟨rfl, fun _ _ => rfl, List.prefix_refl _⟩

theorem State.onlySends_emit (s : State) (o : Out) : s.onlySends (s.emit o) := ⟨rfl, fun _ _ => rfl, ⟨[o], rfl⟩⟩

theorem State.onlySends_latch (s : State) (k : Nat) : s.onlySends (s.latch Reg.LNK_STATUS k) := by
  obtain ⟨hr, m, hm, -⟩ := s.latch_but Reg.LNK_STATUS k
  refine ⟨?_, hr, ⟨m, by simp [hm]⟩⟩
  unfold State.latch State.setEvent State.signal
  (repeat' split) <;> rfl

/-- A packet that enters the package network. -/
theorem State.onlySends_launch (s : State) (x : Parcel) (o : Out) : s.onlySends ((s.launch x).emit o) :=
  State.onlySends_trans (s.onlySends_link _) (State.onlySends_emit _ _)

theorem State.onlySends_portGo (s : State) (n : Nat) : s.onlySends (s.portGo n) := by
  unfold State.portGo
  split
  · exact s.onlySends_refl
  · dsimp only
    split
    · exact s.onlySends_link _
    · exact State.onlySends_trans (s.onlySends_link _) (State.onlySends_emit _ _)

/-- A packet that leaves on a port. -/
theorem State.onlySends_transmit (s : State) (p : Send) (port dl : Nat) : s.onlySends (s.transmit p port dl) :=
  State.onlySends_trans (s.onlySends_emit _) (State.onlySends_trans (State.onlySends_link _ _) (State.onlySends_portGo _ _))

/-- A packet that is posted, whether it finds its way or not. -/
theorem State.onlySends_post (s : State) (p : Send) : s.onlySends (s.post p).2 := by
  unfold State.post
  split
  · exact s.onlySends_launch _ _
  · split
    · exact s.onlySends_refl
    · split
      · exact s.onlySends_latch 2
      · exact s.onlySends_launch _ _

theorem State.onlySends_tell (s : State) (dst die : Nat) (body : Payload) : s.onlySends (s.tell dst die body) := s.onlySends_post _

/-- A numbered write. -/
theorem State.onlySends_sendWrite (s : State) (die dst : Nat) (body : Payload) (cmd : Option (Nat × Nat)) (r : Option (Nat × Word)) :
    s.onlySends (s.sendWrite die dst body cmd r).2 := by
  unfold State.sendWrite
  dsimp only
  split
  · exact s.onlySends_link _
  · have h := s.onlySends_post ⟨dst, die, keyGet 0 s.link.seqs dst, 0, body⟩
    split
    · rename_i s1 e
      rw [e] at h
      exact State.onlySends_trans h (s1.onlySends_link _)
    · rename_i s1 _ e
      rw [e] at h
      split
      · exact State.onlySends_trans h (s1.onlySends_link _)
      · exact h

theorem State.onlySends_write (s : State) (die dst : Nat) (body : Payload) : s.onlySends (s.write die dst body) := s.onlySends_sendWrite _ _ _ _ _

theorem State.onlySends_sendAck (s : State) (h : WriteHdr) (r : Nat) : s.onlySends (s.sendAck h r) := s.onlySends_tell _ _ _

theorem State.onlySends_drain (s : State) (dst : Nat) : s.onlySends (s.drain dst).2 := by
  unfold State.drain
  split
  · exact s.onlySends_refl
  · exact State.onlySends_trans (s.onlySends_post _) (State.onlySends_link _ _)

/-- A fold of steps that only send. -/
theorem State.onlySends_foldl {α : Type} (f : State → α → State) (hf : ∀ (s : State) (x : α), s.onlySends (f s x)) (l : List α) (s : State) :
    s.onlySends (l.foldl f s) := by
  induction l generalizing s with
  | nil => exact s.onlySends_refl
  | cons x l ih => exact State.onlySends_trans (hf s x) (ih _)

/-- A message to the other members of a domain. -/
theorem State.onlySends_workAll (s : State) (d : Dom) (m : WorkMsg) (cmd : Option (Nat × Nat)) : s.onlySends (s.workAll d m cmd).2 := by
  unfold State.workAll
  generalize hl : s.others d = l
  clear hl
  suffices h : ∀ acc : Nat × State, s.onlySends acc.2 → s.onlySends (l.foldl (fun (acc : Nat × State) n =>
      match acc.2.sendWrite 0 n (.work m) cmd none with
      | (0, s1) => (acc.1, s1)
      | (st, s1) => (st, s1)) acc).2 from h (ST_OK, s) s.onlySends_refl
  induction l with
  | nil => exact fun acc h => h
  | cons n l ih =>
    intro acc h
    refine ih _ ?_
    have e := State.onlySends_trans h (acc.2.onlySends_sendWrite 0 n (.work m) cmd none)
    dsimp only
    split <;> (rename_i q; rw [q] at e; exact e)

/-- A directory change to every die of a domain. -/
theorem State.onlySends_chorusAll (s : State) (d : Dom) (c : DirChange) : s.onlySends (s.chorusAll d c) :=
  State.onlySends_foldl _ (fun s _ => s.onlySends_write _ _ _) _ s

/-- Routes depend on the registers, the straps, the place in the rack and which ports are UP, on nothing else. -/
theorem State.route_congr {s t : State} (hr : t.regs = s.regs) (hp : t.pwr = s.pwr) (hz : t.link.z = s.link.z)
    (hu : ∀ n, t.portUp n = s.portUp n) : t.route = s.route := by
  have hu' : t.portUp = s.portUp := funext hu
  have e1 : ∀ a h l, t.regF a h l = s.regF a h l := fun a h l => by simp [State.regF, State.regN, State.reg, hr]
  have e2 : t.node = s.node := by simp only [State.node, State.nodeX, State.nodeY, State.side, hp, hz]
  have e3 : t.map = s.map := by simp [State.map, hp]
  have e4 : t.upPorts = s.upPorts := funext fun d => by simp [State.upPorts, e3, hu']
  have e5 : t.ringSize = s.ringSize := funext fun d => by simp [State.ringSize, State.sizeX, State.sizeY, State.sizeZ, e1]
  have e6 : t.nextDir = s.nextDir := funext fun d => by
    simp only [State.nextDir, e2, e4, e5, State.sizeX, State.sizeY, State.sizeZ, e1]
    rfl
  have e7 : t.crosses = s.crosses := funext fun d => by simp [State.crosses, e2, e5]
  funext a b c d
  simp [State.route, e4, e6, e7]

/-- What a packet leaves of the routes and of the lost nodes, when it finds a way itself. -/
theorem State.post_reaches (s : State) (p : Send) (h : s.reaches p.dst (vcOf p.body.type)) :
    (s.post p).1 = ST_OK ∧ (s.post p).2.route = s.route ∧ (s.post p).2.ras = s.ras := by
  obtain ⟨h1, h2⟩ := h
  unfold State.post
  split
  · exact ⟨rfl, State.route_congr rfl rfl rfl (fun _ => rfl), rfl⟩
  · rw [h1]
    obtain ⟨⟨port, dl⟩, e⟩ := Option.isSome_iff_exists.mp h2
    rw [e]
    exact ⟨rfl, State.route_congr rfl rfl rfl (fun _ => rfl), rfl⟩

/-- A write to a location that can be reached is sent, or waits to be, and leaves the routes as they were. -/
theorem State.sendWrite_reaches (s : State) (die dst : Nat) (body : Payload) (cmd : Option (Nat × Nat)) (r : Option (Nat × Word))
    (h : s.reaches dst (vcOf body.type)) :
    (s.sendWrite die dst body cmd r).1 = ST_OK ∧ (s.sendWrite die dst body cmd r).2.route = s.route
      ∧ (s.sendWrite die dst body cmd r).2.ras = s.ras := by
  unfold State.sendWrite
  dsimp only
  split
  · exact ⟨rfl, State.route_congr rfl rfl rfl (fun _ => rfl), rfl⟩
  · obtain ⟨h1, h2, h3⟩ := s.post_reaches ⟨dst, die, keyGet 0 s.link.seqs dst, 0, body⟩ h
    split
    · rename_i s1 e
      rw [e] at h2 h3
      exact ⟨rfl, (State.route_congr rfl rfl rfl (fun _ => rfl)).trans h2, h3⟩
    · rename_i s1 hne e
      rw [e] at h1
      exact absurd h1 hne

/-- A message to the other members of a domain is sent to each, when each can be reached. -/
theorem State.workAll_reaches (s : State) (d : Dom) (m : WorkMsg) (cmd : Option (Nat × Nat)) (h : ∀ n ∈ s.others d, s.reaches n 0) :
    (s.workAll d m cmd).1 = ST_OK := by
  unfold State.workAll
  generalize s.others d = l at h
  suffices g : ∀ acc : Nat × State, acc.1 = ST_OK → acc.2.route = s.route → acc.2.ras = s.ras →
      (l.foldl (fun (acc : Nat × State) n =>
        match acc.2.sendWrite 0 n (.work m) cmd none with
        | (0, s1) => (acc.1, s1)
        | (st, s1) => (st, s1)) acc).1 = ST_OK from g (ST_OK, s) rfl rfl rfl
  induction l with
  | nil => exact fun acc h _ _ => h
  | cons n l ih =>
    intro acc ha hr hl
    have hn : acc.2.reaches n (vcOf (Payload.work m).type) := by
      have := h n (by simp)
      unfold State.reaches at this ⊢
      rw [hr, hl]
      exact this
    obtain ⟨h1, h2, h3⟩ := acc.2.sendWrite_reaches 0 n (.work m) cmd none hn
    refine ih (fun x hx => h x (by simp [hx])) _ ?_ ?_ ?_
    all_goals
      dsimp only
      split
      · rename_i s1 e
        rw [e] at h2 h3
        first
          | exact ha
          | exact h2.trans hr
          | exact h3.trans hl
      · rename_i s1 hne e
        rw [e] at h1
        exact absurd h1 hne

end Sys2Proof.Machine
end

