-- ==== Sys2Proof/Tests/Slice0.lean ====
section
/-! SUPPORT. Tests: terms that well-formedness refuses, a state that meets the hypotheses of each statement, and a few steps whose
result a rule of the spec gives. -/
namespace Sys2Proof.Tests
open Sys2Proof.Machine

set_option maxRecDepth 4000

/-! ## A part in service, and a launch on its first cluster -/

/-- A part in service. -/
def on : State := { State.reset with pwr := { State.reset.pwr with powered := true, rstN := true, stage := .ready } }

/-- An image of one cluster whose frame has 4,096 bytes. -/
def img : Bytes := List.replicate 20 0 ++ natLE 4 4096 ++ natLE 4 0 ++ List.replicate 36 0

def edition : Edition := .fresh 1 img 0

/-- What a launch has on cluster 0. -/
def share : ClCtx := newClCtx 0 0 5 0

/-- A running launch, context 3 of slot 1. -/
def ctx : Ctx := { newCtx 3 1 0 0 7 ⟨edition, none, []⟩ 0 0 0 false false [] [] none with st := .running, started := true, cls := [share] }

/-- The part when cluster 0 issues for a launch. -/
def running (c : Ctx) : State :=
  { on with scripts := [⟨7, true, 1, [edition]⟩], ctxs := [c], clusters := on.clusters.modify 0 (fun u => { u with ctx := 3, running := true }) }

/-- The launch with a changed share. -/
def withShare (k : ClCtx) : Ctx := { ctx with cls := [k] }

/-- The part and the site when the share is k. -/
def run (k : ClCtx) : State := running (withShare k)
def site (k : ClCtx) : Site := ⟨withShare k, k⟩

def reg2 (v w : Word) : ClCtx := { share with sreg := [0, v, w, 0, 0, 0] ++ List.replicate 26 0 }
/-! ## The hypotheses of the statements can be met -/

theorem wit_Issue : let k := reg2 3 4
    (Instr.word (.add 0 { pn := true }) = some (0, { pn := true })
      ∧ (run k).serving = true ∧ (run k).site? 0 = some (site k) ∧ (k.p 0 == true) = true)
    ∧ ((k.p 0 == false) = false ∧ (run { k with running := [(site k).op on .te .atom { d := 1 } [] [] |> fun o => { o with dreg := some 1 }] }).site? 0
        = some (site { k with running := [(site k).op on .te .atom { d := 1 } [] [] |> fun o => { o with dreg := some 1 }] })) := by
  decide

/-- A word of the first form with s3 as destination, s1 and s2 as operands. -/
def w312 : BWord := { d := 3, a := 1, b := 2 }

theorem wit_ScalarResult :
    (run (reg2 3 4)).issues 0 w312 (aluRegs w312) (site (reg2 3 4)) ∧ (run (reg2 3 4)).issues 0 w312 ((aluRegs w312).drop 1) (site (reg2 3 4))
      ∧ (run (reg2 3 4)).issues 0 w312 [3, 1, 2] (site (reg2 3 4)) ∧ (run (reg2 3 4)).issues 0 w312 [3] (site (reg2 3 4))
      ∧ 0 < 31 ∧ 31 < (reg2 3 4).sreg.length ∧ (2 : Nat) ≠ 31 := by
  unfold State.issues; decide

theorem wit_LoadStoreResult :
    let ld : BWord := { d := 3, a := 1, fn := 0x3 }
    let spr : BWord := { d := 3, fn := 0x8 }
    let st : BWord := { a := 1, b := 2, fn := 0x3 }
    let at_ (v : Word) : Prop := (run (reg2 v 4)).issues 0 ld [3, 1] (site (reg2 v 4))
    (at_ 4088 ∧ ((run (reg2 4088 4)).readAt (withShare (reg2 4088 4)) (reg2 4088 4) 4088 8).isSome = true ∧ 4088 % 8 = 0
        ∧ (reg2 4088 4).clash [⟨4088, 8⟩] [] = false ∧ (run (reg2 4088 4)).ctxBad (withShare (reg2 4088 4)) (reg2 4088 4) 4088 8 = false)
      ∧ ((run (reg2 0 4)).issues 0 spr [3, 0] (site (reg2 0 4)) ∧ spr.fn.getLsbD 3 = true ∧ ∃ w, (run (reg2 0 4)).spr (site (reg2 0 4)) 0 = some w)
      ∧ (at_ 4089 ∧ (run (reg2 4089 4)).readAt (withShare (reg2 4089 4)) (reg2 4089 4) 4089 8 = none)
      ∧ (at_ 4087 ∧ ((run (reg2 4087 4)).readAt (withShare (reg2 4087 4)) (reg2 4087 4) 4087 8).isSome = true ∧ 4087 % 8 ≠ 0)
      ∧ ((run (reg2 4088 4)).issues 0 st [1, 2] (site (reg2 4088 4)) ∧ (run (reg2 4088 4)).frameAt (withShare (reg2 4088 4)) (reg2 4088 4) 4088 8 = some 4088
        ∧ (reg2 4088 4).clash [] [⟨4088, 8⟩] = false ∧ (run (reg2 4088 4)).memOk = true ∧ (run (reg2 4088 4)).shapeOk = true)
      ∧ (∀ m : BitVec 24, m = 8 ∨ m = 9 → (run (reg2 0 4)).issues 0 { a := 1, b := 2, fn := 0x8, imm := m } [1, 2] (site (reg2 0 4))
        ∧ (m.signExtend 64).toNat = m.toNat) := by
  unfold State.issues
  refine ⟨by decide, ⟨by decide, by decide, _, rfl⟩, by decide, by decide, by decide, ?_⟩
  rintro m (rfl | rfl) <;> decide

theorem wit_BranchResult :
    let k (n : Nat) : ClCtx := { reg2 1 0 with link := List.replicate n 5 }
    let l (n : Nat) (v : Word) : ClCtx := { reg2 v 0 with loops := List.replicate n ⟨0, 3, 2⟩ }
    ((run (k 0)).issues 0 { imm := 7 } [] (site (k 0)) ∧ (run (k 0)).issues 0 { a := 1, b := 2, fn := 1 } [1, 2] (site (k 0)))
      ∧ ((run (k 15)).issues 0 { imm := 7 } [] (site (k 15)) ∧ (k 15).link.length < 16)
      ∧ ((run (k 1)).issues 0 {} [] (site (k 1)) ∧ (k 1).link = 5 :: [])
      ∧ ((run (l 3 1)).issues 0 { a := 1, imm := 7 } [1] (site (l 3 1)) ∧ (l 3 1).s 1 ≠ 0 ∧ (l 3 1).loops.length < 4)
      ∧ ((run (l 4 0)).issues 0 { a := 1, imm := 7 } [1] (site (l 4 0)) ∧ (l 4 0).s 1 = 0) := by
  unfold State.issues; decide

theorem wit_FaultRecorded :
    let k (n : Nat) : ClCtx := { reg2 1 0 with link := List.replicate n 5 }
    let l : ClCtx := { reg2 1 0 with loops := List.replicate 4 ⟨0, 3, 2⟩ }
    ((run (k 0)).Sound ∧ (run (k 0)).issues 0 { imm := 7 } [] (site (k 0)) ∧ (k 0).link = [])
      ∧ ((run (k 16)).Sound ∧ (run (k 16)).issues 0 { imm := 7 } [] (site (k 16)) ∧ 16 ≤ (k 16).link.length)
      ∧ ((run l).Sound ∧ (run l).issues 0 { a := 1 } [1] (site l) ∧ l.s 1 ≠ 0 ∧ 4 ≤ l.loops.length) := by
  unfold State.issues State.Sound; decide +kernel

theorem wit_TileAndBind :
    let td (sel : BitVec 8) : BWord := { d := 15, a := 1, fn := sel }
    let k (v : Word) : ClCtx := reg2 v 15
    let b (v : Word) : ClCtx := { k v with treg := List.replicate 15 0 ++ [BitVec.ofNat 128 (putFld (putFld 0 27 24 6) 103 81 32)] }
    ((run (k 4080)).issues 0 (td 0) [1] (site (k 4080)) ∧ ((run (k 4080)).readAt (withShare (k 4080)) (k 4080) 4080 16).isSome = true ∧ 4080 % 16 = 0
        ∧ (run (k 4080)).ctxBad (withShare (k 4080)) (k 4080) 4080 16 = false)
      ∧ ((run (k 0xFFFFFF)).issues 0 (td 0) [1] (site (k 0xFFFFFF)) ∧ ((k 0xFFFFFF).s 1).toNat < 2 ^ tileWidth 0)
      ∧ ((run (k 0x1000000)).issues 0 (td 0) [1] (site (k 0x1000000)) ∧ 2 ^ tileWidth 0 ≤ ((k 0x1000000).s 1).toNat)
      ∧ ((run (b 2)).issues 0 (td 1) [1] (site (b 2)) ∧ (td 1).fn.getLsbD 0 = true ∧ (tileOf ((b 2).t 15)).fmt = 6 ∧ (tileOf ((b 2).t 15)).stride = 32)
      ∧ ((run (b 7)).issues 0 { a := 1, b := 2 } [1, 2] (site (b 7))
        ∧ (imgTables ({ running (withShare (b 7)) with scripts := [⟨7, true, 1, [.fresh 1 (img.set 16 1 |>.set 32 7) 0]⟩] }.image (withShare (b 7)))).contains 7 = true)
      ∧ (6 ≤ 6 ∧ 15 < 2 ^ tileWidth 6 ∧ (5 : Nat) ≤ 5 ∧ (5 : Nat) ≠ 6) := by
  unfold State.issues; decide

/-- A descriptor of one run of 64 bytes from the frame to the frame. -/
def desc : Bytes := (List.replicate 4 0 ++ [1] ++ List.replicate 3 0 ++ natLE 8 256 ++ natLE 8 512 ++ natLE 4 64 ++ List.replicate 98 0 : Bytes)

theorem wit_EngineIssue :
    let i : BWord := { d := 4, a := 1, b := 2, c := 3 }
    let k : ClCtx := { share with sreg := [0, 0, 64, 1, 256] ++ List.replicate 27 0 }
    let s := run k
    let sd := s.scrWrite 0 0 (desc ++ natLE 2 (crc16 desc))
    let a := site k
    (s.issues 0 i (arrRegs .rows i) a ∧ s.takes a (a.op s .arr .rows i (arrRanges k .rows i).1 (arrRanges k .rows i).2))
      ∧ (s.issues 0 i (arrRegs .mma i) a ∧ s.takes a (a.op s .arr .mma i (arrRanges k .mma i).1 (arrRanges k .mma i).2))
      ∧ (s.issues 0 i (arrRegs .conv1 i) a ∧ s.issues 0 i (arrRegs .ewa i) a ∧ s.issues 0 i (arrRegs .drain i) a)
      ∧ (s.issues 0 i (vecRegs .vred i) a ∧ s.issues 0 i (vecRegs .vcvt i) a ∧ s.issues 0 i (vecRegs .sfn i) a ∧ s.issues 0 i (vecRegs .smaxM i) a
        ∧ s.issues 0 i (vecRegs .smaxE i) a ∧ s.issues 0 i (vecRegs .smaxD i) a ∧ s.issues 0 i (vecRegs .normS i) a ∧ s.issues 0 i (vecRegs .normF i) a
        ∧ s.takes a (a.op s .vec .vred i [] []))
      ∧ (s.issues 0 i [1] a ∧ (s.readAt a.c k 0 160).isSome = true ∧ s.ctxBad a.c k 0 160 = false)
      ∧ (sd.issues 0 i [1] a ∧ (sd.readAt a.c k 0 128).isSome = true ∧ sd.ctxBad a.c k 0 128 = false
        ∧ crc16 ((sd.ctxRead a.c k 0 128).take 126) = rd (sd.ctxRead a.c k 0 128) 126 2 ∧ tdescBad 1 (sd.ctxRead a.c k 0 128) = false
        ∧ sd.takes a (a.op sd .te .move i [⟨256, 64⟩, ⟨0, 128⟩] [⟨512, 64⟩]))
      ∧ (s.issues 0 i [1, 2, 3, 4] a ∧ 64 ≤ 2 ^ 20 ∧ (maskBits 1).any (fun j => decide (a.c.cls.length ≤ j)) = false
        ∧ (s.readAt a.c k 0 64).isSome = true ∧ (s.frameAt a.c k 256 64).isSome = true ∧ s.takes a (a.op s .te .chorus i [⟨0, 64⟩] [⟨256, 64⟩]))
      ∧ (atomDev { i with fn := 8 } = true ∧ s.issues 0 { i with fn := 8 } [1, 2, 3, 4] a ∧ s.takes a (a.op s .te .atom { i with fn := 8 } [] []))
      ∧ (atomDev i = false ∧ a.c.atIndex (atomPeer i) = some k ∧ (s.frameAt a.c k 0 8).isSome = true ∧ s.takes a (a.op s .te .atom i [⟨0, 8⟩] [⟨0, 8⟩])) := by
  unfold State.issues State.takes; refine ⟨?_, ?_, ?_, ?_, ?_, ?_, ?_, ?_, ?_⟩ <;> decide +kernel

theorem wit_StepRunsFront :
    on.pending = [] ∧ on.pwr.powered = true ∧ on.pwr.rstN = true ∧ on.time.stopped = false ∧ on.time.hold = 0
      ∧ 0 < ({ on with time := { on.time with hold := 3 } } : State).time.hold ∧ on.link.noc.entry = [] ∧ on.link.noc.bufs = []
      ∧ (∀ g ∈ on.gpes, g.asked = []) ∧ on.net.held = []
      ∧ (let v : State := { on with net := { on.net with held := [(0, 3, .pfc 0 3 0)], paused := [(0, 3, 10)] } }
        v.net.held = [(0, 3, .pfc 0 3 0)] ∧ v.paused 0 3 = true ∧ ({ v with time := { v.time with gtime := 10 } } : State).paused 0 3 = false)
      ∧ (∀ c ∈ (running ctx).ctxs, (running ctx).clockRuns c = false)
      ∧ ((8 : Nat) < 10 ∧ (9 : Nat) < 10 ∧ dieRoute 8 9 6 = [0, 2, 4, 6, 9] ∧ dieRoute 7 8 6 = [5, 3, 1, 8]) := by decide +kernel

theorem wit_StepKeepsSound : ∃ t, State.reset.Sound ∧ step State.reset = .next t := ⟨_, by unfold State.Sound; decide, rfl⟩

theorem wit_RegisterWrite :
    let a : Access := ⟨0, Reg.LNK_E2E, 4, 50⟩
    (2 ^ 20 < 2 ^ 64 ∧ 2 ^ 31 < 2 ^ 32 ∧ 1 ≤ 1 ∧ 63 < 64)
      ∧ (on.barOpen = true ∧ Access.aligned a = true ∧ on.accessWrite a = none ∧ ((regAt (barAddr 0 a.off)).any (fun e => !e.1.computed && e.2 == Reg.LNK_E2E)) = true
        ∧ on.ownWrite Reg.LNK_E2E 50 = none ∧ ¬(Reg.NP_ROCE_RKEY ≤ Reg.LNK_E2E ∧ Reg.LNK_E2E ≤ Reg.NP_ROCE_RIP_HI) ∧ on.locked Reg.LNK_E2E = false
        ∧ Reg.LNK_E2E ≠ Reg.CFE_CTL ∧ vectorOf Reg.LNK_E2E = none ∧ ¬(0x10090000 ≤ Reg.LNK_E2E ∧ Reg.LNK_E2E < 0x10090100))
      ∧ (Access.aligned ⟨0, 0x400008, 8, 50⟩ = true ∧ on.accessWrite ⟨0, 0x400008, 8, 50⟩ = none)
      ∧ (Access.aligned ⟨0, 0xFFFFFC, 4, 50⟩ = true ∧ on.accessWrite ⟨0, 0xFFFFFC, 4, 50⟩ = none ∧ regAt (barAddr 0 0xFFFFFC) = none) := by
  decide +kernel

theorem wit_RefusedAccess :
    let a : Access := ⟨0, 0xFFFFFC, 4, 50⟩
    let s := on.setRegN Reg.RAS_BAD_ACCESS (2 ^ 63)
    (on.Sound ∧ on.barOpen = true ∧ refused a = true ∧ on.regB Reg.RAS_BAD_ACCESS 63 = false ∧ a.off < 2 ^ 28 ∧ a.size < 16)
      ∧ (s.Sound ∧ s.barOpen = true ∧ s.regB Reg.RAS_BAD_ACCESS 63 = true) := by
  unfold State.Sound; decide +kernel

theorem wit_WindowAccess :
    let a (o : Nat) : Access := ⟨0, o, 8, 50⟩
    (on.barOpen = true ∧ Access.aligned (a (0x1000000 + 127 * 0x20000 + 0x1FFF8)) = true ∧ (127 : Nat) < 128 ∧ 0x10000 ≤ 0x1FFF8 ∧ 0x1FFF8 < 0x20000
        ∧ on.rangeBad 127 (on.regN (Reg.CL_APBASE 127) * 0x10000 + 0xFFF8) 8 = false)
      ∧ (Access.aligned (a (0x2000000 + 0x10000)) = true ∧ maskWord 0x10000 = false ∧ maskWord 0xFEF8 = false ∧ maskWord 0xFF00 = true ∧ maskWord 0xFF08 = true
        ∧ Access.aligned (a (0x2100000 + 15 * 0x20000 + 0xFF08)) = true ∧ 15 < 16) := by
  decide +kernel

theorem wit_PackageFailures :
    (on.up = true ∧ 13 < 14) ∧ (on.serving = true ∧ on.Sound ∧ keyGet 0 on.link.parity 9 < 3)
      ∧ keyGet 0 ({ on with link := { on.link with parity := [(9, 3)] } } : State).link.parity 9 = 3
      ∧ ({ on with link := { on.link with parity := [(9, 3)] } } : State).serving = true := by
  unfold State.Sound; decide +kernel

/-! A domain of this part alone, one table in it, and a queue slot with one entry waiting. -/

def ver (n : Nat) (st : VState) : Version := ⟨n, n % 8, st, [], [], 0, [], false⟩

/-- A table of 4 rows of 8 elements. -/
def tab (l : List Version) : Table := ⟨7, 2, true, 8, 5, 4, 0, false, 0, l⟩

def placed (l : List Version) : State :=
  { on.setRegN Reg.TBL_HEAP 4 with
    doms := on.doms.set 0 { Dom.init with number := 5, valid := true, members := 1 }
    tables := [tab l] }

/-- The 64 bytes of an entry. -/
def entry (op : Nat) (args : Bytes) : Bytes := [BitVec.ofNat 8 op] ++ List.replicate 23 0 ++ args ++ List.replicate (40 - args.length) 0

def qOn (e : Bytes) : QSlot := { QSlot.init with en := true, st := .on, waiting := [(1, e)] }

def waits (s : State) (e : Bytes) : State := { s with slots := s.slots.set 0 (qOn e) }

theorem wit_CreateTable :
    let args (h fmt rel dom : Nat) : Bytes := natLE 2 h ++ natLE 1 fmt ++ natLE 1 rel ++ natLE 2 8 ++ natLE 2 dom ++ natLE 8 4 ++ natLE 4 0
    let e (h fmt rel dom : Nat) : Bytes := entry 0x10 (args h fmt rel dom)
    let bad : Bytes := entry 0x10 (args 8 2 1 5 ++ [1])
    let hint : Bytes := entry 0x10 (natLE 2 8 ++ [2, 1] ++ natLE 2 8 ++ natLE 2 5 ++ natLE 8 4 ++ natLE 4 (2 ^ 32 - 1))
    let d (n : Nat) : Dom := { Dom.init with number := 5, valid := true, members := BitVec.ofNat 256 n }
    let s (e : Bytes) (n : Nat) : State := waits { placed [] with doms := on.doms.set 0 (d n) } e
    let zeros (e : Bytes) : Bool := hdrZero e && allZero (slice (argsOf e) 20 20) && decide (rd (argsOf e) 8 8 < 2 ^ 41)
    (on.barOpen = true ∧ on.tables = [] ∧ on.host.ports.any (·.hdm.isSome) = false ∧ (placed []).tables ≠ [])
      ∧ ((s bad 1).admits 0 0x10 1 bad (qOn bad) [] ∧ zeros bad = false)
      ∧ ((s (e 8 4 1 5) 1).admits 0 0x10 1 (e 8 4 1 5) (qOn (e 8 4 1 5)) [] ∧ zeros (e 8 4 1 5) = true ∧ ¬ rd (argsOf (e 8 4 1 5)) 2 1 ≤ 3)
      ∧ ((s hint 1).admits 0 0x10 1 hint (qOn hint) [] ∧ zeros hint = true ∧ badHints (rd (argsOf hint) 16 4) = true)
      ∧ ((s (e 7 2 1 5) 1).admits 0 0x10 1 (e 7 2 1 5) (qOn (e 7 2 1 5)) [] ∧ zeros (e 7 2 1 5) = true ∧ badHints (rd (argsOf (e 7 2 1 5)) 16 4) = false
        ∧ (s (e 7 2 1 5) 1).handleBusy 7 5 [] = true)
      ∧ ((s (e 8 2 1 6) 1).handleBusy 8 6 [] = false ∧ (s (e 8 2 1 6) 1).domOf 6 = none)
      ∧ ((s (e 8 2 1 5) 2).domOf 5 = some (0, d 2) ∧ (d 2).members.getLsbD on.member = false)
      ∧ ((s (e 8 2 1 5) 3).domOf 5 = some (0, d 3) ∧ (d 3).members.getLsbD on.member = true ∧ (d 3).live.filter (· != on.member) = [1]
        ∧ (([] : Answers).lookup 1).getD none = none)
      ∧ (([(1, some (0, false))] : Answers).lookup 1 = some (some (0, false)) ∧ (s (e 8 2 1 5) 3).handleBusy 8 5 [(1, some (0, false))] = false)
      ∧ ((s (e 8 2 0 5) 1).admits 0 0x10 1 (e 8 2 0 5) (qOn (e 8 2 0 5)) [] ∧ rd (argsOf (e 8 2 0 5)) 3 1 = 0 ∧ (d 1).memberList.length < 2
        ∧ (d 1).live.filter (· != on.member) = [])
      ∧ (rd (argsOf (e 8 2 1 5)) 3 1 ≠ 0 ∧ (s (e 8 2 1 5) 1).others (d 1) = []) := by
  unfold State.admits; and_intros <;> decide +kernel

theorem wit_LoadBegins :
    let e (h : Nat) : Bytes := entry 0x11 (natLE 2 h ++ natLE 2 3 ++ [1, 0, 0, 0] ++ natLE 8 0 ++ natLE 8 4 ++ natLE 8 0 ++ natLE 4 32)
    let s (h : Nat) (l : List Version) : State := waits (placed l) (e h)
    let u (h : Nat) (l : List Version) : State := (s h l).took 0 1 (e h) []
    let ok (l : List Version) : Prop := (s 7 l).admits 0 0x11 1 (e 7) (qOn (e 7)) [] ∧ (u 7 l).loadStatus (e 7) (loadOf 0 1 (argsOf (e 7))) true = ST_OK
      ∧ (s 7 l).openTable 7 = some (tab l)
    ((s 8 []).admits 0 0x11 1 (e 8) (qOn (e 8)) [] ∧ (u 8 []).loadStatus (e 8) (loadOf 0 1 (argsOf (e 8))) true ≠ ST_OK)
      ∧ (ok [ver 3 .building] ∧ (tab [ver 3 .building]).ver? 3 ≠ none ∧ (loadOf 0 1 (argsOf (e 7))).source ≠ 2)
      ∧ (ok [] ∧ (tab []).ver? 3 = none ∧ ((s 7 []).tableDom (tab [])).map (fun x => (s 7 []).others x.2) = some []) := by
  unfold State.admits; decide +kernel

theorem wit_CommitGoes :
    let e (h : Nat) : Bytes := entry 0x12 (natLE 8 0 ++ [1, 0, 0, 0] ++ natLE 2 h ++ natLE 2 3)
    let s (h : Nat) : State := waits (placed [ver 3 .building]) (e h)
    let c (own : Option (Nat × Nat)) (go : Bool) : Commit := ⟨4, own, 0, [(7, 3)], [(7, 3)], [], [], go, false, false, none, [], false, 5⟩
    let d : Commit := { c (some (0, 1)) true with waiting := [], here := some ⟨0, 9, false⟩ }
    let a (c : Commit) : State := { placed [ver 3 .committing] with commits := [c] }
    let b : State := { placed [ver 3 .live] with commits := [d] }
    ((s 7).admits 0 0x12 1 (e 7) (qOn (e 7)) [] ∧ ((s 7).took 0 1 (e 7) []).commitStatus (e 7) = ST_OK ∧ commitTables (argsOf (e 7)) = [(7, 3)]
        ∧ ((s 7).table? 7).bind (s 7).tableDom = some (0, { Dom.init with number := 5, valid := true, members := 1 })
        ∧ (s 7).others { Dom.init with number := 5, valid := true, members := 1 } = [])
      ∧ ((s 8).admits 0 0x12 1 (e 8) (qOn (e 8)) [] ∧ ((s 8).took 0 1 (e 8) []).commitStatus (e 8) ≠ ST_OK)
      ∧ (∀ own ∈ [some (0, 1), none], (a (c own true)).serving = true ∧ (a (c own true)).commit? 4 = some (c own true) ∧ (c own true).here = none
        ∧ (c own true).waiting ≠ [] ∧ (c own true).go = true ∧ (c own true).instant.toNat ≤ (a (c own true)).time.gtime.toNat)
      ∧ ((a (c none false)).commit? 4 = some (c none false) ∧ (c none false).go = false)
      ∧ (let g : State := { placed [{ ver 3 .committing with dropped := true }] with commits := [c (some (0, 1)) true] }
        (c (some (0, 1)) true).waiting.filter (fun x => !((g.table? x.1).bind (·.ver? x.2)).any (·.dropped)) = [] ∧ (c (some (0, 1)) true).waiting ≠ [])
      ∧ (b.serving = true ∧ b.commit? 4 = some d ∧ d.own = some (0, 1) ∧ d.here = some ⟨0, 9, false⟩ ∧ d.reports = [] ∧ d.cancelled = false
        ∧ (b.commitDom d).map b.others = some [])
      ∧ ((a d).table? 7 = some (tab [ver 3 .committing]) ∧ ver 3 .committing ∈ (tab [ver 3 .committing]).versions) := by
  unfold State.admits; decide +kernel

theorem wit_VersionsGo :
    let e (h v : Nat) : Bytes := entry 0x13 (natLE 2 h ++ natLE 2 v)
    let s (h v : Nat) : State := waits (placed [ver 3 .building]) (e h v)
    let b : State := placed [ver 2 .retiring]
    ((s 7 3).admits 0 0x13 1 (e 7 3) (qOn (e 7 3)) [] ∧ ((s 7 3).took 0 1 (e 7 3) []).dropStatus (e 7 3) = ST_OK ∧ rd (argsOf (e 7 3)) 2 2 ≠ 0
        ∧ (s 7 3).table? 7 = some (tab [ver 3 .building]) ∧ ((s 7 3).tableDom (tab [ver 3 .building])).map (fun x => (s 7 3).others x.2) = some []
        ∧ (s 7 3).rowsOut 7 3 = [] ∧ (s 7 3).cmdBusy 0 1 = false ∧ (s 7 3).loads = [] ∧ (s 7 3).commits = [])
      ∧ ((s 7 0).admits 0 0x13 1 (e 7 0) (qOn (e 7 0)) [] ∧ ((s 7 0).took 0 1 (e 7 0) []).dropStatus (e 7 0) = ST_OK ∧ rd (argsOf (e 7 0)) 2 2 = 0)
      ∧ ((s 8 3).admits 0 0x13 1 (e 8 3) (qOn (e 8 3)) [] ∧ ((s 8 3).took 0 1 (e 8 3) []).dropStatus (e 8 3) ≠ ST_OK)
      ∧ (b.serving = true ∧ b.table? 7 = some (tab [ver 2 .retiring]) ∧ (tab [ver 2 .retiring]).ver? 2 = some (ver 2 .retiring)
        ∧ (b.tableDom (tab [ver 2 .retiring])).any (fun x => b.leads x.2 && (b.others x.2).all (fun n => (ver 2 .retiring).zero.contains n)) = true
        ∧ (ver 2 .retiring).refs = 0) := by
  unfold State.admits; decide +kernel

theorem wit_PoolingOrder :
    let x (r g : Nat) : Term := ⟨none, ⟨r, false, 0x3C00, 0⟩, natLE 16 r, [g]⟩
    let b : OwnBag := ⟨2, none, [x 1 0, x 2 1], 2, 0, false, []⟩
    ((tab []).fmt ≠ 3 ∧ b.terms.Perm [x 2 1, x 1 0])
      ∧ ((2 : Nat) ≠ 3 ∧ 2 ^ 95 ≤ (2 ^ 95 : Int).natAbs ∧ (2 ^ 95 - 1 : Int).natAbs < 2 ^ 95 ∧ (2 ^ 95 - 1 : Int) ≠ 0 ∧ ((-1 : Int) ≠ 0 ∧ (-1 : Int).natAbs < 2 ^ 95)) :=
  ⟨⟨by decide, .swap _ _ _⟩, by decide⟩

theorem wit_LookupIssue :
    let i : BWord := { a := 1 }
    let k : ClCtx := reg2 4032 0
    let s : State := run k
    let r := lookupRanges 4032 (s.ctxRead (withShare k) k 4032 64) true 4096
    s.issues 0 i [i.a] (site k) ∧ s.gpes[0 / 16]? = some .init ∧ (s.frameAt (withShare k) k 4032 64).isSome = true ∧ 4032 % 64 = 0
      ∧ s.ctxBad (withShare k) k 4032 64 = false ∧ s.gpeGrants .init 0 = true
      ∧ s.takes (site k) { (site k).op s .lk .gather i r.1 r.2 with desc := s.ctxRead (withShare k) k 4032 64, gpe := some Gpe.init.freeNum }
      ∧ s.takes (site k) { (site k).op s .lk .pool i r.1 r.2 with desc := s.ctxRead (withShare k) k 4032 64, gpe := some Gpe.init.freeNum }
      ∧ s.lookupStatus (site k) (s.ctxRead (withShare k) k 4032 64) true ≠ ST_ISA_RANGE
      ∧ (match s.lookupCheck (site k) (s.ctxRead (withShare k) k 4032 64) true with
          | .error _ => true
          | .ok _ => false) = true := by
  unfold State.issues State.takes; decide +kernel

/-! A request at its owner, and the operation that asked. -/

def ask (gen : Nat) : PoolReqPkt := ⟨0, 3, 5, gen, 7, 3, 0, false, 0, 1, [⟨2, true, [⟨1, false, 0⟩]⟩]⟩

def req (gen : Nat) : OwnReq := ⟨0, 0, 3, 5, gen, 7, 3, 0, false, [], 1, []⟩

def bag (n : Nat) (d : Bool) : Bag := ⟨n, 0, 1, [⟨1, false, 0, 0⟩], [0], 0, [], [], 0, 0, d⟩

def lookOp (gen : Nat) (b : Bag) : GpeOp := ⟨5, 3, 0, 0, 0, false, 7, 3, 0, 16, 0, none, 0, [b], gen, 1, none, 1, 0, 0, 0, none⟩

def looks (o : GpeOp) : State := { placed [ver 3 .live] with gpes := on.gpes.set 0 { Gpe.init with ops := [o] } }

def part (gen : Nat) : PartialPkt := ⟨0, 0, 3, 5, 2, 0, gen, 1, 0, 1, [], [], 0⟩

theorem wit_OwnerAndPartial :
    let g : Gpe := { Gpe.init with wings := { Gpe.init.wings with st := .off } }
    let s : State := { placed [ver 3 .live] with gpes := on.gpes.set 0 g }
    let t : State := { s with reqs := [req 9] }
    let rdg (l : List Nat) : RowRead := ⟨4, 0, 0, 3, 5, 2, ⟨1, false, 0, 0⟩, none, false, l⟩
    let w (l : List Nat) : State := { t with reads := [rdg l] }
    (s.serving = true ∧ s.table? 7 = some (tab [ver 3 .live]) ∧ (tab [ver 3 .live]).ver? 3 = some (ver 3 .live) ∧ s.req? 0 0 3 5 = none
        ∧ (ask 9).pieces = [⟨2, true, [⟨1, false, 0⟩]⟩] ∧ s.rowLost (tab [ver 3 .live]) 3 1 = false ∧ s.gpes[0]? = some g ∧ g.wings.st ≠ .on)
      ∧ (t.serving = true ∧ t.req? 0 0 3 5 = some (req 9) ∧ (req 9).gen ≠ (ask 8).gen ∧ genNewer (ask 8).gen (req 9).gen = false)
      ∧ ((w [1, 0]).reads.find? (fun y => y.id == 4 && y.die == 0) = some (rdg [1, 0]) ∧ (w [1, 0]).req? 0 0 3 5 = some (req 9)
        ∧ (w [0]).reads.find? (fun y => y.id == 4 && y.die == 0) = some (rdg [0]) ∧ (w [0]).serving = true)
      ∧ (s.gpeOp? 0 5 = none)
      ∧ ((looks (lookOp 9 (bag 2 true))).gpeOp? 0 5 = some (lookOp 9 (bag 2 true)) ∧ [bag 2 true].find? (·.num == 2) = some (bag 2 true) ∧ (bag 2 true).done = true)
      ∧ ((looks (lookOp 9 (bag 2 false))).gpeOp? 0 5 = some (lookOp 9 (bag 2 false)) ∧ (lookOp 9 (bag 2 false)).ctx = (part 9).ctx ∧ (bag 2 false).done = false
        ∧ (lookOp 9 (bag 2 false)).gen = (part 9).gen ∧ (lookOp 9 (bag 2 false)).gen ≠ (part 8).gen
        ∧ (looks (lookOp 9 (bag 2 false))).table? 7 = some (tab [ver 3 .live]))
      ∧ (let h : GpeOp := { lookOp 9 (bag 2 false) with abandoned := some 0 }
        (looks h).gpes[0]? = some { Gpe.init with ops := [h] } ∧ [h].find? (·.num == 5) = some h ∧ h.abandoned.isSome = true)
      ∧ (let e : Gpe := { Gpe.init with ended := [(5, 9, false)] }
        ({ on with gpes := on.gpes.set 0 e } : State).gpes[0]? = some e ∧ e.ops.find? (·.num == 5) = none ∧ e.ended.lookup 5 = some (9, false))
      ∧ s.Sound := by
  unfold State.Sound; decide +kernel

/-- The part with every Twiben port UP, in a system of four nodes in X. -/
def linked : State := { on.setRegN Reg.LNK_TOPO 3 with link := { on.link with ports := on.link.ports.map (fun p => { p with st := 2 }) } }

/-- A partial for die 0 of node 1. -/
def far : PartialPkt := { part 9 with dst := 1 }

theorem wit_CombineBuffer :
    let s : State := linked.setRegN Reg.LKP_COMBINE (2 ^ 31 + 5)
    let io : Nat := ((linked.route (some (dirOf linked.map 0)) 0 far.dst 2).map (fun x => iodOf x.1)).getD 0
    let q : Held := ⟨io, far, 0, 0, 0, 0⟩
    let held (l : List Held) : State := { s with combine := l }
    let up (s : State) : Prop := s.serving = true ∧ locNode far.dst ≠ s.node ∧ s.portUp 0 = true
      ∧ (s.route (some (dirOf s.map 0)) 0 far.dst 2).map (fun x => iodOf x.1) = some io
    (up (linked.setRegN Reg.LKP_COMBINE 0) ∧ (linked.setRegN Reg.LKP_COMBINE 0).regB Reg.LKP_COMBINE 31 = false)
      ∧ (up (held [q]) ∧ s.regB Reg.LKP_COMBINE 31 = true ∧ s.regF Reg.LKP_COMBINE 9 0 ≠ 0 ∧ far.mode ≠ 4
        ∧ ((held [q]).heldAt io).any (fun h => samePartial h.p far) = true)
      ∧ (let x : Held := { q with p := { far with bag := 3 } }
        up (held (List.replicate 512 x)) ∧ ((held (List.replicate 512 x)).heldAt io).any (fun h => samePartial h.p far) = false
          ∧ 512 ≤ ((held (List.replicate 512 x)).heldAt io).length ∧ ((held (List.replicate 511 x)).heldAt io).length < 512)
      ∧ (((held [q]).heldAt io)[0]? = some q ∧ q.until_.toNat ≤ (held [q]).time.gtime.toNat
        ∧ ((held [q]).route (some (dirOf s.map q.inPort)) q.dl q.p.dst 2).isSome = true)
      ∧ (((held [{ q with until_ := 1 }]).heldAt io)[0]? = some { q with until_ := 1 } ∧ (held [q]).time.gtime.toNat < (1 : Word).toNat) := by
  decide +kernel

/-- A later instant. -/
def later (s : State) (g : Word) : State := { s with time := { s.time with gtime := g } }

theorem wit_LookupEndsBadly :
    let o (n : Nat) : GpeOp := { lookOp 9 (bag 2 false) with attempt := n }
    let s (n : Nat) (g : Word) : State := later (looks (o n)) g
    let c : Ctx := { withShare share with st := .cancelling }
    ((s 2 (BitVec.ofNat 64 on.e2e)).serving = true ∧ (s 2 (BitVec.ofNat 64 on.e2e)).gpeOp? 0 5 = some (o 2) ∧ (o 2).bags.any (!·.done) = true
        ∧ (o 2).timer.toNat + (s 2 (BitVec.ofNat 64 on.e2e)).e2e ≤ (s 2 (BitVec.ofNat 64 on.e2e)).time.gtime.toNat ∧ (o 2).attempt ≠ 1)
      ∧ ((s 1 (BitVec.ofNat 64 on.e2e)).gpeOp? 0 5 = some (o 1) ∧ (o 1).attempt = 1)
      ∧ ((s 1 0).gpes[0]? = some { Gpe.init with ops := [o 1] } ∧ (s 1 0).gpeOp? 0 5 = some (o 1)
        ∧ (s 1 0).time.gtime.toNat < (o 1).timer.toNat + (s 1 0).e2e)
      ∧ ((running c).serving = true ∧ (running c).ctx? 3 = some c ∧ (running c).gpes[0]? = some .init ∧ c.st = .cancelling ∧ c.die = 0) := by
  decide +kernel

theorem wit_WingsStates :
    let g (st : WState) (busy : Bool) (n : Nat) : Gpe := { Gpe.init with wings := { Gpe.init.wings with st := st, invBusy := busy, reads := n } }
    let s (g : Gpe) : State := { on with gpes := on.gpes.set 7 g }
    ((s (g .on false 0)).serving = true ∧ 7 < 8 ∧ (s (g .on false 0)).gpes[7]? = some (g .on false 0))
      ∧ ((s (g .stopping false 0)).gpes[7]? = some (g .stopping false 0) ∧ (g .stopping false 0).wings.st = .stopping)
      ∧ ((s (g .starting false 0)).gpes[7]? = some (g .starting false 0) ∧ (g .starting false 0).wings.st = .starting ∧ (g .starting false 0).wings.invBusy = false)
      ∧ ((s (g .on true 0)).gpes[7]? = some (g .on true 0) ∧ (g .on true 0).wings.invBusy = true)
      ∧ (let n := 2 ^ on.regF (Reg.LKP_WINGS_CTL 7) 29 24
        (s (g .on false n)).gpes[7]? = some (g .on false n) ∧ 2 ^ (s (g .on false n)).regF (Reg.LKP_WINGS_CTL 7) 29 24 ≤ (g .on false n).wings.reads) := by
  decide +kernel

theorem wit_DomainRegisters :
    let a (o : Nat) (v : Word) : Access := ⟨0, o, 8, v⟩
    let cfg (n : Nat) : Word := BitVec.ofNat 64 (6 * 2 ^ 48 + n * 2 ^ 32 + 2 ^ 31)
    let d (s : State) : Dom := (s.doms[s.domSel]?).getD .init
    let new (n : Nat) : Nat := intoReg (a Reg.PLC_DOM_CFG (cfg n)) Reg.PLC_DOM_CFG on.plcDomCfg
    (on.barOpen = true ∧ onReg (a Reg.PLC_DOM_CFG (cfg 14)) Reg.PLC_DOM_CFG = true ∧ on.domHeld (d on) = false ∧ (new 14).testBit 31 = true ∧ fld (new 14) 36 32 = 14
        ∧ (new 18).testBit 31 = true ∧ fld (new 18) 36 32 = 18 ∧ on.bucketsUsed on.domSel + 2 ^ 18 ≤ 2 ^ 18)
      ∧ ((placed []).barOpen = true ∧ (placed [ver 3 .live]).domHeld (d (placed [ver 3 .live])) = true)
      ∧ ((new 13).testBit 31 = true ∧ fld (new 13) 36 32 = 13 ∧ (new 19).testBit 31 = true ∧ fld (new 19) 36 32 = 19)
      ∧ (3 < 4 ∧ onReg (a (Reg.PLC_DOM_MEMBERS 3) 1) (Reg.PLC_DOM_MEMBERS 3) = true ∧ on.domSel < on.doms.length ∧ ¬(64 * 3 ≤ 191 ∧ 191 < 64 * 3 + 64))
      ∧ (onReg ⟨0, Reg.PLC_DOM_MEMBERS 3 + 4, 4, 1⟩ (Reg.PLC_DOM_MEMBERS 3) = true ∧ 8 * (Reg.PLC_DOM_MEMBERS 3 + 4 - Reg.PLC_DOM_MEMBERS 0) = 224) := by
  decide +kernel

/-! Units of migration, and packets not acknowledged. -/

def mig (u : MigUnit) (st : MState) (hold : Option Word) : Mig := ⟨5, u, false, 0, 4096, st, 0, hold, [], [], none, none, false⟩

def moves (u : MigUnit) (st : MState) (hold : Option Word) : State := { placed [ver 3 .live] with migs := [mig u st hold] }

def pendOf (b : Payload) : Pend := ⟨⟨4096, 0, 8, 0, b⟩, 1, 0, false, none, none⟩

def pends (s : State) (e : Pend) : State := { s with link := { s.link with pend := [e] } }

theorem wit_MigrationSteps :
    let u : MigUnit := .row 7 1
    let c := moves u .copying none
    let t (g : Word) := later (moves u .inTransit (some 100)) g
    let d := (c.doms[0]?).getD .init
    (c.serving = true ∧ c.ownMig u .copying = some (mig u .copying none) ∧ c.unackedTo u 4096 true = [])
      ∧ ((pends c (pendOf (.rows .copy 7 3 [⟨1, []⟩]))).ownMig u .copying = some (mig u .copying none)
        ∧ (pends c (pendOf (.rows .copy 7 3 [⟨1, []⟩]))).unackedTo u 4096 true ≠ [])
      ∧ ((t 100).serving = true ∧ (t 100).ownMig u .inTransit = some (mig u .inTransit (some 100)) ∧ (100 : Word).toNat ≤ (t 100).time.gtime.toNat
        ∧ (t 99).time.gtime.toNat < (100 : Word).toNat ∧ (t 99).ownMig u .inTransit = some (mig u .inTransit (some 100)))
      ∧ ((t 99).unackedTo u 4096 false = [] ∧ (mig u .inTransit (some 100)).st = .inTransit)
      ∧ ((t 99).drainFull 0 = false)
      ∧ (let m : Mig := { mig u .draining none with change := some (.moved 7 1 4096 1 false) }
        let v : State := { c with migs := [m] }
        (v.domOf (v.unitDom u)).map (·.1) = some 0 ∧ v.migs.any (fun m => m.unit == u && m.st == .draining && m.flipEpoch.isNone) = true
          ∧ v.changePending (fun _ => true) = false ∧ c.migs.any (fun m => m.unit == u && m.st == .draining && m.flipEpoch.isNone) = false
          ∧ (pends v (pendOf (.chorus (.dir (.moved 7 1 4096 1 false))))).changePending (· == .moved 7 1 4096 1 false) = true)
      ∧ (c.doms[0]? = some d ∧ d.valid = true ∧ c.leads d = true ∧ c.elapsed d.epochAt (us 10) = true)
      ∧ (let s : State := { c with doms := c.doms.set 0 { d with members := 3 } }
        s.serving = true ∧ s.doms[0]? = some { d with members := 3 } ∧ (s.domDies { d with members := 3 }).contains 1 = true ∧ locNode 1 ≠ s.node
        ∧ (s.domDies { d with members := 3 }).contains 0 = true ∧ locNode 0 = s.node ∧ s.gpes[locDie 0]? = some .init
        ∧ s.elapsed ((Gpe.init.lowAt.find? (·.1 == 0)).map (·.2)) (us 10) = true)
      ∧ (moves (.bucket 5 0) .draining none).changePending (fun _ => true) = false := by
  decide +kernel

theorem wit_LeaderDuties :
    let s : State := placed [ver 3 .live]
    let d := (s.doms[0]?).getD .init
    let r : RepJob := ⟨7, 1, 0, 8, [1], false, false, false⟩
    let lead (d : Dom) : State := { s with doms := s.doms.set 0 d }
    (s.serving = true ∧ s.Sound ∧ 7 < 8 ∧ s.gpes[7]? = some .init ∧ (s.gpes.head?).all (fun g => s.elapsed g.hotAt (us (s.regF Reg.PLC_HOT 63 48))) = true)
      ∧ ({ s with reps := [r] } : State).reps.find? (fun r => r.handle == 7 && r.row == 1 && !r.told) = some r
      ∧ (s.table? 7 = some (tab [ver 3 .live]) ∧ s.tableDom (tab [ver 3 .live]) = some (0, d) ∧ s.leads d = true ∧ s.link.pend = [] ∧ locNode r.home = s.node)
      ∧ (r.full = false ∧ r.targets ≠ [] ∧ r.pin = false ∧ ((s.dir 0).place 7 1).any (·.kind == .held) = false
        ∧ (let g : State := { s with dirs := s.dirs.map (fun x => { x with ovr := [⟨7, 1, .held, .resident, true, false, 15, 0, 0⟩] }) }
          ((g.dir 0).place 7 1).any (·.kind == .held) = true)
        ∧ ({ r with full := true, pin := true } : RepJob).full = true ∧ ({ r with full := true, pin := true } : RepJob).pin = true)
      ∧ (let e : Dom := { d with members := 2 }
        (lead e).tableDom (tab [ver 3 .live]) = some (0, e) ∧ (lead e).leads e = false ∧ e.leader = some 1)
      ∧ s.reserveUse s.node ≤ (0 : BitVec 32).toNat % 256 * 2 ^ 30
      ∧ (s.doms[0]? = some d ∧ d.valid = true ∧ s.elapsed d.balAt s.balTicks = true ∧ s.elapsed d.mirrorAt s.balTicks = true)
      ∧ ((lead { d with members := 2 }).doms[0]? = some { d with members := 2 } ∧ (lead { d with members := 2 }).leads { d with members := 2 } = false)
      ∧ (let e : Dom := { d with members := 3, excluded := [1] }
        (lead e).doms[0]? = some e ∧ (lead e).leads e = true ∧ e.excluded.contains 1 = true ∧ (lead e).domOf e.number = some (0, e) ∧ (lead e).elapsed e.epochAt (us 10) = true)
      ∧ (on.pin.busy = false ∧ (on.table? (on.regF Reg.PLC_PIN_ROW 15 0)).bind on.tableDom = none ∧ (1 : BitVec 32).toNat % 4 = 1 ∧ (2 : BitVec 32).toNat % 4 = 2
        ∧ (3 : BitVec 32).toNat % 4 = 3)
      ∧ (let v : State := s.setRegN Reg.PLC_PIN_ROW 7
        v.regF Reg.PLC_PIN_ROW 15 0 = 7 ∧ (v.table? 7).bind v.tableDom = some (0, d) ∧ v.leads d = true)
      ∧ (let e : Dom := { d with members := 2 }
        let v : State := (lead e).setRegN Reg.PLC_PIN_ROW 7
        let w : State := { v.setRegN Reg.LNK_TOPO 3 with link := linked.link }
        (w.table? 7).bind w.tableDom = some (0, e) ∧ w.leads e = false ∧ e.leader = some 1 ∧ w.reaches (w.memberNode 1) 0)
      ∧ (let p (o : Nat) (r : Bool) : State := { on with pin := { on.pin with busy := true, outcome := o, remote := r } }
        (p ST_PLC_PIN_ARG false).pin.busy = true ∧ (p ST_PLC_PIN_ARG false).pin.outcome ≠ 0 ∧ (p 0 false).pinWaits 0 0 = false ∧ (p 0 true).pin.remote = true
          ∧ on.pin.busy = false) := by
  unfold State.Sound State.reaches; and_intros <;> decide +kernel

theorem wit_ReceiveWrite :
    let s (w : List Window) : State := { on with link := { on.link with windows := w } }
    let w : Window := ⟨0, 1, 9000, [9000]⟩
    ((s [w]).verdict 0 1 (2 ^ 31 - 1) = .apply ∧ (∀ x ∈ (s [w]).link.windows, x.high < 2 ^ 32) ∧ ¬(0 = 1 ∧ 1 = 1))
      ∧ ((⟨1, 0, 4904, 0, true⟩ : WriteHdr).linked = true ∧ (s [w]).verdict 0 1 4904 = .old ∧ (s [w]).verdict 0 1 4905 = .apply ∧ (s [w]).verdict 0 1 9000 = .again
        ∧ (s [w]).link.owed.any (·.isFor ⟨1, 0, 9000, 0, true⟩) = false
        ∧ (let o : State := { s [w] with link := { (s [w]).link with owed := [⟨⟨1, 0, 9000, 0, true⟩, 0, [], none, []⟩] } }
          o.link.owed.any (·.isFor ⟨1, 0, 9000, 1, true⟩) = true ∧ o.verdict 0 1 9000 = .again))
      ∧ (⟨1, 0, 0, 0, false⟩ : WriteHdr).linked = false := by
  decide +kernel

theorem wit_WritesApply :
    let s : State := { on with ras := { on.ras with probes := [⟨4, [], [], false, 0⟩] } }
    (on.serving = true ∧ on.node = 0 ∧ 1 ≠ on.node ∧ locNode 4096 ≠ 1 ∧ on.node < 4096 ∧ (⟨1, 0, 0, 0, true⟩ : WriteHdr).linked = true)
      ∧ (s.ras.probes.any (·.node == 4) = true ∧ on.ras.probes.any (·.node == 4) = false)
      ∧ (∃ u : State, u.rasLeader ≠ u.member ∧ u.ras.probes.any (·.node == 4) = false)
      ∧ (({ on with pair := { on.pair with proposal := some (1, 0, 0) } } : State).pair.proposal.isSome = true ∧ on.side = 0 ∧ on.pair.proposal = none)
      ∧ ({ on with pair := { on.pair with ticket := .used } } : State).pair.ticket = .used := by
  refine ⟨by decide, by decide, ⟨{ on with link := { on.link with z := 1 } }, by decide +kernel⟩, by decide⟩

theorem wit_Acknowledgements :
    let e (b : Payload) : Pend := pendOf b
    let m : WorkMsg := .zeroRefs 7 3 0
    let c : Payload := .chorus (.dir (.clearHeld 7 1))
    let s (b : Payload) (g : Word) : State := later (pends on (e b)) g
    ((s (.work m) 0).serving = true ∧ (s (.work m) 0).pend? 4096 8 = some (e (.work m))
        ∧ (∀ x ∈ (s (.work m) 0).link.pend, 0 < x.attempt → x.p.dst = 4096 → x.p.tag = 8 → x.p.gen ≠ 1))
      ∧ (ackResult 0 = true ∧ ackResult 0x10000 = true ∧ ackResult 1 = false ∧ ackResult 0xC00 = false)
      ∧ ((s c 0).answers? 4096 8 0 = some (e c) ∧ (∀ x ∈ (s c 0).link.pend, x.p.dst = 4096 → 0 < x.attempt) ∧ locNode 4096 = (s c 0).node
        ∧ (s (.work m) 0).answers? 4096 8 0 = some (e (.work m)))
      ∧ ((s (.work m) (BitVec.ofNat 64 (on.e2e - 1))).time.gtime.toNat < (e (.work m)).since.toNat + (s (.work m) (BitVec.ofNat 64 (on.e2e - 1))).e2e)
      ∧ ((e (.work m)).since.toNat + (s (.work m) (BitVec.ofNat 64 on.e2e)).e2e ≤ (s (.work m) (BitVec.ofNat 64 on.e2e)).time.gtime.toNat
        ∧ (e (.work m)).stuck = false ∧ (e (.work m)).attempt = 1)
      ∧ ({ e (.work m) with attempt := 2 } : Pend).attempt ≠ 1 := by
  decide +kernel

/-! The update feed. -/

/-- What surrounds a datagram in a whole untagged frame for address 0. -/
def whole : EthHdr := ⟨100, none, true, false, false, true, 0⟩

/-- A frame of stream 9 at port 0: its type, its count of records, its first number. -/
def frame (type n seq : Nat) : FeedFrame :=
  let h := natLE 2 0xD17A ++ [1, BitVec.ofNat 8 type] ++ natLE 2 9 ++ natLE 2 n ++ natLE 8 seq ++ natLE 8 0 ++ natLE 4 0
  ⟨0, 0, whole, false, 1, 2, on.regF Reg.FEED_CTL 15 0, .good, h ++ natLE 4 (crc32c h)⟩

def strm (next : Word) : Strm := { Strm.init with valid := true, stream := 9, port := 0, active := true, next := next }

def fed (st : FState) (x : Strm) (q : List QRec) : State :=
  { on.setRegN (Reg.NP_CTL 0) (2 ^ 31) with fports := on.fports.set 0 { FPort.init with st := st, queue := q }, strms := on.strms.set 3 x }

/-- A record of a number and an operation. -/
def rec_ (op seq : Nat) : DeltaRec := ⟨9, BitVec.ofNat 64 seq, op, 0, 0, 0, 0, 0, 0, 0, 0, 0, []⟩

theorem wit_FeedFrames :
    let s (st : FState) : State := fed st (strm 20) []
    let excess (s : State) (f : FeedFrame) : Bool := decide (2 ^ 24 < (s.rxFrame 0).holdSize 0 + (s.fport 0).bytes + f.payload.length)
    let big : State := { s .on with fports := on.fports.set 0 { FPort.init with st := .on, queue := [⟨3, 0, rec_ 1 5, 2 ^ 24, 0⟩] } }
    let other : FeedFrame := { frame 0 1 20 with dstPort := 1 }
    ((s .off).serving = true ∧ (s .off).npOn 0 = true ∧ ((s .off).fport 0).st = .off ∧ (frame 0 1 20).port < 2 ∧ (frame 0 1 20).ecc = .good
        ∧ (frame 0 1 20).dstPort = ((s .off).rxFrame 0).regF Reg.FEED_CTL 15 0 ∧ other.dstPort ≠ ((s .off).rxFrame 0).regF Reg.FEED_CTL 15 0)
      ∧ (whole.len ≤ 9216 ∧ (s .on).regB (Reg.NP_CTL 0) 29 = false ∧ whole.dstAddr = (s .on).portAddr 0 false ∧ ¬(9217 ≤ 9216) ∧ { whole with fcsOk := false }.fcsOk = false)
      ∧ ((s .on).strmFor 9 1 = none ∧ (on.strmFor (rd (frame 0 1 20).payload 4 2) 0) = none)
      ∧ ((s .on).npOn 0 = true ∧ ((s .on).fport 0).st = .on ∧ excess (s .on) (frame 0 1 20) = false ∧ feedBad (frame 0 1 20) = false
        ∧ (s .on).strmFor (rd (frame 0 1 20).payload 4 2) 0 = some 3 ∧ rd (frame 0 1 20).payload 3 1 = 0 ∧ ((s .on).strm 3).active = true)
      ∧ (feedBad (frame 1 0 20) = false ∧ rd (frame 1 0 20).payload 3 1 = 1 ∧ (s .on).strms[3]? = some (strm 20))
      ∧ (feedBad (frame 0 0 20) = true ∧ feedBad (frame 0 257 20) = true ∧ feedBad (frame 0 256 20) = false)
      ∧ (big.serving = true ∧ big.npOn 0 = true ∧ excess big (frame 0 1 20) = true)
      ∧ ((rec_ 1 19).seq.toNat < (strm 20).next.toNat ∧ (rec_ 1 20).seq = (strm 20).next ∧ (strm 20).held = [] ∧ (strm 20).next.toNat < (rec_ 1 21).seq.toNat
        ∧ 0 < (s .on).fports.length ∧ (s .on).holdBytes 0 + 64 ≤ (s .on).holdSize 0) := by
  decide +kernel

theorem wit_FeedIngest :
    let q (op : Nat) : QRec := ⟨3, 0, rec_ op 19, 32, 0⟩
    let s (op : Nat) : State := fed .on (strm 20) [q op]
    let waiting : State := pends (s 1) { pendOf (.delta (rec_ 1 18)) with attempt := 2, rec_ := some (3, 18) }
    let turn : State := { fed .on (strm 20) [{ q 1 with ord := 1 }] with
      fports := (on.fports.set 0 { FPort.init with st := .on, queue := [{ q 1 with ord := 1 }] }).set 1 { FPort.init with st := .on, queue := [q 1] } }
    let paused (b : Bool) : State := { s 1 with fports := on.fports.set 0 { FPort.init with st := .stopping, paused := b } }
    let mark : State := fed .on { strm 20 with marks := [19] } []
    let gap (g : Word) (now : Word) : State := later (fed .on { strm 20 with gap := some g, held := [(0, rec_ 1 25, 32)] } []) now
    let r : DeltaRec := { rec_ 1 19 with handle := 7, row := 1, nelem := 8, len := 16, payload := List.replicate 16 0 }
    let f : State := { placed [ver 3 .live] with fports := on.fports.set 0 { FPort.init with st := .on, queue := [⟨3, 0, r, 48, 0⟩] }, strms := on.strms.set 3 (strm 20) }
    ((waiting.fport 0).queue = [q 1] ∧ waiting.mayIngest 3 (rec_ 1 19) = false ∧ waiting.serving = true)
      ∧ ((turn.fport 0).queue = [{ q 1 with ord := 1 }] ∧ turn.outOfTurn { q 1 with ord := 1 } = true)
      ∧ (((s 6).fport 0).queue = [q 6] ∧ (s 6).outOfTurn (q 6) = false ∧ (s 6).mayIngest 3 (rec_ 6 19) = true ∧ (s 6).strms[3]? = some (strm 20)
        ∧ (strm 20).forwards = false ∧ markOk (rec_ 6 19) = true)
      ∧ (((s 1).fport 0).queue = [q 1] ∧ (s 1).outOfTurn (q 1) = false ∧ (s 1).mayIngest 3 (rec_ 1 19) = true ∧ (rec_ 1 19).op ≠ 6
        ∧ (s 1).table? (rec_ 1 19).handle = none)
      ∧ ((f.fport 0).queue = [⟨3, 0, r, 48, 0⟩] ∧ f.outOfTurn ⟨3, 0, r, 48, 0⟩ = false ∧ f.mayIngest 3 r = true ∧ f.strms[3]? = some (strm 20) ∧ r.op ≠ 6
        ∧ f.recordStatus r = (ST_OK, some (tab [ver 3 .live]))
        ∧ (f.applyPoint 0 (tab [ver 3 .live]) (tab [ver 3 .live]).vslot r.row).isSome = true)
      ∧ ((s 1).fport 1).queue = []
      ∧ (((paused true).fport 0).paused = true ∧ ((paused true).fport 0).st = .stopping ∧ (paused true).elapsed ((paused true).fport 0).xoffAt (us 20) = true ∧ ((paused false).fport 0).paused = false)
      ∧ (mark.strms[3]? = some { strm 20 with marks := [19] } ∧ (mark.undone 3).any (fun q => decide (q.toNat < 19)) = false)
      ∧ (((gap 5 (BitVec.ofNat 64 (5 + us 100))).strm 3).gap = some 5 ∧ 5 + us ((gap 5 0).strm 3).gapUs ≤ (gap 5 (BitVec.ofNat 64 (5 + us 100))).time.gtime.toNat
        ∧ (gap 5 (BitVec.ofNat 64 (4 + us 100))).time.gtime.toNat < 5 + us ((gap 5 0).strm 3).gapUs
        ∧ (gap 5 0).strms[3]? = some { strm 20 with gap := some 5, held := [(0, rec_ 1 25, 32)] })
      ∧ (((s 1).strm 3).valid = true ∧ (s 1).ackFields 3 ≠ ((s 1).strm 3).lastAck ∧ ((fed .on { strm 20 with lastPort := 1 } [q 1]).strm 3).lastPort < 2 ∧ (s 1).paused 1 (s 1).feedPrio = false ∧ (s 1).net.held = []
        ∧ ({ s 1 with net := { (s 1).net with paused := [(1, (s 1).feedPrio, 10)] } } : State).paused 1 (s 1).feedPrio = true ∧ (s 1).elapsed ((s 1).strm 3).ackAt (us ((s 1).strm 3).ackUs) = true
        ∧ ((fed .on { strm 20 with gap := some 5 } []).strm 3).gap.isSome = true ∧ 2 ≤ ((fed .on { strm 20 with lastPort := 2 } [q 1]).strm 3).lastPort)
      ∧ (let a : State := fed .on { strm 20 with lastAck := (s 1).ackFields 3 } [q 1]
        a.ackFields 3 = (a.strm 3).lastAck ∧ a.serving = true)
      ∧ (((s 1).strm 3).gap = none) := by
  and_intros <;> decide +kernel

theorem wit_UpdatesArrive :
    let s : State := placed [ver 3 .live]
    let h : WriteHdr := ⟨1, 0, 5, 0, false⟩
    let r (target : Nat) : DeltaRec := ⟨9, 20, 1, 0, 7, target, 1, 0, 0, 8, 16, 0, List.replicate 16 0⟩
    (s.serving = true ∧ s.migs = [] ∧ 3 < 4 ∧ 4 ≤ 4)
      ∧ (s.table? (r 0).handle = some (tab [ver 3 .live]) ∧ (tab [ver 3 .live]).live = some (ver 3 .live) ∧ (r 0).target = 0 ∧ s.rowLost (tab [ver 3 .live]) 3 1 = false
        ∧ ((tab [ver 3 .live]).applyOp (s.rowAt 0 7 3 1) (r 0)).isSome = true
        ∧ ((s.setImage 0 7 3 1 (List.replicate 16 0)).noteHeat 0 7 1 0 1).forwardTo 0 (tab [ver 3 .live]) 3 1 = [])
      ∧ ((r 2).target ≠ 0 ∧ (r 2).target ≠ (ver 3 .live).num)
      ∧ (s.strmFor 9 3 = none ∧ h.linked = false ∧ s.link.owed.any (·.isFor h) = false)
      ∧ (let x : Strm := { strm 20 with port := 3 }
        let u := fed .on x []
        let w := (u.modStrm 3 (fun x => { x with lastPort := 3 })).feedRecord 0 3 { r 0 with seq := 19 } 40
        let v := (u.modStrm 3 (fun x => { x with lastPort := 3 })).feedRecord 0 3 (r 0) 40
        u.strmFor 9 3 = some 3 ∧ (u.strm 3).active = true ∧ w.recordDone 3 19 = true ∧ v.recordDone 3 20 = false
          ∧ ((fed .on { x with active := false } []).strm 3).active = false ∧ u.strms[3]? ≠ none) := by
  decide +kernel

theorem wit_PairTickets :
    let p (f : Pair → Pair) (now : Word) : State := later { on with pair := f on.pair } now
    let prop (now : Word) : State := p (fun x => { x with proposal := some (4, 900, 50) }) now
    let armed (now : Word) : State := p (fun x => { x with ticket := .armed, at_ := 100 }) now
    let own (now : Word) : State := p (fun x => { x with own := some ⟨[], 0, 0⟩, ownAt := 100 }) now
    let x : Strm := { strm 20 with pairFwd := true, twin := [19], twinAt := some 100 }
    (on.serving = true ∧ (0 : BitVec 32).getLsbD 31 = false ∧ (0x80000000 : BitVec 32).getLsbD 31 = true)
      ∧ ((prop 200050).pair.proposal = some (4, 900, 50) ∧ (5 : Nat) ≠ 4 ∧ (50 : Word).toNat + 200000 ≤ (prop 200050).time.gtime.toNat
        ∧ (prop 200049).time.gtime.toNat < (50 : Word).toNat + 200000 ∧ (prop 200049).serving = true)
      ∧ ((armed 4000100).pair.ticket = .armed ∧ (armed 4000100).pair.at_.toNat + 4000000 ≤ (armed 4000100).time.gtime.toNat ∧ (armed 4000100).pair.twin = none ∧ on.pair.ticket ≠ .armed)
      ∧ ((own 8000100).pair.own.isSome = true ∧ (own 8000100).pair.twin = none ∧ (own 8000100).pair.result ≠ 3 ∧ (own 8000100).pair.ownAt.toNat + 8000000 ≤ (own 8000100).time.gtime.toNat)
      ∧ ((fed .on x []).strms[3]? = some x ∧ x.forwards = true ∧ x.twin ≠ [] ∧ x.twinAt = some 100
        ∧ (100 : Word).toNat + us x.gapUs ≤ (later (fed .on x []) 4000000).time.gtime.toNat ∧ (later (fed .on x []) 4000000).strms[3]? = some x) := by
  decide +kernel

theorem wit_FeedControl :
    let st (x : FState) (q : List QRec) : State := fed x (strm 20) q
    let skid (n v : Nat) : Access := ⟨0, Reg.FEED_SKID 0, n, BitVec.ofNat 64 v⟩
    let cfg (v : Nat) : Access := ⟨0, Reg.FEED_STRM_CFG, 8, BitVec.ofNat 64 v⟩
    let sel (n : Nat) : State := (st .on []).setRegN Reg.FEED_STRM_SEL n
    ((st .on []).serving = true ∧ 0 < 2 ∧ (st .on []).fports.length = 2)
      ∧ (((st .stopping []).fport 0).st = .stopping ∧ ((st .stopping []).fport 0).queue = [] ∧ ((st .stopping [⟨3, 0, rec_ 1 5, 32, 0⟩]).fport 0).queue ≠ [])
      ∧ (((st .starting []).fport 0).st = .starting ∧ ((st .starting []).fport 0).pendDisable = false)
      ∧ (onReg (skid 4 0) (Reg.FEED_SKID 0) = true ∧ onReg ⟨0, Reg.FEED_SKID 0 + 4, 4, 0⟩ (Reg.FEED_SKID 0) = true ∧ onReg (skid 8 0) (Reg.FEED_SKID 0) = true ∧ ((st .on []).fport 0).st ≠ .off ∧ ((st .off []).fport 0).st = .off
        ∧ 1024 + max 4 (min 32 0) * 256 + (100 * (10 * 0 + 0 + 300) + 18496 + 4095) / 4096 * 4 ≤ 16384)
      ∧ (onReg (cfg (2 ^ 63 + 7 * 2 ^ 32)) Reg.FEED_STRM_CFG = true ∧ (sel 0).strms[(sel 0).strmSel]? = some .init ∧ Strm.init.valid = false
        ∧ (intoReg (cfg (2 ^ 63 + 7 * 2 ^ 32)) Reg.FEED_STRM_CFG Strm.init.cfg).testBit 63 = true
        ∧ (sel 0).strms.any (fun z => z.valid && z.stream == intoReg (cfg (2 ^ 63 + 7 * 2 ^ 32)) Reg.FEED_STRM_CFG Strm.init.cfg / 2 ^ 32 % 65536) = false)
      ∧ ((strm 20).stream = 9 ∧ (strm 20).stream ≠ 7)
      ∧ ((sel 3).strms[(sel 3).strmSel]? = some (strm 20) ∧ (strm 20).valid = true ∧ (strm 20).withCfg (intoReg (cfg (strm 20).cfg) Reg.FEED_STRM_CFG (strm 20).cfg) = strm 20
        ∧ (intoReg (cfg (strm 20).cfg) Reg.FEED_STRM_CFG (strm 20).cfg).testBit 63 = true)
      ∧ (let a : Access := ⟨0, Reg.FEED_STRM_CFG + 4, 4, BitVec.ofNat 64 ((strm 20).cfg / 2 ^ 32 - 2 ^ 31)⟩
        let v := intoReg a Reg.FEED_STRM_CFG (strm 20).cfg
        onReg a Reg.FEED_STRM_CFG = true ∧ v.testBit 63 = false ∧ (strm 20).withCfg v = strm 20
        ∧ (let b : Access := ⟨0, Reg.FEED_STRM_CFG, 4, 0⟩
          onReg b Reg.FEED_STRM_CFG = true ∧ (intoReg b Reg.FEED_STRM_CFG Strm.init.cfg).testBit 63 = false)) := by
  decide +kernel

/-! Rings and curtains. -/

/-- Ring 2 of a launch on one cluster: 4 slots of 64 bytes, produced and consumed by its program. -/
def ring (pacq pub cacq rel : BitVec 32) : Ring :=
  ⟨2, 1024, 64, 4, 0, 0, 0, 0, 0, 0, 0, 0, pacq, pub, cacq, rel, rel.toNat, List.replicate (pub - rel).toNat ⟨16, false⟩, false, false, 0, 0, 0, none⟩

theorem wit_RingOrder :
    let good (x : Ring) : Prop := x.pubs.length = (x.pub - x.rel).toNat ∧ (x.cacq - x.rel).toNat ≤ (x.pub - x.rel).toNat
      ∧ (x.pub - x.rel).toNat ≤ (x.pacq - x.rel).toNat ∧ (x.pacq - x.rel).toNat ≤ x.slots
    let ok (x : RingRes) : Bool := match x with
      | .ok _ _ _ _ => true
      | _ => false
    let r := ring 0 0xFFFFFFFE 0xFFFFFFFD 0xFFFFFFFD
    (r.slots < 2 ^ 31 ∧ good r ∧ ok r.acqProd = true ∧ ok (r.publish 64 false) = true ∧ ok r.acqCons = true)
      ∧ (good (ring 0 0xFFFFFFFE 0xFFFFFFFE 0xFFFFFFFD) ∧ ok (ring 0 0xFFFFFFFE 0xFFFFFFFE 0xFFFFFFFD).release = true)
      ∧ (good (ring 3 3 3 0) ∧ (ring 3 3 3 0).acqCons = .wait)
      ∧ (let z : Ring := { ring 3 3 3 0 with endPub := true, endLast := true }
        good z ∧ z.acqCons = .endInd ∧ z.endPub = true) := by
  decide +kernel

/-- A launch with a ring and two curtains. -/
def synced (r : Ring) (k : ClCtx) : Ctx := { withShare k with rings := [r], curtains := [⟨0, 2, 4, 0⟩, ⟨0, 1, 4, 0⟩] }

/-- An engine instruction that runs. -/
def eop (cls : EClass) (kind : EKind) : EngOp := { (site share).op on cls kind {} [] [] with id := 11 }

theorem wit_RingInstructions :
    let a (r : Ring) (k : ClCtx) : Site := ⟨synced r k, k⟩
    let s (r : Ring) (k : ClCtx) : State := running (synced r k)
    let k := reg2 0 64
    let busy : ClCtx := { k with running := [eop .arr .mma] }
    let i (fn : BitVec 8) : BWord := { d := 3, a := 2, b := 2, c := 1, fn := fn }
    let z : Ring := { ring 3 3 3 0 with endPub := true, endLast := true }
    ((s (ring 0 0 0 0) k).issues 0 (i 0) [3] (a (ring 0 0 0 0) k) ∧ (synced (ring 0 0 0 0) k).sideOf 0 2 false 0 = some (ring 0 0 0 0) ∧ (s (ring 0 0 0 0) k).ringFree (a (ring 0 0 0 0) k) = true
        ∧ (ring 0 0 0 0).acqProd = .ok (ring 1 0 0 0) 0 0 false)
      ∧ ((s (ring 4 1 0 0) k).issues 0 (i 1) [3] (a (ring 4 1 0 0) k) ∧ (synced (ring 4 1 0 0) k).sideOf 0 2 true 0 = some (ring 4 1 0 0)
        ∧ (ring 4 1 0 0).acqCons = .ok (ring 4 1 1 0) 0 16 false ∧ (ring 4 1 0 0).acqProd = .wait)
      ∧ ((s (ring 4 1 1 0) k).issues 0 (i 3) [3] (a (ring 4 1 1 0) k) ∧ (ring 4 1 1 0).acqCons = .wait ∧ (i 3).fn.getLsbD 1 = true ∧ (i 1).fn.getLsbD 1 = false)
      ∧ ((s z k).issues 0 (i 1) [3] (a z k) ∧ (synced z k).sideOf 0 2 true 0 = some z ∧ z.acqCons = .endInd ∧ (synced z k).sideOf 0 2 false 0 = some z ∧ z.acqProd = .bad)
      ∧ ((s (ring 0 0 0 0) k).issues 0 { a := 5 } [0] (a (ring 0 0 0 0) k) ∧ (synced (ring 0 0 0 0) k).sideOf 0 5 false 0 = none)
      ∧ ((s (ring 1 0 0 0) k).issues 0 (i 0) [2] (a (ring 1 0 0 0) k) ∧ k.running = [] ∧ (s (ring 1 0 0 0) k).queueLen 0 .ring = 0 ∧ ((s (ring 1 0 0 0) k).ringPublish 3 2 64 false).isSome = true
        ∧ (s (ring 0 0 0 0) k).ringPublish 3 2 64 false = none ∧ (s (ring 1 0 0 0) k).ringPublish 3 2 65 false = none)
      ∧ ((s (ring 1 0 0 0) busy).issues 0 (i 0) [2] (a (ring 1 0 0 0) busy) ∧ busy.running ≠ []
        ∧ (s (ring 1 0 0 0) busy).takes (a (ring 1 0 0 0) busy) ((a (ring 1 0 0 0) busy).op (s (ring 1 0 0 0) busy) .ring .rpub (i 0) [] [])
        ∧ (s (ring 1 0 0 0) busy).takes (a (ring 1 0 0 0) busy) ((a (ring 1 0 0 0) busy).op (s (ring 1 0 0 0) busy) .ring .rrel (i 0) [] []))
      ∧ ((s (ring 4 1 1 0) k).issues 0 (i 0) [] (a (ring 4 1 1 0) k) ∧ (synced (ring 4 1 1 0) k).ring? 2 = some (ring 4 1 1 0)
        ∧ (ring 4 1 1 0).release = .ok (ring 4 1 1 1) 0 0 false)
      ∧ (let two : ClCtx := { k with running := [eop .ring .rpub, eop .ring .rpub] }
        let m (n : Nat) : ClCtx := { k with running := List.replicate n (eop .vec .vred) }
        let q (n : Nat) : ClCtx := { k with running := List.replicate n (eop .ring .rpub) }
        let r := ring 0 0 0 0
        (s r (m 32)).issues 0 (i 0) [3] (a r (m 32)) ∧ 32 ≤ (m 32).running.length ∧ ((synced r (m 32)).sideOf 0 2 false 0).isSome = true
        ∧ (s r (q 8)).issues 0 (i 0) [3] (a r (q 8)) ∧ (q 8).running.length < 32 ∧ 8 ≤ (s r (q 8)).queueLen 0 .ring
        ∧ (s r two).issues 0 (i 2) [3] (a r two) ∧ 0 < (s r two).queueLen 0 .ring ∧ (s r two).queueLen 0 .ring < 8 ∧ (s r two).ringFree (a r two) = false) := by
  unfold State.issues State.takes; and_intros <;> decide +kernel

theorem wit_CurtainInstructions :
    let k (g : Option Nat) : ClCtx := { reg2 0 64 with arrived := [g, none] }
    let r := ring 4 1 1 0
    let a (k : ClCtx) : Site := ⟨synced r k, k⟩
    let s (k : ClCtx) : State := running (synced r k)
    let i (fn : BitVec 8) : BWord := { d := 3, a := 2, fn := fn }
    (0 < (⟨0, 2, 4, 1⟩ : Curtain).expect ∧ (⟨0, 2, 4, 1⟩ : Curtain).count < 2 ∧ (1 : Nat) + 1 = 2 ∧ (0 : Nat) + 1 < 2)
      ∧ ((s (k none)).issues 0 (i 7) [] (a (k none)) ∧ (synced r (k none)).curtain? (fnFld (i 7) 2 0) = none)
      ∧ ((s (k (some 3))).issues 0 (i 0) [] (a (k (some 3))) ∧ (synced r (k (some 3))).curtain? (fnFld (i 0) 2 0) = some ⟨0, 2, 4, 0⟩ ∧ (i 0).fn.getLsbD 3 = false
        ∧ (k (some 3)).running = [] ∧ (s (k (some 3))).queueLen 0 .ring = 0 ∧ (k (some 3)).lastGen 0 ≠ some 4 ∧ (4 : Nat) ≠ (k (some 3)).waitGen 0 ⟨0, 2, 4, 0⟩)
      ∧ ((s (k none)).issues 0 (i 8) [] (a (k none)) ∧ (i 8).fn.getLsbD 3 = true ∧ (synced r (k none)).curtain? (fnFld (i 8) 2 0) = some ⟨0, 2, 4, 0⟩ ∧ (k none).wait = none
        ∧ (synced r (k none)).curtain? (fnFld (i 9) 2 0) = some ⟨0, 1, 4, 0⟩)
      ∧ ((s (k (some 4))).ringFree (a (k (some 4))) = true ∧ (k (some 4)).waitGen 0 ⟨0, 2, 4, 0⟩ = 4 ∧ (s (k (some 4))).issues 0 (i 0) [] (a (k (some 4))))
      ∧ ((s (k none)).issues 0 (i 0) [3] (a (k none)) ∧ (synced r (k none)).ring? 2 = some r) := by
  unfold State.issues; decide +kernel

theorem wit_DueSlotsAndStalls :
    let r (mode : Nat) : Ring := { ring 0 0 0 0 with mode := mode, period := 100, lead := 50 }
    let s (mode : Nat) (g : Word) : State := later (running (synced (r mode) share)) g
    let k : ClCtx := { share with wait := some (.racq 2 true) }
    let c : Ctx := { synced (ring 0 0 0 0) k with stallClock := 2 ^ 40 }
    let w (pol : Nat) : State := (running c).setRegN Reg.RING_POLICY pol
    ((s 2 50).serving = true ∧ (s 2 50).ctx? 3 = some (synced (r 2) share) ∧ (synced (r 2) share).ring? 2 = some (r 2) ∧ (synced (r 2) share).st = .running
        ∧ (r 2).mode ≠ 0 ∧ (r 2).due 0 0 ≤ (s 2 50).time.gtime.toNat ∧ (s 2 49).time.gtime.toNat < (r 2).due 0 0 ∧ (r 2).published 0 = false ∧ (r 2).endPub = false)
      ∧ (s 2 50).stalls (synced (r 2) share) = false
      ∧ ((w 0).Sound ∧ (w 0).ctx? 3 = some c ∧ (w 0).stalls c = true ∧ (w 0).regB Reg.RING_POLICY 1 = false ∧ (w 2).regB Reg.RING_POLICY 1 = true
        ∧ (w 2).stalls c = true ∧ c.slot = 1 ∧ c.id = 3 ∧ c.status = none) := by
  unfold State.Sound; decide +kernel

theorem wit_ControlInstructions :
    let busy : ClCtx := { share with running := [eop .vec .vred] }
    let c : Ctx := { withShare busy with st := .cancelling }
    ((run share).issues 0 {} [] (site share) ∧ share.running.any (fun o => fenceNames 31 o.cls) = false ∧ share.computing = false ∧ ctx.deadline = 0
        ∧ (run share).ctxs.all (fun d => d.id == 3) = true ∧ share.running = [])
      ∧ ((run busy).issues 0 { fn := 2 } [] (site busy) ∧ busy.running.any (fun o => fenceNames (fnFld { fn := 2 } 4 0) o.cls) = true ∧ busy.computing = true ∧ busy.running ≠ [])
      ∧ ((withShare share).cls.all (fun k => k.cl == 0 || k.exited) = true ∧ ((withShare share).cls.map (·.cl)).Nodup)
      ∧ ((running c).serving = true ∧ (running c).ctx? 3 = some c ∧ c.st = .cancelling ∧ c.on? 0 = some busy ∧ (run share).ctx? 3 = some (withShare share) ∧ (withShare share).st ≠ .cancelling)
      ∧ ((run share).site? 0 = some (site share) ∧ (run share).site? 1 = none) := by
  unfold State.issues; decide +kernel

theorem wit_EngineEnds :
    let k (l : List EngOp) : ClCtx := { share with running := l }
    let o := eop .vec .vred
    let first : EngOp := { o with id := 5 }
    let x : Xfer := ⟨0, 0, 0, 0, 0, 0, false, 64, [], [], [], 256, 512, 0, 64, 0⟩
    let m : EngOp := { eop .te .move with xfer := some x }
    let y : Xfer := { x with src := 4 }
    let n : EngOp := { m with xfer := some y }
    let c : Ctx := { withShare (k [n]) with st := .cancelling }
    ((running c).eng? 0 3 11 = some (⟨c, k [n]⟩, n) ∧ n.xfer = some y ∧ c.st = .cancelling ∧ y.src = 4 ∧ (running c).isHead 0 n = true ∧ (running c).opAt 11 = some (0, 3)
        ∧ (running c).copy? 11 = none ∧ (withShare (k [m])).st ≠ .cancelling)
      ∧ ((run (k [o])).serving = true ∧ (run (k [o])).eng? 0 3 11 = some (site (k [o]), o) ∧ (run (k [o])).isHead 0 o = true)
      ∧ ((run (k [first, o])).eng? 0 3 11 = some (site (k [first, o]), o) ∧ (run (k [first, o])).isHead 0 o = false)
      ∧ (o.out = none ∧ (run (k [o])).engStat (site (k [o])) o ≠ ST_OK)
      ∧ ((run (k [m])).eng? 0 3 11 = some (site (k [m]), m) ∧ m.xfer = some x ∧ (run (k [m])).copy? 11 = none ∧ (run (k [m])).opAt 11 = some (0, 3) ∧ (run (k [m])).isHead 0 m = true
        ∧ m.status = ST_OK ∧ m.failed = none ∧ x.mark < x.runs ∧ ({ x with mark := 1 } : Xfer).runs ≤ 1) := by
  decide +kernel

theorem wit_ChecksFail :
    let k (o : EngOp) : ClCtx := { share with running := [o] }
    let s (o : EngOp) : State := run (k o)
    let q : OwnReq := { req 9 with bags := [⟨2, some 1, [], 0, 0, false, []⟩] }
    let w : State := { placed [ver 3 .live] with reqs := [q] }
    ((s (eop .arr .mma)).serving = true ∧ 0 < 128 ∧ (s (eop .arr .mma)).eng? 0 3 11 = some (site (k (eop .arr .mma)), eop .arr .mma) ∧ 7 < 8)
      ∧ ((s (eop .sfu .sfn)).eng? 0 3 11 = some (site (k (eop .sfu .sfn)), eop .sfu .sfn) ∧ (eop .sfu .sfn).onSfu = true ∧ (eop .vec .vred).cls = .vec)
      ∧ ((s (eop .arr .mma)).nextArray 0 7 = some 0)
      ∧ ((s (eop .te .move)).eng? 0 3 11 = some (site (k (eop .te .move)), eop .te .move) ∧ (eop .te .move).cls = .te)
      ∧ (w.serving = true ∧ w.req? 0 0 3 5 = some q ∧ q.bags.find? (·.bag == 2) = some ⟨2, some 1, [], 0, 0, false, []⟩ ∧ w.table? 7 = some (tab [ver 3 .live])
        ∧ (tab [ver 3 .live]).ver? 3 = some (ver 3 .live)) := by
  decide +kernel

/-! Queues, scripts, launches and the host. -/

/-- The part with both host ports up, and a translation of 1 GiB on port 0. -/
def hosted (s : State) : State :=
  { s with host := { s.host with
      ports := s.host.ports.map (fun p => { p with up := true, ats := true, pri := true, pasid := true })
      xlats := [⟨none, 0, 0, 0, 30, 0, true, true⟩] } }

def qs (q : QSlot) : State := { hosted ((on.setRegN (Reg.Q_CFG 0) (6 * 2 ^ 39 + 6 * 2 ^ 34)).setRegN (Reg.Q_INTMOD 0) (2 ^ 16)) with slots := on.slots.set 0 q }

theorem wit_QueueSlots :
    let q (st : QState) : QSlot := { QSlot.init with st := st }
    let cfg (n : Nat) : Access := ⟨0, Reg.Q_CFG 0, n, 5⟩
    let d : QSlot := { q .on with doorbell := 3, fetched := 1 }
    let stop (ab : Bool) : QSlot := { q .stopping with destroy := some ⟨ab, 0, 0, 0, 0, 0, 0, 0, 0, 0⟩ }
    ((qs (q .off)).barOpen = true ∧ 0 < 9 ∧ (qs (q .off)).slots[0]? = some (q .off) ∧ (0x80000000 : BitVec 32).getLsbD 31 = true ∧ (0xC0000000 : BitVec 32).getLsbD 30 = true
        ∧ (0x40000000 : BitVec 32).getLsbD 31 = false)
      ∧ ((qs (q .starting)).slots[0]? = some (q .starting) ∧ (qs (q .starting)).serving = true ∧ (q .starting).pendDisable = false ∧ (qs (q .starting)).slotValid 0 = true
        ∧ ((qs (q .starting)).setRegN (Reg.Q_CFG 0) 0).slotValid 0 = false)
      ∧ ((qs (q .on)).slots[0]? = some (q .on) ∧ cfgTarget (cfg 4) = some (0, Reg.Q_CFG 0) ∧ cfgTarget (cfg 8) = some (0, Reg.Q_CFG 0)
        ∧ cfgTarget ⟨0, Reg.Q_CFG 0 + 4, 4, 5⟩ = some (0, Reg.Q_CFG 0))
      ∧ ((qs (stop false)).slots[0]? = some (stop false) ∧ (stop true).aborting = true)
      ∧ ((qs d).slots[0]? = some d ∧ (3 : BitVec 32) = d.doorbell ∧ 2 ^ 31 ≤ ((2 : BitVec 32) - d.doorbell).toNat)
      ∧ ((65 : BitVec 32) ≠ d.doorbell ∧ ((65 : BitVec 32) - d.doorbell).toNat < 2 ^ 31 ∧ ((65 : BitVec 32) - d.fetched).toNat ≤ 2 ^ (qs d).sqLog2 0
        ∧ 2 ^ (qs d).sqLog2 0 < ((66 : BitVec 32) - d.fetched).toNat ∧ d.error = false ∧ ((qs d).memOk && (qs d).shapeOk) = true)
      ∧ ((⟨2, 4, 4, 0⟩ : Access).off / 0x10000 = 0 ∧ ¬(isDoorbell true ⟨2, 4, 4, 0⟩ = true ∧ (q .on).st = .on)) := by
  and_intros <;> decide +kernel

/-- The same entry with a good CRC and the phase of the first round. -/
def good (e : Bytes) : Bytes := [e.getD 0 0, 1] ++ natLE 2 (crc16 (e.drop 4)) ++ e.drop 4

theorem wit_EntryFetch :
    let q : QSlot := { QSlot.init with st := .on, doorbell := 3 }
    let torn (r : Nat) : QSlot := { q with torn := some (0, r) }
    let e := good (entry 5 [])
    ((qs q).serving = true ∧ (qs q).slots[0]? = some q ∧ q.fetches = true ∧ e.length = 64 ∧ q.torn = none ∧ (qs q).noteDirect.direct = false ∧ q.waiting.length < 64
        ∧ ((qs q).noteDirect.access (.fetch 0) ((qs q).qPort 0) ((qs q).qPasid 0) ((qs q).entryAddr 0 0) 64 false).1 = .ok)
      ∧ (entryGood e 0 ((qs q).sqLog2 0) = true ∧ entryGood (entry 5 []) 0 ((qs q).sqLog2 0) = false)
      ∧ ((qs (torn 15)).slots[0]? = some (torn 15) ∧ (torn 15).fetches = true ∧ (qs (torn 15)).elapsed (torn 15).tornAt 2000 = true
        ∧ ((qs (torn 15)).access (.fetch 0) ((qs q).qPort 0) ((qs q).qPasid 0) ((qs q).entryAddr 0 0) 64 false).1 = .ok ∧ 14 < 15) := by
  and_intros <;> decide +kernel

theorem wit_QueueCommands :
    let s (op : Nat) (a : Bytes) : State := waits (placed [ver 3 .live]) (entry op a)
    let adm (op : Nat) (a : Bytes) : Prop := (s op a).admits 0 op 1 (entry op a) (qOn (entry op a)) []
    let c : Cmd := ⟨1, 0, 5, [], none, 0, 0, none, [], ⟨[], none⟩⟩
    (adm 3 [] ∧ adm 5 [] ∧ adm 0x7F [] ∧ 0x7F ∉ opcodes ∧ adm 2 (natLE 8 0 ++ natLE 16 0 ++ natLE 8 64) ∧ copyBad (entry 2 (natLE 8 0 ++ natLE 16 0 ++ natLE 8 64)) = false)
      ∧ (adm 4 [3, 0, 7, 0] ∧ hdrZero (entry 4 [3, 0, 7, 0]) = true ∧ rd (argsOf (entry 4 [3, 0, 7, 0])) 1 1 = 0 ∧ allZero (slice (argsOf (entry 4 [3, 0, 7, 0])) 4 36) = true
        ∧ rd (argsOf (entry 4 [3, 0, 7, 0])) 0 1 = 3 ∧ (s 4 [3, 0, 7, 0]).table? 7 = some (tab [ver 3 .live]) ∧ (tab [ver 3 .live]).live = some (ver 3 .live)
        ∧ ((s 4 [3, 0, 8, 0]).table? 8).bind (·.live) = none)
      ∧ (adm 4 [0, 0, 7, 0] ∧ (s 4 [0, 0, 7, 0]).current 7 = none ∧ (running ctx).current 7 = some edition ∧ adm 4 [4, 0, 0, 0] ∧ 4 ≤ rd (argsOf (entry 4 [4, 0, 0, 0])) 0 1)
      ∧ ((qs { qOn [] with cmds := [c] }).slots[0]? = some { qOn [] with cmds := [c] } ∧ [c].find? (·.n == 1) = some c ∧ c.status = none) := by
  unfold State.admits; and_intros <;> decide +kernel

theorem wit_CompletionRecords :
    let c : Cmd := ⟨1, 0, 5, [], some 0, 0, 9, none, [], ⟨[], none⟩⟩
    let q (l : List Cmd) : QSlot := { QSlot.init with st := .on, cmds := l, fence := some 1 }
    let d : Destroy := ⟨false, 0, 0, 0, 0, 0, 0, 0, 0, 0⟩
    let z : QSlot := { QSlot.init with st := .stopping, destroy := some d }
    ((qs (q [c])).barOpen = true ∧ (qs (q [c])).slots[0]? = some (q [c]) ∧ [c].find? (fun c => c.n == 1 && c.status.isSome) = some c ∧ c.op ≠ 1 ∧ (q [c]).deaf = false
        ∧ [c].any (fun d => d.status.isSome && decide (d.finish.toNat < c.finish.toNat)) = false
        ∧ [c].length + (q [c]).unconsumed ≤ 2 ^ (qs (q [c])).cqLog2 0 ∧ (qs (q [c])).scopeClear scopePath c.wrote = true
        ∧ ((qs (q [c])).access (.record 0) 0 0 ((qs (q [c])).regN (Reg.Q_CQBASE 0)) 32 true).1 = .ok)
      ∧ (let y : Cmd := { c with op := 2, entry := entry 2 [], wrote := ⟨[⟨0, 64⟩], some 0x1000⟩ }
        let w : State := { qs (q [y]) with mem := { on.mem with dirLines := [0] } }
        w.recordDue 0 y = true ∧ y.op = 2 ∧ LEnt.scope y.entry ≠ scopePath ∧ w.scopeClear (LEnt.scope y.entry) y.wrote = false ∧ (qs (q [y])).scopeClear (LEnt.scope y.entry) y.wrote = true)
      ∧ (let l : List Cmd := c :: List.replicate 64 { c with n := 2 }
        c.entry = [] ∧ 2 ^ (qs (q l)).cqLog2 0 < l.length + (q l).unconsumed)
      ∧ ([c, { c with n := 2, finish := 8 }].any (fun d => d.status.isSome && decide (d.finish.toNat < c.finish.toNat)) = true)
      ∧ ((qs { q [c] with unsignalled := 1 }).slots[0]? = some { q [c] with unsignalled := 1 } ∧ (qs (q [c])).regF (Reg.Q_INTMOD 0) 31 16 ≠ 0 ∧ (q [c]).unsignalled = 0
        ∧ (qs { q [c] with unsignalled := 1 }).elapsed (q [c]).since (us ((qs (q [c])).regF (Reg.Q_INTMOD 0) 31 16)) = true)
      ∧ (let w : QSlot := { q [c] with unsignalled := 1, since := some 0 }
        (qs w).slots[0]? = some w ∧ w.since = some 0 ∧ (qs w).time.gtime.toNat < (0 : Word).toNat + us ((qs w).regF (Reg.Q_INTMOD 0) 31 16))
      ∧ ((qs z).slots[0]? = some z ∧ z.waiting = [] ∧ z.cmds = [] ∧ z.torn = none ∧ z.fetched = z.doorbell ∧ z.destroy = some d ∧ (qs z).ctxs.any (·.ofSlot 0) = false
        ∧ ((qs z).access (.record 0) 0 0 ((qs z).regN (Reg.Q_DREC 0)) 64 true).1 = .ok ∧ ((qs z).memOk && (qs z).shapeOk) = true ∧ z.pendEnable = false) := by
  and_intros <;> decide +kernel

/-- An image that passes every check: one program, which is EXIT. -/
def prog : Bytes :=
  let body : Bytes := natLE 4 144 ++ natLE 4 1 ++ natLE 8 0 ++ natLE 8 (0x64 * 2 ^ 56)
  let h : Bytes := natLE 4 0x53414253 ++ natLE 4 1 ++ natLE 4 152 ++ [1, 1, 0, 0, 0, 0] ++ natLE 2 0xFFFF ++ natLE 4 32768 ++ List.replicate 56 0
    ++ natLE 4 128 ++ List.replicate 36 0 ++ natLE 4 (crc32c body)
  h ++ natLE 4 (crc32c h) ++ body

theorem wit_ScriptCommands :
    let e (op len : Nat) : Bytes := entry op (natLE 2 9 ++ [1, 0, 0, 0, 0, 0] ++ natLE 8 0 ++ natLE 4 len)
    let s (op len : Nat) : State := waits (placed []) (e op len)
    let w : State := { s 0x20 152 with hbm := on.hbm.write 0 prog }
    let t : State := { waits { placed [] with scripts := [⟨9, true, 1, [.fresh 1 prog 0]⟩] } (entry 0x22 [9, 0]) with hbm := [] }
    let c : Cmd := ⟨1, 0, 0x20, entry 0x20 (natLE 2 9 ++ [0, 0, 0, 0, 0, 0] ++ natLE 8 0 ++ natLE 4 152), none, 0, 0, none, [], ⟨[], none⟩⟩
    let h : State := qs { qOn [] with cmds := [c] }
    ((s 0x20 152).admits 0 0x20 1 (e 0x20 152) (qOn (e 0x20 152)) [] ∧ (s 0x20 152).cmd? 0 1 = none ∧ scriptArgBad (e 0x20 152) = false ∧ (s 0x20 152).scriptStatus false 9 = ST_OK)
      ∧ ((s 0x21 152).admits 0 0x21 1 (e 0x21 152) (qOn (e 0x21 152)) [] ∧ (s 0x21 152).scriptStatus true 9 ≠ ST_OK)
      ∧ (w.admits 0 0x20 1 (e 0x20 152) (qOn (e 0x20 152)) [] ∧ 128 ≤ 152 ∧ 152 ≤ 2 ^ 22 ∧ 152 % 8 = 0 ∧ rd (argsOf (e 0x20 152)) 2 1 = 1
        ∧ (match (w.took 0 1 (e 0x20 152) []).devRead 0 152 with
            | .bytes v b => v.imageBad 9 b 152 == none && b == prog && (v.imageBad 9 (b.set 200 1 ++ [0]) 152).isSome
            | _ => false) = true)
      ∧ (h.serving = true ∧ h.load? 0 1 = none ∧ h.cmd? 0 1 = some c ∧ rd (argsOf c.entry) 2 1 = 0 ∧ (h.access (.bulk 0 1) (h.qPort 0) (h.qPasid 0) (hva (0 : Nat)) 152 false).1 = .ok)
      ∧ (t.admits 0 0x22 1 (entry 0x22 [9, 0]) (qOn (entry 0x22 [9, 0])) [] ∧ hdrZero (entry 0x22 [9, 0]) = true ∧ allZero (slice (argsOf (entry 0x22 [9, 0])) 2 38) = true
        ∧ t.scripts.any (fun c => c.handle == 9 && c.resident) = true ∧ t.named 9 = false ∧ (t.scripts.map (·.handle)).Nodup ∧ (s 0x20 152).scripts = []
        ∧ ({ t with scripts := t.scripts ++ [⟨8, true, 1, [.fresh 1 (prog.set 18 9 |>.set 19 0) 0]⟩] } : State).named 9 = true) := by
  unfold State.admits; and_intros <;> decide +kernel

theorem wit_LaunchGoes :
    let e : Bytes := entry 1 [] |>.set 16 9
    let l (n : Nat) : Bytes := e.set 20 (BitVec.ofNat 8 n)
    let s (e : Bytes) : State := hosted (waits ({ placed [] with scripts := [⟨9, true, 1, [.fresh 1 prog 0]⟩] }.setReg (Reg.PLC_CLMASK 0) 0x8001) e)
    let u (e : Bytes) : State := (s e).took 0 1 e []
    let c (st : CtxSt) (us : Bool) : Ctx := { newCtx 3 0 1 0 9 ⟨.fresh 1 prog 0, none, []⟩ 0 0 0 false false [] [] none with st := st, swapped := us, cls := [newClCtx 0 0 0 0] }
    let p (c : Ctx) : State := { s (entry 5 []) with ctxs := [c] }
    ((s e).admits 0 1 1 e (qOn e) [] ∧ (s e).cmd? 0 1 = none ∧ launchBad e = false ∧ launchBad (l 33) = true ∧ (s e).ctxFor 0 = true ∧ LEnt.argHost e = false ∧ LEnt.nseg e = 0
        ∧ LEnt.deadline e = 0 ∧ ((u e).decideAdm 0 9 false false 0).2.any (fun b => decide (Img.argOff b.edition.image + LEnt.arglen e ≤ frameBytes b.edition.image)) = true)
      ∧ ((u e).decideAdm 0 10 false false 0).2.isNone = true
      ∧ (({ u (l 32) with scripts := [⟨9, true, 1, [.fresh 1 (img.set 28 0xFF |>.set 29 0x0F) 0]⟩] } : State).decideAdm 0 9 false false 0).2.any
          (fun b => decide (frameBytes b.edition.image < Img.argOff b.edition.image + LEnt.arglen (l 32))) = true
      ∧ ((s e).choose 0 2 = some (0, [0, 15]) ∧ (s e).pickOn 0 2 0 = some ([0, 15], 0))
      ∧ ((p (c .admitted false)).serving = true ∧ (p (c .admitted false)).ctx? 3 = some (c .admitted false) ∧ ((p { c .admitted false with cls := [] }).turn { c .admitted false with cls := [] }).isSome = true
        ∧ (c .admitted false).swapped = false ∧ (c .admitted false).deadline = 0)
      ∧ ((c .placed false).st = .placed ∧ (c .placed false).cue = none ∧ ((p (c .placed false)).readArgs (c .placed false)).1 = .ok
        ∧ segTabBad ((((p (c .placed false)).edition? 9 1).map (·.image)).getD []) [] = false ∧ (c .admitted false).st ≠ .placed) := by
  unfold State.admits; and_intros <;> decide +kernel

theorem wit_LaunchLife :
    let r : Ring := { ring 0 0 0 0 with prod := 5 }
    let g : Seg := ⟨0x1000, 48, 2, false⟩
    let tabl : Bytes := natLE 8 0x1000 ++ natLE 4 48 ++ [2, 0, 0, 0]
    let c : Ctx := { synced r share with slot := 0, segs := [g], segTab := tabl }
    let s (c : Ctx) : State := { hosted (running c) with time := { on.time with gtime := 70 } }
    let full : Ctx := { c with rings := [{ r with pacq := 4 }] }
    let us : Ctx := { newCtx 3 0 1 0 9 ⟨.fresh 1 prog 0, some (9, 1), []⟩ 0 0 0 false false [] [] none with swapped := true }
    let w : State := { (hosted on).setReg (Reg.PLC_CLMASK 0) 1 with ctxs := [us], scripts := [⟨9, true, 1, [.fresh 1 prog 0]⟩] }
    let late : Ctx := { ctx with lateAbort := true, deadline := 70 }
    ((s c).serving = true ∧ (s c).ctx? 3 = some c ∧ c.st = .running ∧ c.swapped = false ∧ c.cue = none ∧ c.segs = [g] ∧ (List.replicate 48 (1 : Byte)).length = g.len
        ∧ ((s c).cfeRead (.args 3) 0 g.addr g.len).1 = .ok ∧ c.ring? 2 = some r ∧ r.room = true ∧ ((s c).putSegment c 2 (List.replicate 48 1) false).isSome = true)
      ∧ ((s full).ctx? 3 = some full ∧ ({ r with pacq := 4 } : Ring).room = false)
      ∧ (w.serving = true ∧ w.ctx? 3 = some us ∧ us.swapped = true ∧ (w.turn us).isSome = true ∧ (w.argsIn us).1 = true ∧ (w.argsIn us).2.ctx? 3 = some us
        ∧ w.argsTooLong us us.args.length = false)
      ∧ ((s late).ctx? 3 = some late ∧ late.lateAbort = true ∧ late.deadline ≠ 0 ∧ late.deadline.toNat ≤ (s late).time.gtime.toNat ∧ late.status = none ∧ late.st ≠ .ended
        ∧ c.lateAbort = false ∧ (running late).time.gtime.toNat < late.deadline.toNat) := by
  and_intros <;> decide +kernel

/-- A Cue request: one fragment with segment 0 of 4 bytes. -/
def cueReq : CueFrame :=
  let h : Bytes := natLE 2 0xC0E5 ++ [1, 0] ++ natLE 2 21 ++ natLE 2 0 ++ natLE 4 77 ++ natLE 2 0 ++ natLE 2 1 ++ natLE 4 0 ++ natLE 4 4 ++ natLE 4 0
    ++ natLE 8 0 ++ List.replicate 10 0
  ⟨0, whole, false, 1, 2, on.regF Reg.CFE_CTL 15 0, h ++ natLE 2 (crc16 h) ++ [1, 2, 3, 4]⟩

def bound : Binding := ⟨true, 0, 0, false, false, 21, 9⟩

def cueMsg : CueMsg := { cueMsgOf cueReq 0 with frags := [0] }

theorem wit_CueMessages :
    let bind (v : Nat) : Access := ⟨0, Reg.CFE_CUE_BIND + 4, 4, BitVec.ofNat 64 (v / 2 ^ 32)⟩
    let s : State := { (hosted (placed [])).setReg (Reg.PLC_CLMASK 0) 1 with
      bindings := on.bindings.set 0 bound, scripts := [⟨9, true, 1, [.fresh 1 prog 0]⟩], slots := on.slots.set 0 (qOn []) }
    let cue (s : State) : State := (s.setRegN (Reg.NP_CTL 0) (2 ^ 31)).setRegN Reg.CFE_CTL (2 ^ 31 + on.regF Reg.CFE_CTL 15 0)
    let r (s : State) : State := ((cue s).rxFrame 0).noteDirect
    let c (st : CtxSt) : Ctx := { ctx with cue := some cueMsg, st := st, slot := 0 }
    let b := cueReq.payload
    (s.barOpen = true ∧ onReg (bind 0) Reg.CFE_CUE_BIND = true ∧ onReg ⟨0, Reg.CFE_CUE_BIND, 4, 0⟩ Reg.CFE_CUE_BIND = true ∧ onReg ⟨0, Reg.CFE_CUE_BIND, 8, 0⟩ Reg.CFE_CUE_BIND = true
        ∧ s.bindings.length = 64 ∧ (s.bindings[s.regF Reg.CFE_CUE_SEL 5 0]?).any (·.valid) = true
        ∧ (on.bindings[on.regF Reg.CFE_CUE_SEL 5 0]?).any (fun x => !x.valid) = true
        ∧ (bindingOf (rwInto (bind (2 ^ 63 + 8 * 2 ^ 59)) Reg.CFE_CUE_BIND Binding.init.value)).slot ≤ 8 ∧ 8 < (bindingOf (rwInto (bind (9 * 2 ^ 59)) Reg.CFE_CUE_BIND Binding.init.value)).slot)
      ∧ ((cue s).npExists cueReq.port = true ∧ cueReq.eth = whole ∧ whole.dstAddr = (cue s).portAddr 0 false ∧ (cue s).regB (Reg.NP_CTL 0) 29 = false ∧ cueReq.dstPort = (cue s).regF Reg.CFE_CTL 15 0 ∧ ({ cueReq with dstPort := 1 } : CueFrame).dstPort ≠ (cue s).regF Reg.CFE_CTL 15 0)
      ∧ ((cue s).npOn 0 = true ∧ cueBad b = false ∧ (r s).regB Reg.CFE_CTL 31 = true ∧ (r s).bindingOn (CueHdr.service b) = some bound ∧ (r on).bindingOn (CueHdr.service b) = none)
      ∧ ((r { s with ctxs := [c .running] }).ctxs.find? (·.serves 1 2 (CueHdr.msgid b)) = some (c .running) ∧ (r s).ctxs.find? (·.serves 1 2 (CueHdr.msgid b)) = none
        ∧ (r { s with cueNames := [⟨1, 2, 77, none⟩] }).cueNames.any (·.is 1 2 (CueHdr.msgid b)) = true ∧ (r s).cueNames.any (·.is 1 2 (CueHdr.msgid b)) = false
        ∧ ((r { s with slots := on.slots }).slots[bound.slot]?).any (fun q => q.st != .on) = true ∧ (r s).pwr.lost = false)
      ∧ ((s.slots[bound.slot]?).any (fun q => q.st == .on) = true ∧ s.belowMax 0 = true ∧ 0 < s.freeCtxs
        ∧ (s.decideAdm 0 9 false false (cueMsgOf cueReq 0).deadline).2.any (fun x => cueSegStatus x.edition.image b == ST_OK) = true ∧ (cueMsgOf cueReq 0).time = 0)
      ∧ (let w : Wrote := ⟨[⟨0, 64⟩], some 0x1000⟩
        s.scopeClear (c .ended).scope (c .ended).wrote = true ∧ ({ s with mem := { on.mem with dirLines := [0] } } : State).scopeClear 0 w = false
        ∧ (let new := { bound with nous := true }
          { new with valid := true } ≠ bound ∧ { bound with valid := true } = bound ∧ new.slot ≤ 8))
      ∧ (({ s with ctxs := [c .ended] } : State).serving = true ∧ ({ s with ctxs := [c .ended] } : State).ctx? 3 = some (c .ended) ∧ (c .ended).cue = some cueMsg ∧ (c .running).st ≠ .ended) := by
  and_intros <;> decide +kernel

theorem wit_HostTranslation :
    let w : XWait := ⟨4, 0, 0, 4096, false, .fetch 0, none, false, 0⟩
    let g : PGroup := ⟨6, 0, 0, 4096, false, 0⟩
    let s (l : List XWait) (g : List PGroup) : State := { hosted on with host := { (hosted on).host with waits := l, groups := g } }
    ((s [w] []).serving = true ∧ (s [w] []).host.waits.find? (fun w => w.id == 4 && w.group.isNone) = some w ∧ (if w.write then false else true) = true)
      ∧ ((on.memOk && on.shapeOk) = true ∧ 2 ^ 64 - 1 < 2 ^ 64)
      ∧ ((s [{ w with group := some 6 }] [g]).host.groups.find? (·.id == 6) = some g ∧ (s [{ w with group := some 6 }] [g]).host.waits.any (·.group == some 6) = true
        ∧ 6 < ({ s [] [g] with host := { (s [] [g]).host with nextId := 7 } } : State).host.nextId
        ∧ (s [] [g]).host.groups.find? (·.id == 6) = some g ∧ (s [] [g]).host.waits.any (·.group == some 6) = false
        ∧ ({ on with pwr := { on.pwr with warm := true } } : State).pwr.warm = true ∧ 0x1FFC / 4096 = (0x1FFC + [0, (0 : Byte)].length - 1) / 4096
        ∧ g.since.toNat + ms ((later (s [] []) (BitVec.ofNat 64 (ms 65535))).regF Reg.XLT_CTL 31 16) ≤ (later (s [] []) (BitVec.ofNat 64 (ms 65535))).time.gtime.toNat)
      ∧ ((s [w] []).host.groups.find? (·.id == 6) = none ∧ (s [w] []).host.waits.any (·.group == some 6) = false)
      ∧ ((0, 5) ∈ ({ on with host := { on.host with invals := [(0, 5)] } } : State).host.invals)
      ∧ ((hosted on).host.ports[1]?).any (·.up) = true := by
  and_intros <;> decide +kernel

theorem wit_HostMemory :
    let h (p : HPort) : State := { placed [] with host := { on.host with ports := [p, .init] } }
    let dec : HPort := { HPort.init with up := true, mem := true, hdm := some 0x1000 }
    let s := h dec
    let fail : State := { s with mem := { s.mem with state := List.replicate 16 2 } }
    (on.host.ports[0]? = some .init ∧ on.up = true ∧ 0 < 2 ∧ HPort.init.up = false ∧ s.host.ports[0]? = some dec ∧ dec.up = true ∧ (s.memOk && s.shapeOk) = true
        ∧ ({ dec with hdm := none } : HPort).hdm = none ∧ (h { dec with hdm := none }).host.ports[0]? = some { dec with hdm := none })
      ∧ (s.barOpen = true ∧ s.host.ports.any (·.hdm.isSome) = true ∧ on.host.ports.any (·.hdm.isSome) = false ∧ fld (0xC000 : BitVec 32).toNat 15 14 = 3
        ∧ fld (0x8000 : BitVec 32).toNat 15 14 ≠ 3)
      ∧ ((s.hdmAddr 0x1000).isSome = true ∧ granulesIn s.mem.bad 0 64 = [] ∧ granulesIn s.mem.poisoned 0 64 = [] ∧ granulesIn [1] 0 64 ≠ [] ∧ s.hdmAddr 0xFFF = none ∧ 0 % 64 + (List.replicate 64 (1 : Byte)).length ≤ 64 ∧ s.mem.state.any (· == 2) = false ∧ s.badAt 0 64 = none
        ∧ fail.mem.state.any (· == 2) = true ∧ (fail.hdmAddr 0x1000).isSome = true)
      ∧ ({ on with mem := { on.mem with snoops := [(3, true, false)] } } : State).mem.snoops.find? (fun x => x.1 == 3 && !x.2.2) = some (3, true, false) := by
  and_intros <;> decide +kernel

theorem wit_Links :
    let port (n : Nat) (l : LPort) : State := { linked with link := { linked.link with ports := linked.link.ports.set n l } }
    let l (st : Nat) : LPort := { LPort.init with st := st, lanes := 4 }
    let s (st : Nat) : State := (port 0 (l st)).setRegN Reg.LNK_CTL (2 ^ 31)
    let f (lseq : Nat) (crc : Bool) : Flit := ⟨false, false, lseq, none, false, false, crc, true, 0, 0, 0, 0, []⟩
    let held : LPort := { l 2 with tx := [⟨9, 0, ⟨1, 0, 0, 0, .ack 0 0 0⟩, 0⟩] }
    let p (dst : Nat) : Packet := ⟨dst, 0, 4, 0, 1, 0, 0, true, []⟩
    (on.barOpen = true ∧ (on.setRegN Reg.LNK_CTL (2 ^ 30)).regB Reg.LNK_CTL 30 = true ∧ on.regB Reg.LNK_CTL 30 = false ∧ on.regB Reg.LNK_CTL 31 = false ∧ on.tables = []
        ∧ (s 1).regB Reg.LNK_CTL 31 = true ∧ ¬(2 ≤ on.map))
      ∧ (on.link.ports[0]? = some .init ∧ on.enabled (0x80000000 : BitVec 32).toNat 0 = true ∧ on.enabled (on.regN Reg.LNK_CTL) 0 = false ∧ (s 1).enabled ((s 1).regN Reg.LNK_CTL) 0 = true)
      ∧ ((s 1).serving = true ∧ (s 1).link.ports[0]? = some (l 1) ∧ (l 1).miswired = false ∧ 1 ≤ 4 ∧ 0 < (l 1).lanes ∧ ((s 1).pairedPort 0).isSome = true ∧ (4095 : Nat) ≠ (s 1).neighbour (dirOf (s 1).map 0))
      ∧ ((s 2).link.ports[0]? = some (l 2) ∧ (f 0 false).lseq = (l 2).rxNext ∧ (f 5 false).lseq ≠ (l 2).rxNext ∧ ((l 2).rxNext + 4096 - (f 2048 false).lseq) % 4096 ≤ 2048
        ∧ (f 0 true).crcBad = true ∧ (l 2).retrying = false ∧ 2048 < ((l 2).rxNext + 4096 - (f 1 false).lseq) % 4096 ∧ (s 2).lit 0 = true ∧ (s 2).lit 24 = false ∧ (l 2).wait = [])
      ∧ (let w : LPort := { l 2 with wait := [⟨0, 0, ⟨1, 0, 0, 0, .ack 0 0 0⟩, 0⟩], last := 7 }
        w.last < 8 ∧ w.tx.length < 128 ∧ (∃ x ∈ w.wait, x.sub = 0) ∧ keyGet 0 w.spent 0 < creditLimit 0 0 ∧ 128 ≤ ({ w with tx := List.replicate 128 ⟨0, 0, ⟨1, 0, 0, 0, .ack 0 0 0⟩, 0⟩ } : LPort).tx.length)
      ∧ ((port 0 held).link.ports[0]? = some held ∧ held.tx.findIdx? (·.lseq == 9) = some 0 ∧ held.replays < 8
        ∧ 8 ≤ ({ held with replaySeq := 9, replays := 8 } : LPort).replays ∧ held.failAt = none)
      ∧ (locNode (p 0).dst = linked.node ∧ locNode (p 1).dst ≠ linked.node ∧ locNode (p 1).dst ∉ linked.ras.lostNodes ∧ (linked.route none 0 1 0).isSome = true ∧ on.route none 0 (4 ^ 5) 0 = none
        ∧ locNode (p 1).dst ∈ ({ linked with ras := { linked.ras with lostNodes := [1] } } : State).ras.lostNodes ∧ linked.serving = true)
      ∧ (let x : Flying := ⟨⟨⟨5, 0, 1, 0, .ack 0 0 0⟩, none, none⟩, 1, 10⟩
        let n : Noc := { on.link.noc with bufs := [((0, 2, 0), [x]), ((0, 12, 3), [{ x with dst := 0 }])], granted := [((0, 1), 8)] }
        (n.grant 0 1).isSome = true ∧ (n.grant 0 10).isSome = true ∧ n.grant 0 2 = none ∧ x.out 0 = 1 ∧ ((0, 2, 0), [x]) ∈ n.bufs)
      ∧ ({ Gpe.init with asked := [ask 9] } : Gpe).takes = some (ask 9)
      ∧ ((⟨0xFFFF, 0x7FFF, 255, 255, 65535, 4294967295⟩ : Head).dst < 2 ^ 16 ∧ (part 9).ctx < 4096 ∧ (part 9).op % 8192 < 1024 ∧ (part 9).rows = []) := by
  and_intros <;> decide +kernel

theorem wit_NetworkPorts :
    let s : State := { on.setRegN (Reg.NP_CTL 0) (2 ^ 31 + 255 * 2 ^ 16) with net := { on.net with link := on.net.link.set 0 true } }
    let a (v : Nat) : Access := ⟨0, Reg.NP_ROCE_CFG + 4, 4, BitVec.ofNat 64 (v / 2 ^ 32)⟩
    let r : Roce := { Roce.init with valid := true, st := 1, reads := [(5, 0, 1, 0, 2)], writes := [6, 7] }
    let c : State := { s with net := { s.net with roce := s.net.roce.set 0 r } }
    (s.serving = true ∧ s.npOn 0 = true ∧ s.npExists 0 = true)
      ∧ (s.up = true ∧ 0 < s.net.link.length ∧ s.net.link[0]? = some true ∧ (s.memOk && s.shapeOk) = true ∧ on.net.link[0]? = some false)
      ∧ (s.barOpen = true ∧ onReg (a (2 ^ 63)) Reg.NP_ROCE_CFG = true ∧ onReg ⟨0, Reg.NP_ROCE_CFG, 8, 0⟩ Reg.NP_ROCE_CFG = true ∧ onReg ⟨0, Reg.NP_ROCE_CFG, 4, 0⟩ Reg.NP_ROCE_CFG = true
        ∧ (rwInto (a 0) Reg.NP_ROCE_CFG Roce.init.cfg).testBit 63 = false ∧ (rwInto (a (2 ^ 63)) Reg.NP_ROCE_CFG r.cfg).testBit 63 = true ∧ s.net.roce[s.roceSel]? = some .init ∧ Roce.init.valid = false ∧ (rwInto (a (2 ^ 63)) Reg.NP_ROCE_CFG Roce.init.cfg).testBit 63 = true
        ∧ c.net.roce[c.roceSel]? = some r ∧ r.valid = true ∧ (rwInto (a 0) Reg.NP_ROCE_CFG r.cfg).testBit 63 = false)
      ∧ (c.net.roce[0]? = some r ∧ r.st = 1 ∧ r.writes.idxOf? 7 = some 1 ∧ r.writes.idxOf? 5 = none ∧ r.dumping = false ∧ r.oldest = some 5
        ∧ (later c (BitVec.ofNat 64 (4000 * r.ackUs))).net.roce[0]? = some r ∧ r.since.toNat + 4000 * r.ackUs ≤ (later c (BitVec.ofNat 64 (4000 * r.ackUs))).time.gtime.toNat
        ∧ ({ r with reads := [], writes := [] } : Roce).oldest = none ∧ c.loads.all (fun l => l.source != 2) = true) := by
  and_intros <;> decide +kernel

theorem wit_TimeKeeping :
    let u : TimeUpd := ⟨3, 500, 1, 2, 0⟩
    let s (f : TimeSt → TimeSt) : State := { on with time := f on.time }
    let follow (taken : Bool) (upd : Option TimeUpd) (g : Word) : State := s (fun t => { t with markers := 2, update := upd, taken := taken, gtime := g })
    let lead : State := (s (fun t => { t with leading := true })).setRegN Reg.TIME_CTL (2 ^ 30)
    let lock : State := (s (fun t => { t with st := 2, gtime := 32000000000 })).setRegN Reg.TIME_CTL (2 ^ 31)
    ((follow true (some u) 400).pwr.powered = true ∧ (follow true (some u) 400).pwr.rstN = true ∧ (follow true (some u) 400).time.stopped = false ∧ 0 < (follow true (some u) 400).time.markers
        ∧ (156249999 : Nat) ≠ 156250000 ∧ (follow true (some u) 400).time.leading = false ∧ (follow true (some u) 400).role = 0 ∧ u.marker = (follow true (some u) 400).time.markers + 1)
      ∧ ((follow true (some u) 400).time.gtime.toNat ≤ (BitVec.ofInt 64 (u.gtime.toNat + sext 32 (on.regN Reg.TIME_SKEW))).toNat
        ∧ (BitVec.ofInt 64 (u.gtime.toNat + sext 32 (on.regN Reg.TIME_SKEW))).toNat < (follow true (some u) 600).time.gtime.toNat)
      ∧ ((follow true none 400).time.update = none ∧ ((follow true none 400).memOk && (follow true none 400).shapeOk) = true ∧ on.time.markers = 0)
      ∧ (on.serving = true ∧ on.time.leading = false ∧ locNode 1 ≠ on.node ∧ lead.time.leading = true ∧ lead.role = 1 ∧ on.time.missed < 3)
      ∧ (3 ≤ (s (fun t => { t with missed := 3 })).time.missed
        ∧ (([5, 2] : List Nat).filter (fun m => !on.ras.lostNodes.contains (on.memberNode m) && (!(m == on.member) || (decide (on.role = 2) && decide (on.time.st = 2))))).min? = some 2)
      ∧ ((lead.setRegN (Reg.NP_CTL 0) (2 ^ 31)).npOn 0 = true ∧ ¬(lead.role = 0 ∧ lead.time.leading = false) ∧ (0 : Nat) = lead.regF Reg.TIME_CTL 29 29 ∧ (1 : Nat) ≠ lead.regF Reg.TIME_CTL 29 29)
      ∧ (lock.time.st = 2 ∧ lock.role = 2 ∧ lock.time.leading = false ∧ lock.time.lastSync.toNat + 32000000000 ≤ lock.time.gtime.toNat ∧ on.time.st ≠ 2) := by
  and_intros <;> decide +kernel

theorem wit_FaultsAndUnits :
    let x (st : UState) : UnitSt := ⟨5, st, [], [], 0, none⟩
    let s (st : UState) : State := { on with ras := { on.ras with units := [x st] } }
    let m : State := { on with mem := { on.mem with state := List.replicate 16 1 } }
    let p : ProbeJob := ⟨2, [], [], false, 0⟩
    let w : State := { linked with ras := { linked.ras with probes := [p], reports := [⟨2, 0, false, 0⟩] } }
    let wait := 4000 * w.regF Reg.RAS_LOSS 15 0
    (({ on with pwr := { on.pwr with lost := true } } : State).pwr.lost = true ∧ on.pwr.lost = false ∧ (on.memOk && on.shapeOk) = true ∧ 0x730 < 2 ^ 12)
      ∧ (m.up = true ∧ m.mem.state[15]? = some 1 ∧ 2684354559 * 32 < 80 * 2 ^ 30 ∧ (m.devOf 15 (75 * 2 ^ 30 + 32000)).isSome = true ∧ m.regF (Reg.MEM_CTL 15) 15 0 < m.regF (Reg.MEM_CTL 15) 15 0 + 1 ∧ 15 < 16 ∧ 1 < 2)
      ∧ ((on.unit 5).st = .healthy ∧ on.watch.length < 64 ∧ unitKind 5 ≤ 3 ∧ ((s .suspect).unit 5).st = .suspect)
      ∧ ((s .fencing).serving = true ∧ scored 5 = true ∧ (s .suspect).unitBusy 5 = false ∧ (s .suspect).elapsed ((s .suspect).unit 5).tested ((s .suspect).testTicks ((s .suspect).unit 5).st) = true ∧ (run { share with running := [eop .arr .mma] }).unitBusy 5 = true ∧ ((s .fencing).unit 5).st = .fencing
        ∧ ((s .suspect).unit 5).last.toNat + 345600000000000 ≤ (later (s .suspect) 345600000000000).time.gtime.toNat ∧ (on.unit 5).st ≠ .suspect)
      ∧ (w.serving = true ∧ w.ras.probes.find? (·.node == 2) = some p ∧ p.since.toNat + wait ≤ (later w (BitVec.ofNat 64 wait)).time.gtime.toNat ∧ w.time.gtime.toNat < p.since.toNat + wait)
      ∧ (w.ras.reports.find? (·.node == 2) = some ⟨2, 0, false, 0⟩ ∧ w.liveMembers.find? (fun m => decide (0 < m)) = some 1 ∧ on.ras.reports.any (·.node == 2) = false) := by
  and_intros <;> decide +kernel

theorem wit_MailboxCommands :
    let v (op len : Nat) : BitVec 32 := BitVec.ofNat 32 (2 ^ 31 + op * 2 ^ 16 + len)
    let busy : State := { on with mgmt := { on.mgmt with mbBusy := true } }
    let inp (s : State) (op len : Nat) : Bytes := (s.mbFields (v op len).toNat).mbRead len
    let u := on.setRegN (Reg.MSS_MB_DATA 0) 0x0102
    (on.barOpen = true ∧ (v 7 4096).getLsbD 31 = true ∧ fld (v 7 4096).toNat 12 0 = 4096 ∧ busy.mgmt.mbBusy = true ∧ on.mgmt.mbBusy = false)
      ∧ (fld (v 1 4).toNat 23 16 = 1 ∧ fld (v 2 4).toNat 23 16 = 2 ∧ fld (v 4 4).toNat 23 16 = 4 ∧ fld (v 5 4).toNat 23 16 = 5 ∧ fld (v 6 2).toNat 23 16 = 6 ∧ (inp on 6 2).length = 2
        ∧ fld (v 7 2).toNat 23 16 = 7)
      ∧ (fld (v 3 6).toNat 23 16 = 3 ∧ rd (inp u 3 6) 0 1 = 2 ∧ otpWidth 2 ≠ 0 ∧ (inp u 3 6).length = 2 + otpWidth 2 / 8 ∧ (u.otp 2).gens.length < 4 ∧ rd (inp u 3 6) 1 1 = (u.otp 2).gens.length + 1)
      ∧ (rd (inp on 3 18) 0 1 = 0 ∧ (inp on 3 18).length = 18 ∧ otpWidth 9 = 0)
      ∧ (on.writeDump 0).1 ≠ 0
      ∧ (let d : State := { on with net := { on.net with roce := on.net.roce.map (fun r => { r with st := 1 }) } }
        (d.writeDump 0).1 = 0)
      ∧ ((on.memOk && on.shapeOk) = true ∧ 65535 < 2 ^ 16 ∧ (List.replicate 4096 (1 : Byte)).length ≤ 4096) := by
  and_intros <;> decide +kernel

theorem wit_ManagementMessages :
    let f : FwUpd := ⟨some 1, [], true⟩
    State.reset.mctpOn true = false ∧ on.mctpOn true = true ∧ on.mgmt.fw = none ∧ ({ on with mgmt := { on.mgmt with fw := some f } } : State).mgmt.fw = some f ∧ f.comp = some 1
      ∧ on.pwr.stage ≠ .recovery ∧ on.pwr.warm = false ∧ on.pwr.flr = [] ∧ sensorId 0x19 = true ∧ on.mgmt.spdm.length = 2 ∧ (on.memOk && on.shapeOk) = true
      ∧ ({ on with mgmt := { on.mgmt with spdm := [true, true] } } : State).mgmt.spdm.getD 0 false = true ∧ on.fwCheck 1 [] ≠ ST_OK := by
  and_intros <;> decide +kernel

theorem wit_PowerAndResets :
    let s (f : Power → Power) : State := { on with pwr := f on.pwr }
    let held := s (fun p => { p with rstN := false })
    let train := s (fun p => { p with stage := .training })
    (held.pwr.powered = true ∧ held.pwr.rstN = false ∧ strapsOk 1 = true ∧ strapsOk 3 = false ∧ strapsOk 0x201 = false)
      ∧ (train.pwr.stage = .training ∧ train.pwr.lost = false ∧ train.mem.state.all (· != 2) = true)
      ∧ (on.barOpen = true ∧ (0x800000A5 : BitVec 32).getLsbD 31 = true ∧ fld (0x800000A5 : BitVec 32).toNat 7 0 = 0xA5 ∧ on.pwr.flr = [] ∧ (s (fun p => { p with flr := [1] })).pwr.flr ≠ [])
      ∧ ((s (fun p => { p with warm := true })).pwr.warm = true ∧ on.fenceRecord = [] ∧ on.host.ports[1]? = some .init ∧ on.pwr.stage = .ready ∧ on.pwr.warm = false)
      ∧ (on.up = true ∧ 8 < 9 ∧ sensorId 0x30 = true ∧ 115 ≤ keyGet 0 (s (fun p => { p with sensors := [(0x19, 115), (0x2F, 105), (0x30, 2401)] })).pwr.sensors 0x19
        ∧ 105 ≤ keyGet 0 (s (fun p => { p with sensors := [(0x19, 115), (0x2F, 105), (0x30, 2401)] })).pwr.sensors 0x2F
        ∧ 2400 < keyGet 0 (s (fun p => { p with sensors := [(0x19, 115), (0x2F, 105), (0x30, 2401)] })).pwr.sensors 0x30)
      ∧ (on.pwr.gaspN = true ∧ (s (fun p => { p with throttleN := false })).pwr.throttleN = false
        ∧ 0 < (on.setRegN Reg.DEV_PWR (5 * 2 ^ 16)).regF Reg.DEV_PWR 31 16 ∧ (on.pwr.throttleN = true ∨ on.regF Reg.DEV_PWR 31 16 = 0)
        ∧ on.pwr.thrSince.toNat + 4000000 * (on.setRegN Reg.DEV_PWR (5 * 2 ^ 16)).regF Reg.DEV_PWR 31 16 ≤ (later on 20000000).time.gtime.toNat) := by
  and_intros <;> decide +kernel

theorem wit_NotReady :
    (Instr.word (.exit 3 {}) = some (3, {}) ∧ State.reset.serving = false ∧ State.reset.barOpen = false)
      ∧ (let s : State := { State.reset with pwr := { State.reset.pwr with powered := true, rstN := true } }
        s.barOpen = false ∧ s.pwr.powered = true ∧ s.pwr.rstN = true ∧ refused ⟨0, 0xFFFFFC, 4, 0⟩ = true ∧ Access.aligned ⟨0, 0x101FFF8, 8, 0⟩ = true ∧ 0x10000 ≤ 0x101FFF8 % 0x20000) := by
  and_intros <;> decide +kernel

/-! ## Well-formedness refuses each operand out of range -/

theorem test_wf_good : (Instr.add 127 { d := 31, a := 31, b := 31, c := 31, pg := 7 }).wf = true ∧ (Instr.registerWrite ⟨2, 0xFFFFFF8, 8, 0⟩).wf = true := by decide

theorem test_wf_word :
    (Instr.add 128 {}).wf = false ∧ (Instr.add 0 { pg := 8 }).wf = false ∧ (Instr.add 0 { d := 32 }).wf = false ∧ (Instr.add 0 { a := 32 }).wf = false
      ∧ (Instr.add 0 { b := 32 }).wf = false ∧ (Instr.add 0 { c := 32 }).wf = false := by decide

theorem test_wf_access :
    (Instr.registerWrite ⟨1, 0, 4, 0⟩).wf = false ∧ (Instr.registerWrite ⟨0, 0, 3, 0⟩).wf = false ∧ (Instr.registerWrite ⟨0, 2 ^ 28, 4, 0⟩).wf = false := by decide

theorem test_wf_header :
    (Instr.work ⟨32768, 0, 0, 0, false⟩ (.mismatch 0)).wf = false ∧ (Instr.work ⟨0, 8, 0, 0, false⟩ (.mismatch 0)).wf = false
      ∧ (Instr.work ⟨0, 0, 2 ^ 32, 0, false⟩ (.mismatch 0)).wf = false ∧ (Instr.work ⟨0, 0, 0, 256, false⟩ (.mismatch 0)).wf = false := by decide

theorem test_wf_record :
    let h : WriteHdr := ⟨0, 0, 0, 0, false⟩
    (Instr.deltaApply h { rec_ 1 5 with stream := 65536 } ⟨0, 0, 0⟩).wf = false ∧ (Instr.deltaApply h { rec_ 1 5 with op := 256 } ⟨0, 0, 0⟩).wf = false
      ∧ (Instr.deltaApply h { rec_ 1 5 with handle := 65536 } ⟨0, 0, 0⟩).wf = false ∧ (Instr.deltaApply h { rec_ 1 5 with target := 65536 } ⟨0, 0, 0⟩).wf = false := by decide

theorem test_wf_packet :
    let p : Packet := ⟨0, 0, 0, 0, 0, 0, 0, true, []⟩
    (Instr.forward none { p with dst := 32768 }).wf = false ∧ (Instr.forward none { p with src := 32768 }).wf = false ∧ (Instr.forward none { p with gen := 256 }).wf = false
      ∧ (Instr.forward none { p with tag := 2 ^ 32 }).wf = false ∧ (Packet.wf p = true) := by decide

theorem test_wf_flit :
    let f : Flit := ⟨false, false, 0, none, false, false, false, true, 0, 0, 0, 0, []⟩
    (Instr.flit 0 { f with lseq := 4096 }).wf = false ∧ (Instr.flit 0 { f with vc := 4 }).wf = false ∧ (Instr.flit 0 { f with dl := 2 }).wf = false ∧ (Instr.flit 0 { f with crSub := 8 }).wf = false
      ∧ (Instr.flit 0 { f with crN := 256 }).wf = false ∧ (Instr.flit 32 f).wf = false := by decide

theorem test_wf_lookup :
    (Instr.poolReq 8 ⟨(ask 9), []⟩).wf = false ∧ (Instr.poolReq 0 ⟨{ ask 9 with src := 32768 }, []⟩).wf = false ∧ (Instr.poolReq 0 ⟨{ ask 9 with ctx := 4096 }, []⟩).wf = false ∧ (Instr.poolReq 0 ⟨{ ask 9 with op := 65536 }, []⟩).wf = false
      ∧ (Instr.poolReq 0 ⟨(ask 256), []⟩).wf = false ∧ (Instr.poolReq 0 ⟨{ ask 9 with pkt := 1 }, []⟩).wf = false ∧ (Instr.partialIn 0 { part 9 with src := 32768 }).wf = false
      ∧ (Instr.partialIn 0 { part 9 with dst := 32768 }).wf = false ∧ (Instr.partialIn 0 { part 9 with ctx := 4096 }).wf = false := by and_intros <;> decide

theorem test_wf_numbers :
    (Instr.nop 9).wf = false ∧ (Instr.stackFailed 16).wf = false ∧ (Instr.epochAdvance 8).wf = false ∧ (Instr.hostLinkDown 2).wf = false ∧ (Instr.npLinkUp 10).wf = false ∧ (Instr.retryReq 32 0).wf = false
      ∧ (Instr.feedStarted 2).wf = false ∧ (Instr.sendAck 64).wf = false ∧ (Instr.edgeFailed 14).wf = false ∧ (Instr.railFault 9).wf = false ∧ (Instr.roceNak 64).wf = false ∧ (Instr.placeLaunch 4096).wf = false
      ∧ (Instr.watchdogExpired 2).wf = false ∧ (Instr.versionFreed 65536 0).wf = false ∧ (Instr.versionFreed 0 65536).wf = false ∧ (Instr.probeTimeout 512).wf = false ∧ (Instr.unitFenced 65536).wf = false
      ∧ (Instr.rejoin 0 ⟨256, 0⟩).wf = false ∧ (Instr.slotDue 0 16).wf = false ∧ (Instr.i3cDynamicAddress 128).wf = false ∧ (Instr.combineWindowExpires 2 0).wf = false
      ∧ (Instr.replicaCopyConfirmed 0 (2 ^ 40)).wf = false ∧ (Instr.residueCheckFails 0 8 0 0 .same ⟨0, 0⟩).wf = false ∧ (Instr.sketchDecay 8).wf = false := by decide

/-! ## Steps whose result a rule gives -/

def does (c : Instr) (s : State) : State := Machine.after (exec c s) s

/-- Scalar register n of the launch on cluster 0 after an instruction. -/
def gives (c : Instr) (k : ClCtx) (n : Nat) : Option Word := ((does c (run k)).onCl 3 0).map (fun k => k.s n)

/-- The PC after an instruction. -/
def goes (c : Instr) (k : ClCtx) : Option Nat := ((does c (run k)).onCl 3 0).map (·.pc)

/-- R94: the check value of CRC-16-CCITT with initial value 0xFFFF; R149: that of CRC-32C. -/
theorem test_crc : crc16 [0x31, 0x32, 0x33, 0x34, 0x35, 0x36, 0x37, 0x38, 0x39] = 0x29B1 ∧ crc32c [0x31, 0x32, 0x33, 0x34, 0x35, 0x36, 0x37, 0x38, 0x39] = 0xE3069283 := by
  decide +kernel

/-- R355, R358: words written out field by field (OP at 56, PG at 53, PN at 52, D at 47, A at 42, B at 37, C at 32, FN at 24, IMM at 0)
are their instructions; 0x12 is unassigned, and LI in its extended form needs its second word. -/
theorem test_words :
    decodeBassaso 5 (0x00 * 2 ^ 56 + 2 * 2 ^ 53 + 2 ^ 52 + 3 * 2 ^ 47 + 1 * 2 ^ 42 + 2 * 2 ^ 37) none .good = some (.add 5 { pg := 2, pn := true, d := 3, a := 1, b := 2 })
      ∧ decodeBassaso 5 (0x29 * 2 ^ 56 + 4 * 2 ^ 47 + 1 * 2 ^ 42 + 2 * 2 ^ 37 + 3 * 2 ^ 32 + 1 * 2 ^ 24 + 0xFFFFFF) none .good
        = some (.mma 5 { d := 4, a := 1, b := 2, c := 3, fn := 1, imm := 0xFFFFFF })
      ∧ decodeBassaso 5 (2 ^ 63 + 0x0A * 2 ^ 56 + 7 * 2 ^ 47) (some 9) .good = some (.li 5 { d := 7, ext := some 9 })
      ∧ decodeBassaso 5 (2 ^ 63 + 0x0A * 2 ^ 56 + 7 * 2 ^ 47) none .good = none
      ∧ decodeBassaso 5 (0x49 * 2 ^ 56) none .good = some (.gather 5 ⟨{}, .good⟩) ∧ decodeBassaso 5 (0x64 * 2 ^ 56) none .good = some (.exit 5 {})
      ∧ decodeBassaso 5 (0x12 * 2 ^ 56) none .good = none := by decide +kernel

/-- R500: the header's fields at their bytes. -/
theorem test_header : (⟨0x0102, 0x0304, 5, 6, 0x0708, 0x090A0B0C⟩ : Head).body = [2, 1, 4, 3, 5, 6, 8, 7, 0x0C, 0x0B, 0x0A, 9, 0, 0] := by decide

/-- R35: the example of a packet from IOD-SR to CD2, and the two ways between the I/O dies. -/
theorem test_routes : dieRoute 9 2 6 = [6, 4, 2] ∧ dieRoute 8 9 6 = [0, 2, 4, 6, 9] ∧ dieRoute 9 8 6 = [7, 5, 3, 1, 8] ∧ (edgesOf 0).length = 3 ∧ (edgesOf 8).length = 2 := by
  decide

/-- R365: the sum wraps, and the PC goes on by one word. -/
theorem test_add_wraps : gives (.add 0 w312) (reg2 (-1) 3) 3 = some 2 ∧ goes (.add 0 w312) (reg2 (-1) 3) = some 6 := by decide +kernel

/-- R353: s0 discards a write. -/
theorem test_add_s0 : gives (.add 0 { w312 with d := 0 }) (reg2 7 3) 0 = some 0 := by decide +kernel

/-- R365: operand B is the immediate with I set. -/
theorem test_sub_imm : gives (.sub 0 { w312 with fn := 1, imm := -2 }) (reg2 7 3) 3 = some 9 := by decide +kernel

/-- R365: SHR shifts in zeros, and copies of the sign with ARITH; the count is taken in its low six bits. -/
theorem test_shr :
    gives (.shr 0 w312) (reg2 (-16) 60) 3 = some 15 ∧ gives (.shr 0 { w312 with fn := 2 }) (reg2 (-16) 2) 3 = some (-4) ∧ gives (.shr 0 w312) (reg2 5 64) 3 = some 5 := by decide +kernel

/-- R365: LT compares signed, LTU unsigned. -/
theorem test_cmp :
    ((does (.cmp 0 { w312 with fn := 4 }) (run (reg2 (-1) 1))).onCl 3 0).map (·.p 3) = some true
      ∧ ((does (.cmp 0 { w312 with fn := 8 }) (run (reg2 (-1) 1))).onCl 3 0).map (·.p 3) = some false := by decide +kernel

/-- R366: a branch is relative to its own word; LOOP with a count of zero goes past its body. -/
theorem test_branch : goes (.br 0 { imm := -3 }) share = some 2 ∧ goes (.loop 0 { a := 1, imm := 4 }) (reg2 0 0) = some 10 := by decide +kernel

/-- R356: a false guard leaves everything but the PC. -/
theorem test_guard : gives (.add 0 { w312 with pg := 1 }) (reg2 7 3) 3 = some 0 ∧ goes (.add 0 { w312 with pg := 1 }) (reg2 7 3) = some 6 := by decide +kernel

/-- R377: the launch ends with ST_OK when its one cluster has come to EXIT. -/
theorem test_exit : ((does (.exit 0 {}) (run share)).ctx? 3).map (fun c => (decide (c.st = .ended), c.status)) = some (true, some 0) := by decide +kernel

/-- R359: an engine instruction is queued, and is not computed yet. -/
theorem test_queued : ((does (.vred 0 {}) (run share)).onCl 3 0).map (fun k => (k.running.length, k.pc)) = some (1, 6) := by decide +kernel

/-- R320: a consumer that has acquired a slot releases it. -/
theorem test_release :
    ((does (.rrel 0 { a := 2 }) (running (synced (ring 4 1 1 0) share))).ctx? 3).bind (fun c => (c.ring? 2).map (·.rel)) = some 1 := by decide +kernel

/-- R40: TBL_HEAP is dropped while a table exists. -/
theorem test_heap : (does (.tblHeapWrite 9) on).regN Reg.TBL_HEAP = 9 ∧ (does (.tblHeapWrite 9) (placed [])).regN Reg.TBL_HEAP = 4 := by decide +kernel

/-- R407: QUERY answers the number of the LIVE version. -/
theorem test_query :
    ((does (.query 0) (waits (placed [ver 3 .live]) (entry 4 [3, 0, 7, 0]))).slots[0]?).map (fun q => q.cmds.map (fun c => (c.status, c.value))) = some [(some 0, 3)] := by
  decide +kernel

/-- R408, R409: a good image in device memory becomes edition 1. -/
theorem test_script_load :
    let e : Bytes := entry 0x20 (natLE 2 9 ++ [1, 0, 0, 0, 0, 0] ++ natLE 8 0 ++ natLE 4 152)
    let s : State := { waits (placed []) e with hbm := on.hbm.write 0 prog }
    ((does (.scriptLoad 0) s).current 9).map (·.num) = some 1 := by decide +kernel

/-- R298: e, √2, ln 10, tanh 1 and 1 / (1 + e) to FP32, from tables. -/
theorem test_special : toF32 (expVal .one) = 0x402DF854 ∧ toF32 (sqrtVal 2 0) = 0x3FB504F3 ∧ toF32 (ofFix (lnFix (.ofInt 10))) = 0x40135D8E
    ∧ toF32 (tanhVal .one) = 0x3F42F7D6 ∧ toF32 (sigmoidVal (.ofInt (-1))) = 0x3E89B2B1 := by decide +kernel

/-- R105, R106: an EPA sums exactly and rounds once to FP32: 1 + 2^-24 + 2^-24 is not 1. -/
theorem test_pool : (Lane.epa (2 ^ 50 + 2 ^ 26 + 2 ^ 26)).value = (0x3F800001, false) := by decide +kernel

/-- R395: a doorbell past the ring is the error of its slot. -/
theorem test_doorbell :
    ((does (.sqDb 0 65) (qs (qOn []))).slots[0]?).map (fun q => (q.error, q.errStatus)) = some (true, ST_Q_DOORBELL)
      ∧ ((does (.sqDb 0 64) (qs (qOn []))).slots[0]?).map (·.doorbell) = some 64 := by decide +kernel

/-- R8: a refused read answers zero. -/
theorem test_refused : (does (.refusedAccess false ⟨0, 2, 4, 0⟩) on).out.getLast? = some (.readData 0) := by decide +kernel

/-- R573: a register write does nothing until READY is 1. -/
theorem test_not_ready : does (.tblHeapWrite 9) State.reset = State.reset := by decide +kernel

/-- R573: the part that is in training does not serve, and READY makes it serve. -/
theorem test_comes_up :
    let s : State := { State.reset with pwr := { State.reset.pwr with powered := true, stage := .training, rstN := true } }
    s.serving = false ∧ (does .ready s).serving = true := by decide +kernel

/-- Log entry 3, R515: on an empty queue the step is one tick, and GTIME counts it. -/
theorem test_tick : (match step on with
    | .next t => some t.time.gtime
    | .fault _ => none
    | .refused _ => none) = some 1 := by decide +kernel

end Sys2Proof.Tests
end

/-! The package's failures (R18, R535): what an event and a log record leave of the whole state, and what EDGE_FAILED and
PARITY_FAILURE do. -/
namespace Sys2Proof.Machine

/-! ## Key lists -/

/-- The key that has been put reads as its new value. -/
theorem keyGet_keyPut_same {κ β : Type} [BEq κ] [LawfulBEq κ] (d : β) (l : List (κ × β)) (k : κ) (v : β) :
    keyGet d (keyPut l k v) k = v := by
  simp [keyGet, keyPut]

/-! ## Events and log records -/

/-- A vector's signal changes the registers and what has gone out, nothing else. -/
theorem State.signal_frame (s : State) (v : Nat) :
    s.signal v = { s with regs := (s.signal v).regs, out := (s.signal v).out } := by
  unfold State.signal
  split <;> rfl

/-- A write of an event register changes the registers and what has gone out, nothing else. -/
theorem State.setEvent_frame (s : State) (a : Nat) (v : Word) :
    s.setEvent a v = { s with regs := (s.setEvent a v).regs, out := (s.setEvent a v).out } := by
  unfold State.setEvent
  split
  · rfl
  · next n _ =>
    split
    · exact (s.setReg a v).signal_frame n
    · rfl

/-- A status bit that is latched changes the registers and what has gone out, nothing else. -/
theorem State.latch_frame (s : State) (a k : Nat) :
    s.latch a k = { s with regs := (s.latch a k).regs, out := (s.latch a k).out } := s.setEvent_frame a _

section
variable (s : State) (sev code unit : Nat) (ctx : Option Nat) (i0 i1 i2 : Nat)

/-- A log record changes the registers, the RAS state and what has gone out, nothing else. -/
theorem State.log_frame :
    s.log sev code unit ctx i0 i1 i2 = { s with
      regs := (s.log sev code unit ctx i0 i1 i2).regs
      out := (s.log sev code unit ctx i0 i1 i2).out
      ras := (s.log sev code unit ctx i0 i1 i2).ras } := by
  unfold State.log
  dsimp only
  split <;> split
  · rw [State.latch_frame]; rfl
  · rfl
  · rw [State.latch_frame]
  · rfl

/-- Of the registers a log record changes at most RAS_STATUS, when the log is full, and the pending bits. -/
theorem State.log_but : s.regsBut (s.log sev code unit ctx i0 i1 i2) [Reg.RAS_STATUS, Reg.MSIX_PBA] := by
  intro a ha
  simp only [State.log, State.reg, apply_ite State.regs, State.emit_regs, ite_self]
  split
  · exact (State.latch_but _ Reg.RAS_STATUS 8).1 a ha
  · rfl

end

/-! ## EDGE_FAILED (R18) -/

theorem exec_edgeFailed (s : State) (edge : Nat) (hup : s.up = true) (he : edge < 14) :
    exec (.edgeFailed edge) s = .next (s.declareLost (0x600 + edge)) := by
  show execEdgeFailed edge s = _
  simp [execEdgeFailed, hup, he]

/-! ## PARITY_FAILURE (R535) -/

/-- The part with the n-th parity failure of a packet counted, shown in RAS_STATUS and logged: what the counted and the fatal
failure have in common. -/
def State.parityNoted (s : State) (packet n : Nat) : State :=
  ((s.count Reg.RAS_PARITY 1).latch Reg.RAS_STATUS 2).log 2 ST_OK (15 * 4096) none 0 packet n

/-- Up to the third failure of a packet the part keeps the packet's count. -/
theorem exec_parityFailure_counted (s : State) (packet : Nat) (hs : s.serving = true) (hn : keyGet 0 s.link.parity packet < 3) :
    exec (.parityFailure packet) s =
      .next { s.parityNoted packet (keyGet 0 s.link.parity packet + 1) with
        link := { s.link with parity := keyPut s.link.parity packet (keyGet 0 s.link.parity packet + 1) } } := by
  have h3 : ¬3 ≤ keyGet 0 s.link.parity packet := by omega
  show execParityFailure packet s = _
  simp [execParityFailure, State.whenServing_on s _ hs, h3, State.parityNoted]

/-- The fourth failure of a packet loses the part. -/
theorem exec_parityFailure_fourth (s : State) (packet : Nat) (hs : s.serving = true) (hn : keyGet 0 s.link.parity packet = 3) :
    exec (.parityFailure packet) s = .next ((s.parityNoted packet 4).declareLost 0x700) := by
  show execParityFailure packet s = _
  simp [execParityFailure, State.whenServing_on s _ hs, hn, State.parityNoted]

theorem State.parityNoted_frame (s : State) (packet n : Nat) :
    s.parityNoted packet n = { s with
      regs := (s.parityNoted packet n).regs, out := (s.parityNoted packet n).out, ras := (s.parityNoted packet n).ras } := by
  unfold State.parityNoted
  rw [State.log_frame, State.latch_frame]
  rfl

theorem State.reg_parityNoted (s : State) (packet n : Nat) (h : s.memOk = true) :
    (s.parityNoted packet n).reg Reg.RAS_PARITY = s.reg Reg.RAS_PARITY + 1 := by
  have hne : Reg.RAS_PARITY ∉ [Reg.RAS_STATUS, Reg.MSIX_PBA] := by decide
  calc (s.parityNoted packet n).reg Reg.RAS_PARITY
      = ((s.count Reg.RAS_PARITY 1).latch Reg.RAS_STATUS 2).reg Reg.RAS_PARITY := State.log_but _ _ _ _ _ _ _ _ _ hne
    _ = (s.count Reg.RAS_PARITY 1).reg Reg.RAS_PARITY := (State.latch_but _ Reg.RAS_STATUS 2).1 _ hne
    _ = s.reg Reg.RAS_PARITY + 1 := (s.count_says Reg.RAS_PARITY 1 h).1

/-- Settles O14: the first three failures of a packet only count, and the fourth, like a failed edge, declares the part lost. -/
theorem packageFailures : Obligations.PackageFailures := by
  unfold Obligations.PackageFailures
  intro s edge packet
  refine ⟨exec_edgeFailed s edge, ?_, ?_⟩
  · intro hs ⟨hmem, _⟩ hn
    refine ⟨_, exec_parityFailure_counted s packet hs hn, keyGet_keyPut_same _ _ _ _, s.reg_parityNoted _ _ hmem, ?_, ?_⟩
    · simp [State.parityNoted]
    · rw [State.parityNoted_frame]
  · intro hs hn
    exact ⟨_, exec_parityFailure_fourth s packet hs hn, s.parityNoted_frame packet 4⟩

end Sys2Proof.Machine

/-! Exact sums (R105 to R107): a rounding to nearest even and the FP32 pattern of its result, the order of an owner's terms,
and the FP32 number that an EPA gives. -/
namespace Sys2Proof.Machine

/-! ## Rounding to nearest, ties to even -/

/-- t is num/den rounded to nearest: it lies within half a unit, and is even where it lies exactly half a unit off. The
differences are truncated, so the one of the wrong direction is 0. -/
def NearestEven (t num den : Nat) : Prop :=
  2 * (t * den - num) ≤ den ∧ 2 * (num - t * den) ≤ den ∧ (2 * (t * den - num) = den ∨ 2 * (num - t * den) = den → t % 2 = 0)

/-- The rounding `even` gives the nearest integer, the even one of two. -/
theorem roundNat_even_nearest (s : Bool) (num den : Nat) (hd : 0 < den) : NearestEven (roundNat .even s num den) num den := by
  have hdiv : num / den * den + num % den = num := Nat.div_add_mod' num den
  have hmod : num % den < den := Nat.mod_lt num hd
  simp only [roundNat]
  split
  case isTrue hup =>
    have hnext : (num / den + 1) * den = num / den * den + den := Nat.succ_mul _ _
    refine ⟨?_, ?_, ?_⟩ <;> rw [hnext] <;> omega
  case isFalse hstay => refine ⟨?_, ?_, ?_⟩ <;> omega

theorem NearestEven.le {t num den a : Nat} (h : NearestEven t num den) (hd : 0 < den) (ha : a * den ≤ num) : a ≤ t := by
  obtain ⟨-, hlow, -⟩ := h
  refine Nat.not_lt.mp fun hlt => ?_
  have hnext : t * den + den ≤ a * den := Nat.succ_mul t den ▸ Nat.mul_le_mul_right den hlt
  omega

theorem NearestEven.ge {t num den a : Nat} (h : NearestEven t num den) (hd : 0 < den) (ha : num ≤ a * den) : t ≤ a := by
  obtain ⟨hhigh, -, -⟩ := h
  refine Nat.not_lt.mp fun hlt => ?_
  have hnext : a * den + den ≤ t * den := Nat.succ_mul a den ▸ Nat.mul_le_mul_right den hlt
  omega

/-- A rounding does not depend on the unit in which numerator and denominator are counted. -/
theorem NearestEven.scale {t num den : Nat} (h : NearestEven t num den) {u : Nat} (hu : 0 < u) : NearestEven t (num * u) (den * u) := by
  obtain ⟨hhigh, hlow, htie⟩ := h
  have ha : 2 * (t * (den * u) - num * u) = 2 * (t * den - num) * u := by rw [← Nat.mul_assoc, ← Nat.sub_mul, Nat.mul_assoc]
  have hb : 2 * (num * u - t * (den * u)) = 2 * (num - t * den) * u := by rw [← Nat.mul_assoc, ← Nat.sub_mul, Nat.mul_assoc]
  unfold NearestEven
  rw [ha, hb, Nat.mul_left_inj (Nat.ne_of_gt hu), Nat.mul_left_inj (Nat.ne_of_gt hu)]
  exact ⟨Nat.mul_le_mul_right u hhigh, Nat.mul_le_mul_right u hlow, htie⟩

/-- A result 2m counted in units twice as large is m: it is nearest there too, and no tie unless it was exact. -/
theorem NearestEven.half {m num k : Nat} (h : NearestEven (2 * m) num (2 ^ k)) (hm : m % 2 = 0) : NearestEven m num (2 ^ (k + 1)) := by
  obtain ⟨hhigh, hlow, -⟩ := h
  have he : m * 2 ^ (k + 1) = 2 * m * 2 ^ k := by rw [Nat.pow_succ', ← Nat.mul_assoc, Nat.mul_comm m]
  unfold NearestEven
  rw [he, Nat.pow_succ]
  exact ⟨by omega, by omega, fun _ => hm⟩

/-! ## The bits of a rounded value -/

theorem Val.up_natCast_sub (a b : Nat) : Val.up ((a : Int) - b) = 2 ^ (a - b) := by
  rw [Val.up, Int.toNat_sub]

theorem floorLog2_int (n : Nat) (e : Int) (hn : n ≠ 0) : floorLog2 n 1 e = n.log2 + e := by
  have hlog : ¬n < 2 ^ n.log2 := Nat.not_lt.mpr (Nat.log2_self_le hn)
  have hone : Nat.log2 1 = 0 := by decide
  simp only [floorLog2, Val.up, hone, Int.cast_ofNat_Int, Int.sub_zero, Int.toNat_neg_natCast, Nat.pow_zero, Nat.mul_one, Int.toNat_natCast,
    Nat.one_mul, hlog, if_false]

/-- An integer times 2^e, not so small that the format's last subnormal bit matters, rounds to p bits at p - 1 bits below its
leading one. -/
theorem roundBits_int (p : Nat) (qmin : Int) (mode : RMode) (s : Bool) (n : Nat) (e : Int) (hn : n ≠ 0)
    (hq : qmin ≤ n.log2 + e - (p - 1 : Nat)) :
    roundBits p qmin mode s n 1 e = (roundNat mode s (n * 2 ^ (p - 1 - n.log2)) (2 ^ (n.log2 - (p - 1))), n.log2 + e - (p - 1 : Nat)) := by
  have hnum : e - (n.log2 + e - (p - 1 : Nat)) = ((p - 1 : Nat) : Int) - n.log2 := by omega
  have hden : n.log2 + e - (p - 1 : Nat) - e = (n.log2 : Int) - (p - 1 : Nat) := by omega
  simp only [roundBits, if_neg hn, floorLog2_int n e hn, Int.max_eq_left hq, hnum, hden, Val.up_natCast_sub, Nat.one_mul]

/-- An integer n scaled so that its leading one is bit p lies, counted in the unit of its rounding, from 2^p to 2^(p+1). -/
theorem roundNat_scaled_bounds (s : Bool) (n p : Nat) (hn : n ≠ 0) :
    let t := roundNat .even s (n * 2 ^ (p - n.log2)) (2 ^ (n.log2 - p))
    2 ^ p ≤ t ∧ t ≤ 2 ^ (p + 1) := by
  have hnear := roundNat_even_nearest s (n * 2 ^ (p - n.log2)) (2 ^ (n.log2 - p)) (Nat.two_pow_pos _)
  have hlow : 2 ^ n.log2 ≤ n := Nat.log2_self_le hn
  have hhigh : n ≤ 2 ^ (n.log2 + 1) := Nat.le_of_lt Nat.lt_log2_self
  refine ⟨hnear.le (Nat.two_pow_pos _) ?_, hnear.ge (Nat.two_pow_pos _) ?_⟩
  · calc 2 ^ p * 2 ^ (n.log2 - p)
        = 2 ^ n.log2 * 2 ^ (p - n.log2) := by rw [← Nat.pow_add, ← Nat.pow_add]; congr 1; omega
      _ ≤ n * 2 ^ (p - n.log2) := Nat.mul_le_mul_right _ hlow
  · calc n * 2 ^ (p - n.log2)
        ≤ 2 ^ (n.log2 + 1) * 2 ^ (p - n.log2) := Nat.mul_le_mul_right _ hhigh
      _ = 2 ^ (p + 1) * 2 ^ (n.log2 - p) := by rw [← Nat.pow_add, ← Nat.pow_add]; congr 1; omega

/-- The pattern of a normal number t × 2^q with one more bit than the fraction: the exponent field counts from q, and a t that has
rounded up to the next power of two carries into it. -/
theorem Fmt.pattern_normal (f : Fmt) (s : Bool) (t : Nat) (q : Int) (hlow : 2 ^ f.mb ≤ t) (hhigh : t ≤ 2 ^ (f.mb + 1)) (hq : f.qmin ≤ q) :
    f.pattern s t q = b2n s * 2 ^ (f.eb + f.mb) + (q - f.qmin + 1).toNat * 2 ^ f.mb + (t - 2 ^ f.mb) := by
  have hpos : 0 < 2 ^ f.mb := Nat.two_pow_pos _
  have hlog : f.mb ≤ t.log2 := (Nat.le_log2 (by omega)).mpr hlow
  have hnormal : ¬(t.log2 : Int) + q < f.qmin + f.mb := by omega
  simp only [Fmt.pattern, if_neg (show t ≠ 0 by omega), if_neg hnormal, if_pos hlog]
  rcases Nat.lt_or_eq_of_le hhigh with hlt | rfl
  · have hlog' : t.log2 = f.mb := by
      have := (Nat.log2_lt (by omega)).mpr hlt
      omega
    have hexp : (f.mb : Int) + q - (f.qmin + f.mb) + 1 = q - f.qmin + 1 := by omega
    rw [hlog', hexp, Nat.sub_self, Nat.pow_zero, Nat.div_one]
  · have hexp : ((f.mb + 1 : Nat) + q - (f.qmin + f.mb) + 1).toNat = (q - f.qmin + 1).toNat + 1 := by omega
    have hdiv : 2 ^ (f.mb + 1) / 2 ^ (f.mb + 1 - f.mb) = 2 ^ f.mb := by
      rw [Nat.add_sub_cancel_left, Nat.pow_one, Nat.pow_succ, Nat.mul_div_cancel _ (by decide)]
    rw [Nat.log2_two_pow, hexp, hdiv, Nat.pow_succ, Nat.succ_mul]
    omega

/-- No number of at most 2^24 units below the unit of the largest finite FP32 number lies beyond that number. -/
theorem fp32_not_beyond (t : Nat) (q : Int) (ht : t ≤ 2 ^ 24) (hq : q < 104) : fp32.beyond t q = false := by
  have hunit : (104 - q).toNat = (103 - q).toNat + 1 := by omega
  have hpos : 0 < 2 ^ (103 - q).toNat := Nat.two_pow_pos _
  have hq0 : (q - 104).toNat = 0 := by omega
  have hmax : fp32.maxFin = (2 ^ 24 - 1, 104) := by decide
  simp only [Fmt.beyond, hmax, Val.up, hunit, hq0, Nat.pow_succ]
  simp only [decide_eq_false_iff_not]
  omega

/-- An integer times 2^e in the range of FP32's normal numbers rounds to a finite number: sign, exponent field of its leading one and
rounded significand. -/
theorem fp32_round_int (x : Int) (e : Int) (hx : x ≠ 0) (hlow : -126 ≤ x.natAbs.log2 + e) (hhigh : x.natAbs.log2 + e < 127) :
    let L := x.natAbs.log2
    let t := roundNat .even (decide (x < 0)) (x.natAbs * 2 ^ (23 - L)) (2 ^ (L - 23))
    fp32.round (.ofInt x e) = (b2n (decide (x < 0)) * 2 ^ 31 + (L + e + 127).toNat * 2 ^ 23 + (t - 2 ^ 23), false) := by
  have hn : x.natAbs ≠ 0 := Int.natAbs_ne_zero.mpr hx
  have hqmin : fp32.qmin = -149 := by decide
  have hq : fp32.qmin ≤ x.natAbs.log2 + e - (fp32.mb + 1 - 1 : Nat) := by rw [hqmin]; push_cast; omega
  obtain ⟨hge, hle⟩ := roundNat_scaled_bounds (decide (x < 0)) x.natAbs 23 hn
  have hexp : x.natAbs.log2 + e - (fp32.mb + 1 - 1 : Nat) - fp32.qmin + 1 = x.natAbs.log2 + e + 127 := by rw [hqmin]; push_cast; omega
  simp only [Fmt.round, Val.ofInt, roundBits_int _ _ _ _ _ _ hn hq]
  rw [fp32_not_beyond _ _ hle (by push_cast; omega), fp32.pattern_normal _ _ _ hge hle hq, hexp]
  rfl

/-- The rounding of an integer n to p + 1 bits, counted in a unit of 2^-k of n's own. -/
theorem roundNat_scaled_nearest (s : Bool) (n p k : Nat) (hp : p ≤ n.log2 + k) :
    NearestEven (roundNat .even s (n * 2 ^ (p - n.log2)) (2 ^ (n.log2 - p))) (n * 2 ^ k) (2 ^ (n.log2 + k - p)) := by
  have hnear := (roundNat_even_nearest s (n * 2 ^ (p - n.log2)) (2 ^ (n.log2 - p)) (Nat.two_pow_pos _)).scale
    (u := 2 ^ min (n.log2 + k - p) k) (Nat.two_pow_pos _)
  have hnum : p - n.log2 + min (n.log2 + k - p) k = k := by omega
  have hden : n.log2 - p + min (n.log2 + k - p) k = n.log2 + k - p := by omega
  rwa [Nat.mul_assoc, ← Nat.pow_add, ← Nat.pow_add, hnum, hden] at hnear

/-! ## The FP32 number of an EPA -/

theorem Lane.epa_value_overflow (x : Int) (h : 2 ^ 95 ≤ x.natAbs) : (Lane.epa x).value = (0x7FC00000, true) := if_pos h

theorem Lane.epa_value_fits (x : Int) (h : x.natAbs < 2 ^ 95) : (Lane.epa x).value = (toF32 (.ofInt x (-50)), false) :=
  if_neg (Nat.not_le.mpr h)

theorem Lane.epa_value_zero : (Lane.epa 0).value = (0, false) := by decide

/-- R106: a sum that is not zero and has not overflowed gives the normal FP32 number of its sign that is nearest to it. The sum counts
2^-50 and the significand 2^(expo - 150), so that both count 2^-150 here. -/
theorem Lane.epa_value_nearest (x : Int) (hx : x ≠ 0) (hfit : x.natAbs < 2 ^ 95) :
    ∃ expo frac, 1 ≤ expo ∧ expo ≤ 254 ∧ frac < 2 ^ 23
      ∧ (Lane.epa x).value.1.toNat = b2n (decide (x < 0)) * 2 ^ 31 + expo * 2 ^ 23 + frac
      ∧ NearestEven (2 ^ 23 + frac) (x.natAbs * 2 ^ 100) (2 ^ expo) := by
  have hn : x.natAbs ≠ 0 := Int.natAbs_ne_zero.mpr hx
  have hL : x.natAbs.log2 < 95 := (Nat.log2_lt hn).mpr hfit
  have hround := fp32_round_int x (-50) hx (by omega) (by omega)
  obtain ⟨hge, hle⟩ := roundNat_scaled_bounds (decide (x < 0)) x.natAbs 23 hn
  have hnear := roundNat_scaled_nearest (decide (x < 0)) x.natAbs 23 100 (by omega)
  have hexp : (x.natAbs.log2 + (-50 : Int) + 127).toNat = x.natAbs.log2 + 77 := by omega
  have hexp' : x.natAbs.log2 + 100 - 23 = x.natAbs.log2 + 77 := by omega
  have hsign : b2n (decide (x < 0)) ≤ 1 := by unfold b2n; split <;> decide
  rw [hexp'] at hnear
  rw [Lane.epa_value_fits x hfit, toF32, hround, hexp, BitVec.toNat_ofNat]
  generalize roundNat .even (decide (x < 0)) (x.natAbs * 2 ^ (23 - x.natAbs.log2)) (2 ^ (x.natAbs.log2 - 23)) = t at *
  rcases Nat.lt_or_eq_of_le hle with hlt | rfl
  · refine ⟨x.natAbs.log2 + 77, t - 2 ^ 23, by omega, by omega, by omega, by omega, ?_⟩
    rwa [Nat.add_sub_cancel' hge]
  · refine ⟨x.natAbs.log2 + 78, 0, by omega, by omega, by decide, by omega, ?_⟩
    rw [Nat.pow_succ'] at hnear
    exact hnear.half (by decide)

/-! ## The order of the terms -/

/-- A lane whose additions are exact: an EPA, or the maximum of a Q8, Q4 or F16 table. -/
def Lane.exact : Lane → Prop
  | .f32 _ => False
  | _ => True

theorem lane0_exact (t : Table) (mode : Nat) (h : t.fmt ≠ 3) : (lane0 t mode).exact := by
  unfold lane0
  rw [if_neg h]
  split <;> trivial

/-- A term added to an EPA adds its exact value, first or not. -/
theorem Lane.add_epa (t : Table) (mode : Nat) (first : Bool) (w v : Val) (x : Int) :
    (Lane.epa x).add t mode first w v = .epa (x + toEpa (if mode = 2 then w.mul v else v)) := rfl

/-- The greater of a maximum so far and a value; -0 lies below +0 (R104). -/
def bestOf (n : Int) (z : Bool) : Option (Int × Bool) → Int × Bool
  | none => (n, z)
  | some (m, y) => if m < n ∨ (m = n ∧ y ∧ !z) then (n, z) else (m, y)

theorem Lane.add_best (t : Table) (mode : Nat) (first : Bool) (w v : Val) (b : Option (Int × Bool)) :
    (Lane.best b).add t mode first w v = .best (some (bestOf (toEpa v) (negZero t v) b)) := by
  cases b with
  | none => rfl
  | some m => simp only [Lane.add, bestOf, apply_ite some, apply_ite Lane.best]

/-- The place of a value of MAX in the order of MAX: by its steps, and -0 below +0. -/
def bestKey (b : Int × Bool) : Int := 2 * b.1 + if b.2 then 0 else 1

theorem bestKey_inj {b b' : Int × Bool} (h : bestKey b = bestKey b') : b = b' := by
  obtain ⟨n, z⟩ := b
  obtain ⟨n', z'⟩ := b'
  unfold bestKey at h
  rw [Prod.mk.injEq]
  cases z <;> cases z' <;> simp only [Bool.false_eq_true, reduceCtorEq, if_true, if_false, and_true, and_false] at h ⊢ <;> omega

theorem bestKey_bestOf (n : Int) (z : Bool) (b : Int × Bool) : bestKey (bestOf n z (some b)) = max (bestKey b) (bestKey (n, z)) := by
  obtain ⟨m, y⟩ := b
  have hlt : (m < n ∨ (m = n ∧ y ∧ !z)) ↔ bestKey (m, y) < bestKey (n, z) := by
    cases y <;> cases z <;>
      simp only [bestKey, Bool.false_eq_true, Bool.not_true, Bool.not_false, if_true, if_false, and_true, and_false, or_false] <;> omega
  simp only [bestOf]
  split
  case isTrue h => exact (Int.max_eq_right (Int.le_of_lt (hlt.mp h))).symm
  case isFalse h => exact (Int.max_eq_left (Int.not_lt.mp (mt hlt.mpr h))).symm

/-- The greatest of three does not depend on the order in which two of them come. -/
theorem bestOf_comm (n n' : Int) (z z' : Bool) (b : Option (Int × Bool)) :
    bestOf n z (some (bestOf n' z' b)) = bestOf n' z' (some (bestOf n z b)) := by
  apply bestKey_inj
  rw [bestKey_bestOf, bestKey_bestOf]
  cases b with
  | none => exact Int.max_comm _ _
  | some b => rw [bestKey_bestOf, bestKey_bestOf, Int.max_assoc, Int.max_assoc, Int.max_comm (bestKey (n, z))]

theorem Lane.add_exact (t : Table) (mode : Nat) (first : Bool) (w v : Val) {l : Lane} (h : l.exact) : (l.add t mode first w v).exact := by
  cases l with
  | epa x => trivial
  | f32 x => exact h.elim
  | best b => rw [Lane.add_best]; trivial

/-- On an exact lane it does not matter which of two terms comes first. -/
theorem Lane.add_comm (t : Table) (mode : Nat) (p q p' q' : Bool) (w v w' v' : Val) {l : Lane} (h : l.exact) :
    (l.add t mode p w v).add t mode q w' v' = (l.add t mode p' w' v').add t mode q' w v := by
  cases l with
  | epa x => simp only [Lane.add_epa, Int.add_right_comm]
  | f32 x => exact h.elim
  | best b => simp only [Lane.add_best, bestOf_comm (toEpa v')]

/-- The step of `laneAfter`: a term adds its element e, and is the first if nothing was added yet. -/
def Term.addTo (t : Table) (mode e : Nat) (a : Bool × Lane) (x : Term) : Bool × Lane :=
  (false, a.2.add t mode a.1 (fp16.decode x.entry.weight.toNat) (t.elem x.image e))

theorem laneAfter_eq (t : Table) (mode : Nat) (terms : List Term) (e : Nat) :
    laneAfter t mode terms e = ((terms.filter (·.granules.contains (t.granuleOf e))).foldl (Term.addTo t mode e) (true, lane0 t mode)).2 := rfl

/-- R106: terms added to an exact lane give the same in whatever order. -/
theorem foldl_addTo_perm (t : Table) (mode e : Nat) {l m : List Term} (hp : l.Perm m) (a : Bool × Lane) (ha : a.2.exact) :
    l.foldl (Term.addTo t mode e) a = m.foldl (Term.addTo t mode e) a := by
  induction hp generalizing a with
  | nil => rfl
  | cons x _ ih => exact ih _ (Lane.add_exact t mode _ _ _ ha)
  | swap x y l =>
    simp only [List.foldl_cons, Term.addTo]
    rw [Lane.add_comm t mode _ _ _ _ _ _ _ _ ha]
  | trans _ _ ih ih' => exact (ih a ha).trans (ih' a ha)

theorem laneAfter_perm (t : Table) (mode : Nat) (hfmt : t.fmt ≠ 3) {l m : List Term} (hp : l.Perm m) (e : Nat) :
    laneAfter t mode l e = laneAfter t mode m e := by
  rw [laneAfter_eq, laneAfter_eq, foldl_addTo_perm t mode e (hp.filter _) _ (lane0_exact t mode hfmt)]

/-- R105: an EPA holds the exact sum of the terms added to it. -/
theorem foldl_add_epa (t : Table) (mode : Nat) (x : Int) (terms : List (Bool × Val × Val)) :
    terms.foldl (fun (a : Lane) e => a.add t mode e.1 e.2.1 e.2.2) (.epa x)
      = .epa (x + (terms.map (fun e => toEpa (if mode = 2 then e.2.1.mul e.2.2 else e.2.2))).sum) := by
  induction terms generalizing x with
  | nil => rw [List.foldl_nil, List.map_nil, List.sum_nil, Int.add_zero]
  | cons y ys ih => rw [List.foldl_cons, Lane.add_epa, ih, List.map_cons, List.sum_cons, Int.add_assoc]

/-- Settles O19: exact lanes take their terms in any order, and the number that an EPA gives is its sum rounded once. -/
theorem poolingOrder : Obligations.PoolingOrder := by
  unfold Obligations.PoolingOrder
  refine ⟨fun t mode b m hfmt hp => ⟨laneAfter_perm t mode hfmt hp, ?_⟩, ?_⟩
  · exact List.map_congr_left (fun e _ => laneAfter_perm t mode hfmt hp e)
  · intro t mode x terms _ _ total
    refine ⟨foldl_add_epa t mode x terms, Lane.epa_value_overflow total, fun h => by rw [Lane.epa_value_fits total h],
      fun h => by rw [h]; exact Lane.epa_value_zero, ?_⟩
    intro hne hfit
    obtain ⟨expo, frac, hlow, hhigh, hfrac, hv, hnear, hnear', htie⟩ := Lane.epa_value_nearest total hne hfit
    have hsign : b2n (decide (total < 0)) = if total < 0 then 1 else 0 := by simp only [b2n, decide_eq_true_eq]
    have hvfrac : (Lane.epa total).value.1.toNat % 2 ^ 23 = frac := by omega
    have hvexpo : (Lane.epa total).value.1.toNat / 2 ^ 23 % 256 = expo := by omega
    have hvsign : (Lane.epa total).value.1.toNat / 2 ^ 31 = if total < 0 then 1 else 0 := by omega
    simp only [hvfrac, hvexpo]
    refine ⟨hlow, hhigh, hvsign, hnear, hnear', fun h => ?_⟩
    have := htie h
    omega

end Sys2Proof.Machine

/-! The issue of an instruction (R356, R359, R360, R374): every Bassaso instruction goes through `issueWith`, a false guard makes
it a no-op, and one that waits leaves all but its context's wait. -/
namespace Sys2Proof.Machine

/-! ## Every Bassaso instruction issues alike -/

/-- A command that carries a Bassaso word is the issue of that word on its cluster; the commands differ only in the registers they
name and in what they do once issued. -/
theorem exec_word_eq_issueWith (c : Instr) (cl : Nat) (i : BWord) (h : c.word = some (cl, i)) :
    ∃ regs atSafe atExit f, ∀ s, exec c s = .next (s.issueWith cl i regs atSafe atExit f) := by
  cases c <;> simp only [Instr.word, reduceCtorEq, Option.some.injEq, Prod.mk.injEq] at h
  all_goals
    obtain ⟨rfl, rfl⟩ := h
    exact ⟨_, _, _, _, fun _ => rfl⟩

/-! ## A false guard -/

/-- p0 reads 1, so the guard of PG = 0 with PN = 0 is not false. -/
theorem ClCtx.guard_zero_holds (k : ClCtx) (i : BWord) (h : (k.p i.pg == i.pn) = true) : ¬(i.pg = 0 ∧ i.pn = false) := by
  rintro ⟨hpg, hpn⟩
  rw [hpg, hpn] at h
  exact absurd h (by simp [ClCtx.p])

theorem State.issued_advance_retired (s : State) (cl : Nat) (i : BWord) (a : Site) (h : s.site? cl = some a) :
    s.Retired (s.issued a (fun k => k.advance (wordsOf i))) a (a.k.past i) := by
  have hret := s.issued_retired cl a h (fun k => k.advance (wordsOf i)) (fun k => k.advance_cl _)
  rwa [ClCtx.advance_wait] at hret

theorem exec_word_guardFalse (c : Instr) (cl : Nat) (i : BWord) (s : State) (a : Site) (hw : c.word = some (cl, i))
    (hs : s.serving = true) (ha : s.site? cl = some a) (hg : (a.k.p i.pg == i.pn) = true) :
    exec c s = .next (s.issued a (fun k => k.advance (wordsOf i))) := by
  obtain ⟨regs, atSafe, atExit, f, hexec⟩ := exec_word_eq_issueWith c cl i hw
  rw [hexec, s.issueWith_guard cl i regs atSafe atExit f a hs ha hg]

/-! ## An instruction that waits -/

/-- An instruction that names the register an ATOM has yet to fill waits at issue. -/
theorem State.issueWith_atomWait (s : State) (cl : Nat) (i : BWord) (regs : List Nat) (x y : Site → State → State)
    (f : Site → State → Iss) (a : Site) (hs : s.serving = true) (ha : s.site? cl = some a) (hg : (a.k.p i.pg == i.pn) = false)
    (hatom : a.k.running.any (fun o => o.dreg.any regs.contains) = true) : s.issueWith cl i regs x y f = s.park a .issue := by
  rw [State.issueWith, s.whenServing_on _ hs]
  simp only [ha, hg, hatom, Bool.false_eq_true, if_true, if_false]

theorem State.alu_atomWait (s : State) (cl : Nat) (i : BWord) (op : Word → Word → Word) (a : Site) (hs : s.serving = true)
    (ha : s.site? cl = some a) (hg : (a.k.p i.pg == i.pn) = false)
    (hatom : a.k.running.any (fun o => o.dreg.any (aluRegs i).contains) = true) : s.alu cl i op = s.park a .issue := by
  rw [State.alu, State.issue, s.issueWith_atomWait cl i (aluRegs i) _ _ _ a hs ha hg hatom]

/-- A context with 32 engine instructions in progress queues no other. -/
theorem Site.enqueue_of_full (a : Site) (s : State) (o : EngOp) (h : 32 ≤ a.k.running.length) : a.enqueue s o = .wait .issue :=
  if_pos (Or.inr h)

theorem State.issueArr_full (s : State) (cl : Nat) (i : BWord) (kind : EKind) (a : Site) (h : s.issues cl i (arrRegs kind i) a)
    (hfull : 32 ≤ a.k.running.length) : s.issueArr cl i kind = s.park a .issue := by
  rw [State.issueArr, State.issue, s.issueWith_on cl i _ _ _ _ a h]
  exact congrArg (s.settleIssue a (wordsOf i) _ _) (a.enqueue_of_full s _ hfull)

/-- A wait at issue is no pre-emption point: the prompter stays with the context. -/
theorem State.park_issue (s : State) (a : Site) :
    s.park a .issue = s.modOn a.c.id a.k.cl (fun k => { k with wait := some .issue }) := by
  rw [State.park, if_pos (Or.inl rfl)]

theorem State.park_issue_frame (s : State) (a : Site) : s.park a .issue = { s with ctxs := (s.park a .issue).ctxs } := by
  rw [State.park_issue]
  rfl

theorem State.onCl_park_issue (s : State) (cl : Nat) (a : Site) (h : s.site? cl = some a) :
    (s.park a .issue).onCl a.c.id a.k.cl = some { a.k with wait := some .issue } := by
  rw [State.park_issue, State.onCl_modOn, s.onCl_site cl a h]
  · rfl
  · exact fun _ => rfl

/-- Settles O1: every Bassaso instruction is issued by `issueWith`, whose false guard retires it as a no-op and whose wait parks it. -/
theorem issue : Obligations.Issue := by
  unfold Obligations.Issue
  constructor
  · intro c cl i s a hw hs ha hg
    exact ⟨⟨_, exec_word_guardFalse c cl i s a hw hs ha hg, s.issued_advance_retired cl i a ha⟩, a.k.guard_zero_holds i hg⟩
  · intro s cl i a hs ha hg
    refine ⟨fun hatom => ?_, fun hfree hfull => ?_, s.park_issue_frame a, s.onCl_park_issue cl a ha⟩
    · exact congrArg Host.Outcome.next (s.alu_atomWait cl i (· + ·) a hs ha hg hatom)
    · exact congrArg Host.Outcome.next (s.issueArr_full cl i .mma a ⟨hs, ha, hg, hfree⟩ hfull)

end Sys2Proof.Machine

/-! Queue commands (R398 to R402, R406, R407): an entry that the slot lets in becomes a running command, QUERY answers from the
state as it was before, and a command ends in its place among those of its slot. -/
namespace Sys2Proof.Machine

/-! ## Admission -/

/-- An entry that the slot lets in leaves the queue and runs, where its opcode is one that the command takes. -/
theorem State.admitIf_of_admits {s : State} {k op n : Nat} {e : Bytes} {q : QSlot} {rest : List (Nat × Bytes)}
    (h : s.admits k op n e q rest) (p : Nat → Bool) (f : Nat → Bytes → State → State) (hp : p op = true) :
    s.admitIf k p f = f n e (s.took k n e rest) := by
  obtain ⟨hopen, hlost, hslot, hwait, rfl, hcan⟩ := h
  simp [State.admitIf, hopen, hlost, hslot, hwait, hp, hcan, State.took]

theorem State.admitOp_of_admits {s : State} {k op n : Nat} {e : Bytes} {q : QSlot} {rest : List (Nat × Bytes)}
    (h : s.admits k op n e q rest) (f : Nat → Bytes → State → State) : s.admitOp k op f = f n e (s.took k n e rest) :=
  State.admitIf_of_admits h _ f (beq_self_eq_true op)

theorem exec_unassignedOpcode_of_admits {s : State} {k op n : Nat} {e : Bytes} {q : QSlot} {rest : List (Nat × Bytes)}
    (h : s.admits k op n e q rest) (hop : op ∉ opcodes) :
    exec (.unassignedOpcode k) s = .next ((s.took k n e rest).endCmd k n ST_Q_BAD_OPCODE 0) :=
  congrArg Host.Outcome.next (State.admitIf_of_admits h _ _ (by simpa using hop))

/-! ## QUERY (R407) -/

/-- A QUERY with no reserved bit set ends with its answer, which the admission has not changed. -/
theorem exec_query_of_plain {s : State} {k n : Nat} {e : Bytes} {q : QSlot} {rest : List (Nat × Bytes)} {st v : Nat}
    (h : s.admits k 4 n e q rest) (hhdr : hdrZero e = true) (hres : rd (argsOf e) 1 1 = 0)
    (hzero : allZero (slice (argsOf e) 4 36) = true) (hans : s.answer k (rd (argsOf e) 0 1) (rd (argsOf e) 2 2) = (st, v)) :
    exec (.query k) s = .next ((s.took k n e rest).endCmd k n st v) := by
  have htook : (s.took k n e rest).answer k (rd (argsOf e) 0 1) (rd (argsOf e) 2 2) = (st, v) := hans
  show execQuery k s = _
  rw [execQuery, State.admitOp_of_admits h]
  simp [hhdr, hres, hzero, htook]

section
variable (s : State) (k arg : Nat)

theorem State.answer_edition {x : Edition} (h : s.current arg = some x) : s.answer k 0 arg = (ST_OK, x.num) := by
  simp [State.answer, h]

theorem State.answer_noScript (h : s.current arg = none) : s.answer k 0 arg = (ST_Q_NO_SCRIPT, 0) := by
  simp [State.answer, h]

theorem State.answer_live {t : Table} {v : Version} (ht : s.table? arg = some t) (hv : t.live = some v) :
    s.answer k 3 arg = (ST_OK, v.num) := by
  simp [State.answer, ht, hv]

theorem State.answer_noLive (h : (s.table? arg).bind (·.live) = none) : s.answer k 3 arg = (ST_OK, 0) := by
  simp [State.answer, h]

theorem State.answer_unassigned {what : Nat} (h : 4 ≤ what) : s.answer k what arg = (ST_Q_BAD_ARG, 0) := by
  obtain ⟨m, rfl⟩ := Nat.exists_eq_add_of_le' h
  rfl

end

/-! ## The end of a command -/

/-- A change that keeps what g reads of an entry keeps what g reads of the list. -/
theorem map_modFirst {α β : Type} (p : α → Bool) (f : α → α) (g : α → β) (l : List α) (h : ∀ x, g (f x) = g x) :
    (modFirst p f l).map g = l.map g := by
  induction l with
  | nil => rfl
  | cons x t ih =>
    rw [modFirst]
    split
    · rw [List.map_cons, List.map_cons, h]
    · rw [List.map_cons, List.map_cons, ih]

/-- A command with its status, its value and the time of its end, unless it has ended before. -/
def Cmd.endAt (st val : Nat) (t : Word) (c : Cmd) : Cmd :=
  if c.status.isNone then { c with status := some st, value := val, finish := t } else c

theorem State.endCmd_eq_modCmd (s : State) (k n st val : Nat) : s.endCmd k n st val = s.modCmd k n (Cmd.endAt st val s.time.gtime) := rfl

@[simp] theorem Cmd.endAt_n (st val : Nat) (t : Word) (c : Cmd) : (c.endAt st val t).n = c.n := by
  unfold Cmd.endAt
  split <;> rfl

theorem Cmd.endAt_running (st val : Nat) (t : Word) {c : Cmd} (h : c.status = none) :
    c.endAt st val t = { c with status := some st, value := val, finish := t } := by
  simp [Cmd.endAt, h]

/-- A command that has not ended ends, in its place among the slot's commands, with its status, its value and the time. -/
theorem State.endCmd_ends (s : State) {k n : Nat} (st val : Nat) {q : QSlot} {c : Cmd} (hslot : s.slots[k]? = some q)
    (hfind : q.cmds.find? (·.n == n) = some c) (hrun : c.status = none) :
    ∃ q', (s.endCmd k n st val).slots[k]? = some q'
      ∧ q'.cmds.find? (·.n == n) = some { c with status := some st, value := val, finish := s.time.gtime }
      ∧ q'.cmds.map (·.n) = q.cmds.map (·.n) ∧ (∀ m, m ≠ n → q'.cmds.find? (·.n == m) = q.cmds.find? (·.n == m)) := by
  rw [State.endCmd_eq_modCmd]
  refine ⟨_, by rw [State.modCmd, State.modSlot_slots, List.getElem?_modify_eq, hslot]; rfl, ?_, ?_, fun m hm => ?_⟩
  · rw [find_modFirst _ _ _ (fun x hx => by rwa [Cmd.endAt_n]), hfind, Option.map_some, Cmd.endAt_running _ _ _ hrun]
  · exact map_modFirst _ _ _ _ (fun x => Cmd.endAt_n _ _ _ x)
  · refine find_modFirst_ne _ _ _ _ (fun x hx => ?_) (fun x hx => ?_)
    · exact beq_false_of_ne (fun hxm => hm (hxm ▸ beq_iff_eq.mp hx))
    · rw [Cmd.endAt_n]
      exact beq_false_of_ne (fun hxm => hm (hxm ▸ beq_iff_eq.mp hx))

/-- Settles O45: an admitted entry goes to its command's own rule, and each rule ends it at once, opens a fence or starts a transfer. -/
theorem queueCommands : Obligations.QueueCommands := by
  unfold Obligations.QueueCommands
  intro s k op n e q rest h
  refine ⟨?_, ?_, fun hop => exec_unassignedOpcode_of_admits h hop, ?_, ?_, fun v x c st val => v.endCmd_ends st val⟩
  · rintro rfl
    exact congrArg Host.Outcome.next (State.admitOp_of_admits h _)
  · rintro rfl
    exact congrArg Host.Outcome.next (State.admitOp_of_admits h _)
  · rintro rfl
    exact congrArg Host.Outcome.next (State.admitOp_of_admits h _)
  · rintro rfl hhdr hres hzero
    have hends {st v : Nat} := exec_query_of_plain (st := st) (v := v) h hhdr hres hzero
    refine ⟨fun hw x hx => hends ?_, fun hw hx => hends ?_, fun hw => hends ?_, fun hw => hends ?_, fun t v hw ht hv => hends ?_,
      fun hw hv => hends ?_, fun hw => hends ?_⟩
    · rw [hw]; exact s.answer_edition k _ hx
    · rw [hw]; exact s.answer_noScript k _ hx
    · rw [hw]; rfl
    · rw [hw]; rfl
    · rw [hw]; exact s.answer_live k _ ht hv
    · rw [hw]; exact s.answer_noLive k _ hv
    · exact s.answer_unassigned k _ hw

end Sys2Proof.Machine

/-! The queue slots (R390 to R395, R434, R435): what replaces a slot, what an abort reaches, and what a write of a slot's control,
configuration and doorbell registers does in each of its states. -/
namespace Sys2Proof.Machine

/-! ## One slot of the state -/

section
variable {s : State} {k : Nat} {q : QSlot} (hq : s.slots[k]? = some q)
include hq

theorem State.slot_of_getElem : s.slot k = q := by
  rw [State.slot, hq, Option.getD_some]

/-- A change of a slot is its replacement. -/
theorem State.modSlot_eq_put (f : QSlot → QSlot) : s.modSlot k f = s.modSlot k (fun _ => f q) := by
  have hlist : s.slots.modify k f = s.slots.modify k (fun _ => f q) := by
    apply List.ext_getElem?
    intro j
    by_cases hj : k = j
    · rw [← hj, List.getElem?_modify_eq, List.getElem?_modify_eq, hq]; rfl
    · rw [List.getElem?_modify_ne _ _ hj, List.getElem?_modify_ne _ _ hj]
  unfold State.modSlot listMod
  rw [hlist]

theorem State.getElem_modSlot (f : QSlot → QSlot) : (s.modSlot k f).slots[k]? = some (f q) := by
  rw [State.modSlot_slots, List.getElem?_modify_eq, hq]; rfl

theorem State.slot_modSlot (f : QSlot → QSlot) : (s.modSlot k f).slot k = f q := State.slot_of_getElem (State.getElem_modSlot hq f)

end

@[simp] theorem State.modSlot_put (s : State) (k : Nat) (x : QSlot) (f : QSlot → QSlot) :
    (s.modSlot k (fun _ => x)).modSlot k f = s.modSlot k (fun _ => f x) := by
  unfold State.modSlot listMod
  rw [List.modify_modify_eq]
  rfl

theorem QSlot.pageOpen_iff (q : QSlot) : q.pageOpen = true ↔ q.st = .on := by
  rw [QSlot.pageOpen, beq_iff_eq]

theorem QSlot.pageOpen_of_ne (q : QSlot) (h : q.st ≠ .on) : q.pageOpen = false :=
  Bool.eq_false_iff.mpr (mt q.pageOpen_iff.mp h)

/-! ## What an abort reaches (R435) -/

/-- From s to t only the launches and what the host side holds for them have changed. -/
def State.LaunchesOnly (s t : State) : Prop := t = { s with ctxs := t.ctxs, host := t.host }

theorem State.launchesOnly_trans {s t u : State} (h : s.LaunchesOnly t) (h' : t.LaunchesOnly u) : s.LaunchesOnly u := by
  unfold State.LaunchesOnly at *
  rw [h', h]

theorem State.launchesOnly_foldl {α : Type} (f : State → α → State) (hf : ∀ s x, State.LaunchesOnly s (f s x)) (l : List α) (s : State) :
    s.LaunchesOnly (l.foldl f s) := by
  induction l generalizing s with
  | nil => rfl
  | cons x l ih => exact State.launchesOnly_trans (hf s x) (ih _)

theorem State.ctx_modCtx (s : State) (id : Nat) (f : Ctx → Ctx) (hf : ∀ c, (f c).id = c.id) :
    (s.modCtx id f).ctx? id = (s.ctx? id).map f :=
  find_modFirst (fun c : Ctx => c.id == id) f s.ctxs (fun c hc => by rwa [hf])

/-- A launch that the abort of its queue has cancelled comes to its end, if it has, with no record. -/
theorem State.settleCtx_aborted (s : State) (id : Nat) (c : Ctx) (hc : s.ctx? id = some c) (hab : c.aborted = true)
    (hsw : c.swapping = false) : s.LaunchesOnly (s.settleCtx id) := by
  have hfinish : s.LaunchesOnly (s.finishLaunch id) := by
    simp only [State.finishLaunch, hc, hab, if_true]
    rfl
  simp only [State.settleCtx, hc, hsw, Bool.false_eq_true, if_false]
  split
  · rfl
  · exact hfinish

/-- A launch that ends early is not swapped. -/
theorem State.ctx_endLaunch (s : State) (id st : Nat) (c : Ctx) (hc : s.ctx? id = some c) (hrun : c.status = none) :
    ∃ d, (s.endLaunch id st).ctx? id = some d ∧ d.aborted = c.aborted ∧ d.swapping = false := by
  have hwaits : (s.dropWaits (· == .args id)).ctx? id = some c := hc
  rw [State.endLaunch, State.ctx_modCtx _ _ _ (fun c => by split <;> rfl), hwaits]
  exact ⟨_, rfl, by simp [hrun]⟩

/-- A launch marked as aborted that does not run is cancelled with no record. -/
theorem State.endLaunch_settleCtx_launchesOnly (s : State) (id st : Nat) (c : Ctx) (hc : s.ctx? id = some c) (hrun : c.status = none)
    (hab : c.aborted = true) : s.LaunchesOnly ((s.endLaunch id st).settleCtx id) := by
  obtain ⟨d, hd, hdab, hdsw⟩ := s.ctx_endLaunch id st c hc hrun
  have hend : s.LaunchesOnly (s.endLaunch id st) := rfl
  exact State.launchesOnly_trans hend (State.settleCtx_aborted _ id d hd (hdab.trans hab) hdsw)

theorem State.abortCtx_launchesOnly (s : State) (id : Nat) : s.LaunchesOnly (s.abortCtx id) := by
  unfold State.abortCtx
  split
  case h_1 => rfl
  case h_2 c hc =>
    split
    case isTrue => rfl
    case isFalse hrun =>
      split
      case isTrue => rfl
      case isFalse =>
        have hmark := State.ctx_modCtx s id (fun c => { c with aborted := true }) (fun _ => rfl)
        rw [hc] at hmark
        have hmarked : s.LaunchesOnly (s.modCtx id (fun c => { c with aborted := true })) := rfl
        exact State.launchesOnly_trans hmarked
          (State.endLaunch_settleCtx_launchesOnly _ id ST_OK _ hmark (Option.not_isSome_iff_eq_none.mp hrun) rfl)

/-- What an abort takes from its slot: the entries that wait, and the records of the commands that run. -/
def QSlot.cutOff (q : QSlot) : QSlot :=
  { q with
    waiting := []
    torn := none
    fence := none
    loose := q.loose ++ q.cmds.filter (fun c => c.op != 1 && c.status.isNone)
    cmds := q.cmds.filter (fun c => c.op == 1 || c.status.isSome) }

/-- Beside its slot an abort changes only launches. -/
theorem State.abortSlot_launchesOnly (s : State) (k : Nat) : (s.modSlot k QSlot.cutOff).LaunchesOnly (s.abortSlot k) := by
  have hwaits : (s.modSlot k QSlot.cutOff).LaunchesOnly ((s.modSlot k QSlot.cutOff).dropWaits (fun w => w == .fetch k)) := rfl
  exact State.launchesOnly_trans hwaits (State.launchesOnly_foldl State.abortCtx State.abortCtx_launchesOnly _ _)

/-! ## The control register (R391, R434) -/

/-- A slot with the bits EN and ABORT of a control write. -/
def QSlot.withCtl (q : QSlot) (v : BitVec 32) : QSlot := { q with en := v.getLsbD 31, abort := v.getLsbD 30 }

/-- A slot whose destroy begins. -/
def QSlot.stopped (q : QSlot) (abort : Bool) : QSlot :=
  { q with
    st := .stopping
    destroy := some ⟨abort, q.count, (q.waiting.filter (fun e => rd e.2 0 1 == 1)).length + (q.cmds.filter (·.op == 1)).length,
      0, 0, 0, 0, 0, 0, 0⟩ }

theorem State.beginDestroy_drain (s : State) (k : Nat) : s.beginDestroy k false = s.modSlot k (fun q => q.stopped false) := rfl

theorem State.beginDestroy_abort (s : State) (k : Nat) :
    s.beginDestroy k true = (s.modSlot k (fun q => q.stopped true)).abortSlot k := rfl

/-- The configuration words that were held take effect. -/
def State.putCfgWords (s : State) (l : List (Nat × Word)) : State := l.foldl (fun s e => s.putCfgWord e.1 e.2) s

theorem State.putCfgWords_frame (s : State) (l : List (Nat × Word)) : s.putCfgWords l = { s with regs := (s.putCfgWords l).regs } := by
  induction l generalizing s with
  | nil => rfl
  | cons e l ih => exact ih (s.putCfgWord e.1 e.2)

theorem State.putCfgWords_modSlot (s : State) (k : Nat) (f : QSlot → QSlot) (l : List (Nat × Word)) :
    (s.modSlot k f).putCfgWords l = (s.putCfgWords l).modSlot k f := by
  induction l generalizing s with
  | nil => rfl
  | cons e l ih => exact ih (s.putCfgWord e.1 e.2)

/-- A slot whose way to ON begins. -/
def QSlot.starts (q : QSlot) : QSlot :=
  { q with st := .starting, heldCfg := [], pendEnable := false, pendDisable := false, error := false, errStatus := 0 }

theorem State.startSlot_put (s : State) (k : Nat) (x : QSlot) (q : QSlot) (hq : s.slots[k]? = some q) :
    (s.modSlot k (fun _ => x)).startSlot k = (s.putCfgWords x.heldCfg).modSlot k (fun _ => x.starts) := by
  have hheld : (s.modSlot k (fun _ => x)).slot k = x := State.slot_modSlot hq _
  calc (s.modSlot k (fun _ => x)).startSlot k
      = ((s.modSlot k (fun _ => x)).putCfgWords ((s.modSlot k (fun _ => x)).slot k).heldCfg).modSlot k QSlot.starts := rfl
    _ = (s.putCfgWords x.heldCfg).modSlot k (fun _ => x.starts) := by rw [hheld, State.putCfgWords_modSlot, State.modSlot_put]

/-- What a control write does, by the state of its slot. -/
theorem exec_queueEnWritten {s : State} {k : Nat} {q : QSlot} (hopen : s.barOpen = true) (hk : k < 9) (hq : s.slots[k]? = some q)
    (v : BitVec 32) :
    exec (.queueEnWritten k v) s = .next (match q.st with
      | .off =>
        if v.getLsbD 31 then (s.putCfgWords q.heldCfg).modSlot k (fun _ => (q.withCtl v).starts) else s.modSlot k (fun _ => q.withCtl v)
      | .starting => s.modSlot k (fun _ => { q.withCtl v with pendDisable := !v.getLsbD 31 })
      | .on =>
        if v.getLsbD 31 then s.modSlot k (fun _ => q.withCtl v)
        else (s.modSlot k (fun _ => q.withCtl v)).beginDestroy k (v.getLsbD 30)
      | .stopping =>
        if v.getLsbD 31 then s.modSlot k (fun _ => { q.withCtl v with pendEnable := true })
        else if v.getLsbD 30 ∧ !q.aborting then
          (s.modSlot k (fun _ =>
            { q.withCtl v with pendEnable := false, destroy := q.destroy.map (fun d => { d with abort := true }) })).abortSlot k
        else s.modSlot k (fun _ => { q.withCtl v with pendEnable := false })) := by
  have hctl : s.modSlot k (fun q => { q with en := v.getLsbD 31, abort := v.getLsbD 30 }) = s.modSlot k (fun _ => q.withCtl v) :=
    State.modSlot_eq_put hq _
  have hstart := s.startSlot_put k (q.withCtl v) q hq
  show execQueueEnWritten k v s = _
  simp only [execQueueEnWritten, if_neg (Nat.not_le.mpr hk), State.whenOpen_on s _ hopen, State.slot_of_getElem hq, hctl, hstart,
    State.modSlot_put]
  cases q.st <;> rfl

/-- A destroy that begins leaves a drained slot its work and takes an aborted one's, and changes no memory. -/
theorem State.beginDestroy_put {s : State} {k : Nat} {q : QSlot} (hq : s.slots[k]? = some q) (x : QSlot) (ab : Bool) :
    let t := (s.modSlot k (fun _ => x)).beginDestroy k ab
    ∃ q', t.slots[k]? = some q' ∧ q'.st = .stopping ∧ q'.destroy.any (fun d => d.abort == ab) = true
      ∧ t.hbm = s.hbm ∧ t.tables = s.tables
      ∧ (ab = false → q'.waiting = x.waiting ∧ q'.cmds = x.cmds ∧ t = { s with slots := t.slots })
      ∧ (ab = true → q'.waiting = [] ∧ q'.torn = none ∧ q'.fence = none) := by
  have hstop : ((s.modSlot k (fun _ => x)).modSlot k (fun q => q.stopped ab)) = s.modSlot k (fun _ => x.stopped ab) := s.modSlot_put k x _
  cases ab with
  | false =>
    rw [State.beginDestroy_drain, hstop]
    exact ⟨x.stopped false, State.getElem_modSlot hq _, rfl, rfl, rfl, rfl, fun _ => ⟨rfl, rfl, rfl⟩, nofun⟩
  | true =>
    have habort := (s.modSlot k (fun _ => x.stopped true)).abortSlot_launchesOnly k
    rw [State.modSlot_put] at habort
    rw [State.beginDestroy_abort, hstop, habort]
    exact ⟨(x.stopped true).cutOff, State.getElem_modSlot hq _, rfl, rfl, rfl, rfl, nofun, fun _ => ⟨rfl, rfl, rfl⟩⟩

/-! ## A slot that has started (R392) -/

theorem exec_queueStarted {s : State} {k : Nat} {q : QSlot} (hs : s.serving = true) (hq : s.slots[k]? = some q) (hst : q.st = .starting)
    (hpend : q.pendDisable = false) :
    exec (.queueStarted k) s = .next (if s.slotValid k then s.modSlot k (fun _ => q.fresh)
      else (s.modSlot k (fun _ => { q with st := .off, pendDisable := false, errStatus := ST_Q_BAD_CFG })).latch Reg.CFE_STATUS 3) := by
  have hbad := State.modSlot_eq_put hq (fun q => { q with st := .off, pendDisable := false, errStatus := ST_Q_BAD_CFG })
  show execQueueStarted k s = _
  simp only [execQueueStarted, State.whenServing_on s _ hs, State.slot_of_getElem hq, hst, hpend, hbad, State.modSlot_eq_put hq QSlot.fresh]
  cases s.slotValid k <;> rfl

/-! ## The configuration registers (R392) -/

/-- Each word of an aligned 64-bit access lies on the register that the access lies on, and on no other. -/
theorem onReg_word {a : Access} {base d : Nat} (v : Word) (hsize : a.size = 8) (hoff : a.off % 8 = 0) (hbase : base % 8 = 0)
    (hd : d = 0 ∨ d = 4) : onReg ⟨a.bar, a.off + d, 4, v⟩ base = onReg a base := by
  rw [Bool.eq_iff_iff]
  simp only [onReg, hsize, Nat.reduceBEq, Bool.true_or, Bool.or_true, Bool.and_true, Bool.and_eq_true, decide_eq_true_eq, beq_iff_eq]
  omega

theorem cfgTarget_onReg {a : Access} {k r : Nat} (h : cfgTarget a = some (k, r)) : onReg a r = true := by
  obtain ⟨x, hx, hk⟩ := Option.bind_eq_some_iff.mp h
  split at hk
  · cases hk; exact List.find?_some hx
  · cases hk

/-- Each word of a 64-bit configuration write names the slot and the register that the write names. -/
theorem cfgTarget_word {a : Access} {d : Nat} (v : Word) (hsize : a.size = 8) (hoff : a.off % 8 = 0) (hd : d = 0 ∨ d = 4) :
    cfgTarget ⟨a.bar, a.off + d, 4, v⟩ = cfgTarget a := by
  have hslot : (a.off + d - 0x101000) / 0x100 = (a.off - 0x101000) / 0x100 := by omega
  have hreg (c k : Nat) (hc : c % 8 = 0) : onReg ⟨a.bar, a.off + d, 4, v⟩ (c + k * 0x100) = onReg a (c + k * 0x100) :=
    onReg_word v hsize hoff (by omega) hd
  simp only [cfgTarget, hslot, List.find?_cons, List.find?_nil, Reg.Q_SQBASE, Reg.Q_CQBASE, Reg.Q_DREC, Reg.Q_CFG, hreg 0x101008 _ rfl,
    hreg 0x101010 _ rfl, hreg 0x101018 _ rfl, hreg 0x101020 _ rfl]

theorem State.barOpen_writeQueueCfg (s : State) (k r : Nat) (a : Access) : (State.writeQueueCfg k r a s).barOpen = s.barOpen := by
  simp only [State.writeQueueCfg]
  split
  · rfl
  · rfl
  · rw [State.latch_frame]; rfl

/-- A 64-bit configuration write is its two words, the low one first. -/
theorem exec_queueConfigWrite_words {s : State} {a : Access} {k r : Nat} (hopen : s.barOpen = true) (ht : cfgTarget a = some (k, r))
    (hsize : a.size = 8) : ∃ t, exec (.queueConfigWrite ⟨a.bar, a.off, 4, a.value⟩) s = .next t
      ∧ exec (.queueConfigWrite a) s = exec (.queueConfigWrite ⟨a.bar, a.off + 4, 4, a.value >>> 32⟩) t := by
  have hoff : a.off % 8 = 0 := by
    have hon := cfgTarget_onReg ht
    simp only [onReg, hsize, Bool.and_eq_true, beq_iff_eq] at hon
    omega
  have hlow : cfgTarget ⟨a.bar, a.off, 4, a.value⟩ = some (k, r) := (cfgTarget_word (d := 0) _ hsize hoff (Or.inl rfl)).trans ht
  have hhigh : cfgTarget ⟨a.bar, a.off + 4, 4, a.value >>> 32⟩ = some (k, r) := (cfgTarget_word _ hsize hoff (Or.inr rfl)).trans ht
  refine ⟨State.writeQueueCfg k r ⟨a.bar, a.off, 4, a.value⟩ s, ?_, ?_⟩
  · show execQueueConfigWrite _ s = _
    simp [execQueueConfigWrite, hlow, State.whenOpen_on s _ hopen, byWords]
  · show execQueueConfigWrite a s = execQueueConfigWrite _ _
    simp [execQueueConfigWrite, ht, hhigh, State.whenOpen, hopen, State.barOpen_writeQueueCfg, byWords, hsize]

theorem exec_queueConfigWrite_word {s : State} {a : Access} {k r : Nat} (hopen : s.barOpen = true) (ht : cfgTarget a = some (k, r))
    (hsize : a.size = 4) : exec (.queueConfigWrite a) s = .next (State.writeQueueCfg k r a s) := by
  show execQueueConfigWrite a s = _
  simp [execQueueConfigWrite, ht, State.whenOpen_on s _ hopen, byWords, hsize]

section
variable {s : State} {k r : Nat} {q : QSlot} (hq : s.slots[k]? = some q) (a : Access)
include hq

theorem State.writeQueueCfg_off (hst : q.st = .off) : State.writeQueueCfg k r a s
    = (s.modSlot k (fun _ => { q with heldCfg := q.heldCfg.filter (fun e => !(e.1 == a.off)) })).setRegN r (rwInto a r (s.regN r)) := by
  simp only [State.writeQueueCfg, State.slot_of_getElem hq, hst]
  rw [State.modSlot_eq_put hq, hst]

theorem State.writeQueueCfg_stopping (hst : q.st = .stopping) : State.writeQueueCfg k r a s
    = s.modSlot k (fun _ => { q with heldCfg := keyPut q.heldCfg a.off a.value }) := by
  simp only [State.writeQueueCfg, State.slot_of_getElem hq, hst]
  rw [State.modSlot_eq_put hq, hst]

theorem State.writeQueueCfg_refused (hst : q.st = .on ∨ q.st = .starting) : State.writeQueueCfg k r a s = s.latch Reg.CFE_STATUS 3 := by
  rcases hst with hst | hst <;> simp only [State.writeQueueCfg, State.slot_of_getElem hq, hst]

end

/-! ## Doorbells (R394, R395) -/

theorem State.dbDrop_put {s : State} {k : Nat} {q : QSlot} (hq : s.slots[k]? = some q) (doorbell : Bool) : s.dbDrop k doorbell
    = (s.modSlot k (fun _ => { q with destroy := q.destroy.map (fun d => { d with drops := d.drops + b2n doorbell }) })).count
        (Reg.Q_DBDROP k) 1 := by
  rw [State.dbDrop, State.modSlot_eq_put hq]

section
variable {s : State} {k : Nat} {q : QSlot} (hopen : s.barOpen = true) (hk : k < 9) (hq : s.slots[k]? = some q) (v : BitVec 32)
include hopen hk hq

theorem exec_sqDb_closed (hst : q.st ≠ .on) : exec (.sqDb k v) s = .next (s.dbDrop k true) := by
  show execSqDb k v s = _
  simp only [execSqDb, if_neg (Nat.not_le.mpr hk), State.whenOpen_on s _ hopen, State.slot_of_getElem hq, q.pageOpen_of_ne hst,
    Bool.not_false, if_true]

theorem exec_cqDb_closed (hst : q.st ≠ .on) : exec (.cqDb k v) s = .next (s.dbDrop k true) := by
  show execCqDb k v s = _
  simp only [execCqDb, if_neg (Nat.not_le.mpr hk), State.whenOpen_on s _ hopen, State.slot_of_getElem hq, q.pageOpen_of_ne hst,
    Bool.not_false, if_true]

theorem exec_cqDb_on (hst : q.st = .on) : exec (.cqDb k v) s = .next (s.modSlot k (fun q => { q with consumed := v })) := by
  show execCqDb k v s = _
  simp only [execCqDb, if_neg (Nat.not_le.mpr hk), State.whenOpen_on s _ hopen, State.slot_of_getElem hq, q.pageOpen_iff.mpr hst,
    Bool.not_true, Bool.false_eq_true, if_false]

/-- A doorbell that does not go forward is stale. -/
theorem exec_sqDb_stale (hst : q.st = .on) (hstale : v = q.doorbell ∨ 2 ^ 31 ≤ (v - q.doorbell).toNat) :
    exec (.sqDb k v) s = .next (s.dbDrop k true) := by
  show execSqDb k v s = _
  simp only [execSqDb, if_neg (Nat.not_le.mpr hk), State.whenOpen_on s _ hopen, State.slot_of_getElem hq, q.pageOpen_iff.mpr hst,
    if_pos hstale, Bool.not_true, Bool.false_eq_true, if_false]

section
variable (hst : q.st = .on) (hnew : v ≠ q.doorbell) (hfwd : (v - q.doorbell).toNat < 2 ^ 31)
include hst hnew hfwd

theorem exec_sqDb_taken (hring : (v - q.fetched).toNat ≤ 2 ^ s.sqLog2 k) :
    exec (.sqDb k v) s = .next (s.modSlot k (fun q => { q with doorbell := v })) := by
  have hstale : ¬(v = q.doorbell ∨ 2 ^ 31 ≤ (v - q.doorbell).toNat) :=
    not_or.mpr ⟨hnew, Nat.not_le.mpr hfwd⟩
  show execSqDb k v s = _
  simp only [execSqDb, if_neg (Nat.not_le.mpr hk), State.whenOpen_on s _ hopen, State.slot_of_getElem hq, q.pageOpen_iff.mpr hst,
    if_neg hstale, if_neg (Nat.not_lt.mpr hring), Bool.not_true, Bool.false_eq_true, if_false]

/-- A doorbell past the ring ends the slot's work with a record of its own. -/
theorem exec_sqDb_past (hring : 2 ^ s.sqLog2 k < (v - q.fetched).toNat) (herr : q.error = false) :
    ∃ c, c.status = some ST_Q_DOORBELL ∧ exec (.sqDb k v) s = .next ((s.free.2.modSlot k (fun q =>
      { q with error := true, errStatus := ST_Q_DOORBELL, cmds := q.cmds ++ [c] })).latch Reg.CFE_STATUS 1) := by
  have hstale : ¬(v = q.doorbell ∨ 2 ^ 31 ≤ (v - q.doorbell).toNat) :=
    not_or.mpr ⟨hnew, Nat.not_le.mpr hfwd⟩
  refine ⟨⟨q.count, fld s.free.1.toNat 31 0, 0, [], some ST_Q_DOORBELL, fld s.free.1.toNat 63 32, s.time.gtime, none, [], ⟨[], none⟩⟩,
    rfl, ?_⟩
  show execSqDb k v s = _
  simp only [execSqDb, if_neg (Nat.not_le.mpr hk), State.whenOpen_on s _ hopen, State.slot_of_getElem hq, q.pageOpen_iff.mpr hst,
    if_neg hstale, if_pos hring, herr, Bool.not_true, Bool.false_eq_true, if_false]

end

theorem exec_doorbellAccessDropped {a : Access} (hbar : a.bar = 2) (hpage : a.off / 0x10000 = k) (write : Bool)
    (hdrop : ¬(isDoorbell write a = true ∧ q.st = .on)) :
    exec (.doorbellAccessDropped k write a) s = .next (if write then s.dbDrop k (isDoorbell write a)
      else (s.dbDrop k (isDoorbell write a)).emit (.readData 0)) := by
  have helse : ¬(9 ≤ k ∨ a.bar ≠ 2 ∨ a.off / 0x10000 ≠ k) := by omega
  rw [← q.pageOpen_iff] at hdrop
  show execDoorbellAccessDropped k write a s = _
  simp only [execDoorbellAccessDropped, if_neg helse, State.whenOpen_on s _ hopen, State.slot_of_getElem hq, if_neg hdrop]

end

/-- An error of a slot that is latched in CFE_STATUS leaves the slot as it was put, and the rest of the state but for an open value. -/
theorem State.slotError_says {s : State} {k : Nat} {q : QSlot} (hq : s.slots[k]? = some q) (f : QSlot → QSlot) (b : Nat) (hb : b < 64) :
    let t := (s.free.2.modSlot k f).latch Reg.CFE_STATUS b
    t = { s with slots := t.slots, regs := t.regs, out := t.out, freeCtr := t.freeCtr } ∧ t.slots[k]? = some (f q)
      ∧ (s.Sound → t.regB Reg.CFE_STATUS b = true) := by
  refine ⟨?_, ?_, fun ⟨hmem, _⟩ => ?_⟩
  · rw [State.latch_frame]; rfl
  · rw [State.latch_slots]
    exact State.getElem_modSlot (s := s.free.2) hq f
  · have hreg := (s.free.2.modSlot k f).reg_latch Reg.CFE_STATUS b hmem (by decide)
    rw [State.regB, State.regN, hreg, BitVec.toNat_or, Nat.testBit_or, BitVec.toNat_ofNat,
      Nat.mod_eq_of_lt (Nat.pow_lt_pow_right (by decide) hb), Nat.testBit_two_pow_self, Bool.or_true]

/-- Settles O43: each register of a slot is written as the slot's state has it, and a doorbell is taken, stale or past the ring. -/
theorem queueSlots : Obligations.QueueSlots := by
  unfold Obligations.QueueSlots
  intro s k q hopen hk hq put
  refine ⟨fun v => ?_, exec_queueStarted (hq := hq), fun a r ht hsize => ?_, fun a r => exec_queueConfigWrite_words hopen,
    fun v => ?_, fun a hbar hpage write hdrop => ?_⟩
  · intro en ab q1
    rw [exec_queueEnWritten hopen hk hq v]
    refine ⟨fun hst (hen : v.getLsbD 31 = true) => ?_, fun hst (hen : v.getLsbD 31 = false) => ?_, fun hst => ?_,
      fun hst (hen : v.getLsbD 31 = true) => ?_, fun hst (hen : v.getLsbD 31 = false) => ?_,
      fun hst (hen : v.getLsbD 31 = true) => ?_,
      fun hst (hen : v.getLsbD 31 = false) (hab : v.getLsbD 30 = false ∨ q.aborting = true) => ?_⟩
    · have hheld : (s.putCfgWords q.heldCfg).slots[k]? = some q := by rw [State.putCfgWords_frame]; exact hq
      have hframe := s.putCfgWords_frame q.heldCfg
      simp only [hst, hen, if_true]
      exact ⟨_, rfl, by rw [hframe]; rfl, State.getElem_modSlot hheld _, rfl⟩
    · simp only [hst, hen, Bool.false_eq_true, if_false]; rfl
    · simp only [hst]; rfl
    · simp only [hst, hen, if_true]; rfl
    · simp only [hst, hen, Bool.false_eq_true, if_false]
      obtain ⟨q', hq', hrest⟩ := State.beginDestroy_put hq (q.withCtl v) (v.getLsbD 30)
      exact ⟨_, q', rfl, hq', hrest⟩
    · simp only [hst, hen, if_true]; rfl
    · have hmode : ¬(v.getLsbD 30 = true ∧ (!q.aborting) = true) := by
        rcases hab with hab | hab <;> simp only [hab, Bool.false_eq_true, Bool.not_true, false_and, and_false, not_false_iff]
      simp only [hst, hen, hmode, Bool.false_eq_true, if_false]; rfl
  · rw [exec_queueConfigWrite_word hopen ht hsize]
    exact ⟨fun hst => congrArg _ (State.writeQueueCfg_off hq a hst), fun hst => congrArg _ (State.writeQueueCfg_refused hq a hst),
      fun hst => congrArg _ (State.writeQueueCfg_stopping hq a hst)⟩
  · intro dropped
    have hdrop : s.dbDrop k true = dropped := State.dbDrop_put hq true
    refine ⟨fun hst => ⟨?_, ?_⟩, fun hst => ?_, fun hst hstale => ?_, fun hst hnew hfwd => ⟨fun hring => ?_, fun hring herr => ?_⟩⟩
    · rw [exec_sqDb_closed hopen hk hq v hst, hdrop]
    · rw [exec_cqDb_closed hopen hk hq v hst, hdrop]
    · rw [exec_cqDb_on hopen hk hq v hst, State.modSlot_eq_put hq]
    · rw [exec_sqDb_stale hopen hk hq v hst hstale, hdrop]
    · rw [exec_sqDb_taken hopen hk hq v hst hnew hfwd hring, State.modSlot_eq_put hq]
    · obtain ⟨c, hc, hexec⟩ := exec_sqDb_past hopen hk hq v hst hnew hfwd hring herr
      obtain ⟨hframe, hslot, hlatch⟩ := State.slotError_says hq
        (fun q => { q with error := true, errStatus := ST_Q_DOORBELL, cmds := q.cmds ++ [c] }) 1 (by decide)
      exact ⟨_, _, c, hexec, hframe, hslot, rfl, hc, hlatch⟩
  · rw [exec_doorbellAccessDropped hopen hk hq hbar hpage write hdrop, State.dbDrop_put hq]

end Sys2Proof.Machine

/-! Facts about lists and options that the model's file does not import. -/

namespace Sys2Proof.Machine

theorem find_congr {α : Type} {p q : α → Bool} {l : List α} (h : ∀ x ∈ l, p x = q x) : l.find? p = l.find? q := by
  induction l with
  | nil => rfl
  | cons x rest ih =>
    rw [List.find?_cons, List.find?_cons, h x List.mem_cons_self, ih fun y hy => h y (List.mem_cons_of_mem x hy)]

theorem filterMapCongr {α β : Type} {f g : α → Option β} {l : List α} (h : ∀ x ∈ l, f x = g x) : l.filterMap f = l.filterMap g := by
  induction l with
  | nil => rfl
  | cons x rest ih =>
    rw [List.filterMap_cons, List.filterMap_cons, h x List.mem_cons_self, ih fun y hy => h y (List.mem_cons_of_mem x hy)]

theorem flatMapCongr {α β : Type} {f g : α → List β} {l : List α} (h : ∀ x ∈ l, f x = g x) : l.flatMap f = l.flatMap g := by
  rw [List.flatMap_def, List.flatMap_def, List.map_congr_left h]

theorem length_le_of_nodup {l l' : List Nat} (hn : l.Nodup) (hs : ∀ x ∈ l, x ∈ l') : l.length ≤ l'.length := by
  induction l generalizing l' with
  | nil => exact Nat.zero_le _
  | cons x rest ih =>
    obtain ⟨hx, hrest⟩ := List.nodup_cons.mp hn
    have hin : x ∈ l' := hs x List.mem_cons_self
    have hle := ih (l' := l'.erase x) hrest fun y hy =>
      (List.mem_erase_of_ne fun he : y = x => hx (he ▸ hy)).mpr (hs y (List.mem_cons_of_mem x hy))
    rw [List.length_erase_of_mem hin] at hle
    have hpos := List.length_pos_of_mem hin
    rw [List.length_cons]
    omega

end Sys2Proof.Machine

/-! The scalar instructions (R353, R354, R363, R365, R366): the issue of an instruction that changes its own share only, and what
each of them leaves. -/
namespace Sys2Proof.Machine

/-! ## The registers of a share -/

@[simp] theorem ClCtx.setS_cl (k : ClCtx) (n : Nat) (v : Word) : (k.setS n v).cl = k.cl := by
  unfold ClCtx.setS
  split <;> rfl

@[simp] theorem ClCtx.setP_cl (k : ClCtx) (n : Nat) (b : Bool) : (k.setP n b).cl = k.cl := by
  unfold ClCtx.setP
  split <;> rfl

@[simp] theorem ClCtx.setT_cl (k : ClCtx) (n : Nat) (v : BitVec 128) : (k.setT n v).cl = k.cl := rfl

@[simp] theorem ClCtx.past_cl (k : ClCtx) (i : BWord) : (k.past i).cl = k.cl := k.advance_cl _

theorem ClCtx.s_setS_same (k : ClCtx) (v : Word) {n : Nat} (h0 : 0 < n) (hn : n < k.sreg.length) : (k.setS n v).s n = v := by
  have hne : n ≠ 0 := by omega
  simp [ClCtx.s, ClCtx.setS, hne, hn]

theorem ClCtx.s_setS_ne (k : ClCtx) (v : Word) {n m : Nat} (h : m ≠ n) : (k.setS n v).s m = k.s m := by
  unfold ClCtx.setS
  split
  · rfl
  · simp only [ClCtx.s, List.getD_eq_getElem?_getD, List.getElem?_set_ne (Ne.symm h)]

/-! ## Issue of an instruction that changes only its share -/

section
variable {s : State} {cl : Nat} {i : BWord} {regs : List Nat} {a : Site} (h : s.issues cl i regs a) {f : Site → State → Iss}
include h

theorem State.issue_eq_settle : s.issue cl i regs f = s.settleIssue a (wordsOf i) (fun _ s => s) (fun _ s => s) (f a s) :=
  State.issueWith_on s cl i regs _ _ f a h

theorem State.issue_regs_retired (g : ClCtx → ClCtx) (hg : ∀ k, (g k).cl = k.cl) (hf : f a s = a.regs s g) :
    s.Retired (s.issue cl i regs f) a ((g a.k).past i) := by
  rw [State.issue_eq_settle h, hf]
  exact State.regs_retired s cl i regs _ _ a g hg h

theorem State.issue_done_retired (hf : f a s = .done s) : s.Retired (s.issue cl i regs f) a (a.k.past i) := by
  rw [State.issue_eq_settle h, hf]
  exact s.issued_advance_retired cl i a h.2.1

theorem State.issue_branch_retired {pc : Nat} (hf : f a s = .branch s pc) :
    s.Retired (s.issue cl i regs f) a { a.k.branch pc with wait := none } := by
  rw [State.issue_eq_settle h, hf]
  exact s.issued_retired cl a h.2.1 (fun k => k.branch pc) (fun _ => rfl)

theorem State.issue_goto_retired (g : ClCtx → ClCtx) (hg : ∀ k, (g k).cl = k.cl) {pc : Nat} (hf : f a s = .goto (a.set s g) pc) :
    s.Retired (s.issue cl i regs f) a { g a.k with pc := pc, wait := none } := by
  rw [State.issue_eq_settle h, hf]
  exact s.set_issued_retired cl a h.2.1 g (fun k => { k with pc := pc }) hg (fun _ => rfl)

theorem State.issue_jump_retired {pc : Nat} (hf : f a s = .goto s pc) :
    s.Retired (s.issue cl i regs f) a { a.k with pc := pc, wait := none } := by
  rw [State.issue_eq_settle h, hf]
  exact s.issued_retired cl a h.2.1 (fun k => { k with pc := pc }) (fun _ => rfl)

theorem State.issue_fault {st code : Nat} (hf : f a s = .fault st code) :
    s.issue cl i regs f = (s.issued a id).trap a.c.id a.k.cl a.k.pc st code := by
  rw [State.issue_eq_settle h, hf]
  rfl

theorem State.issue_wait {w : Wait} (hf : f a s = .wait w) : s.issue cl i regs f = s.park a w := by
  rw [State.issue_eq_settle h, hf]
  rfl

theorem State.issue_fail {s1 : State} {st : Nat} (hf : f a s = .fail s1 st) :
    s.issue cl i regs f = (s1.issued a id).endLaunch a.c.id st := by
  rw [State.issue_eq_settle h, hf]
  rfl

end

/-! ## Arithmetic, CMP, SEL and LI (R365) -/

theorem State.alu_retired {s : State} {cl : Nat} {i : BWord} {a : Site} (h : s.issues cl i (aluRegs i) a) (op : Word → Word → Word) :
    s.Retired (s.alu cl i op) a ((a.k.setS i.d (op (a.k.s i.a) (opB i a.k))).past i) :=
  State.issue_regs_retired h (fun k => k.setS i.d (op (k.s i.a) (opB i k))) (fun _ => ClCtx.setS_cl _ _ _) rfl

theorem not_slt_eq_decide_le (x y : Word) : (!x.slt y) = decide (y.toInt ≤ x.toInt) := by
  simp [BitVec.slt, ← decide_not]

theorem not_ult_eq_decide_le (x y : Word) : (!x.ult y) = decide (y.toNat ≤ x.toNat) := by
  simp [BitVec.ult, ← decide_not]

/-- The conditions of CMP, each by its comparison of numbers. -/
theorem condHolds_eq (x y : Word) : ∀ f, condHolds f x y = (match f with
    | 0 => x == y
    | 1 => x != y
    | 2 => decide (x.toInt < y.toInt)
    | 3 => decide (y.toInt ≤ x.toInt)
    | 4 => decide (x.toNat < y.toNat)
    | _ => decide (y.toNat ≤ x.toNat))
  | 0 => rfl
  | 1 => rfl
  | 2 => rfl
  | 3 => not_slt_eq_decide_le x y
  | 4 => rfl
  | _ + 5 => not_ult_eq_decide_le x y

/-- Settles O2: each scalar instruction is a change of its share's own registers, retired by the issue. -/
theorem scalarResult : Obligations.ScalarResult := by
  unfold Obligations.ScalarResult
  refine ⟨fun s cl i a h => ?_, fun s cl i a => ⟨fun h => ?_, fun h => ?_, fun h => ?_⟩, fun k v b n => ?_⟩
  · exact ⟨⟨_, rfl, State.alu_retired h _⟩, ⟨_, rfl, State.alu_retired h _⟩, ⟨_, rfl, State.alu_retired h _⟩,
      ⟨_, rfl, State.alu_retired h _⟩, ⟨_, rfl, State.alu_retired h _⟩, ⟨_, rfl, State.alu_retired h _⟩,
      ⟨_, rfl, State.alu_retired h _⟩, ⟨_, rfl, State.alu_retired h _⟩⟩
  · have hr := State.issue_regs_retired (f := fun a s => a.regs s fun k => k.setP i.d (condHolds (fnFld i 3 1) (k.s i.a) (opB i k))) h _
      (fun _ => ClCtx.setP_cl _ _ _) rfl
    rw [condHolds_eq (a.k.s i.a) (opB i a.k) (fnFld i 3 1)] at hr
    exact ⟨_, rfl, hr⟩
  · exact ⟨_, rfl, State.issue_regs_retired h (fun k => k.setS i.d (if k.p i.c then k.s i.a else k.s i.b)) (fun _ => ClCtx.setS_cl _ _ _) rfl⟩
  · exact ⟨_, rfl, State.issue_regs_retired h (fun k => k.setS i.d (i.ext.getD (immOf i))) (fun _ => ClCtx.setS_cl _ _ _) rfl⟩
  · exact ⟨rfl, rfl, rfl, rfl, k.s_setS_same v, fun m => k.s_setS_ne v⟩

end Sys2Proof.Machine

/-! Loads, stores, branches, faults and tile descriptors (R351, R354, R363, R365 to R367, R370, R380). -/
namespace Sys2Proof.Machine

/-! ## Bit fields -/

theorem testBit_fld (w hi lo k : Nat) : (fld w hi lo).testBit k = (decide (k < hi + 1 - lo) && w.testBit (k + lo)) := by
  rw [fld, Nat.testBit_mod_two_pow, Nat.testBit_shiftRight, Nat.add_comm lo]

theorem testBit_putFld (w hi lo v k : Nat) (h : lo ≤ hi + 1) :
    (putFld w hi lo v).testBit k = if k < lo then w.testBit k else if k ≤ hi then v.testBit (k - lo) else w.testBit k := by
  have hlow : w % 2 ^ lo < 2 ^ lo := Nat.mod_lt _ (Nat.two_pow_pos _)
  have hmid : (v % 2 ^ (hi + 1 - lo)) <<< lo + w % 2 ^ lo < 2 ^ (hi + 1) := by
    have hv : v % 2 ^ (hi + 1 - lo) + 1 ≤ 2 ^ (hi + 1 - lo) := Nat.mod_lt _ (Nat.two_pow_pos _)
    have hsum : 2 ^ (hi + 1) = 2 ^ (hi + 1 - lo) * 2 ^ lo := by rw [← Nat.pow_add]; congr 1; omega
    have hle := Nat.mul_le_mul_right (2 ^ lo) hv
    rw [Nat.shiftLeft_eq, hsum]
    rw [Nat.add_mul] at hle
    omega
  rw [putFld, Nat.add_assoc, Nat.shiftLeft_add_eq_or_of_lt hmid, Nat.shiftLeft_add_eq_or_of_lt hlow]
  simp only [Nat.testBit_or, Nat.testBit_shiftLeft, Nat.testBit_shiftRight, Nat.testBit_mod_two_pow]
  by_cases h1 : k < lo
  · have h2 : ¬hi + 1 ≤ k := by omega
    have h3 : ¬lo ≤ k := by omega
    simp [h1, h2, h3]
  · have h3 : lo ≤ k := by omega
    by_cases h2 : k ≤ hi
    · have h4 : ¬hi + 1 ≤ k := by omega
      have h5 : k - lo < hi + 1 - lo := by omega
      simp [h1, h2, h3, h4, h5]
    · have h4 : hi + 1 ≤ k := by omega
      have h5 : ¬k - lo < hi + 1 - lo := by omega
      simp [h1, h2, h4, h5]

/-- A field that has been put reads as its value, cut to its width. -/
theorem fld_putFld_same (w hi lo v : Nat) (h : lo ≤ hi + 1) : fld (putFld w hi lo v) hi lo = v % 2 ^ (hi + 1 - lo) := by
  apply Nat.eq_of_testBit_eq
  intro k
  rw [testBit_fld, testBit_putFld _ _ _ _ _ h, Nat.testBit_mod_two_pow, Nat.add_sub_cancel]
  by_cases hk : k < hi + 1 - lo
  · have h1 : ¬k + lo < lo := by omega
    have h2 : k + lo ≤ hi := by omega
    simp [hk, h1, h2]
  · simp [hk]

/-- Fields beside the one that has been put read as before. -/
theorem fld_putFld_disjoint (w hi lo v hi' lo' : Nat) (h : lo ≤ hi + 1) (hd : hi' < lo ∨ hi < lo') :
    fld (putFld w hi lo v) hi' lo' = fld w hi' lo' := by
  apply Nat.eq_of_testBit_eq
  intro k
  rw [testBit_fld, testBit_putFld _ _ _ _ _ h, testBit_fld]
  by_cases hk : k < hi' + 1 - lo'
  · rcases hd with hd | hd
    · have h1 : k + lo' < lo := by omega
      simp [h1]
    · have h2 : ¬k + lo' ≤ hi := by omega
      simp [h2]
  · simp [hk]

theorem fld_mod_two_pow (w n hi lo : Nat) (h : hi < n) : fld (w % 2 ^ n) hi lo = fld w hi lo := by
  apply Nat.eq_of_testBit_eq
  intro k
  rw [testBit_fld, testBit_fld, Nat.testBit_mod_two_pow]
  by_cases hk : k < hi + 1 - lo
  · have h1 : k + lo < n := by omega
    simp [h1]
  · simp [hk]

/-! ## LD and ST (R351, R354, R365) -/

theorem ctx_site {s : State} {cl : Nat} {a : Site} (h : s.site? cl = some a) : s.ctx? a.c.id = some a.c := by
  unfold State.site? at h
  split at h
  · cases h
  case h_2 u _ =>
    split at h
    case isFalse => cases h
    case isTrue =>
      obtain ⟨c, hc, h⟩ := Option.bind_eq_some_iff.mp h
      obtain ⟨k, _, h⟩ := Option.bind_eq_some_iff.mp h
      split at h
      · cases h
        have hid : c.id = u.ctx := by simpa using List.find?_some hc
        rw [hid]; exact hc
      · cases h

theorem length_natLE (n v : Nat) : (natLE n v).length = n := by
  induction n generalizing v with
  | zero => rfl
  | succ n ih => exact congrArg (· + 1) (ih _)

theorem State.meet_good {s : State} {a : Site} {off len : Nat} (h : s.ctxBad a.c a.k off len = false) : s.meet a off len .good = (s, true) := by
  simp [State.meet, h]

theorem State.ctxWrite_at {s : State} {c : Ctx} {k : ClCtx} {off base : Nat} {b : Bytes} (h : s.frameAt c k off b.length = some base) :
    s.ctxWrite c k off b = s.scrWrite k.cl base b := by
  simp only [State.ctxWrite, h]

section
variable {s : State} {cl : Nat} {i : BWord} {a : Site}

theorem exec_ld_scratch (h : s.issues cl i [i.d, i.a] a) (hspr : fnBit i 3 = false) (hin : (s.readAt a.c a.k (a.addr i) (accSize i)).isSome = true)
    (hal : a.addr i % accSize i = 0) (hclash : a.k.clash [⟨a.addr i, accSize i⟩] [] = false)
    (hbad : s.ctxBad a.c a.k (a.addr i) (accSize i) = false) :
    let v := leNat (s.ctxRead a.c a.k (a.addr i) (accSize i))
    ∃ t, exec (.ld cl i .good) s = .next t
      ∧ s.Retired t a ((a.k.setS i.d (if fnBit i 2 then BitVec.ofInt 64 (sext (8 * accSize i) v) else BitVec.ofNat 64 v)).past i) := by
  refine ⟨_, rfl, State.issue_regs_retired h _ (fun _ => ClCtx.setS_cl _ _ _) ?_⟩
  simp only [hspr, Option.isNone_iff_eq_none, Option.isSome_iff_ne_none.mp hin, hal, hclash, State.meet_good hbad, if_true, if_false,
    ne_eq, not_true_eq_false, Bool.false_eq_true]

theorem exec_ld_special (h : s.issues cl i [i.d, i.a] a) (hspr : fnBit i 3 = true) (ecc : GranuleHealth) {w : Word}
    (hw : s.spr a (immOf i).toNat = some w) :
    ∃ t, exec (.ld cl i ecc) s = .next t ∧ s.Retired t a ((a.k.setS i.d w).past i) := by
  refine ⟨_, rfl, State.issue_regs_retired h (fun k => k.setS i.d w) (fun _ => ClCtx.setS_cl _ _ _) ?_⟩
  simp only [hspr, hw, if_true]

theorem exec_ld_range (h : s.issues cl i [i.d, i.a] a) (hspr : fnBit i 3 = false) (ecc : GranuleHealth)
    (hin : s.readAt a.c a.k (a.addr i) (accSize i) = none) :
    exec (.ld cl i ecc) s = .next ((s.issued a id).trap a.c.id a.k.cl a.k.pc ST_ISA_RANGE 0) := by
  refine congrArg Host.Outcome.next (State.issue_fault h ?_)
  simp only [hspr, hin, Option.isNone_none, if_true, if_false, Bool.false_eq_true]

theorem exec_ld_align (h : s.issues cl i [i.d, i.a] a) (hspr : fnBit i 3 = false) (ecc : GranuleHealth)
    (hin : (s.readAt a.c a.k (a.addr i) (accSize i)).isSome = true) (hal : a.addr i % accSize i ≠ 0) :
    exec (.ld cl i ecc) s = .next ((s.issued a id).trap a.c.id a.k.cl a.k.pc ST_ISA_ALIGN 0) := by
  refine congrArg Host.Outcome.next (State.issue_fault h ?_)
  simp only [hspr, Option.isNone_iff_eq_none, Option.isSome_iff_ne_none.mp hin, hal, ne_eq, not_false_iff, if_true, if_false, Bool.false_eq_true]

theorem exec_st_frame (h : s.issues cl i [i.a, i.b] a) (hspr : fnBit i 3 = false) {base : Nat}
    (hin : s.frameAt a.c a.k (a.addr i) (accSize i) = some base) (hal : a.addr i % accSize i = 0)
    (hclash : a.k.clash [] [⟨a.addr i, accSize i⟩] = false) :
    exec (.st cl i) s = .next ((s.scrWrite a.k.cl base (natLE (accSize i) (a.k.s i.b).toNat)).issued a (fun k => k.advance (wordsOf i))) := by
  have hwrite := State.ctxWrite_at (s := s) (c := a.c) (k := a.k) (off := a.addr i) (base := base)
    (b := natLE (accSize i) (a.k.s i.b).toNat) (by rw [length_natLE]; exact hin)
  refine congrArg Host.Outcome.next ?_
  rw [State.issue_eq_settle h]
  simp only [hspr, hin, hal, hclash, hwrite, Option.isNone_some, if_false, ne_eq, not_true_eq_false, Bool.false_eq_true]
  rfl

theorem exec_st_flags (h : s.issues cl i [i.a, i.b] a) (hspr : fnBit i 3 = true) :
    ((immOf i).toNat = 8 → ∃ t, exec (.st cl i) s = .next t
      ∧ s.Retired t a ({ a.k with aflags := flagsClear a.k.aflags (a.k.s i.b).toNat }.past i))
    ∧ ((immOf i).toNat = 9 → ∃ t, exec (.st cl i) s = .next t
      ∧ s.Retired t a ({ a.k with vflags := flagsClear a.k.vflags (a.k.s i.b).toNat }.past i)) := by
  refine ⟨fun hn => ⟨_, rfl, ?_⟩, fun hn => ⟨_, rfl, ?_⟩⟩
  · refine State.issue_regs_retired h (fun k => { k with aflags := flagsClear k.aflags (k.s i.b).toNat }) (fun _ => rfl) ?_
    simp only [hspr, hn, if_true]
  · refine State.issue_regs_retired h (fun k => { k with vflags := flagsClear k.vflags (k.s i.b).toNat }) (fun _ => rfl) ?_
    simp only [hspr, hn, if_true]

end

/-- Settles O3: LD and ST by their checks in order; the bytes of a store stand in scratch and no other key has changed. -/
theorem loadStoreResult : Obligations.LoadStoreResult := by
  unfold Obligations.LoadStoreResult
  refine ⟨fun s cl i a h => ⟨exec_ld_scratch h, fun ecc w hspr hw => exec_ld_special h hspr ecc hw,
    fun ecc hspr hin => exec_ld_range h hspr ecc hin, fun ecc hspr hin hal => exec_ld_align h hspr ecc hin hal⟩, fun s cl i a h => ?_⟩
  refine ⟨fun base hspr hin hal hclash => ⟨_, exec_st_frame h hspr hin hal hclash, ?_, fun key hkey => ?_, fun ⟨hmem, _⟩ => ?_⟩,
    fun hspr => (exec_st_flags h hspr).1, fun hspr => (exec_st_flags h hspr).2⟩
  · exact State.issued_advance_retired _ cl i a h.2.1
  · exact Mem.get_write_ne _ _ _ _ (by rw [length_natLE]; exact hkey)
  · have hread := Mem.read_write s.scr (scrKey a.k.cl base) (natLE (accSize i) (a.k.s i.b).toNat) ((State.memOk_iff s).mp hmem).2.2
    rw [length_natLE] at hread
    exact hread

/-! ## Branches, calls and loops (R365, R366) -/

/-- Settles O4: a branch changes the PC and leaves loops, a call or return its stack, a loop opens a level or is jumped over. -/
theorem branchResult : Obligations.BranchResult := by
  unfold Obligations.BranchResult
  intro s cl i a target jump
  refine ⟨fun h => ⟨_, rfl, State.issue_branch_retired h rfl⟩, fun h => ⟨_, rfl, ?_⟩, fun h hlen => ⟨_, rfl, ?_⟩,
    fun p rest h hlink => ⟨_, rfl, ?_⟩, fun h hn hlen => ⟨_, rfl, ?_⟩, fun h hn => ⟨_, rfl, ?_⟩⟩
  · split
    case isTrue hc => exact State.issue_branch_retired h (if_pos hc)
    case isFalse hc => exact State.issue_done_retired h (if_neg hc)
  · exact State.issue_goto_retired h (fun k => { k with link := (k.pc + 1) :: k.link }) (fun _ => rfl) (if_neg (Nat.not_le.mpr hlen))
  · refine State.issue_goto_retired h (fun k => { k with link := rest }) (fun _ => rfl) ?_
    simp only [hlink]
  · refine State.issue_regs_retired h (fun k => { k with loops := ⟨k.pc + 1, target, a.k.s i.a⟩ :: k.loops }) (fun _ => rfl) ?_
    exact (if_neg hn).trans (if_neg (Nat.not_le.mpr hlen))
  · exact State.issue_jump_retired h (if_pos hn)

/-! ## Faults (R363, R380) -/

@[simp] theorem State.reg_endLaunch (s : State) (id st x : Nat) : (s.endLaunch id st).reg x = s.reg x := rfl

@[simp] theorem State.memOk_issued (s : State) (a : Site) (f : ClCtx → ClCtx) (h : s.memOk = true) : (s.issued a f).memOk = true :=
  State.memOk_count s (Reg.CL_ISSUED a.k.cl) 1 h

theorem State.reg_issued_ne (s : State) (a : Site) (f : ClCtx → ClCtx) {x : Nat} (h : x ≠ Reg.CL_ISSUED a.k.cl) : (s.issued a f).reg x = s.reg x :=
  State.reg_setReg_ne _ _ _ _ h

theorem State.reg_setRegN (s : State) (a v : Nat) (h : s.memOk = true) : (s.setRegN a v).reg a = BitVec.ofNat 64 v := s.reg_setReg a _ h

theorem State.reg_setRegN_ne (s : State) (a b v : Nat) (h : b ≠ a) : (s.setRegN a v).reg b = s.reg b := s.reg_setReg_ne a b _ h

theorem State.reg_count_ne (s : State) (a b n : Nat) (h : b ≠ a) : (s.count a n).reg b = s.reg b := s.reg_setReg_ne a b _ h

/-- The state in which a fault of context id has been noted and not yet ended the launch. -/
def State.trapNoted (s : State) (id cl trap pc : Nat) : State :=
  ((s.setRegN (Reg.CL_TRAP cl) (trap + id)).setRegN (Reg.CL_TRAP_PC cl) pc).count Reg.ISA_TRAPS 1

theorem State.trapNoted_regs {s : State} (h : s.memOk = true) (id cl trap pc : Nat) :
    let t := s.trapNoted id cl trap pc
    t.reg (Reg.CL_TRAP cl) = BitVec.ofNat 64 (trap + id) ∧ t.reg (Reg.CL_TRAP_PC cl) = BitVec.ofNat 64 pc
      ∧ t.reg Reg.ISA_TRAPS = s.reg Reg.ISA_TRAPS + 1 := by
  have h1 := State.memOk_setRegN s (Reg.CL_TRAP cl) (trap + id) h
  have h2 := State.memOk_setRegN _ (Reg.CL_TRAP_PC cl) pc h1
  have ht : Reg.CL_TRAP cl ≠ Reg.ISA_TRAPS := by unfold Reg.CL_TRAP Reg.ISA_TRAPS; omega
  have hp : Reg.CL_TRAP_PC cl ≠ Reg.ISA_TRAPS := by unfold Reg.CL_TRAP_PC Reg.ISA_TRAPS; omega
  have htp : Reg.CL_TRAP cl ≠ Reg.CL_TRAP_PC cl := by unfold Reg.CL_TRAP Reg.CL_TRAP_PC; omega
  refine ⟨?_, ?_, ?_⟩
  · rw [State.trapNoted, State.reg_count_ne _ _ _ _ ht, State.reg_setRegN_ne _ _ _ _ htp, State.reg_setRegN _ _ _ h]
  · rw [State.trapNoted, State.reg_count_ne _ _ _ _ hp, State.reg_setRegN _ _ _ h1]
  · rw [State.trapNoted, (State.count_says _ Reg.ISA_TRAPS 1 h2).1, State.reg_setRegN_ne _ _ _ _ hp.symm, State.reg_setRegN_ne _ _ _ _ ht.symm]
    rfl

/-- A fault of a context that is there: its code and place are noted, and its launch ends. -/
theorem State.trap_of_ctx {s : State} {id : Nat} {c : Ctx} (hc : s.ctx? id = some c) (cl pc st code : Nat) :
    s.trap id cl pc st code
      = (s.trapNoted id cl (code * 2 ^ 40 + st * 2 ^ 24) (c.bound.1 * 2 ^ 48 + c.bound.2 * 2 ^ 32 + pc)).endLaunch id st := by
  unfold State.trap State.trapNoted
  rw [hc]

theorem State.ctx_issued {s : State} {cl : Nat} {a : Site} (h : s.site? cl = some a) :
    ∃ c, (s.issued a id).ctx? a.c.id = some c ∧ c.bound = a.c.bound := by
  have hmod := (s.count (Reg.CL_ISSUED a.k.cl) 1).ctx_modOn a.c.id a.k.cl (fun k => { k with wait := none })
  exact ⟨_, hmod.trans (congrArg _ (ctx_site h)), rfl⟩

/-- From s to t a fault of cluster cl with status st and code has been recorded, and no memory has changed. -/
def State.Trapped (s t : State) (cl : Nat) (a : Site) (st code : Nat) : Prop :=
  t.reg (Reg.CL_TRAP cl) = BitVec.ofNat 64 (code * 2 ^ 40 + st * 2 ^ 24 + a.c.id)
    ∧ t.reg (Reg.CL_TRAP_PC cl) = BitVec.ofNat 64 (a.c.bound.1 * 2 ^ 48 + a.c.bound.2 * 2 ^ 32 + a.k.pc)
    ∧ t.reg Reg.ISA_TRAPS = s.reg Reg.ISA_TRAPS + 1
    ∧ t.hbm = s.hbm ∧ t.scr = s.scr ∧ t.tables = s.tables

/-- An instruction that faults at issue records its fault. -/
theorem State.trapped_of_fault {s : State} {cl : Nat} {i : BWord} {regs : List Nat} {a : Site} (hs : s.Sound) (h : s.issues cl i regs a)
    {f : Site → State → Iss} {st code : Nat} (hf : f a s = .fault st code) : s.Trapped (s.issue cl i regs f) cl a st code := by
  obtain ⟨hmem, _⟩ := hs
  obtain ⟨c, hctx, hbound⟩ := State.ctx_issued h.2.1
  have htraps := s.reg_issued_ne a id (x := Reg.ISA_TRAPS) (by unfold Reg.CL_ISSUED Reg.ISA_TRAPS; omega)
  obtain ⟨htrap, hpc, hcount⟩ := State.trapNoted_regs (s.memOk_issued a id hmem) a.c.id a.k.cl
    (code * 2 ^ 40 + st * 2 ^ 24) (a.c.bound.1 * 2 ^ 48 + a.c.bound.2 * 2 ^ 32 + a.k.pc)
  rw [State.issue_fault h hf, State.trap_of_ctx hctx, hbound]
  rw [htraps] at hcount
  unfold State.Trapped
  rw [← s.site_cl cl a h.2.1]
  rw [State.reg_endLaunch, State.reg_endLaunch, State.reg_endLaunch]
  exact ⟨htrap, hpc, hcount, rfl, rfl, rfl⟩

/-- Settles O5: TRAP, the seventeenth CALL, a RET on an empty stack and the fifth loop level fault at issue. -/
theorem faultRecorded : Obligations.FaultRecorded := by
  unfold Obligations.FaultRecorded
  intro s cl i a hs trapped
  refine ⟨fun h => ⟨_, rfl, State.trapped_of_fault hs h rfl⟩, fun h hlen => ⟨_, rfl, State.trapped_of_fault hs h (if_pos hlen)⟩,
    fun h hlink => ⟨_, rfl, State.trapped_of_fault hs h ?_⟩, fun h hn hlen => ⟨_, rfl, State.trapped_of_fault hs h ?_⟩⟩
  · simp only [hlink]
  · exact (if_neg hn).trans (if_pos hlen)

end Sys2Proof.Machine

/-! Tile descriptors, table slots and the queueing of engine instructions (R359 to R361, R367, R370 to R374). -/
namespace Sys2Proof.Machine

/-! ## The fields of a tile descriptor (R364, R367) -/

theorem tileBits_le {sel : Nat} (h : sel ≤ 6) : (tileBits sel).2 ≤ (tileBits sel).1 ∧ (tileBits sel).1 < 128 := by
  have hall : ∀ n : Fin 7, (tileBits n).2 ≤ (tileBits n).1 ∧ (tileBits n).1 < 128 := by decide
  exact hall ⟨sel, by omega⟩

/-- Different fields lie apart. -/
theorem tileBits_disjoint {sel sel' : Nat} (h : sel ≤ 6) (h' : sel' ≤ 6) (hne : sel ≠ sel') :
    (tileBits sel').1 < (tileBits sel).2 ∨ (tileBits sel).1 < (tileBits sel').2 := by
  have hall : ∀ n m : Fin 7, n ≠ m → (tileBits m).1 < (tileBits n).2 ∨ (tileBits n).1 < (tileBits m).2 := by decide
  exact hall ⟨sel, by omega⟩ ⟨sel', by omega⟩ (fun e => hne (Fin.mk.inj e))

theorem tileField_setTileField (d : BitVec 128) {sel sel' : Nat} (v : Nat) (h' : sel' ≤ 6) :
    tileField (setTileField d sel v) sel' = fld (putFld d.toNat (tileBits sel).1 (tileBits sel).2 v) (tileBits sel').1 (tileBits sel').2 := by
  rw [tileField, setTileField, BitVec.toNat_ofNat, fld_mod_two_pow _ _ _ _ (tileBits_le h').2]

theorem tileField_setTileField_same (d : BitVec 128) {sel v : Nat} (h : sel ≤ 6) (hv : v < 2 ^ tileWidth sel) :
    tileField (setTileField d sel v) sel = v := by
  rw [tileField_setTileField d v h, fld_putFld_same _ _ _ _ (Nat.le_succ_of_le (tileBits_le h).1)]
  exact Nat.mod_eq_of_lt hv

theorem tileField_setTileField_ne (d : BitVec 128) {sel sel' : Nat} (v : Nat) (h : sel ≤ 6) (h' : sel' ≤ 6) (hne : sel ≠ sel') :
    tileField (setTileField d sel v) sel' = tileField d sel' := by
  rw [tileField_setTileField d v h', fld_putFld_disjoint _ _ _ _ _ _ (Nat.le_succ_of_le (tileBits_le h).1) (tileBits_disjoint h h' hne)]
  rfl

/-! ## TDEF, TSET, TADV and TBIND -/

section
variable {s : State} {cl : Nat} {i : BWord} {a : Site}

theorem exec_tdef_retired (h : s.issues cl i [i.a] a) (hin : (s.readAt a.c a.k (a.addr i) 16).isSome = true) (hal : a.addr i % 16 = 0)
    (hbad : s.ctxBad a.c a.k (a.addr i) 16 = false) :
    ∃ t, exec (.tdef cl i) s = .next t
      ∧ s.Retired t a ((a.k.setT i.d (BitVec.ofNat 128 (leNat (s.ctxRead a.c a.k (a.addr i) 16)))).past i) := by
  refine ⟨_, rfl, State.issue_regs_retired h (fun k => k.setT i.d (BitVec.ofNat 128 (leNat (s.ctxRead a.c a.k (a.addr i) 16))))
    (fun _ => rfl) ?_⟩
  simp only [Option.isNone_iff_eq_none, Option.isSome_iff_ne_none.mp hin, hal, hbad, if_false, ne_eq, not_true_eq_false, Bool.false_eq_true]

theorem exec_tset_retired (h : s.issues cl i [i.a] a) (hv : (a.k.s i.a).toNat < 2 ^ tileWidth (fnFld i 2 0)) :
    ∃ t, exec (.tset cl i) s = .next t
      ∧ s.Retired t a ((a.k.setT i.d (setTileField (a.k.t i.d) (fnFld i 2 0) (a.k.s i.a).toNat)).past i) :=
  ⟨_, rfl, State.issue_regs_retired h (fun k => k.setT i.d (setTileField (k.t i.d) (fnFld i 2 0) (a.k.s i.a).toNat)) (fun _ => rfl) (if_pos hv)⟩

theorem exec_tset_operand (h : s.issues cl i [i.a] a) (hv : 2 ^ tileWidth (fnFld i 2 0) ≤ (a.k.s i.a).toNat) :
    exec (.tset cl i) s = .next ((s.issued a id).trap a.c.id a.k.cl a.k.pc ST_ISA_OPERAND 0) :=
  congrArg Host.Outcome.next (State.issue_fault h (if_neg (Nat.not_lt.mpr hv)))

theorem exec_tadv_retired (h : s.issues cl i [i.a] a) {b m : Int} (hbm : tadv (a.k.t i.d) (a.k.s i.a).toInt (fnBit i 0) = (b, m))
    (hb : fits24 b = true) (hm : fits24 m = true) :
    ∃ t, exec (.tadv cl i) s = .next t
      ∧ s.Retired t a ((a.k.setT i.d (setTileField (setTileField (a.k.t i.d) 0 b.toNat) 5 m.toNat)).past i) := by
  refine ⟨_, rfl, State.issue_regs_retired h (fun k => k.setT i.d (setTileField (setTileField (k.t i.d) 0 b.toNat) 5 m.toNat)) (fun _ => rfl) ?_⟩
  simp only [hbm, hb, hm, and_self, if_true]

/-- The slots of a share with one of the sixteen bound. -/
def ClCtx.bindSlot (k : ClCtx) (n h : Nat) : ClCtx :=
  { k with tslot := (List.range 16).map (fun j => if j = n then some h else (k.tslot[j]?).getD none) }

theorem ClCtx.bindSlot_tslot (k : ClCtx) (n h : Nat) {j : Nat} (hj : j < 16) :
    (k.bindSlot n h).tslot[j]? = some (if j = n then some h else (k.tslot[j]?).getD none) := by
  simp [ClCtx.bindSlot, hj]

theorem exec_tbind_retired (h : s.issues cl i [i.a, i.b] a) (hin : (imgTables (s.image a.c)).contains (a.k.s i.a).toNat = true) :
    ∃ t, exec (.tbind cl i) s = .next t ∧ s.Retired t a ((a.k.bindSlot ((a.k.s i.b).toNat % 16) (a.k.s i.a).toNat).past i) :=
  ⟨_, rfl, State.issue_regs_retired h (fun k => k.bindSlot ((k.s i.b).toNat % 16) (a.k.s i.a).toNat) (fun _ => rfl) (if_pos hin)⟩

end

theorem ClCtx.advance_tslot (k : ClCtx) (l : List (Option Nat)) (n : Nat) :
    ({ k with tslot := l } : ClCtx).advance n = { k.advance n with tslot := l } := by
  unfold ClCtx.advance
  cases k.loops with
  | nil => rfl
  | cons x rest => dsimp only; split <;> (try split) <;> rfl

theorem ClCtx.past_bindSlot (k : ClCtx) (i : BWord) (n h : Nat) : (k.bindSlot n h).past i = { k.past i with tslot := (k.bindSlot n h).tslot } := by
  simp only [ClCtx.past, ClCtx.bindSlot, ClCtx.advance_tslot]

theorem ClCtx.past_tslot (k : ClCtx) (i : BWord) : (k.past i).tslot = k.tslot := by
  have h := congrArg ClCtx.tslot (k.advance_tslot k.tslot (wordsOf i))
  exact h

/-- Settles O6: each of the four changes its share's descriptors or slots alone; the fields of a descriptor lie apart. -/
theorem tileAndBind : Obligations.TileAndBind := by
  unfold Obligations.TileAndBind
  refine ⟨fun s cl i a h => ?_, fun d sel v hsel hv => tileField_setTileField_same d hsel hv,
    fun d sel sel' v hsel hsel' hne => tileField_setTileField_ne d v (Nat.le_succ_of_le hsel) hsel' hne, fun s cl i a h hv => exec_tset_operand h hv⟩
  refine ⟨exec_tdef_retired h, exec_tset_retired h, fun hb hb' hm hm' => ?_, fun h2 hin => ?_⟩
  · have fits {x : Int} (h0 : 0 ≤ x) (h1 : x < 2 ^ 24) : fits24 x = true := by simp only [fits24, h0, h1, decide_true, Bool.and_self]
    refine exec_tadv_retired h ?_ (fits hb hb') (fits hm hm')
    rw [tadv]
    cases hrows : i.fn.getLsbD 0 <;> simp only [fnBit, hrows, isMx, Bool.false_eq_true, false_and, true_and, if_true, if_false, Bool.and_eq_true,
      decide_eq_true_eq]
  · obtain ⟨t, ht, hret⟩ := exec_tbind_retired h2 hin
    refine ⟨t, _, ht, hret, ?_, fun j hj hne => ?_, ?_⟩
    · rw [ClCtx.past_tslot, ClCtx.bindSlot_tslot _ _ _ (Nat.mod_lt _ (by decide)), if_pos rfl]
    · rw [ClCtx.past_tslot, ClCtx.bindSlot_tslot _ _ _ hj, if_neg hne]
    · rw [ClCtx.past_bindSlot, ← ClCtx.past_tslot a.k i]

/-! ## Engine instructions are queued (R359, R361) -/

theorem modFirst_modFirst {α : Type} (p : α → Bool) (f g : α → α) (l : List α) (hf : ∀ x, p (f x) = p x) :
    modFirst p g (modFirst p f l) = modFirst p (fun x => g (f x)) l := by
  induction l with
  | nil => rfl
  | cons x t ih => cases h : p x <;> simp [modFirst, hf, h, ih]

theorem State.modCtx_modCtx (s : State) (id : Nat) (f g : Ctx → Ctx) (hf : ∀ c, (f c).id = c.id) :
    (s.modCtx id f).modCtx id g = s.modCtx id (fun c => g (f c)) :=
  congrArg (fun l => ({ s with ctxs := l } : State)) (modFirst_modFirst (·.id == id) f g s.ctxs (fun c => by rw [hf]))

theorem State.modOn_modOn (s : State) (id cl : Nat) (f g : ClCtx → ClCtx) (hf : ∀ k, (f k).cl = k.cl) :
    (s.modOn id cl f).modOn id cl g = s.modOn id cl (fun k => g (f k)) := by
  rw [State.modOn, State.modOn, State.modCtx_modCtx _ _ (fun c => { c with cls := modFirst (·.cl == cl) f c.cls }) _ (fun _ => rfl)]
  simp only [modFirst_modFirst (·.cl == cl) f g _ (fun k => by rw [hf])]
  rfl

/-- The share with one more instruction running, which has used a transfer engine or not. -/
def ClCtx.queue (k : ClCtx) (o : EngOp) (te : Bool) : ClCtx := { k with running := k.running ++ [o], usedTe := k.usedTe || te }

/-- The state in which an instruction has joined its queue. -/
def Site.queued (a : Site) (s : State) (o : EngOp) (te : Bool) : State := a.set { s with nextOp := s.nextOp + 1 } (fun k => k.queue o te)

theorem Site.enqueue_of_takes {a : Site} {s : State} {o : EngOp} (h : s.takes a o) : a.enqueue s o = .done (a.queued s o false) := by
  obtain ⟨hclash, hlen, hfull⟩ := h
  simp only [Site.enqueue, hclash, Nat.not_le.mpr hlen, hfull, or_self, if_false, Bool.false_eq_true]
  congr 3
  funext k
  simp only [ClCtx.queue, Bool.or_false]

theorem Site.set_queued (a : Site) (s : State) (o : EngOp) :
    a.set (a.queued s o false) (fun k => { k with usedTe := true }) = a.queued s o true := by
  rw [Site.set, Site.queued, Site.set, State.modOn_modOn _ _ _ (fun k => k.queue o false) _ (fun _ => rfl)]
  simp only [ClCtx.queue, Bool.or_true, Site.queued, Site.set]

/-- An instruction that has joined its queue is retired, the numbers of operations having gone on. -/
theorem State.issue_queued_retired {s : State} {cl : Nat} {i : BWord} {regs : List Nat} {a : Site} (h : s.issues cl i regs a)
    {f : Site → State → Iss} {o : EngOp} {te : Bool} (hf : f a s = .done (a.queued s o te)) :
    ({ s with nextOp := s.nextOp + 1 } : State).Retired (s.issue cl i regs f) a ((a.k.queue o te).past i) := by
  rw [State.issue_eq_settle h, hf]
  exact State.regs_retired { s with nextOp := s.nextOp + 1 } cl i regs (fun _ s => s) (fun _ s => s) a (fun k => k.queue o te) (fun _ => rfl) h

theorem ClCtx.queue_false (k : ClCtx) (o : EngOp) : k.queue o false = { k with running := k.running ++ [o] } := by
  simp only [ClCtx.queue, Bool.or_false]

section
variable {s : State} {cl : Nat} {i : BWord} {a : Site}

theorem State.issueArr_retired {kind : EKind} (h : s.issues cl i (arrRegs kind i) a)
    (ht : s.takes a (a.op s .arr kind i (arrRanges a.k kind i).1 (arrRanges a.k kind i).2)) :
    ({ s with nextOp := s.nextOp + 1 } : State).Retired (s.issueArr cl i kind) a
      ({ a.k with running := a.k.running ++ [a.op s .arr kind i (arrRanges a.k kind i).1 (arrRanges a.k kind i).2] }.past i) := by
  rw [← ClCtx.queue_false]
  exact State.issue_queued_retired h (Site.enqueue_of_takes ht)

/-- A vector or special-function instruction with its ranges. -/
def Site.vecOp (a : Site) (s : State) (c : EClass) (kind : EKind) (i : BWord) : EngOp :=
  { a.op s c kind i [] [] with reads := (a.op s c kind i [] []).vecRanges.1, writes := (a.op s c kind i [] []).vecRanges.2 }

theorem State.issueVec_retired {c : EClass} {kind : EKind} (h : s.issues cl i (vecRegs kind i) a) (ht : s.takes a (a.vecOp s c kind i)) :
    ({ s with nextOp := s.nextOp + 1 } : State).Retired (s.issueVec cl i c kind) a
      ({ a.k with running := a.k.running ++ [a.vecOp s c kind i] }.past i) := by
  rw [← ClCtx.queue_false]
  exact State.issue_queued_retired h (Site.enqueue_of_takes ht)

theorem exec_vchain_queued (h : s.issues cl i [i.a] a) (hin : (s.readAt a.c a.k (a.addr i) 160).isSome = true)
    (hbad : s.ctxBad a.c a.k (a.addr i) 160 = false) :
    let d := s.ctxRead a.c a.k (a.addr i) 160
    let o : EngOp := { a.op s .vec .vchain i (chainRanges (a.addr i) d).1 (chainRanges (a.addr i) d).2 with desc := d }
    s.takes a o → ∃ t, exec (.vchain cl i) s = .next t
      ∧ ({ s with nextOp := s.nextOp + 1 } : State).Retired t a ((a.k.queue o false).past i) := by
  intro d o ht
  refine ⟨_, rfl, State.issue_queued_retired h ?_⟩
  simp only [Option.isNone_iff_eq_none, Option.isSome_iff_ne_none.mp hin, hbad, if_false, Bool.false_eq_true]
  exact Site.enqueue_of_takes ht

theorem exec_move_queued (h : s.issues cl i [i.a] a) (hin : (s.readAt a.c a.k (a.addr i) 128).isSome = true) (hal : a.addr i % 32 = 0)
    (hbad : s.ctxBad a.c a.k (a.addr i) 128 = false) (hcrc : crc16 ((s.ctxRead a.c a.k (a.addr i) 128).take 126)
      = rd (s.ctxRead a.c a.k (a.addr i) 128) 126 2) (hdesc : tdescBad a.c.cls.length (s.ctxRead a.c a.k (a.addr i) 128) = false) :
    let d := s.ctxRead a.c a.k (a.addr i) 128
    let r := moveRanges (xferOf d) (a.c.index cl) (a.addr i)
    let o : EngOp := { a.op s .te .move i r.1 r.2 with desc := d, xfer := some (xferOf d), status := moveRole a (xferOf d) }
    s.takes a o → ∃ t, exec (.move cl i) s = .next t
      ∧ ({ s with nextOp := s.nextOp + 1 } : State).Retired t a ((a.k.queue o true).past i) := by
  intro d r o ht
  refine ⟨_, rfl, State.issue_queued_retired h ?_⟩
  have henq : a.enqueue s o = .done (a.queued s o false) := Site.enqueue_of_takes ht
  simp only [Option.isNone_iff_eq_none, Option.isSome_iff_ne_none.mp hin, hal, hbad, hcrc, hdesc, if_false, ne_eq, not_true_eq_false,
    Bool.false_eq_true]
  rw [← Site.set_queued]
  simp only [o, r, d] at henq ⊢
  rw [henq]

theorem exec_chorus_queued (h : s.issues cl i [i.a, i.b, i.c, i.d] a) (h1 : 1 ≤ (a.k.s i.b).toNat) (h2 : (a.k.s i.b).toNat ≤ 2 ^ 20)
    (hmask : (maskBits ((a.k.s i.c).toNat % 65536)).any (fun j => decide (a.c.cls.length ≤ j)) = false)
    (hsrc : (s.readAt a.c a.k (a.k.s i.a).toNat (a.k.s i.b).toNat).isSome = true)
    (hdst : (s.frameAt a.c a.k (a.k.s i.d).toNat (a.k.s i.b).toNat).isSome = true) :
    let o := a.op s .te .chorus i [⟨(a.k.s i.a).toNat, (a.k.s i.b).toNat⟩]
      (if ((a.k.s i.c).toNat % 65536).testBit (a.c.index cl) then [⟨(a.k.s i.d).toNat, (a.k.s i.b).toNat⟩] else [])
    s.takes a o → ∃ t, exec (.chorus cl i) s = .next t
      ∧ ({ s with nextOp := s.nextOp + 1 } : State).Retired t a ((a.k.queue o true).past i) := by
  intro o ht
  refine ⟨_, rfl, State.issue_queued_retired h ?_⟩
  have henq : a.enqueue s o = .done (a.queued s o false) := Site.enqueue_of_takes ht
  have h0 : ¬(a.k.s i.b).toNat = 0 := by omega
  simp only [h0, Nat.not_lt.mpr h2, hmask, Option.isNone_iff_eq_none, Option.isSome_iff_ne_none.mp hsrc, Option.isSome_iff_ne_none.mp hdst,
    or_self, if_false, Bool.false_eq_true]
  rw [← Site.set_queued]
  simp only [o] at henq ⊢
  rw [henq]

theorem exec_atom_queued (h : s.issues cl i [i.a, i.b, i.c, i.d] a) (hal : (a.k.s i.a).toNat % 8 = 0) {r : List Range}
    (hplace : (atomDev i = true ∧ r = []) ∨ (atomDev i = false ∧ ∃ k, a.c.atIndex (atomPeer i) = some k
      ∧ (s.frameAt a.c k (a.k.s i.a).toNat 8).isSome = true ∧ r = if k.cl = cl then [⟨(a.k.s i.a).toNat, 8⟩] else [])) :
    let o : EngOp := { a.op s .te .atom i r r with dreg := some i.d }
    s.takes a o → ∃ t, exec (.atom cl i) s = .next t
      ∧ ({ s with nextOp := s.nextOp + 1 } : State).Retired t a ((a.k.queue o true).past i) := by
  intro o ht
  refine ⟨_, rfl, State.issue_queued_retired h ?_⟩
  have henq : a.enqueue s o = .done (a.queued s o false) := Site.enqueue_of_takes ht
  rw [← Site.set_queued]
  rcases hplace with ⟨hdev, rfl⟩ | ⟨hdev, k, hk, hin, rfl⟩
  · simp only [o] at henq ⊢
    simp only [hal, hdev, henq, if_true, if_false, ne_eq, not_true_eq_false]
  · simp only [o] at henq ⊢
    simp only [hal, hdev, hk, henq, Option.isNone_iff_eq_none, Option.isSome_iff_ne_none.mp hin, if_false, ne_eq, not_true_eq_false,
      Bool.false_eq_true]

end

/-- Settles O7: every engine instruction that its queue takes joins it with what it read at issue. -/
theorem engineIssue : Obligations.EngineIssue := by
  unfold Obligations.EngineIssue
  refine ⟨fun s cl i a => ?_, fun s cl i a => ?_⟩
  · intro queued arr vec
    have harr (k : EKind) (h : s.issues cl i (arrRegs k i) a) := State.issueArr_retired (s := s) h
    have hvec (c : EClass) (k : EKind) (h : s.issues cl i (vecRegs k i) a) := State.issueVec_retired (s := s) (c := c) h
    exact ⟨fun h ht => ⟨_, rfl, harr .rows h ht⟩, fun h ht => ⟨_, rfl, harr .mma h ht⟩, fun h ht => ⟨_, rfl, harr .conv1 h ht⟩,
      fun h ht => ⟨_, rfl, harr .ewa h ht⟩, fun h ht => ⟨_, rfl, harr .drain h ht⟩, fun h ht => ⟨_, rfl, hvec .vec .vred h ht⟩,
      fun h ht => ⟨_, rfl, hvec .vec .vcvt h ht⟩, fun h ht => ⟨_, rfl, hvec .sfu .sfn h ht⟩, fun h ht => ⟨_, rfl, hvec .vec .smaxM h ht⟩,
      fun h ht => ⟨_, rfl, hvec .vec .smaxE h ht⟩, fun h ht => ⟨_, rfl, hvec .vec .smaxD h ht⟩, fun h ht => ⟨_, rfl, hvec .vec .normS h ht⟩,
      fun h ht => ⟨_, rfl, hvec .vec .normF h ht⟩⟩
  · exact ⟨fun h hin hbad => exec_vchain_queued h hin hbad, fun h hin hal hbad hcrc hdesc => exec_move_queued h hin hal hbad hcrc hdesc,
      fun h h1 h2 hmask hsrc hdst => exec_chorus_queued h h1 h2 hmask hsrc hdst,
      fun h hal hdev => exec_atom_queued h hal (.inl ⟨hdev, rfl⟩),
      fun k h hal hdev hk hin => exec_atom_queued h hal (.inr ⟨hdev, k, hk, hin, rfl⟩)⟩

end Sys2Proof.Machine

/-! BAR accesses (R6 to R12, R144, R145, R189 to R191, R385, R386, R558, R573): what they do while READY is 0, what a register
write leaves, refused accesses, the cluster windows and the registers of a placement domain. -/
namespace Sys2Proof.Machine

/-- Settles O10: the part right after reset has its units, and nothing is listed in its memories. -/
theorem resetIsSound : Obligations.ResetIsSound := by
  refine ⟨rfl, ?_⟩
  simp only [State.shapeOk, State.reset, HostSt.init, HbmSt.init, LinkSt.init, NetSt.init, List.length_replicate, List.length_map,
    List.length_range, beq_self_eq_true, Bool.and_self]

/-! ## Until READY is 1 (R573) -/

theorem State.whenOn_off {s : State} (h : s.barOpen = false) (a : Access) (r : Nat) (f : State → State) : s.whenOn a r f = s := by
  unfold State.whenOn
  rw [State.whenOpen_off s f h, ite_self]

theorem State.mbRun_closed {s : State} (h : s.barOpen = false) (op : Nat) (v : BitVec 32) (f : Bytes → State → State) : s.mbRun op v f = s := by
  simp only [State.mbRun, h, Bool.not_false, true_or, if_true]

section
variable {s : State} (h : s.barOpen = false)
include h

theorem exec_refusedAccess_write_closed (a : Access) : exec (.refusedAccess true a) s = .next s := by
  show execRefusedAccess true a s = _
  simp [execRefusedAccess, h, State.answerZero]

theorem exec_scratchApertureAccess_write_closed (a : Access) (ecc : GranuleHealth) : exec (.scratchApertureAccess true a ecc) s = .next s := by
  show execScratchApertureAccess true a ecc s = _
  simp only [execScratchApertureAccess, h, State.answerZero, Bool.not_false, if_true, ite_self]
  congr 1
  split
  · rfl
  · split <;> rfl

theorem exec_queueConfigWrite_closed (a : Access) : exec (.queueConfigWrite a) s = .next s := by
  show execQueueConfigWrite a s = _
  simp only [execQueueConfigWrite, State.whenOpen_off s _ h]
  congr 1
  split <;> rfl

theorem exec_slotWrite_closed (k : Nat) (v : BitVec 32) (b : Bool) (a : Access) : ∀ c ∈ ([.queueEnWritten k v, .sqDb k v, .cqDb k v,
    .doorbellAccessDropped k b a] : List Instr), exec c s = .next s := by
  simp only [List.forall_mem_cons, exec, execQueueEnWritten, execSqDb, execCqDb, execDoorbellAccessDropped, State.whenOpen_off s _ h, ite_self,
    List.not_mem_nil, false_imp_iff, implies_true, and_self]

end

theorem exec_word_off (c : Instr) (cl : Nat) (i : BWord) (s : State) (hw : c.word = some (cl, i)) (h : s.serving = false) :
    exec c s = .next s := by
  obtain ⟨regs, atSafe, atExit, f, hexec⟩ := exec_word_eq_issueWith c cl i hw
  rw [hexec, State.issueWith_off s cl i regs atSafe atExit f h]

theorem State.covered_unicast {s : State} {off : Nat} (h1 : 0x1000000 ≤ off) (h2 : off < 0x2000000) :
    s.covered off = some [(off - 0x1000000) / 0x20000] := if_pos ⟨h1, h2⟩

/-- Settles O60: each of the writes is taken only while READY is 1, and no instruction is issued by a part that does not serve. -/
theorem notReady : Obligations.NotReady := by
  unfold Obligations.NotReady
  refine ⟨exec_word_off, fun s v a k d b ecc h => ⟨?_, fun hpow hrst => ⟨fun hbar href => ?_, fun hbar hal h1 h2 hoff => ?_, fun hk => ?_⟩⟩⟩
  · obtain ⟨hen, hsq, hcq, hdb, _⟩ : (_ ∧ _ ∧ _ ∧ _ ∧ _) := by
      simpa only [List.forall_mem_cons] using exec_slotWrite_closed h k v b a
    simp only [List.forall_mem_cons, exec_refusedAccess_write_closed h, exec_scratchApertureAccess_write_closed h,
      exec_queueConfigWrite_closed h, hen, hsq, hcq, hdb]
    simp only [exec, execRegisterWrite, execChorusWindowWrite, execGroupWindowWrite, execTblHeapWrite, execWingsEnable, execInvalidateAll,
      execPlcDomCfgWrite, execPlcDomMembersWrite, execReplicaReserveLowered, execPinReplicate, execPinHold, execUnpin, execPairReqGo,
      execFeedEn, execFeedSkidWrite, execFeedStrmCfgWrite, execCueBindWrite, execHstHdmWrite, execLnkNodeWrite, execLnkTopoWrite, execEEn,
      execOEn, execTwinEn, execRoceValidWrite, execLogRead, execSensorRead, execOtpWrite, execDump, execShutdown, execMbFence,
      execSelftest, execWarmReset, State.whenOpen_off s _ h, State.whenOn_off h, State.mbRun_closed h, List.not_mem_nil, false_imp_iff,
      implies_true, and_self]
  · show execRefusedAccess false a s = _
    simp [execRefusedAccess, href, h, hpow, hrst, hbar, State.answerZero]
  · have hwin : 0x10000 ≤ a.off % 0x20000 := hoff
    show execScratchApertureAccess false a ecc s = _
    simp only [execScratchApertureAccess, hbar, hal, Nat.not_lt.mpr hwin, State.covered_unicast h1 h2, h, hpow, hrst, State.answerZero, ne_eq,
      not_true_eq_false, Bool.not_true, Bool.not_false, Bool.false_eq_true, false_and, or_self, and_self, if_true, if_false]
  · show execQdelayRead k s = _
    simp only [execQdelayRead, Nat.not_le.mpr hk, h, hpow, hrst, Bool.false_eq_true, and_self, if_true, if_false]

/-! ## A refused access (R6, R8, R558) -/

/-- What RAS_BAD_ACCESS records of an access. -/
def badAccess (write : Bool) (a : Access) : Nat :=
  2 ^ 63 + b2n write * 2 ^ 62 + b2n (decide (a.bar ≠ 0)) * 2 ^ 61 + a.size % 16 * 2 ^ 57 + a.off % 2 ^ 28

theorem b2n_le (b : Bool) : b2n b ≤ 1 := by cases b <;> decide

theorem testBit_of_b2n {x : Nat} (k : Nat) {b : Bool} (h : x / 2 ^ k % 2 = b2n b) : x.testBit k = b := by
  rw [Nat.testBit_eq_decide_div_mod_eq, h]
  cases b <;> rfl

theorem badAccess_lt (write : Bool) (a : Access) : badAccess write a < 2 ^ 64 := by
  have h1 := b2n_le write
  have h2 := b2n_le (decide (a.bar ≠ 0))
  unfold badAccess
  omega

theorem badAccess_fields (write : Bool) (a : Access) : (badAccess write a).testBit 63 = true ∧ (badAccess write a).testBit 62 = write
    ∧ (badAccess write a).testBit 61 = decide (a.bar ≠ 0) ∧ fld (badAccess write a) 60 57 = a.size % 16
    ∧ fld (badAccess write a) 27 0 = a.off % 2 ^ 28 := by
  have h1 := b2n_le write
  have h2 := b2n_le (decide (a.bar ≠ 0))
  refine ⟨testBit_of_b2n 63 ?_, testBit_of_b2n 62 ?_, testBit_of_b2n 61 ?_, ?_, ?_⟩
  · rw [show b2n true = 1 from rfl]; unfold badAccess; omega
  · unfold badAccess; omega
  · unfold badAccess; omega
  · rw [fld, Nat.shiftRight_eq_div_pow]; unfold badAccess; omega
  · rw [fld, Nat.shiftRight_zero]; unfold badAccess; omega

theorem exec_refusedAccess_held {s : State} {a : Access} (h : s.barOpen = true) (href : refused a = true)
    (hvalid : s.regB Reg.RAS_BAD_ACCESS 63 = true) (write : Bool) :
    exec (.refusedAccess write a) s = .next ((s.latch Reg.RAS_STATUS 0).answerZero write) := by
  show execRefusedAccess write a s = _
  simp only [execRefusedAccess, href, h, hvalid, Bool.not_true, Bool.false_eq_true, if_false, if_true]

theorem exec_refusedAccess_fresh {s : State} {a : Access} (h : s.barOpen = true) (href : refused a = true)
    (hvalid : s.regB Reg.RAS_BAD_ACCESS 63 = false) (write : Bool) :
    exec (.refusedAccess write a) s = .next (((s.latch Reg.RAS_STATUS 0).setRegN Reg.RAS_BAD_ACCESS (badAccess write a)).answerZero write) := by
  show execRefusedAccess write a s = _
  simp only [execRefusedAccess, href, h, hvalid, Bool.not_true, Bool.false_eq_true, if_false, badAccess]

@[simp] theorem State.regs_answerZero (s : State) (write : Bool) : (s.answerZero write).regs = s.regs := by cases write <;> rfl

theorem State.reg_answerZero (s : State) (write : Bool) (x : Nat) : (s.answerZero write).reg x = s.reg x := by cases write <;> rfl

theorem State.out_answerZero (s : State) (write : Bool) : (s.answerZero write).out = s.out ++ if write then [] else [.readData 0] := by
  cases write
  · rfl
  · exact (List.append_nil _).symm

theorem State.answerZero_frame (s : State) (write : Bool) : { s.answerZero write with regs := s.regs, out := s.out } = s := by
  cases write <;> rfl

/-- Settles O12: the latch flags the access; its record is written while there is none. -/
theorem refusedAccess : Obligations.RefusedAccess := by
  unfold Obligations.RefusedAccess
  intro s write a ⟨hmem, _⟩ hopen href
  obtain ⟨hbut, m, hout, hmsix⟩ := s.latch_but Reg.RAS_STATUS 0
  have hlatch := s.reg_latch Reg.RAS_STATUS 0 hmem (by decide)
  have hmem1 := State.memOk_latch s Reg.RAS_STATUS 0 hmem
  have hkeep : (s.latch Reg.RAS_STATUS 0).reg Reg.RAS_BAD_ACCESS = s.reg Reg.RAS_BAD_ACCESS := hbut _ (by decide)
  cases hvalid : s.regB Reg.RAS_BAD_ACCESS 63
  · refine ⟨_, exec_refusedAccess_fresh hopen href hvalid write, ?_⟩
    have hreg := State.reg_setRegN _ Reg.RAS_BAD_ACCESS (badAccess write a) hmem1
    have hne (x : Nat) (hx : x ≠ Reg.RAS_BAD_ACCESS) := State.reg_setRegN_ne (s.latch Reg.RAS_STATUS 0) _ x (badAccess write a) hx
    generalize hu : (s.latch Reg.RAS_STATUS 0).setRegN Reg.RAS_BAD_ACCESS (badAccess write a) = u at *
    have hframe : u = { s with regs := u.regs, out := u.out } := by
      rw [← hu, State.latch_frame]; rfl
    have hout : u.out = s.out ++ m := by rw [← hu, State.setRegN_out, hout, List.append_nil]
    have hN : (u.answerZero write).regN Reg.RAS_BAD_ACCESS = badAccess write a := by
      rw [State.regN, State.reg_answerZero, hreg, BitVec.toNat_ofNat, Nat.mod_eq_of_lt (badAccess_lt write a)]
    obtain ⟨h63, h62, h61, h57, h0⟩ := badAccess_fields write a
    refine ⟨?_, fun x hx => ?_, ?_, nofun, fun _ => ?_, ⟨m, ?_, hmsix⟩⟩
    · cases write <;> rw [hframe] <;> rfl
    · simp only [List.mem_cons, List.not_mem_nil, or_false, not_or] at hx
      obtain ⟨h1, h2, h3⟩ := hx
      rw [State.reg_answerZero, hne x h2, hbut x (by simp [h1, h3])]
    · rw [State.reg_answerZero, hne _ (by decide), hlatch]
      rfl
    · simp only [State.regB, State.regF, hN]
      exact ⟨h63, h62, h61, h57, h0⟩
    · rw [State.out_answerZero, hout]
  · refine ⟨_, exec_refusedAccess_held hopen href hvalid write, ?_⟩
    generalize hu : s.latch Reg.RAS_STATUS 0 = u at *
    have hframe : u = { s with regs := u.regs, out := u.out } := by
      rw [← hu, State.latch_frame]
    refine ⟨?_, fun x hx => ?_, ?_, fun _ => ?_, nofun, ⟨m, ?_, hmsix⟩⟩
    · cases write <;> rw [hframe] <;> rfl
    · simp only [List.mem_cons, List.not_mem_nil, or_false, not_or] at hx
      rw [State.reg_answerZero, hbut x (by simp [hx])]
    · rw [State.reg_answerZero, hlatch]
      rfl
    · rw [State.reg_answerZero, hkeep]
    · rw [State.out_answerZero, hout, List.append_nil]

/-! ## The cluster windows (R386, R533) -/

section
variable {s : State} {a : Access} {off : Nat} (hopen : s.barOpen = true) (hal : Access.aligned a = true) (hbar : a.bar = 0)
include hopen hal hbar

theorem exec_chorusWindowWrite_open (hoff : off < 0x20000) (ha : a.off = 0x2000000 + off) (hmask : maskWord off = false) :
    exec (.chorusWindowWrite a) s = .next (s.writeEach (List.range 128) a off) := by
  have hmod : a.off % 0x20000 = off := by omega
  have h1 : ¬a.off < 0x2000000 := by omega
  have h2 : ¬0x2020000 ≤ a.off := by omega
  show execChorusWindowWrite a s = _
  simp only [execChorusWindowWrite, State.whenOpen_on s _ hopen, hbar, hal, hmod, h1, h2, hmask, ne_eq, not_true_eq_false, Bool.not_true,
    Bool.false_eq_true, or_self, if_false]

theorem exec_groupWindowWrite_open (hoff : off < 0x20000) {g : Nat} (hg : g < 16) (ha : a.off = 0x2100000 + g * 0x20000 + off) :
    exec (.groupWindowWrite a) s = .next (if maskWord off then s.writeAccess a else s.writeEach (s.groupOf g) a off) := by
  have hmod : a.off % 0x20000 = off := by omega
  have hdiv : (a.off - 0x2100000) / 0x20000 = g := by omega
  have h1 : ¬a.off < 0x2100000 := by omega
  have h2 : ¬0x2300000 ≤ a.off := by omega
  show execGroupWindowWrite a s = _
  simp only [execGroupWindowWrite, State.whenOpen_on s _ hopen, hbar, hal, hmod, hdiv, h1, h2, ne_eq, not_true_eq_false, Bool.not_true,
    Bool.false_eq_true, or_self, if_false]

/-- An access at an aperture offset of a cluster's own window. -/
theorem exec_scratchApertureAccess_open {m : Nat} (hm : m < 128) (h1 : 0x10000 ≤ off) (h2 : off < 0x20000)
    (ha : a.off = 0x1000000 + m * 0x20000 + off) (write : Bool) (ecc : GranuleHealth) :
    exec (.scratchApertureAccess write a ecc) s = .next (if write then s.windowWrite m a off else s.windowRead m a.size off ecc) := by
  have hmod : a.off % 0x20000 = off := by omega
  have hcl : (a.off - 0x1000000) / 0x20000 = m := by omega
  have hlow : ¬0x2000000 ≤ a.off := by omega
  show execScratchApertureAccess write a ecc s = _
  simp only [execScratchApertureAccess, hbar, hal, hmod, Nat.not_lt.mpr h1, hlow, State.covered_unicast (s := s) (off := a.off) (by omega) (by omega),
    hcl, hopen, ne_eq, not_true_eq_false, Bool.not_true, Bool.false_eq_true, and_false, or_self, if_false]

end

theorem State.windowWrite_aperture (s : State) (m : Nat) (a : Access) {off : Nat} (h : 0x10000 ≤ off) :
    s.windowWrite m a off = s.scrWrite m (s.apOff m off) (natLE a.size a.value.toNat) := if_pos h

/-- Settles O13: the windows forward to `windowWrite`, which is a write of scratch behind the aperture and a register write before it. -/
theorem windowAccess : Obligations.WindowAccess := by
  unfold Obligations.WindowAccess
  refine ⟨?_, fun s a off hopen hal hbar hoff =>
    ⟨exec_chorusWindowWrite_open hopen hal hbar hoff, fun g hg ha hmask => ?_, fun g hg ha hmask => ?_, fun m h => s.windowWrite_aperture m a h,
      fun m h => if_neg (Nat.not_le.mpr h)⟩⟩
  · intro s a m off hopen hal hbar hm h1 h2 ha o
    refine ⟨fun ecc => ?_, fun hgood => ?_⟩
    · rw [exec_scratchApertureAccess_open hopen hal hbar hm h1 h2 ha, if_pos rfl, s.windowWrite_aperture m a h1]
      rfl
    · have hgood' : s.rangeBad m (s.apOff m off) a.size = false := hgood
      rw [exec_scratchApertureAccess_open hopen hal hbar hm h1 h2 ha]
      simp only [State.windowRead, hgood', Bool.false_eq_true, if_false]
      rfl
  · rw [exec_groupWindowWrite_open hopen hal hbar hoff hg ha, hmask]
    rfl
  · rw [exec_groupWindowWrite_open hopen hal hbar hoff hg ha, hmask]
    rfl

/-! ## A register write (R6, R7, R10) -/

theorem testBit_sub_one_sub {x : Nat} (h : x < 2 ^ 64) (k : Nat) : (2 ^ 64 - 1 - x).testBit k = (decide (k < 64) && !x.testBit k) := by
  rw [show 2 ^ 64 - 1 - x = 2 ^ 64 - (x + 1) by omega, Nat.testBit_two_pow_sub_succ h]

/-- Each bit of a register after a write of half hi: a half that is not written keeps its bits. -/
theorem testBit_codedWrite {r : RegRow} {old v hi k : Nat} (hrw : r.rw < 2 ^ 64) (hw1c : r.w1c < 2 ^ 64) (hv : v < 2 ^ 32)
    (hk : k < 64) : (codedWrite r old v hi).testBit k =
      (if 32 * hi ≤ k ∧ k < 32 * hi + 32 then
        (if r.w1c.testBit k ∧ v.testBit (k - 32 * hi) then false else if r.rw.testBit k then v.testBit (k - 32 * hi) else old.testBit k)
      else old.testBit k) := by
  have hclr : v <<< (32 * hi) &&& r.w1c < 2 ^ 64 := Nat.lt_of_le_of_lt Nat.and_le_right hw1c
  simp only [codedWrite, Nat.testBit_and, Nat.testBit_or, testBit_sub_one_sub hrw, testBit_sub_one_sub hclr, Nat.testBit_shiftLeft,
    testBit_putFld _ (32 * hi + 31) (32 * hi) _ _ (by omega), hk, decide_true, Bool.true_and]
  by_cases hlow : 32 * hi ≤ k
  · by_cases hhigh : k < 32 * hi + 32
    · have h1 : ¬k < 32 * hi := by omega
      have h2 : k ≤ 32 * hi + 31 := by omega
      simp only [hlow, hhigh, h1, h2, and_self, if_true, if_false, decide_true, Bool.true_and]
      cases r.w1c.testBit k <;> cases r.rw.testBit k <;> cases v.testBit (k - 32 * hi) <;> simp
    · have h1 : ¬k < 32 * hi := by omega
      have h2 : ¬k ≤ 32 * hi + 31 := by omega
      have hbit : v.testBit (k - 32 * hi) = false :=
        Nat.testBit_lt_two_pow (Nat.lt_of_lt_of_le hv (Nat.pow_le_pow_right (by decide) (by omega)))
      simp only [hhigh, h1, h2, hbit, and_false, if_false, Bool.and_false, Bool.false_and, Bool.not_false, Bool.and_true]
      cases r.rw.testBit k <;> simp
  · have h1 : k < 32 * hi := by omega
    simp only [hlow, h1, false_and, if_false, if_true, decide_false, Bool.false_and, Bool.not_false, Bool.and_true]
    cases r.rw.testBit k <;> simp

section
variable {s : State} {a : Access} (hopen : s.barOpen = true) (hal : Access.aligned a = true) (hown : s.accessWrite a = none)
include hopen hal hown

/-- A write that no register takes whole is written word by word. -/
theorem exec_registerWrite_words : exec (.registerWrite a) s = .next (
    if a.size = 8 then (s.writeWord (barAddr a.bar a.off) (a.value.setWidth 32)).writeWord (barAddr a.bar a.off + 4) ((a.value >>> 32).setWidth 32)
    else s.writeWord (barAddr a.bar a.off) (a.value.setWidth 32)) := by
  show execRegisterWrite a s = _
  simp only [execRegisterWrite, State.whenOpen_on s _ hopen, hal, if_true, State.writeAccess, hown]

end

/-- A word of a stored register with no effect but its own value. -/
theorem State.writeWord_plain {s : State} {w base : Nat} {v : BitVec 32} {r : RegRow} (hreg : regAt w = some (r, base)) (hcomp : r.computed = false)
    (hown : s.ownWrite base v = none) (hroce : ¬(Reg.NP_ROCE_RKEY ≤ base ∧ base ≤ Reg.NP_ROCE_RIP_HI)) (hlock : s.locked base = false)
    (hctl : base ≠ Reg.CFE_CTL) (hev : vectorOf base = none) (hmsix : ¬(0x10090000 ≤ base ∧ base < 0x10090100)) :
    s.writeWord w v = s.setRegN base (clampReg base (codedWrite r (s.regN base) v.toNat ((w - base) / 4))) := by
  have hmsix' : ¬(0x10090000 ≤ base ∧ base < 0x10090100 ∧ base % 16 = 12) := fun h => hmsix ⟨h.1, h.2.1⟩
  simp only [State.writeWord, hreg, hown, if_neg hroce, hcomp, State.plainWrite, hlock, hctl, if_neg hmsix', State.setEvent, hev, false_and,
    Bool.false_eq_true, if_false]
  rfl

/-- Settles O11: the coded write bit by bit, and the write of a word or of two. -/
theorem registerWrite : Obligations.RegisterWrite := by
  unfold Obligations.RegisterWrite
  refine ⟨fun r old v hi k hrw hw1c _ hv _ hk => testBit_codedWrite hrw hw1c hv hk, ?_⟩
  intro s a hopen hal hown w
  refine ⟨?_, fun hsize => ?_, fun hsize hreg => ?_⟩
  · intro r base hsize hreg hcomp hself hroce hlock hctl hev hmsix
    rw [exec_registerWrite_words hopen hal hown, if_neg (by omega), State.writeWord_plain hreg hcomp hself hroce hlock hctl hev hmsix]
  · rw [exec_registerWrite_words hopen hal hown, if_pos hsize]
  · rw [exec_registerWrite_words hopen hal hown, if_neg (by omega), State.writeWord, hreg]

end Sys2Proof.Machine

/-! The registers of a placement domain (R144, R145, R189 to R191). -/
namespace Sys2Proof.Machine

theorem onReg_iff (a : Access) (base : Nat) : onReg a base = true ↔
    a.bar = 0 ∧ (a.size = 4 ∨ a.size = 8) ∧ a.off % a.size = 0 ∧ base ≤ a.off ∧ a.off + a.size ≤ base + 8 := by
  simp only [onReg, Bool.and_eq_true, Bool.or_eq_true, decide_eq_true_eq, beq_iff_eq, and_assoc]

theorem State.whenOn_on {s : State} {a : Access} {r : Nat} (hopen : s.barOpen = true) (hon : onReg a r = true) (f : State → State) :
    s.whenOn a r f = f s := by
  unfold State.whenOn
  rw [if_pos hon, State.whenOpen_on s f hopen]

theorem exec_plcDomCfgWrite_open {s : State} {a : Access} (hopen : s.barOpen = true) (hon : onReg a Reg.PLC_DOM_CFG = true) :
    exec (.plcDomCfgWrite a) s = .next (
      let v := intoReg a Reg.PLC_DOM_CFG s.plcDomCfg
      let d := (s.doms[s.domSel]?).getD .init
      let new : Dom := { d with number := fld v 63 48, log2 := fld v 36 32, valid := v.testBit 31 }
      if s.domHeld d ∨ (new.valid ∧ (new.log2 < 14 ∨ 18 < new.log2 ∨ 2 ^ 18 < s.bucketsUsed s.domSel + 2 ^ new.log2)) then s.latch Reg.PLC_STATUS 4
      else s.setDomain s.domSel new) := by
  show execPlcDomCfgWrite a s = _
  simp only [execPlcDomCfgWrite, State.whenOn_on hopen hon]

/-- The register of the four that an access is on is the one that the access's offset names. -/
theorem members_index {a : Access} {j : Nat} (hj : j < 4) (hon : onReg a (Reg.PLC_DOM_MEMBERS j) = true) :
    (a.off - Reg.PLC_DOM_MEMBERS 0) / 8 % 4 = j := by
  obtain ⟨_, hsize, _, hlo, hhi⟩ := (onReg_iff _ _).mp hon
  simp only [Reg.PLC_DOM_MEMBERS] at *
  omega

theorem exec_plcDomMembersWrite_open {s : State} {a : Access} {j : Nat} (hopen : s.barOpen = true) (hj : j < 4)
    (hon : onReg a (Reg.PLC_DOM_MEMBERS j) = true) : exec (.plcDomMembersWrite a) s = .next (byWords (State.writeMembers j) a s) := by
  show execPlcDomMembersWrite a s = _
  simp only [execPlcDomMembersWrite, members_index hj hon, State.whenOn_on hopen hon]

theorem State.barOpen_writeMembers (s : State) (j : Nat) (a : Access) : (State.writeMembers j a s).barOpen = s.barOpen := by
  simp only [State.writeMembers]
  split
  · rw [State.latch_frame]; rfl
  · rfl

/-- The members' bits after a write of a half of the j-th word of 64. -/
theorem testBit_intoMembers {a : Access} {j : Nat} (hsize : a.size = 4) (hon : onReg a (Reg.PLC_DOM_MEMBERS j) = true) (m n : Nat) :
    (putFld m (64 * j + 63) (64 * j) (intoReg a (Reg.PLC_DOM_MEMBERS j) (m / 2 ^ (64 * j) % 2 ^ 64))).testBit n
      = if 8 * (a.off - Reg.PLC_DOM_MEMBERS 0) ≤ n ∧ n < 8 * (a.off - Reg.PLC_DOM_MEMBERS 0) + 32 then
          a.value.getLsbD (n - 8 * (a.off - Reg.PLC_DOM_MEMBERS 0)) else m.testBit n := by
  obtain ⟨_, _, _, hlo, hhi⟩ := (onReg_iff _ _).mp hon
  obtain ⟨e, he, hoff⟩ : ∃ e, e ≤ 4 ∧ a.off = Reg.PLC_DOM_MEMBERS j + e := ⟨a.off - Reg.PLC_DOM_MEMBERS j, by omega, by omega⟩
  rw [show 8 * (a.off - Reg.PLC_DOM_MEMBERS 0) = 64 * j + 8 * e by rw [hoff]; simp only [Reg.PLC_DOM_MEMBERS]; omega,
    testBit_putFld _ _ _ _ _ (by omega), intoReg, testBit_putFld _ _ _ _ _ (by omega), hsize,
    show a.off - Reg.PLC_DOM_MEMBERS j = e by omega, Nat.testBit_mod_two_pow, Nat.testBit_div_two_pow]
  by_cases h1 : n < 64 * j
  · rw [if_pos h1, if_neg (by omega)]
  · rw [if_neg h1]
    by_cases h2 : n ≤ 64 * j + 63
    · rw [if_pos h2]
      by_cases h3 : n - 64 * j < 8 * e
      · rw [if_pos h3, if_neg (by omega), show n - 64 * j + 64 * j = n by omega, decide_eq_true (by omega), Bool.true_and]
      · rw [if_neg h3]
        by_cases h4 : n - 64 * j ≤ 8 * e + 8 * 4 - 1
        · rw [if_pos h4, if_pos (by omega), BitVec.testBit_toNat, Nat.sub_sub]
        · rw [if_neg h4, if_neg (by omega), show n - 64 * j + 64 * j = n by omega, decide_eq_true (by omega), Bool.true_and]
    · rw [if_neg h2, if_neg (by omega)]

theorem State.setDomain_frame (s : State) (k : Nat) (d : Dom) :
    s.setDomain k d = { s with doms := (s.setDomain k d).doms, dirs := (s.setDomain k d).dirs } := rfl

theorem State.doms_setDomain_ne (s : State) {k n : Nat} (d : Dom) (h : n ≠ k) : (s.setDomain k d).doms[n]? = s.doms[n]? := by
  simp only [State.setDomain, State.modDom, listMod, List.getElem?_modify, if_neg (Ne.symm h), Option.map_eq_map, Option.map_id_fun', id_eq]

theorem State.doms_setDomain (s : State) {k : Nat} (d : Dom) (h : k < s.doms.length) : ∃ x, (s.setDomain k d).doms[k]? = some x
    ∧ x.number = d.number ∧ x.log2 = d.log2 ∧ x.valid = d.valid ∧ x.members = d.members ∧ x.mismatch = false := by
  simp [State.setDomain, State.modDom, listMod, h]

/-- The bucket map of the slot starts afresh. -/
theorem State.lookup_setDomain (s : State) (k : Nat) (d : Dom) (b : Nat) : ∀ x ∈ (s.setDomain k d).dirs, x.buckets.lookup (k, b) = none := by
  intro x hx
  obtain ⟨y, _, rfl⟩ := List.mem_map.mp hx
  refine List.lookup_eq_none_iff.mpr fun e he => ?_
  have hne : e.1.1 ≠ k := bne_iff_ne.mp (List.mem_filter.mp he).2
  simp only [bne_iff_ne]
  rintro heq
  exact hne (congrArg Prod.fst heq).symm

/-- Settles O25: a write of a register of the selected slot, and what setting a slot's domain leaves. -/
theorem domainRegisters : Obligations.DomainRegisters := by
  unfold Obligations.DomainRegisters
  intro s a hopen k d
  refine ⟨?_, fun j hj hon hsize => ?_, fun j hj hon hsize => ?_, fun new => ⟨_, rfl, s.setDomain_frame k new, fun n hn => s.doms_setDomain_ne new hn,
    fun hk => ?_, fun x hx b => s.lookup_setDomain k new b x hx⟩⟩
  · intro hon v new
    refine ⟨fun h => ?_, fun hheld hfit => ?_⟩
    · rw [exec_plcDomCfgWrite_open hopen hon]
      refine congrArg _ (if_pos (h.imp_right fun ⟨hvalid, hno⟩ => ⟨hvalid, ?_⟩))
      show new.log2 < 14 ∨ 18 < new.log2 ∨ 2 ^ 18 < s.bucketsUsed k + 2 ^ new.log2
      omega
    · rw [exec_plcDomCfgWrite_open hopen hon]
      refine congrArg _ (if_neg fun h => h.elim (fun h => by simp [k, d, hheld] at h) fun ⟨hvalid, hno⟩ => ?_)
      have := hfit hvalid
      replace hno : new.log2 < 14 ∨ 18 < new.log2 ∨ 2 ^ 18 < s.bucketsUsed k + 2 ^ new.log2 := hno
      omega
  · have hexec : exec (.plcDomMembersWrite a) s = .next (s.writeMembers j a) := by
      rw [exec_plcDomMembersWrite_open hopen hj hon, byWords, if_neg (by omega)]
    refine ⟨fun h => ?_, fun h =>
      ⟨BitVec.ofNat 256 (putFld d.members.toNat (64 * j + 63) (64 * j) (intoReg a (Reg.PLC_DOM_MEMBERS j) (s.plcDomMembers j))), ?_, ?_⟩⟩
    · rw [hexec]
      exact congrArg _ (if_pos h)
    · rw [hexec]
      exact congrArg _ (if_neg (by simp [k, d, h]))
    · intro lo n hn
      rw [BitVec.getLsbD_ofNat, decide_eq_true hn, Bool.true_and]
      exact testBit_intoMembers hsize hon d.members.toNat n
  · have hoff : a.off % 8 = 0 := by
      obtain ⟨_, _, hmod, _⟩ := (onReg_iff _ _).mp hon
      rwa [hsize] at hmod
    have hbase : Reg.PLC_DOM_MEMBERS j % 8 = 0 := by simp only [Reg.PLC_DOM_MEMBERS]; omega
    have hlow : onReg ⟨a.bar, a.off, 4, a.value⟩ (Reg.PLC_DOM_MEMBERS j) = true :=
      (onReg_word (d := 0) _ hsize hoff hbase (Or.inl rfl)).trans hon
    have hhigh : onReg ⟨a.bar, a.off + 4, 4, a.value >>> 32⟩ (Reg.PLC_DOM_MEMBERS j) = true :=
      (onReg_word _ hsize hoff hbase (Or.inr rfl)).trans hon
    refine ⟨_, exec_plcDomMembersWrite_open hopen hj hlow, ?_⟩
    have hword : byWords (State.writeMembers j) ⟨a.bar, a.off, 4, a.value⟩ s = s.writeMembers j ⟨a.bar, a.off, 4, a.value⟩ := rfl
    rw [exec_plcDomMembersWrite_open hopen hj hon, hword,
      exec_plcDomMembersWrite_open ((s.barOpen_writeMembers j _).trans hopen) hj hhigh, byWords, if_pos hsize]
    rfl
  · obtain ⟨x, hx, h1, h2, h3, h4, h5⟩ := s.doms_setDomain new hk
    rw [hx]
    simp [h1, h2, h3, h4, h5]

end Sys2Proof.Machine

/-! One step (R17, R35): the command at the front of the queue, or a tick of the part with none waiting. -/
namespace Sys2Proof.Machine

/-! ## The package network -/

/-- From s to t at most the links, the commands that wait, the GPEs and what has gone out have changed. -/
def State.onlyNet (s t : State) : Prop := t = { s with link := t.link, pending := t.pending, gpes := t.gpes, out := t.out }

namespace State

theorem onlyNet_refl (s : State) : s.onlyNet s := rfl

theorem onlyNet_trans {s t u : State} (h : s.onlyNet t) (h' : t.onlyNet u) : s.onlyNet u := by
  unfold onlyNet at *
  rw [h', h]

theorem onlyNet_foldl {α : Type} (f : State → α → State) (hf : ∀ (s : State) (x : α), s.onlyNet (f s x)) (l : List α) (s : State) :
    s.onlyNet (l.foldl f s) :=
  List.foldlRecOn l f (motive := s.onlyNet) s.onlyNet_refl fun t h x _ => onlyNet_trans h (hf t x)

theorem onlyNet_nocEnter (s : State) : s.onlyNet s.nocEnter := rfl

theorem onlyNet_portGo (s : State) (n : Nat) : s.onlyNet (s.portGo n) := by
  unfold portGo
  split
  · exact s.onlyNet_refl
  · dsimp only
    split <;> rfl

theorem onlyNet_putPort (s : State) (p : Send) (port dl : Nat) : s.onlyNet (s.putPort p port dl) :=
  onlyNet_trans (t := s.modLPort port _) rfl (onlyNet_portGo _ port)

theorem onlyNet_comesOut (s : State) (x : Parcel) : s.onlyNet (s.comesOut x) := by
  unfold comesOut
  split
  · split
    · exact s.onlyNet_putPort _ _ _
    · split
      · exact s.onlyNet_putPort _ _ _
      · exact s.onlyNet_refl
  · split <;> split <;> rfl

theorem onlyNet_nocMove (s : State) (g : (Nat × Nat) × ((Nat × Nat × Nat) × Flying)) : s.onlyNet (s.nocMove g) := by
  obtain ⟨⟨d, o⟩, key, x⟩ := g
  simp only [nocMove]
  split
  · rfl
  · exact onlyNet_trans (t := { s with link := _ }) rfl (onlyNet_comesOut _ x.x)

theorem onlyNet_ownerTurn (s : State) (die : Nat) : s.onlyNet (s.ownerTurn die) := by
  unfold ownerTurn
  split <;> rfl

theorem onlyNet_netTick (s : State) : s.onlyNet s.netTick := by
  unfold netTick
  split
  · exact s.onlyNet_refl
  · exact onlyNet_trans s.onlyNet_nocEnter (onlyNet_trans (onlyNet_foldl _ onlyNet_nocMove _ _) (onlyNet_foldl _ onlyNet_ownerTurn _ _))

theorem nocEnter_of_empty {s : State} (h : s.link.noc.entry = []) : s.nocEnter = s := by
  simp only [nocEnter, h, List.foldl_nil]
  rw [← h]

end State

/-- With every input buffer empty no output port grants. -/
theorem Noc.grants_of_empty {n : Noc} (h : ∀ b ∈ n.bufs, b.2 = []) : n.grants = [] := by
  have hheads (d : Nat) : (n.bufs.filter (fun e => e.1.1 == d)).filterMap (fun e => (e.2.head?).map (fun x => (e.1, x))) = [] := by
    refine List.filterMap_eq_nil_iff.mpr fun e he => ?_
    rw [h e ((List.mem_filter.mp he).1)]
    rfl
  have hgrant (d o : Nat) : n.grant d o = none := by simp only [Noc.grant, hheads, List.filter_nil, List.foldl_nil]
  refine List.flatMap_eq_nil_iff.mpr fun d _ => List.filterMap_eq_nil_iff.mpr fun o _ => ?_
  rw [hgrant]
  rfl

theorem State.ownerTurn_of_none_asked {s : State} (h : ∀ g ∈ s.gpes, g.asked = []) (die : Nat) : s.ownerTurn die = s := by
  have hnone : (s.gpes[die]?).bind Gpe.takes = none := by
    refine Option.bind_eq_none_iff.mpr fun g hg => ?_
    rw [Gpe.takes, h g (List.mem_of_getElem? hg)]
    rfl
  simp only [State.ownerTurn, hnone]

theorem State.netTick_of_empty {s : State} (hentry : s.link.noc.entry = []) (hbufs : ∀ b ∈ s.link.noc.bufs, b.2 = [])
    (hasked : ∀ g ∈ s.gpes, g.asked = []) : s.netTick = s := by
  have hturns : (List.range 8).foldl State.ownerTurn s = s :=
    List.foldlRecOn _ _ (motive := (· = s)) rfl fun t ht die _ => ht ▸ State.ownerTurn_of_none_asked hasked die
  simp only [State.netTick, State.nocEnter_of_empty hentry, Noc.grants_of_empty hbufs, List.foldl_nil, hturns, ite_self]

/-! ## Held frames and stall clocks -/

theorem State.resumeFrames_of_none {s : State} (h : s.net.held = []) : s.resumeFrames = s := by
  simp only [State.resumeFrames, h, List.filter_nil, List.foldl_nil]
  rw [← h]

theorem State.resumeFrames_paused {s : State} {p q : Nat} {o : Out} (h : s.net.held = [(p, q, o)]) (hp : s.paused p q = true) :
    s.resumeFrames = s := by
  simp only [State.resumeFrames, h, List.filter_cons, hp, Bool.not_true, Bool.false_eq_true, if_true, if_false, List.filter_nil, List.foldl_nil]
  rw [← h]

theorem State.resumeFrames_ended {s : State} {p q : Nat} {o : Out} (h : s.net.held = [(p, q, o)]) (hp : s.paused p q = false) :
    s.resumeFrames = ({ s with net := { s.net with held := [] } } : State).sendFrame p o := by
  simp only [State.resumeFrames, h, List.filter_cons, hp, Bool.not_false, Bool.false_eq_true, if_true, if_false, List.filter_nil, List.foldl_cons,
    List.foldl_nil]

theorem State.stallTick_of_stopped {s : State} (h : ∀ c ∈ s.ctxs, s.clockRuns c = false) : s.stallTick = s := by
  have hmap : s.ctxs.map (fun c => if s.clockRuns c then { c with stallClock := c.stallClock + 1 } else c) = s.ctxs :=
    (List.map_congr_left (g := id) fun c hc => if_neg (by simp [h c hc])).trans s.ctxs.map_id
  simp only [State.stallTick, hmap]

/-! ## Routes between dies -/

theorem nextDie_joined : ∀ d < 10, ∀ dst < 10, d ≠ dst → joined d (nextDie d dst) = true := by decide

theorem dieRoute_ends : ∀ d < 10, ∀ dst < 10, d ≠ dst → (dieRoute d dst 6).getLast? = some dst := by decide

theorem dieRoute_chain : ∀ d < 10, ∀ dst < 10, d ≠ dst →
    ∀ k < (dieRoute d dst 6).length, joined ((d :: dieRoute d dst 6).getD k 0) ((d :: dieRoute d dst 6).getD (k + 1) 0) = true := by decide

theorem dieRoute_hops {d dst : Nat} (hd : d < 10) (hdst : dst < 10) (hne : d ≠ dst) (k a b : Nat) (ha : (d :: dieRoute d dst 6)[k]? = some a)
    (hb : (d :: dieRoute d dst 6)[k + 1]? = some b) : joined a b = true := by
  obtain ⟨h, -⟩ := List.getElem?_eq_some_iff.mp hb
  have hj := dieRoute_chain d hd dst hdst hne k (Nat.lt_of_succ_lt_succ h)
  rwa [List.getD_eq_getElem?_getD, List.getD_eq_getElem?_getD, ha, hb] at hj

/-! ## Every command goes on -/

theorem exec_next (c : Instr) (s : State) : ∃ t, exec c s = .next t := by
  cases c <;> exact ⟨_, rfl⟩

theorem step_cons (s : State) (c : Instr) (rest : List Instr) : step { s with pending := c :: rest } = exec c { s with pending := rest } := rfl

theorem step_idle {s : State} (h : s.pending = []) : step s = .next s.tick.netTick.resumeFrames.stallTick := by
  simp only [step, h]

theorem State.tick_running {s : State} (hpow : s.pwr.powered = true) (hrst : s.pwr.rstN = true) (hrun : s.time.stopped = false) :
    s.tick = { s with time := if s.time.hold = 0 then { s.time with gtime := s.time.gtime + 1 } else { s.time with hold := s.time.hold - 1 } } := by
  simp only [State.tick, hpow, hrst, hrun, Bool.not_true, Bool.false_eq_true, or_self, if_false]
  by_cases h : s.time.hold = 0
  · rw [if_neg (by omega), if_pos h]
  · rw [if_pos (by omega), if_neg h]

/-- Settles O8: the front command or the tick, the routes by cases, and every command goes on. -/
theorem stepRunsFront : Obligations.StepRunsFront := by
  unfold Obligations.StepRunsFront
  refine ⟨fun s c rest => ⟨step_cons s c rest, step_idle⟩, ⟨?_, fun d dst hd hdst hne =>
    ⟨nextDie_joined d hd dst hdst hne, dieRoute_ends d hd dst hdst hne, dieRoute_hops hd hdst hne⟩⟩, fun s => ?_⟩
  · intro s hidle hpow hrst hrun u
    refine ⟨?_, ⟨_, _, _, _, u.onlyNet_netTick⟩, fun h1 h2 h3 => State.netTick_of_empty h1 h2 h3, fun v => State.resumeFrames_of_none,
      fun v p q o h => ⟨State.resumeFrames_paused h, State.resumeFrames_ended h⟩, fun v => State.stallTick_of_stopped⟩
    rw [step_idle hidle, State.tick_running hpow hrst hrun]
  · unfold State.goesOn step
    split
    · exact ⟨_, rfl⟩
    · exact exec_next _ _

end Sys2Proof.Machine

/-! Tables: TBL_HEAP and TBL_CREATE (R39, R40, R49, R50, R144). -/
namespace Sys2Proof.Machine

/-! ## TBL_HEAP -/

theorem exec_tblHeapWrite_free {s : State} (hopen : s.barOpen = true) (ht : s.tables = []) (hdm : s.host.ports.any (·.hdm.isSome) = false)
    (v : BitVec 32) : exec (.tblHeapWrite v) s = .next (s.setRegN Reg.TBL_HEAP (min 75 (v.toNat % 128))) := by
  show execTblHeapWrite v s = _
  simp only [execTblHeapWrite, State.whenOpen_on s _ hopen, ht, hdm, List.isEmpty_nil, Bool.not_true, Bool.false_eq_true, or_self, if_false]
  rfl

theorem exec_tblHeapWrite_held {s : State} (hopen : s.barOpen = true) (h : s.tables ≠ [] ∨ s.host.ports.any (·.hdm.isSome) = true)
    (v : BitVec 32) : exec (.tblHeapWrite v) s = .next (s.latch Reg.TBL_STATUS 0) := by
  have hheld : (!s.tables.isEmpty) = true ∨ s.host.ports.any (·.hdm.isSome) = true := h.imp_left fun h => by simpa using h
  show execTblHeapWrite v s = _
  simp only [execTblHeapWrite, State.whenOpen_on s _ hopen, if_pos hheld]

/-! ## The slot of a domain -/

theorem State.domOf_some {s : State} {number i : Nat} {d : Dom} (h : s.domOf number = some (i, d)) : s.doms[i]? = some d ∧ d.number = number := by
  obtain ⟨x, hx, heq⟩ := Option.map_eq_some_iff.mp h
  obtain ⟨rfl, rfl⟩ := Prod.mk.inj heq
  have hmem := List.mem_zipIdx_iff_getElem?.mp (List.mem_of_find?_eq_some hx)
  have hp := List.find?_some hx
  simp only [Bool.and_eq_true, beq_iff_eq] at hp
  exact ⟨hmem, hp.2⟩

theorem State.setMismatch_of_domOf {s : State} {number i : Nat} {d : Dom} (h : s.domOf number = some (i, d)) (on : Bool) :
    s.setMismatch number on = s.modDom i (fun d => { d with mismatch := on }) := by
  simp only [State.setMismatch, h]

theorem State.modDom_doms_same {s : State} {i : Nat} {d : Dom} (h : s.doms[i]? = some d) (f : Dom → Dom) : (s.modDom i f).doms[i]? = some (f d) := by
  simp [State.modDom, listMod, h]

theorem State.modDom_doms_ne (s : State) {i j : Nat} (h : j ≠ i) (f : Dom → Dom) : (s.modDom i f).doms[j]? = s.doms[j]? := by
  simp [State.modDom, listMod, Ne.symm h]

/-! ## The checks of TBL_CREATE (R50) -/

/-- The header, the reserved bytes and the upper bits of ROWS of an entry of TBL_CREATE. -/
def createZeros (e : Bytes) : Prop := hdrZero e = true ∧ allZero (slice (argsOf e) 20 20) = true ∧ rd (argsOf e) 8 8 < 2 ^ 41

/-- FORMAT, DURABILITY, ROWLEN and ROWS of an argument block are in range. -/
def createShape (a : Bytes) : Prop :=
  rd a 2 1 ≤ 3 ∧ rd a 3 1 ≤ 1 ∧ 8 ≤ rd a 4 2 ∧ rd a 4 2 ≤ 1024 ∧ rd a 4 2 % 8 = 0 ∧ 1 ≤ rd a 8 8 ∧ rd a 8 8 ≤ 2 ^ 40

theorem createZeros_iff (e : Bytes) : ((!hdrZero e) = true ∨ (!allZero (slice (argsOf e) 20 20)) = true ∨ 2 ^ 41 ≤ rd (argsOf e) 8 8) ↔ ¬createZeros e := by
  simp only [createZeros, Bool.not_eq_true', Classical.not_and_iff_not_or_not, Bool.not_eq_true, Nat.not_lt]

theorem formatOk_iff {a : Bytes} (h : rd a 8 8 < 2 ^ 41) : formatOk a = true ↔ createShape a := by
  simp only [formatOk, Nat.mod_eq_of_lt h, createShape, Bool.and_eq_true, decide_eq_true_eq, beq_iff_eq, and_assoc]

section
variable {s : State} {e : Bytes} {answers : Answers}

theorem State.createStatus_badArg (h : ¬createZeros e) : s.createStatus e answers = ST_TBL_BAD_ARG :=
  if_pos ((createZeros_iff e).mpr h)

theorem State.createStatus_badFormat (hz : createZeros e) (h : ¬createShape (argsOf e)) : s.createStatus e answers = ST_TBL_BAD_FORMAT := by
  have hf : (!formatOk (argsOf e)) = true := by
    rw [Bool.not_eq_true', ← Bool.not_eq_true, formatOk_iff hz.2.2]
    exact h
  simp only [State.createStatus, createZeros_iff, hz, not_true_eq_false, if_false, if_pos hf]

variable (hz : createZeros e) (hs : createShape (argsOf e))
include hz hs

theorem State.createStatus_badHint (h : badHints (rd (argsOf e) 16 4) = true) : s.createStatus e answers = ST_PLC_BAD_HINT := by
  simp only [State.createStatus, createZeros_iff, hz, (formatOk_iff hz.2.2).mpr hs, not_true_eq_false, Bool.not_true, Bool.false_eq_true, if_false,
    if_pos h]

variable (hh : badHints (rd (argsOf e) 16 4) = false)
include hh

theorem State.createStatus_busy (h : s.handleBusy (rd (argsOf e) 0 2) (rd (argsOf e) 6 2) answers = true) :
    s.createStatus e answers = ST_TBL_HANDLE_BUSY := by
  simp only [State.createStatus, createZeros_iff, hz, (formatOk_iff hz.2.2).mpr hs, hh, not_true_eq_false, Bool.not_true, Bool.false_eq_true, if_false,
    if_pos h]

variable (hf : s.handleBusy (rd (argsOf e) 0 2) (rd (argsOf e) 6 2) answers = false)
include hf

theorem State.createStatus_noDomain (h : s.domOf (rd (argsOf e) 6 2) = none) : s.createStatus e answers = ST_PLC_NO_DOMAIN := by
  simp only [State.createStatus, createZeros_iff, hz, (formatOk_iff hz.2.2).mpr hs, hh, hf, h, not_true_eq_false, Bool.not_true, Bool.false_eq_true,
    if_false]

theorem State.createStatus_inDomain {i : Nat} {d : Dom} (h : s.domOf (rd (argsOf e) 6 2) = some (i, d)) : s.createStatus e answers =
    if !d.members.getLsbD s.member then ST_PLC_NO_DOMAIN
    else if s.digestStatus d answers ≠ ST_OK then s.digestStatus d answers
    else if rd (argsOf e) 3 1 = 0 ∧ d.memberList.length < 2 then ST_TBL_DOMAIN_SMALL
    else ST_OK := by
  simp only [State.createStatus, createZeros_iff, hz, (formatOk_iff hz.2.2).mpr hs, hh, hf, h, not_true_eq_false, Bool.not_true, Bool.false_eq_true,
    if_false]

end

/-! ## The comparison of digests (R144) -/

section
variable {s : State} {d : Dom} {answers : Answers}

theorem State.digestStatus_timeout (h : ∃ m ∈ d.live.filter (· != s.member), (answers.lookup m).getD none = none) :
    s.digestStatus d answers = ST_LNK_TIMEOUT := by
  obtain ⟨m, hm, hnone⟩ := h
  exact if_pos (List.any_eq_true.mpr ⟨m, hm, by rw [hnone]; rfl⟩)

theorem State.digestStatus_mismatch (hall : ∀ m ∈ d.live.filter (· != s.member), ∃ x, answers.lookup m = some (some x))
    (h : ∃ m ∈ d.live.filter (· != s.member), ∃ x b, answers.lookup m = some (some (x, b)) ∧ x ≠ Config.domainDigest d.number d.log2 d.members.toNat) :
    s.digestStatus d answers = ST_PLC_DOMAIN_MISMATCH := by
  obtain ⟨m, hm, x, b, hx, hne⟩ := h
  refine (if_neg ?_).trans (if_pos (List.any_eq_true.mpr ⟨m, hm, ?_⟩))
  · simp only [List.any_eq_true, not_exists, not_and]
    intro m hm
    obtain ⟨x, hx⟩ := hall m hm
    simp [hx]
  · rw [hx]
    simpa using hne

theorem State.digestStatus_equal (h : ∀ m ∈ d.live.filter (· != s.member), ∃ b,
    answers.lookup m = some (some (Config.domainDigest d.number d.log2 d.members.toNat, b))) : s.digestStatus d answers = ST_OK := by
  refine (if_neg ?_).trans (if_neg ?_)
  all_goals
    simp only [List.any_eq_true, not_exists, not_and]
    intro m hm
    obtain ⟨b, hb⟩ := h m hm
    simp [hb]

end

/-! ## TBL_CREATE -/

/-- Which parts a packet reaches depends on the registers, the straps, the links and the list of lost nodes alone. -/
theorem State.reaches_of_eq {s t : State} {dst vc : Nat} (h : s.reaches dst vc) (hr : t.regs = s.regs) (hp : t.pwr = s.pwr) (hl : t.link = s.link)
    (hras : t.ras = s.ras) : t.reaches dst vc := by
  have hroute : t.route = s.route := State.route_congr hr hp (by rw [hl]) fun n => by unfold State.portUp; rw [hl]
  unfold State.reaches at *
  rwa [hroute, hras]

/-- The part once the table of an argument block is made: MISMATCH of the slot of its domain is clear. -/
def State.created (s : State) (i : Nat) (made : Nat) (a : Bytes) : State :=
  ({ s with nextCid := s.nextCid + 1, tables := s.tables ++ [tableOf made a] } : State).modDom i (fun d => { d with mismatch := false })

theorem State.createTable_eq_created {s : State} {a : Bytes} {i : Nat} {d : Dom} (h : s.domOf (rd a 6 2) = some (i, d)) (made : Nat) :
    ({ s with nextCid := s.nextCid + 1 } : State).createTable made a = s.created i made a :=
  State.setMismatch_of_domOf (s := { s with nextCid := s.nextCid + 1, tables := s.tables ++ [tableOf made a] }) h false

section
variable {s : State} {slot n : Nat} {e : Bytes} {q : QSlot} {rest : List (Nat × Bytes)} {answers : Answers}

theorem State.createStatus_took (h : Answers) : (s.took slot n e rest).createStatus e h = s.createStatus e h := rfl

/-- A status that is neither OK nor one of a comparison of digests ends the command and does nothing more. -/
theorem exec_tblCreate_fails (h : s.admits slot 0x10 n e q rest) {st : Nat} (hst : s.createStatus e answers = st) (hok : st ≠ ST_OK)
    (hmis : st ≠ ST_PLC_DOMAIN_MISMATCH) (hsmall : st ≠ ST_TBL_DOMAIN_SMALL) :
    exec (.tblCreate slot answers) s = .next ((s.took slot n e rest).endCmd slot n st 0) := by
  show execTblCreate slot answers s = _
  simp only [execTblCreate, State.admitOp_of_admits h, State.createStatus_took, hst]
  split
  · rfl
  · rw [if_neg hmis, if_neg hsmall, if_pos hok]

theorem exec_tblCreate_mismatch (h : s.admits slot 0x10 n e q rest) {i : Nat} {d : Dom} (hdom : s.domOf (rd (argsOf e) 6 2) = some (i, d))
    (hst : s.createStatus e answers = ST_PLC_DOMAIN_MISMATCH) :
    exec (.tblCreate slot answers) s = .next (((((s.took slot n e rest).setMismatch d.number true).workAll d (.mismatch d.number) none).2).endCmd slot n
      ST_PLC_DOMAIN_MISMATCH 0) := by
  have hdom' : (s.took slot n e rest).domOf (rd (argsOf e) 6 2) = some (i, d) := hdom
  show execTblCreate slot answers s = _
  simp only [execTblCreate, State.admitOp_of_admits h, State.createStatus_took, hst, hdom', if_true]

theorem exec_tblCreate_small (h : s.admits slot 0x10 n e q rest) {i : Nat} {d : Dom} (hdom : s.domOf (rd (argsOf e) 6 2) = some (i, d))
    (hst : s.createStatus e answers = ST_TBL_DOMAIN_SMALL) :
    exec (.tblCreate slot answers) s = .next (((s.took slot n e rest).setMismatch d.number false).endCmd slot n ST_TBL_DOMAIN_SMALL 0) := by
  have hdom' : (s.took slot n e rest).domOf (rd (argsOf e) 6 2) = some (i, d) := hdom
  have hne : ST_TBL_DOMAIN_SMALL ≠ ST_PLC_DOMAIN_MISMATCH := by decide
  show execTblCreate slot answers s = _
  simp only [execTblCreate, State.admitOp_of_admits h, State.createStatus_took, hst, hdom', if_neg hne, if_true]

theorem exec_tblCreate_ok (h : s.admits slot 0x10 n e q rest) {i : Nat} {d : Dom} (hdom : s.domOf (rd (argsOf e) 6 2) = some (i, d))
    (hst : s.createStatus e answers = ST_OK) (hreach : ∀ m ∈ s.others d, s.reaches m 0) :
    exec (.tblCreate slot answers) s = .next (((((s.took slot n e rest).created i (s.node * 2 ^ 32 + s.nextCid) (argsOf e)).workAll d
      (.tblCreate (s.node * 2 ^ 32 + s.nextCid) (argsOf e)) (some (slot, n))).2).settle slot n) := by
  have hdom' : (s.took slot n e rest).domOf (rd (argsOf e) 6 2) = some (i, d) := hdom
  have hmade : (s.took slot n e rest).node * 2 ^ 32 + (s.took slot n e rest).nextCid = s.node * 2 ^ 32 + s.nextCid := rfl
  have hmis : ST_OK ≠ ST_PLC_DOMAIN_MISMATCH := by decide
  have hsmall : ST_OK ≠ ST_TBL_DOMAIN_SMALL := by decide
  have hsent := State.workAll_reaches ((s.took slot n e rest).created i (s.node * 2 ^ 32 + s.nextCid) (argsOf e)) d
    (.tblCreate (s.node * 2 ^ 32 + s.nextCid) (argsOf e)) (some (slot, n)) fun m hm => State.reaches_of_eq (hreach m hm) rfl rfl rfl rfl
  show execTblCreate slot answers s = _
  simp only [execTblCreate, State.admitOp_of_admits h, State.createStatus_took, hst, hdom', if_neg hmis, if_neg hsmall, ne_eq, not_true_eq_false, if_false,
    State.createTable_eq_created hdom', hmade, hsent]

end

/-- What `settle` leaves: at most the queue slots have changed. -/
theorem State.settle_frame (s : State) (k n : Nat) : s.settle k n = { s with slots := (s.settle k n).slots } := by
  unfold State.settle
  split <;> rfl

/-- What a creation leaves once the other members have been told: the table at the end of the list, and no more of its slot than MISMATCH. -/
theorem State.created_told {s : State} {i : Nat} {d : Dom} (hd : s.doms[i]? = some d) (made slot n : Nat) (a : Bytes) {t : State}
    (h : (s.created i made a).onlySends t) :
    (t.settle slot n).tables = s.tables ++ [tableOf made a] ∧ (t.settle slot n).doms[i]? = some { d with mismatch := false }
      ∧ (∀ j, j ≠ i → (t.settle slot n).doms[j]? = s.doms[j]?) ∧ (t.settle slot n).regs = t.regs
      ∧ t.settle slot n = { s with
          tables := (t.settle slot n).tables, doms := (t.settle slot n).doms, slots := (t.settle slot n).slots,
          nextCid := s.nextCid + 1, link := (t.settle slot n).link, regs := (t.settle slot n).regs, out := (t.settle slot n).out } := by
  obtain ⟨hframe, _, _⟩ := h
  have hdoms : t.doms = (s.created i made a).doms := by rw [hframe]
  refine ⟨by rw [State.settle_frame, hframe]; rfl, ?_, fun j hj => ?_, by rw [State.settle_frame], ?_⟩
  · rw [State.settle_frame, hdoms]
    exact State.modDom_doms_same (s := { s with nextCid := _, tables := _ }) hd _
  · rw [State.settle_frame, hdoms]
    exact State.modDom_doms_ne { s with nextCid := _, tables := _ } hj _
  · rw [State.settle_frame, hframe]
    rfl

/-- Settles O15: TBL_HEAP by its two conditions, and TBL_CREATE by the first check that fails. -/
theorem createTable : Obligations.CreateTable := by
  unfold Obligations.CreateTable
  refine ⟨fun s v hopen => ⟨fun ht hdm => exec_tblHeapWrite_free hopen ht hdm v, fun h => exec_tblHeapWrite_held hopen h v⟩, ?_⟩
  intro s slot n e q rest answers hadm u a ends zeros shape hints fresh
  refine ⟨fun hz => ?_, fun hz hs => ?_, fun hz hs hh => ?_, fun hz hs hh hf => ?_, fun hz hs hh hf hdom => ?_, fun i d hz hs hh hf hdom => ?_⟩
  · exact exec_tblCreate_fails hadm (State.createStatus_badArg hz) (by decide) (by decide) (by decide)
  · exact exec_tblCreate_fails hadm (State.createStatus_badFormat hz hs) (by decide) (by decide) (by decide)
  · exact exec_tblCreate_fails hadm (State.createStatus_badHint hz hs (eq_true_of_ne_false hh)) (by decide) (by decide) (by decide)
  · exact exec_tblCreate_fails hadm (State.createStatus_busy hz hs hh (eq_true_of_ne_false hf)) (by decide) (by decide) (by decide)
  · exact exec_tblCreate_fails hadm (State.createStatus_noDomain hz hs hh hf hdom) (by decide) (by decide) (by decide)
  have hst := State.createStatus_inDomain hz hs hh hf hdom
  obtain ⟨hd, hnum⟩ := State.domOf_some hdom
  have hdom' : u.domOf d.number = some (i, d) := by rw [hnum]; exact hdom
  refine ⟨fun hm => ?_, fun hm => ?_⟩
  · rw [hm] at hst
    exact exec_tblCreate_fails hadm hst (by decide) (by decide) (by decide)
  · intro others own
    rw [hm, Bool.not_true, if_neg Bool.false_ne_true] at hst
    refine ⟨fun h => ?_, fun hall hne => ?_, fun heq => ?_⟩
    · rw [State.digestStatus_timeout h, if_pos (by decide)] at hst
      exact exec_tblCreate_fails hadm hst (by decide) (by decide) (by decide)
    · rw [State.digestStatus_mismatch hall hne, if_pos (by decide)] at hst
      have hmod := State.setMismatch_of_domOf hdom' true
      obtain ⟨hframe, _, _⟩ := (u.setMismatch d.number true).onlySends_workAll d (.mismatch d.number) none
      refine ⟨_, exec_tblCreate_mismatch hadm hdom hst, ?_, ?_⟩
      · rw [hframe, hmod]; rfl
      · rw [hframe, hmod]
        exact State.modDom_doms_same (s := u) hd _
    · rw [State.digestStatus_equal heq, if_neg (by decide)] at hst
      refine ⟨fun hdur hlen => ?_, fun hlen hreach => ?_⟩
      · rw [if_pos ⟨hdur, hlen⟩] at hst
        refine ⟨_, exec_tblCreate_small hadm hdom hst, ?_, ?_⟩
        · rw [State.setMismatch_of_domOf hdom']; rfl
        · rw [State.setMismatch_of_domOf hdom']
          exact State.modDom_doms_same (s := u) hd _
      · rw [if_neg fun h => absurd (hlen h.1) (Nat.not_le.mpr h.2)] at hst
        have hsends := (u.created i (s.node * 2 ^ 32 + s.nextCid) a).onlySends_workAll d (.tblCreate (s.node * 2 ^ 32 + s.nextCid) a) (some (slot, n))
        obtain ⟨htab, hsame, hother, hregs, hfr⟩ := State.created_told (s := u) hd (s.node * 2 ^ 32 + s.nextCid) slot n a hsends
        refine ⟨_, _, exec_tblCreate_ok hadm hdom hst hreach, htab, hsame, hother, ?_, ?_⟩
        · rw [hfr]; rfl
        · intro x hx
          show State.reg _ x = s.reg x
          rw [State.reg, hregs]
          exact hsends.2.1 x hx

end Sys2Proof.Machine

/-! TBL_LOAD from a RoCEv2 connection (R55 to R57, R514): beginning the load sends its first READ, which the port counts. -/
namespace Sys2Proof.Machine

/-- The entry of a TBL_LOAD of four rows of table 7, version 3, over connection 0. -/
def roceLoadEntry : Bytes :=
  [0x11] ++ List.replicate 23 0 ++ natLE 2 7 ++ natLE 2 3 ++ [2, 0, 0, 0] ++ natLE 8 0 ++ natLE 8 4 ++ natLE 8 0 ++ natLE 4 32 ++ natLE 4 0

/-- The queue slot where that entry waits. -/
def roceLoadSlot : QSlot := { QSlot.init with en := true, st := .on, waiting := [(1, roceLoadEntry)] }

/-- The table that it loads. -/
def roceLoadTable : Table := ⟨7, 2, true, 8, 5, 4, 0, false, 0, [⟨3, 3, .building, [], [], 0, [], false⟩]⟩

/-- A part in service with that table, that slot, and a connection that is ready on port NP0. -/
def roceLoadPart : State :=
  { State.reset with
    pwr := { State.reset.pwr with powered := true, rstN := true, stage := .ready }
    doms := State.reset.doms.set 0 { Dom.init with number := 5, valid := true, members := 1 }
    tables := [roceLoadTable]
    slots := State.reset.slots.set 0 roceLoadSlot
    net := { NetSt.init with roce := NetSt.init.roce.set 0 { Roce.init with valid := true, st := 1 } } }

theorem roceLoadPart_admits : roceLoadPart.admits 0 0x11 1 roceLoadEntry roceLoadSlot [] := by
  unfold State.admits
  decide +kernel

/-- The registers of the part after a step that goes on. -/
def regsAfter (c : Instr) (s : State) : Option (List (Nat × Word)) :=
  match exec c s with
  | .next t => some t.regs
  | _ => none

theorem roceLoadPart_counts : regsAfter (.tblLoad 0 true) roceLoadPart = some [(Reg.NP_TX_FRAMES 0, 1)] := by decide +kernel

theorem roceLoadPart_status : (roceLoadPart.took 0 1 roceLoadEntry []).loadStatus roceLoadEntry (loadOf 0 1 (argsOf roceLoadEntry)) true = ST_OK := by
  decide +kernel

/-- Refutes O16: a load whose source is a RoCEv2 connection sends its first READ at once, and NP_TX_FRAMES of the port counts the frame, while
the statement has no register change. -/
theorem not_loadBegins : ¬Obligations.LoadBegins := by
  unfold Obligations.LoadBegins
  intro h
  obtain ⟨_, hok⟩ := h roceLoadPart 0 1 roceLoadEntry roceLoadSlot [] true roceLoadPart_admits
  obtain ⟨hthere, _⟩ := hok roceLoadTable roceLoadPart_status (by decide +kernel)
  obtain ⟨t, hexec, _, _, hframe, _⟩ := hthere (by decide +kernel)
  have hregs : t.regs = [] := by rw [hframe]; rfl
  have hcount := roceLoadPart_counts
  simp [regsAfter, hexec, hregs] at hcount

end Sys2Proof.Machine

/-! TBL_COMMIT, the instant of a commit and its end (R54, R62 to R66, R230). -/
namespace Sys2Proof.Machine

/-! ## The first element of a list that a command names -/

section
variable {α : Type} (p : α → Bool)

theorem modFirst_congr (f g : α → α) (l : List α) (h : ∀ x, l.find? p = some x → f x = g x) : modFirst p f l = modFirst p g l := by
  induction l with
  | nil => rfl
  | cons x t ih =>
    by_cases hx : p x = true
    · simp [modFirst, hx, h x (by simp [hx])]
    · simp only [modFirst, hx, Bool.false_eq_true, if_false]
      rw [ih fun y hy => h y (by simpa [hx] using hy)]

theorem filter_modFirst (f : α → α) (l : List α) (h : ∀ x, p x = true → p (f x) = true) :
    (modFirst p f l).filter (fun x => !p x) = l.filter (fun x => !p x) := by
  induction l with
  | nil => rfl
  | cons x t ih =>
    by_cases hx : p x = true
    · simp [modFirst, hx, h x hx]
    · simp [modFirst, hx, ih]

/-- An element that keeps its place or is changed by f. -/
theorem mem_modFirst_of_mem (f : α → α) {l : List α} {x : α} (h : x ∈ l) : x ∈ modFirst p f l ∨ f x ∈ modFirst p f l := by
  induction l with
  | nil => exact absurd h List.not_mem_nil
  | cons y t ih =>
    by_cases hy : p y = true
    · rcases List.mem_cons.mp h with rfl | h
      · exact Or.inr (by simp [modFirst, hy])
      · exact Or.inl (by simp [modFirst, hy, h])
    · rcases List.mem_cons.mp h with rfl | h
      · exact Or.inl (by simp [modFirst, hy])
      · simp only [modFirst, hy, Bool.false_eq_true, if_false, List.mem_cons]
        exact (ih h).imp Or.inr Or.inr

end

/-! ## What sending leaves -/

namespace State

section
variable {s t : State} (h : s.onlySends t)
include h

theorem onlySends.tables : t.tables = s.tables := by rw [h.1]
theorem onlySends.commits : t.commits = s.commits := by rw [h.1]
theorem onlySends.doms : t.doms = s.doms := by rw [h.1]
theorem onlySends.loads : t.loads = s.loads := by rw [h.1]
theorem onlySends.pwr : t.pwr = s.pwr := by rw [h.1]
theorem onlySends.time : t.time = s.time := by rw [h.1]
theorem onlySends.ras : t.ras = s.ras := by rw [h.1]
theorem onlySends.slots : t.slots = s.slots := by rw [h.1]
theorem onlySends.nextCid : t.nextCid = s.nextCid := by rw [h.1]

end

theorem z_post (s : State) (p : Send) : (s.post p).2.link.z = s.link.z := by
  unfold post
  split
  · rfl
  · split
    · rfl
    · split
      · rw [latch_frame]
      · rfl

theorem z_sendWrite (s : State) (die dst : Nat) (body : Payload) (cmd : Option (Nat × Nat)) (r : Option (Nat × Word)) :
    (s.sendWrite die dst body cmd r).2.link.z = s.link.z := by
  unfold sendWrite
  dsimp only
  have h := s.z_post ⟨dst, die, keyGet 0 s.link.seqs dst, 0, body⟩
  split
  · rfl
  · split
    · next hp => rw [hp] at h; exact h
    · next hp =>
        rw [hp] at h
        split <;> exact h

theorem z_write (s : State) (die dst : Nat) (body : Payload) : (s.write die dst body).link.z = s.link.z := s.z_sendWrite _ _ _ _ _

theorem node_congr {s t : State} (hp : t.pwr = s.pwr) (hz : t.link.z = s.link.z) : t.node = s.node := by
  simp only [node, nodeX, nodeY, side, hp, hz]

/-! ## Tables that change, and what is sent of it -/

/-- From s to t at most tables have changed and packets been sent; the part keeps its place in the rack. -/
structure onlyTables (s t : State) : Prop where
  frame : t = { s with tables := t.tables, link := t.link, regs := t.regs, out := t.out }
  place : t.link.z = s.link.z

theorem onlyTables_refl (s : State) : s.onlyTables s := ⟨rfl, rfl⟩

theorem onlyTables_trans {s t u : State} (h : s.onlyTables t) (h' : t.onlyTables u) : s.onlyTables u := by
  refine ⟨?_, h'.2.trans h.2⟩
  have h1 := h.1
  have h2 := h'.1
  rw [h2, h1]

theorem onlyTables_foldl {α : Type} (f : State → α → State) (hf : ∀ (s : State) (x : α), s.onlyTables (f s x)) (l : List α) (s : State) :
    s.onlyTables (l.foldl f s) :=
  List.foldlRecOn l f (motive := s.onlyTables) s.onlyTables_refl fun t h x _ => onlyTables_trans h (hf t x)

theorem onlyTables_modTable (s : State) (h : Nat) (f : Table → Table) : s.onlyTables (s.modTable h f) := ⟨rfl, rfl⟩

theorem onlyTables_write (s : State) (die dst : Nat) (body : Payload) : s.onlyTables (s.write die dst body) := by
  obtain ⟨hframe, _, _⟩ := s.onlySends_write die dst body
  exact ⟨by rw [hframe], s.z_write die dst body⟩

theorem onlyTables_latch (s : State) (a k : Nat) : s.onlyTables (s.latch a k) := by
  rw [latch_frame]
  exact ⟨rfl, rfl⟩

theorem onlyTables_reportZero (s : State) (h v : Nat) : s.onlyTables (s.reportZero h v) := by
  unfold reportZero
  split
  · exact s.onlyTables_refl
  · split
    · split
      · split
        · exact s.onlyTables_modTable _ _
        · split
          · exact s.onlyTables_write _ _ _
          · exact s.onlyTables_refl
      · exact s.onlyTables_refl
    · exact s.onlyTables_refl

theorem onlyTables_switch (s : State) (h v : Nat) : s.onlyTables (s.switch h v) := by
  unfold switch
  split
  · exact s.onlyTables_refl
  · dsimp only
    split
    · exact onlyTables_trans (s.onlyTables_modTable _ _) (onlyTables_reportZero _ _ _)
    · exact s.onlyTables_modTable _ _

section
variable {s t : State} (h : s.onlyTables t)
include h

theorem onlyTables.node : t.node = s.node := node_congr (by rw [h.1]) h.2
theorem onlyTables.commits : t.commits = s.commits := by rw [h.1]
theorem onlyTables.time : t.time = s.time := by rw [h.1]

end

/-! ## A switch (R54) -/

theorem table_modTable (s : State) (h : Nat) (f : Table → Table) (hf : ∀ x, (f x).handle = x.handle) :
    (s.modTable h f).table? h = (s.table? h).map f :=
  find_modFirst _ _ _ fun x hx => by rwa [hf]

theorem table_modTable_same {s : State} {h : Nat} {t : Table} (ht : s.table? h = some t) (f : Table → Table) (hf : ∀ x, (f x).handle = x.handle) :
    (s.modTable h f).table? h = some (f t) := by
  rw [table_modTable s h f hf, ht]
  rfl

theorem table_modTable_ne (s : State) {h h' : Nat} (hne : h' ≠ h) (f : Table → Table) (hf : ∀ x, (f x).handle = x.handle) :
    (s.modTable h f).table? h' = s.table? h' := by
  unfold table?
  rw [modTable_tables]
  refine find_modFirst_ne _ _ _ _ (fun x hx => ?_) fun x hx => ?_
  · exact beq_false_of_ne fun h' => hne (h' ▸ beq_iff_eq.mp hx)
  · rw [hf]
    exact beq_false_of_ne fun h' => hne (h' ▸ beq_iff_eq.mp hx)

/-- The table of a handle after a report of zero references: its versions keep their numbers and states. -/
theorem table_reportZero {s : State} {h v : Nat} {t : Table} (ht : s.table? h = some t) :
    ∃ t', (s.reportZero h v).table? h = some t' ∧ t'.versions.map (·.num) = t.versions.map (·.num)
      ∧ t'.versions.map (·.st) = t.versions.map (·.st) := by
  have hsame : ∃ t', s.table? h = some t' ∧ t'.versions.map (·.num) = t.versions.map (·.num) ∧ t'.versions.map (·.st) = t.versions.map (·.st) :=
    ⟨t, ht, rfl, rfl⟩
  unfold reportZero
  rw [ht]
  dsimp only
  split
  · split
    · split
      · refine ⟨_, table_modTable_same ht _ fun _ => rfl, ?_, ?_⟩
        · exact map_modFirst _ _ _ _ fun _ => rfl
        · exact map_modFirst _ _ _ _ fun _ => rfl
      · split
        · unfold table? at *
          rw [(s.onlySends_write _ _ _).tables]
          exact hsame
        · exact hsame
    · exact hsame
  · exact hsame

theorem table_reportZero_ne (s : State) {h h' : Nat} (hne : h' ≠ h) (v : Nat) : (s.reportZero h v).table? h' = s.table? h' := by
  unfold reportZero
  split
  · rfl
  · split
    · split
      · split
        · exact s.table_modTable_ne hne _ fun _ => rfl
        · split
          · unfold table?
            rw [(s.onlySends_write _ _ _).tables]
          · rfl
      · rfl
    · rfl

/-- What a switch makes of a version. -/
def switched (v : Nat) (w : Version) : Version :=
  if w.num = v then { w with st := .live } else if w.st = .live then { w with st := .retiring } else w

theorem switch_eq {s : State} {h : Nat} {t : Table} (ht : s.table? h = some t) (v : Nat) :
    let s1 := s.modTable h (fun t => { t with versions := t.versions.map (switched v) })
    s.switch h v = match t.live with | some w => s1.reportZero h w.num | none => s1 := by
  simp only [switch, ht]
  rfl

theorem table_switch {s : State} {h : Nat} {t0 : Table} (ht : s.table? h = some t0) (v : Nat) :
    ∃ t1, (s.switch h v).table? h = some t1 ∧ t1.versions.map (·.num) = t0.versions.map (·.num)
      ∧ t1.versions.map (·.st) = t0.versions.map (fun w => if w.num = v then .live else if w.st = .live then .retiring else w.st) := by
  have h1 : (s.modTable h (fun t => { t with versions := t.versions.map (switched v) })).table? h
      = some { t0 with versions := t0.versions.map (switched v) } := table_modTable_same ht _ fun _ => rfl
  have hnum : (t0.versions.map (switched v)).map (·.num) = t0.versions.map (·.num) := by
    rw [List.map_map]
    refine List.map_congr_left fun w _ => ?_
    simp only [Function.comp, switched]
    split
    · rfl
    · split
      · rfl
      · rfl
  have hst : (t0.versions.map (switched v)).map (·.st)
      = t0.versions.map (fun w => if w.num = v then .live else if w.st = .live then .retiring else w.st) := by
    rw [List.map_map]
    refine List.map_congr_left fun w _ => ?_
    simp only [Function.comp, switched]
    split
    · rfl
    · split
      · rfl
      · rfl
  rw [switch_eq ht]
  split
  · obtain ⟨t1, ht1, h2, h3⟩ := table_reportZero (v := _) h1
    exact ⟨t1, ht1, h2.trans hnum, h3.trans hst⟩
  · exact ⟨_, h1, hnum, hst⟩

theorem table_switch_ne (s : State) {h h' : Nat} (hne : h' ≠ h) (v : Nat) : (s.switch h v).table? h' = s.table? h' := by
  unfold switch
  split
  · rfl
  · dsimp only
    split
    · rw [table_reportZero_ne _ hne, table_modTable_ne s hne]
      exact fun _ => rfl
    · exact s.table_modTable_ne hne _ fun _ => rfl

end State

/-! ## The instant (R64, R65) -/

/-- The versions of a commit that switch at its instant. -/
def State.switching (s : State) (c : Commit) : List (Nat × Nat) :=
  c.waiting.filter (fun x => !((s.table? x.1).bind (·.ver? x.2)).any (·.dropped))

/-- The versions that do not. -/
def State.staying (s : State) (c : Commit) : List (Nat × Nat) := c.waiting.filter (fun x => !(s.switching c).contains x)

/-- The part once the versions of a commit have switched. -/
def State.afterSwitches (s : State) (c : Commit) : State :=
  let u := (s.switching c).foldl (fun s x => s.switch x.1 x.2) s
  if c.late then u.latch Reg.TBL_STATUS 3 else u

theorem State.onlyTables_afterSwitches (s : State) (c : Commit) : s.onlyTables (s.afterSwitches c) := by
  have hfold := State.onlyTables_foldl (fun s (x : Nat × Nat) => s.switch x.1 x.2) (fun s x => s.onlyTables_switch x.1 x.2) (s.switching c) s
  unfold State.afterSwitches
  dsimp only
  split
  · exact State.onlyTables_trans hfold (State.onlyTables_latch _ _ _)
  · exact hfold

section
variable {s : State} {cid : Nat} {c : Commit} (hserv : s.serving = true) (hc : s.commit? cid = some c)
include hserv hc

theorem exec_commitInstantReached_waits (h : s.switching c = [] ∨ c.go = false ∨ s.time.gtime.toNat < c.instant.toNat) :
    exec (.commitInstantReached cid) s = .next s := by
  have h' : (s.switching c).isEmpty = true ∨ (!c.go) = true ∨ (!s.reached c.instant.toNat) = true := by
    refine h.imp List.isEmpty_iff.mpr (Or.imp (fun h => by rw [h]; rfl) fun h => ?_)
    have hnot : s.reached c.instant.toNat = false := decide_eq_false (Nat.not_le.mpr h)
    rw [hnot]
    rfl
  show execCommitInstantReached cid s = _
  simp only [execCommitInstantReached, State.whenServing_on s _ hserv, hc]
  exact congrArg _ (if_pos h')

theorem exec_commitInstantReached_goes (hnow : s.switching c ≠ []) (hgo : c.go = true) (hat : c.instant.toNat ≤ s.time.gtime.toNat) :
    exec (.commitInstantReached cid) s = .next (((s.afterSwitches c).modCommit cid (fun x =>
      { x with here := some ⟨s.node, s.time.gtime, x.late⟩, waiting := s.staying c })).commitSwitched cid) := by
  have hno : ¬((s.switching c).isEmpty = true ∨ (!c.go) = true ∨ (!s.reached c.instant.toNat) = true) := by
    simp [hnow, hgo, State.reached, State.now, hat]
  have hmod : (s.afterSwitches c).modCommit cid (fun x => { x with here := some ⟨s.node, s.time.gtime, x.late⟩, waiting := s.staying c })
      = (s.afterSwitches c).modCommit cid (fun x => { x with
          here := some ⟨s.node, s.time.gtime, x.late⟩, waiting := x.waiting.filter (fun y => !(s.switching c).contains y) }) := by
    unfold State.modCommit
    rw [modFirst_congr]
    intro x hx
    rw [(s.onlyTables_afterSwitches c).commits] at hx
    obtain rfl : c = x := Option.some.inj (hc.symm.trans hx)
    rfl
  show execCommitInstantReached cid s = _
  simp only [execCommitInstantReached, State.whenServing_on s _ hserv, hc]
  rw [hmod]
  exact congrArg _ (if_neg hno)

end

theorem State.commit_modCommit {s : State} {cid : Nat} {c : Commit} (hc : s.commit? cid = some c) (f : Commit → Commit) (hf : ∀ x, (f x).cid = x.cid) :
    (s.modCommit cid f).commit? cid = some (f c) := by
  unfold State.commit? State.modCommit at *
  dsimp only
  rw [find_modFirst _ _ _ fun x hx => by rwa [hf], hc]
  rfl

theorem State.commitSwitched_stays {s : State} {cid : Nat} {c : Commit} (hc : s.commit? cid = some c) (h : c.own.isSome = true ∨ c.waiting ≠ []) :
    s.commitSwitched cid = s := by
  have h' : (!c.waiting.isEmpty) = true ∨ c.own.isSome = true := h.symm.imp_left fun h => by simpa using h
  simp only [State.commitSwitched, hc, if_pos h']

theorem State.commitSwitched_reports {s : State} {cid : Nat} {c : Commit} {sw : Switched} (hc : s.commit? cid = some c) (hown : c.own = none)
    (hwait : c.waiting = []) (hhere : c.here = some sw) : s.commitSwitched cid
      = ({ s with commits := s.commits.filter (fun x => !(x.cid == cid)) } : State).write 0 (commitNode cid)
          (.work (.switched cid s.node sw.instant sw.late)) := by
  simp only [State.commitSwitched, hc, hown, hwait, hhere, List.isEmpty_nil, Bool.not_true, Option.isSome_none, Bool.false_eq_true, or_self, if_false]

/-! ## The end of a commit (R65, R66, R230) -/

/-- The latest instant of a list of switches. -/
def latest (l : List Switched) : Word := l.foldl (fun (m : Word) x => if m.toNat < x.instant.toNat then x.instant else m) 0

theorem latest_spec (l : List Switched) : (∀ r ∈ l, r.instant.toNat ≤ (latest l).toNat) ∧ (latest l = 0 ∨ ∃ r ∈ l, latest l = r.instant) := by
  suffices h : ∀ (l : List Switched) (m : Word), let fin := l.foldl (fun (m : Word) x => if m.toNat < x.instant.toNat then x.instant else m) m
      m.toNat ≤ fin.toNat ∧ (∀ r ∈ l, r.instant.toNat ≤ fin.toNat) ∧ (fin = m ∨ ∃ r ∈ l, fin = r.instant) from (h l 0).2
  intro l
  induction l with
  | nil => exact fun m => ⟨Nat.le_refl _, by simp, Or.inl rfl⟩
  | cons x t ih =>
    intro m
    by_cases hx : m.toNat < x.instant.toNat
    · obtain ⟨h1, h2, h3⟩ := ih x.instant
      simp only [List.foldl_cons, if_pos hx]
      refine ⟨by omega, List.forall_mem_cons.mpr ⟨h1, h2⟩, ?_⟩
      rcases h3 with h3 | ⟨r, hr, h3⟩
      · exact Or.inr ⟨x, List.mem_cons_self, h3⟩
      · exact Or.inr ⟨r, List.mem_cons_of_mem _ hr, h3⟩
    · obtain ⟨h1, h2, h3⟩ := ih m
      simp only [List.foldl_cons, if_neg hx]
      refine ⟨h1, List.forall_mem_cons.mpr ⟨by omega, h2⟩, h3.imp_right ?_⟩
      rintro ⟨r, hr, h3⟩
      exact ⟨r, List.mem_cons_of_mem _ hr, h3⟩

section
variable {s : State} {cid : Nat} {c : Commit} (hserv : s.serving = true) (hc : s.commit? cid = some c)
include hserv hc

theorem exec_commitComplete_waits (h : c.waiting ≠ []) : exec (.commitComplete cid) s = .next s := by
  have hempty : c.waiting.isEmpty = false := by simpa using h
  show execCommitComplete cid s = _
  simp only [execCommitComplete, State.whenServing_on s _ hserv, hc, hempty, Bool.and_false, Bool.false_and, Bool.not_false, and_self, if_true]
  congr 1
  split <;> rfl

theorem exec_commitComplete_done {k n : Nat} {sw : Switched} (hown : c.own = some (k, n)) (hhere : c.here = some sw) (hwait : c.waiting = [])
    (hcan : c.cancelled = false) (hall : ∀ d, s.commitDom c = some d → ∀ m ∈ s.others d, ∃ r ∈ c.reports, r.node = m) :
    let fin := latest (sw :: c.reports)
    let st := if sw.late = true ∨ c.reports.any (·.late) = true then ST_TBL_COMMIT_LATE else ST_OK
    let w := (({ s with commits := s.commits.filter (fun x => !(x.cid == cid)) } : State).endCmd k n st 0).modCmd k n (fun x => { x with finish := fin })
    exec (.commitComplete cid) s = .next (if c.usedTicket then
      (w.setPair { s.pair with own := some ⟨c.tables, st, fin⟩, ownAt := s.time.gtime }).write 0 s.twinNode (.report ⟨c.tables, st, fin⟩) else w) := by
  intro fin st w
  have hdone : (((s.commitDom c).map s.others).getD []).all (fun m => c.reports.any (·.node == m)) = true := by
    cases hd : s.commitDom c with
    | none => rfl
    | some d =>
      simp only [Option.map_some, Option.getD_some, List.all_eq_true, List.any_eq_true, beq_iff_eq]
      exact hall d hd
  have hst : (if (sw :: c.reports).any (·.late) then ST_TBL_COMMIT_LATE else ST_OK) = st := by
    simp only [st, List.any_cons, Bool.or_eq_true]
  show execCommitComplete cid s = _
  simp only [execCommitComplete, State.whenServing_on s _ hserv, hc, hown, hhere, hwait, hcan, hdone, Option.isSome_some, Option.isNone_some,
    List.isEmpty_nil, Bool.true_and, Bool.false_and, Bool.and_false, Bool.not_true, Bool.not_false, Bool.false_eq_true, and_false, if_false,
    Option.toList_some, List.singleton_append, hst]
  rfl

end

/-! ## TBL_COMMIT (R62, R63) -/

namespace State

/-- From s to t at most the commits have changed and packets been sent; each commit keeps what it names and where it stands. -/
structure onlyCommits (s t : State) : Prop where
  frame : t = { s with commits := t.commits, link := t.link, regs := t.regs, out := t.out }
  kept : ∀ c ∈ s.commits, c.own.isSome = true → ∃ c' ∈ t.commits, c'.tables = c.tables ∧ c'.waiting = c.waiting ∧ c'.own = c.own ∧ c'.here = c.here
      ∧ c'.instant = c.instant

theorem onlyCommits_refl (s : State) : s.onlyCommits s := ⟨rfl, fun c hc _ => ⟨c, hc, rfl, rfl, rfl, rfl, rfl⟩⟩

theorem onlyCommits_trans {s t u : State} (h : s.onlyCommits t) (h' : t.onlyCommits u) : s.onlyCommits u := by
  refine ⟨?_, fun c hc hown => ?_⟩
  · have h1 := h.1
    have h2 := h'.1
    rw [h2, h1]
  · obtain ⟨c1, hc1, ht1, hw1, ho1, hh1, hi1⟩ := h.2 c hc hown
    obtain ⟨c2, hc2, ht2, hw2, ho2, hh2, hi2⟩ := h'.2 c1 hc1 (by rwa [ho1])
    exact ⟨c2, hc2, ht2.trans ht1, hw2.trans hw1, ho2.trans ho1, hh2.trans hh1, hi2.trans hi1⟩

theorem onlyCommits_of_sends {s t : State} (h : s.onlySends t) : s.onlyCommits t :=
  ⟨by rw [h.1], fun c hc _ => ⟨c, h.commits ▸ hc, rfl, rfl, rfl, rfl, rfl⟩⟩

theorem onlyCommits_modCommit (s : State) (cid : Nat) (f : Commit → Commit) (hf : ∀ c, (f c).tables = c.tables ∧ (f c).waiting = c.waiting
    ∧ (f c).own = c.own ∧ (f c).here = c.here ∧ (f c).instant = c.instant) : s.onlyCommits (s.modCommit cid f) := by
  refine ⟨rfl, fun c hc _ => ?_⟩
  rcases mem_modFirst_of_mem (·.cid == cid) f hc with h | h
  · exact ⟨c, h, rfl, rfl, rfl, rfl, rfl⟩
  · exact ⟨f c, h, hf c⟩

theorem onlyCommits_commitGo (s : State) (cid : Nat) : s.onlyCommits (s.commitGo cid) :=
  s.onlyCommits_modCommit cid _ fun c => by split <;> exact ⟨rfl, rfl, rfl, rfl, rfl⟩

theorem onlyCommits_commitReady (s : State) (cid : Nat) : s.onlyCommits (s.commitReady cid) := by
  unfold commitReady
  split
  · exact s.onlyCommits_refl
  · split
    · split
      · exact s.onlyCommits_refl
      · exact onlyCommits_trans (onlyCommits_of_sends (s.onlySends_workAll _ _ _)) (onlyCommits_commitGo _ _)
    · exact s.onlyCommits_refl

theorem onlyCommits_commitLoads (s : State) (cid : Nat) : s.onlyCommits (s.commitLoads cid) := by
  unfold commitLoads
  split
  · exact s.onlyCommits_refl
  · split
    · exact s.onlyCommits_refl
    · refine onlyCommits_trans (s.onlyCommits_modCommit cid (fun c => { c with ready := s.node :: c.ready }) fun c => ⟨rfl, rfl, rfl, rfl, rfl⟩) ?_
      dsimp only
      split
      · exact onlyCommits_commitReady _ _
      · exact onlyCommits_of_sends (onlySends_write _ _ _ _)

theorem table_modVer (s : State) (h v : Nat) (f : Version → Version) :
    (s.modVer h v f).table? h = (s.table? h).map (fun t => { t with versions := modFirst (·.num == v) f t.versions }) :=
  table_modTable s h _ fun _ => rfl

theorem table_modVer_same {s : State} {h : Nat} {t : Table} (ht : s.table? h = some t) (v : Nat) (f : Version → Version) :
    (s.modVer h v f).table? h = some { t with versions := modFirst (·.num == v) f t.versions } :=
  table_modTable_same ht _ fun _ => rfl

/-- The version v of a handle. -/
def ver (s : State) (x : Nat × Nat) : Option Version := (s.table? x.1).bind (·.ver? x.2)

theorem ver_setVState (s : State) (h v : Nat) (st : VState) (x : Nat × Nat) :
    (s.setVState h v st).ver x = if x = (h, v) then (s.ver x).map (fun w => { w with st := st }) else s.ver x := by
  obtain ⟨h', v'⟩ := x
  unfold ver setVState
  by_cases hh : h' = h
  · subst hh
    cases ht : s.table? h' with
    | none =>
      have hnone : (s.modVer h' v (fun w => { w with st := st })).table? h' = none := by
        rw [table_modVer, ht]
        rfl
      simp [hnone]
    | some t =>
      simp only [table_modVer_same ht, Option.bind_some, Table.ver?, Prod.mk.injEq, true_and]
      by_cases hv : v' = v
      · subst hv
        rw [if_pos rfl]
        exact find_modFirst _ _ _ fun x hx => hx
      · rw [if_neg hv]
        refine find_modFirst_ne _ _ _ _ (fun x hx => ?_) fun x hx => ?_
        · exact beq_false_of_ne fun h => hv (h ▸ beq_iff_eq.mp hx)
        · exact beq_false_of_ne fun h => hv (h ▸ beq_iff_eq.mp hx)
  · have hne : (s.modVer h v (fun w => { w with st := st })).table? h' = s.table? h' := s.table_modTable_ne hh _ fun _ => rfl
    simp only [hne, Prod.mk.injEq, hh, false_and, if_false]

/-- Setting a list of versions COMMITTING sets each of them. -/
theorem ver_foldl_committing (l : List (Nat × Nat)) (s : State) (x : Nat × Nat) (hx : x ∈ l ∨ ∀ w, s.ver x = some w → w.st = .committing) :
    ∀ w, (l.foldl (fun s x => s.setVState x.1 x.2 .committing) s).ver x = some w → w.st = .committing := by
  induction l generalizing s with
  | nil => exact hx.resolve_left List.not_mem_nil
  | cons y l ih =>
    refine ih _ ?_
    by_cases hxy : x = (y.1, y.2)
    · refine Or.inr fun w hw => ?_
      rw [ver_setVState, if_pos hxy, Option.map_eq_some_iff] at hw
      obtain ⟨_, _, rfl⟩ := hw
      rfl
    · rcases hx with hx | hx
      · exact Or.inl ((List.mem_cons.mp hx).resolve_left hxy)
      · refine Or.inr fun w hw => hx w ?_
        rwa [ver_setVState, if_neg hxy] at hw

theorem setVStates_frame (l : List (Nat × Nat)) (st : VState) (s : State) :
    l.foldl (fun s x => s.setVState x.1 x.2 st) s = { s with tables := (l.foldl (fun s x => s.setVState x.1 x.2 st) s).tables } :=
  List.foldlRecOn l _ (motive := fun t : State => t = { s with tables := t.tables }) rfl fun t h x _ => by
    unfold setVState modVer modTable
    rw [h]

end State

/-- When a commit with that argument block switches. -/
def State.commitAt (s : State) (e : Bytes) : Word :=
  if rd (argsOf e) 0 8 = 0 then s.time.gtime + 400000 else BitVec.ofNat 64 (rd (argsOf e) 0 8)

/-- The commit uses the ARMED ticket of the pair (R229). -/
def State.usesTicket (s : State) (e : Bytes) : Bool :=
  decide (s.pair.ticket = .armed) && s.pair.at_ == s.commitAt e && rd (argsOf e) 0 8 != 0

/-- The part once a commit of its own has begun. -/
def State.begun (s : State) (slot n : Nat) (e : Bytes) : State :=
  ({ s with nextCid := s.nextCid + 1, pair := if s.usesTicket e then { s.pair with ticket := .used } else s.pair } : State).beginCommit
    (s.node * 2 ^ 32 + s.nextCid) (some (slot, n)) (s.commitAt e) (commitTables (argsOf e)) (s.usesTicket e)

theorem State.begun_frame (s : State) (slot n : Nat) (e : Bytes) : s.begun slot n e =
    { s with nextCid := s.nextCid + 1, commits := (s.begun slot n e).commits, tables := (s.begun slot n e).tables, pair := (s.begun slot n e).pair } := by
  unfold State.begun State.beginCommit
  rw [State.setVStates_frame]

theorem State.mem_commits_begun (s : State) (slot n : Nat) (e : Bytes) : ∃ c ∈ (s.begun slot n e).commits, c.tables = commitTables (argsOf e)
    ∧ c.waiting = commitTables (argsOf e) ∧ c.own = some (slot, n) ∧ c.here = none ∧ c.instant = s.commitAt e :=
  ⟨_, List.mem_append_right _ (List.mem_singleton_self _), rfl, rfl, rfl, rfl, rfl⟩

theorem State.ver_begun (s : State) (slot n : Nat) (e : Bytes) (x : Nat × Nat) (hx : x ∈ commitTables (argsOf e)) (w : Version)
    (hw : (s.begun slot n e).ver x = some w) : w.st = .committing :=
  State.ver_foldl_committing _ _ x (Or.inl hx) w hw

section
variable {s : State} {slot n : Nat} {e : Bytes} {q : QSlot} {rest : List (Nat × Bytes)} (hadm : s.admits slot 0x12 n e q rest)
include hadm

theorem exec_tblCommit_fails (h : (s.took slot n e rest).commitStatus e ≠ ST_OK) :
    exec (.tblCommit slot) s = .next ((s.took slot n e rest).endCmd slot n ((s.took slot n e rest).commitStatus e) 0) := by
  show execTblCommit slot s = _
  simp only [execTblCommit, State.admitOp_of_admits hadm]
  exact congrArg _ (if_pos h)

/-- A commit that is taken begins, is told to the other members, and looks at the loads that it waits for. -/
theorem exec_tblCommit_ok (hst : (s.took slot n e rest).commitStatus e = ST_OK)
    (hreach : ∀ h v rest' t0 i d, commitTables (argsOf e) = (h, v) :: rest' → s.table? h = some t0 → s.tableDom t0 = some (i, d) →
      ∀ m ∈ s.others d, s.reaches m 0) :
    ∃ t, ((s.took slot n e rest).begun slot n e).onlySends t ∧ exec (.tblCommit slot) s = .next (t.commitLoads (s.node * 2 ^ 32 + s.nextCid)) := by
  have hne : ¬(ST_OK ≠ ST_OK) := fun h => h rfl
  have hbegun := (s.took slot n e rest).begun_frame slot n e
  show ∃ t, _ ∧ execTblCommit slot s = _
  simp only [execTblCommit, State.admitOp_of_admits hadm, hst, if_neg hne]
  cases hd : ((commitTables (argsOf e)).head?.bind (fun x => s.table? x.1)).bind s.tableDom with
  | none =>
    refine ⟨_, State.onlySends_refl _, congrArg Host.Outcome.next ?_⟩
    have hd' : ((commitTables (argsOf e)).head?.bind (fun x => (s.took slot n e rest).table? x.1)).bind (s.took slot n e rest).tableDom = none := hd
    rw [hd']
    exact if_neg hne
  | some x =>
    obtain ⟨i, d⟩ := x
    have hd' : ((commitTables (argsOf e)).head?.bind (fun x => (s.took slot n e rest).table? x.1)).bind (s.took slot n e rest).tableDom = some (i, d) := hd
    have hsent := State.workAll_reaches ((s.took slot n e rest).begun slot n e) d
      (.tblCommit (s.node * 2 ^ 32 + s.nextCid) ((s.took slot n e rest).commitAt e) (commitTables (argsOf e))) (some (slot, n)) fun m hm => by
        obtain ⟨t0, ht0, hdom⟩ := Option.bind_eq_some_iff.mp hd
        obtain ⟨y, hy, ht0⟩ := Option.bind_eq_some_iff.mp ht0
        obtain ⟨rest', hl⟩ := List.head?_eq_some_iff.mp hy
        rw [hbegun] at hm ⊢
        exact State.reaches_of_eq (hreach y.1 y.2 rest' t0 i d hl ht0 hdom m hm) rfl rfl rfl rfl
    refine ⟨_, State.onlySends_workAll _ d (.tblCommit (s.node * 2 ^ 32 + s.nextCid) ((s.took slot n e rest).commitAt e) (commitTables (argsOf e)))
      (some (slot, n)), congrArg Host.Outcome.next ?_⟩
    rw [hd']
    exact if_neg (fun h => h hsent)

end

/-- Settles O17: the command, the instant, the end, and a switch. -/
theorem commitGoes : Obligations.CommitGoes := by
  unfold Obligations.CommitGoes
  refine ⟨⟨?_, ?_⟩, fun s h v t0 ht => ?_⟩
  · intro s slot n e q rest hadm u l
    refine ⟨exec_tblCommit_fails hadm, fun hst hreach => ?_⟩
    obtain ⟨t, hsends, hexec⟩ := exec_tblCommit_ok hadm hst hreach
    obtain ⟨hframe, hcommits⟩ := State.onlyCommits_trans (State.onlyCommits_of_sends hsends)
      (t.onlyCommits_commitLoads (s.node * 2 ^ 32 + s.nextCid))
    obtain ⟨c, hc, hct, hcw, hco, hch, hci⟩ := u.mem_commits_begun slot n e
    obtain ⟨c', hc', ht', hw', ho', hh', hi'⟩ := hcommits c hc (by rw [hco]; rfl)
    have hbegun := u.begun_frame slot n e
    generalize hv : t.commitLoads (s.node * 2 ^ 32 + s.nextCid) = v at *
    refine ⟨v, hexec, ?_, ⟨c', hc', ht'.trans hct, hw'.trans hcw, ho'.trans hco, hh'.trans hch, hi'.trans hci⟩, fun x hx w hw => ?_, ?_⟩
    · rw [hframe, hbegun]; rfl
    · rw [hframe] at hw
      exact u.ver_begun slot n e x hx w hw
    · rw [hframe, hbegun]; rfl
  · intro s cid c hserv hc now rest
    refine ⟨?_, exec_commitInstantReached_waits hserv hc, exec_commitComplete_waits hserv hc, fun k n sw hown hhere hwait hcan hall => ?_⟩
    · intro hnow hgo hat u v
      have hexec := exec_commitInstantReached_goes hserv hc hnow hgo hat
      have hkeeps : s.onlyTables v := s.onlyTables_afterSwitches c
      have hcv : v.commit? cid = some c := by
        unfold State.commit? at *
        rwa [hkeeps.commits]
      have hcm := State.commit_modCommit hcv (fun c => { c with here := some ⟨s.node, s.time.gtime, c.late⟩, waiting := rest }) fun _ => rfl
      refine ⟨fun h => ?_, fun hown hrest => ?_⟩
      · rw [hexec]
        exact congrArg _ (State.commitSwitched_stays hcm h)
      · have hnode : (v.modCommit cid (fun c => { c with here := some ⟨s.node, s.time.gtime, c.late⟩, waiting := rest })).node = s.node :=
          hkeeps.node
        have hfilter : (v.modCommit cid (fun c => { c with here := some ⟨s.node, s.time.gtime, c.late⟩, waiting := rest })).commits.filter
            (fun x => !(x.cid == cid)) = v.commits.filter (fun x => !(x.cid == cid)) := filter_modFirst _ _ _ fun x hx => hx
        have hreports := State.commitSwitched_reports hcm hown hrest rfl
        rw [hnode, hfilter] at hreports
        rw [hexec]
        exact congrArg _ hreports
    · obtain ⟨h1, h2⟩ := latest_spec (sw :: c.reports)
      exact ⟨latest (sw :: c.reports), h1, h2, exec_commitComplete_done hserv hc hown hhere hwait hcan hall⟩
  · obtain ⟨t1, ht1, hnum, hst⟩ := State.table_switch ht v
    exact ⟨t1, ht1, hnum, hst, fun h' hne => s.table_switch_ne hne v⟩

end Sys2Proof.Machine

/-! TBL_DROP and the freeing of a version (R54, R70, R177, R595). -/
namespace Sys2Proof.Machine

/-! ## The versions of a table that are freed -/

/-- A table without version v. -/
def Table.without (v : Nat) (t : Table) : Table := { t with versions := t.versions.filter (fun x => !(x.num == v)) }

theorem Table.without_of_none {t : Table} {v : Nat} (h : t.ver? v = none) : t.without v = t := by
  have hall : t.versions.filter (fun x => !(x.num == v)) = t.versions :=
    List.filter_eq_self.mpr fun x hx => by simpa using List.find?_eq_none.mp h x hx
  rw [Table.without, hall]

namespace State

theorem table_reapTable_ne (s : State) {h h' : Nat} (hne : h' ≠ h) : (s.reapTable h).table? h' = s.table? h' := by
  unfold reapTable
  split
  · rfl
  · split
    · unfold table?
      rw [List.find?_filter]
      congr 1
      funext x
      by_cases hx : x.handle = h' <;> simp [hx, hne]
    · rfl

theorem table_reapTable (s : State) (h : Nat) : (s.reapTable h).table? h = none ∨ (s.reapTable h).table? h = s.table? h := by
  unfold reapTable
  split
  · exact Or.inr rfl
  · split
    · exact Or.inl (by simp [table?])
    · exact Or.inr rfl

theorem heap_reapTable (s : State) (h : Nat) : (s.reapTable h).heap = s.heap := by
  unfold reapTable
  split
  · rfl
  · split <;> rfl

theorem table_freeVersion_ne (s : State) {h h' : Nat} (hne : h' ≠ h) (v : Nat) : (s.freeVersion h v).table? h' = s.table? h' := by
  unfold freeVersion
  split
  · rfl
  · rw [table_reapTable_ne _ hne]
    exact s.table_modTable_ne hne (Table.without v) fun _ => rfl

theorem table_freeVersion (s : State) (h v : Nat) :
    (s.freeVersion h v).table? h = none ∨ (s.freeVersion h v).table? h = (s.table? h).map (Table.without v) := by
  unfold freeVersion
  split
  · next hnone =>
    refine Or.inr ?_
    cases ht : s.table? h with
    | none => rfl
    | some t =>
      rw [ht] at hnone
      rw [Option.map_some, Table.without_of_none hnone]
  · refine (table_reapTable _ h).imp_right fun he => he.trans ?_
    exact s.table_modTable h (Table.without v) fun _ => rfl

theorem heap_freeVersion {s : State} {h v : Nat} {w : Version} (hw : s.ver (h, v) = some w) :
    (s.freeVersion h v).heap = s.heap.filter (fun r => !(r.handle == h && r.ver == v)) := by
  have hw' : (s.table? h).bind (·.ver? v) = some w := hw
  simp only [freeVersion, hw', heap_reapTable]
  rfl

/-! ## The end of a drop on this part -/

theorem onlyCommits.tables {s t : State} (h : s.onlyCommits t) : t.tables = s.tables := by rw [h.1]

theorem tables_commitSwitched (s : State) (cid : Nat) : (s.commitSwitched cid).tables = s.tables := by
  unfold commitSwitched
  split
  · rfl
  · split
    · rfl
    · dsimp only
      split
      · exact (onlySends_write _ _ _ _).tables
      · rfl

theorem tables_foldl {α : Type} (f : State → α → State) (hf : ∀ s x, (f s x).tables = s.tables) (l : List α) (s : State) :
    (l.foldl f s).tables = s.tables :=
  List.foldlRecOn l f (motive := fun t : State => t.tables = s.tables) rfl fun t h x _ => (hf t x).trans h

/-- The part once the commits that wait for a version have lost it. -/
def looseCommits (s : State) (h v : Nat) : State :=
  ((s.commits.filter (fun c => c.waiting.contains (h, v))).map (·.cid)).foldl (fun s cid => (s.modCommit cid (fun c =>
    { c with cancelled := true, waiting := c.waiting.filter (fun x => !(x == (h, v))) })).commitSwitched cid) s

theorem killVersion_eq (s : State) (h v : Nat) : s.killVersion h v = (s.looseCommits h v).freeVersion h v := rfl

theorem table_looseCommits (s : State) (h v : Nat) : (s.looseCommits h v).table? = s.table? := by
  have htables : (s.looseCommits h v).tables = s.tables := tables_foldl
    (fun s cid => (s.modCommit cid (fun c => { c with cancelled := true, waiting := c.waiting.filter (fun x => !(x == (h, v))) })).commitSwitched cid)
    (fun s cid => tables_commitSwitched _ cid) _ _
  funext h'
  rw [table?, table?, htables]

theorem table_killVersion_ne (s : State) {h h' : Nat} (hne : h' ≠ h) (v : Nat) : (s.killVersion h v).table? h' = s.table? h' := by
  rw [killVersion_eq, table_freeVersion_ne _ hne, table_looseCommits]

theorem table_killVersion (s : State) (h v : Nat) :
    (s.killVersion h v).table? h = none ∨ (s.killVersion h v).table? h = (s.table? h).map (Table.without v) := by
  rw [killVersion_eq, ← table_looseCommits s h v]
  exact table_freeVersion _ _ _

/-- A property of the versions of a handle's table that holds of every part of a list holds when versions are freed. -/
theorem all_killVersion (s : State) (h v : Nat) (p : Table → Bool) (hp : ∀ t, p t = true → p (t.without v) = true)
    (hs : (s.table? h).all p = true) : ((s.killVersion h v).table? h).all p = true := by
  rcases s.table_killVersion h v with hk | hk
  · rw [hk]; rfl
  · rw [hk, Option.all_map]
    cases ht : s.table? h with
    | none => rfl
    | some t =>
      rw [ht] at hs
      exact hp t hs

/-- The part once versions of a handle are freed. -/
def killAll (s : State) (h : Nat) (l : List Version) : State := l.foldl (fun s w => s.killVersion h w.num) s

theorem table_killAll_ne (l : List Version) (s : State) {h h' : Nat} (hne : h' ≠ h) :
    (s.killAll h l).table? h' = s.table? h' :=
  List.foldlRecOn l _ (motive := fun t : State => t.table? h' = s.table? h') rfl fun t ht w _ => (t.table_killVersion_ne hne w.num).trans ht

theorem all_killAll (l : List Version) (s : State) (h : Nat) (p : Table → Bool) (hp : ∀ v t, p t = true → p (t.without v) = true)
    (hs : (s.table? h).all p = true) : ((s.killAll h l).table? h).all p = true :=
  List.foldlRecOn l _ (motive := fun t : State => (t.table? h).all p = true) hs fun t ht w _ => t.all_killVersion h w.num p (hp w.num) ht

/-- Once a version of the list is freed the table has it no longer. -/
theorem gone_killAll {l : List Version} (s : State) (h : Nat) {v : Nat} (hl : ∃ w ∈ l, w.num = v) :
    ((s.killAll h l).table? h).all (fun x => x.versions.all (fun w => w.num != v)) = true := by
  have hkeep (v' : Nat) (t : Table) (ht : t.versions.all (fun w => w.num != v) = true) : (t.without v').versions.all (fun w => w.num != v) = true :=
    List.all_eq_true.mpr fun x hx => List.all_eq_true.mp ht x (List.mem_filter.mp hx).1
  induction l generalizing s with
  | nil => simp at hl
  | cons y l ih =>
    rw [killAll, List.foldl_cons]
    by_cases hy : y.num = v
    · refine all_killAll l _ h _ hkeep ?_
      rcases s.table_killVersion h y.num with hk | hk
      · rw [hk]; rfl
      · rw [hk, Option.all_map]
        cases s.table? h with
        | none => rfl
        | some t => exact List.all_eq_true.mpr fun x hx => by simpa [hy] using (List.mem_filter.mp hx).2
    · obtain ⟨w, hw, hv⟩ := hl
      refine ih _ ⟨w, (List.mem_cons.mp hw).resolve_left fun h => hy (h ▸ hv), hv⟩

end State

/-- The versions whose storage a drop releases. -/
def Table.releasing (t : Table) (v : Nat) : List Version := t.versions.filter (fun w => w.dropped && (v == 0 || w.num == v))

namespace State

theorem dropFree_of_version {s : State} {h v : Nat} {t : Table} (ht : s.table? h = some t) (hv : v ≠ 0) :
    s.dropFree h v = s.killAll h (t.releasing v) := by
  simp only [dropFree, ht, ne_eq, hv, not_false_eq_true, if_true]
  rfl

theorem dropFree_of_table {s : State} {h : Nat} {t : Table} (ht : s.table? h = some t) :
    s.dropFree h 0 = (match t.live with
      | some w => (((s.killAll h (t.releasing 0)).setVState h w.num .retiring).reportZero h w.num)
      | none => s.killAll h (t.releasing 0)).reapTable h := by
  simp only [dropFree, ht, ne_eq, not_true_eq_false, if_false]
  rfl

theorem table_setVState_ne (s : State) {h h' : Nat} (hne : h' ≠ h) (v : Nat) (st : VState) : (s.setVState h v st).table? h' = s.table? h' :=
  s.table_modTable_ne hne _ fun _ => rfl

theorem table_dropFree_ne (s : State) {h h' : Nat} (hne : h' ≠ h) (v : Nat) : (s.dropFree h v).table? h' = s.table? h' := by
  cases ht : s.table? h with
  | none => simp only [dropFree, ht]
  | some t =>
    by_cases hv : v = 0
    · rw [hv, dropFree_of_table ht, table_reapTable_ne _ hne]
      split
      · rw [table_reportZero_ne _ hne]
        exact (table_setVState_ne _ hne _ _).trans (table_killAll_ne _ s hne)
      · exact table_killAll_ne _ s hne
    · rw [dropFree_of_version ht hv]
      exact table_killAll_ne _ s hne

/-- The table that drains stays so, or is gone, once the storage of its dropped versions is released. -/
theorem draining_dropFree {s : State} {h : Nat} (hs : (s.table? h).all (·.draining) = true) :
    ((s.dropFree h 0).table? h).all (·.draining) = true := by
  cases ht : s.table? h with
  | none => simp only [dropFree, ht, Option.all_none]
  | some t =>
    have hfold := all_killAll (t.releasing 0) s h (·.draining) (fun _ _ h => h) hs
    rw [dropFree_of_table ht]
    generalize s.killAll h (t.releasing 0) = u at hfold ⊢
    have hend (u : State) (hu : (u.table? h).all (·.draining) = true) : ((u.reapTable h).table? h).all (·.draining) = true := by
      rcases u.table_reapTable h with hr | hr <;> rw [hr]
      · rfl
      · exact hu
    refine hend _ ?_
    split
    · next w _ =>
      have hset : ((u.setVState h w.num .retiring).table? h).all (·.draining) = true := by
        rw [setVState, table_modVer, Option.all_map]
        exact hfold
      unfold reportZero
      split
      · exact hset
      · split
        · split
          · split
            · rw [noteZero, table_modVer, Option.all_map]
              exact hset
            · split
              · rw [table?, (onlySends_write _ _ _ _).tables]
                exact hset
              · exact hset
          · exact hset
        · exact hset
    · exact hfold

theorem dropped_dropFree {s : State} {h v : Nat} (hv : v ≠ 0) (hs : (s.table? h).all (fun x => x.versions.all (fun w => w.num != v || w.dropped)) = true) :
    ((s.dropFree h v).table? h).all (fun x => x.versions.all (fun w => w.num != v || w.dropped)) = true := by
  cases ht : s.table? h with
  | none => simp only [dropFree, ht, Option.all_none]
  | some t =>
    rw [dropFree_of_version ht hv]
    exact all_killAll _ s h _ (fun v' t ht => List.all_eq_true.mpr fun x hx => List.all_eq_true.mp ht x (List.mem_filter.mp hx).1) hs

theorem gone_dropFree {s : State} {h v : Nat} {t : Table} (ht : s.table? h = some t) (hv : v ≠ 0) (hw : ∃ w ∈ t.versions, w.num = v ∧ w.dropped = true) :
    ((s.dropFree h v).table? h).all (fun x => x.versions.all (fun w => w.num != v)) = true := by
  obtain ⟨w, hmem, hnum, hdrop⟩ := hw
  rw [dropFree_of_version ht hv]
  exact gone_killAll s h ⟨w, List.mem_filter.mpr ⟨hmem, by simp [hnum, hdrop]⟩, hnum⟩

/-! ## The first part of a drop -/

theorem tables_finishLoad (s : State) (k n : Nat) : (s.finishLoad k n).tables = s.tables := by
  unfold finishLoad
  split
  · rfl
  · split
    · rfl
    · exact tables_foldl _ (fun s cid => (s.onlyCommits_commitLoads cid).tables) _ _

theorem tables_endLoad (s : State) (k n st : Nat) : (s.endLoad k n (some st)).tables = s.tables := tables_finishLoad _ k n

end State

/-- A table whose version v is dropped. -/
def Table.dropping (v : Nat) (t : Table) : Table := { t with versions := t.versions.map (fun w => if w.num = v then { w with dropped := true } else w) }

theorem Table.all_dropping (v : Nat) (t : Table) : (t.dropping v).versions.all (fun w => w.num != v || w.dropped) = true := by
  refine List.all_eq_true.mpr fun x hx => ?_
  obtain ⟨w, _, rfl⟩ := List.mem_map.mp hx
  by_cases hw : w.num = v
  · rw [if_pos hw]; simp
  · rw [if_neg hw]; simp [hw]

theorem Table.ver_dropping {t : Table} {v : Nat} {w : Version} (hw : t.ver? v = some w) :
    (t.dropping v).ver? v = some (if w.num = v then { w with dropped := true } else w) := by
  have hnum : ((fun x : Version => x.num == v) ∘ fun w : Version => if w.num = v then { w with dropped := true } else w) = fun x => x.num == v := by
    funext x
    simp only [Function.comp]
    split <;> rfl
  rw [Table.ver?, Table.dropping, List.find?_map, hnum]
  exact congrArg (Option.map _) hw

/-- A table that drains. -/
def Table.drained (t : Table) : Table := { t with draining := true }

namespace State

/-- The part once the loads into a version are stopped. -/
def endLoadsInto (s : State) (h v : Nat) : State :=
  (s.loads.filter (fun l => l.handle == h && l.ver == v && (s.cmd? l.slot l.n).any (·.status.isNone))).foldl
    (fun s l => s.endLoad l.slot l.n (some ST_TBL_NOT_BUILDING)) s

theorem table_endLoadsInto (s : State) (h v : Nat) : (s.endLoadsInto h v).table? = s.table? := by
  have htables : (s.endLoadsInto h v).tables = s.tables :=
    tables_foldl (fun s (l : Load) => s.endLoad l.slot l.n (some ST_TBL_NOT_BUILDING)) (fun s l => s.tables_endLoad l.slot l.n ST_TBL_NOT_BUILDING) _ _
  funext x
  rw [table?, table?, htables]

theorem dropBuilding_eq (s : State) (h v : Nat) : s.dropBuilding h v = (s.endLoadsInto h v).modTable h (Table.dropping v) := rfl

theorem table_dropBuilding (s : State) (h v : Nat) : (s.dropBuilding h v).table? h = (s.table? h).map (Table.dropping v) := by
  rw [dropBuilding_eq, table_modTable _ h (Table.dropping v) fun _ => rfl, table_endLoadsInto]

theorem table_dropBuilding_ne (s : State) {h h' : Nat} (hne : h' ≠ h) (v : Nat) : (s.dropBuilding h v).table? h' = s.table? h' := by
  rw [dropBuilding_eq, table_modTable_ne _ hne (Table.dropping v) fun _ => rfl, table_endLoadsInto]

/-- With no load into the version a drop of it stops none. -/
theorem dropBuilding_of_no_loads {s : State} {h v : Nat} (hl : s.loads.any (fun l => l.handle == h && l.ver == v) = false) :
    s.dropBuilding h v = s.modTable h (Table.dropping v) := by
  have hnone : s.loads.filter (fun l => l.handle == h && l.ver == v && (s.cmd? l.slot l.n).any (·.status.isNone)) = [] := by
    refine List.filter_eq_nil_iff.mpr fun l hmem => ?_
    have := List.any_eq_false.mp hl l hmem
    simp only [Bool.and_eq_true] at this ⊢
    exact fun hx => this hx.1
  rw [dropBuilding_eq, endLoadsInto, hnone, List.foldl_nil]

theorem table_dropTable_ne (s : State) {h h' : Nat} (hne : h' ≠ h) (v : Nat) : (s.dropTable h v).2.table? h' = s.table? h' := by
  unfold dropTable
  split
  · rfl
  · split
    · split
      · rfl
      · split
        · rfl
        · rfl
        · exact s.table_dropBuilding_ne hne v
    · dsimp only
      split
      · exact (table_dropBuilding_ne _ hne _).trans (s.table_modTable_ne hne _ fun _ => rfl)
      · exact s.table_modTable_ne hne _ fun _ => rfl

theorem draining_dropTable (s : State) (h : Nat) : ((s.dropTable h 0).2.table? h).all (·.draining) = true := by
  unfold dropTable
  split
  · next hnone => rw [hnone]; rfl
  · have hmod : ((s.modTable h Table.drained).table? h).all (·.draining) = true := by
      rw [table_modTable s h Table.drained fun _ => rfl, Option.all_map]
      cases s.table? h <;> rfl
    rw [if_neg (fun h => h rfl)]
    dsimp only
    split
    · rw [table_dropBuilding, Option.all_map]
      exact hmod
    · exact hmod

/-- What a drop of a version whose checks pass does first. -/
theorem dropTable_of_building {s : State} {h v : Nat} {t : Table} {w : Version} (ht : s.table? h = some t) (hv : v ≠ 0) (hw : t.ver? v = some w)
    (hlive : w.st ≠ .live) (hret : w.st ≠ .retiring) : s.dropTable h v = (ST_OK, s.dropBuilding h v) := by
  simp only [dropTable, ht, hw, ne_eq, hv, not_false_eq_true, if_true]

/-! ## The drop goes on -/

theorem settleDrop_cases (s : State) (k n h v : Nat) : s.settleDrop k n h v = s
    ∨ ∃ t, s.onlySends t ∧ s.settleDrop k n h v = (t.dropFree h v).settle k n := by
  unfold settleDrop
  dsimp only
  split
  · exact Or.inl rfl
  · refine Or.inr ?_
    split
    · exact ⟨_, s.onlySends_workAll _ _ _, rfl⟩
    · exact ⟨s, s.onlySends_refl, rfl⟩

theorem table_settle (s : State) (k n : Nat) : (s.settle k n).table? = s.table? := by
  rw [settle_frame]; rfl

theorem onlySends.table {s t : State} (h : s.onlySends t) : t.table? = s.table? := by
  funext x
  rw [table?, table?, h.tables]

/-- What dropFree keeps of the tables the rest of a drop keeps. -/
theorem settleDrop_keeps (P : (Nat → Option Table) → Prop) (s : State) (k n h v : Nat) (hP : ∀ t : State, t.table? = s.table? → P (t.dropFree h v).table?)
    (hs : P s.table?) : P (s.settleDrop k n h v).table? := by
  rcases s.settleDrop_cases k n h v with he | ⟨t, ht, he⟩
  · rwa [he]
  · rw [he, table_settle]
    exact hP t ht.table

end State

/-! ## TBL_DROP -/

/-- A drop whose checks pass names an open table, and with a version one that is neither LIVE nor RETIRING. -/
theorem State.dropStatus_ok {s : State} {e : Bytes} (h : s.dropStatus e = ST_OK) (hv : rd (argsOf e) 2 2 ≠ 0) {t : Table}
    (ht : s.table? (rd (argsOf e) 0 2) = some t) : ∃ w, t.ver? (rd (argsOf e) 2 2) = some w ∧ w.st ≠ .live ∧ w.st ≠ .retiring := by
  have h1 : ST_TBL_BAD_ARG ≠ ST_OK := by decide
  have h2 : ST_TBL_NO_TABLE ≠ ST_OK := by decide
  have h3 : ST_TBL_NO_SUCH_VERSION ≠ ST_OK := by decide
  have h4 : ST_TBL_LIVE ≠ ST_OK := by decide
  have h5 : ST_TBL_NOT_BUILDING ≠ ST_OK := by decide
  unfold State.dropStatus State.openTable at h
  dsimp only at h
  rw [ht] at h
  split at h
  · exact absurd h h1
  · split at h
    · exact absurd h h2
    · next t' ht' =>
      obtain rfl : t = t' := (Option.filter_eq_some_iff.mp ht').1 |> Option.some.inj
      split at h
      · exact absurd h h3
      · next w hw =>
        refine ⟨w, hw, fun hst => ?_, fun hst => ?_⟩
        · rw [if_pos hst] at h
          exact h4 h
        · rw [if_neg (by rw [hst]; decide), if_pos hst] at h
          exact h5 h

section
variable {s : State} {slot n : Nat} {e : Bytes} {q : QSlot} {rest : List (Nat × Bytes)} (hadm : s.admits slot 0x13 n e q rest)
include hadm

theorem exec_tblDrop_fails (h : (s.took slot n e rest).dropStatus e ≠ ST_OK) :
    exec (.tblDrop slot) s = .next ((s.took slot n e rest).endCmd slot n ((s.took slot n e rest).dropStatus e) 0) := by
  show execTblDrop slot s = _
  simp only [execTblDrop, State.admitOp_of_admits hadm]
  exact congrArg _ (if_pos h)

/-- A drop that is taken is told to the other members, and goes on. -/
theorem exec_tblDrop_ok {t0 : Table} (hst : (s.took slot n e rest).dropStatus e = ST_OK) (ht : s.table? (rd (argsOf e) 0 2) = some t0)
    (hreach : ∀ i d, s.tableDom t0 = some (i, d) → ∀ m ∈ s.others d, s.reaches m 0) :
    ∃ t, (s.took slot n e rest).onlySends t ∧ ((∀ i d, s.tableDom t0 = some (i, d) → s.others d = []) → t = s.took slot n e rest)
      ∧ exec (.tblDrop slot) s = .next ((t.dropTable (rd (argsOf e) 0 2) (rd (argsOf e) 2 2)).2.settleDrop slot n (rd (argsOf e) 0 2)
        (rd (argsOf e) 2 2)) := by
  have hne : ¬(ST_OK ≠ ST_OK) := fun h => h rfl
  have ht' : (s.took slot n e rest).table? (rd (argsOf e) 0 2) = some t0 := ht
  show ∃ t, _ ∧ _ ∧ execTblDrop slot s = _
  simp only [execTblDrop, State.admitOp_of_admits hadm, hst, if_neg hne, ht', Option.bind_some]
  cases hd : s.tableDom t0 with
  | none =>
    have hd' : (s.took slot n e rest).tableDom t0 = none := hd
    refine ⟨_, State.onlySends_refl _, fun _ => rfl, congrArg Host.Outcome.next ?_⟩
    rw [hd']
    exact if_neg hne
  | some x =>
    obtain ⟨i, d⟩ := x
    have hd' : (s.took slot n e rest).tableDom t0 = some (i, d) := hd
    have hsent := State.workAll_reaches (s.took slot n e rest) d (.tblDrop (rd (argsOf e) 0 2) (rd (argsOf e) 2 2)) (some (slot, n))
      fun m hm => State.reaches_of_eq (hreach i d hd m hm) rfl rfl rfl rfl
    refine ⟨_, State.onlySends_workAll _ d (.tblDrop (rd (argsOf e) 0 2) (rd (argsOf e) 2 2)) (some (slot, n)), fun h => ?_,
      congrArg Host.Outcome.next ?_⟩
    · have hnone : (s.took slot n e rest).others d = [] := h i d rfl
      rw [State.workAll, hnone]
      rfl
    · rw [hd']
      exact if_neg (fun h => h hsent)

end

/-- A drop of a version that nothing refers to, in a domain of this part alone, removes it at once. -/
theorem State.settleDrop_removes {s : State} {k n h v : Nat} {t0 : Table} {w : Version} (ht : s.table? h = some t0) (hv : v ≠ 0)
    (hw : t0.ver? v = some w) (hlone : ∀ i d, s.tableDom t0 = some (i, d) → s.others d = []) (hrows : s.rowsOut h v = [])
    (hbusy : s.cmdBusy k n = false) (hnone : t0.versions.all (fun x => x.num != v || x.dropped) = true) :
    ((s.settleDrop k n h v).table? h).all (fun x => x.versions.all (fun w => w.num != v)) = true := by
  have hdropped : ∃ x ∈ t0.versions, x.num = v ∧ x.dropped = true := by
    have hnum : w.num = v := by simpa using List.find?_some hw
    have hmem := List.mem_of_find?_eq_some hw
    exact ⟨w, hmem, hnum, by simpa [hnum] using List.all_eq_true.mp hnone w hmem⟩
  have hquiet : ((t0.releasing v).any (fun w => !(s.rowsOut h w.num).isEmpty)) = false := by
    refine List.any_eq_false.mpr fun x hx => ?_
    have hnum : x.num = v := by
      have := (List.mem_filter.mp hx).2
      simp only [Bool.and_eq_true, Bool.or_eq_true, beq_iff_eq, hv, false_or] at this
      exact this.2
    rw [hnum, hrows]
    simp
  have hgoes : s.settleDrop k n h v = (s.dropFree h v).settle k n := by
    unfold State.settleDrop
    simp only [ht, Option.map_some, Option.getD_some, Option.bind_some]
    rw [if_neg (by
      rintro (hb | hb)
      · rw [hbusy] at hb; exact Bool.false_ne_true hb
      · exact Bool.false_ne_true (hquiet.symm.trans hb))]
    split
    · next i d hd =>
      rw [State.workAll, hlone i d hd]
      rfl
    · rfl
  rw [hgoes, State.table_settle]
  exact State.gone_dropFree ht hv hdropped

/-! ## VERSION_FREED -/

theorem exec_versionFreed_leads {s : State} {h v i : Nat} {t0 : Table} {w : Version} {d : Dom} (hserv : s.serving = true) (ht : s.table? h = some t0)
    (hw : t0.ver? v = some w) (hd : s.tableDom t0 = some (i, d)) (hlead : s.leads d = true) (hst : w.st = .retiring) (hrefs : w.refs = 0)
    (hzero : (s.others d).all (fun n => w.zero.contains n) = true) :
    exec (.versionFreed h v) s = .next ((s.workAll d (.versionFree h v) none).2.retireDone h v) := by
  show execVersionFreed h v s = _
  simp only [execVersionFreed, State.whenServing_on s _ hserv, ht, hw, hd]
  exact congrArg _ (if_pos ⟨hlead, hst, hrefs, hzero⟩)

theorem State.table_retireDone (s : State) (h v : Nat) : (s.retireDone h v).table? = (s.freeVersion h v).table? := by
  rw [retireDone, latch_frame]
  rfl

/-- Settles O18: what a drop keeps of each table while it goes on, and the freeing of a version by the leader. -/
theorem versionsGo : Obligations.VersionsGo := by
  unfold Obligations.VersionsGo
  refine ⟨?_, fun s h v i t0 w d hserv ht hw hd hlead hst hrefs hzero => ?_⟩
  · intro s slot n e q rest hadm u h v
    refine ⟨exec_tblDrop_fails hadm, fun t0 hok ht hreach => ?_⟩
    obtain ⟨t, hsends, hlone, hexec⟩ := exec_tblDrop_ok hadm hok ht hreach
    have htab : t.table? h = some t0 := by rw [hsends.table]; exact ht
    have hdrop (hv : v ≠ 0) : ∃ w, t0.ver? v = some w ∧ (t.dropTable h v).2 = t.dropBuilding h v := by
      obtain ⟨w, hw, hlive, hret⟩ := State.dropStatus_ok hok hv ht
      exact ⟨w, hw, by rw [State.dropTable_of_building htab hv hw hlive hret]⟩
    have hbuilt (hv : v ≠ 0) : (t.dropTable h v).2.table? h = some (t0.dropping v) := by
      obtain ⟨w, hw, hbuild⟩ := hdrop hv
      rw [hbuild, State.table_dropBuilding, htab]
      rfl
    refine ⟨_, hexec, fun hv => ?_, fun hv hothers hrows hbusy hloads _ => ?_, fun hv => ?_, fun h' hne => ?_⟩
    · refine State.settleDrop_keeps (fun f => (f h).all (fun x => x.versions.all (fun w => w.num != v || w.dropped)) = true) _ slot n h v
        (fun t' ht' => State.dropped_dropFree hv ?_) ?_
      · rw [ht', hbuilt hv]
        exact t0.all_dropping v
      · rw [hbuilt hv]
        exact t0.all_dropping v
    · obtain ⟨w, hw, hbuild⟩ := hdrop hv
      have htook : t = u := hlone hothers
      have hloads' : u.loads.any (fun l => l.handle == h && l.ver == v) = false := hloads
      have hmod : (t.dropTable h v).2 = u.modTable h (Table.dropping v) := by
        rw [hbuild, htook, State.dropBuilding_of_no_loads hloads']
      have hb := hbuilt hv
      rw [hmod] at hb ⊢
      exact State.settleDrop_removes hb hv (Table.ver_dropping hw) hothers hrows hbusy (t0.all_dropping v)
    · have hv' : rd (argsOf e) 2 2 = 0 := hv
      rw [hv']
      exact State.settleDrop_keeps (fun f => (f h).all (·.draining) = true) _ slot n h 0
        (fun t' ht' => State.draining_dropFree (by rw [ht']; exact t.draining_dropTable h)) (t.draining_dropTable h)
    · refine (State.settleDrop_keeps (fun f => f h' = (t.dropTable h v).2.table? h') _ slot n h v (fun t' ht' => ?_) rfl).trans ?_
      · rw [State.table_dropFree_ne _ hne, ht']
      · rw [State.table_dropTable_ne _ hne, hsends.table]
        rfl
  · have hsends := s.onlySends_workAll d (.versionFree h v) none
    refine ⟨_, exec_versionFreed_leads hserv ht hw hd hlead hst hrefs hzero, ?_, ?_, fun h' hne => ?_⟩
    · rw [State.table_retireDone]
      rcases State.table_freeVersion (s.workAll d (.versionFree h v) none).2 h v with hf | hf
      · rw [hf]; rfl
      · rw [hf, hsends.table, ht]
        exact List.all_eq_true.mpr fun x hx => by simpa using (List.mem_filter.mp hx).2
    · have hver : (s.workAll d (.versionFree h v) none).2.ver (h, v) = some w := by
        rw [State.ver, hsends.table, ht]
        exact hw
      rw [State.retireDone, State.latch_heap, State.heap_freeVersion hver, hsends.1]
    · rw [State.table_retireDone, State.table_freeVersion_ne _ hne, hsends.table]

end Sys2Proof.Machine

/-! What a function can change: frames by the fields that they name. -/
namespace Sys2Proof.Machine

namespace State

/-- Between s and t nothing has changed but what `take` copies: `take s t` is s with some fields of t. -/
def within (take : State → State → State) (s t : State) : Prop := t = take s t

section
variable {take take' : State → State → State}

theorem within_refl (s : State) (h : ∀ s, take s s = s := by intros; rfl) : s.within take s := (h s).symm

theorem within_trans {s t u : State} (h1 : s.within take t) (h2 : t.within take u) (h : ∀ s t u, take (take s t) u = take s u := by intros; rfl) :
    s.within take u := by
  unfold within at *
  calc u = take t u := h2
    _ = take (take s t) u := by rw [← h1]
    _ = take s u := h s t u

/-- What a smaller set of fields allows a larger one does. -/
theorem within_mono {s t : State} (h1 : s.within take t) (h : ∀ s t, take' s (take s t) = take s t := by intros; rfl) : s.within take' t := by
  unfold within at *
  calc t = take s t := h1
    _ = take' s (take s t) := (h s t).symm
    _ = take' s t := by rw [← h1]

theorem within_foldl {α : Type} (f : State → α → State) (hf : ∀ (s : State) (x : α), s.within take (f s x)) (l : List α) (s : State)
    (hr : ∀ s, take s s = s := by intros; rfl) (ht : ∀ s t u, take (take s t) u = take s u := by intros; rfl) : s.within take (l.foldl f s) :=
  List.foldlRecOn l f (motive := s.within take) (within_refl s hr) fun t h x _ => within_trans h (hf t x) ht

end

/-- Events: registers and what is sent. -/
def events (s t : State) : State := { s with regs := t.regs, out := t.out }

/-- Events and the RAS records. -/
def records (s t : State) : State := { s with regs := t.regs, out := t.out, ras := t.ras }

/-- Packets: the links and events. -/
def packets (s t : State) : State := { s with link := t.link, regs := t.regs, out := t.out }

theorem within_count (s : State) (a n : Nat) : s.within events (s.count a n) := rfl

theorem within_latch (s : State) (a k : Nat) : s.within events (s.latch a k) := s.latch_frame a k

theorem within_log (s : State) (sev code unit : Nat) (ctx : Option Nat) (i0 i1 i2 : Nat) : s.within records (s.log sev code unit ctx i0 i1 i2) := by
  unfold within records
  rw [log_frame]

theorem onlySends.within {s t : State} (h : s.onlySends t) : s.within packets t := h.1

/-! ## A read of the directory -/

/-- The directory copies and what an SRAM error records. -/
def directory (s t : State) : State := { s with dirs := t.dirs, regs := t.regs, ras := t.ras, out := t.out }

theorem within_sramRead (s : State) (h : GranuleHealth) (unit addr : Nat) : s.within records (s.sramRead h unit addr).2 := by
  cases h with
  | good => rfl
  | corrected => exact within_mono (within_trans (s.within_count Reg.RAS_SRAM_CE 1) (within_latch _ Reg.RAS_STATUS 10))
  | uncorrectable =>
    exact within_trans (within_mono (within_trans (s.within_count Reg.RAS_SRAM_UE 1) (within_latch _ Reg.RAS_STATUS 1))) (within_log _ _ _ _ _ _ _ _)

theorem within_dirRead (s : State) (die : Nat) (h : GranuleHealth) : s.within directory (s.dirRead die h) := by
  have hread : s.within directory (s.sramRead h (5 * 4096 + die) 0).2 := within_mono (s.within_sramRead h (5 * 4096 + die) 0)
  unfold dirRead
  split
  · next s1 he =>
    rw [he] at hread
    exact hread
  · next s1 he =>
    rw [he] at hread
    split
    · exact hread
    · exact within_trans hread rfl

end State

end Sys2Proof.Machine

/-! GATHER and POOL at issue (R92, R94, R96). -/
namespace Sys2Proof.Machine

/-! ## What the work of an operation leaves -/

/-- What identifies an operation. -/
def GpeOp.name (o : GpeOp) : Nat × Nat × Nat × Nat × Option Word := (o.num, o.ctx, o.cl, o.gen, o.abandoned)

/-- The operations of a GPE by name, and the generation given last. -/
def Gpe.names (g : Gpe) : List (Nat × Nat × Nat × Nat × Option Word) × Nat := (g.ops.map GpeOp.name, g.gen)

theorem map_listMod {α β : Type} (g : α → β) (l : List α) (n : Nat) (f : α → α) (h : ∀ x, g (f x) = g x) : (listMod l n f).map g = l.map g := by
  refine List.ext_getElem? fun k => ?_
  simp only [listMod, List.getElem?_map, List.getElem?_modify]
  cases l[k]? with
  | none => rfl
  | some x =>
    simp only [Option.map_eq_map, Option.map_some]
    split
    · rw [h]
    · rfl

namespace State

/-- What an operation at a GPE works on. -/
def lookups (s t : State) : State :=
  { s with gpes := t.gpes, scr := t.scr, ras := t.ras, regs := t.regs, out := t.out, link := t.link, freeCtr := t.freeCtr }

/-- From s to t operations at the GPEs have gone on, and none has come, gone or changed its name. -/
structure lookupGoes (s t : State) : Prop where
  frame : s.within lookups t
  names : t.gpes.map Gpe.names = s.gpes.map Gpe.names

theorem lookupGoes_refl (s : State) : s.lookupGoes s := ⟨rfl, rfl⟩

theorem lookupGoes_trans {s t u : State} (h : s.lookupGoes t) (h' : t.lookupGoes u) : s.lookupGoes u :=
  ⟨within_trans h.1 h'.1, h'.2.trans h.2⟩

theorem lookupGoes_foldl {α : Type} (f : State → α → State) (hf : ∀ (s : State) (x : α), s.lookupGoes (f s x)) (l : List α) (s : State) :
    s.lookupGoes (l.foldl f s) :=
  List.foldlRecOn l f (motive := s.lookupGoes) s.lookupGoes_refl fun t h x _ => lookupGoes_trans h (hf t x)

theorem lookupGoes_of_events {s t : State} (h : s.within events t) : s.lookupGoes t :=
  ⟨within_mono h, by rw [h]; rfl⟩

theorem lookupGoes_of_sends {s t : State} (h : s.onlySends t) : s.lookupGoes t :=
  ⟨within_mono h.within, by rw [h.1]⟩

theorem lookupGoes_modGpeOp (s : State) (die num : Nat) (f : GpeOp → GpeOp) (hf : ∀ o, (f o).name = o.name := by intros; rfl) : s.lookupGoes (s.modGpeOp die num f) := by
  refine ⟨rfl, map_listMod _ _ _ _ fun g => ?_⟩
  simp only [Gpe.names]
  rw [map_modFirst _ _ _ _ hf]

theorem lookupGoes_ctxWrite (s : State) (c : Ctx) (k : ClCtx) (off : Nat) (b : Bytes) : s.lookupGoes (s.ctxWrite c k off b) := by
  unfold ctxWrite
  split <;> exact ⟨rfl, rfl⟩

theorem lookupGoes_freeBytes (s : State) (n : Nat) : s.lookupGoes (s.freeBytes n).2 := by
  induction n generalizing s with
  | zero => exact s.lookupGoes_refl
  | succ n ih => exact lookupGoes_trans (t := s.free.2) ⟨rfl, rfl⟩ (ih s.free.2)

theorem lookupGoes_freeRecords (s : State) (n : Nat) (l : List Nat) : s.lookupGoes (s.freeRecords n l).2 := by
  induction l generalizing s with
  | nil => exact s.lookupGoes_refl
  | cons r l ih => exact lookupGoes_trans (s.lookupGoes_freeBytes n) (ih _)

theorem lookupGoes_bagOut (s : State) (die num n : Nat) : s.lookupGoes (s.bagOut die num n) := by
  unfold bagOut
  split
  · exact s.lookupGoes_refl
  · next o _ =>
    split
    · next b a t _ _ _ =>
      dsimp only
      have h1 : s.lookupGoes (if b.flags.testBit 3 then s.latch Reg.LKP_STATUS 1 else s) := by
        split
        · exact lookupGoes_of_events (s.within_latch _ _)
        · exact s.lookupGoes_refl
      generalize (if b.flags.testBit 3 then s.latch Reg.LKP_STATUS 1 else s) = s1 at h1 ⊢
      have h2 : s.lookupGoes (if o.flg = 0xFFFFFFFF then s1 else s1.ctxWrite a.c a.k (o.flg + 2 * n) (natLE 2 b.flags)) := by
        split
        · exact h1
        · exact lookupGoes_trans h1 (s1.lookupGoes_ctxWrite _ _ _ _)
      generalize (if o.flg = 0xFFFFFFFF then s1 else s1.ctxWrite a.c a.k (o.flg + 2 * n) (natLE 2 b.flags)) = s2 at h2 ⊢
      have h3 : s.lookupGoes (if b.flags.testBit 6 then
          s2.freeRecords (recordBytes t o.raw) (if o.mode = 4 then (List.range b.len).map (· + b.first) else [n]) else (o.records b, s2)).2 := by
        split
        · exact lookupGoes_trans h2 (s2.lookupGoes_freeRecords _ _)
        · exact h2
      split
      · exact lookupGoes_trans h3 (lookupGoes_modGpeOp _ _ _ _)
      · exact lookupGoes_trans h3 (lookupGoes_foldl (fun s (e : Nat × Bytes) => s.ctxWrite a.c a.k (o.out + e.1 * o.ostride) e.2)
          (fun s e => s.lookupGoes_ctxWrite _ _ _ _) _ _)
    · exact s.lookupGoes_refl

theorem lookupGoes_bagDone (s : State) (die num n : Nat) (err : Bool) : s.lookupGoes (s.bagDone die num n err) :=
  lookupGoes_trans (lookupGoes_modGpeOp _ _ _ _) (lookupGoes_bagOut _ _ _ _)

theorem lookupGoes_opFail (s : State) (die num st : Nat) : s.lookupGoes (s.opFail die num st) := lookupGoes_modGpeOp _ _ _ _ fun _ => rfl

theorem lookupGoes_sendRequest (s : State) (die : Nat) (o : GpeOp) (owner : Nat) (l : List (Nat × List PieceIdx)) :
    s.lookupGoes (s.sendRequest die o owner l).2 := by
  unfold sendRequest
  dsimp only
  refine List.foldlRecOn _ _ (motive := fun acc : Nat × State => s.lookupGoes acc.2) s.lookupGoes_refl fun acc h p _ => ?_
  exact lookupGoes_trans h (lookupGoes_of_sends (onlySends_post _ _))

theorem lookupGoes_dispatch (s : State) (die num : Nat) : s.lookupGoes (s.dispatch die num) := by
  unfold dispatch
  split
  · exact s.lookupGoes_refl
  · next o _ =>
    split
    · exact s.lookupGoes_refl
    · next t _ =>
      dsimp only
      refine lookupGoes_trans ?_ (lookupGoes_foldl _ (fun s e => lookupGoes_bagDone _ _ _ _ _) _ _)
      have hcount (n : Nat) : s.lookupGoes (if n = 0 then s else (s.count Reg.LKP_FALLBACK n).latch Reg.LKP_STATUS 0) := by
        split
        · exact s.lookupGoes_refl
        · exact lookupGoes_of_events (within_trans (s.within_count _ _) (within_latch _ _ _))
      refine iteInduction (motive := s.lookupGoes) (fun _ => lookupGoes_trans ?_ (lookupGoes_opFail _ _ _ _)) fun _ => ?_
      all_goals
        refine List.foldlRecOn _ _ (motive := fun acc : List Nat × State => s.lookupGoes acc.2)
          (lookupGoes_trans (hcount _) (lookupGoes_modGpeOp _ _ _ _)) fun acc h w _ => ?_
        exact lookupGoes_trans h (lookupGoes_sendRequest _ _ _ _ _)

/-! ## An operation begins -/

/-- The GPE of a die takes an operation. -/
def addOp (s : State) (die : Nat) (o : GpeOp) (gen : Nat) : State := s.modGpe die (fun g => { g with ops := g.ops ++ [o], gen := gen })

/-- An operation that fails a check is there with its status, and asks nobody. -/
theorem startLookup_error {s : State} {a : Site} {d : Bytes} {gather : Bool} {st : Nat} (h : s.lookupCheck a d gather = .error st) (desc num gen : Nat) :
    ∃ o : GpeOp, s.startLookup a desc d gather num gen = (s.addOp (a.k.cl / 16) o gen).latch Reg.LKP_STATUS 4
      ∧ o.name = (num, a.c.id, a.k.cl, gen, none) ∧ o.fail = some st ∧ o.bags = [] := by
  unfold startLookup
  simp only [h]
  exact ⟨_, rfl, rfl, rfl, rfl⟩

/-- An operation that is taken is added under its number and generation, and goes on from there. -/
theorem startLookup_added (s : State) (a : Site) (desc : Nat) (d : Bytes) (gather : Bool) (num gen : Nat) :
    ∃ (u : State) (o : GpeOp), s.within events u ∧ o.name = (num, a.c.id, a.k.cl, gen, none)
      ∧ (u.addOp (a.k.cl / 16) o gen).lookupGoes (s.startLookup a desc d gather num gen) := by
  cases hc : s.lookupCheck a d gather with
  | error st =>
    obtain ⟨o, he, hname, _, _⟩ := startLookup_error hc desc num gen
    exact ⟨s, o, s.within_refl, hname, he ▸ lookupGoes_of_events (within_latch _ _ _)⟩
  | ok x =>
    obtain ⟨t, v, units⟩ := x
    have hcount (n : Nat) : s.within events (if n = 0 then s else s.count Reg.LKP_RANGE n) := by
      split
      · exact s.within_refl
      · exact s.within_count _ _
    unfold startLookup
    simp only [hc]
    refine ⟨_, _, hcount _, rfl, lookupGoes_trans (lookupGoes_foldl _ (fun s b => ?_) _ _) (lookupGoes_dispatch _ _ _)⟩
    exact lookupGoes_bagDone _ _ _ _ _

/-- The GPE once its work has gone on from the operation added last. -/
theorem gpe_of_added {u t : State} {die : Nat} {g : Gpe} {o : GpeOp} {gen : Nat} (hg : u.gpes[die]? = some g) (h : (u.addOp die o gen).lookupGoes t) :
    ∃ g', t.gpes[die]? = some g' ∧ g'.ops.map GpeOp.name = g.ops.map GpeOp.name ++ [o.name] ∧ g'.gen = gen := by
  have hadd : (u.addOp die o gen).gpes[die]? = some { g with ops := g.ops ++ [o], gen := gen } := by
    simp [addOp, modGpe, listMod, hg]
  have hnames := congrArg (·[die]?) h.2
  simp only [List.getElem?_map, hadd, Option.map_some] at hnames
  obtain ⟨g', hg', he⟩ := Option.map_eq_some_iff.mp hnames
  obtain ⟨hops, hgen⟩ := Prod.mk.inj he
  exact ⟨g', hg', by rw [hops, List.map_append]; rfl, hgen⟩

theorem gpe_startLookup_error {s : State} {a : Site} {d : Bytes} {gather : Bool} {st : Nat} (h : s.lookupCheck a d gather = .error st) {g : Gpe}
    (hg : s.gpes[a.k.cl / 16]? = some g) (desc num gen : Nat) :
    ∃ g', (s.startLookup a desc d gather num gen).gpes[a.k.cl / 16]? = some g'
      ∧ (g'.ops.getLast?).any (fun x => x.fail == some st && x.bags.isEmpty) = true ∧ (s.startLookup a desc d gather num gen).link = s.link := by
  obtain ⟨o, he, _, hfail, hbags⟩ := startLookup_error h desc num gen
  refine ⟨{ g with ops := g.ops ++ [o], gen := gen }, ?_, by simp [hfail, hbags], ?_⟩
  · rw [he, latch_gpes]
    simp [addOp, modGpe, listMod, hg]
  · rw [he, latch_link]
    rfl

/-- What has changed when the checks of an operation are made: none of it decides a check. -/
def checked (s t : State) : State :=
  { s with ctxs := t.ctxs, nextOp := t.nextOp, gpes := t.gpes, dirs := t.dirs, regs := t.regs, ras := t.ras, out := t.out }

theorem lookupCheck_checked (s t : State) (a : Site) (d : Bytes) (gather : Bool) :
    (s.checked t).lookupCheck a d gather = s.lookupCheck a d gather := rfl

theorem link_checked (s t : State) : (s.checked t).link = s.link := rfl

end State

/-! ## Issue -/

/-- The state in which an operation has joined its queue and the GPE has granted it a place. -/
def State.granted (s : State) (a : Site) (cl : Nat) (o : EngOp) : State :=
  a.set ((a.queued s o false).modGpe (cl / 16) (fun g =>
    { g with granted := cl % 16, waiting := g.waiting.filter (fun w => !(w.1 == cl)) })) (fun k => { k with usedGpe := true })

theorem State.within_granted (s : State) (a : Site) (cl : Nat) (o : EngOp) : s.within State.checked (s.granted a cl o) := rfl

section
variable {s : State} {cl : Nat} {i : BWord} {a : Site} {g : Gpe} {gather : Bool} {ecc : GranuleHealth}

/-- An operation with a place at the GPE is queued and begins there. -/
theorem State.issueLookup_queued (h : s.issues cl i [i.a] a) (hg : s.gpes[cl / 16]? = some g)
    (hin : (s.frameAt a.c a.k (a.addr i) 64).isSome = true) (hal : a.addr i % 64 = 0) (hgood : s.ctxBad a.c a.k (a.addr i) 64 = false) {d : Bytes}
    (hd : s.ctxRead a.c a.k (a.addr i) 64 = d) {r : List Range × List Range} (hr : lookupRanges (a.addr i) d gather (frameBytes (s.image a.c)) = r)
    {o : EngOp} (ho : { a.op s .lk (if gather then .gather else .pool) i r.1 r.2 with desc := d, gpe := some g.freeNum } = o) (ht : s.takes a o)
    (hgrant : s.gpeGrants g cl = true) (hst : s.lookupStatus a d gather ≠ ST_ISA_RANGE) :
    s.issueLookup cl i gather ecc = (((s.granted a cl o).dirRead (cl / 16) ecc).startLookup a (a.addr i) d gather g.freeNum ((g.gen + 1) % 256)).issued a
      (fun k => k.advance (wordsOf i)) := by
  have hsome : (s.frameAt a.c a.k (a.addr i) 64).isNone = false := by
    obtain ⟨x, hx⟩ := Option.isSome_iff_exists.mp hin
    rw [hx]; rfl
  have hne : ¬a.addr i % 64 ≠ 0 := fun h => h hal
  subst hr ho
  unfold State.issueLookup
  rw [State.issue_eq_settle h]
  simp only [hsome, hne, hgood, hd, hg, hgrant, Bool.not_true, Bool.false_eq_true, and_false, if_false, Site.enqueue_of_takes ht, hst]
  rfl

end

/-- What the issue of a look-up operation works on. -/
def State.lookupIssue (s t : State) : State :=
  { s with ctxs := t.ctxs, gpes := t.gpes, dirs := t.dirs, scr := t.scr, ras := t.ras, regs := t.regs, out := t.out, link := t.link, freeCtr := t.freeCtr }

theorem State.onCl_congr {s t : State} (h : t.ctxs = s.ctxs) : t.onCl = s.onCl := by
  funext id cl
  rw [State.onCl, State.ctx?, h]
  rfl

theorem State.onCl_granted {s : State} {cl : Nat} {a : Site} (ha : s.site? cl = some a) (o : EngOp) :
    (s.granted a cl o).onCl a.c.id a.k.cl = some { a.k with running := a.k.running ++ [o], usedGpe := true } := by
  have h1 : ((a.queued s o false).modGpe (cl / 16) (fun g =>
      { g with granted := cl % 16, waiting := g.waiting.filter (fun w => !(w.1 == cl)) })).onCl a.c.id a.k.cl = some (a.k.queue o false) := by
    refine (State.onCl_modOn { s with nextOp := s.nextOp + 1 } a.c.id a.k.cl (fun k => k.queue o false) fun _ => rfl).trans ?_
    have hctx : ({ s with nextOp := s.nextOp + 1 } : State).onCl = s.onCl := State.onCl_congr rfl
    rw [hctx, s.onCl_site cl a ha]
    rfl
  refine (State.onCl_modOn _ a.c.id a.k.cl (fun k => { k with usedGpe := true }) fun _ => rfl).trans ?_
  rw [h1, Option.map_some, ClCtx.queue_false]

theorem State.onCl_issued (s : State) (a : Site) (n : Nat) :
    (s.issued a (fun k => k.advance n)).onCl a.c.id a.k.cl = (s.onCl a.c.id a.k.cl).map (fun k => { k.advance n with wait := none }) := by
  rw [State.issued, State.onCl_modOn _ _ _ _ fun k => by rw [ClCtx.advance_cl], State.onCl_congr (s := s) rfl]
  simp only [ClCtx.advance_wait]
  rfl

theorem getLast_of_names {l m : List GpeOp} {o : GpeOp} (h : l.map GpeOp.name = m.map GpeOp.name ++ [o.name]) :
    ∃ x, l.getLast? = some x ∧ x.name = o.name := by
  have hlast := congrArg List.getLast? h
  rw [List.getLast?_map, List.getLast?_concat] at hlast
  exact Option.map_eq_some_iff.mp hlast

/-- Settles O20: the operation joins the queue of its cluster and the operations of the GPE, whose later work changes no operation's name. -/
theorem lookupIssue : Obligations.LookupIssue := by
  unfold Obligations.LookupIssue
  intro s cl i a g gather ecc h hg off hin hal hgood d r o ht hgrant hst moved
  have hcl : a.k.cl = cl := s.site_cl cl a h.2.1
  have hexec : exec (if gather then .gather cl ⟨i, ecc⟩ else .pool cl ⟨i, ecc⟩) s = .next (s.issueLookup cl i gather ecc) := by cases gather <;> rfl
  have hqueued := State.issueLookup_queued (ecc := ecc) (d := d) (r := r) (o := o) h hg hin hal hgood rfl rfl rfl ht hgrant hst
  have hmoved : moved = { a.k with running := a.k.running ++ [o], usedGpe := true } := rfl
  replace hqueued : s.issueLookup cl i gather ecc = (((s.granted a cl o).dirRead (cl / 16) ecc).startLookup a off d gather g.freeNum ((g.gen + 1) % 256)).issued a
    (fun k => k.advance (wordsOf i)) := hqueued
  clear_value moved o r d off
  have hbase : (s.granted a cl o).within State.directory ((s.granted a cl o).dirRead (cl / 16) ecc) := State.within_dirRead _ _ _
  have hchecked : s.within State.checked ((s.granted a cl o).dirRead (cl / 16) ecc) :=
    State.within_trans (s.within_granted a cl o) (State.within_mono hbase)
  have hgpe : ((s.granted a cl o).dirRead (cl / 16) ecc).gpes[cl / 16]?
      = some { g with granted := cl % 16, waiting := g.waiting.filter (fun w => !(w.1 == cl)) } := by
    rw [hbase]
    simp [State.directory, State.granted, Site.set, State.modOn, State.modCtx, State.modGpe, listMod, Site.queued, hg]
  obtain ⟨u, op, hu, hname, hgoes⟩ := ((s.granted a cl o).dirRead (cl / 16) ecc).startLookup_added a off d gather g.freeNum ((g.gen + 1) % 256)
  have hgu : u.gpes[a.k.cl / 16]? = some { g with granted := cl % 16, waiting := g.waiting.filter (fun w => !(w.1 == cl)) } := by
    rw [hu, hcl]
    exact hgpe
  obtain ⟨g', hg', hops, hgen⟩ := State.gpe_of_added hgu hgoes
  rw [hcl] at hg'
  obtain ⟨x, hx, hxn⟩ := getLast_of_names hops
  have hfull : ({ s with nextOp := s.nextOp + 1 } : State).within State.lookupIssue
      (((s.granted a cl o).dirRead (cl / 16) ecc).startLookup a off d gather g.freeNum ((g.gen + 1) % 256)) := by
    have h1 : ({ s with nextOp := s.nextOp + 1 } : State).within State.lookupIssue (s.granted a cl o) := rfl
    have h2 : u.within State.lookupIssue (u.addOp (a.k.cl / 16) op ((g.gen + 1) % 256)) := rfl
    exact State.within_trans (State.within_trans (State.within_trans (State.within_trans h1 (State.within_mono hbase)) (State.within_mono hu)) h2)
      (State.within_mono hgoes.1)
  have hlink (st : Nat) (hc : s.lookupCheck a d gather = .error st) : (g'.ops.getLast?).any (fun x => x.fail == some st && x.bags.isEmpty) = true
      ∧ (((s.granted a cl o).dirRead (cl / 16) ecc).startLookup a off d gather g.freeNum ((g.gen + 1) % 256)).link = s.link := by
    have hc' : ((s.granted a cl o).dirRead (cl / 16) ecc).lookupCheck a d gather = .error st := by
      rw [hchecked, State.lookupCheck_checked]
      exact hc
    obtain ⟨g2, hg2, hlast, hl⟩ := State.gpe_startLookup_error hc' (by rw [hcl]; exact hgpe) off g.freeNum ((g.gen + 1) % 256)
    rw [hcl, hg'] at hg2
    obtain rfl := Option.some.inj hg2
    refine ⟨hlast, hl.trans ?_⟩
    rw [hchecked, State.link_checked]
  generalize ((s.granted a cl o).dirRead (cl / 16) ecc).startLookup a off d gather g.freeNum ((g.gen + 1) % 256) = t at hg' hgoes hfull hlink hqueued
  have hctxs : t.ctxs = (s.granted a cl o).ctxs := by
    rw [hgoes.1]
    show u.ctxs = _
    rw [hu]
    show ((s.granted a cl o).dirRead (cl / 16) ecc).ctxs = _
    rw [hbase]
    rfl
  refine ⟨_, g', hexec.trans (congrArg _ hqueued), hg', ?_, hgen, ?_, ?_, ?_, ?_⟩
  · simpa using congrArg List.length hops
  · rw [hx]
    obtain ⟨h1, h2, h3, h4, h5⟩ : x.num = g.freeNum ∧ x.ctx = a.c.id ∧ x.cl = a.k.cl ∧ x.gen = (g.gen + 1) % 256 ∧ x.abandoned = none := by
      simpa [GpeOp.name] using hxn.trans hname
    simp [h1, h2, h3, h4, h5]
  · rw [State.onCl_issued, State.onCl_congr hctxs, State.onCl_granted h.2.1, hmoved]
    rfl
  · intro st hc
    exact hlink st hc
  · have hissued : t.within State.lookupIssue (t.issued a (fun k => k.advance (wordsOf i))) := rfl
    exact State.within_trans hfull hissued

end Sys2Proof.Machine

/-! The owner side of look-up, partials, combine buffers, Wings caches, timeouts and cancels (R98 to R138, R505). -/
namespace Sys2Proof.Machine

theorem modFirst_append_singleton {α : Type} (p : α → Bool) (f : α → α) {l : List α} {x : α} (hl : l.find? p = none) (hx : p x = true) :
    modFirst p f (l ++ [x]) = l ++ [f x] := by
  induction l with
  | nil => simp [modFirst, hx]
  | cons y t ih =>
    have hy : p y = false := by simpa using List.find?_eq_none.mp hl y List.mem_cons_self
    have ht : t.find? p = none := List.find?_eq_none.mpr fun z hz => List.find?_eq_none.mp hl z (List.mem_cons_of_mem _ hz)
    simp [modFirst, hy, ih ht]

namespace State

/-! ## An owner is asked (R112, R120) -/

/-- What a read by an owner works on beside its reads and requests: the cache of the die, counters, and what is open. -/
def ownerReads (s t : State) : State := { s with gpes := t.gpes, regs := t.regs, freeCtr := t.freeCtr }

theorem within_sweepOn (s : State) (die : Nat) : s.within ownerReads (s.sweepOn die) := by
  unfold sweepOn
  split <;> rfl

/-- The read that an owner begins of one index. -/
def newRead (s : State) (r : OwnReq) (t : Table) (bag : Nat) (e : IdxEntry) : RowRead :=
  ⟨s.nextRead, r.die, r.src, r.ctx, r.op, bag, e, none, false, t.granuleOrder⟩

/-- An index whose row is not lost and not in a cache that is ON begins one read of its row. -/
theorem readIndex_begins {s : State} {r : OwnReq} {t : Table} {w : Version} {g : Gpe} {e : IdxEntry} (hsub : e.subst = false)
    (hlost : s.rowLost t w.num e.row = false) (hg : s.gpes[r.die]? = some g) (hst : g.wings.st ≠ .on) (bag : Nat) (ecc : List (Nat × GranuleHealth)) :
    ∃ v, s.within ownerReads v
      ∧ s.readIndex r t w bag ecc e = { v with nextRead := s.nextRead + 1, reads := s.reads ++ [s.newRead r t bag e] } := by
  have hbegin (u : State) (hu : s.within ownerReads u) : ∃ v, s.within ownerReads v ∧ (
      { (if t.cacheable then u.count (Reg.LKP_WINGS_MISS r.die) 1 else u) with
        nextRead := (if t.cacheable then u.count (Reg.LKP_WINGS_MISS r.die) 1 else u).nextRead + 1
        reads := (if t.cacheable then u.count (Reg.LKP_WINGS_MISS r.die) 1 else u).reads ++ [⟨(if t.cacheable then u.count (Reg.LKP_WINGS_MISS r.die) 1 else
          u).nextRead, r.die, r.src, r.ctx, r.op, bag, e, none, false, t.granuleOrder⟩] } : State)
      = { v with nextRead := s.nextRead + 1, reads := s.reads ++ [s.newRead r t bag e] } := by
    have hv : s.within ownerReads (if t.cacheable then u.count (Reg.LKP_WINGS_MISS r.die) 1 else u) := by
      split
      · exact within_trans hu rfl
      · exact hu
    refine ⟨_, hv, ?_⟩
    generalize (if t.cacheable then u.count (Reg.LKP_WINGS_MISS r.die) 1 else u) = v at hv ⊢
    rw [hv]
    rfl
  have hsweep : s.within ownerReads (((s.count Reg.LKP_ROWS 1).sweepOn r.die).noteHeat r.die t.handle e.row 1 0) :=
    within_trans (within_trans (t := s.count Reg.LKP_ROWS 1) rfl (within_sweepOn _ _)) rfl
  have hnone : (s.gpes[r.die]?).bind (fun g =>
      if g.wings.st = .on then g.wings.rows.find? (fun x => x.handle == t.handle && x.row == e.row && x.slot == w.slot) else none) = none := by
    rw [hg]
    exact if_neg hst
  unfold readIndex
  simp only [hsub, hlost, hnone, Bool.false_eq_true, if_false]
  exact hbegin _ (within_trans hsweep rfl)

/-- The request that an owner keeps once a packet of a new one has come. -/
def newReq (die : Nat) (p : PoolReqPkt) (pkts : List Nat) (bags : List OwnBag) : OwnReq :=
  ⟨die, p.src, p.ctx, p.op, p.gen, p.handle, p.ver, p.mode, p.weighted, pkts, p.npkt, bags⟩

theorem newReq_is (die : Nat) (p : PoolReqPkt) (pkts : List Nat) (bags : List OwnBag) : (newReq die p pkts bags).is die p.src p.ctx p.op = true := by
  simp [newReq, OwnReq.is]

theorem modReq_new {s : State} {die : Nat} {p : PoolReqPkt} (h : s.req? die p.src p.ctx p.op = none) (pkts : List Nat) (bags : List OwnBag)
    (f : OwnReq → OwnReq) : ({ s with reqs := s.reqs ++ [newReq die p pkts bags] } : State).modReq die p.src p.ctx p.op f
      = { s with reqs := s.reqs ++ [f (newReq die p pkts bags)] } := by
  unfold modReq
  dsimp only
  rw [modFirst_append_singleton _ _ h (newReq_is die p pkts bags)]

theorem req_new {s : State} {die : Nat} {p : PoolReqPkt} (h : s.req? die p.src p.ctx p.op = none) {t : State} {q : OwnReq}
    (ht : t.reqs = s.reqs ++ [q]) (hq : q.is die p.src p.ctx p.op = true) : t.req? die p.src p.ctx p.op = some q := by
  unfold req? at *
  rw [ht, List.find?_append, h]
  simp [hq]

/-- A bag of which a read is outstanding does not end. -/
theorem tryFinish_of_read {s : State} {die src ctx op bag : Nat}
    (h : s.reads.any (fun x => x.die == die && x.src == src && x.ctx == ctx && x.op == op && x.bag == bag) = true) :
    s.tryFinish die src ctx op bag = s := by
  unfold tryFinish
  split
  · rfl
  · split
    · exact if_pos (Or.inr h)
    · rfl

section
variable {s : State} {die : Nat} (hserv : s.serving = true)
include hserv

theorem exec_poolReq_older {p : PoolReqPkt} {ecc : List (Nat × GranuleHealth)} {q : OwnReq} (hq : s.req? die p.src p.ctx p.op = some q)
    (hne : q.gen ≠ p.gen) (hold : genNewer p.gen q.gen = false) : exec (.poolReq die ⟨p, ecc⟩) s = .next s := by
  have hany : (s.req? die p.src p.ctx p.op).any (fun r => r.gen != p.gen && !genNewer p.gen r.gen) = true := by
    rw [hq]
    simp [hne, hold]
  show execPoolReq die ⟨p, ecc⟩ s = _
  simp only [execPoolReq, whenServing_on s _ hserv]
  congr 1
  split
  · rfl
  · exact if_pos hany

/-- A new request for one index begins one read. -/
theorem exec_poolReq_begins {p : PoolReqPkt} {ecc : List (Nat × GranuleHealth)} {t0 : Table} {w : Version} {g : Gpe} {bag : Nat} {last : Bool}
    {e : PieceIdx} (ht : s.table? p.handle = some t0) (hw : t0.ver? p.ver = some w) (hnone : s.req? die p.src p.ctx p.op = none)
    (hp : p.pieces = [⟨bag, last, [e]⟩]) (hsub : e.subst = false) (hlost : s.rowLost t0 w.num e.row = false) (hg : s.gpes[die]? = some g)
    (hst : g.wings.st ≠ .on) : ∃ v reqs, s.within ownerReads v ∧ exec (.poolReq die ⟨p, ecc⟩) s = .next { v with
      reqs := reqs, nextRead := s.nextRead + 1
      reads := s.reads ++ [⟨s.nextRead, die, p.src, p.ctx, p.op, bag, ⟨e.row, false, e.weight, 65536 * p.pkt⟩, none, false, t0.granuleOrder⟩] } := by
  have hver : (s.table? p.handle).bind (fun t => (t.ver? p.ver).map (fun w => (t, w))) = some (t0, w) := by
    rw [ht, Option.bind_some, hw]
    rfl
  let b : OwnBag := ⟨bag, if last then some p.pkt else none, [], 0, 0, false, []⟩
  let u : State := { s with reqs := s.reqs ++ [newReq die p [p.pkt] [b]] }
  obtain ⟨v, hv, hread⟩ := readIndex_begins (s := u) (r := newReq die p [] []) (e := ⟨e.row, e.subst, e.weight, 65536 * p.pkt + 0 + 0⟩) hsub hlost hg hst
    bag ecc
  have hserve : (({ s with reqs := s.reqs ++ [newReq die p [] []] } : State).modReq die p.src p.ctx p.op (fun q =>
      { q with pkts := insertNew p.pkt q.pkts })).servePieces (newReq die p [] []) t0 w ecc p.pkt 0 p.pieces
      = u.readIndex (newReq die p [] []) t0 w bag ecc ⟨e.row, e.subst, e.weight, 65536 * p.pkt + 0 + 0⟩ := by
    rw [modReq_new hnone, hp]
    refine congrArg (fun x : State => x.readIndex (newReq die p [] []) t0 w bag ecc ⟨e.row, e.subst, e.weight, 65536 * p.pkt + 0 + 0⟩) ?_
    exact modReq_new hnone [p.pkt] [] _
  have hreq : (u.readIndex (newReq die p [] []) t0 w bag ecc ⟨e.row, e.subst, e.weight, 65536 * p.pkt + 0 + 0⟩).req? die p.src p.ctx p.op
      = some (newReq die p [p.pkt] [b]) := by
    refine req_new hnone ?_ (newReq_is die p [p.pkt] [b])
    rw [hread]
    show v.reqs = _
    rw [hv]
    rfl
  have hbusy : (u.readIndex (newReq die p [] []) t0 w bag ecc ⟨e.row, e.subst, e.weight, 65536 * p.pkt + 0 + 0⟩).reads.any
      (fun x => x.die == die && x.src == p.src && x.ctx == p.ctx && x.op == p.op && x.bag == bag) = true := by
    rw [hread]
    simp [newRead, newReq]
  have hreqs : v.reqs = s.reqs ++ [newReq die p [p.pkt] [b]] := by rw [hv]; rfl
  refine ⟨{ v with reqs := s.reqs }, (s.reqs ++ [newReq die p [p.pkt] [b]]).filter (·.working), ?_, ?_⟩
  · rw [hv]
    rfl
  · show execPoolReq die ⟨p, ecc⟩ s = _
    simp only [execPoolReq, whenServing_on s _ hserv, hver, hnone, Option.any_none, Bool.false_eq_true, if_false]
    rw [show (⟨die, p.src, p.ctx, p.op, p.gen, p.handle, p.ver, p.mode, p.weighted, [], p.npkt, []⟩ : OwnReq) = newReq die p [] [] from rfl, hserve, hreq]
    have hbags : (newReq die p [p.pkt] [b]).bags.map (·.bag) = [bag] := rfl
    simp only [Option.map_some, Option.getD_some, hbags, List.foldl_cons, List.foldl_nil, tryFinish_of_read hbusy]
    rw [hread, hsub]
    dsimp only
    rw [hreqs]
    rfl

end

/-! ## A granule comes (R120, R121) -/

section
variable {s : State} {die : Nat} {x : RowRead} {q : OwnReq} {t0 : Table} {w : Version} {g : Nat} {rest : List Nat} (hserv : s.serving = true)
  (hx : s.reads.find? (fun y => y.id == x.id && y.die == die) = some x) (hq : s.req? die x.src x.ctx x.op = some q)
  (ht : s.table? q.handle = some t0) (hw : t0.ver? q.ver = some w) (hleft : x.left = g :: rest)
include hserv hx hq ht hw hleft

/-- A good granule in its turn: its elements are added but for CONCAT; the last one ends the read. -/
theorem exec_granuleIn_good :
    let img := x.image.getD (s.rowAt die t0.handle w.num x.entry.row)
    let u : State := if q.mode = 4 then s else s.addGranules die x.src x.ctx x.op x.bag ⟨some x.id, x.entry, img, [g]⟩
    let fin : State := { u with reads := u.reads.filter (fun y => !(y.id == x.id)) }
    let v : State := if q.mode = 4 then fin.addTerm die x.src x.ctx x.op x.bag x.entry img false else fin.rowDone die x.src x.ctx x.op x.bag x.entry false
    exec (.granuleIn die x.id g ⟨0, .good⟩) s = .next (if x.left.length ≤ 1 then
        (if x.stale then v else (v.sweepOn die).offer die t0 w x.entry.row).tryFinish die x.src x.ctx x.op x.bag
      else { u with reads := modFirst (·.id == x.id) (fun y => { y with left := y.left.drop 1, image := some img }) u.reads }) := by
  have hver : (s.req? die x.src x.ctx x.op).bind (fun r => (s.table? r.handle).bind (fun t => (t.ver? r.ver).map (fun w => (t, w)))) = some (t0, w) := by
    rw [hq, Option.bind_some, ht, Option.bind_some, hw]
    rfl
  have hhead : ¬x.left.head? ≠ some g := by simp [hleft]
  have hgood : healthOf ⟨0, .good⟩ = .good := rfl
  show execGranuleIn die x.id g ⟨0, .good⟩ s = _
  by_cases hm : q.mode = 4
  · have hconcat : (s.req? die x.src x.ctx x.op).any (·.mode == 4) = true := by rw [hq]; simp [hm]
    simp only [execGranuleIn, whenServing_on s _ hserv, hx, hver, if_neg hhead, hgood, hconcat, hm, if_true, reduceCtorEq, if_false]
  · have hconcat : (s.req? die x.src x.ctx x.op).any (·.mode == 4) = false := by rw [hq]; simp [hm]
    simp only [execGranuleIn, whenServing_on s _ hserv, hx, hver, if_neg hhead, hgood, hconcat, hm, Bool.false_eq_true, reduceCtorEq, if_false]

end

/-! ## A partial comes (R98, R102, R114, R119, R136) -/

section
variable {s : State} {die : Nat} {p : PartialPkt}

theorem exec_partialIn_noOp (hserv : s.serving = true) (h : s.gpeOp? die (p.op % 1024) = none) :
    exec (.partialIn die p) s = .next (s.strayPartial die p) := by
  show execPartial die p s = _
  simp only [execPartial, whenServing_on s _ hserv, h]

theorem exec_partialIn_stray {o : GpeOp} {b : Bag} (hserv : s.serving = true) (ho : s.gpeOp? die (p.op % 1024) = some o)
    (hb : o.bags.find? (·.num == p.bag) = some b) (h : o.ctx ≠ p.ctx ∨ o.gen ≠ p.gen ∨ b.done = true) :
    exec (.partialIn die p) s = .next (s.strayPartial die p) := by
  show execPartial die p s = _
  cases ht : s.table? o.handle with
  | none => simp only [execPartial, whenServing_on s _ hserv, ho, hb, ht]
  | some t =>
    simp only [execPartial, whenServing_on s _ hserv, ho, hb, ht]
    exact congrArg _ (if_pos h)

/-- Two changes that agree on the operation found change it alike. -/
theorem modGpeOp_congr {s : State} {die num : Nat} {f f' : GpeOp → GpeOp} (h : ∀ o, s.gpeOp? die num = some o → f o = f' o) :
    s.modGpeOp die num f = s.modGpeOp die num f' := by
  show ({ s with gpes := s.gpes.modify die _ } : State) = { s with gpes := s.gpes.modify die _ }
  congr 1
  refine List.ext_getElem? fun d => ?_
  by_cases hd : die = d
  · subst hd
    cases hg : s.gpes[die]? with
    | none => simp [hg]
    | some g =>
      have hops := modFirst_congr (p := fun o => o.num == num && o.abandoned.isNone) f f' g.ops fun o ho => h o (by simpa [gpeOp?, hg] using ho)
      simp [hg, hops]
  · simp [hd]

theorem exec_partialIn_taken {o : GpeOp} {b : Bag} {t : Table} (hserv : s.serving = true) (ho : s.gpeOp? die (p.op % 1024) = some o)
    (hb : o.bags.find? (·.num == p.bag) = some b) (ht : s.table? o.handle = some t) (hctx : o.ctx = p.ctx) (hgen : o.gen = p.gen)
    (hdone : b.done = false) :
    let u := s.modGpeOp die (p.op % 1024) (fun o => { o.modBag p.bag (fun _ => b.take t o.raw p) with timer := s.time.gtime })
    exec (.partialIn die p) s = .next (if b.owners ≤ (b.take t o.raw p).got then u.bagDone die (p.op % 1024) p.bag false else u) := by
  intro u
  have hu : s.modGpeOp die (p.op % 1024) (fun o' => { o'.modBag p.bag (fun _ => b.take t o.raw p) with timer := s.time.gtime }) = u :=
    modGpeOp_congr fun o' ho' => by rw [ho] at ho'; cases ho'; rfl
  show execPartial die p s = _
  simp only [execPartial, whenServing_on s _ hserv, ho, hb, ht, hctx, hgen, hdone, ne_eq, not_true_eq_false, Bool.false_eq_true, or_self, if_false, hu]

variable {g : Gpe} (hg : s.gpes[die]? = some g)
include hg

theorem strayPartial_late {o : GpeOp} (ho : g.ops.find? (·.num == p.op % 1024) = some o)
    (h : o.abandoned.isSome = true ∨ o.ctx ≠ p.ctx ∨ o.gen ≠ p.gen) : s.strayPartial die p = s.latePartial := by
  have hold : (o.abandoned.isSome || o.ctx != p.ctx || o.gen != p.gen) = true := by
    rcases h with h | h | h <;> simp [h]
  simp only [strayPartial, hg, ho, Option.all_some, hold, if_true]

theorem strayPartial_ended (ho : g.ops.find? (·.num == p.op % 1024) = none) (hend : g.ended.lookup (p.op % 1024) = some (p.gen, false)) :
    s.strayPartial die p = s := by
  simp [strayPartial, hg, ho, hend]

end

/-- A late partial is counted, and flagged in LKP_STATUS. -/
theorem latePartial_says {s : State} (h : s.Sound) : s.latePartial = { s with regs := s.latePartial.regs, out := s.latePartial.out }
    ∧ s.latePartial.reg Reg.LKP_LATE = s.reg Reg.LKP_LATE + 1 ∧ s.regsBut s.latePartial [Reg.LKP_LATE, Reg.LKP_STATUS, Reg.MSIX_PBA] := by
  obtain ⟨hcount, hcountBut⟩ := s.count_says Reg.LKP_LATE 1 h.1
  have hlatchBut := ((s.count Reg.LKP_LATE 1).latch_but Reg.LKP_STATUS 2).1
  refine ⟨within_trans (s.within_count Reg.LKP_LATE 1) (within_latch _ Reg.LKP_STATUS 2), ?_, ?_⟩
  · rw [latePartial, hlatchBut _ (by decide), hcount]
    rfl
  · exact regsBut_trans (regsBut_mono hcountBut (by simp)) (regsBut_mono hlatchBut (by simp))

end State

/-- Settles O21: what an owner does with a request and a granule, and a requester with a partial. -/
theorem ownerAndPartial : Obligations.OwnerAndPartial := by
  unfold Obligations.OwnerAndPartial
  refine ⟨fun s die hserv => ⟨?_, fun p ecc q => State.exec_poolReq_older hserv, ?_⟩, ?_⟩
  · intro p ecc t0 w g bag last e ht hw hnone hp hsub hlost hg hst
    obtain ⟨v, reqs, hv, hexec⟩ := State.exec_poolReq_begins (ecc := ecc) hserv ht hw hnone hp hsub hlost hg hst
    exact ⟨_, hexec, rfl, rfl, by rw [hv]; rfl⟩
  · intro x q t0 w g rest hx hq ht hw hleft img u fin v
    have hgood := State.exec_granuleIn_good hserv hx hq ht hw hleft
    have hreads : u.reads = s.reads := by
      show (if q.mode = 4 then s else _ : State).reads = _
      split <;> rfl
    refine ⟨fun hrest => ?_, fun hrest => ?_⟩
    · have hlen : ¬x.left.length ≤ 1 := by
        cases rest with
        | nil => exact absurd rfl hrest
        | cons y l => rw [hleft]; simp
      rw [hgood, if_neg hlen, ← hreads]
    · have hlen : x.left.length ≤ 1 := by rw [hleft, hrest]; simp
      rw [hgood, if_pos hlen]
      simp only [v, fin, ← hreads]
      rfl
  · intro s die p hserv num
    exact ⟨State.exec_partialIn_noOp hserv, fun o b => State.exec_partialIn_stray hserv, fun o b t ho hb ht hc hgen hd => State.exec_partialIn_taken hserv ho hb ht hc hgen hd,
      fun g o hg ho h => State.strayPartial_late hg ho h,
      fun g hg ho hend => State.strayPartial_ended hg ho hend, fun h => ⟨_, rfl, State.latePartial_says h⟩⟩

end Sys2Proof.Machine

/-! Partials in transit and the states of a Wings cache: what settles O22 and O24. -/

namespace Sys2Proof.Machine

namespace State

theorem reached_of_le {s : State} {n : Nat} (h : n ≤ s.time.gtime.toNat) : s.reached n = true := decide_eq_true h

theorem reached_of_lt {s : State} {n : Nat} (h : s.time.gtime.toNat < n) : s.reached n = false := decide_eq_false (Nat.not_le.mpr h)

/-! ## Partials in transit -/

/-- Partials of mode `mode` are combined here. -/
def combines (s : State) (mode : Nat) : Bool := s.regB Reg.LKP_COMBINE 31 && s.regF Reg.LKP_COMBINE 9 0 != 0 && mode != 4

theorem combines_iff (s : State) (mode : Nat) :
    s.combines mode = true ↔ s.regB Reg.LKP_COMBINE 31 = true ∧ s.regF Reg.LKP_COMBINE 9 0 ≠ 0 ∧ mode ≠ 4 := by
  simp only [combines, Bool.and_eq_true, bne_iff_ne, and_assoc]

section
variable {s : State} {inPort dl port dl' : Nat} {p : PartialPkt} (hserv : s.serving = true) (hdst : locNode p.dst ≠ s.node)
  (hup : s.portUp inPort = true) (hroute : s.route (some (dirOf s.map inPort)) dl p.dst 2 = some (port, dl'))
include hserv hdst hup hroute

/-- What becomes of a partial for another node that can go on by a port: the branches of R115. -/
theorem exec_combinePartial : exec (.combinePartial inPort dl p) s = .next
    (if !s.combines p.mode then s.forwardPartial p port dl'
    else if (s.heldAt (iodOf port)).any (fun h => samePartial h.p p) then
      ({ s with combine := modFirst (fun h => h.iod == iodOf port && samePartial h.p p) (fun h => { h with p := s.combinePkt h.p p }) s.combine } : State).count
        Reg.LKP_COMBINED 1
    else if 512 ≤ (s.heldAt (iodOf port)).length then (s.forwardPartial p port dl').count Reg.LKP_PASSED 1
    else { s with combine :=
      s.combine ++ [⟨iodOf port, p, port, s.time.gtime + BitVec.ofNat 64 (4 * s.regF Reg.LKP_COMBINE 9 0), inPort, dl⟩] }) := by
  show execCombinePartial inPort dl p s = _
  have hhere : ¬(locNode p.dst = s.node ∨ (!s.portUp inPort) = true) := by simp [hdst, hup]
  simp only [execCombinePartial, whenServing_on s _ hserv, hroute, if_neg hhere]
  rfl

end

section
variable {s : State} {iod idx : Nat} {h : Held} (hserv : s.serving = true) (hheld : (s.heldAt iod)[idx]? = some h)
include hserv hheld

theorem exec_combineWindowExpires_over {port dl : Nat} (hdue : h.until_.toNat ≤ s.time.gtime.toNat)
    (hroute : s.route (some (dirOf s.map h.inPort)) h.dl h.p.dst 2 = some (port, dl)) :
    exec (.combineWindowExpires iod idx) s
      = .next (({ s with combine := s.combine.erase h } : State).forwardPartial h.p (if s.portUp h.outPort then h.outPort else port) dl) := by
  have hsame : ({ s with combine := s.combine.erase h } : State).route (some (dirOf s.map h.inPort)) h.dl h.p.dst 2 = some (port, dl) := hroute
  show execCombineWindowExpires iod idx s = _
  simp only [execCombineWindowExpires, whenServing_on s _ hserv, hheld, reached_of_le hdue, hsame, Bool.not_true, Bool.false_eq_true, if_false]
  rfl

theorem exec_combineWindowExpires_open (hopen : s.time.gtime.toNat < h.until_.toNat) : exec (.combineWindowExpires iod idx) s = .next s := by
  show execCombineWindowExpires iod idx s = _
  simp only [execCombineWindowExpires, whenServing_on s _ hserv, hheld, reached_of_lt hopen, Bool.not_false, if_true]

end

end State

/-- Settles O22: a partial in transit passes on, joins its fellow or is held, and a window that ends sends its entry on. -/
theorem combineBuffer : Obligations.CombineBuffer := by
  unfold Obligations.CombineBuffer
  intro s inPort dl port dl' p hserv hdst hup hroute iod window on
  have hon : s.combines p.mode = true ↔ on := s.combines_iff p.mode
  have hgo := State.exec_combinePartial hserv hdst hup hroute
  refine ⟨fun hoff => ?_, fun h hfellow => ?_, fun h hfellow hfull => ?_, fun h hfellow hroom => ?_,
    fun io idx h port2 dl2 hheld => State.exec_combineWindowExpires_over hserv hheld, fun io idx h hheld => State.exec_combineWindowExpires_open hserv hheld⟩
  · have hno : s.combines p.mode = false := Bool.eq_false_iff.mpr fun h => hoff (hon.mp h)
    rw [hgo, hno]
    rfl
  · rw [hgo, hon.mpr h]
    exact congrArg _ (if_pos hfellow)
  · rw [hgo, hon.mpr h, hfellow, if_pos hfull]
    rfl
  · rw [hgo, hon.mpr h, hfellow, if_neg (Nat.not_le.mpr hroom)]
    rfl

/-! ## The states of a Wings cache -/

namespace State

theorem gpe_modGpe {s : State} {die : Nat} {g : Gpe} (hg : s.gpes[die]? = some g) (f : Gpe → Gpe) : (s.modGpe die f).gpes[die]? = some (f g) := by
  simp [hg]

theorem gpe_modGpe_ne (s : State) {die d : Nat} (hd : d ≠ die) (f : Gpe → Gpe) : (s.modGpe die f).gpes[d]? = s.gpes[d]? := by
  simp [Ne.symm hd]

theorem barOpen_of_serving {s : State} (h : s.serving = true) : s.barOpen = true := by
  simp only [serving, Bool.and_eq_true] at h
  simp only [barOpen, Bool.and_eq_true]
  grind

end State

theorem Wings.enable_rows (w : Wings) (e : Bool) : (w.enable e).rows = w.rows ∧ (w.enable e).sketch = w.sketch := by
  unfold Wings.enable
  split <;> exact ⟨rfl, rfl⟩

/-- The states of R128. -/
theorem Wings.enable_st (w : Wings) (e : Bool) : (w.enable e).st = (match w.st, e with
    | .on, false => .stopping
    | .off, true => .starting
    | x, _ => x) := by
  cases h : w.st <;> cases e <;> simp [Wings.enable, h]

theorem Wings.enable_pend (w : Wings) (e : Bool) : (w.enable e).pendEnable = (if w.st = .stopping then e else w.pendEnable)
    ∧ (w.enable e).pendDisable = (if w.st = .starting then !e else w.pendDisable) := by
  cases h : w.st <;> cases e <;> simp [Wings.enable, h]

theorem exec_invalidateAll (s : State) (die : Nat) (v : BitVec 32) : exec (.invalidateAll die v) s = exec (.wingsEnable die (v ||| 0x40000000)) s := by
  show execInvalidateAll die v s = execWingsEnable die _ s
  rw [execInvalidateAll, execWingsEnable, BitVec.toNat_or]
  rfl

theorem exec_whenServing {s t : State} {i : Instr} {f : State → State} (hserv : s.serving = true) (hi : exec i s = .next (s.whenServing f))
    (ht : f s = t) : exec i s = .next t := by
  rw [hi, State.whenServing_on s f hserv, ht]

theorem exec_whenOpen {s t : State} {i : Instr} {f : State → State} (hopen : s.barOpen = true) (hi : exec i s = .next (s.whenOpen f))
    (ht : f s = t) : exec i s = .next t := by
  rw [hi, State.whenOpen_on s f hopen, ht]

/-- A command that changes the Wings cache of a die, and nothing else. -/
theorem exec_modWings {s : State} {die : Nat} {g : Gpe} {i : Instr} {f : Wings → Wings} {w : Wings} (hserv : s.serving = true)
    (hg : s.gpes[die]? = some g) (hi : exec i s = .next (s.whenServing fun s => s.modWings die f)) (hw : f g.wings = w) :
    ∃ t, exec i s = .next t ∧ t = { s with gpes := t.gpes } ∧ (∀ d, d ≠ die → t.gpes[d]? = s.gpes[d]?)
      ∧ t.gpes[die]? = some { g with wings := w } :=
  ⟨_, exec_whenServing hserv hi rfl, rfl, fun _ hd => s.gpe_modGpe_ne hd _, hw ▸ State.gpe_modGpe hg _⟩

/-- A write of LKP_WINGS_CTL: the cache by R128, and its register. -/
theorem State.writeWings_says {s : State} {die : Nat} {g : Gpe} (hdie : die < 8) (hg : s.gpes[die]? = some g) (v : Nat) :
    s.writeWings die v = { s with gpes := (s.writeWings die v).gpes, regs := (s.writeWings die v).regs }
      ∧ (s.writeWings die v).gpes[die]? = some { g with wings := { g.wings.enable (v.testBit 31) with
          invBusy := g.wings.invBusy || v.testBit 30
          swept := if v.testBit 30 then 0 else g.wings.swept } }
      ∧ s.regsBut (s.writeWings die v) [Reg.LKP_WINGS_CTL die] ∧ (∀ d, d ≠ die → (s.writeWings die v).gpes[d]? = s.gpes[d]?) := by
  rw [writeWings, if_neg (Nat.not_le.mpr hdie)]
  refine ⟨rfl, gpe_modGpe hg _, fun b hb => ?_, fun d hd => gpe_modGpe_ne _ hd _⟩
  have hne : b ≠ Reg.LKP_WINGS_CTL die := by simpa using hb
  exact reg_setReg_ne _ _ _ _ hne

def Wings.decayed (w : Wings) (n : Nat) : Wings :=
  { w with reads := w.reads - n, sketch := (w.sketch.map (fun e => (e.1, e.2 / 2))).filter (fun e => e.2 != 0) }

theorem exec_sketchDecay {s : State} {die : Nat} {g : Gpe} (hserv : s.serving = true) (hg : s.gpes[die]? = some g)
    (hn : 2 ^ s.regF (Reg.LKP_WINGS_CTL die) 29 24 ≤ g.wings.reads) :
    exec (.sketchDecay die) s = .next (s.whenServing fun s => s.modWings die (·.decayed (2 ^ s.regF (Reg.LKP_WINGS_CTL die) 29 24))) := by
  show execSketchDecay die s = _
  simp only [execSketchDecay, State.whenServing_on s _ hserv, hg, if_pos hn]
  rfl

/-- Settles O24: how ENABLE, INVALIDATE_ALL, the ends of stop, start and sweep and the decay move a Wings cache on. -/
theorem wingsStates : Obligations.WingsStates := by
  unfold Obligations.WingsStates
  intro s die g hserv hdie hg
  refine ⟨fun v => ?_, exec_invalidateAll s die, fun hst => exec_modWings hserv hg rfl (if_pos hst),
    fun hst hinv => exec_modWings hserv hg rfl (if_pos ⟨hst, by rw [hinv]; rfl⟩), fun hinv => exec_modWings hserv hg rfl (if_pos hinv), fun hn => ?_⟩
  · obtain ⟨hframe, hgpe, hregs, hother⟩ := State.writeWings_says hdie hg v.toNat
    obtain ⟨hrows, hsketch⟩ := g.wings.enable_rows (v.getLsbD 31)
    obtain ⟨hpend, hpendDis⟩ := g.wings.enable_pend (v.getLsbD 31)
    exact ⟨_, _, exec_whenOpen (State.barOpen_of_serving hserv) rfl rfl, hframe, hgpe, rfl, hrows, hsketch, rfl, rfl,
      g.wings.enable_st _, hpend, hpendDis, hregs, hother⟩
  · exact exec_modWings hserv hg (exec_sketchDecay hserv hg hn) rfl

end Sys2Proof.Machine

/-! What a cancel leaves of a launch whose queue is aborting (R102): a counterexample to the last clause of O23. -/

namespace Sys2Proof.Machine

/-- A launch that the abort of its queue cancels while an instruction runs on its cluster. -/
def cancelledLaunch : Ctx :=
  { Tests.ctx with
    st := .cancelling
    aborting := true
    cls := [{ Tests.share with running := [(⟨Tests.ctx, Tests.share⟩ : Site).op Tests.on .te .atom {} [] []] }] }

/-- A look-up of that launch, all of whose bags are complete. -/
def cancelledLookup : GpeOp where
  num := 0
  ctx := 3
  cl := 1
  desc := 0
  mode := 0
  raw := false
  handle := 7
  ver := 1
  out := 0
  ostride := 0
  flg := 0
  ring := none
  perslot := 0
  bags := []
  gen := 0
  attempt := 1
  fail := none
  rows := 0
  epoch := 0
  timer := 0
  slots := 0
  abandoned := none

/-- A part whose die 0 runs the launch and holds the look-up. -/
def cancelledPart : State := { Tests.running cancelledLaunch with gpes := [{ Gpe.init with ops := [cancelledLookup] }] }

/-- The state of launch `id` after a step that goes on, and its mark that no record goes out. -/
def launchAfter (i : Instr) (s : State) (id : Nat) : Option (CtxSt × Bool) :=
  match exec i s with
  | .next t => (t.ctx? id).map fun c => (c.st, c.aborted)
  | _ => none

theorem cancelledPart_after : launchAfter (.cancelAtGpe 0 3) cancelledPart 3 = some (.cancelling, true) := by decide +kernel

theorem State.ctxs_noteFate (s : State) (fate : Nat) : (s.noteFate fate).ctxs = s.ctxs := by
  unfold noteFate
  split <;> simp

/-- The account of a launch sets its slip. -/
theorem State.ctx_account {s : State} {c : Ctx} (hc : s.ctx? c.id = some c) : ∃ d, (s.account c).ctx? c.id = some d ∧ d.st = c.st := by
  have hlist : ∃ slip, (s.account c).ctxs = (s.modCtx c.id fun c => { c with slip := slip }).ctxs := ⟨_, ctxs_noteFate _ _⟩
  obtain ⟨slip, hlist⟩ := hlist
  refine ⟨{ c with slip := slip }, ?_, rfl⟩
  rw [ctx?, hlist]
  exact (s.ctx_modCtx c.id (fun c => { c with slip := slip }) fun _ => rfl).trans (by rw [hc]; rfl)

/-- A launch at its end. -/
def Ctx.over (c : Ctx) (now : Word) : Ctx := { c with st := .ended, status := some (c.status.getD ST_OK), finish := now }

/-- A launch that has come to its end is ended. -/
theorem State.ctx_finishLaunch {s : State} {id : Nat} {c : Ctx} (hc : s.ctx? id = some c) : ∃ d, (s.finishLaunch id).ctx? id = some d ∧ d.st = .ended := by
  have hid : c.id = id := by simpa using List.find?_some hc
  subst hid
  have hover : (s.modCtx c.id fun _ => c.over s.time.gtime).ctx? (c.over s.time.gtime).id = some (c.over s.time.gtime) :=
    (find_modFirst (fun e : Ctx => e.id == c.id) (fun _ => c.over s.time.gtime) s.ctxs fun _ _ => beq_self_eq_true c.id).trans
      (congrArg _ hc)
  simp only [finishLaunch, hc]
  split
  · exact ⟨_, hover, rfl⟩
  · split
    · exact ctx_account hover
    · exact ctx_account hover

/-- A cancelled launch that comes to its end keeps its mark, or is ended. -/
theorem State.ctx_settleCtx {s : State} {id : Nat} {c : Ctx} (hc : s.ctx? id = some c) (hst : c.swapping = false) :
    ∃ d, (s.settleCtx id).ctx? id = some d ∧ (d = c ∨ d.st = .ended) := by
  simp only [settleCtx, hc, hst, Bool.false_eq_true, if_false]
  split
  · exact ⟨c, hc, .inl rfl⟩
  · obtain ⟨d, hd, hend⟩ := ctx_finishLaunch hc
    exact ⟨d, hd, .inr hend⟩

/-- Refutes O23: the GPE's acknowledgement of a cancel that an abort asked for also marks the launch as `aborted`, while the statement lets it
change the acknowledgement and the shares alone. -/
theorem not_lookupEndsBadly : ¬Obligations.LookupEndsBadly := by
  unfold Obligations.LookupEndsBadly
  intro h
  obtain ⟨_, _, _, _, hcancel⟩ := h cancelledPart 0 0 .good (by decide)
  obtain ⟨u, c', hexec, hc', _, _, hsame⟩ := hcancel 3 cancelledLaunch { Gpe.init with ops := [cancelledLookup] } rfl rfl rfl rfl
  have hnoswap : c'.swapping = false := (congrArg Ctx.swapping hsame).trans rfl
  have hmark : c'.aborted = false := (congrArg Ctx.aborted hsame).trans rfl
  obtain ⟨d, hd, hsettled⟩ := State.ctx_settleCtx hc' hnoswap
  have hafter := cancelledPart_after
  simp only [launchAfter, hexec, hd, Option.map_some, Option.some.injEq, Prod.mk.injEq] at hafter
  obtain ⟨hst, haborted⟩ := hafter
  rcases hsettled with rfl | hend
  · simp [hmark] at haborted
  · simp [hend] at hst

end Sys2Proof.Machine

/-! A flip whose held write is held again by a second move of its unit (R152, R167): a counterexample to the flip clause of O26. -/

namespace Sys2Proof.Machine

/-- The unit that moves: row 1 of table 7. -/
abbrev flippedUnit : MigUnit := .row 7 1

/-- A re-mirror of it from die 0 to die 1 that waits for its flip with nothing held. -/
def idleMove : Mig := { Tests.mig flippedUnit .inTransit none with which := true, remirror := true }

/-- The same move with a forwarded write of its row held. -/
def flippedMove : Mig := { idleMove with held := [.delta ⟨0, 0, 0, 0, false⟩ ⟨0, 0, 0, 0, 7, 0, 1, 0, 0, 0, 0, 0, []⟩] }

/-- A part where both stand, and the deltas of the table are applied at die 0. -/
def flippedPart : State := { Tests.moves flippedUnit .inTransit none with tables := [{ Tests.tab [] with reloadable := false }], migs := [flippedMove, idleMove] }

/-- The moves after a step that goes on. -/
def movesAfter (i : Instr) (s : State) : List Mig :=
  match exec i s with
  | .next t => t.migs
  | _ => []

theorem flippedMove_mem_movesAfter : flippedMove ∈ movesAfter (.flip flippedUnit) flippedPart := by decide +kernel

/-- Refutes O26: the write that a flipping re-mirror lets go is held again by another move of its unit in transit, which
thereby becomes the very move that the statement says is gone. -/
theorem not_migrationSteps : ¬Obligations.MigrationSteps := by
  unfold Obligations.MigrationSteps
  intro h
  obtain ⟨_, _, _, _, hflip, _⟩ := h flippedPart flippedUnit flippedMove (by decide)
  obtain ⟨t, hexec, hgone, _⟩ := hflip (by decide +kernel) (by decide +kernel) rfl (by decide +kernel)
  have hmem := flippedMove_mem_movesAfter
  rw [movesAfter, hexec] at hmem
  exact hgone hmem

end Sys2Proof.Machine

/-! The duplicate filter of writes and what a receiver does with a write (R215, R216, R541): what settles O28. -/

namespace Sys2Proof.Machine

namespace State

/-! ## The windows -/

/-- The window of a source node at a die. -/
def window? (s : State) (die node : Nat) : Option Window := s.link.windows.find? (fun w => w.die == die && w.node == node)

end State

/-- What a window says of number `n`. -/
def Window.verdict (w : Window) (n : Nat) : Verdict :=
  if n = 0 then .apply
  else if n ≠ w.high ∧ (n + 2 ^ 32 - w.high) % 2 ^ 32 < 2 ^ 31 then .apply
  else if (w.high + 2 ^ 32 - n) % 2 ^ 32 < 4096 then (if w.seen.contains n then .again else .apply)
  else .old

theorem Window.accept_key (w : Window) (n : Nat) : (w.accept n).die = w.die ∧ (w.accept n).node = w.node := by
  unfold Window.accept
  split
  · exact ⟨rfl, rfl⟩
  · split <;> exact ⟨rfl, rfl⟩

/-- A number that a window lets through comes again once it is accepted. -/
theorem Window.verdict_accept {w : Window} {n : Nat} (hpos : 0 < n) (h : w.verdict n = .apply) : (w.accept n).verdict n = .again := by
  have hn : n ≠ 0 := Nat.pos_iff_ne_zero.mp hpos
  by_cases hnew : n ≠ w.high ∧ (n + 2 ^ 32 - w.high) % 2 ^ 32 < 2 ^ 31
  · have hsame : (n + 2 ^ 32 - n) % 2 ^ 32 = 0 := by omega
    simp only [accept, verdict, if_neg hn, if_pos hnew, hsame]
    simp
  · simp only [verdict, if_neg hn, if_neg hnew] at h
    have hrange : (w.high + 2 ^ 32 - n) % 2 ^ 32 < 4096 := by
      refine Classical.byContradiction fun hfar => ?_
      rw [if_neg hfar] at h
      cases h
    simp only [accept, verdict, if_neg hn, if_neg hnew, if_pos hrange]
    simp

namespace State

theorem verdict_eq (s : State) (die node n : Nat) : s.verdict die node n = ((s.window? die node).map (·.verdict n)).getD .apply := by
  unfold verdict window?
  split
  case h_1 h => rw [h]; rfl
  case h_2 w h => rw [h]; rfl

theorem window?_key {s : State} {die node : Nat} {w : Window} (h : s.window? die node = some w) : w.die = die ∧ w.node = node := by
  simpa using List.find?_some h

/-- The window that an accepted number goes into. -/
def windowOf (s : State) (die node : Nat) : Window := (s.window? die node).getD ⟨die, node, 0, []⟩

theorem windowOf_key (s : State) (die node : Nat) : (s.windowOf die node).die = die ∧ (s.windowOf die node).node = node := by
  unfold windowOf
  cases h : s.window? die node with
  | none => exact ⟨rfl, rfl⟩
  | some w => exact window?_key h

theorem windows_accept (s : State) (die node n : Nat) :
    (s.accept die node n).link.windows = (s.windowOf die node).accept n :: s.link.windows.filter (fun w => !(w.die == die && w.node == node)) := rfl

theorem window?_accept (s : State) (die node n : Nat) : (s.accept die node n).window? die node = some ((s.windowOf die node).accept n) := by
  obtain ⟨hdie, hnode⟩ := s.windowOf_key die node
  obtain ⟨hdie', hnode'⟩ := (s.windowOf die node).accept_key n
  rw [window?, windows_accept]
  exact List.find?_cons_of_pos (by simp [hdie', hnode', hdie, hnode])

theorem window?_accept_ne (s : State) {die node die' node' : Nat} (n : Nat) (hne : ¬(die' = die ∧ node' = node)) :
    (s.accept die node n).window? die' node' = s.window? die' node' := by
  obtain ⟨hdie, hnode⟩ := s.windowOf_key die node
  obtain ⟨hdie', hnode'⟩ := (s.windowOf die node).accept_key n
  have hother : ∀ w : Window, (w.die == die' && w.node == node') = true → (!(w.die == die && w.node == node)) = true := by
    intro w hw
    simp only [Bool.and_eq_true, beq_iff_eq] at hw
    obtain ⟨rfl, rfl⟩ := hw
    simp only [Bool.not_eq_true', Bool.and_eq_false_iff, beq_eq_false_iff_ne]
    exact Classical.not_and_iff_not_or_not.mp hne
  have hfirst : ¬(((s.windowOf die node).accept n).die == die' && ((s.windowOf die node).accept n).node == node') = true := by
    simp only [hdie', hnode', hdie, hnode, Bool.and_eq_true, beq_iff_eq]
    rintro ⟨rfl, rfl⟩
    exact hne ⟨rfl, rfl⟩
  rw [window?, windows_accept, List.find?_cons_of_neg (p := fun w : Window => w.die == die' && w.node == node') hfirst, List.find?_filter]
  exact find_congr fun w _ => by
    cases hw : (w.die == die' && w.node == node') with
    | false => simp
    | true => simp [hother w hw]

/-- A number that the filter lets through comes again once it is accepted. -/
theorem verdict_accept {s : State} {die node n : Nat} (hpos : 0 < n) (hsmall : n < 2 ^ 31) (h : s.verdict die node n = .apply) :
    (s.accept die node n).verdict die node n = .again := by
  have hwindow : (s.windowOf die node).verdict n = .apply := by
    rw [verdict_eq] at h
    unfold windowOf
    cases hw : s.window? die node with
    | none =>
      have hnew : n ≠ 0 ∧ (n + 2 ^ 32 - 0) % 2 ^ 32 < 2 ^ 31 := by omega
      simp only [Option.getD_none, Window.verdict]
      rw [if_neg hnew.1, if_pos hnew]
    | some w => simpa [hw] using h
  rw [verdict_eq, window?_accept]
  exact Window.verdict_accept hpos hwindow

theorem verdict_accept_ne (s : State) {die node die' node' : Nat} (n m : Nat) (hne : ¬(die' = die ∧ node' = node)) :
    (s.accept die node n).verdict die' node' m = s.verdict die' node' m := by
  rw [verdict_eq, verdict_eq, s.window?_accept_ne n hne]

/-! ## Results, answers owed, acknowledgements -/

theorem keepResult_says (s : State) (h : WriteHdr) (r : Nat) : ∃ l, s.keepResult h r = { s with link := { s.link with results := l } }
    ∧ l.find? (fun e => e.1 == filterKey h && e.2.1 == h.tag) = some (filterKey h, h.tag, r)
    ∧ (∀ e ∈ s.link.results, e.1 ≠ filterKey h → e ∈ l) := by
  refine ⟨_, rfl, List.find?_cons_of_pos (by simp), fun e he hkey => ?_⟩
  exact List.mem_cons_of_mem _ (List.mem_filter.mpr ⟨he, by simp [hkey]⟩)

theorem renew_says (s : State) (h : WriteHdr) : ∃ l, s.renew h = { s with link := { s.link with owed := l } } ∧ l.length = s.link.owed.length
    ∧ (∀ o ∈ l, o.isFor h = true → o.h = h) := by
  refine ⟨_, rfl, List.length_map _, fun o ho hfor => ?_⟩
  obtain ⟨x, _, rfl⟩ := List.mem_map.mp ho
  by_cases hx : x.isFor h = true
  · rw [if_pos hx]
  · rw [if_neg hx] at hfor
    exact absurd hfor hx

/-- What is told leaves the numbers and the windows of the links alone. -/
theorem tell_link (s : State) (dst die : Nat) (body : Payload) : (s.tell dst die body).link.seqs = s.link.seqs
    ∧ (s.tell dst die body).link.windows = s.link.windows := by
  unfold tell post
  split
  · exact ⟨rfl, rfl⟩
  · split
    · exact ⟨rfl, rfl⟩
    · split
      · exact ⟨congrArg LinkSt.seqs (s.latch_link _ _), congrArg LinkSt.windows (s.latch_link _ _)⟩
      · exact ⟨rfl, rfl⟩

/-! ## A write that arrives -/

section
variable {s : State} {h : WriteHdr} (f : State → Nat × State) (g : State → Option Nat × State)

theorem recvWrite_local (hl : h.linked = false) : s.recvWrite h f = (f s).2.sendAck h (f s).1 := by
  simp [recvWrite, hl]

theorem recvWrite_old (hl : h.linked = true) (hv : s.verdict h.die (locNode h.src) h.tag = .old) : s.recvWrite h f = s.count Reg.RAS_DUP_OLD 1 := by
  simp [recvWrite, hl, hv]

theorem recvWrite_again (hl : h.linked = true) (hv : s.verdict h.die (locNode h.src) h.tag = .again) :
    s.recvWrite h f = (s.count Reg.RAS_DUP 1).sendAck h (s.resultOf h) := by
  simp [recvWrite, hl, hv]

theorem recvWrite_apply (hl : h.linked = true) (hv : s.verdict h.die (locNode h.src) h.tag = .apply) :
    s.recvWrite h f = ((f (s.accept h.die (locNode h.src) h.tag)).2.keepResult h (f (s.accept h.die (locNode h.src) h.tag)).1).sendAck h
      (f (s.accept h.die (locNode h.src) h.tag)).1 := by
  simp [recvWrite, hl, hv]

theorem recvOwed_local_owed (hl : h.linked = false) (ho : s.link.owed.any (·.isFor h) = true) : s.recvOwed h g = s.renew h := by
  simp only [recvOwed, hl, ho, Bool.not_false, if_true]

theorem recvOwed_local_waits (hl : h.linked = false) (ho : s.link.owed.any (·.isFor h) = false) (hg : (g s).1 = none) : s.recvOwed h g = (g s).2 := by
  simp only [recvOwed, hl, ho, Bool.not_false, if_true, Bool.false_eq_true, if_false]
  generalize g s = x at hg ⊢
  obtain ⟨_, _⟩ := x
  cases hg
  rfl

theorem recvOwed_local_answers {r : Nat} (hl : h.linked = false) (ho : s.link.owed.any (·.isFor h) = false) (hg : (g s).1 = some r) :
    s.recvOwed h g = (g s).2.sendAck h r := by
  simp only [recvOwed, hl, ho, Bool.not_false, if_true, Bool.false_eq_true, if_false]
  generalize g s = x at hg ⊢
  obtain ⟨_, _⟩ := x
  cases hg
  rfl

theorem recvOwed_old (hl : h.linked = true) (hv : s.verdict h.die (locNode h.src) h.tag = .old) : s.recvOwed h g = s.count Reg.RAS_DUP_OLD 1 := by
  simp [recvOwed, hl, hv]

theorem recvOwed_again (hl : h.linked = true) (hv : s.verdict h.die (locNode h.src) h.tag = .again) :
    s.recvOwed h g = if s.link.owed.any (·.isFor h) then (s.count Reg.RAS_DUP 1).renew h else (s.count Reg.RAS_DUP 1).sendAck h (s.resultOf h) := by
  simp only [recvOwed, hl, hv, Bool.not_true, Bool.false_eq_true, if_false]

theorem recvOwed_apply_waits (hl : h.linked = true) (hv : s.verdict h.die (locNode h.src) h.tag = .apply)
    (hg : (g (s.accept h.die (locNode h.src) h.tag)).1 = none) : s.recvOwed h g = (g (s.accept h.die (locNode h.src) h.tag)).2 := by
  simp only [recvOwed, hl, hv, Bool.not_true, Bool.false_eq_true, if_false]
  generalize g (s.accept h.die (locNode h.src) h.tag) = x at hg ⊢
  obtain ⟨_, _⟩ := x
  cases hg
  rfl

theorem recvOwed_apply_answers {r : Nat} (hl : h.linked = true) (hv : s.verdict h.die (locNode h.src) h.tag = .apply)
    (hg : (g (s.accept h.die (locNode h.src) h.tag)).1 = some r) :
    s.recvOwed h g = ((g (s.accept h.die (locNode h.src) h.tag)).2.keepResult h r).sendAck h r := by
  simp only [recvOwed, hl, hv, Bool.not_true, Bool.false_eq_true, if_false]
  generalize g (s.accept h.die (locNode h.src) h.tag) = x at hg ⊢
  obtain ⟨_, _⟩ := x
  cases hg
  rfl

end

end State

/-- Settles O28: the filter lets a number through once, and what then becomes of a write. -/
theorem receiveWrite : Obligations.ReceiveWrite := by
  unfold Obligations.ReceiveWrite
  refine ⟨fun s die node n hpos hsmall hv _ => ⟨State.verdict_accept hpos hsmall hv, fun die' node' m => s.verdict_accept_ne n m⟩, ?_⟩
  intro s h f g node owed
  refine ⟨State.recvWrite_local f, fun hl hv => ⟨State.recvWrite_old f hl hv, State.recvOwed_old g hl hv⟩, fun hl hv => ?_, State.recvWrite_apply f,
    fun hl => ⟨fun ho => State.recvOwed_local_waits g hl ho, fun ho r => State.recvOwed_local_answers g hl ho, fun ho => State.recvOwed_local_owed g hl ho⟩,
    fun hl hv => ⟨State.recvOwed_apply_waits g hl hv, fun r => State.recvOwed_apply_answers g hl hv⟩, s.keepResult_says h, s.renew_says h,
    fun r => ⟨s.onlySends_sendAck h r, s.tell_link _ _ _⟩⟩
  refine ⟨s.resultOf h, State.recvWrite_again f hl hv, fun x hx => by rw [State.resultOf, hx]; rfl, fun ho => ?_, fun ho => ?_⟩
  · exact (State.recvOwed_again g hl hv).trans (if_neg (by simpa [owed] using ho))
  · exact (State.recvOwed_again g hl hv).trans (if_pos ho)

end Sys2Proof.Machine

/-! What the writes between parts and dies do under the filter of R541 (R47, R143, R228, R543): what settles O29. -/

namespace Sys2Proof.Machine

namespace State

/-! ## Writes to the part's own dies -/

theorem sendWrite_own {s : State} {dst : Nat} (hown : locNode dst = s.node) (die : Nat) (body : Payload) (cmd : Option (Nat × Nat)) (r : Option (Nat × Word)) :
    (s.sendWrite die dst body cmd r).1 = ST_OK := by
  have hpost (p : Send) (hp : p.dst = dst) : (s.post p).1 = 0 := by rw [post, if_pos (by rw [hp, hown])]
  unfold sendWrite
  dsimp only
  split
  · rfl
  · split
    · rfl
    next st s1 hne h =>
      have hzero := hpost ⟨dst, die, keyGet 0 s.link.seqs dst, 0, body⟩ rfl
      rw [h] at hzero
      exact absurd hzero hne

/-- A write to a die of the part is under way, with its name. -/
theorem sendNamed_own {s : State} {dst : Nat} (hown : locNode dst = s.node) (die : Nat) (body : Payload) :
    ∃ n t, s.sendNamed die dst body = (some (dst, n), t) ∧ s.onlySends t ∧ t.node = s.node := by
  have hok := sendWrite_own hown die body none none
  have hsends := s.onlySends_sendWrite die dst body none none
  have hz := s.z_sendWrite die dst body none none
  unfold sendNamed
  generalize s.sendWrite die dst body none none = x at hok hsends hz ⊢
  obtain ⟨st, t⟩ := x
  cases hok
  exact ⟨_, t, rfl, hsends, node_congr hsends.pwr hz⟩

/-- A directory change on its way to dies of the part: the names of the writes, and the state. -/
def toDies (c : DirChange) (loc : Nat → Nat) (dies : List Nat) (acc : List (Nat × Nat) × State) : List (Nat × Nat) × State :=
  dies.foldl (fun acc k =>
    let (x, s1) := acc.2.sendNamed 0 (loc k) (.chorus (.dir c))
    (acc.1 ++ x.toList, s1)) acc

theorem toDies_says (c : DirChange) (s : State) (dies : List Nat) : ∀ acc : List (Nat × Nat) × State, (∀ k, locNode (s.loc k) = s.node) → acc.2.node = s.node →
    acc.2.onlySends (toDies c s.loc dies acc).2 ∧ (toDies c s.loc dies acc).1.map (·.1) = acc.1.map (·.1) ++ dies.map s.loc := by
  induction dies with
  | nil => exact fun acc _ _ => ⟨acc.2.onlySends_refl, by simp [toDies]⟩
  | cons k l ih =>
    intro acc hloc hnode
    obtain ⟨n, t, hsent, hsends, htnode⟩ := sendNamed_own (s := acc.2) (dst := s.loc k) (by rw [hloc, hnode]) 0 (.chorus (.dir c))
    have hstep : toDies c s.loc (k :: l) acc = toDies c s.loc l (acc.1 ++ [(s.loc k, n)], t) := by
      rw [toDies, List.foldl_cons, hsent]
      rfl
    obtain ⟨hrest, hnames⟩ := ih (acc.1 ++ [(s.loc k, n)], t) hloc (htnode.trans hnode)
    rw [hstep]
    exact ⟨onlySends_trans hsends hrest, by rw [hnames]; simp⟩

theorem locNode_loc {s : State} (h : s.node < 4096) (k : Nat) : locNode (s.loc k) = s.node := by
  simp only [locNode, loc]
  omega

/-- A directory change of another part goes to each of the eight dies, and is owed till they answer. -/
theorem takeChorus_linked {s : State} {h : WriteHdr} (c : DirChange) (hl : h.linked = true) (hnode : s.node < 4096) :
    ∃ v names, s.onlySends v ∧ names.map (·.1) = (List.range 8).map s.loc ∧ s.takeChorus h (.dir c) = (none, v.owe ⟨h, ST_OK, names, none, []⟩) := by
  obtain ⟨hsends, hnames⟩ := toDies_says c s (List.range 8) ([], s) (locNode_loc hnode) rfl
  rw [takeChorus, if_neg (by simp [hl])]
  split
  next names v heq =>
    have hr : toDies c s.loc (List.range 8) ([], s) = (names, v) := heq
    rw [hr] at hsends hnames
    exact ⟨v, names, hsends, hnames, rfl⟩

theorem takeChorus_local {h : WriteHdr} (hl : h.linked = false) (c : DirChange) :
    (fun s : State => s.takeChorus h (.dir c)) = fun s => (some ST_OK, s.applyDir h.die c) := by
  funext s
  rw [takeChorus, if_pos (by simp [hl])]

/-! ## Probes -/

/-- What a part does with a probe of `node` (R543). -/
def takeProbe (s : State) (h : WriteHdr) (node : Nat) : Nat × State :=
  if node = s.node then (ST_OK, s.answerProbe h node true)
  else
    let ports := ((List.range 6).filter (fun d => s.neighbour d == node)).flatMap (portsOf s.map)
    if ports.all (fun n => (s.link.ports[n]?).any (·.st == 3)) then (ST_OK, s.answerProbe h node false) else (ST_OK, s.write 0 node (.probe node))

theorem takeProbe_ok (s : State) (h : WriteHdr) (node : Nat) : (s.takeProbe h node).1 = ST_OK := by
  unfold takeProbe
  split
  · rfl
  · dsimp only
    split <;> rfl

theorem takeProbe_self {s : State} {h : WriteHdr} {node : Nat} (hn : node = s.node) : (s.takeProbe h node).2 = s.answerProbe h node true := by
  rw [takeProbe, if_pos hn]

theorem takeProbe_other {s : State} {h : WriteHdr} {node : Nat} (hn : node ≠ s.node) :
    (s.takeProbe h node).2 = if ((((List.range 6).filter (fun d => s.neighbour d == node)).flatMap (portsOf s.map)).all
        (fun n => (s.link.ports[n]?).any (·.st == 3))) = true then s.answerProbe h node false else s.write 0 node (.probe node) := by
  rw [takeProbe, if_neg hn]
  dsimp only
  split <;> rfl

theorem probeSays_alive {s : State} {src node : Nat} {alive : Bool} (ha : alive = true) (hp : s.ras.probes.any (·.node == node) = true) :
    s.probeSays src node alive = { s with ras := { s.ras with probes := s.ras.probes.filter (fun p => !(p.node == node)) } } := by
  rw [probeSays, if_neg (by simp [hp]), if_pos ha]

theorem probeSays_none {s : State} {src node : Nat} {alive : Bool} (hp : s.ras.probes.any (·.node == node) = false) (hl : s.rasLeader ≠ s.member) :
    s.probeSays src node alive = s.write 0 (s.memberNode s.rasLeader) (.probeAns node alive) := by
  rw [probeSays, if_pos (by simp [hp, hl])]

/-! ## Losses, tickets and reports -/

/-- What a part does when it is told that `node` is lost (R544). -/
def takeLoss (s : State) (h : WriteHdr) (node : Nat) : State :=
  if node = s.node then s.declareLost 0x800
  else if locNode h.src = node ∧ node / 256 = s.side ∧ !s.ras.lostNodes.contains node then s.declareNode node 1
  else s.loseNode node

theorem takeLoss_other {s : State} {h : WriteHdr} {node : Nat} (hn : node ≠ s.node) (hsrc : locNode h.src ≠ node) : s.takeLoss h node = s.loseNode node := by
  rw [takeLoss, if_neg hn, if_neg fun hall => hsrc hall.1]

/-- What a part does with a ticket that its twin proposes (R228). -/
def takeProposal (s : State) (number : Nat) (at_ : Word) : Nat × State :=
  if s.pair.proposal.isSome ∧ s.side = 0 then (ST_OK, s)
  else (ST_OK, ((s.armTicket true number at_).latch Reg.FEED_STATUS 4).write 0 s.twinNode (.ticketReply number))

theorem takeProposal_ok (s : State) (number : Nat) (at_ : Word) : (s.takeProposal number at_).1 = ST_OK := by
  unfold takeProposal
  split <;> rfl

theorem takeProposal_crossed {s : State} (number : Nat) (at_ : Word) (hp : s.pair.proposal.isSome = true) (hside : s.side = 0) :
    (s.takeProposal number at_).2 = s := by
  rw [takeProposal, if_pos ⟨hp, hside⟩]

theorem pair_takeProposal {s : State} (number : Nat) (at_ : Word) (hp : s.pair.proposal = none) :
    (s.takeProposal number at_).2.pair = (s.armTicket true number at_).pair := by
  rw [takeProposal, if_neg (by simp [hp])]
  generalize hu : (s.armTicket true number at_).latch Reg.FEED_STATUS 4 = u
  have hsends := u.onlySends_write 0 s.twinNode (.ticketReply number)
  rw [hsends.1, ← hu]
  exact latch_pair _ _ _

/-- What a part does with the report of its twin (R228). -/
def takeReport (s : State) (tables : List (Nat × Nat)) (status : Nat) (finish : Word) : State :=
  let p := { s.pair with twin := some ⟨tables, status, finish⟩ }
  if p.ticket = .expired ∧ p.own.isNone then { s with pair := p.noReport } else s.setPair p

theorem pair_setPair (s : State) (p : Pair) : (s.setPair p).pair = p.judge := by
  unfold setPair
  dsimp only
  split
  · exact latch_pair _ _ _
  · rfl

theorem pair_takeReport {s : State} (tables : List (Nat × Nat)) (status : Nat) (finish : Word) (hused : s.pair.ticket = .used) :
    (s.takeReport tables status finish).pair = ({ s.pair with twin := some ⟨tables, status, finish⟩ } : Pair).judge := by
  rw [takeReport, if_neg (by simp [hused])]
  exact s.pair_setPair _

end State

/-- Settles O29: each write does what it says under the duplicate filter. -/
theorem writesApply : Obligations.WritesApply := by
  unfold Obligations.WritesApply
  intro s h hserv
  refine ⟨fun m => exec_whenServing hserv rfl rfl, fun c hl => ?_, fun c hl => ?_, fun f => exec_whenServing hserv rfl rfl,
    fun node failed => exec_whenServing hserv rfl rfl, fun node => ?_,
    fun node alive => ⟨_, exec_whenServing hserv rfl rfl, fun u => ⟨rfl, rfl⟩⟩,
    fun u src node alive => ⟨State.probeSays_alive, State.probeSays_none⟩, fun node => ?_, fun number at_ => ?_, fun tables status finish => ?_⟩
  · rw [← State.takeChorus_local hl]
    exact exec_whenServing hserv rfl rfl
  · exact ⟨fun s => s.takeChorus h (.dir c), exec_whenServing hserv rfl rfl, fun u => State.takeChorus_linked c hl⟩
  · exact ⟨fun s => s.takeProbe h node, exec_whenServing hserv rfl rfl,
      fun u => ⟨u.takeProbe_ok h node, State.takeProbe_self, State.takeProbe_other⟩⟩
  · exact ⟨fun s => (ST_OK, s.takeLoss h node), exec_whenServing hserv rfl rfl, fun u => ⟨rfl, fun hn => if_pos hn, State.takeLoss_other⟩⟩
  · exact ⟨fun s => s.takeProposal number at_, exec_whenServing hserv rfl rfl,
      fun u => ⟨u.takeProposal_ok number at_, State.takeProposal_crossed number at_, State.pair_takeProposal number at_⟩⟩
  · exact ⟨fun s => (ST_OK, s.takeReport tables status finish), exec_whenServing hserv rfl rfl,
      fun u => ⟨rfl, State.pair_takeReport tables status finish⟩⟩

end Sys2Proof.Machine

/-! Acknowledgements and the end-to-end timeout (R14, R217, R509): what settles O30. -/

namespace Sys2Proof.Machine

namespace State

/-! ## Writes that wait for a place -/

/-- No write to `dst` waits for a place. -/
def allSent (s : State) (dst : Nat) : Prop := ∀ x ∈ s.link.pend, x.p.dst = dst → 0 < x.attempt

theorem drain_allSent {s : State} {dst : Nat} (h : s.allSent dst) : s.drain dst = (none, s) := by
  have hnone : s.link.pend.find? (fun e => e.p.dst == dst && e.attempt == 0 && !s.blocked dst e.p.body) = none := by
    refine List.find?_eq_none.mpr fun x hx hfound => ?_
    simp only [Bool.and_eq_true, beq_iff_eq] at hfound
    obtain ⟨⟨hdst, hzero⟩, -⟩ := hfound
    exact absurd (h x hx hdst) (by omega)
  rw [drain, hnone]

theorem drainAll_allSent {s : State} {dst : Nat} (h : s.allSent dst) (fuel : Nat) : s.drainAll dst fuel = s := by
  induction fuel with
  | zero => rfl
  | succ fuel ih => simp only [drainAll, drain_allSent h, ih, ite_self]

theorem post_own {s : State} {p : Send} (hown : locNode p.dst = s.node) : (s.post p).1 = ST_OK := by
  rw [post, if_pos hown]

/-- A write to a die of the part goes out when it has its place. -/
theorem drain_own {s : State} {dst : Nat} (hown : locNode dst = s.node) : ∃ t, s.drain dst = (none, t) ∧ s.onlySends t ∧ t.node = s.node := by
  cases hfind : s.link.pend.find? (fun e => e.p.dst == dst && e.attempt == 0 && !s.blocked dst e.p.body) with
  | none => exact ⟨s, by rw [drain, hfind], s.onlySends_refl, rfl⟩
  | some e =>
    have hdst : e.p.dst = dst := by
      have h := List.find?_some hfind
      simp only [Bool.and_eq_true, beq_iff_eq] at h
      exact h.1.1
    have hok : (s.post e.p).1 = ST_OK := post_own (hdst ▸ hown)
    have hsends := s.onlySends_drain dst
    have hz : (s.drain dst).2.link.z = s.link.z := by
      simp only [drain, hfind]
      exact s.z_post e.p
    have hfst : (s.drain dst).1 = none := by
      simp only [drain, hfind]
      exact if_pos (.inl hok)
    exact ⟨_, Prod.ext hfst rfl, hsends, node_congr hsends.pwr hz⟩

theorem onlySends_drainAll_own {dst : Nat} (fuel : Nat) : ∀ s : State, locNode dst = s.node → s.onlySends (s.drainAll dst fuel) := by
  induction fuel with
  | zero => exact fun s _ => s.onlySends_refl
  | succ fuel ih =>
    intro s hown
    obtain ⟨t, hdrain, hsends, hnode⟩ := drain_own hown
    simp only [drainAll, hdrain]
    split
    · exact s.onlySends_refl
    · exact onlySends_trans hsends (ih t (hnode ▸ hown))

theorem onlySends_drainAll {s : State} {dst : Nat} (h : s.allSent dst ∨ locNode dst = s.node) (fuel : Nat) : s.onlySends (s.drainAll dst fuel) := by
  rcases h with h | h
  · rw [drainAll_allSent h]
    exact s.onlySends_refl
  · exact onlySends_drainAll_own fuel s h

/-! ## Answers that are owed -/

theorem onlySends_pay (s : State) (o : Owed) : s.onlySends (s.pay o) := by
  unfold pay
  split
  · exact onlySends_trans (s.onlySends_link _) (onlySends_sendAck _ _ _)
  · exact s.onlySends_sendAck _ _

theorem onlySends_settleOwed (s : State) : s.onlySends s.settleOwed :=
  onlySends_trans (s.onlySends_link _) (onlySends_foldl _ onlySends_pay _ _)

/-! ## Acknowledgements -/

section
variable {s : State} {dst tag gen result : Nat} (hserv : s.serving = true)
include hserv

theorem exec_ack_noStatus (hr : ackResult result = false) : exec (.ack dst tag gen result) s = .next s :=
  exec_whenServing hserv rfl (if_pos (by rw [hr]; rfl))

theorem exec_ack_late (hr : ackResult result = true)
    (h : ∀ x ∈ s.link.pend, 0 < x.attempt → x.p.dst = dst → x.p.tag = tag → x.p.gen ≠ gen) :
    exec (.ack dst tag gen result) s = .next (s.count Reg.LNK_LATE 1) := by
  have hnone : s.answers? dst tag gen = none := by
    refine List.find?_eq_none.mpr fun x hx hfound => ?_
    simp only [Bool.and_eq_true, beq_iff_eq, decide_eq_true_eq] at hfound
    obtain ⟨⟨⟨hdst, htag⟩, hgen⟩, hatt⟩ := hfound
    exact h x hx hatt hdst htag hgen
  refine exec_whenServing hserv rfl ?_
  simp only [hr, hnone, Bool.not_true, Bool.false_eq_true, if_false]

theorem exec_ack_retires {e : Pend} (hr : ackResult result = true) (he : s.answers? dst tag gen = some e) :
    let others : State := { s with link := { s.link with pend := s.link.pend.filter (· != e) } }
    let u := (others.answered e result).retireWrite e
    exec (.ack dst tag gen result) s = .next ((u.drainAll dst u.link.pend.length).settleOwed) := by
  refine exec_whenServing hserv rfl ?_
  simp only [hr, he, Bool.not_true, Bool.false_eq_true, if_false]

end

theorem answers?_says {s : State} {dst tag gen : Nat} {e : Pend} (he : s.answers? dst tag gen = some e) :
    e ∈ s.link.pend ∧ e.p.dst = dst ∧ e.p.tag = tag ∧ e.p.gen = gen := by
  have h := List.find?_some he
  simp only [Bool.and_eq_true, beq_iff_eq] at h
  obtain ⟨⟨⟨hdst, htag⟩, hgen⟩, -⟩ := h
  exact ⟨List.mem_of_find?_eq_some he, hdst, htag, hgen⟩

theorem onlySends_retireWrite (s : State) (e : Pend) : s.onlySends (s.retireWrite e) := s.onlySends_link _

theorem allSent_retireWrite {s : State} {dst : Nat} (h : s.allSent dst) (e : Pend) : (s.retireWrite e).allSent dst :=
  fun x hx => h x (List.mem_filter.mp hx).1

/-- The sender of a chorus write needs no result. -/
theorem answered_chorus (s : State) {e : Pend} (h : ∃ b, e.p.body = .chorus b) (result : Nat) : s.answered e result = s := by
  obtain ⟨b, hb⟩ := h
  simp only [answered, hb]

/-! ## The end-to-end timeout -/

theorem pend?_dst {s : State} {dst tag : Nat} {e : Pend} (he : s.pend? dst tag = some e) : e.p.dst = dst := by
  have h := List.find?_some he
  simp only [Bool.and_eq_true, beq_iff_eq] at h
  exact h.1.1

theorem pend_post (s : State) (p : Send) : (s.post p).2.link.pend = s.link.pend := by
  unfold post
  split
  · rfl
  · split
    · rfl
    · split
      · exact congrArg LinkSt.pend (s.latch_link _ _)
      · rfl

/-- A write that can be sent goes out a second time, under the next generation. -/
theorem again_says {s : State} {e : Pend} (hok : (s.post { e.p with gen := (e.p.gen + 1) % 256 }).1 = ST_OK) :
    ∃ u : State, s.again e = u.count Reg.LNK_E2E_RETRY 1 ∧ s.onlySends u
      ∧ u.link.pend = modFirst (· == e)
          (fun _ => { e with p := { e.p with gen := (e.p.gen + 1) % 256 }, attempt := 2, since := s.time.gtime, stuck := false }) s.link.pend := by
  have hsends := s.onlySends_post { e.p with gen := (e.p.gen + 1) % 256 }
  have hpend := s.pend_post { e.p with gen := (e.p.gen + 1) % 256 }
  refine ⟨_, if_pos (.inl hok), onlySends_trans hsends (onlySends_link _ _), ?_⟩
  exact congrArg _ hpend

theorem secondAttempt_work {s : State} {e : Pend} {m : WorkMsg} (hm : e.p.body = .work m) : s.secondAttempt e = s.again e := by
  simp only [secondAttempt, hm]

end State

/-- Settles O30: what an acknowledgement and a timeout do to an unacknowledged write. -/
theorem acknowledgements : Obligations.Acknowledgements := by
  unfold Obligations.Acknowledgements
  intro s dst tag gen result hserv
  refine ⟨State.exec_ack_noStatus hserv, State.exec_ack_late hserv, fun e hr he => ?_, fun e he => ⟨fun hearly => ?_, fun hdue hstuck => ⟨fun hfirst => ?_, fun hsecond => ?_⟩, ?_⟩⟩
  · obtain ⟨hmem, hdst, htag, hgen⟩ := State.answers?_says he
    have hexec := State.exec_ack_retires hserv hr he
    refine ⟨hmem, hdst, htag, hgen, hexec, fun hsent => ⟨_, ?_, hexec⟩, fun hchorus hsent => ⟨_, ?_, hexec⟩⟩
    · exact State.onlySends_trans (State.onlySends_drainAll hsent _) (State.onlySends_settleOwed _)
    · rw [State.answered_chorus _ hchorus]
      have hothers : s.onlySends { s with link := { s.link with pend := s.link.pend.filter (· != e) } } := s.onlySends_link _
      have hall : ({ s with link := { s.link with pend := s.link.pend.filter (· != e) } } : State).allSent dst :=
        fun x hx => hsent x (List.mem_filter.mp hx).1
      exact State.onlySends_trans (State.onlySends_trans hothers (State.onlySends_retireWrite _ e))
        (State.onlySends_trans (State.onlySends_drainAll (.inl (State.allSent_retireWrite hall e)) _) (State.onlySends_settleOwed _))
  · refine exec_whenServing hserv rfl ?_
    simp [he, State.reached_of_lt hearly]
  · refine exec_whenServing hserv rfl ?_
    simp [he, State.reached_of_le hdue, hstuck, hfirst]
  · refine exec_whenServing hserv rfl ?_
    simp [he, State.reached_of_le hdue, hstuck, hsecond]
  · intro m hm hreach
    have hdst := State.pend?_dst he
    rw [State.secondAttempt_work hm]
    refine State.again_says ?_
    rcases hreach with hown | hreach
    · exact State.post_own (by rw [hdst, hown])
    · exact (s.post_reaches _ (by rw [hdst, hm]; exact hreach)).1

end Sys2Proof.Machine

/-! Feed frames and the records of a stream (R198 to R209): what settles O31. -/

namespace Sys2Proof.Machine

namespace State

/-! ## Streams, ports and what is sent to a producer -/

theorem strms_modStrm {s : State} {i : Nat} {x : Strm} (hx : s.strms[i]? = some x) (f : Strm → Strm) : (s.modStrm i f).strms[i]? = some (f x) := by
  simp [hx]

theorem strms_modStrm_ne (s : State) {i j : Nat} (hj : j ≠ i) (f : Strm → Strm) : (s.modStrm i f).strms[j]? = s.strms[j]? := by
  simp [Ne.symm hj]

theorem strm_of_some {s : State} {i : Nat} {x : Strm} (hx : s.strms[i]? = some x) : s.strm i = x := by rw [strm, hx]; rfl

theorem fport_modFPort {s : State} {p : Nat} (hp : p < s.fports.length) (f : FPort → FPort) : (s.modFPort p f).fport p = f (s.fport p) := by
  simp [fport, hp]

/-- Frames: what is sent, now or after a pause. -/
def frames (s t : State) : State := { s with net := t.net, regs := t.regs, out := t.out }

theorem within_sendFrame (s : State) (p : Nat) (o : Out) : s.within events (s.sendFrame p o) := rfl

theorem within_sendPrio (s : State) (p prio : Nat) (o : Out) : s.within frames (s.sendPrio p prio o) := by
  unfold sendPrio
  split
  · exact within_refl s
  · split
    · rfl
    · exact within_mono (s.within_sendFrame p o)

theorem within_toProducer (s : State) (i : Nat) (b : Bytes) : s.within frames (s.toProducer i b) := s.within_sendPrio _ _ _

theorem within_feedNack (s : State) (i : Nat) (lost : Bool) (first last : Word) : s.within frames (s.feedNack i lost first last) := by
  unfold feedNack
  dsimp only
  split
  · exact within_refl s
  · exact s.within_toProducer i _

/-- An ACK notes its fields in its stream, and is sent to the producer. -/
theorem feedAck_says (s : State) (i : Nat) : (s.modStrm i (fun x => { x with lastAck := s.ackFields i })).within frames (s.feedAck i) := by
  unfold feedAck
  dsimp only
  split
  · exact within_refl _
  · exact within_toProducer _ i _

/-- A NACK of the open gap notes its time in its stream, and is sent to the producer. -/
theorem nackGap_says (s : State) (i : Nat) : (s.modStrm i (fun x => { x with nackAt := some s.time.gtime })).within frames (s.nackGap i) :=
  within_feedNack _ i _ _ _

/-! ## The ingest queue -/

/-- Ports of the feed, and events. -/
def feedPorts (s t : State) : State := { s with fports := t.fports, regs := t.regs, out := t.out }

theorem within_pauseOn (s : State) (p : Nat) : s.within feedPorts (s.pauseOn p) := by
  unfold pauseOn
  split
  · exact within_refl s
  · rfl

theorem queue_modFPort (s : State) (p q : Nat) (f : FPort → FPort) (hf : ∀ x, (f x).queue = x.queue) :
    ((s.modFPort p f).fport q).queue = (s.fport q).queue := by
  simp only [fport, modFPort_fports, List.getElem?_modify]
  cases s.fports[q]? with
  | none => rfl
  | some x =>
    by_cases h : p = q
    · simp [h, hf]
    · simp [h]

theorem queue_pauseOn (s : State) (p q : Nat) : ((s.pauseOn p).fport q).queue = (s.fport q).queue := by
  unfold pauseOn
  split
  · rfl
  · exact queue_modFPort s p q _ fun _ => rfl

/-- Streams, ports of the feed, and events. -/
def feed (s t : State) : State := { s with strms := t.strms, fports := t.fports, regs := t.regs, out := t.out }

/-- A record enters the queue of its port, in its place in its stream. -/
theorem enqueue_says {s : State} {p i : Nat} {x : Strm} (hx : s.strms[i]? = some x) (hp : p < s.fports.length) (r : DeltaRec) (bytes : Nat) :
    s.within feed (s.enqueue p i r bytes) ∧ (s.enqueue p i r bytes).strms = (s.modStrm i fun x => { x with queued := x.queued + 1 }).strms
      ∧ ((s.enqueue p i r bytes).fport p).queue = (s.fport p).queue ++ [⟨i, x.queued, r, bytes, s.time.gtime⟩] := by
  have hqueue := congrArg FPort.queue
    (fport_modFPort hp fun f : FPort => { f with queue := f.queue ++ [⟨i, (s.strm i).queued, r, bytes, s.time.gtime⟩] })
  rw [strm_of_some hx] at hqueue
  unfold enqueue
  rw [strm_of_some hx]
  dsimp only
  split
  · generalize hu : (s.modFPort p fun f => { f with queue := f.queue ++ [⟨i, x.queued, r, bytes, s.time.gtime⟩] }).modStrm i
      (fun x => { x with queued := x.queued + 1 }) = u
    have hin : s.within feed u := by rw [← hu]; rfl
    have hpause := u.within_pauseOn p
    refine ⟨within_trans hin (within_mono hpause), ?_, (queue_pauseOn u p p).trans (by rw [← hu]; exact hqueue)⟩
    rw [hpause, ← hu]
    rfl
  · exact ⟨rfl, rfl, hqueue⟩

/-! ## The records of an active stream (R208) -/

section
variable {s : State} {p i : Nat} {r : DeltaRec} {bytes : Nat} {x : Strm} (hx : s.strms[i]? = some x)
include hx

theorem feedRecord_fits (hroom : x.next.toNat < r.seq.toNat → s.holdBytes p + bytes ≤ s.holdSize p) :
    s.feedRecord p i r bytes = s.takeRecord p i r bytes := by
  unfold feedRecord
  rw [strm_of_some hx]
  refine if_neg ?_
  rintro ⟨hahead, hfull⟩
  simp only [Bool.and_eq_true, decide_eq_true_eq] at hahead
  exact absurd (hroom hahead.1) (Nat.not_le.mpr hfull)

theorem feedRecord_duplicate (hold : r.seq.toNat < x.next.toNat) :
    s.feedRecord p i r bytes = s.modStrm i (fun x => { x with dup := x.dup + 1 }) := by
  rw [feedRecord_fits hx fun h => absurd h (by omega), takeRecord, strm_of_some hx]
  exact if_pos (.inl hold)

theorem advance_empty (hheld : x.held = []) : s.advance i = s.modStrm i (fun x => { x with gap := none }) := by
  simp [advance, strm_of_some hx, hheld, absorb]

theorem feedRecord_next (hnext : r.seq = x.next) (hheld : x.held = []) (hp : p < s.fports.length) :
    (s.feedRecord p i r bytes).strms[i]? = some { x with next := x.next + 1, queued := x.queued + 1, gap := none }
      ∧ (∀ j, j ≠ i → (s.feedRecord p i r bytes).strms[j]? = s.strms[j]?)
      ∧ ((s.feedRecord p i r bytes).fport p).queue = (s.fport p).queue ++ [⟨i, x.queued, r, bytes, s.time.gtime⟩]
      ∧ s.within feed (s.feedRecord p i r bytes) := by
  obtain ⟨hframe, hstrms, hqueue⟩ := enqueue_says hx hp r bytes
  have hin : (s.enqueue p i r bytes).strms[i]? = some { x with queued := x.queued + 1 } := by rw [hstrms]; exact strms_modStrm hx _
  have hmoved := strms_modStrm hin fun x => { x with next := x.next + 1 }
  have hrec : s.feedRecord p i r bytes = ((s.enqueue p i r bytes).modStrm i fun x => { x with next := x.next + 1 }).modStrm i fun x => { x with gap := none } := by
    rw [feedRecord_fits hx fun h => absurd h (by rw [hnext]; omega), takeRecord, strm_of_some hx, ← advance_empty hmoved hheld]
    exact (if_neg (by simp [hnext, hheld])).trans (if_pos hnext)
  rw [hrec]
  refine ⟨strms_modStrm hmoved _, fun j hj => ?_, hqueue, within_trans hframe rfl⟩
  rw [strms_modStrm_ne _ hj, strms_modStrm_ne _ hj, hstrms, strms_modStrm_ne _ hj]

theorem feedRecord_ahead (hahead : x.next.toNat < r.seq.toNat) (hheld : x.held = []) (hroom : s.holdBytes p + bytes ≤ s.holdSize p) :
    ∃ y, (s.feedRecord p i r bytes).strms[i]? = some y ∧ y.next = x.next ∧ y.held = [(p, r, bytes)]
      ∧ y.gap = (if x.gap.isSome then x.gap else some s.time.gtime) ∧ (∀ j, j ≠ i → (s.feedRecord p i r bytes).strms[j]? = s.strms[j]?)
      ∧ s.within (fun s t => { s with strms := t.strms, regs := t.regs, out := t.out, net := t.net }) (s.feedRecord p i r bytes) := by
  have hne : r.seq ≠ x.next := fun h => by rw [h] at hahead; omega
  have hin := strms_modStrm hx fun x => { x with held := insertHeld (p, r, bytes) x.held }
  have hrec : s.feedRecord p i r bytes = if x.gap.isSome then s.modStrm i (fun x => { x with held := insertHeld (p, r, bytes) x.held })
      else ((s.modStrm i fun x => { x with held := insertHeld (p, r, bytes) x.held }).modStrm i fun x => { x with gap := some s.time.gtime }).nackGap i := by
    rw [feedRecord_fits hx fun _ => hroom, takeRecord, strm_of_some hx]
    refine (if_neg ?_).trans (if_neg hne)
    simp only [hheld, List.any_nil, Bool.false_eq_true, or_false]
    omega
  rw [hrec]
  split
  · exact ⟨_, hin, rfl, by rw [hheld]; rfl, rfl, fun j hj => s.strms_modStrm_ne hj _, rfl⟩
  · have hgap := strms_modStrm hin fun x => { x with gap := some s.time.gtime }
    have hnack := nackGap_says ((s.modStrm i fun x => { x with held := insertHeld (p, r, bytes) x.held }).modStrm i fun x => { x with gap := some s.time.gtime }) i
    generalize hu : (s.modStrm i fun x => { x with held := insertHeld (p, r, bytes) x.held }).modStrm i (fun x => { x with gap := some s.time.gtime }) = u at hgap hnack ⊢
    have hstrms : (u.nackGap i).strms = (u.modStrm i fun x => { x with nackAt := some u.time.gtime }).strms := by rw [hnack]; rfl
    have hnoted := strms_modStrm hgap fun x => { x with nackAt := some u.time.gtime }
    refine ⟨_, (congrArg (·[i]?) hstrms).trans hnoted, rfl, by rw [hheld]; rfl, rfl, fun j hj => ?_, ?_⟩
    · rw [hstrms, strms_modStrm_ne _ hj, ← hu, strms_modStrm_ne _ hj, strms_modStrm_ne _ hj]
    · refine within_trans ?_ (within_mono hnack)
      rw [← hu]
      rfl

end

/-! ## A frame at its port (R198, R201, R204, R207) -/

/-- A frame reaches a port of the feed: the address, size and tag checks of R513. -/
def takesFrame (s : State) (f : FeedFrame) : Prop :=
  f.eth.len ≤ 9216 ∧ (match f.eth.tag with
      | some vid => vid = s.regF (Reg.NP_CTL f.port) 11 0
      | none => s.regB (Reg.NP_CTL f.port) 29 = false)
    ∧ f.eth.fragment = false ∧ f.eth.options = false ∧ f.eth.dstAddr = s.portAddr f.port f.v6

theorem frameOk_iff (s : State) (p len : Nat) (tag : Option Nat) : s.frameOk p len tag = true ↔ len ≤ 9216 ∧ (match tag with
    | some vid => vid = s.regF (Reg.NP_CTL p) 11 0
    | none => s.regB (Reg.NP_CTL p) 29 = false) := by
  unfold frameOk
  cases tag <;> simp

theorem takesFrame_iff (s : State) (f : FeedFrame) : s.takesFrame f ↔ ¬(!s.frameOk f.port f.eth.len f.eth.tag ∨ f.eth.fragment ∨ f.eth.options
    ∨ f.eth.dstAddr ≠ s.portAddr f.port f.v6) := by
  have hok := s.frameOk_iff f.port f.eth.len f.eth.tag
  unfold takesFrame
  simp only [not_or, Bool.not_eq_true', Bool.not_eq_false, Bool.not_eq_true, ne_eq, Classical.not_not]
  rw [← and_assoc, ← hok]

/-- What becomes of a frame for the port once it is taken: the branches after R201. -/
def feedTaken (u : State) (f : FeedFrame) : State :=
  if f.dstPort ≠ u.regF Reg.FEED_CTL 15 0 then u.dropFrame f.port
  else if (u.fport f.port).st = .off ∨ (u.fport f.port).st = .starting then u.count (Reg.FEED_PORT_UNBOUND f.port) 1
  else if 2 ^ 24 < u.holdSize f.port + (u.fport f.port).bytes + f.payload.length then
    (u.count (Reg.FEED_PORT_OVERRUN f.port) 1).latch Reg.FEED_STATUS 1
  else if feedBad f then u.count (Reg.FEED_PORT_BAD f.port) 1
  else
    match u.strmFor (rd f.payload 4 2) f.port with
    | none => u.count (Reg.FEED_PORT_UNBOUND f.port) 1
    | some i =>
      let s1 := u.noteSource i f
      let seq := BitVec.ofNat 64 (rd f.payload 8 8)
      if rd f.payload 3 1 = 1 then (s1.resync i seq).feedAck i
      else if !(s1.strm i).active then (s1.count (Reg.FEED_PORT_UNBOUND f.port) 1).feedAck i
      else (s1.count (Reg.FEED_PORT_FRAMES f.port) 1).feedRecords f.port i (rd f.payload 4 2) seq (f.payload.drop 32) (rd f.payload 6 2)

section
variable {s : State} {f : FeedFrame} (hport : f.port < 2) (hon : s.npOn f.port = true)
include hport hon

theorem feedFrame_badFcs (hfcs : f.eth.fcsOk = false) : s.feedFrame f = s.count (Reg.NP_FCS_ERR f.port) 1 := by
  simp [feedFrame, rxUdp, hon, npExists, hport, hfcs]

theorem feedFrame_notTaken (hfcs : f.eth.fcsOk = true) (h : ¬s.takesFrame f) : s.feedFrame f = (s.rxFrame f.port).count (Reg.NP_RX_DROP f.port) 1 := by
  rw [takesFrame_iff, Classical.not_not] at h
  have hexists : ¬(!s.npOn f.port ∨ !s.npExists f.port) := by simp [hon, npExists, hport]
  rw [feedFrame, rxUdp, if_neg hexists, if_neg (by simp [hfcs])]
  exact if_pos h

theorem feedFrame_taken (hecc : f.ecc = .good) (hfcs : f.eth.fcsOk = true) (h : s.takesFrame f) : s.feedFrame f = (s.rxFrame f.port).feedTaken f := by
  rw [takesFrame_iff] at h
  have hexists : ¬(!s.npOn f.port ∨ !s.npExists f.port) := by simp [hon, npExists, hport]
  have hfcs' : ¬(!f.eth.fcsOk) = true := by simp [hfcs]
  have hport' : ¬2 ≤ f.port := by omega
  simp only [feedFrame, rxUdp, if_neg hexists, if_neg hfcs', if_neg h, if_neg hport', hecc, sramRead, Bool.false_eq_true, if_false]
  rfl

end

section
variable {u : State} {f : FeedFrame} (hdst : f.dstPort = u.regF Reg.FEED_CTL 15 0)
include hdst

theorem feedTaken_off (hst : (u.fport f.port).st = .off ∨ (u.fport f.port).st = .starting) :
    u.feedTaken f = u.count (Reg.FEED_PORT_UNBOUND f.port) 1 := by
  rw [feedTaken, if_neg (by simp [hdst]), if_pos hst]

variable (hoff : (u.fport f.port).st ≠ .off) (hstart : (u.fport f.port).st ≠ .starting)
include hoff hstart

theorem feedTaken_excess (hex : 2 ^ 24 < u.holdSize f.port + (u.fport f.port).bytes + f.payload.length) :
    u.feedTaken f = (u.count (Reg.FEED_PORT_OVERRUN f.port) 1).latch Reg.FEED_STATUS 1 := by
  rw [feedTaken, if_neg (by simp [hdst]), if_neg (by simp [hoff, hstart]), if_pos hex]

variable (hfits : ¬2 ^ 24 < u.holdSize f.port + (u.fport f.port).bytes + f.payload.length)
include hfits

theorem feedTaken_bad (hbad : feedBad f = true) : u.feedTaken f = u.count (Reg.FEED_PORT_BAD f.port) 1 := by
  rw [feedTaken, if_neg (by simp [hdst]), if_neg (by simp [hoff, hstart]), if_neg hfits, if_pos hbad]

variable (hgood : feedBad f = false)
include hgood

theorem feedTaken_unbound (hstrm : u.strmFor (rd f.payload 4 2) f.port = none) : u.feedTaken f = u.count (Reg.FEED_PORT_UNBOUND f.port) 1 := by
  rw [feedTaken, if_neg (by simp [hdst]), if_neg (by simp [hoff, hstart]), if_neg hfits, if_neg (by simp [hgood]), hstrm]

variable {i : Nat} (hstrm : u.strmFor (rd f.payload 4 2) f.port = some i)
include hstrm

theorem feedTaken_resync (hkind : rd f.payload 3 1 = 1) :
    u.feedTaken f = ((u.noteSource i f).resync i (BitVec.ofNat 64 (rd f.payload 8 8))).feedAck i := by
  rw [feedTaken, if_neg (by simp [hdst]), if_neg (by simp [hoff, hstart]), if_neg hfits, if_neg (by simp [hgood]), hstrm]
  exact if_pos hkind

theorem feedTaken_data (hkind : rd f.payload 3 1 = 0) (hactive : (u.strm i).active = true) :
    u.feedTaken f = ((u.noteSource i f).count (Reg.FEED_PORT_FRAMES f.port) 1).feedRecords f.port i (rd f.payload 4 2)
      (BitVec.ofNat 64 (rd f.payload 8 8)) (f.payload.drop 32) (rd f.payload 6 2) := by
  have hnoted : ((u.noteSource i f).strm i).active = true := by
    unfold strm at hactive ⊢
    rw [noteSource, modStrm_strms]
    cases hx : u.strms[i]? with
    | none => simp [hx] at hactive ⊢; exact hactive
    | some x => simpa [hx] using hactive
  rw [feedTaken, if_neg (by simp [hdst]), if_neg (by simp [hoff, hstart]), if_neg hfits, if_neg (by simp [hgood]), hstrm]
  exact (if_neg (by simp [hkind])).trans (if_neg (by simp [hnoted]))

end

/-- A RESYNC changes its stream alone, which is then active at its number with nothing held. -/
theorem resync_says {s : State} {i : Nat} {x : Strm} (hx : s.strms[i]? = some x) (seq : Word) :
    ∃ y, (s.resync i seq).strms[i]? = some y ∧ y.next = seq ∧ y.active = true ∧ y.held = [] ∧ y.gap = none ∧ y.flight = x.flight ∧ y.dup = x.dup := by
  have hdrop := strms_modStrm hx fun x => { x with held := [], gap := none }
  exact ⟨_, strms_modStrm hdrop _, rfl, rfl, rfl, rfl, rfl, rfl⟩

/-- Streams and frames. -/
def producers (s t : State) : State := { s with strms := t.strms, net := t.net, regs := t.regs, out := t.out }

theorem within_feedAck (s : State) (i : Nat) : s.within producers (s.feedAck i) := by
  have h := s.feedAck_says i
  refine within_trans (t := s.modStrm i fun x => { x with lastAck := s.ackFields i }) rfl (within_mono h)

theorem strms_feedAck (s : State) (i : Nat) : (s.feedAck i).strms = (s.modStrm i fun x => { x with lastAck := s.ackFields i }).strms := by
  rw [s.feedAck_says i]
  rfl

/-- A RESYNC makes its stream active at its number, with nothing held, and is acknowledged. -/
theorem feedAck_resync_says {s : State} {i : Nat} {x : Strm} (hx : s.strms[i]? = some x) (f : FeedFrame) (seq : Word) :
    ∃ y, (((s.noteSource i f).resync i seq).feedAck i).strms[i]? = some y ∧ y.next = seq ∧ y.active = true ∧ y.held = [] ∧ y.gap = none
      ∧ y.flight = x.flight ∧ y.dup = x.dup ∧ (∀ j, j ≠ i → (((s.noteSource i f).resync i seq).feedAck i).strms[j]? = s.strms[j]?)
      ∧ s.within producers (((s.noteSource i f).resync i seq).feedAck i) := by
  have hnoted : ∃ z, (s.noteSource i f).strms[i]? = some z ∧ z.flight = x.flight ∧ z.dup = x.dup := ⟨_, strms_modStrm hx _, rfl, rfl⟩
  have hsame : s.within producers ((s.noteSource i f).resync i seq) := rfl
  have hother : ∀ j, j ≠ i → ((s.noteSource i f).resync i seq).strms[j]? = s.strms[j]? := fun j hj => by
    simp only [resync, dropHeld, noteSource, strms_modStrm_ne _ hj]
  obtain ⟨z, hz, hflight, hdup⟩ := hnoted
  obtain ⟨w, hw, hnext, hactive, hheld, hgap, hwflight, hwdup⟩ := resync_says hz seq
  generalize (s.noteSource i f).resync i seq = u at hsame hother hw ⊢
  refine ⟨{ w with lastAck := u.ackFields i }, ?_, hnext, hactive, hheld, hgap, hwflight.trans hflight, hwdup.trans hdup, fun j hj => ?_,
    within_trans hsame (u.within_feedAck i)⟩
  · rw [strms_feedAck]
    exact strms_modStrm hw fun x => { x with lastAck := u.ackFields i }
  · rw [strms_feedAck, strms_modStrm_ne _ hj, hother j hj]

end State

/-- Settles O31: what a feed frame does by its checks and its kind, and a record by its number. -/
theorem feedFrames : Obligations.FeedFrames := by
  unfold Obligations.FeedFrames
  refine ⟨fun s f hserv hport hon hecc => ?_, fun s p i r bytes x hx hp => ⟨fun hold => ?_, fun hnext hheld => ?_, fun hahead hheld hroom => ?_⟩⟩
  · intro p u st tagged taken excess
    refine ⟨fun hfcs => exec_whenServing hserv rfl (State.feedFrame_badFcs hport hon hfcs),
      fun hfcs htaken => exec_whenServing hserv rfl (State.feedFrame_notTaken hport hon hfcs htaken), fun hfcs htaken hdst => ?_, fun hfcs htaken hdst => ?_⟩
    · refine exec_whenServing hserv rfl ((State.feedFrame_taken hport hon hecc hfcs htaken).trans (if_pos hdst))
    have hgo := State.feedFrame_taken hport hon hecc hfcs htaken
    have hdata {t : State} (ht : (s.rxFrame f.port).feedTaken f = t) : exec (.data f) s = .next t := exec_whenServing hserv rfl (hgo.trans ht)
    refine ⟨fun hst => hdata (State.feedTaken_off hdst hst), fun hoff hstart hex => hdata (State.feedTaken_excess hdst hoff hstart hex),
      fun hoff hstart hfits hbad => hdata (State.feedTaken_bad hdst hoff hstart hfits hbad),
      fun hoff hstart hfits hgood hnone => hdata (State.feedTaken_unbound hdst hoff hstart hfits hgood hnone),
      fun i hoff hstart hfits hgood hsome hkind hactive => hdata (State.feedTaken_data hdst hoff hstart hfits hgood hsome hkind hactive),
      fun i x hoff hstart hfits hgood hsome hkind hx => ?_⟩
    have hresync := State.feedTaken_resync hdst hoff hstart hfits hgood hsome hkind
    obtain ⟨y, hy, hnext, hact, hheld, hgap, hflight, hdup, hother, hframe⟩ :=
      State.feedAck_resync_says (s := s.rxFrame p) hx f (BitVec.ofNat 64 (rd f.payload 8 8))
    rw [← hresync] at hy hother hframe
    generalize (s.rxFrame f.port).feedTaken f = v at hgo hy hother hframe
    have hsettle := v.onlySends_settleOwed
    have hstrms : v.settleOwed.strms = v.strms := by rw [hsettle.1]
    refine ⟨v.settleOwed, y, exec_whenServing hserv rfl (congrArg State.settleOwed hgo), by rw [hstrms]; exact hy, hnext, hact, hheld, hgap, hflight, hdup,
      fun j hj => by rw [hstrms]; exact hother j hj, ?_⟩
    exact State.within_trans (take := fun s t => { s with strms := t.strms, regs := t.regs, out := t.out, link := t.link, net := t.net })
      (State.within_trans (t := s.rxFrame p) rfl (State.within_mono hframe)) (State.within_mono hsettle.within)
  · rw [State.feedRecord_duplicate hx hold]
    exact ⟨_, rfl, rfl, State.strms_modStrm hx _, fun j hj => s.strms_modStrm_ne hj _⟩
  · obtain ⟨hstrm, hother, hqueue, hframe⟩ := State.feedRecord_next (r := r) (bytes := bytes) hx hnext hheld hp
    exact ⟨_, rfl, hstrm, hother, hqueue, hframe⟩
  · obtain ⟨y, hy, hnext, hyheld, hgap, hother, hframe⟩ := State.feedRecord_ahead hx hahead hheld hroom
    exact ⟨_, y, rfl, hy, hnext, hyheld, hgap, hother, hframe⟩

end Sys2Proof.Machine

/-! Records that leave the ingest queue, gaps, and what is sent to a producer (R200, R205 to R212): what settles O32. -/

namespace Sys2Proof.Machine

namespace State

/-! ## What ingest leaves alone -/

/-- Streams, links and events: what the ingest of a record can change. -/
def intake (s t : State) : State := { s with strms := t.strms, link := t.link, regs := t.regs, out := t.out }

/-- From s to t only entry `i` of the streams has changed, to `y`. -/
structure movesStrm (s t : State) (i : Nat) (y : Strm) : Prop where
  entry : t.strms[i]? = some y
  others : ∀ j, j ≠ i → t.strms[j]? = s.strms[j]?

theorem movesStrm_modStrm {s : State} {i : Nat} {x : Strm} (hx : s.strms[i]? = some x) (f : Strm → Strm) : s.movesStrm (s.modStrm i f) i (f x) :=
  ⟨strms_modStrm hx f, fun _ hj => s.strms_modStrm_ne hj f⟩

theorem movesStrm_congr {s t u : State} {i : Nat} {y : Strm} (h : s.movesStrm t i y) (hu : u.strms = t.strms) : s.movesStrm u i y := by
  exact ⟨hu ▸ h.entry, hu ▸ h.others⟩

theorem movesStrm_trans {s t u : State} {i : Nat} {y z : Strm} (h : s.movesStrm t i y) (h' : t.movesStrm u i z) : s.movesStrm u i z :=
  ⟨h'.1, fun j hj => (h'.2 j hj).trans (h.2 j hj)⟩

/-! ## A record is ingested (R210, R211, R226) -/

/-- A discarded record is counted by its status. -/
theorem discard_says {s : State} {i : Nat} {x : Strm} (hx : s.strms[i]? = some x) (st : Nat) :
    ∃ y, s.movesStrm (s.discard i st) i y ∧ y.forwards = x.forwards
      ∧ (st = ST_FD_NO_TABLE → y = { x with discards := x.discards + 1, lastDisc := ST_FD_NO_TABLE, noTable := x.noTable + 1 }) := by
  refine ⟨_, movesStrm_congr (movesStrm_modStrm hx _) (latch_strms _ _ _), ?_, ?_⟩
  · dsimp only
    repeat' split
    all_goals rfl
  · rintro rfl
    rfl

theorem within_discard (s : State) (i st : Nat) : s.within intake (s.discard i st) := by
  unfold discard
  generalize hu : s.modStrm i _ = u
  have hin : s.within intake u := by rw [← hu]; rfl
  exact within_trans hin (within_mono (u.within_latch Reg.FEED_STATUS 3))

theorem ingest_mark (s : State) (i : Nat) {r : DeltaRec} (hop : r.op = 6) :
    s.ingest i r = if markOk r then s.modStrm i (fun x => { x with marks := x.marks ++ [r.seq] }) else s.discard i ST_FD_BAD_OP := by
  rw [ingest, if_pos hop]

/-- A record that is no MARK is discarded, or is in flight to its apply point. -/
theorem ingest_record (s : State) (i : Nat) {r : DeltaRec} (hop : r.op ≠ 6) :
    (∃ st, s.ingest i r = s.discard i st)
      ∨ ∃ l f, s.ingest i r = (s.sendWrite 0 l (.delta r) none (some (i, r.seq))).2.modStrm i (fun x => { x with flight := x.flight ++ [f] })
          ∧ f.seq = r.seq ∧ f.handle = r.handle ∧ f.row = r.row := by
  rw [ingest, if_neg hop]
  split
  next st _ => exact .inl ⟨st, rfl⟩
  next t _ =>
    split
    · exact .inl ⟨_, rfl⟩
    next l _ => exact .inr ⟨l, _, rfl, rfl, rfl, rfl⟩

theorem ingest_noTable {s : State} (i : Nat) {r : DeltaRec} (hop : r.op ≠ 6) (ht : s.table? r.handle = none) :
    s.ingest i r = s.discard i ST_FD_NO_TABLE := by
  have hstatus : s.recordStatus r = (ST_FD_NO_TABLE, none) := by rw [recordStatus, ht]
  rw [ingest, if_neg hop, hstatus]

theorem ingest_applied {s : State} (i : Nat) {r : DeltaRec} {t : Table} {l : Nat} (hop : r.op ≠ 6) (hst : s.recordStatus r = (ST_OK, some t))
    (hl : s.applyPoint 0 t t.vslot r.row = some l) :
    ∃ f : Flight, s.ingest i r = (s.sendWrite 0 l (.delta r) none (some (i, r.seq))).2.modStrm i (fun x => { x with flight := x.flight ++ [f] })
      ∧ f.seq = r.seq ∧ f.handle = r.handle ∧ f.row = r.row := by
  simp only [ingest, if_neg hop, hst, hl]
  exact ⟨_, rfl, rfl, rfl, rfl⟩

theorem movesStrm_sent {s : State} {i : Nat} {x : Strm} (hx : s.strms[i]? = some x) (l : Nat) (b : Payload) (c : Option (Nat × Word)) (f : Strm → Strm) :
    s.movesStrm ((s.sendWrite 0 l b none c).2.modStrm i f) i (f x) := by
  have hstrms : (s.sendWrite 0 l b none c).2.strms = s.strms := by rw [(s.onlySends_sendWrite 0 l b none c).1]
  refine movesStrm_congr (movesStrm_modStrm hx f) ?_
  rw [modStrm_strms, hstrms, modStrm_strms]

theorem within_sent (s : State) (i l : Nat) (b : Payload) (c : Option (Nat × Word)) (f : Strm → Strm) :
    s.within intake ((s.sendWrite 0 l b none c).2.modStrm i f) := by
  have h : s.within intake (s.sendWrite 0 l b none c).2 := within_mono (s.onlySends_sendWrite 0 l b none c).within
  exact within_trans h rfl

theorem within_ingest (s : State) (i : Nat) (r : DeltaRec) : s.within intake (s.ingest i r) := by
  by_cases hop : r.op = 6
  · rw [ingest_mark s i hop]
    split
    · rfl
    · exact s.within_discard i _
  · rcases s.ingest_record i hop with ⟨st, h⟩ | ⟨l, f, h, -⟩
    · rw [h]
      exact s.within_discard i st
    · rw [h]
      exact s.within_sent i l _ _ _

/-- What ingest makes of the entry of a record's stream. -/
theorem ingest_says {s : State} {i : Nat} {x : Strm} (hx : s.strms[i]? = some x) (r : DeltaRec) :
    ∃ y, s.movesStrm (s.ingest i r) i y ∧ y.forwards = x.forwards
      ∧ (r.op = 6 → markOk r = true → y = { x with marks := x.marks ++ [r.seq] })
      ∧ (r.op ≠ 6 → s.table? r.handle = none → y = { x with discards := x.discards + 1, lastDisc := ST_FD_NO_TABLE, noTable := x.noTable + 1 })
      ∧ (∀ t l, r.op ≠ 6 → s.recordStatus r = (ST_OK, some t) → s.applyPoint 0 t t.vslot r.row = some l →
          ∃ f : Flight, y = { x with flight := x.flight ++ [f] } ∧ f.seq = r.seq ∧ f.handle = r.handle ∧ f.row = r.row) := by
  by_cases hop : r.op = 6
  · have hother {p : Prop} : r.op ≠ 6 → p := fun h => absurd hop h
    rw [ingest_mark s i hop]
    by_cases hmark : markOk r = true
    · rw [if_pos hmark]
      exact ⟨_, movesStrm_modStrm hx _, rfl, fun _ _ => rfl, hother, fun _ _ => hother⟩
    · rw [if_neg hmark]
      obtain ⟨y, hy, hfwd, -⟩ := discard_says hx ST_FD_BAD_OP
      exact ⟨y, hy, hfwd, fun _ h => absurd h hmark, hother, fun _ _ => hother⟩
  · have hmark {p : Prop} : r.op = 6 → p := fun h => absurd h hop
    by_cases hnone : s.table? r.handle = none
    · obtain ⟨y, hy, hfwd, hcounted⟩ := discard_says hx ST_FD_NO_TABLE
      rw [ingest_noTable i hop hnone]
      refine ⟨y, hy, hfwd, hmark, fun _ _ => hcounted rfl, fun t l _ hst _ => ?_⟩
      rw [recordStatus, hnone] at hst
      cases hst
    · by_cases happ : ∃ t l, s.recordStatus r = (ST_OK, some t) ∧ s.applyPoint 0 t t.vslot r.row = some l
      · obtain ⟨t, l, hst, hl⟩ := happ
        obtain ⟨f, hgo, hf⟩ := ingest_applied i hop hst hl
        rw [hgo]
        exact ⟨_, movesStrm_sent hx _ _ _ _, rfl, hmark, fun _ h => absurd h hnone, fun _ _ _ _ _ => ⟨f, rfl, hf⟩⟩
      · have hno {p : Prop} (t : Table) (l : Nat) : r.op ≠ 6 → s.recordStatus r = (ST_OK, some t) → s.applyPoint 0 t t.vslot r.row = some l → p :=
          fun _ hst hl => absurd ⟨t, l, hst, hl⟩ happ
        rcases s.ingest_record i hop with ⟨st, h⟩ | ⟨l, f, h, -⟩
        · obtain ⟨y, hy, hfwd, -⟩ := discard_says hx st
          rw [h]
          exact ⟨y, hy, hfwd, hmark, fun _ h => absurd h hnone, hno⟩
        · rw [h]
          exact ⟨_, movesStrm_sent hx _ _ _ _, rfl, hmark, fun _ h => absurd h hnone, hno⟩

/-! ## A record leaves its queue (R212) -/

theorem within_pauseOff (s : State) (p : Nat) : s.within feedPorts (s.pauseOff p) := by
  unfold pauseOff
  split
  · rfl
  · exact within_refl s

theorem queue_pauseOff (s : State) (p q : Nat) : ((s.pauseOff p).fport q).queue = (s.fport q).queue := by
  unfold pauseOff
  split
  · exact queue_modFPort s p q _ fun _ => rfl
  · rfl

/-- The part when the first record of a port's queue has left it: QDELAY notes its wait, and a pause that is not needed ends. -/
def unqueued (s : State) (port : Nat) (q : QRec) (rest : List QRec) : State :=
  let s1 := s.modFPort port (fun f => { f with queue := rest })
  let wait := (s.now - q.at_.toNat) / 4
  let s2 := if s1.regN (Reg.FEED_PORT_QDELAY port) < wait then s1.setRegN (Reg.FEED_PORT_QDELAY port) wait else s1
  if (s2.fport port).st ≠ .stopping ∧ (s2.fport port).bytes + 1048576 < s2.xoffBytes port then s2.pauseOff port else s2

theorem unqueued_says {s : State} {port : Nat} {q : QRec} {rest : List QRec} (hq : (s.fport port).queue = q :: rest) :
    s.within feedPorts (s.unqueued port q rest) ∧ ((s.unqueued port q rest).fport port).queue = rest := by
  have hport : port < s.fports.length := by
    refine Classical.byContradiction fun h => ?_
    rw [fport, List.getElem?_eq_none (Nat.not_lt.mp h)] at hq
    cases hq
  have hleft := congrArg FPort.queue (fport_modFPort hport fun f : FPort => { f with queue := rest })
  unfold unqueued
  dsimp only
  generalize hu : (if (s.modFPort port fun f => { f with queue := rest }).regN (Reg.FEED_PORT_QDELAY port) < (s.now - q.at_.toNat) / 4
      then (s.modFPort port fun f => { f with queue := rest }).setRegN (Reg.FEED_PORT_QDELAY port) ((s.now - q.at_.toNat) / 4)
      else s.modFPort port fun f => { f with queue := rest }) = u
  have hin : s.within feedPorts u ∧ (u.fport port).queue = rest := by
    rw [← hu]
    split
    · exact ⟨rfl, hleft⟩
    · exact ⟨rfl, hleft⟩
  split
  · exact ⟨within_trans hin.1 (u.within_pauseOff port), (queue_pauseOff u port port).trans hin.2⟩
  · exact hin

section
variable {s : State} {port : Nat} (hserv : s.serving = true)
include hserv

theorem exec_recordIngested {q : QRec} {rest : List QRec} (hq : (s.fport port).queue = q :: rest) (hturn : s.outOfTurn q = false)
    (hmay : s.mayIngest q.idx q.r = true) :
    exec (.recordIngested port) s = .next (((s.unqueued port q rest).ingest q.idx q.r).toTwin q.idx q.r).settleOwed := by
  refine exec_whenServing hserv rfl ?_
  simp only [hq, hturn, hmay, Bool.false_eq_true, Bool.not_true, or_self, if_false]
  rfl

theorem exec_recordIngested_waits {q : QRec} {rest : List QRec} (hq : (s.fport port).queue = q :: rest)
    (h : s.outOfTurn q = true ∨ s.mayIngest q.idx q.r = false) : exec (.recordIngested port) s = .next s := by
  refine exec_whenServing hserv rfl ?_
  simp only [hq]
  exact if_pos (h.imp_right fun hmay => by rw [hmay]; rfl)

theorem exec_recordIngested_empty (hq : (s.fport port).queue = []) : exec (.recordIngested port) s = .next s := by
  refine exec_whenServing hserv rfl ?_
  simp only [hq]

end

theorem toTwin_off {s : State} {i : Nat} {x : Strm} (hx : s.strms[i]? = some x) (h : x.forwards = false) (r : DeltaRec) : s.toTwin i r = s := by
  rw [toTwin, strm_of_some hx, h]
  rfl

/-- A record whose turn it is leaves its queue and is ingested. -/
theorem exec_recordIngested_says {s : State} {port : Nat} {q : QRec} {rest : List QRec} {x : Strm} (hserv : s.serving = true)
    (hq : (s.fport port).queue = q :: rest) (hturn : s.outOfTurn q = false) (hmay : s.mayIngest q.idx q.r = true) (hx : s.strms[q.idx]? = some x)
    (hfwd : x.forwards = false) :
    ∃ t y, exec (.recordIngested port) s = .next t ∧ (t.fport port).queue = rest ∧ s.movesStrm t q.idx y
      ∧ (q.r.op = 6 → markOk q.r = true → y = { x with marks := x.marks ++ [q.r.seq] })
      ∧ (q.r.op ≠ 6 → s.table? q.r.handle = none → y = { x with discards := x.discards + 1, lastDisc := ST_FD_NO_TABLE, noTable := x.noTable + 1 })
      ∧ (∀ t l, q.r.op ≠ 6 → s.recordStatus q.r = (ST_OK, some t) → s.applyPoint 0 t t.vslot q.r.row = some l →
          ∃ f : Flight, y = { x with flight := x.flight ++ [f] } ∧ f.seq = q.r.seq ∧ f.handle = q.r.handle ∧ f.row = q.r.row)
      ∧ s.within (fun s t => { s with strms := t.strms, fports := t.fports, link := t.link, regs := t.regs, out := t.out }) t := by
  obtain ⟨hleft, hqueue⟩ := unqueued_says hq
  have hexec := exec_recordIngested hserv hq hturn hmay
  generalize s.unqueued port q rest = u at hleft hqueue hexec
  have hstrms : u.strms = s.strms := by rw [hleft]; rfl
  have hxu : u.strms[q.idx]? = some x := by rw [hstrms, hx]
  have htable : u.table? q.r.handle = s.table? q.r.handle := by rw [hleft]; rfl
  have hstatus : u.recordStatus q.r = s.recordStatus q.r := by rw [hleft]; rfl
  have happly (t : Table) : u.applyPoint 0 t t.vslot q.r.row = s.applyPoint 0 t t.vslot q.r.row := by rw [hleft]; rfl
  obtain ⟨y, hy, hyfwd, hmark, hnone, hflight⟩ := ingest_says hxu q.r
  have hin := u.within_ingest q.idx q.r
  rw [toTwin_off hy.1 (hyfwd.trans hfwd)] at hexec
  generalize u.ingest q.idx q.r = v at hy hin hexec
  have hsettle := v.onlySends_settleOwed
  refine ⟨_, y, hexec, ?_, ⟨?_, fun j hj => ?_⟩, hmark, fun hop h => hnone hop (htable.trans h),
    fun t l hop hst hl => hflight t l hop (hstatus.trans hst) ((happly t).trans hl), within_trans (within_mono hleft)
      (within_trans (within_mono hin) (within_mono hsettle.within))⟩
  · rw [fport, show v.settleOwed.fports = u.fports by rw [hsettle.1, hin]; rfl]
    exact hqueue
  · rw [hsettle.1]
    exact hy.1
  · rw [hsettle.1, ← hstrms]
    exact hy.2 j hj

/-! ## XOFF, MARKs, ACKs, NACKs and gaps -/

section
variable {s : State} (hserv : s.serving = true)
include hserv

theorem exec_xoffRepeat {port : Nat} (hp : (s.fport port).paused = true) (hst : (s.fport port).st = .stopping)
    (hdue : s.elapsed (s.fport port).xoffAt (us 20) = true) :
    exec (.xoffRepeat port) s = .next ((s.modFPort port (fun f => { f with xoffAt := some s.time.gtime })).sendFrame port (.pfc port s.feedPrio 0xFFFF)) :=
  exec_whenServing hserv rfl (if_pos ⟨hp, .inl hst, hdue⟩)

theorem exec_xoffRepeat_running {port : Nat} (hp : (s.fport port).paused = false) : exec (.xoffRepeat port) s = .next s :=
  exec_whenServing hserv rfl (if_neg fun h => by rw [hp] at h; exact absurd h.1 Bool.false_ne_true)

theorem exec_markComplete {i : Nat} {x : Strm} {m : Word} {rest : List Word} (hx : s.strms[i]? = some x) (hm : x.marks = m :: rest)
    (hdone : (s.undone i).any (fun q => decide (q.toNat < m.toNat)) = false) :
    exec (.markComplete i) s = .next ((s.modStrm i (fun x => { x with marks := rest, mark := m })).feedAck i).settleOwed := by
  refine exec_whenServing hserv rfl ?_
  simp only [strm_of_some hx, hm]
  exact if_neg (by simp only [hdone, Bool.false_eq_true, not_false_eq_true])

theorem exec_gapDeclaredLost {i : Nat} {g : Word} (hg : (s.strm i).gap = some g) (hdue : g.toNat + us (s.strm i).gapUs ≤ s.time.gtime.toNat) :
    exec (.gapDeclaredLost i) s = .next (s.gapLost i) :=
  exec_whenServing hserv rfl (if_pos (by rw [hg]; exact reached_of_le hdue))

theorem exec_gapDeclaredLost_early {i : Nat} {g : Word} (hg : (s.strm i).gap = some g) (hearly : s.time.gtime.toNat < g.toNat + us (s.strm i).gapUs) :
    exec (.gapDeclaredLost i) s = .next s :=
  exec_whenServing hserv rfl (if_neg (by rw [hg, Option.any_some, reached_of_lt hearly]; exact Bool.false_ne_true))

theorem exec_sendAck {i : Nat} (hv : (s.strm i).valid = true) (hnew : s.ackFields i ≠ (s.strm i).lastAck)
    (hdue : s.elapsed (s.strm i).ackAt (us (s.strm i).ackUs) = true) :
    exec (.sendAck i) s = .next ((s.modStrm i (fun x => { x with ackAt := some s.time.gtime })).feedAck i) :=
  exec_whenServing hserv rfl (if_pos ⟨hv, hnew, hdue⟩)

theorem exec_sendAck_same {i : Nat} (hsame : s.ackFields i = (s.strm i).lastAck) : exec (.sendAck i) s = .next s :=
  exec_whenServing hserv rfl (if_neg fun h => h.2.1 hsame)

theorem exec_sendNack {i : Nat} (hgap : (s.strm i).gap.isSome = true) :
    exec (.sendNack i) s = .next (if s.elapsed (s.strm i).nackAt (us (s.strm i).nackUs) = true then s.nackGap i else s) := by
  refine exec_whenServing hserv rfl ?_
  simp only [hgap, true_and]

theorem exec_sendNack_noGap {i : Nat} (hgap : (s.strm i).gap = none) : exec (.sendNack i) s = .next s :=
  exec_whenServing hserv rfl (if_neg fun h => by rw [hgap] at h; exact absurd h.1 Bool.false_ne_true)

end

/-- The fields of a stream that its ACK is sent by. -/
theorem lastPort_modStrm (s : State) (i : Nat) (f : Strm → Strm) (hf : ∀ x, (f x).lastPort = x.lastPort) : ((s.modStrm i f).strm i).lastPort = (s.strm i).lastPort := by
  simp only [strm, modStrm_strms]
  cases h : s.strms[i]? with
  | none => simp [h]
  | some x => simp [h, hf]

theorem sendPrio_paused {s : State} {p prio : Nat} (hp : p < 2) (h : s.paused p prio = true) (o : Out) :
    (s.sendPrio p prio o).out = s.out ∧ (s.sendPrio p prio o).net.held.length = s.net.held.length + 1 := by
  rw [sendPrio, if_neg (by omega), if_pos (.inl h)]
  exact ⟨rfl, List.length_append⟩

theorem sendPrio_open {s : State} {p prio : Nat} (hp : p < 2) (h : s.paused p prio = false) (hheld : s.net.held = []) (o : Out) :
    (s.sendPrio p prio o).out.length = s.out.length + 1 ∧ (s.sendPrio p prio o).net = s.net := by
  rw [sendPrio, if_neg (by omega), if_neg (by simp [h, hheld])]
  exact ⟨List.length_append, rfl⟩

/-- Where an ACK goes: out, behind a pause, or, for a stream that its twin feeds, nowhere. -/
theorem feedAck_sent (s : State) (i : Nat) :
    ((s.strm i).lastPort < 2 → s.paused (s.strm i).lastPort s.feedPrio = false → s.net.held = [] →
        (s.feedAck i).out.length = s.out.length + 1 ∧ (s.feedAck i).net = s.net)
      ∧ ((s.strm i).lastPort < 2 → s.paused (s.strm i).lastPort s.feedPrio = true →
        (s.feedAck i).out = s.out ∧ (s.feedAck i).net.held.length = s.net.held.length + 1)
      ∧ (2 ≤ (s.strm i).lastPort → (s.feedAck i).out = s.out ∧ (s.feedAck i).net = s.net) := by
  have hport := s.lastPort_modStrm i (fun x => { x with lastAck := s.ackFields i }) fun _ => rfl
  have hack (hp : (s.strm i).lastPort < 2) : ∃ b, s.feedAck i = (s.modStrm i fun x => { x with lastAck := s.ackFields i }).toProducer i b :=
    ⟨_, if_neg (by omega)⟩
  refine ⟨fun hp hopen hheld => ?_, fun hp hpaused => ?_, fun hp => ?_⟩
  · obtain ⟨b, hb⟩ := hack hp
    rw [hb, toProducer, hport]
    exact sendPrio_open (s := s.modStrm i fun x => { x with lastAck := s.ackFields i }) hp hopen hheld _
  · obtain ⟨b, hb⟩ := hack hp
    rw [hb, toProducer, hport]
    exact sendPrio_paused (s := s.modStrm i fun x => { x with lastAck := s.ackFields i }) hp hpaused _
  · rw [feedAck, if_pos hp]
    exact ⟨rfl, rfl⟩

/-! ## The count of lost numbers (R209) -/

/-- GAP_LOST of entry `i`. -/
def gapCount (s : State) (i : Nat) : Option Word := (s.strms[i]?).map (·.gapLost)

theorem gapCount_congr {s t : State} (h : t.strms = s.strms) (i : Nat) : t.gapCount i = s.gapCount i := by rw [gapCount, gapCount, h]

theorem gapCount_modStrm (s : State) (i j : Nat) (f : Strm → Strm) (hf : ∀ x, (f x).gapLost = x.gapLost) :
    (s.modStrm i f).gapCount j = s.gapCount j := by
  simp only [gapCount, modStrm_strms, List.getElem?_modify]
  cases s.strms[j]? with
  | none => rfl
  | some x =>
    by_cases h : i = j
    · simp [h, hf]
    · simp [h]

theorem strms_pauseOn (s : State) (p : Nat) : (s.pauseOn p).strms = s.strms := by
  rw [s.within_pauseOn p]
  rfl

theorem gapCount_enqueue (s : State) (p i j : Nat) (r : DeltaRec) (bytes : Nat) : (s.enqueue p i r bytes).gapCount j = s.gapCount j := by
  have hqueued := (s.modFPort p fun f => { f with queue := f.queue ++ [⟨i, (s.strm i).queued, r, bytes, s.time.gtime⟩] }).gapCount_modStrm i j
    (fun x => { x with queued := x.queued + 1 }) fun _ => rfl
  unfold enqueue
  dsimp only
  split
  · exact (gapCount_congr (strms_pauseOn _ p) j).trans hqueued
  · exact hqueued

theorem gapCount_absorb (i j fuel : Nat) : ∀ s : State, (s.absorb i fuel).gapCount j = s.gapCount j := by
  induction fuel with
  | zero => exact fun _ => rfl
  | succ fuel ih =>
    intro s
    rw [absorb]
    split
    · rfl
    · split
      · simp only [ih, gapCount_modStrm, gapCount_enqueue, implies_true]
      · rfl

theorem gapCount_nackGap (s : State) (i j : Nat) : (s.nackGap i).gapCount j = s.gapCount j := by
  have hstrms : (s.nackGap i).strms = (s.modStrm i fun x => { x with nackAt := some s.time.gtime }).strms := by
    rw [s.nackGap_says i]
    rfl
  simp only [gapCount_congr hstrms, gapCount_modStrm, implies_true]

theorem gapCount_advance (s : State) (i j : Nat) : (s.advance i).gapCount j = s.gapCount j := by
  unfold advance
  dsimp only
  split
  · simp only [gapCount_modStrm, gapCount_absorb, implies_true]
  · split
    · simp only [gapCount_nackGap, gapCount_modStrm, gapCount_absorb, implies_true]
    · rw [gapCount_absorb]

/-- A gap that is declared lost adds its numbers to the count of its stream. -/
theorem gapCount_gapLost {s : State} {i : Nat} {x : Strm} {h : Nat × DeltaRec × Nat} {rest : List (Nat × DeltaRec × Nat)} (hx : s.strms[i]? = some x)
    (hgap : x.gap.isSome = true) (hheld : x.held = h :: rest) : (s.gapLost i).gapCount i = some (x.gapLost + (h.2.1.seq - x.next)) := by
  have hopen : ¬(x.gap.isNone ∨ x.held.isEmpty) := by simp [hheld, Option.isSome_iff_ne_none.mp hgap]
  have hspan : x.lowest - 1 - x.next + 1 = h.2.1.seq - x.next := by
    rw [show x.lowest = h.2.1.seq by rw [Strm.lowest, hheld]; rfl]
    bv_omega
  have hnack := s.within_feedNack i true x.next (x.lowest - 1)
  simp only [gapLost, strm_of_some hx, if_neg hopen, gapCount_advance]
  generalize s.feedNack i true x.next (x.lowest - 1) = u at hnack ⊢
  have hstrms : u.strms[i]? = some x := by rw [hnack]; exact hx
  rw [← hspan]
  refine congrArg (Option.map _) (strms_modStrm ?_ _)
  rw [latch_strms]
  exact hstrms

end State

/-- Settles O32: what leaves the ingest queue, and when XOFF, ACKs, NACKs and lost gaps are due. -/
theorem feedIngest : Obligations.FeedIngest := by
  unfold Obligations.FeedIngest
  refine ⟨fun s port hserv => ⟨fun q rest hq h => State.exec_recordIngested_waits hserv hq h, fun q rest x hq hturn hmay hx hfwd => ?_,
      State.exec_recordIngested_empty hserv, State.exec_xoffRepeat hserv, State.exec_xoffRepeat_running hserv, fun i x m rest hx hm hdone => ?_⟩,
    fun s i hserv => ⟨fun g => State.exec_gapDeclaredLost hserv, fun g => State.exec_gapDeclaredLost_early hserv, fun hv hnew hdue => ?_,
      State.exec_sendAck_same hserv, State.exec_sendNack hserv, State.exec_sendNack_noGap hserv, fun x h rest hx hgap hheld => ?_⟩⟩
  · obtain ⟨t, y, hexec, hqueue, hmoves, hmark, hnone, hflight, hframe⟩ := State.exec_recordIngested_says hserv hq hturn hmay hx hfwd
    exact ⟨t, y, hexec, hqueue, hmoves.1, hmoves.2, hmark, hnone, hflight, hframe⟩
  · have hexec := State.exec_markComplete hserv hx hm hdone
    have hmarked := State.movesStrm_modStrm hx fun x => { x with marks := rest, mark := m }
    have hin : s.within State.producers (s.modStrm i fun x => { x with marks := rest, mark := m }) := rfl
    generalize (s.modStrm i fun x => { x with marks := rest, mark := m }) = u at hexec hmarked hin
    have hacked := State.movesStrm_congr (State.movesStrm_trans hmarked (State.movesStrm_modStrm hmarked.1 fun x => { x with lastAck := u.ackFields i }))
      (u.strms_feedAck i)
    have hack := u.within_feedAck i
    generalize u.feedAck i = v at hexec hacked hack
    have hsettle := v.onlySends_settleOwed
    have hmoves := State.movesStrm_congr hacked (show v.settleOwed.strms = v.strms by rw [hsettle.1])
    exact ⟨_, _, hexec, hmoves.1, rfl, rfl, rfl, hmoves.2,
      State.within_trans (take := fun s t => { s with strms := t.strms, regs := t.regs, out := t.out, link := t.link, net := t.net })
        (State.within_mono (State.within_trans hin hack)) (State.within_mono hsettle.within)⟩
  · have hexec := State.exec_sendAck hserv hv hnew hdue
    have hport := s.lastPort_modStrm i (fun x => { x with ackAt := some s.time.gtime }) fun _ => rfl
    obtain ⟨hopen, hpaused, hnone⟩ := State.feedAck_sent (s.modStrm i fun x => { x with ackAt := some s.time.gtime }) i
    rw [hport] at hopen hpaused hnone
    refine ⟨_, hexec, State.within_trans (take := State.producers) (t := s.modStrm i fun x => { x with ackAt := some s.time.gtime }) rfl
      (State.within_feedAck _ i), fun j hj => ?_, hopen, hpaused, hnone⟩
    rw [State.strms_feedAck, State.strms_modStrm_ne _ hj, State.strms_modStrm_ne _ hj]
  · have hcount := State.gapCount_gapLost hx hgap hheld
    rw [State.gapCount, Option.map_eq_some_iff] at hcount
    exact hcount

end Sys2Proof.Machine

/-! Deltas, rows and records of the twin at the die they reach (R215, R219, R221 to R225): what settles O33. -/

namespace Sys2Proof.Machine

namespace State

theorem updaterFails_zero (s : State) (stack : Nat) (c : CheckNo) : s.updaterFails stack ⟨0, c⟩ = s := by
  simp [updaterFails]

theorem takeForward_idle {s : State} {h : WriteHdr} (f : RowForward) (hm : s.migs = []) : s.takeForward h f = (some ST_OK, s.takeImage h.die f) := by
  unfold takeForward
  dsimp only
  split
  · rfl
  · simp only [copyWrite, hm, List.find?_nil]

section
variable {s : State} {h : WriteHdr} {r : DeltaRec} {t : Table} {v : Version} (ht : s.table? r.handle = some t) (hv : t.live = some v)
include ht hv

theorem applyDelta_written {img : Bytes} {sat : Bool} (htarget : r.target = 0 ∨ r.target = v.num) (hkept : s.rowLost t v.num r.row = false)
    (hop : t.applyOp (s.rowAt h.die t.handle v.num r.row) r = some (img, sat))
    (hnone : ((s.setImage h.die t.handle v.num r.row img).noteHeat h.die t.handle r.row 0 1).forwardTo h.die t v.slot r.row = []) :
    s.applyDelta h r = (some (if sat then 65536 else 0), (s.setImage h.die t.handle v.num r.row img).noteHeat h.die t.handle r.row 0 1) := by
  have hlive : ¬(r.target ≠ 0 ∧ r.target ≠ v.num) := fun h => htarget.elim h.1 h.2
  simp only [applyDelta, ht, hv, if_neg hlive, hkept, Bool.false_eq_true, if_false, hop, hnone]
  cases sat <;> rfl

theorem applyDelta_stale (h0 : r.target ≠ 0) (hne : r.target ≠ v.num) : s.applyDelta h r = (some ST_FD_STALE_VERSION, s) := by
  simp only [applyDelta, ht, hv]
  exact if_pos ⟨h0, hne⟩

end

/-- What a part does with a record of its twin (R219). -/
def takeTwin (s : State) (h : WriteHdr) (first : Bool) (r : DeltaRec) : Option Nat × State :=
  match s.strmFor r.stream 3 with
  | none => (some ST_OK, s.count (Reg.FEED_PORT_UNBOUND 0) 1)
  | some i =>
    let s1 := if first then s.resync i r.seq else s
    if !(s1.strm i).active then (some ST_OK, s1.count (Reg.FEED_PORT_UNBOUND 0) 1)
    else
      let s2 := (s1.modStrm i (fun x => { x with lastPort := 3 })).feedRecord 0 i r (recBytes r.len)
      if s2.recordDone i r.seq then (some ST_OK, s2) else (none, s2.owe ⟨h, ST_OK, [], some (i, r.seq), []⟩)

section
variable {s : State} {h : WriteHdr} {first : Bool} {r : DeltaRec}

theorem takeTwin_unbound (hnone : s.strmFor r.stream 3 = none) : s.takeTwin h first r = (some ST_OK, s.count (Reg.FEED_PORT_UNBOUND 0) 1) := by
  rw [takeTwin, hnone]

variable {i : Nat} (hi : s.strmFor r.stream 3 = some i)
include hi

theorem takeTwin_idle (hidle : ((if first then s.resync i r.seq else s).strm i).active = false) :
    s.takeTwin h first r = (some ST_OK, (if first then s.resync i r.seq else s).count (Reg.FEED_PORT_UNBOUND 0) 1) := by
  simp only [takeTwin, hi]
  exact if_pos (by rw [hidle]; rfl)

theorem takeTwin_active (hact : ((if first then s.resync i r.seq else s).strm i).active = true) :
    let w := ((if first then s.resync i r.seq else s).modStrm i (fun x => { x with lastPort := 3 })).feedRecord 0 i r (recBytes r.len)
    s.takeTwin h first r = if w.recordDone i r.seq then (some ST_OK, w) else (none, w.owe ⟨h, ST_OK, [], some (i, r.seq), []⟩) := by
  simp only [takeTwin, hi]
  exact if_neg (by rw [hact]; exact Bool.false_ne_true)

end

/-- A stream is active at its number with nothing held after a RESYNC. -/
theorem strm_resync {s : State} {i : Nat} (hi : s.strms[i]? ≠ none) (seq : Word) :
    ((s.resync i seq).strm i).active = true ∧ ((s.resync i seq).strm i).next = seq ∧ ((s.resync i seq).strm i).held = [] := by
  obtain ⟨x, hx⟩ := Option.ne_none_iff_exists'.mp hi
  obtain ⟨y, hy, hnext, hact, hheld, -⟩ := resync_says hx seq
  rw [strm_of_some hy]
  exact ⟨hact, hnext, hheld⟩

end State

/-- Settles O33: what a die does with the deltas, rows and twin records that reach it. -/
theorem updatesArrive : Obligations.UpdatesArrive := by
  unfold Obligations.UpdatesArrive
  intro s h hserv
  have htwin (first : Bool) (r : DeltaRec) : exec (.twinRecord h first r) s = .next (s.recvOwed h fun s => s.takeTwin h first r) :=
    exec_whenServing hserv rfl rfl
  refine ⟨fun r fails no hash => ?_, fun f => exec_whenServing hserv rfl rfl, fun kind hd v rows => exec_whenServing hserv rfl rfl,
    fun f => State.takeForward_idle f, fun hd v rows => rfl,
    fun r t0 v img sat ht hv htarget hkept hop hnone => State.applyDelta_written ht hv htarget hkept hop hnone,
    fun r hnone hl ho => ?_, fun first r => ⟨_, htwin first r, fun u => ⟨State.takeTwin_unbound, fun i hi => ?_⟩⟩,
    fun r t0 v ht hv h0 hne => State.applyDelta_stale ht hv h0 hne⟩
  · intro failed
    refine ⟨fun hfew => exec_whenServing hserv rfl ?_, fun hmany => exec_whenServing hserv rfl ?_, fun hzero => ?_⟩
    · refine congrArg (s.recvOwed h) (funext fun s => ?_)
      exact if_neg (Nat.not_le.mpr hfew)
    · refine congrArg (s.recvOwed h) (funext fun s => ?_)
      exact if_pos hmany
    · subst hzero
      exact s.updaterFails_zero _ _
  · rw [htwin]
    have hunbound := State.takeTwin_unbound (h := h) (first := false) hnone
    refine congrArg _ ((State.recvOwed_local_answers _ hl ho (r := ST_OK) ?_).trans ?_)
    · rw [hunbound]
    · rw [hunbound]
  · intro v w
    refine ⟨State.takeTwin_idle hi, fun hact hdone => ?_, fun hact hdone => ?_, fun hfirst hsome => ?_⟩
    · exact (State.takeTwin_active hi hact).trans (if_pos hdone)
    · exact (State.takeTwin_active hi hact).trans (if_neg (by rw [hdone]; exact Bool.false_ne_true))
    · subst hfirst
      exact State.strm_resync hsome r.seq

end Sys2Proof.Machine

/-! Tickets, reports and the link of a mirrored pair (R219, R228 to R230): what settles O34. -/

namespace Sys2Proof.Machine

namespace State

/-- A write of FEED_PAIR_REQ without GO sets LEAD_US alone. -/
theorem writePairReq_noGo (s : State) {v : Nat} (hgo : v.testBit 31 = false) : s.writePairReq v = s.setRegN Reg.FEED_PAIR_REQ (max 100 (fld v 15 0)) := by
  simp [writePairReq, hgo]

/-- The part that is about to propose a ticket. -/
def proposing (s : State) (v : Nat) : State :=
  { s.setRegN Reg.FEED_PAIR_REQ (max 100 (fld v 15 0)) with
    pair := { s.pair with proposal := some ((s.pair.number + 1) % 65536, s.time.gtime + BitVec.ofNat 64 (us (max 100 (fld v 15 0))), s.time.gtime) } }

/-- A write with GO proposes a ticket to the twin. -/
theorem writePairReq_go (s : State) {v : Nat} (hgo : v.testBit 31 = true) : s.writePairReq v = (s.proposing v).write 0 s.twinNode
    (.ticket ((s.pair.number + 1) % 65536) (s.time.gtime + BitVec.ofNat 64 (us (max 100 (fld v 15 0))))) := by
  rw [writePairReq, if_neg (by simp [hgo])]
  rfl

theorem regsBut_setRegN (s : State) (a v : Nat) : s.regsBut (s.setRegN a v) [a] := fun _ hb =>
  reg_setReg_ne _ _ _ _ (List.ne_of_not_mem_cons hb)

/-- Whatever FEED_PAIR_REQ is written with, only the pair, the register and what is sent can change. -/
theorem writePairReq_says (s : State) (v : Nat) : s.within (fun s t => { s with regs := t.regs, pair := t.pair, link := t.link, out := t.out }) (s.writePairReq v)
    ∧ s.regsBut (s.writePairReq v) [Reg.FEED_PAIR_REQ, Reg.LNK_STATUS, Reg.MSIX_PBA] := by
  have hset := regsBut_setRegN s Reg.FEED_PAIR_REQ (max 100 (fld v 15 0))
  by_cases hgo : v.testBit 31 = true
  · have hpropose : s.within (fun s t => { s with regs := t.regs, pair := t.pair, link := t.link, out := t.out }) (s.proposing v) := rfl
    have hregs : s.regsBut (s.proposing v) [Reg.FEED_PAIR_REQ] := hset
    rw [s.writePairReq_go hgo]
    generalize s.proposing v = u at hpropose hregs
    obtain ⟨hframe, hsent, -⟩ := u.onlySends_write 0 s.twinNode
      (.ticket ((s.pair.number + 1) % 65536) (s.time.gtime + BitVec.ofNat 64 (us (max 100 (fld v 15 0)))))
    exact ⟨within_trans hpropose (within_mono (take := packets) hframe),
      regsBut_trans (regsBut_mono hregs (by simp)) (regsBut_mono hsent (by simp))⟩
  · rw [s.writePairReq_noGo (Bool.eq_false_iff.mpr hgo)]
    exact ⟨rfl, regsBut_mono hset (by simp)⟩

theorem pair_writePairReq (s : State) {v : Nat} (hgo : v.testBit 31 = true) : (s.writePairReq v).pair = { s.pair with
    proposal := some ((s.pair.number + 1) % 65536, s.time.gtime + BitVec.ofNat 64 (us (max 100 (fld v 15 0))), s.time.gtime) } := by
  rw [s.writePairReq_go hgo, (onlySends_write _ _ _ _).1]
  rfl

section
variable {s : State} (hserv : s.serving = true)
include hserv

section
variable {n : Nat} {at_ t0 : Word} (hp : s.pair.proposal = some (n, at_, t0))
include hp

theorem exec_ticketAccepted : exec (.ticketAccepted n) s = .next (s.armTicket false n at_) := by
  refine exec_whenServing hserv rfl ?_
  simp only [hp, if_true]

theorem exec_ticketAccepted_other {m : Nat} (hm : m ≠ n) : exec (.ticketAccepted m) s = .next s := by
  refine exec_whenServing hserv rfl ?_
  simp only [hp]
  exact if_neg (Ne.symm hm)

theorem exec_ticketTimeout (hdue : t0.toNat + us 50 ≤ s.time.gtime.toNat) : exec .ticketTimeout s
    = .next (({ s with pair := { s.pair with proposal := none, status := ST_FD_PAIR_UNREACHABLE } } : State).latch Reg.FEED_STATUS 6) := by
  refine exec_whenServing hserv rfl ?_
  simp only [hp]
  exact if_pos (reached_of_le hdue)

theorem exec_ticketTimeout_early (hearly : s.time.gtime.toNat < t0.toNat + us 50) : exec .ticketTimeout s = .next s := by
  refine exec_whenServing hserv rfl ?_
  simp only [hp]
  exact if_neg (by rw [reached_of_lt hearly]; exact Bool.false_ne_true)

end

theorem exec_ticketExpired (harmed : s.pair.ticket = .armed) (hdue : s.pair.at_.toNat + ms 1 ≤ s.time.gtime.toNat) :
    exec .ticketExpired s = .next { s with pair := if s.pair.twin.isSome then { s.pair with ticket := .expired, result := 3, status := ST_FD_PAIR_UNREACHABLE }
      else { s.pair with ticket := .expired } } :=
  exec_whenServing hserv rfl (if_pos ⟨harmed, reached_of_le hdue⟩)

theorem exec_ticketExpired_notArmed (h : s.pair.ticket ≠ .armed) : exec .ticketExpired s = .next s :=
  exec_whenServing hserv rfl (if_neg fun hc => h hc.1)

theorem exec_pairReportTimeout (hown : s.pair.own.isSome = true) (htwin : s.pair.twin = none) (hres : s.pair.result ≠ 3)
    (hdue : s.pair.ownAt.toNat + ms 2 ≤ s.time.gtime.toNat) :
    exec .pairReportTimeout s = .next { s with pair := { s.pair with result := 3, status := ST_FD_PAIR_UNREACHABLE } } :=
  exec_whenServing hserv rfl (if_pos ⟨hown, by rw [htwin]; rfl, hres, reached_of_le hdue⟩)

end

/-- The part when it gives up forwarding to its twin: the records that waited for it are no more. -/
def unpaired (s : State) (i : Nat) : State :=
  let mine (e : Pend) : Bool := e.rec_.any (·.1 == i) && (match e.p.body with
    | .twin _ _ => true
    | _ => false)
  let s1 := s.modStrm i (fun x => { x with pairLost := true, twin := [], twinAt := none })
  { s1 with link := { s1.link with pend := s1.link.pend.filter (fun e => !mine e) } }

theorem exec_pairLinkLost {s : State} {i : Nat} {x : Strm} {t0 : Word} (hserv : s.serving = true) (hx : s.strms[i]? = some x) (hfwd : x.forwards = true)
    (htwin : x.twin ≠ []) (hat : x.twinAt = some t0) (hdue : t0.toNat + us x.gapUs ≤ s.time.gtime.toNat) :
    exec (.pairLinkLost i) s = .next ((s.unpaired i).latch Reg.FEED_STATUS 6).settleOwed := by
  have hlate : (x.twinAt.any fun t => s.reached (t.toNat + us x.gapUs)) = true := by rw [hat]; exact reached_of_le hdue
  refine exec_whenServing hserv rfl ?_
  simp only [strm_of_some hx]
  exact if_pos ⟨hfwd, by simp [htwin], hlate⟩

end State

/-- Settles O34: how a ticket is proposed, armed, given up and expires, and how a pair and its forwarding end. -/
theorem pairTickets : Obligations.PairTickets := by
  unfold Obligations.PairTickets
  intro s hserv
  refine ⟨fun v => ?_, fun n at_ t0 hp => ⟨State.exec_ticketAccepted hserv hp, fun m => State.exec_ticketAccepted_other hserv hp,
    State.exec_ticketTimeout hserv hp, State.exec_ticketTimeout_early hserv hp⟩, State.exec_ticketExpired hserv, State.exec_ticketExpired_notArmed hserv,
    State.exec_pairReportTimeout hserv, fun i x t0 hx hfwd htwin hat hdue => ?_⟩
  · obtain ⟨hframe, hregs⟩ := s.writePairReq_says v.toNat
    have hfld : fld v.toNat 15 0 = v.toNat % 65536 := by simp [fld]
    refine ⟨_, exec_whenOpen (State.barOpen_of_serving hserv) rfl rfl, hframe, hregs, fun hgo => ?_, fun hgo => ?_⟩
    · rw [← hfld]
      exact s.writePairReq_noGo hgo
    · rw [← hfld, s.pair_writePairReq hgo]
      rfl
  · have hexec := State.exec_pairLinkLost hserv hx hfwd htwin hat hdue
    have hmoves : s.movesStrm (s.unpaired i) i { x with pairLost := true, twin := [], twinAt := none } :=
      let h := State.movesStrm_modStrm hx fun x => { x with pairLost := true, twin := [], twinAt := none }
      ⟨h.entry, h.others⟩
    have hin : s.within State.intake (s.unpaired i) := rfl
    generalize s.unpaired i = u at hexec hmoves hin
    have hlatch := u.within_latch Reg.FEED_STATUS 6
    have hmoves' := State.movesStrm_congr hmoves (u.latch_strms Reg.FEED_STATUS 6)
    generalize u.latch Reg.FEED_STATUS 6 = v at hexec hlatch hmoves'
    have hsettle := v.onlySends_settleOwed
    obtain ⟨hi, hother⟩ := State.movesStrm_congr hmoves' (show v.settleOwed.strms = v.strms by rw [hsettle.1])
    exact ⟨_, hexec, hi, hother, State.within_trans (take := State.intake) (State.within_trans hin (State.within_mono hlatch))
      (State.within_mono hsettle.within)⟩

end Sys2Proof.Machine

/-! Switching ingest on and off, and the registers of the feed (R213, R231 to R240): what settles O35. -/

namespace Sys2Proof.Machine

namespace State

/-! ## The states of a port's ingest (R232) -/

theorem fport_modFPort_ne (s : State) {p q : Nat} (hq : q ≠ p) (f : FPort → FPort) : (s.modFPort p f).fport q = s.fport q := by
  simp [fport, Ne.symm hq]

theorem st_pauseOn (s : State) (p q : Nat) : ((s.pauseOn p).fport q).st = (s.fport q).st := by
  unfold pauseOn
  split
  · rfl
  · by_cases hq : q = p
    · subst hq
      by_cases hlen : q < s.fports.length
      · exact (congrArg FPort.st (fport_modFPort hlen fun f => { f with paused := true, xoffAt := some s.time.gtime }) :)
      · simp [fport, hlen]
    · exact congrArg FPort.st (s.fport_modFPort_ne hq fun f => { f with paused := true, xoffAt := some s.time.gtime })

theorem fports_length_pauseOn (s : State) (p : Nat) : (s.pauseOn p).fports.length = s.fports.length := by
  unfold pauseOn
  split
  · rfl
  · exact List.length_modify ..

/-- A port that stops. -/
theorem feedStop_says {s : State} {p : Nat} (hp : p < s.fports.length) : s.within feedPorts (s.feedStop p)
    ∧ (s.feedStop p).fports.length = s.fports.length ∧ ((s.feedStop p).fport p).st = .stopping ∧ (∀ q, q ≠ p → ((s.feedStop p).fport q).st = (s.fport q).st) := by
  have hst := congrArg FPort.st (fport_modFPort hp fun f => { f with st := .stopping, pendDisable := false, pendEnable := false })
  have hother (q : Nat) (hq : q ≠ p) := congrArg FPort.st (s.fport_modFPort_ne hq fun f => { f with st := .stopping, pendDisable := false, pendEnable := false })
  have hin : s.within feedPorts (s.modFPort p fun f => { f with st := .stopping, pendDisable := false, pendEnable := false }) := rfl
  have hlen : (s.modFPort p fun f => { f with st := .stopping, pendDisable := false, pendEnable := false }).fports.length = s.fports.length :=
    List.length_modify ..
  unfold feedStop
  generalize (s.modFPort p fun f => { f with st := .stopping, pendDisable := false, pendEnable := false }) = u at hst hother hin hlen ⊢
  exact ⟨within_trans hin (u.within_pauseOn p), (u.fports_length_pauseOn p).trans hlen, (u.st_pauseOn p p).trans hst,
    fun q hq => (u.st_pauseOn p q).trans (hother q hq)⟩

/-- ENABLE of a port moves it by the states of R232. -/
theorem feedEnable_says {s : State} {p : Nat} (hp : p < s.fports.length) (e : Bool) : s.within feedPorts (s.feedEnable p e)
    ∧ (s.feedEnable p e).fports.length = s.fports.length
    ∧ ((s.feedEnable p e).fport p).st = (match (s.fport p).st, e with
        | .on, false => .stopping
        | .off, true => .starting
        | x, _ => x)
    ∧ (∀ q, q ≠ p → ((s.feedEnable p e).fport q).st = (s.fport q).st) := by
  have hmod (f : FPort → FPort) : s.within feedPorts (s.modFPort p f) ∧ (s.modFPort p f).fports.length = s.fports.length
      ∧ ((s.modFPort p f).fport p).st = (f (s.fport p)).st ∧ (∀ q, q ≠ p → ((s.modFPort p f).fport q).st = (s.fport q).st) :=
    ⟨rfl, List.length_modify .., congrArg FPort.st (fport_modFPort hp f), fun q hq => congrArg FPort.st (s.fport_modFPort_ne hq f)⟩
  unfold feedEnable
  cases hst : (s.fport p).st with
  | on =>
    cases e with
    | true => exact ⟨within_refl s, rfl, hst, fun _ _ => rfl⟩
    | false => exact feedStop_says hp
  | stopping =>
    obtain ⟨hin, hlen, hp', hother⟩ := hmod fun f => { f with pendEnable := e }
    exact ⟨hin, hlen, hp'.trans hst, hother⟩
  | off =>
    cases e with
    | true => exact hmod fun f => { f with st := .starting }
    | false => exact ⟨within_refl s, rfl, hst, fun _ _ => rfl⟩
  | starting =>
    obtain ⟨hin, hlen, hp', hother⟩ := hmod fun f => { f with pendDisable := !e }
    exact ⟨hin, hlen, hp'.trans hst, hother⟩

/-- FEED_CTL when it is written, before EN takes effect. -/
def feedCtl (s : State) (v : Nat) : State :=
  let cur := s.regN Reg.FEED_CTL
  let off := (s.fport 0).st = .off ∧ (s.fport 1).st = .off
  let same := fld v 29 27 = fld cur 29 27 ∧ fld v 15 0 = fld cur 15 0
  let rest := if off then fld v 29 27 * 2 ^ 27 + fld v 15 0 else fld cur 29 27 * 2 ^ 27 + fld cur 15 0
  let s1 := s.setRegN Reg.FEED_CTL (fld v 31 30 * 2 ^ 30 + rest)
  if off ∨ same then s1 else s1.latch Reg.FEED_STATUS 2

theorem writeFeedCtl_eq (s : State) (v : Nat) : s.writeFeedCtl v = ((s.feedCtl v).feedEnable 0 (v.testBit 30)).feedEnable 1 (v.testBit 31) := rfl

theorem within_feedCtl (s : State) (v : Nat) : s.within events (s.feedCtl v) := by
  have hset (n : Nat) : s.within events (s.setRegN Reg.FEED_CTL n) := rfl
  unfold feedCtl
  dsimp only
  generalize (fld v 31 30 * 2 ^ 30 + _ : Nat) = n
  split
  · exact hset n
  · exact within_trans (hset n) (within_latch _ _ _)

/-- A write of FEED_CTL moves both ports by their EN bits. -/
theorem writeFeedCtl_says {s : State} (hlen : s.fports.length = 2) (v : Nat) : s.within feedPorts (s.writeFeedCtl v)
    ∧ ∀ port < 2, ((s.writeFeedCtl v).fport port).st = (match (s.fport port).st, v.testBit (30 + port) with
        | .on, false => .stopping
        | .off, true => .starting
        | x, _ => x) := by
  have hctl := s.within_feedCtl v
  rw [writeFeedCtl_eq]
  generalize s.feedCtl v = u at hctl ⊢
  have hfport (q : Nat) : u.fport q = s.fport q := by rw [hctl]; rfl
  have hulen : u.fports.length = 2 := by rw [hctl]; exact hlen
  obtain ⟨hin0, hlen0, hst0, hother0⟩ := feedEnable_says (s := u) (p := 0) (by omega) (v.testBit 30)
  generalize u.feedEnable 0 (v.testBit 30) = w at hin0 hlen0 hst0 hother0 ⊢
  obtain ⟨hin1, -, hst1, hother1⟩ := feedEnable_says (s := w) (p := 1) (by omega) (v.testBit 31)
  refine ⟨within_trans (within_mono hctl) (within_trans hin0 hin1), fun port hport => ?_⟩
  obtain rfl | rfl : port = 0 ∨ port = 1 := by omega
  · rw [hother1 0 (by decide), hst0, hfport]
  · rw [hst1, hother0 1 (by decide), hfport]

theorem paused_pauseOff {s : State} {p : Nat} (hp : p < s.fports.length) : ((s.pauseOff p).fport p).paused = false := by
  unfold pauseOff
  split
  · exact congrArg FPort.paused (fport_modFPort hp fun f => { f with paused := false })
  next h => exact Bool.eq_false_iff.mpr h

theorem pendEnable_pauseOff {s : State} {p : Nat} (hp : p < s.fports.length) : ((s.pauseOff p).fport p).pendEnable = (s.fport p).pendEnable := by
  unfold pauseOff
  split
  · exact (congrArg FPort.pendEnable (fport_modFPort hp fun f => { f with paused := false }) :)
  · rfl

theorem fports_length_pauseOff (s : State) (p : Nat) : (s.pauseOff p).fports.length = s.fports.length := by
  unfold pauseOff
  split
  · exact List.length_modify ..
  · rfl

section
variable {s : State} {port : Nat} (hserv : s.serving = true)
include hserv

theorem exec_feedStopped (hst : (s.fport port).st = .stopping) (hq : (s.fport port).queue = []) : exec (.feedStopped port) s
    = .next ((s.pauseOff port).modFPort port (fun f => { f with st := if f.pendEnable then .starting else .off, pendEnable := false })) :=
  exec_whenServing hserv rfl (if_pos ⟨hst, by rw [hq]; rfl⟩)

theorem exec_feedStopped_busy (hq : (s.fport port).queue ≠ []) : exec (.feedStopped port) s = .next s :=
  exec_whenServing hserv rfl (if_neg fun h => hq (List.isEmpty_iff.mp h.2))

theorem exec_feedStarted (hst : (s.fport port).st = .starting) (hpend : (s.fport port).pendDisable = false) :
    exec (.feedStarted port) s = .next (s.modFPort port (fun f => { f with st := .on })) := by
  refine exec_whenServing hserv rfl ?_
  simp only [hst, hpend, ne_eq, not_true_eq_false, if_false, Bool.false_eq_true]

end

/-! ## FEED_SKID (R213) -/

section
variable {s : State} {a : Access} {p : Nat} (hopen : s.barOpen = true) (hp : p < 2) (hon : onReg a (Reg.FEED_SKID p) = true)
include hopen hp hon

theorem exec_feedSkidWrite_open : exec (.feedSkidWrite a) s = .next (byWords (writeSkid p) a s) := by
  have hindex : (a.off - Reg.FEED_SKID 0) / 8 % 2 = p := by
    obtain ⟨_, hsize, _, hlo, hhi⟩ := (onReg_iff _ _).mp hon
    simp only [Reg.FEED_SKID] at *
    omega
  show execFeedSkidWrite a s = _
  simp only [execFeedSkidWrite, hindex, whenOn_on hopen hon]

theorem exec_feedSkidWrite_word (hsize : a.size = 4) : exec (.feedSkidWrite a) s = .next (writeSkid p a s) := by
  rw [exec_feedSkidWrite_open hopen hp hon, byWords, if_neg (by omega)]

end

theorem barOpen_writeSkid (s : State) (p : Nat) (a : Access) : (writeSkid p a s).barOpen = s.barOpen := by
  simp only [writeSkid]
  split
  · rw [latch_frame]; rfl
  · rfl

/-- What a write of half a FEED_SKID does: it is taken, brought to its limits, while the port is OFF and the sum fits. -/
theorem writeSkid_says (s : State) (p : Nat) (a : Access) :
    let v := intoReg a (Reg.FEED_SKID p) (s.regN (Reg.FEED_SKID p))
    let hold := max 4 (min 32 (v / 2 ^ 26 % 64))
    let cable := min 10000 (v / 2 ^ 12 % 2 ^ 14)
    let skid := (100 * (10 * cable + v % 2 ^ 12 + 300) + 18496 + 4095) / 4096 * 4
    writeSkid p a s = if (s.fport p).st = .off ∧ 1024 + hold * 256 + skid ≤ 16384
      then s.setRegN (Reg.FEED_SKID p) (skid * 2 ^ 48 + (16384 - hold * 256 - skid) * 2 ^ 32 + hold * 2 ^ 26 + cable * 2 ^ 12 + v % 2 ^ 12)
      else s.latch Reg.FEED_STATUS 2 := by
  intro v hold cable skid
  have hhold : fld v 31 26 = v / 2 ^ 26 % 64 := by simp [fld, Nat.shiftRight_eq_div_pow]
  have hcable : fld v 25 12 = v / 2 ^ 12 % 2 ^ 14 := by simp [fld, Nat.shiftRight_eq_div_pow]
  have hrest : fld v 11 0 = v % 2 ^ 12 := by simp [fld]
  have hskid : ceilDiv (100 * (10 * cable + v % 2 ^ 12 + 300) + 18496) 4096 * 4 = skid := rfl
  have hw : writeSkid p a s = if (s.fport p).st ≠ .off ∨ 16384 < 1024 + hold * 256 + skid then s.latch Reg.FEED_STATUS 2
      else s.setRegN (Reg.FEED_SKID p) (skid * 2 ^ 48 + (16384 - hold * 256 - skid) * 2 ^ 32 + hold * 2 ^ 26 + cable * 2 ^ 12 + v % 2 ^ 12) := by
    simp only [writeSkid, ← hskid]
    rw [hhold, hcable, hrest]
  rw [hw]
  by_cases htake : (s.fport p).st = .off ∧ 1024 + hold * 256 + skid ≤ 16384
  · rw [if_pos htake, if_neg fun h => h.elim (fun h => h htake.1) fun h => Nat.not_le.mpr h htake.2]
  · rw [if_neg htake, if_pos ((Classical.not_and_iff_not_or_not.mp htake).imp_right Nat.not_le.mp)]

/-! ## FEED_STRM_CFG (R205, R237) -/

section
variable {s : State} {a : Access} {x : Strm} (hopen : s.barOpen = true) (hon : onReg a Reg.FEED_STRM_CFG = true) (hx : s.strms[s.strmSel]? = some x)
include hopen hon hx

theorem exec_feedStrmCfgWrite_open : exec (.feedStrmCfgWrite a) s = .next (
    let v := intoReg a Reg.FEED_STRM_CFG x.cfg
    let y := x.withCfg v
    if x.valid then
      let s1 := if y = x then s else s.latch Reg.FEED_STATUS 2
      if v.testBit 63 then s1
      else ((s1.dropHeld s.strmSel).modStrm s.strmSel (fun z => { z with valid := false, active := false })).settleOwed
    else if v.testBit 63 ∧ s.strms.any (fun z => z.valid && z.stream == y.stream) then s.latch Reg.FEED_STATUS 2
    else s.modStrm s.strmSel (fun x => { (x.forStream y.stream).withCfg v with valid := v.testBit 63 })) := by
  show execFeedStrmCfgWrite a s = _
  simp only [execFeedStrmCfgWrite, whenOn_on hopen hon, strm_of_some hx]

theorem exec_feedStrmCfgWrite_taken (hinv : x.valid = false) (hfree : (intoReg a Reg.FEED_STRM_CFG x.cfg).testBit 63 = false
      ∨ s.strms.any (fun z => z.valid && z.stream == intoReg a Reg.FEED_STRM_CFG x.cfg / 2 ^ 32 % 65536) = false) :
    exec (.feedStrmCfgWrite a) s = .next (s.modStrm s.strmSel (fun x' =>
      { (x'.forStream (intoReg a Reg.FEED_STRM_CFG x.cfg / 2 ^ 32 % 65536)).withCfg (intoReg a Reg.FEED_STRM_CFG x.cfg) with
        valid := (intoReg a Reg.FEED_STRM_CFG x.cfg).testBit 63 })) := by
  rw [exec_feedStrmCfgWrite_open hopen hon hx]
  generalize intoReg a Reg.FEED_STRM_CFG x.cfg = v at hfree ⊢
  have hstream : (x.withCfg v).stream = v / 2 ^ 32 % 65536 := by simp [Strm.withCfg, fld, Nat.shiftRight_eq_div_pow]
  refine congrArg _ ((if_neg (by rw [hinv]; exact Bool.false_ne_true)).trans ?_)
  rw [hstream]
  refine if_neg fun h => ?_
  rcases hfree with hf | hf
  · exact absurd h.1 (by rw [hf]; exact Bool.false_ne_true)
  · exact absurd h.2 (by rw [hf]; exact Bool.false_ne_true)

theorem exec_feedStrmCfgWrite_valid (hval : x.valid = true) (hkeep : (intoReg a Reg.FEED_STRM_CFG x.cfg).testBit 63 = true) :
    exec (.feedStrmCfgWrite a) s = .next (if x.withCfg (intoReg a Reg.FEED_STRM_CFG x.cfg) = x then s else s.latch Reg.FEED_STATUS 2) := by
  rw [exec_feedStrmCfgWrite_open hopen hon hx]
  exact congrArg _ ((if_pos hval).trans (if_pos hkeep))

theorem exec_feedStrmCfgWrite_cleared (hval : x.valid = true) (hclear : (intoReg a Reg.FEED_STRM_CFG x.cfg).testBit 63 = false)
    (hsame : x.withCfg (intoReg a Reg.FEED_STRM_CFG x.cfg) = x) :
    exec (.feedStrmCfgWrite a) s
      = .next ((s.dropHeld s.strmSel).modStrm s.strmSel (fun z => { z with valid := false, active := false })).settleOwed := by
  rw [exec_feedStrmCfgWrite_open hopen hon hx]
  refine congrArg _ ((if_pos hval).trans ?_)
  rw [if_pos hsame]
  exact if_neg (by rw [hclear]; exact Bool.false_ne_true)

end

end State

/-- An entry given another STREAM has no source, no MARK and no discards; one given its own is as it was. -/
theorem Strm.forStream_says (x : Strm) (n : Nat) : (x.stream = n → x.forStream n = x)
    ∧ (x.stream ≠ n → let y := x.forStream n
      y.src = 0 ∧ y.srcPort = 0 ∧ y.lastPort = 3 ∧ y.mark = 0 ∧ y.marks = [] ∧ y.discards = 0 ∧ y.lastDisc = 0 ∧ y.next = x.next ∧ y.flight = x.flight) := by
  refine ⟨fun h => if_pos h, fun h => ?_⟩
  rw [Strm.forStream, if_neg h]
  exact ⟨rfl, rfl, rfl, rfl, rfl, rfl, rfl, rfl, rfl⟩

/-- Settles O35: how EN moves a port, and what the registers of the feed take. -/
theorem feedControl : Obligations.FeedControl := by
  unfold Obligations.FeedControl
  intro s port hserv hport hlen
  have hopen := State.barOpen_of_serving hserv
  have hp : port < s.fports.length := by omega
  refine ⟨fun v => ?_, fun hst hq => ?_, fun _ hq => State.exec_feedStopped_busy hserv hq, fun hst hpend => ?_, fun a hon hsize => ?_, fun a hon hsize => ?_,
    fun a x hon hx => ?_, ?_⟩
  · obtain ⟨hin, hst⟩ := State.writeFeedCtl_says hlen v.toNat
    exact ⟨_, exec_whenOpen hopen rfl rfl, hin, hst port hport⟩
  · have hexec := State.exec_feedStopped hserv hst hq
    have hin := s.within_pauseOff port
    have hpaused := State.paused_pauseOff hp
    have hpend := State.pendEnable_pauseOff hp
    have hulen := s.fports_length_pauseOff port
    generalize s.pauseOff port = u at hexec hin hpaused hpend hulen
    have hfport := State.fport_modFPort (hulen ▸ hp) fun f => { f with st := if f.pendEnable then .starting else .off, pendEnable := false }
    refine ⟨_, hexec, State.within_trans (take := State.feedPorts) hin rfl, ?_, ?_⟩
    · rw [hfport, ← hpend]
    · rw [hfport]
      exact hpaused
  · exact ⟨_, State.exec_feedStarted hserv hst hpend, rfl, State.fport_modFPort hp _⟩
  · intro v hold cable skid
    rw [State.exec_feedSkidWrite_word hopen hport hon hsize]
    exact congrArg _ (s.writeSkid_says port a)
  · have hoff : a.off % 8 = 0 := by
      obtain ⟨_, _, hmod, _⟩ := (onReg_iff _ _).mp hon
      rwa [hsize] at hmod
    have hbase : Reg.FEED_SKID port % 8 = 0 := by simp only [Reg.FEED_SKID]; omega
    have hlow : onReg ⟨a.bar, a.off, 4, a.value⟩ (Reg.FEED_SKID port) = true := (onReg_word (d := 0) _ hsize hoff hbase (Or.inl rfl)).trans hon
    have hhigh : onReg ⟨a.bar, a.off + 4, 4, a.value >>> 32⟩ (Reg.FEED_SKID port) = true := (onReg_word _ hsize hoff hbase (Or.inr rfl)).trans hon
    refine ⟨_, State.exec_feedSkidWrite_word hopen hport hlow rfl, ?_⟩
    rw [State.exec_feedSkidWrite_open hopen hport hon, State.exec_feedSkidWrite_word ((s.barOpen_writeSkid port _).trans hopen) hport hhigh rfl, byWords,
      if_pos hsize]
  · intro v
    refine ⟨fun hinv hfree => ⟨_, State.exec_feedStrmCfgWrite_taken hopen hon hx hinv hfree, rfl, State.strms_modStrm hx _, fun j hj => s.strms_modStrm_ne hj _⟩,
      x.forStream_says, State.exec_feedStrmCfgWrite_valid hopen hon hx, fun hval hclear hsame => ?_⟩
    have hexec := State.exec_feedStrmCfgWrite_cleared hopen hon hx hval hclear hsame
    have hdropped := State.movesStrm_modStrm hx fun x => { x with held := [], gap := none }
    have hin : s.within State.intake ((s.dropHeld s.strmSel).modStrm s.strmSel fun z => { z with valid := false, active := false }) := rfl
    have hmoves := State.movesStrm_trans hdropped (State.movesStrm_modStrm hdropped.1 fun z => { z with valid := false, active := false })
    rw [show s.modStrm s.strmSel (fun x => { x with held := [], gap := none }) = s.dropHeld s.strmSel from rfl] at hmoves
    generalize (s.dropHeld s.strmSel).modStrm s.strmSel (fun z => { z with valid := false, active := false }) = u at hexec hmoves hin
    have hsettle := u.onlySends_settleOwed
    obtain ⟨hi, hother⟩ := State.movesStrm_congr hmoves (show u.settleOwed.strms = u.strms by rw [hsettle.1])
    exact ⟨_, hexec, State.within_trans hin (State.within_mono hsettle.within), hi, hother⟩
  · exact congrArg _ ((if_neg (by omega)).trans (if_pos hopen))

end Sys2Proof.Machine

/-! The counts of a ring over its operations (R316 to R320): what settles O36. -/

namespace Sys2Proof.Machine

/-! ## Counts modulo 2^32 -/

theorem toNat_succ_sub {x y : BitVec 32} (h : (x - y).toNat < 2 ^ 32 - 1) : (x + 1 - y).toNat = (x - y).toNat + 1 := by bv_omega

theorem toNat_sub_succ {x y : BitVec 32} (h : 0 < (x - y).toNat) : (x - (y + 1)).toNat = (x - y).toNat - 1 := by bv_omega

theorem eq_of_toNat_sub_eq {x y z : BitVec 32} (h : (x - z).toNat = (y - z).toNat) : x = y := by bv_omega

namespace Ring

/-- The counts of a ring are in order. -/
structure Ordered (r : Ring) : Prop where
  held : r.pubs.length = (r.pub - r.rel).toNat
  acquired : (r.cacq - r.rel).toNat ≤ (r.pub - r.rel).toNat
  published : (r.pub - r.rel).toNat ≤ (r.pacq - r.rel).toNat
  fits : (r.pacq - r.rel).toNat ≤ r.slots

theorem ordered_iff (r : Ring) : r.Ordered ↔ r.pubs.length = (r.pub - r.rel).toNat ∧ (r.cacq - r.rel).toNat ≤ (r.pub - r.rel).toNat
    ∧ (r.pub - r.rel).toNat ≤ (r.pacq - r.rel).toNat ∧ (r.pacq - r.rel).toNat ≤ r.slots :=
  ⟨fun ⟨h1, h2, h3, h4⟩ => ⟨h1, h2, h3, h4⟩, fun ⟨h1, h2, h3, h4⟩ => ⟨h1, h2, h3, h4⟩⟩

variable {r r' : Ring} {fill slot f : Nat} {fin b : Bool}

/-! ## A producer acquire (R317) -/

theorem acqProd_ok (h : r.acqProd = .ok r' slot f b) :
    (r.pacq - r.rel).toNat < r.slots ∧ r' = { r with pacq := r.pacq + 1 } ∧ slot = r.slotOf r.pacq := by
  unfold acqProd at h
  split at h
  · cases h
  · split at h
    · next hroom =>
      cases h
      exact ⟨hroom, rfl, rfl⟩
    · cases h

theorem Ordered.acqProd (hslots : r.slots < 2 ^ 31) (hr : r.Ordered) (h : r.acqProd = .ok r' slot f b) : r'.Ordered := by
  obtain ⟨hheld, hacq, hpub, hfits⟩ := hr
  obtain ⟨hroom, rfl, -⟩ := acqProd_ok h
  have hnext : (r.pacq + 1 - r.rel).toNat = (r.pacq - r.rel).toNat + 1 := toNat_succ_sub (by omega)
  exact ⟨hheld, hacq, by simp only [hnext]; omega, by simp only [hnext]; omega⟩

theorem acqProd_ended (hend : r.endPub = true) : r.acqProd = .bad := if_pos hend

/-! ## A publish (R318) -/

theorem publish_ok (h : r.publish fill fin = .ok r' slot f b) : r.pub ≠ r.pacq ∧ fill ≤ r.slotBytes
    ∧ r' = { r with pub := r.pub + 1, pubs := r.pubs ++ [⟨fill, fin⟩], endPub := r.endPub || fin, endLast := fin } := by
  unfold publish at h
  split at h
  · cases h
  · next hbad =>
    cases h
    obtain ⟨hne, hfill⟩ := not_or.mp hbad
    exact ⟨hne, Nat.not_lt.mp hfill, rfl⟩

theorem Ordered.publish (hslots : r.slots < 2 ^ 31) (hr : r.Ordered) (h : r.publish fill fin = .ok r' slot f b) : r'.Ordered := by
  obtain ⟨hheld, hacq, hpub, hfits⟩ := hr
  obtain ⟨hne, -, rfl⟩ := publish_ok h
  have hless : (r.pub - r.rel).toNat ≠ (r.pacq - r.rel).toNat := fun he => hne (eq_of_toNat_sub_eq he)
  have hnext : (r.pub + 1 - r.rel).toNat = (r.pub - r.rel).toNat + 1 := toNat_succ_sub (by omega)
  exact ⟨by simp only [List.length_append, List.length_singleton, hheld, hnext], by simp only [hnext]; omega, by simp only [hnext]; omega, hfits⟩

/-! ## A consumer acquire (R319) -/

/-- A slot that is published and not acquired is held. -/
theorem Ordered.pubs_some (hr : r.Ordered) (hne : r.cacq ≠ r.pub) : ∃ p, r.pubs[(r.cacq - r.rel).toNat]? = some p := by
  obtain ⟨hheld, hacq, -, -⟩ := hr
  have hless : (r.cacq - r.rel).toNat ≠ (r.pub - r.rel).toNat := fun he => hne (eq_of_toNat_sub_eq he)
  exact ⟨_, List.getElem?_eq_getElem (by omega)⟩

theorem acqCons_published {p : SlotPub} (hne : r.cacq ≠ r.pub) (hp : r.pubs[(r.cacq - r.rel).toNat]? = some p) :
    r.acqCons = .ok { r with cacq := r.cacq + 1 } (r.slotOf r.cacq) p.fill p.fin := by
  rw [acqCons, if_pos hne, hp]

theorem acqCons_empty (he : r.cacq = r.pub) : r.acqCons = if r.endLast then .endInd else .wait := by
  rw [acqCons, if_neg (by simp [he])]

theorem Ordered.acqCons_ok (hr : r.Ordered) (h : r.acqCons = .ok r' slot f b) :
    r.cacq ≠ r.pub ∧ r' = { r with cacq := r.cacq + 1 } ∧ r.pubs[(r.cacq - r.rel).toNat]? = some ⟨f, b⟩ := by
  by_cases he : r.cacq = r.pub
  · rw [acqCons_empty he] at h
    split at h
    · cases h
    · cases h
  · obtain ⟨p, hp⟩ := hr.pubs_some he
    rw [acqCons_published he hp] at h
    cases h
    exact ⟨he, rfl, hp⟩

theorem Ordered.acqCons (hslots : r.slots < 2 ^ 31) (hr : r.Ordered) (h : r.acqCons = .ok r' slot f b) : r'.Ordered := by
  obtain ⟨hne, rfl, -⟩ := hr.acqCons_ok h
  obtain ⟨hheld, hacq, hpub, hfits⟩ := hr
  have hless : (r.cacq - r.rel).toNat ≠ (r.pub - r.rel).toNat := fun he => hne (eq_of_toNat_sub_eq he)
  have hnext : (r.cacq + 1 - r.rel).toNat = (r.cacq - r.rel).toNat + 1 := toNat_succ_sub (by omega)
  exact ⟨hheld, by simp only [hnext]; omega, hpub, hfits⟩

theorem Ordered.acqCons_not_ok (hr : r.Ordered) {res : RingRes} (h : r.acqCons = res) (hres : ∀ x n m c, res ≠ .ok x n m c) :
    r.cacq = r.pub ∧ res = if r.endLast then .endInd else .wait := by
  by_cases he : r.cacq = r.pub
  · exact ⟨he, h ▸ acqCons_empty he⟩
  · obtain ⟨p, hp⟩ := hr.pubs_some he
    exact absurd (h ▸ acqCons_published he hp) (hres _ _ _ _)

/-! ## A release (R320) -/

theorem release_ok (h : r.release = .ok r' slot f b) :
    r.rel ≠ r.cacq ∧ r' = { r with rel := r.rel + 1, relN := r.relN + 1, pubs := r.pubs.drop 1 } ∧ slot = r.slotOf r.rel := by
  unfold release at h
  split at h
  · cases h
  · next hbad =>
    cases h
    exact ⟨hbad, rfl, rfl⟩

theorem Ordered.release (hr : r.Ordered) (h : r.release = .ok r' slot f b) : r'.Ordered := by
  obtain ⟨hheld, hacq, hpub, hfits⟩ := hr
  obtain ⟨hne, rfl, -⟩ := release_ok h
  have hsome : 0 < (r.cacq - r.rel).toNat := by
    have : (r.cacq - r.rel).toNat ≠ (r.rel - r.rel).toNat := fun he => hne (eq_of_toNat_sub_eq he).symm
    simp only [BitVec.sub_self, BitVec.toNat_zero] at this
    omega
  have hcacq := toNat_sub_succ hsome
  have hpub' := toNat_sub_succ (x := r.pub) (y := r.rel) (by omega)
  have hpacq := toNat_sub_succ (x := r.pacq) (y := r.rel) (by omega)
  exact ⟨by simp only [List.length_drop, hpub', hheld], by simp only [hcacq, hpub']; omega, by simp only [hpub', hpacq]; omega,
    by simp only [hpacq]; omega⟩

theorem slotOf_rel (r : Ring) : r.slotOf r.rel = r.relN % r.slots := by simp [slotOf, num]

end Ring

/-- Settles O36: every operation of a ring keeps its counts in order, and END ends its stream. -/
theorem ringOrder : Obligations.RingOrder := by
  unfold Obligations.RingOrder
  intro r r' fill slot f fin b good hslots hgood
  have hr : r.Ordered := r.ordered_iff.mpr hgood
  refine ⟨fun h => ?_, fun h => ?_, fun h => ?_, fun h => ?_, fun h => ?_, fun h => ?_, Ring.acqProd_ended⟩
  · obtain ⟨_, hr', hslot⟩ := Ring.acqProd_ok h
    exact ⟨r'.ordered_iff.mp (hr.acqProd hslots h), hslot, by rw [hr'], by rw [hr']⟩
  · obtain ⟨_, hfill, hr'⟩ := Ring.publish_ok h
    exact ⟨r'.ordered_iff.mp (hr.publish hslots h), by rw [hr'], by rw [hr'], hfill, by rw [hr'], by rw [hr']⟩
  · obtain ⟨_, hr', hpub⟩ := hr.acqCons_ok h
    exact ⟨r'.ordered_iff.mp (hr.acqCons hslots h), by rw [hr'], hpub⟩
  · obtain ⟨_, hr', hslot⟩ := Ring.release_ok h
    exact ⟨r'.ordered_iff.mp (hr.release h), by rw [hr'], by rw [hr'], hslot.trans r.slotOf_rel, by rw [hr']⟩
  · obtain ⟨he, hres⟩ := hr.acqCons_not_ok h nofun
    refine ⟨he, Bool.eq_false_iff.mpr fun hend => ?_⟩
    rw [if_pos hend] at hres
    cases hres
  · obtain ⟨he, hres⟩ := hr.acqCons_not_ok h nofun
    refine ⟨he, ?_⟩
    refine Classical.byContradiction fun hend => ?_
    rw [if_neg hend] at hres
    cases hres

end Sys2Proof.Machine

/-! RACQ, RPUB and RREL (R315 to R322, R375): what settles O37. -/

namespace Sys2Proof.Machine

namespace State

/-! ## A share that an instruction has changed with its context -/

/-- The share after an instruction that set it by `g` is retired. -/
theorem onCl_set_issued {u : State} {a : Site} (hk : u.onCl a.c.id a.k.cl = some a.k) (i : BWord) (g : ClCtx → ClCtx) (hg : ∀ k, (g k).cl = k.cl) :
    ((a.set u g).issued a (·.advance (wordsOf i))).onCl a.c.id a.k.cl = some ((g a.k).past i) := by
  have hset : ((a.set u g).count (Reg.CL_ISSUED a.k.cl) 1).onCl a.c.id a.k.cl = some (g a.k) := by
    show (u.modOn a.c.id a.k.cl g).onCl a.c.id a.k.cl = _
    rw [onCl_modOn _ _ _ _ hg, hk]
    rfl
  rw [issued, onCl_modOn _ _ _ _ (fun k => by simpa using ClCtx.advance_cl { k with wait := none } _), hset]
  exact congrArg some (ClCtx.advance_wait (g a.k) (wordsOf i))

theorem rings_set_issued (u : State) (a : Site) (i : BWord) (g : ClCtx → ClCtx) :
    (((a.set u g).issued a (·.advance (wordsOf i))).ctx? a.c.id).map (·.rings) = (u.ctx? a.c.id).map (·.rings) := by
  have hset : ((a.set u g).count (Reg.CL_ISSUED a.k.cl) 1).ctx? a.c.id = (u.ctx? a.c.id).map (fun c => { c with cls := modFirst (·.cl == a.k.cl) g c.cls }) :=
    u.ctx_modOn a.c.id a.k.cl g
  rw [issued, ctx_modOn, hset]
  cases u.ctx? a.c.id <;> rfl

theorem ctx_setRing {s : State} {id : Nat} {c : Ctx} (hc : s.ctx? id = some c) (r : Ring) : (s.setRing id r).ctx? id
    = some { c with rings := modFirst (·.reg == r.reg) (fun _ => r) c.rings, stallClock := 0, stalled := false } :=
  (s.ctx_modCtx id (fun c => { c with rings := modFirst (·.reg == r.reg) (fun _ => r) c.rings, stallClock := 0, stalled := false }) fun _ => rfl).trans
    (congrArg _ hc)

/-- A change of a context that leaves its shares alone. -/
theorem onCl_modCtx (s : State) (id cl : Nat) (f : Ctx → Ctx) (hid : ∀ c, (f c).id = c.id) (hcls : ∀ c, (f c).cls = c.cls) :
    (s.modCtx id f).onCl id cl = s.onCl id cl := by
  rw [onCl, ctx_modCtx s id f hid, onCl]
  cases s.ctx? id with
  | none => rfl
  | some c => exact congrArg (List.find? _) (hcls c)

/-! ## RACQ -/

/-- The word that an RACQ of a slot sets sD to, and pC with NOWAIT. -/
def racqSet (i : BWord) (w : Word) (k : ClCtx) : ClCtx := if fnBit i 1 then (k.setS i.d w).setP i.c true else k.setS i.d w

theorem racqSet_cl (i : BWord) (w : Word) (k : ClCtx) : (racqSet i w k).cl = k.cl := by
  unfold racqSet
  split
  · rw [ClCtx.setP_cl, ClCtx.setS_cl]
  · exact ClCtx.setS_cl k i.d w

/-- What an RACQ finds at its ring. -/
def racqRes (i : BWord) (r : Ring) : RingRes := if fnBit i 0 then r.acqCons else r.acqProd

section
variable {s : State} {cl : Nat} {i : BWord} {a : Site} (h : s.issues cl i [i.d] a)
include h

theorem exec_racq_noSide (hside : a.c.sideOf cl i.a (fnBit i 0) 0 = none) :
    exec (.racq cl i) s = .next ((s.issued a id).endLaunch a.c.id ST_RING_ROLE) := by
  refine congrArg _ (issue_fail h ?_)
  simp only [hside]

variable {r : Ring} (hside : a.c.sideOf cl i.a (fnBit i 0) 0 = some r)
include hside

theorem exec_racq_held (hfree : s.ringFree a = false) :
    exec (.racq cl i) s = .next (s.park a (s.ringHold a (if fnBit i 1 then .issue else .racq i.a (fnBit i 0)))) := by
  refine congrArg _ (issue_wait h ?_)
  simp only [hside, hfree, Bool.not_false, if_true]

variable (hfree : s.ringFree a = true)
include hfree

theorem exec_racq_ok {r' : Ring} {slot fill : Nat} {fin : Bool} (hres : racqRes i r = .ok r' slot fill fin) :
    exec (.racq cl i) s = .next ((a.set (s.setRing a.c.id r') (racqSet i (slotWord r slot fill fin))).issued a (·.advance (wordsOf i))) := by
  refine congrArg _ ((issue_eq_settle h).trans ?_)
  simp only [hside, hfree, Bool.not_true, Bool.false_eq_true, if_false]
  rw [show (if fnBit i 0 then r.acqCons else r.acqProd) = _ from hres]
  rfl

theorem exec_racq_endInd (hres : racqRes i r = .endInd) :
    exec (.racq cl i) s = .next ((a.set (s.modCtx a.c.id fun c => { c with stallClock := 0, stalled := false })
      (racqSet i (BitVec.ofNat 64 (2 ^ 62)))).issued a (·.advance (wordsOf i))) := by
  refine congrArg _ ((issue_eq_settle h).trans ?_)
  simp only [hside, hfree, Bool.not_true, Bool.false_eq_true, if_false]
  rw [show (if fnBit i 0 then r.acqCons else r.acqProd) = _ from hres]
  rfl

theorem exec_racq_bad (hres : racqRes i r = .bad) : exec (.racq cl i) s = .next ((s.issued a id).endLaunch a.c.id ST_RING_ORDER) := by
  refine congrArg _ (issue_fail h ?_)
  simp only [hside, hfree, Bool.not_true, Bool.false_eq_true, if_false]
  rw [show (if fnBit i 0 then r.acqCons else r.acqProd) = _ from hres]

theorem exec_racq_noWait (hres : racqRes i r = .wait) (hnowait : fnBit i 1 = true) :
    ∃ t, exec (.racq cl i) s = .next t ∧ s.Retired t a ((a.k.setP i.c false).past i) := by
  refine ⟨_, rfl, issue_regs_retired h (fun k => k.setP i.c false) (fun k => k.setP_cl i.c false) ?_⟩
  simp only [hside, hfree, Bool.not_true, Bool.false_eq_true, if_false]
  rw [show (if fnBit i 0 then r.acqCons else r.acqProd) = _ from hres]
  exact if_pos hnowait

theorem exec_racq_waits (hres : racqRes i r = .wait) (hwait : fnBit i 1 = false) : exec (.racq cl i) s = .next (s.park a (.racq i.a (fnBit i 0))) := by
  refine congrArg _ (issue_wait h ?_)
  simp only [hside, hfree, Bool.not_true, Bool.false_eq_true, if_false]
  rw [show (if fnBit i 0 then r.acqCons else r.acqProd) = _ from hres]
  exact if_neg (by rw [hwait]; exact Bool.false_ne_true)

end

/-! ## The class of rings -/

theorem ringHold_full {s : State} {a : Site} (h : 32 ≤ a.k.running.length) (w : Wait) : s.ringFree a = false ∧ s.ringHold a w = .issue :=
  ⟨by rw [ringFree, decide_eq_false (Nat.not_lt.mpr h)]; rfl, if_pos h⟩

theorem queueFull_ring (s : State) (cl : Nat) : s.queueFull cl .ring = decide (8 ≤ s.queueLen cl .ring) := rfl

theorem ringHold_queueFull {s : State} {a : Site} (h : a.k.running.length < 32) (hq : 8 ≤ s.queueLen a.k.cl .ring) (w : Wait) :
    s.ringFree a = false ∧ s.ringHold a w = .queueFull .ring := by
  refine ⟨?_, ?_⟩
  · rw [ringFree, decide_eq_false (p := s.queueLen a.k.cl .ring = 0) (by omega), Bool.and_false]
  · rw [ringHold, if_neg (by omega), queueFull_ring, decide_eq_true hq]
    rfl

theorem ringHold_busy {s : State} {a : Site} (h : a.k.running.length < 32) (h0 : 0 < s.queueLen a.k.cl .ring) (h8 : s.queueLen a.k.cl .ring < 8) (w : Wait) :
    s.ringFree a = false ∧ s.ringHold a w = w := by
  refine ⟨?_, ?_⟩
  · rw [ringFree, decide_eq_false (p := s.queueLen a.k.cl .ring = 0) (by omega), Bool.and_false]
  · rw [ringHold, if_neg (by omega), queueFull_ring, decide_eq_false (by omega)]
    rfl

/-- Nothing of the context or of the class stands before a slot's event. -/
def ringIdle (s : State) (a : Site) : Bool := a.k.running.isEmpty && s.ringFree a

theorem ringIdle_of_idle {s : State} {a : Site} (hrun : a.k.running = []) (hq : s.queueLen a.k.cl .ring = 0) : s.ringIdle a = true := by
  simp [ringIdle, ringFree, hrun, hq]

theorem ringIdle_of_busy {s : State} {a : Site} (h : a.k.running ≠ [] ∨ s.queueLen a.k.cl .ring ≠ 0) : s.ringIdle a = false := by
  rcases h with h | h <;> simp [ringIdle, ringFree, h]

/-! ## RPUB and RREL -/

section
variable {s : State} {cl : Nat} {i : BWord} {a : Site} {rel : Bool} (h : s.issues cl i (if rel then [] else [i.b]) a) {r : Ring}
  (hside : a.c.sideOf cl i.a rel 0 = some r)
include h hside

theorem issueSlot_now {u : State} (hidle : s.ringIdle a = true) (hev : s.slotEvent a.c.id i.a rel (rpubFill i (a.k.s i.b) r) (fnBit i 0) = some u) :
    s.issueSlot cl i rel = u.issued a (·.advance (wordsOf i)) := by
  refine (issue_eq_settle h).trans ?_
  simp only [hside]
  rw [show (a.k.running.isEmpty && s.ringFree a) = true from hidle, if_pos rfl, hev]
  rfl

theorem issueSlot_bad (hidle : s.ringIdle a = true) (hev : s.slotEvent a.c.id i.a rel (rpubFill i (a.k.s i.b) r) (fnBit i 0) = none) :
    s.issueSlot cl i rel = (s.issued a id).endLaunch a.c.id ST_RING_ORDER := by
  refine issue_fail h ?_
  simp only [hside]
  rw [show (a.k.running.isEmpty && s.ringFree a) = true from hidle, if_pos rfl, hev]

theorem issueSlot_queued (hbusy : s.ringIdle a = false) (htakes : s.takes a (a.op s .ring (if rel then .rrel else .rpub) i [] [])) :
    ({ s with nextOp := s.nextOp + 1 } : State).Retired (s.issueSlot cl i rel) a
      ({ a.k with running := a.k.running ++ [a.op s .ring (if rel then .rrel else .rpub) i [] []] }.past i) := by
  rw [← ClCtx.queue_false]
  refine issue_queued_retired h ?_
  simp only [hside]
  rw [show (a.k.running.isEmpty && s.ringFree a) = false from hbusy]
  exact Site.enqueue_of_takes htakes

end

theorem slotEvent_release {s : State} {id q fill slot f : Nat} {fin b : Bool} {c : Ctx} {r r' : Ring} (hc : s.ctx? id = some c) (hr : c.ring? q = some r)
    (hrel : r.release = .ok r' slot f b) : s.slotEvent id q true fill fin = some (s.setRing id r') := by
  simp only [slotEvent, if_true, hc, Option.bind_some, hr, hrel]

end State

/-- Settles O37: what RACQ, RPUB and RREL do at their ring, and when they wait. -/
theorem ringInstructions : Obligations.RingInstructions := by
  unfold Obligations.RingInstructions
  intro s cl i a
  refine ⟨fun h r hside hfree => ?_, fun h hside => ?_, fun h hside => State.exec_racq_noSide h hside, fun h r hside => ?_, fun h r hside => ?_⟩
  · have hk := State.onCl_site s cl a h.2.1
    have hc := ctx_site h.2.1
    refine ⟨fun r' slot fill fin hres => ?_, fun hres => ?_, State.exec_racq_bad h hside hfree, State.exec_racq_noWait h hside hfree,
      State.exec_racq_waits h hside hfree⟩
    · have hexec := State.exec_racq_ok h hside hfree hres
      have hku : (s.setRing a.c.id r').onCl a.c.id a.k.cl = some a.k := (State.onCl_modCtx s a.c.id a.k.cl
        (fun c => { c with rings := modFirst (·.reg == r'.reg) (fun _ => r') c.rings, stallClock := 0, stalled := false }) (fun _ => rfl) fun _ => rfl).trans hk
      refine ⟨_, _, hexec, rfl, State.onCl_set_issued hku i _ (State.racqSet_cl i _), ?_, ?_⟩
      · cases fin <;> rfl
      · rw [State.rings_set_issued, State.ctx_setRing hc]
        rfl
    · have hexec := State.exec_racq_endInd h hside hfree hres
      have hku : (s.modCtx a.c.id fun c => { c with stallClock := 0, stalled := false }).onCl a.c.id a.k.cl = some a.k :=
        (State.onCl_modCtx s a.c.id a.k.cl (fun c => { c with stallClock := 0, stalled := false }) (fun _ => rfl) fun _ => rfl).trans hk
      exact ⟨_, hexec, rfl, State.onCl_set_issued hku i _ (State.racqSet_cl i _)⟩
  · obtain ⟨r, hr⟩ := Option.isSome_iff_exists.mp hside
    have hexec (hfree : s.ringFree a = false) := State.exec_racq_held h hr hfree
    refine ⟨fun hfull => ?_, fun hlen hq => ?_, fun hlen h0 h8 => ?_⟩
    · obtain ⟨hfree, hhold⟩ := State.ringHold_full (s := s) hfull (if fnBit i 1 then .issue else .racq i.a (fnBit i 0))
      rw [hexec hfree, hhold]
    · obtain ⟨hfree, hhold⟩ := State.ringHold_queueFull hlen hq (if fnBit i 1 then .issue else .racq i.a (fnBit i 0))
      rw [hexec hfree, hhold]
    · obtain ⟨hfree, hhold⟩ := State.ringHold_busy hlen h0 h8 (if fnBit i 1 then .issue else .racq i.a (fnBit i 0))
      rw [hexec hfree, hhold]
      rfl
  · refine ⟨fun u hrun hq hev => ?_, fun hrun hq hev => ?_, ?_⟩
    · exact congrArg _ (State.issueSlot_now (rel := false) h hside (State.ringIdle_of_idle hrun hq) hev)
    · exact congrArg _ (State.issueSlot_bad (rel := false) h hside (State.ringIdle_of_idle hrun hq) hev)
    · intro hbusy o htakes
      exact ⟨_, rfl, State.issueSlot_queued (rel := false) h hside (State.ringIdle_of_busy hbusy) htakes⟩
  · refine ⟨fun q r' slot f b hrun hq hring hrel => ?_, ?_⟩
    · exact congrArg _ (State.issueSlot_now (rel := true) h hside (State.ringIdle_of_idle hrun hq) (State.slotEvent_release (ctx_site h.2.1) hring hrel))
    · intro hbusy o htakes
      exact ⟨_, rfl, State.issueSlot_queued (rel := true) h hside (State.ringIdle_of_busy hbusy) htakes⟩

end Sys2Proof.Machine

/-! CURTAIN, WAITT and DLCHK (R328 to R330, R335): what settles O38. -/

namespace Sys2Proof.Machine

/-! ## An arrival at a curtain -/

section
variable {u : Curtain}

theorem Curtain.arrive_last (h : u.count + 1 = u.expect) : u.arrive = { u with gen := u.gen + 1, count := 0 } := if_pos (Nat.le_of_eq h.symm)

theorem Curtain.arrive_early (h : u.count + 1 < u.expect) : u.arrive = { u with count := u.count + 1 } := if_neg (by omega)

theorem Curtain.arrive_says (h0 : 0 < u.expect) (h : u.count < u.expect) : u.arrive.expect = u.expect ∧ u.arrive.count < u.expect
    ∧ (u.count + 1 = u.expect → u.arrive.gen = u.gen + 1 ∧ u.arrive.count = 0)
    ∧ (u.count + 1 < u.expect → u.arrive.gen = u.gen ∧ u.arrive.count = u.count + 1) := by
  rcases Nat.lt_or_eq_of_le h with hlt | heq
  · rw [Curtain.arrive_early hlt]
    exact ⟨rfl, hlt, fun heq => absurd heq (Nat.ne_of_lt hlt), fun _ => ⟨rfl, rfl⟩⟩
  · rw [Curtain.arrive_last heq]
    exact ⟨rfl, h0, fun _ => ⟨rfl, rfl⟩, fun hlt => absurd heq (Nat.ne_of_lt hlt)⟩

end

namespace State

/-! ## CURTAIN and WAITT -/

section
variable {s : State} {cl : Nat} {i : BWord} {a : Site} (h : s.issues cl i [] a)
include h

theorem exec_curtain_none (hnone : a.c.curtain? (curtainNo i) = none) :
    exec (.curtain cl i) s = .next ((s.issued a id).endLaunch a.c.id ST_RING_ROLE) := by
  refine congrArg _ (issue_fail h ?_)
  simp only [hnone]

theorem exec_waitt_none (hnone : a.c.curtain? (curtainNo i) = none) :
    exec (.waitt cl i) s = .next ((s.issued a id).endLaunch a.c.id ST_RING_ROLE) := by
  refine congrArg _ (issue_fail h ?_)
  simp only [hnone]

variable {u : Curtain} (hu : a.c.curtain? (curtainNo i) = some u)
include hu

section
variable (hrun : a.k.running = []) (hfree : s.ringFree a = true) (hfirst : (a.k.lastGen (curtainNo i) == some u.gen) = false)
include hrun hfree hfirst

theorem exec_curtain_arrives (hnowait : fnBit i 3 = false) :
    exec (.curtain cl i) s = .next ((s.arriveAt a.c.id cl (curtainNo i)).issued a (·.advance (wordsOf i))) := by
  refine congrArg _ ((issue_eq_settle h).trans ?_)
  simp only [hu, hnowait, hrun, hfree, hfirst, Bool.not_false, if_true, List.isEmpty_nil, and_self]
  rfl

theorem exec_curtain_waits (hwait : fnBit i 3 = true) (hnone : a.k.wait = none) :
    exec (.curtain cl i) s = .next (if u.expect ≤ u.count + 1 then (s.arriveAt a.c.id cl (curtainNo i)).issued a (·.advance (wordsOf i))
      else (s.arriveAt a.c.id cl (curtainNo i)).park a (.curtain (curtainNo i) u.gen)) := by
  have hnot : (a.k.lastGen (curtainNo i)).any (fun g => a.k.wait == some (.curtain (curtainNo i) g)) = false := by
    rw [hnone]
    cases a.k.lastGen (curtainNo i) <;> rfl
  refine congrArg _ ((issue_eq_settle h).trans ?_)
  simp only [hu, hwait, hnot, hrun, hfree, hfirst, Bool.not_true, Bool.false_eq_true, if_false, List.isEmpty_nil, or_self]
  split <;> rfl

end

section
variable (hfree : s.ringFree a = true)
include hfree

theorem exec_waitt_past (hpast : u.gen ≠ a.k.waitGen (curtainNo i) u) : ∃ t, exec (.waitt cl i) s = .next t ∧ s.Retired t a (a.k.past i) := by
  refine ⟨_, rfl, issue_done_retired h ?_⟩
  simp only [hu, hfree, Bool.not_true, Bool.false_eq_true, if_false]
  exact if_pos hpast

theorem exec_waitt_waits (hgen : u.gen = a.k.waitGen (curtainNo i) u) : exec (.waitt cl i) s = .next (s.park a (.curtain (curtainNo i) u.gen)) := by
  refine congrArg _ (issue_wait h ?_)
  simp only [hu, hfree, ← hgen, Bool.not_true, Bool.false_eq_true, if_false, ne_eq, not_true]

end

end

/-! ## DLCHK -/

/-- What DLCHK leaves in the share. -/
def dlchkSet (i : BWord) (r : Ring) (k : ClCtx) : ClCtx :=
  { (k.setS i.d (BitVec.ofNat 64 (r.misses + r.worst * 65536))).setP i.c (decide (k.dlSeen.getD i.a 0 < r.misses)) with
    dlSeen := (List.range 8).map (fun q => if q = i.a then r.misses else k.dlSeen.getD q 0) }

theorem dlchkSet_cl (i : BWord) (r : Ring) (k : ClCtx) : (dlchkSet i r k).cl = k.cl := by
  show ((k.setS _ _).setP _ _).cl = _
  rw [ClCtx.setP_cl, ClCtx.setS_cl]

theorem dlchkSet_dlSeen (i : BWord) (r : Ring) (k : ClCtx) {q : Nat} (hq : q < 8) :
    (dlchkSet i r k).dlSeen[q]? = some (if q = i.a then r.misses else k.dlSeen.getD q 0) := by
  simp only [dlchkSet, List.getElem?_map, List.getElem?_range hq, Option.map_some]

theorem exec_dlchk_retired {s : State} {cl : Nat} {i : BWord} {a : Site} {r : Ring} (h : s.issues cl i [i.d] a) (hr : a.c.ring? i.a = some r)
    (hfree : s.ringFree a = true) : ∃ t, exec (.dlchk cl i) s = .next t ∧ s.Retired t a ((dlchkSet i r a.k).past i) := by
  refine ⟨_, rfl, issue_regs_retired h (dlchkSet i r) (dlchkSet_cl i r) ?_⟩
  simp only [hr, hfree, Bool.not_true, Bool.false_eq_true, if_false]
  rfl

/-- The class of rings is empty for a share with nothing running. -/
theorem ringFree_of_idle {s : State} {a : Site} (hrun : a.k.running = []) (hq : s.queueLen a.k.cl .ring = 0) : s.ringFree a = true := by
  simp [ringFree, hrun, hq]

end State

/-- Settles O38: an arrival opens a generation or is counted; CURTAIN, WAITT and DLCHK in their cases. -/
theorem curtainInstructions : Obligations.CurtainInstructions := by
  unfold Obligations.CurtainInstructions
  refine ⟨fun u => Curtain.arrive_says, fun s cl i a h => ⟨fun hnone => ?_, fun u hu hnowait hrun hq hfirst => ?_, fun u hu hwait hrun hq hfirst hnone => ?_,
    fun u hu hfree => State.exec_waitt_past h hu hfree, fun u hu hfree => State.exec_waitt_waits h hu hfree⟩, fun s cl i a r h hr hfree => ?_⟩
  · exact ⟨State.exec_curtain_none h hnone, State.exec_waitt_none h hnone⟩
  · exact State.exec_curtain_arrives h hu hrun (State.ringFree_of_idle hrun hq) (beq_eq_false_iff_ne.mpr hfirst) hnowait
  · exact State.exec_curtain_waits h hu hrun (State.ringFree_of_idle hrun hq) (beq_eq_false_iff_ne.mpr hfirst) hwait hnone
  · obtain ⟨t, hexec, hret⟩ := State.exec_dlchk_retired h hr hfree
    exact ⟨t, State.dlchkSet i r a.k, hexec, hret, rfl, fun ha => (State.dlchkSet_dlSeen i r a.k ha).trans (congrArg some (if_pos rfl)),
      fun q hq hne => (State.dlchkSet_dlSeen i r a.k hq).trans (congrArg some (if_neg hne))⟩

end Sys2Proof.Machine

/-! Due slots and the stall detector (R332 to R334, R339 to R341): what settles O39. -/

namespace Sys2Proof.Machine

namespace State

/-! ## Due slots -/

/-- The share of a slot that was missed. -/
def slotMissed (s : State) (ctx : Nat) : State :=
  ((s.count Reg.RING_MISSES 1).latch Reg.RING_STATUS 2).modCtx ctx (fun c => { c with newMisses := c.newMisses + 1 })

section
variable {s : State} {ctx ring : Nat} {c : Ctx} {r : Ring} (hserv : s.serving = true) (hc : s.ctx? ctx = some c) (hr : c.ring? ring = some r)
include hserv hc hr

theorem exec_slotDue_early (hearly : s.now < r.due c.t0 r.dueNext) : exec (.slotDue ctx ring) s = .next s := by
  have hnot : ¬ (c.st = .running ∧ r.mode ≠ 0 ∧ s.reached (r.due c.t0 r.dueNext)) := fun h => by
    rw [reached_of_lt hearly] at h
    exact Bool.false_ne_true h.2.2
  refine exec_whenServing hserv rfl ?_
  simp only [hc, hr, Option.bind_some, Option.map_some]
  exact if_neg hnot

theorem exec_slotDue_due (hrun : c.st = .running) (hmode : r.mode ≠ 0) (hdue : r.due c.t0 r.dueNext ≤ s.now) :
    exec (.slotDue ctx ring) s = .next
      (let u := s.modCtx ctx (fun c => { c with rings := modFirst (·.reg == ring) (fun _ => r.atDue.1) c.rings })
       if r.published r.dueNext ∨ r.endPub then u else if r.mode = 2 then (u.slotMissed ctx).endLaunch ctx ST_RING_LATE else u.slotMissed ctx) := by
  refine exec_whenServing hserv rfl ?_
  simp only [hc, hr, Option.bind_some, Option.map_some]
  refine (if_pos ⟨hrun, hmode, reached_of_le hdue⟩).trans ?_
  cases hpub : r.published r.dueNext <;> cases hend : r.endPub <;> simp [Ring.atDue, hpub, hend, slotMissed]

end

/-! ## The stall detector -/

/-- RING_STALL_INFO of a launch that stalls: its curtains, its rings, the lowest cluster that waits, slot and context. -/
def stallInfo (s : State) (c : Ctx) : Nat :=
  let w := c.cls.filter (fun k => s.waits c k != ([], []))
  bitsOf (w.flatMap (fun k => (s.waits c k).2)) * 2 ^ 32 + bitsOf (w.flatMap (fun k => (s.waits c k).1)) * 2 ^ 24
    + (w.map (·.cl)).foldl min 127 * 2 ^ 16 + c.slot * 2 ^ 12 + c.id

/-- What a stall that is declared records in the registers of the rings. -/
def stallNoted (s : State) (info : Nat) : State :=
  (((s.count Reg.RING_STALLS 1).setRegN Reg.RING_STALL_INFO info).setReg Reg.RING_STALL_TIME s.time.gtime).latch Reg.RING_STATUS 0

theorem within_stallNoted (s : State) (info : Nat) : s.within events (s.stallNoted info) := within_latch _ _ _

theorem stallNoted_says (s : State) (info : Nat) (h : s.memOk = true) :
    (s.stallNoted info).reg Reg.RING_STALLS = s.reg Reg.RING_STALLS + 1 ∧ (s.stallNoted info).reg Reg.RING_STALL_TIME = s.time.gtime := by
  have hcount := (s.count_says Reg.RING_STALLS 1 h).1
  have hmem : ((s.count Reg.RING_STALLS 1).setRegN Reg.RING_STALL_INFO info).memOk = true := memOk_setReg _ _ _ (memOk_count s _ 1 h)
  have hbut {x : Nat} (hx : x ∉ [Reg.RING_STATUS, Reg.MSIX_PBA]) := (latch_but (((s.count Reg.RING_STALLS 1).setRegN Reg.RING_STALL_INFO info).setReg
    Reg.RING_STALL_TIME s.time.gtime) Reg.RING_STATUS 0).1 x hx
  constructor
  · rw [stallNoted, hbut (by decide), reg_setReg_ne _ _ _ _ (by decide), reg_setRegN_ne _ _ _ _ (by decide), hcount]
    rfl
  · rw [stallNoted, hbut (by decide), reg_setReg _ _ _ hmem]

/-- How a stall ends the launch whose queue's policy says so. -/
def stallAborted (s : State) (ctx : Nat) : State := ((s.endLaunch ctx ST_RING_STALL).latch Reg.RING_STATUS 1).count Reg.RING_STALL_ABORTS 1

theorem within_stallAborted (s : State) (ctx : Nat) : s.within (fun s t => { s with regs := t.regs, out := t.out, ctxs := t.ctxs, host := t.host }) (s.stallAborted ctx) := by
  have hend : s.within (fun s t => { s with regs := t.regs, out := t.out, ctxs := t.ctxs, host := t.host }) (s.endLaunch ctx ST_RING_STALL) := rfl
  exact within_trans hend (within_mono (within_trans (within_latch _ Reg.RING_STATUS 1) (within_count _ Reg.RING_STALL_ABORTS 1)))

theorem reg_stallAborted (s : State) (ctx : Nat) {x : Nat} (hx : x ∉ [Reg.RING_STATUS, Reg.MSIX_PBA, Reg.RING_STALL_ABORTS]) :
    (s.stallAborted ctx).reg x = s.reg x := by
  simp only [List.mem_cons, List.not_mem_nil, or_false, not_or] at hx
  rw [stallAborted, reg_count_ne _ _ _ _ hx.2.2, (latch_but _ Reg.RING_STATUS 1).1 x (by simp [hx.1, hx.2.1]), reg_endLaunch]

/-- The launch that a stall ends is being cancelled, with the status of a stall. -/
theorem ctx_endLaunch_cancels {s : State} {id st : Nat} {c : Ctx} (hc : s.ctx? id = some c) (hrun : c.status = none) :
    ((s.endLaunch id st).ctx? id).any (fun x => x.status == some st && x.st == .cancelling) = true := by
  have hwaits : (s.dropWaits (· == .args id)).ctx? id = some c := hc
  rw [endLaunch, ctx_modCtx _ _ _ (fun c => by split <;> rfl), hwaits]
  simp [hrun]

theorem ctx_stallAborted (s : State) (ctx : Nat) : (s.stallAborted ctx).ctx? ctx = (s.endLaunch ctx ST_RING_STALL).ctx? ctx :=
  congrArg (List.find? _) ((congrArg State.ctxs (latch_frame (s.endLaunch ctx ST_RING_STALL) Reg.RING_STATUS 1) :))

theorem exec_stallDeclared {s : State} {ctx : Nat} {c : Ctx} (hserv : s.serving = true) (hc : s.ctx? ctx = some c) (hst : s.stalls c = true) :
    exec (.stallDeclared ctx) s = .next (if s.regB Reg.RING_POLICY c.slot then (s.stallNoted (s.stallInfo c)).stallAborted ctx
      else (s.stallNoted (s.stallInfo c)).modCtx ctx (fun c => { c with stalled := true })) := by
  refine exec_whenServing hserv rfl ?_
  simp only [hc, hst, if_true]
  rfl

theorem exec_stallDeclared_not {s : State} {ctx : Nat} {c : Ctx} (hserv : s.serving = true) (hc : s.ctx? ctx = some c) (hst : s.stalls c = false) :
    exec (.stallDeclared ctx) s = .next s := by
  refine exec_whenServing hserv rfl ?_
  simp only [hc, hst, Bool.false_eq_true, if_false]

end State

/-- Settles O39: a due slot is missed or not, and a stall is recorded, with the launch ended where the policy says so. -/
theorem dueSlotsAndStalls : Obligations.DueSlotsAndStalls := by
  unfold Obligations.DueSlotsAndStalls
  refine fun s ctx ring c hserv hc => ⟨fun r hr hrun hmode hdue => State.exec_slotDue_due hserv hc hr hrun hmode hdue,
    fun r hr hearly => State.exec_slotDue_early hserv hc hr hearly, State.exec_stallDeclared_not hserv hc, fun hsound hst => ?_⟩
  have hexec := State.exec_stallDeclared hserv hc hst
  generalize s.stallInfo c = info at hexec
  obtain ⟨hstalls, htime⟩ := s.stallNoted_says info hsound.1
  have hnoted := s.within_stallNoted info
  have hcn : (s.stallNoted info).ctx? ctx = some c := by
    rw [hnoted]
    exact hc
  cases hpol : s.regB Reg.RING_POLICY c.slot
  · rw [hpol, if_neg Bool.false_ne_true] at hexec
    refine ⟨_, hexec, hstalls, htime, ?_, fun _ hid => ?_, fun h => absurd h Bool.false_ne_true⟩
    · rw [hnoted]
      rfl
    · exact (State.ctx_modCtx (s.stallNoted info) ctx (fun c => { c with stalled := true }) fun _ => rfl).trans (congrArg _ hcn)
  · rw [hpol, if_pos rfl] at hexec
    refine ⟨_, hexec, ?_, ?_, ?_, fun h => absurd h.symm Bool.false_ne_true, fun _ hnone => ?_⟩
    · rw [State.reg_stallAborted _ _ (by decide), hstalls]
    · rw [State.reg_stallAborted _ _ (by decide), htime]
    · exact State.within_trans (State.within_mono hnoted) ((s.stallNoted info).within_stallAborted ctx)
    · rw [State.ctx_stallAborted]
      exact State.ctx_endLaunch_cancels hcn hnone

end Sys2Proof.Machine

/-! EXIT of a launch that is to be swapped and whose queue is aborting (R377, R435): a counterexample to the EXIT clause of O40. -/

namespace Sys2Proof.Machine

/-- A running launch, marked for a swap and as aborted, whose second cluster the abort has cancelled. -/
def swappedLaunch : Ctx :=
  { Tests.ctx with
    swapping := true
    aborted := true
    cls := [Tests.share, { Tests.share with cl := 1, cancelled := true, acked := true }] }

def swappedPart : State := Tests.running swappedLaunch

/-- Whether launch `id` still has a share on cluster `cl` after a step that goes on. -/
def hasShareAfter (i : Instr) (s : State) (id cl : Nat) : Option Bool :=
  match exec i s with
  | .next t => some (t.onCl id cl).isSome
  | _ => none

theorem swappedPart_issues : swappedPart.issues 0 {} [] ⟨swappedLaunch, Tests.share⟩ := by
  unfold State.issues
  decide +kernel

theorem swappedPart_after : hasShareAfter (.exit 0 {}) swappedPart 3 0 = some false := by decide +kernel

/-- Refutes O40: the EXIT that completes the abort of a launch which is to be swapped frees its clusters, so that no exited share is left. -/
theorem not_controlInstructions : ¬Obligations.ControlInstructions := by
  unfold Obligations.ControlInstructions
  intro h
  obtain ⟨_, _, _, _, _, hexit⟩ := h.1 swappedPart 0 {} _ swappedPart_issues
  obtain ⟨t, hexec, hshare, _⟩ := hexit rfl
  have hafter := swappedPart_after
  simp only [hasShareAfter, hexec, Option.some.injEq] at hafter
  cases hon : t.onCl 3 0 with
  | none =>
    rw [show t.onCl swappedLaunch.id Tests.share.cl = none from hon] at hshare
    exact Bool.false_ne_true hshare
  | some k =>
    rw [hon] at hafter
    exact Bool.noConfusion hafter

end Sys2Proof.Machine

/-! An engine instruction that fails (R363) while the CFE waits for a translation: a counterexample to the frame of O41. -/

namespace Sys2Proof.Machine

/-- A reduction on the vector engine. -/
def someReduction : EngOp := Tests.eop .vec .vred

/-- The CFE's read of a segment of launch 3, which waits for its translation. -/
def segmentWait : XWait where
  id := 0
  port := 0
  pasid := 0
  addr := 0
  write := false
  who := .args 3
  group := none
  retried := false
  since := 0

/-- The part whose launch runs the reduction while the CFE waits with a segment of it. -/
def waitingPart : State :=
  let s := Tests.run { Tests.share with running := [someReduction] }
  { s with host := { s.host with waits := [segmentWait] } }

def reductionSite : Site := Tests.site { Tests.share with running := [someReduction] }

theorem waitingPart_runs : waitingPart.eng? 0 3 11 = some (reductionSite, someReduction) := by decide +kernel

theorem waitingPart_fails : (waitingPart.endEng reductionSite someReduction ST_RING_ROLE).host.waits = [] := by decide +kernel

/-- Refutes O41: an instruction that fails ends its launch, whose waiting host reads go too, while the statement lets only the launches and
registers change. -/
theorem not_engineEnds : ¬Obligations.EngineEnds := by
  unfold Obligations.EngineEnds
  intro h
  obtain ⟨_, _, _, hends, _⟩ := h waitingPart 0 3 11 _ _ (by decide) waitingPart_runs
  obtain ⟨t, k, rfl, _, _, _, _, _, hframe⟩ := hends ST_RING_ROLE
  have hwaits := waitingPart_fails
  rw [hframe] at hwaits
  exact List.cons_ne_nil _ _ hwaits

end Sys2Proof.Machine

/-! Sound states: what the operations of the state, packets and writes keep. A later rule chains them as `h.count.latch`. -/

namespace Sys2Proof.Machine

namespace State

/-- The lists of the part's units have their lengths. -/
structure Shaped (s : State) : Prop where
  gpes : s.gpes.length = 8
  doms : s.doms.length = 8
  dirs : s.dirs.length = 8
  fports : s.fports.length = 2
  strms : s.strms.length = 64
  clusters : s.clusters.length = 128
  slots : s.slots.length = 9
  bindings : s.bindings.length = 64
  hports : s.host.ports.length = 2
  hstate : s.mem.state.length = 16
  lports : s.link.ports.length = 32
  nports : s.net.link.length = 10
  roce : s.net.roce.length = 64

theorem shapeOk_iff (s : State) : s.shapeOk = true ↔ s.Shaped := by
  simp only [shapeOk, Bool.and_eq_true, beq_iff_eq]
  constructor
  · rintro ⟨⟨⟨⟨⟨⟨⟨⟨⟨⟨⟨⟨h1, h2⟩, h3⟩, h4⟩, h5⟩, h6⟩, h7⟩, h8⟩, h9⟩, h10⟩, h11⟩, h12⟩, h13⟩
    exact ⟨h1, h2, h3, h4, h5, h6, h7, h8, h9, h10, h11, h12, h13⟩
  · rintro ⟨h1, h2, h3, h4, h5, h6, h7, h8, h9, h10, h11, h12, h13⟩
    exact ⟨⟨⟨⟨⟨⟨⟨⟨⟨⟨⟨⟨h1, h2⟩, h3⟩, h4⟩, h5⟩, h6⟩, h7⟩, h8⟩, h9⟩, h10⟩, h11⟩, h12⟩, h13⟩

namespace Sound

variable {s : State}

theorem mem (h : s.Sound) : s.memOk = true := h.1

theorem shape (h : s.Sound) : s.Shaped := (shapeOk_iff s).mp h.2

theorem of_shape (hm : s.memOk = true) (hs : s.Shaped) : s.Sound := ⟨hm, (shapeOk_iff s).mpr hs⟩

/-! ## One list of units replaced by one of its length -/

section
variable (h : s.Sound)
include h

theorem gpes {l : List Gpe} (hl : l.length = s.gpes.length) : ({ s with gpes := l } : State).Sound := of_shape h.mem { h.shape with gpes := hl.trans h.shape.gpes }
theorem doms {l : List Dom} (hl : l.length = s.doms.length) : ({ s with doms := l } : State).Sound := of_shape h.mem { h.shape with doms := hl.trans h.shape.doms }
theorem dirs {l : List Dir} (hl : l.length = s.dirs.length) : ({ s with dirs := l } : State).Sound := of_shape h.mem { h.shape with dirs := hl.trans h.shape.dirs }
theorem fports {l : List FPort} (hl : l.length = s.fports.length) : ({ s with fports := l } : State).Sound := of_shape h.mem { h.shape with fports := hl.trans h.shape.fports }
theorem strms {l : List Strm} (hl : l.length = s.strms.length) : ({ s with strms := l } : State).Sound := of_shape h.mem { h.shape with strms := hl.trans h.shape.strms }
theorem clusters {l : List Cluster} (hl : l.length = s.clusters.length) : ({ s with clusters := l } : State).Sound :=
  of_shape h.mem { h.shape with clusters := hl.trans h.shape.clusters }
theorem slots {l : List QSlot} (hl : l.length = s.slots.length) : ({ s with slots := l } : State).Sound := of_shape h.mem { h.shape with slots := hl.trans h.shape.slots }
theorem host {x : HostSt} (hl : x.ports.length = s.host.ports.length) : ({ s with host := x } : State).Sound := of_shape h.mem { h.shape with hports := hl.trans h.shape.hports }
theorem hbmState {x : HbmSt} (hl : x.state.length = s.mem.state.length) : ({ s with mem := x } : State).Sound := of_shape h.mem { h.shape with hstate := hl.trans h.shape.hstate }
theorem link {x : LinkSt} (hl : x.ports.length = s.link.ports.length) : ({ s with link := x } : State).Sound := of_shape h.mem { h.shape with lports := hl.trans h.shape.lports }
theorem net {x : NetSt} (hl : x.link.length = s.net.link.length) (hr : x.roce.length = s.net.roce.length) : ({ s with net := x } : State).Sound :=
  of_shape h.mem { h.shape with nports := hl.trans h.shape.nports, roce := hr.trans h.shape.roce }

end

/-! ## Registers, memories and what is sent -/

section
variable (h : s.Sound)
include h

theorem setReg {a : Nat} {v : Word} : (s.setReg a v).Sound := ⟨memOk_setReg s a v h.1, h.2⟩
theorem setRegN {a n : Nat} : (s.setRegN a n).Sound := h.setReg
theorem count {a n : Nat} : (s.count a n).Sound := h.setReg
theorem emit {o : Out} : (s.emit o).Sound := h

theorem setEvent {a : Nat} {v : Word} : (s.setEvent a v).Sound := by
  refine ⟨memOk_setEvent s a v h.1, ?_⟩
  rw [setEvent_frame]
  exact h.2

theorem latch {a k : Nat} : (s.latch a k).Sound := h.setEvent
theorem hbmWrite {a : Nat} {b : Bytes} : (s.hbmWrite a b).Sound := ⟨memOk_hbmWrite s a b h.1, h.2⟩
theorem scrWrite {c o : Nat} {b : Bytes} : (s.scrWrite c o b).Sound := ⟨memOk_scrWrite s c o b h.1, h.2⟩
theorem scrCells {c : List Host.Cell} : (s.scrCells c).Sound := ⟨memOk_scrCells s c h.1, h.2⟩
theorem free : s.free.2.Sound := h
theorem ras {x : RasSt} : ({ s with ras := x } : State).Sound := h

theorem log {sev code unit i0 i1 i2 : Nat} {ctx : Option Nat} : (s.log sev code unit ctx i0 i1 i2).Sound := by
  unfold State.log
  dsimp only
  split <;> split
  · exact h.ras.latch.emit
  · exact h.ras.emit
  · exact h.ras.latch
  · exact h.ras

end

/-- A fold of sound steps. -/
theorem foldl {α : Type} {f : State → α → State} (hf : ∀ {s : State} (x : α), s.Sound → (f s x).Sound) (l : List α) {s : State} (h : s.Sound) :
    (l.foldl f s).Sound := by
  induction l generalizing s with
  | nil => exact h
  | cons x l ih => exact ih (hf x h)

theorem freeBytes (n : Nat) {s : State} (h : s.Sound) : (s.freeBytes n).2.Sound := by
  induction n generalizing s with
  | zero => exact h
  | succ n ih => exact ih h.free

/-! ## Changes of one unit -/

section
variable (h : s.Sound)
include h

theorem modSlot {k : Nat} {f : QSlot → QSlot} : (s.modSlot k f).Sound := h.slots (List.length_modify ..)
theorem modGpe {d : Nat} {f : Gpe → Gpe} : (s.modGpe d f).Sound := h.gpes (List.length_modify ..)
theorem modCluster {c : Nat} {f : Cluster → Cluster} : (s.modCluster c f).Sound := h.clusters (List.length_modify ..)
theorem modStrm {i : Nat} {f : Strm → Strm} : (s.modStrm i f).Sound := h.strms (List.length_modify ..)
theorem modFPort {p : Nat} {f : FPort → FPort} : (s.modFPort p f).Sound := h.fports (List.length_modify ..)
theorem modDom {i : Nat} {f : Dom → Dom} : (s.modDom i f).Sound := h.doms (List.length_modify ..)
theorem modLPort {n : Nat} {f : LPort → LPort} : (s.modLPort n f).Sound := h.link (List.length_modify ..)
theorem modRoce {c : Nat} {f : Roce → Roce} : (s.modRoce c f).Sound := h.net rfl (List.length_modify ..)
theorem modHPort {p : Nat} {f : HPort → HPort} : (s.modHPort p f).Sound := h.host (List.length_modify ..)
theorem modCmd {k n : Nat} {f : Cmd → Cmd} : (s.modCmd k n f).Sound := h.modSlot
theorem endCmd {k n st v : Nat} : (s.endCmd k n st v).Sound := h.modSlot
theorem modCtx {id : Nat} {f : Ctx → Ctx} : (s.modCtx id f).Sound := h
theorem modTable {n : Nat} {f : Table → Table} : (s.modTable n f).Sound := h
theorem modVer {n v : Nat} {f : Version → Version} : (s.modVer n v f).Sound := h
theorem dropWaits {p : XReq → Bool} : (s.dropWaits p).Sound := h

end

/-! ## Frames -/

section
variable (h : s.Sound)
include h

theorem rxFrame {p : Nat} : (s.rxFrame p).Sound := h.count
theorem sendFrame {p : Nat} {o : Out} : (s.sendFrame p o).Sound := h.count.emit
theorem dropFrame {p : Nat} : (s.dropFrame p).Sound := h.count

theorem sendPrio {p prio : Nat} {o : Out} : (s.sendPrio p prio o).Sound := by
  unfold State.sendPrio
  split
  · exact h
  · split
    · exact h
    · exact h.sendFrame

theorem resumeFrames : s.resumeFrames.Sound := foldl (fun _ h => h.sendFrame) _ h

theorem rxUdp {p : Nat} {e : EthHdr} {v6 : Bool} {k : State → State} (hk : ∀ {s : State}, s.Sound → (k s).Sound) : (s.rxUdp p e v6 k).Sound := by
  unfold State.rxUdp
  split
  · exact h
  · split
    · exact h.count
    · split
      · exact h.rxFrame.dropFrame
      · exact hk h.rxFrame

end

/-! ## Packets and writes -/

section
variable (h : s.Sound)
include h

theorem portGo {n : Nat} : (s.portGo n).Sound := by
  unfold State.portGo
  split
  · exact h
  · dsimp only
    split
    · exact h.modLPort
    · exact h.modLPort.emit

theorem sendEmpty {n : Nat} {ctrl : Bool} {payload : Bytes} : (s.sendEmpty n ctrl payload).Sound := by
  unfold State.sendEmpty
  split
  · exact h
  · exact h.modLPort.emit

theorem putPort {p : Send} {port dl : Nat} : (s.putPort p port dl).Sound := h.modLPort.portGo
theorem transmit {p : Send} {port dl : Nat} : (s.transmit p port dl).Sound := h.emit.putPort
theorem launch {x : Parcel} : (s.launch x).Sound := h

theorem post {p : Send} : (s.post p).2.Sound := by
  unfold State.post
  split
  · exact h.launch.emit
  · split
    · exact h
    · split
      · exact h.latch
      · exact h.launch.emit

theorem tell {dst die : Nat} {body : Payload} : (s.tell dst die body).Sound := h.post

theorem sendWrite {die dst : Nat} {body : Payload} {cmd : Option (Nat × Nat)} {r : Option (Nat × Word)} : (s.sendWrite die dst body cmd r).2.Sound := by
  unfold State.sendWrite
  dsimp only
  split
  · exact h
  · have hp := h.post (p := ⟨dst, die, keyGet 0 s.link.seqs dst, 0, body⟩)
    split
    · next he =>
      rw [he] at hp
      exact hp
    · next he =>
      rw [he] at hp
      split <;> exact hp

theorem write {die dst : Nat} {body : Payload} : (s.write die dst body).Sound := h.sendWrite

theorem drain {dst : Nat} : (s.drain dst).2.Sound := by
  unfold State.drain
  split
  · exact h
  · exact h.post

theorem sendNamed {die dst : Nat} {body : Payload} : (s.sendNamed die dst body).2.Sound := by
  have hw := h.sendWrite (die := die) (dst := dst) (body := body) (cmd := none) (r := none)
  unfold State.sendNamed
  split <;> · next he =>
    rw [he] at hw
    exact hw

theorem accept {die node n : Nat} : (s.accept die node n).Sound := h
theorem keepResult {w : WriteHdr} {r : Nat} : (s.keepResult w r).Sound := h
theorem sendAck {w : WriteHdr} {r : Nat} : (s.sendAck w r).Sound := h.tell
theorem renew {w : WriteHdr} : (s.renew w).Sound := h
theorem owe {o : Owed} : (s.owe o).Sound := h

theorem pay {o : Owed} : (s.pay o).Sound := by
  unfold State.pay
  split
  · exact h.keepResult.sendAck
  · exact h.sendAck

theorem recvWrite {w : WriteHdr} {f : State → Nat × State} (hf : ∀ {s : State}, s.Sound → (f s).2.Sound) : (s.recvWrite w f).Sound := by
  unfold State.recvWrite
  split
  · exact (hf h).sendAck
  · split
    · exact (hf h.accept).keepResult.sendAck
    · exact h.count.sendAck
    · exact h.count

theorem recvOwed {w : WriteHdr} {f : State → Option Nat × State} (hf : ∀ {s : State}, s.Sound → (f s).2.Sound) : (s.recvOwed w f).Sound := by
  unfold State.recvOwed
  extract_lets owed answer
  have hans {s : State} (h : s.Sound) : (answer s).Sound := by
    have hfs := hf h
    simp only [answer]
    split
    · next he =>
      rw [he] at hfs
      exact hfs
    · next he =>
      rw [he] at hfs
      split
      · exact hfs.keepResult.sendAck
      · exact hfs.sendAck
  split
  · split
    · exact h.renew
    · exact hans h
  · split
    · exact hans h.accept
    · split
      · exact h.count.renew
      · exact h.count.sendAck
    · exact h.count

end

end Sound

end State

end Sys2Proof.Machine

/-! Losing the part (R542, R546): the steps of a self-loss keep a state sound, and what they can change. -/

namespace Sys2Proof.Machine

namespace State

/-- What a part that declares itself lost may change. -/
def losing (s t : State) : State :=
  { s with pwr := t.pwr, tables := t.tables, ctxs := t.ctxs, clusters := t.clusters, scripts := t.scripts, gpes := t.gpes, cueNames := t.cueNames,
           slots := t.slots, link := t.link, net := t.net, regs := t.regs, out := t.out, ras := t.ras }

/-! ## The contexts of a lost part -/

/-- The tables and what is sent about them. -/
def tellsTables (s t : State) : State := { s with tables := t.tables, link := t.link, regs := t.regs, out := t.out }

/-- The launches with what they hold. -/
def launches (s t : State) : State :=
  { s with tables := t.tables, ctxs := t.ctxs, clusters := t.clusters, scripts := t.scripts, link := t.link, regs := t.regs, out := t.out }

theorem within_repick (s : State) (cl : Nat) : s.within launches (s.repick cl) := by
  unfold repick
  split
  · rfl
  · split
    · rfl
    · split <;> rfl

theorem within_reportZero (s : State) (h v : Nat) : s.within tellsTables (s.reportZero h v) := by
  unfold reportZero
  split
  · rfl
  · split
    · split
      · split
        · rfl
        · split
          · exact within_mono (onlySends.within (s.onlySends_write _ _ _))
          · rfl
      · rfl
    · rfl

theorem within_dropRef (s : State) (hv : Nat × Nat) : s.within tellsTables (s.dropRef hv) :=
  within_trans (t := s.modVer hv.1 hv.2 (fun w => { w with refs := w.refs - 1 })) rfl (within_reportZero _ _ _)

theorem within_dropRefs (s : State) (l : List (Nat × Nat)) : s.within tellsTables (s.dropRefs l) := within_foldl _ within_dropRef l s

theorem within_repickAll (s : State) (l : List Nat) : s.within launches (l.foldl repick s) := within_foldl _ within_repick l s

/-- The launch `id` is released: its script, its understudy's, its references, and its place in the list. -/
def unlisted (s : State) (c : Ctx) (id : Nat) : State :=
  let s2 := ((s.freeClusters c).dropRefs c.versions).dropScript c.script c.edition
  let s3 := match c.us with
    | some (h, e) => s2.dropScript h e
    | none => s2
  { s3 with ctxs := s3.ctxs.filter (fun x => !(x.id == id)) }

theorem releaseCtx_eq {s : State} {id : Nat} {c : Ctx} (hc : s.ctx? id = some c) :
    s.releaseCtx id = (c.cls.map (·.cl)).foldl repick (s.unlisted c id) := by
  unfold releaseCtx
  rw [hc]
  rfl

theorem within_unlisted (s : State) (c : Ctx) (id : Nat) : s.within launches (s.unlisted c id) := by
  have hrefs : s.within launches ((s.freeClusters c).dropRefs c.versions) := within_trans (t := s.freeClusters c) rfl (within_mono (within_dropRefs _ _))
  unfold unlisted
  dsimp only
  split <;> exact within_trans hrefs rfl

theorem within_releaseCtx (s : State) (id : Nat) : s.within launches (s.releaseCtx id) := by
  cases hc : s.ctx? id with
  | none =>
    unfold releaseCtx
    rw [hc]
    rfl
  | some c =>
    rw [releaseCtx_eq hc]
    exact within_trans (within_unlisted _ _ _) (within_repickAll _ _)

/-- What the dropped contexts take with them. -/
def clearing (s t : State) : State :=
  { s with tables := t.tables, ctxs := t.ctxs, clusters := t.clusters, scripts := t.scripts, gpes := t.gpes, cueNames := t.cueNames,
           slots := t.slots, link := t.link, regs := t.regs, out := t.out }

theorem within_dropContexts (s : State) : s.within clearing s.dropContexts := by
  have hrel : s.within clearing ((s.ctxs.map (·.id)).foldl releaseCtx s) := within_mono (within_foldl _ within_releaseCtx (s.ctxs.map (·.id)) s)
  exact within_trans hrel rfl

theorem ctxs_enter (s : State) (cl id : Nat) : (s.enter cl id).ctxs.map (·.id) = s.ctxs.map (·.id) :=
  map_modFirst _ (fun c : Ctx => { c with cls := modFirst (·.cl == cl) (fun k => { k with since := s.time.gtime }) c.cls }) _ _ fun _ => rfl

theorem ctxs_repick (s : State) (cl : Nat) : (s.repick cl).ctxs.map (·.id) = s.ctxs.map (·.id) := by
  unfold repick
  split
  · rfl
  · split
    · exact ctxs_enter _ _ _
    · split
      · exact ctxs_enter _ _ _
      · rfl

theorem ctxs_repickAll (l : List Nat) (s : State) : (l.foldl repick s).ctxs.map (·.id) = s.ctxs.map (·.id) :=
  List.foldlRecOn l repick (motive := fun t => t.ctxs.map (·.id) = s.ctxs.map (·.id)) rfl fun t h x _ => (ctxs_repick t x).trans h

theorem ctxs_unlisted (s : State) (c : Ctx) (id : Nat) : (s.unlisted c id).ctxs = s.ctxs.filter (fun x => !(x.id == id)) := by
  have hrefs : ((s.freeClusters c).dropRefs c.versions).ctxs = s.ctxs := by
    rw [within_dropRefs]
    rfl
  unfold unlisted
  dsimp only
  split <;> exact congrArg (List.filter _) hrefs

theorem ctxs_releaseCtx (s : State) (id : Nat) : (s.releaseCtx id).ctxs.map (·.id) = (s.ctxs.map (·.id)).filter (fun n => !(n == id)) := by
  cases hc : s.ctx? id with
  | none =>
    have hnot : ∀ n ∈ s.ctxs.map (·.id), (!(n == id)) = true := by
      simpa [ctx?] using hc
    unfold releaseCtx
    rw [hc, List.filter_eq_self.mpr hnot]
  | some c =>
    rw [releaseCtx_eq hc, ctxs_repickAll, ctxs_unlisted, List.filter_map]
    rfl

theorem ctxs_releaseAll (l : List Nat) (s : State) : (l.foldl releaseCtx s).ctxs.map (·.id) = (s.ctxs.map (·.id)).filter (fun n => !l.contains n) := by
  induction l generalizing s with
  | nil => exact (List.filter_eq_self.mpr fun _ _ => rfl).symm
  | cons id l ih =>
    rw [List.foldl_cons, ih, ctxs_releaseCtx, List.filter_filter]
    congr 1
    funext n
    simp only [List.contains_cons, Bool.not_or, Bool.and_comm]

/-- A part that drops its contexts has none. -/
theorem ctxs_dropContexts (s : State) : s.dropContexts.ctxs = [] := by
  have hids : ((s.ctxs.map (·.id)).foldl releaseCtx s).ctxs.map (·.id) = [] := by
    rw [ctxs_releaseAll, List.filter_eq_nil_iff]
    intro n hn
    simpa using hn
  exact List.map_eq_nil_iff.mp hids

/-! ## The steps of R542 -/

theorem onlySends_putPort (s : State) (p : Send) (port dl : Nat) : s.onlySends (s.putPort p port dl) :=
  onlySends_trans (s.onlySends_link _) (onlySends_portGo _ _)

theorem onlySends_flushHops (s : State) : s.onlySends s.flushHops := by
  refine onlySends_trans (s.onlySends_link { s.link with noc := { s.link.noc with entry := s.link.noc.entry.filter (·.hop.isNone) } }) (onlySends_foldl _ ?_ _ _)
  intro s x
  split
  · exact s.onlySends_refl
  · exact s.onlySends_putPort _ _ _

theorem onlySends_tellLost (s : State) : s.onlySends s.tellLost := by
  unfold tellLost
  split
  · split
    · exact s.onlySends_refl
    · exact onlySends_trans (s.onlySends_write _ _ _) (onlySends_flushHops _)
  · exact s.onlySends_refl

theorem within_writeDump (s : State) (code : Nat) : s.within frames (s.writeDump code).2 := by
  unfold writeDump
  dsimp only
  split
  · rfl
  · split
    · rfl
    · exact within_trans (t := s.modRoce _ _) rfl (within_sendPrio _ _ _ _)

/-- The power state once the last gasp stands. -/
def gasped (p : Power) (code : Nat) : Power := { p with lost := true, fatal := true, gaspN := false, gaspCode := some code }

/-- The part without its contexts, marked as lost. -/
def cleared (s : State) : State := ({ s with pwr := { s.pwr with lost := true } } : State).dropContexts

/-- The part up to the last gasp. -/
def silenced (s : State) (code : Nat) : State :=
  let s2 := s.cleared.tellLost
  let s3 := if s.regB Reg.RAS_DUMP 63 then (s2.writeDump code).2 else s2
  s3.portsDown

/-- What goes out, on Twiben and network ports. -/
def sending (s t : State) : State := { s with link := t.link, net := t.net, regs := t.regs, out := t.out }

theorem within_silenced (s : State) (code : Nat) : s.cleared.within sending (s.silenced code) := by
  have htell : s.cleared.within sending s.cleared.tellLost := within_mono (onlySends_tellLost _).within
  unfold silenced
  dsimp only
  split
  · exact within_trans (within_trans htell (within_mono (within_writeDump _ code))) rfl
  · exact within_trans htell rfl

/-- Every Twiben port is down, but one that has failed. -/
theorem ports_silenced (s : State) (code : Nat) : ∀ l ∈ (s.silenced code).link.ports, l.st ≠ 2 := by
  unfold silenced portsDown
  intro l hl
  obtain ⟨l0, -, rfl⟩ := List.mem_map.mp hl
  split
  · next h4 => omega
  · exact (by decide : (0 : Nat) ≠ 2)

/-- Power, events and the RAS records. -/
def gasping (s t : State) : State := { s with pwr := t.pwr, regs := t.regs, out := t.out, ras := t.ras }

theorem within_lastGasp (s : State) (code : Nat) : s.within gasping (s.lastGasp code) :=
  within_trans (within_mono (s.within_log 4 (0xF000 + code) (12 * 4096 + s.node) none 0 0 0)) rfl

/-- The part right before the last gasp. -/
def fatallyLost (s : State) (code : Nat) : State :=
  let t := (s.silenced code).latch Reg.RAS_STATUS 6
  { t with pwr := { t.pwr with fatal := true } }

theorem declareLost_eq {s : State} (h : s.pwr.lost = false) (code : Nat) : s.declareLost code = (s.fatallyLost code).lastGasp code := by
  unfold declareLost
  rw [h, if_neg Bool.false_ne_true]
  rfl

theorem declareLost_lost {s : State} (h : s.pwr.lost = true) (code : Nat) : s.declareLost code = s := if_pos h

theorem within_fatallyLost (s : State) (code : Nat) : (s.silenced code).within gasping (s.fatallyLost code) :=
  within_trans (within_mono (within_latch _ Reg.RAS_STATUS 6)) rfl

theorem within_declareLost (s : State) (code : Nat) : s.within losing (s.declareLost code) := by
  cases h : s.pwr.lost with
  | true =>
    rw [declareLost_lost h]
    exact within_refl s
  | false =>
    have hcleared : s.within losing s.cleared := within_trans (t := { s with pwr := { s.pwr with lost := true } }) rfl (within_mono (within_dropContexts _))
    rw [declareLost_eq h]
    exact within_trans (within_trans (within_trans hcleared (within_mono (within_silenced s code))) (within_mono (within_fatallyLost s code)))
      (within_mono (within_lastGasp _ code))

/-! ## What a lost part keeps sound -/

namespace Sound

section
variable {s : State} (h : s.Sound)
include h

theorem enter {cl id : Nat} : (s.enter cl id).Sound := h.modCluster

theorem repick {cl : Nat} : (s.repick cl).Sound := by
  unfold State.repick
  split
  · exact h
  · split
    · exact h.enter
    · split
      · exact h.enter
      · exact h

theorem switchTo {cl : Nat} {p : Ctx → Bool} : (s.switchTo cl p).Sound := by
  unfold State.switchTo
  split
  · exact h.enter
  · exact h

theorem noteZero {t v n : Nat} : (s.noteZero t v n).Sound := h

theorem reportZero {t v : Nat} : (s.reportZero t v).Sound := by
  unfold State.reportZero
  split
  · exact h
  · split
    · split
      · split
        · exact h
        · split
          · exact h.write
          · exact h
      · exact h
    · exact h

theorem dropRef {hv : Nat × Nat} : (s.dropRef hv).Sound := h.modVer.reportZero
theorem dropRefs {l : List (Nat × Nat)} : (s.dropRefs l).Sound := foldl (fun _ h => h.dropRef) l h
theorem dropScript {n e : Nat} : (s.dropScript n e).Sound := h
theorem freeClusters {c : Ctx} : (s.freeClusters c).Sound := h.clusters (List.length_map _)

theorem unlisted {c : Ctx} {id : Nat} : (s.unlisted c id).Sound := by
  have hrefs := h.freeClusters (c := c).dropRefs (l := c.versions)
  unfold State.unlisted
  dsimp only
  split <;> exact hrefs

theorem releaseCtx {id : Nat} : (s.releaseCtx id).Sound := by
  cases hc : s.ctx? id with
  | none =>
    unfold State.releaseCtx
    rw [hc]
    exact h
  | some c =>
    rw [releaseCtx_eq hc]
    exact foldl (fun _ h => h.repick) _ h.unlisted

theorem dropContexts : s.dropContexts.Sound := by
  have hrel := foldl (f := State.releaseCtx) (fun _ h => h.releaseCtx) (s.ctxs.map (·.id)) h
  exact of_shape hrel.mem { hrel.shape with
    gpes := (List.length_map _).trans hrel.shape.gpes
    slots := (List.length_map _).trans hrel.shape.slots }

theorem flushHops : s.flushHops.Sound := by
  refine foldl ?_ _ h
  intro s x h
  split
  · exact h
  · exact h.putPort

theorem tellLost : s.tellLost.Sound := by
  unfold State.tellLost
  split
  · split
    · exact h
    · exact h.write.flushHops
  · exact h

theorem writeDump {code : Nat} : (s.writeDump code).2.Sound := by
  unfold State.writeDump
  dsimp only
  split
  · exact h
  · split
    · exact h
    · exact h.modRoce.sendPrio

theorem portsDown : s.portsDown.Sound := h.link (List.length_map _)

theorem silenced {code : Nat} : (s.silenced code).Sound := by
  have hpwr : ({ s with pwr := { s.pwr with lost := true } } : State).Sound := h
  unfold State.silenced
  dsimp only
  split
  · exact hpwr.dropContexts.tellLost.writeDump.portsDown
  · exact hpwr.dropContexts.tellLost.portsDown

theorem lastGasp {code : Nat} : (s.lastGasp code).Sound := h.log.setRegN
theorem fatallyLost {code : Nat} : (s.fatallyLost code).Sound := h.silenced.latch

theorem declareLost {code : Nat} : (s.declareLost code).Sound := by
  unfold State.declareLost
  split
  · exact h
  · exact h.fatallyLost.lastGasp

end

end Sound

/-! ## What a part is like once it is lost -/

section
variable (s : State) (code : Nat)

theorem pwr_fatallyLost : (s.fatallyLost code).pwr = { s.pwr with lost := true, fatal := true } := by
  have hsil : (s.silenced code).pwr = { s.pwr with lost := true } := by
    rw [within_silenced, sending, cleared, within_dropContexts]
    rfl
  have hlatch : ((s.silenced code).latch Reg.RAS_STATUS 6).pwr = { s.pwr with lost := true } := by
    rw [latch_frame]
    exact hsil
  exact congrArg (fun p : Power => { p with fatal := true }) hlatch

theorem ctxs_fatallyLost : (s.fatallyLost code).ctxs = [] := by
  rw [within_fatallyLost, gasping, within_silenced]
  exact ctxs_dropContexts _

theorem ports_fatallyLost : ∀ l ∈ (s.fatallyLost code).link.ports, l.st ≠ 2 := by
  rw [within_fatallyLost]
  exact ports_silenced s code

theorem pwr_lastGasp : (s.lastGasp code).pwr = { s.pwr with gaspN := false, gaspCode := some code } := by
  have hlog : (s.log 4 (0xF000 + code) (12 * 4096 + s.node) none 0 0 0).pwr = s.pwr := by rw [log_frame]
  exact congrArg (fun p : Power => { p with gaspN := false, gaspCode := some code }) hlog

theorem cause_lastGasp (h : s.Sound) (hcode : code < 2 ^ 12) : (s.lastGasp code).regN Reg.RAS_LAST_CAUSE = 2 ^ 31 + code := by
  have hreg : (s.lastGasp code).reg Reg.RAS_LAST_CAUSE = BitVec.ofNat 64 (2 ^ 31 + code) := reg_setRegN _ _ _ h.log.mem
  rw [regN, hreg, BitVec.toNat_ofNat]
  omega

end

end State

end Sys2Proof.Machine

/-! Faults and scored units (R475 to R477, R536 to R543): what settles O56. -/

namespace Sys2Proof.Machine

namespace State

/-! ## Errors of HBM -/

/-- An uncorrectable granule noted, before the stack is judged. -/
def ueNoted (s : State) (k pc granule : Nat) : State :=
  let recent := s.mem.ue.filter (fun e => e.1 == k && decide (s.now < e.2.toNat + second))
  let s1 := (((s.count (Reg.MEM_UE k) 1).memErr k 2 pc granule).latch Reg.HST_STATUS 3).log 2 ST_MEM_UNCORR (6 * 4096 + k * 32 + pc % 32) none 0 granule 0
  { s1 with mem := { s1.mem with ue := (k, s.time.gtime) :: recent ++ s1.mem.ue.filter (fun e => !(e.1 == k)) } }

/-- Uncorrectable granules of stack k within the last second, with this one. -/
def ueCount (s : State) (k : Nat) : Nat := (s.mem.ue.filter (fun e => e.1 == k && decide (s.now < e.2.toNat + second))).length + 1

theorem memUncorrectable_eq (s : State) (k pc granule : Nat) :
    s.memUncorrectable k pc granule = if s.regF (Reg.MEM_CTL k) 15 0 < s.ueCount k then (s.ueNoted k pc granule).failStack k else s.ueNoted k pc granule := rfl

theorem pwr_ueNoted (s : State) (k pc granule : Nat) : (s.ueNoted k pc granule).pwr = s.pwr := by
  have hlog := State.log_frame (((s.count (Reg.MEM_UE k) 1).memErr k 2 pc granule).latch Reg.HST_STATUS 3) 2 ST_MEM_UNCORR (6 * 4096 + k * 32 + pc % 32) none 0 granule 0
  show (State.log _ _ _ _ _ _ _ _).pwr = _
  rw [hlog, latch_frame]
  rfl

theorem lost_declareLost (s : State) (code : Nat) : (s.declareLost code).pwr.lost = true := by
  cases h : s.pwr.lost with
  | true => rw [declareLost_lost h, h]
  | false => rw [declareLost_eq h, pwr_lastGasp, pwr_fatallyLost]

theorem mem_declareLost (s : State) (code : Nat) : (s.declareLost code).mem = s.mem := by rw [within_declareLost]; rfl

theorem failStack_says (s : State) {k : Nat} (hk : k < s.mem.state.length) : (s.failStack k).mem.state[k]? = some 2 ∧ (s.failStack k).pwr.lost = true := by
  refine ⟨?_, lost_declareLost _ _⟩
  rw [failStack, mem_declareLost]
  exact (List.getElem?_modify_eq _ _ _).trans (by rw [List.getElem?_eq_getElem hk]; rfl)

/-! ## Scored units -/

theorem unit_putUnit (s : State) (x : UnitSt) : (s.putUnit x).unit x.id = x := by
  simp [unit, putUnit]

theorem unit_putUnit_ne (s : State) {x : UnitSt} {u : Nat} (h : u ≠ x.id) : (s.putUnit x).unit u = s.unit u := by
  unfold unit putUnit
  rw [List.find?_cons_of_neg (by simpa using h.symm), List.find?_filter]
  congr 2
  funext y
  by_cases hy : y.id = u
  · simp [hy, h]
  · simp [hy]

theorem unit_id (s : State) (u : Nat) : (s.unit u).id = u := by
  unfold unit
  cases h : s.ras.units.find? (·.id == u) with
  | none => rfl
  | some x => simpa using List.find?_some h

theorem ras_latch (s : State) (a k : Nat) : (s.latch a k).ras = s.ras := by rw [latch_frame]

theorem units_log (s : State) (sev code unit : Nat) (ctx : Option Nat) (i0 i1 i2 : Nat) : (s.log sev code unit ctx i0 i1 i2).ras.units = s.ras.units := by
  simp only [log, apply_ite State.ras, emit_ras, ras_latch, ite_self]

/-- A unit that has had an event (R537). -/
def eventUnit (s : State) (u : Nat) : UnitSt :=
  { s.unit u with
    events := s.time.gtime :: (s.unit u).events.filter (fun t => decide (s.now < t.toNat + day))
    transients := []
    last := s.time.gtime }

theorem eventUnit_id (s : State) (u : Nat) : (s.eventUnit u).id = u := s.unit_id u

theorem unit_congr {s t : State} (h : t.ras.units = s.ras.units) (u : Nat) : t.unit u = s.unit u := by
  unfold unit
  rw [h]

theorem unit_log (s : State) (sev code unit : Nat) (ctx : Option Nat) (i0 i1 i2 u : Nat) : (s.log sev code unit ctx i0 i1 i2).unit u = s.unit u :=
  unit_congr (s.units_log ..) u

theorem unit_latch (s : State) (a k u : Nat) : (s.latch a k).unit u = s.unit u := unit_congr (by rw [ras_latch]) u

theorem watch_log (s : State) (sev code unit : Nat) (ctx : Option Nat) (i0 i1 i2 : Nat) : (s.log sev code unit ctx i0 i1 i2).watch = s.watch :=
  congrArg (List.filter _) (s.units_log ..)

/-- A healthy unit that has an event becomes SUSPECT while the watch list has room. -/
theorem unitEvent_healthy {s : State} {u : Nat} {c : CheckRep} (hst : (s.unit u).st = .healthy) (hroom : s.watch.length < 64) :
    s.unitEvent u c = ((s.logCheck u 3 c).putUnit { s.eventUnit u with st := .suspect }).latch Reg.RAS_STATUS 3 := by
  have hroom' : (s.logCheck u 3 c).watch.length < 64 := by
    rw [logCheck, watch_log]
    exact hroom
  unfold unitEvent
  simp only [hst]
  exact if_pos hroom'

theorem unitEvent_suspect {s : State} {u : Nat} {c : CheckRep} (hst : (s.unit u).st = .suspect) :
    s.unitEvent u c = if s.fenceLimit ≤ (s.eventUnit u).events.length then ((s.logCheck u 3 c).putUnit (s.eventUnit u)).enterFencing u
      else (s.logCheck u 3 c).putUnit (s.eventUnit u) := by
  simp only [unitEvent, eventUnit, hst]

/-- A unit of a cluster that is fenced is marked so. -/
theorem enterFencing_cluster {s : State} {u : Nat} (h : unitKind u ≤ 3) : s.enterFencing u = s.putUnit { s.unit u with st := .fencing } := by
  unfold enterFencing
  split <;> first | omega | rfl

theorem unit_enterFencing {s : State} {u : Nat} (h : unitKind u ≤ 3) : (s.enterFencing u).unit u = { s.unit u with st := .fencing } := by
  rw [enterFencing_cluster h]
  have hput := s.unit_putUnit { s.unit u with st := .fencing }
  rwa [show ({ s.unit u with st := .fencing } : UnitSt).id = u from s.unit_id u] at hput

theorem unit_putEvent (s : State) {t : State} (u : Nat) (f : UnitSt → UnitSt) (hf : ∀ x, (f x).id = x.id) :
    (t.putUnit (f (s.eventUnit u))).unit u = f (s.eventUnit u) := by
  have hput := t.unit_putUnit (f (s.eventUnit u))
  rwa [hf, eventUnit_id] at hput

/-! ## The commands of units and probes -/

section
variable {s : State} {u : Nat} (hserv : s.serving = true)
include hserv

theorem exec_selfTest_due {passed : Bool} (hsc : scored u = true) (hst : (s.unit u).st = .healthy ∨ (s.unit u).st = .suspect) (hidle : s.unitBusy u = false)
    (hdue : s.elapsed (s.unit u).tested (s.testTicks (s.unit u).st) = true) :
    exec (.selfTestInterval u passed) s = .next ((s.putUnit { s.unit u with tested := some s.time.gtime }).selfTest u passed) :=
  exec_whenServing hserv rfl (if_pos ⟨hsc, hst, by rw [hidle]; rfl, hdue⟩)

theorem exec_selfTest_busy {passed : Bool} (hbusy : s.unitBusy u = true) : exec (.selfTestInterval u passed) s = .next s := by
  refine exec_whenServing hserv rfl (if_neg ?_)
  rintro ⟨-, -, hidle, -⟩
  rw [hbusy] at hidle
  exact Bool.false_ne_true hidle

theorem exec_unitFenced_busy (hbusy : s.unitBusy u = true) : exec (.unitFenced u) s = .next s := by
  refine exec_whenServing hserv rfl (if_neg ?_)
  rintro ⟨-, hidle⟩
  rw [hbusy] at hidle
  exact Bool.false_ne_true hidle

theorem exec_unitFenced (hst : (s.unit u).st = .fencing) (hidle : s.unitBusy u = false) :
    exec (.unitFenced u) s = .next (((s.putUnit { s.unit u with st := .fenced }).latch Reg.RAS_STATUS 4).log 3 ST_OK u none 0 0 0) :=
  exec_whenServing hserv rfl (if_pos ⟨hst, by rw [hidle]; rfl⟩)

theorem exec_watchListExpiry (hst : (s.unit u).st = .suspect) (hday : (s.unit u).last.toNat + day ≤ s.now) :
    exec (.watchListExpiry u) s = .next (s.putUnit { s.unit u with st := .healthy }) :=
  exec_whenServing hserv rfl (if_pos ⟨hst, hday⟩)

theorem exec_watchListExpiry_not (hst : (s.unit u).st ≠ .suspect) : exec (.watchListExpiry u) s = .next s :=
  exec_whenServing hserv rfl (if_neg fun h => hst h.1)

end

section
variable {s : State} {node : Nat} (hserv : s.serving = true)
include hserv

theorem exec_probeTimeout_due {p : ProbeJob} (hp : s.ras.probes.find? (·.node == node) = some p) (hdue : p.since.toNat + s.probeTicks ≤ s.now) :
    exec (.probeTimeout node) s = .next (s.declareNode node (if p.asked.all (fun n => p.failedSays.contains n) then 3 else 2)) := by
  refine exec_whenServing hserv rfl ?_
  simp only [hp]
  exact if_pos (reached_of_le hdue)

theorem exec_probeTimeout_early {p : ProbeJob} (hp : s.ras.probes.find? (·.node == node) = some p) (hearly : s.now < p.since.toNat + s.probeTicks) :
    exec (.probeTimeout node) s = .next s := by
  refine exec_whenServing hserv rfl ?_
  simp only [hp]
  exact if_neg (by rw [reached_of_lt hearly]; exact Bool.false_ne_true)

/-- The report of a suspect goes to the next member. -/
def reportTo (s : State) (node m : Nat) : State :=
  { s with ras := { s.ras with reports := modFirst (·.node == node) (fun r => { r with to_ := m, since := s.time.gtime }) s.ras.reports } }

theorem exec_suspectReport_due {r : Report} {m : Nat} (hr : s.ras.reports.find? (·.node == node) = some r) (hdue : r.since.toNat + s.probeTicks ≤ s.now)
    (hm : s.liveMembers.find? (fun m => decide (r.to_ < m)) = some m) :
    exec (.suspectReportTimeout node) s = .next (if m = s.member then (s.reportTo node m).startProbe node r.portsFailed
      else (s.reportTo node m).write 0 (s.memberNode m) (.suspect node r.portsFailed)) := by
  refine exec_whenServing hserv rfl ?_
  simp only [hr]
  refine (if_pos (reached_of_le hdue)).trans ?_
  simp only [hm]
  rfl

theorem exec_suspectReport_none (hr : s.ras.reports.any (·.node == node) = false) : exec (.suspectReportTimeout node) s = .next s := by
  have hnone : s.ras.reports.find? (·.node == node) = none := by simpa using hr
  refine exec_whenServing hserv rfl ?_
  simp only [hnone]

end

/-- A node that is declared lost is probed no more. -/
theorem probes_declareNode (s : State) (node reason : Nat) : ∀ q ∈ (s.declareNode node reason).ras.probes, q.node ≠ node := by
  let s1 : State := { s with ras := { s.ras with probes := s.ras.probes.filter (fun p => !(p.node == node)) } }
  let s2 := s1.setRegN Reg.RAS_LOST_NODE (s.now / 2 ^ 16 * 2 ^ 16 + reason * 2 ^ 12 + node)
  have hsends : s2.onlySends (s.declareNode node reason) :=
    onlySends_trans (onlySends_foldl _ (fun s x => s.onlySends_write 0 x (.lost node)) _ _) (onlySends_write _ _ _ _)
  rw [hsends.1]
  intro q hq
  have := (List.mem_filter.mp hq).2
  simpa using this

/-! ## Patrol scrub -/

/-- A granule that patrol scrub has just read. -/
def scrubbedAt (s : State) (k granule : Nat) : State :=
  { s with mem := { s.mem with scrubbed := keyPut s.mem.scrubbed (k, granule) s.time.gtime } }

section
variable {s : State} {k granule : Nat} (hup : s.up = true) (hst : s.mem.state[k]? = some 1) (hin : granule * 32 < 80 * 2 ^ 30)

include hup hst hin in
theorem exec_patrolScrub_due (h : HbmHealth) (hdue : s.scrubDue k granule = true) :
    exec (.patrolScrub k granule h) s = .next ((s.scrubbedAt k granule).scrub k granule (healthOf h)) := by
  refine congrArg Host.Outcome.next (if_neg ?_)
  rintro (h1 | h1 | h1 | h1)
  · rw [hup] at h1
    exact Bool.noConfusion h1
  · exact h1 hst
  · omega
  · rw [hdue] at h1
    exact Bool.noConfusion h1

theorem exec_patrolScrub_early (h : HbmHealth) (hearly : s.scrubDue k granule = false) : exec (.patrolScrub k granule h) s = .next s :=
  congrArg Host.Outcome.next (if_pos (.inr (.inr (.inr (by rw [hearly]; rfl)))))

theorem scrubDue_of (h : ∀ w, s.mem.scrubbed.lookup (k, granule) = some w → w.toNat + hour * s.regF (Reg.MEM_CTL k) 31 24 ≤ s.now) :
    s.scrubDue k granule = true := by
  unfold scrubDue elapsed
  cases hl : s.mem.scrubbed.lookup (k, granule) with
  | none => rfl
  | some w => exact reached_of_le (h w hl)

theorem scrubDue_not {w : Word} (hl : s.mem.scrubbed.lookup (k, granule) = some w) (h : s.now < w.toNat + hour * s.regF (Reg.MEM_CTL k) 31 24) :
    s.scrubDue k granule = false := by
  unfold scrubDue elapsed
  rw [hl]
  exact reached_of_lt h

end

theorem healthOf_parity {par : Nat} (h : par ≤ 4) (g : GranuleHealth) : healthOf ⟨par, g⟩ = g := if_neg (by simpa using h)

theorem healthOf_bad {par : Nat} {g : GranuleHealth} (h : par ≤ 4 ∧ g = .uncorrectable ∨ 4 < par) : healthOf ⟨par, g⟩ = .uncorrectable := by
  rcases h with ⟨hp, rfl⟩ | hp
  · exact healthOf_parity hp _
  · exact if_pos hp

/-- A granule of the general region is noted as bad. -/
def noteBad (s : State) (a : Nat) : State := { s with mem := { s.mem with bad := insertNew (a / 32) s.mem.bad } }

theorem scrub_uncorrectable {s : State} {k granule a : Nat} (ha : s.devOf k (granule * 32) = some a) :
    s.scrub k granule .uncorrectable = (s.memUncorrectable k (granule / 8 % 32) granule).noteBad a := by
  rw [scrub.eq_def, ha]
  rfl

theorem exec_stackFailed {s : State} {k : Nat} (hup : s.up = true) (hk : k < 16) (hst : s.mem.state[k]? ≠ some 2) :
    exec (.stackFailed k) s = .next (s.failStack k) := congrArg Host.Outcome.next (if_pos ⟨hup, hk, hst⟩)

theorem exec_watchdogExpired {s : State} {core : Nat} (hup : s.up = true) (hcore : core < 2) :
    exec (.watchdogExpired core) s = .next (s.declareLost 0x730) := congrArg Host.Outcome.next (if_pos ⟨hup, hcore⟩)

end State

/-- Settles O56: what a lost part leaves, the errors of HBM, the states of scored units, and the loss of a node. -/
theorem faultsAndUnits : Obligations.FaultsAndUnits := by
  unfold Obligations.FaultsAndUnits
  refine ⟨fun s code => ⟨fun hlost => State.declareLost_lost hlost code, fun hlive hsound hcode => ?_⟩, fun s k granule par hup hst hin => ⟨fun hdue => ?_, fun t h hl hearly => ?_, ?_, fun hk => ?_⟩,
    fun s core hup hcore => State.exec_watchdogExpired hup hcore, fun s u c => ⟨fun hst hroom => ?_, fun hkind hst => ?_⟩,
    fun s u hserv => ⟨fun passed hsc hst hidle hdue => State.exec_selfTest_due hserv hsc hst hidle hdue,
      fun passed hbusy => ⟨State.exec_selfTest_busy hserv hbusy, State.exec_unitFenced_busy hserv hbusy⟩, fun hst hidle => ?_, fun hst hday => ?_,
      fun hst => State.exec_watchListExpiry_not hserv hst⟩,
    fun s node hserv => ⟨fun p hp => ⟨fun hdue => ⟨State.exec_probeTimeout_due hserv hp hdue, State.probes_declareNode s node⟩,
      fun hearly => State.exec_probeTimeout_early hserv hp hearly⟩, fun r m hr hdue hm => State.exec_suspectReport_due hserv hr hdue hm,
      fun hr => State.exec_suspectReport_none hserv hr⟩⟩
  · have hframe := s.within_declareLost code
    rw [State.declareLost_eq hlive] at hframe ⊢
    refine ⟨?_, ?_, ?_, ?_, State.cause_lastGasp _ code hsound.fatallyLost hcode, ?_⟩
    · rw [State.pwr_lastGasp, State.pwr_fatallyLost]
    · rw [State.within_lastGasp]
      exact s.ctxs_fatallyLost code
    · rw [hframe]
      rfl
    · rw [hframe]
      rfl
    · rw [State.within_lastGasp]
      exact s.ports_fatallyLost code
  · have hexec (h : HbmHealth) := State.exec_patrolScrub_due hup hst hin h (State.scrubDue_of hdue)
    refine ⟨fun hpar => ?_, fun hpar => ?_, fun a h hbad ha => ?_⟩
    · rw [hexec, State.healthOf_parity hpar]
      rfl
    · rw [hexec, State.healthOf_parity hpar]
      rfl
    · intro u
      rw [hexec, State.healthOf_bad hbad, State.scrub_uncorrectable (s := s.scrubbedAt k granule) ha]
      rfl
  · exact State.exec_patrolScrub_early h (State.scrubDue_not hl hearly)
  · intro n
    refine ⟨fun hmany => ?_, fun hfew => ?_⟩
    · rw [State.memUncorrectable_eq, if_pos (show _ < s.ueCount k from hmany)]
      exact State.lost_declareLost _ _
    · rw [State.memUncorrectable_eq, if_neg (show ¬_ < s.ueCount k from Nat.not_lt.mpr hfew), State.pwr_ueNoted]
  · have hlen : k < s.mem.state.length := (List.getElem?_eq_some_iff.mp hst).1
    exact ⟨State.exec_stackFailed hup hk (by rw [hst]; decide), State.failStack_says s hlen⟩
  · rw [State.unitEvent_healthy hst hroom, State.unit_latch, State.unit_putEvent s u (fun x => { x with st := .suspect }) fun _ => rfl]
  · rw [State.unitEvent_suspect hst]
    have hput := State.unit_putEvent s (t := s.logCheck u 3 c) u (fun x => x) fun _ => rfl
    intro n
    by_cases hlim : s.fenceLimit ≤ (s.eventUnit u).events.length
    · rw [if_pos hlim, State.unit_enterFencing hkind]
      exact (if_pos hlim).symm
    · rw [if_neg hlim, hput, State.eventUnit, hst]
      exact (if_neg hlim).symm
  · refine ⟨_, State.exec_unitFenced hserv hst hidle, ?_, ?_⟩
    · have hput := s.unit_putUnit { s.unit u with st := .fenced }
      rw [show ({ s.unit u with st := .fenced } : UnitSt).id = u from s.unit_id u] at hput
      rw [State.unit_log, State.unit_latch, hput]
    · rw [State.log_frame, State.latch_frame]
      rfl
  · have hput := s.unit_putUnit { s.unit u with st := .healthy }
    rw [show ({ s.unit u with st := .healthy } : UnitSt).id = u from s.unit_id u] at hput
    exact ⟨_, State.exec_watchListExpiry hserv hst hday, by rw [hput], rfl,
      fun v hv => s.unit_putUnit_ne (by rw [show ({ s.unit u with st := .healthy } : UnitSt).id = u from s.unit_id u]; exact hv)⟩

end Sys2Proof.Machine

/-! Failed checks and residue codes (R270 to R273, R310, R535 to R537): what settles O42. -/

namespace Sys2Proof.Machine

namespace State

/-! ## What a failed check changes -/

/-- From s to t records were made: RAS state, RAS_STATUS with its interrupt, and messages. -/
structure notes (s t : State) : Prop where
  frame : s.within records t
  regs : s.regsBut t [Reg.RAS_STATUS, Reg.MSIX_PBA]

theorem notes_refl (s : State) : s.notes s := ⟨rfl, fun _ _ => rfl⟩

theorem notes_trans {s t u : State} (h1 : s.notes t) (h2 : t.notes u) : s.notes u := ⟨within_trans h1.frame h2.frame, regsBut_trans h1.regs h2.regs⟩

theorem notes_logCheck (s : State) (u sev : Nat) (c : CheckRep) : s.notes (s.logCheck u sev c) :=
  ⟨s.within_log .., s.log_but sev c.code u c.ctx c.hash 0 c.no⟩

theorem notes_putUnit (s : State) (x : UnitSt) : s.notes (s.putUnit x) := ⟨rfl, fun _ _ => rfl⟩

theorem notes_latch (s : State) (k : Nat) : s.notes (s.latch Reg.RAS_STATUS k) := ⟨within_mono (s.within_latch _ k), (s.latch_but _ k).1⟩

/-- A unit other than a GPE or a stack that is fenced. -/
theorem notes_enterFencing {s : State} {u : Nat} (h : unitKind u ≤ 3) : s.notes (s.enterFencing u) := by
  rw [enterFencing_cluster h]
  exact s.notes_putUnit _

theorem within_enterFencing (s : State) (u : Nat) : s.within losing (s.enterFencing u) := by
  unfold enterFencing
  split
  · exact s.within_declareLost _
  · exact s.within_declareLost _
  · rfl

section
variable {R : State → State → Prop} (htrans : ∀ {s t u}, R s t → R t u → R s u) (hnote : ∀ {s t}, s.notes t → R s t) {u : Nat}
  (hfence : ∀ s : State, R s (s.enterFencing u))
include htrans hnote hfence

/-- An event of a unit is made of records and, it may be, of the unit's fencing. -/
theorem unitEvent_induct (s : State) (c : CheckRep) : R s (s.unitEvent u c) := by
  have hlog : s.notes (s.logCheck u 3 c) := s.notes_logCheck u 3 c
  have hput (x : UnitSt) : s.notes ((s.logCheck u 3 c).putUnit x) := notes_trans hlog (notes_putUnit _ x)
  unfold unitEvent
  extract_lets x y s1
  split
  · unfold enterWatch
    extract_lets add
    have hadd (t : State) (ht : s.notes t) : R s (add t) := hnote (notes_trans ht (notes_trans (notes_putUnit t _) (notes_latch _ 3)))
    have hid : y.id = u := s.unit_id u
    split
    · exact hadd _ hlog
    · split
      · rw [hid]
        exact htrans (hnote (hput y)) (hfence _)
      · exact hadd _ (hput _)
  · split
    · exact htrans (hnote (hput y)) (hfence _)
    · exact hnote (hput y)
  · exact hnote (hput y)
  · exact hnote (hput y)

omit htrans hnote hfence in
theorem notes_logChecks (u : Nat) (c : CheckRep) (n : Nat) (s : State) : s.notes (Nat.repeat (fun s => s.logCheck u 2 c) n s) := by
  induction n with
  | zero => exact s.notes_refl
  | succ n ih => exact notes_trans ih (notes_logCheck _ u 2 c)

omit htrans hnote hfence in
/-- Checks that failed are counted, and then recorded. -/
theorem notes_checksCounted (s : State) (u n : Nat) (c : CheckRep) : (s.count Reg.RAS_CHECK_FAIL n).notes (s.checksCounted u n c) :=
  notes_trans (notes_latch _ 2) (notes_logChecks u c (n - 1) _)

theorem checkFailed_induct (s : State) (n : Nat) (c : CheckRep) (event : Bool) : R (s.count Reg.RAS_CHECK_FAIL n) (s.checkFailed u n c event) := by
  have hcount := hnote (s.notes_checksCounted u n c)
  have hevent := unitEvent_induct (R := R) htrans hnote hfence
  unfold checkFailed
  extract_lets s1
  split
  · exact htrans hcount (hevent s1 c)
  · unfold unitTransient
    extract_lets x t s2
    have h2 : s1.notes s2 := notes_trans (notes_putUnit _ _) (notes_logCheck _ u 2 c)
    split
    · exact htrans hcount (htrans (hnote h2) (hevent s2 c))
    · exact htrans hcount (hnote h2)

end

theorem notes_checkFailed {u : Nat} (h : unitKind u ≤ 3) (s : State) (n : Nat) (c : CheckRep) (event : Bool) :
    (s.count Reg.RAS_CHECK_FAIL n).notes (s.checkFailed u n c event) :=
  checkFailed_induct (R := notes) notes_trans id (fun _ => notes_enterFencing h) s n c event

theorem within_checkFailed (s : State) (u n : Nat) (c : CheckRep) (event : Bool) : s.within losing (s.checkFailed u n c event) :=
  within_trans (t := s.count Reg.RAS_CHECK_FAIL n) rfl
    (checkFailed_induct (R := fun s t => s.within losing t) (fun h1 h2 => within_trans h1 h2) (fun h => within_mono h.frame) (fun s => s.within_enterFencing u) s n c event)

theorem unitKind_le_three {u : Nat} (h : u < 4 * 4096) : unitKind u ≤ 3 := by
  unfold unitKind
  omega

theorem checkFailed_says {u : Nat} (hu : u < 4 * 4096) {s : State} (hs : s.Sound) (n : Nat) (c : CheckRep) (event : Bool) :
    (s.checkFailed u n c event).reg Reg.RAS_CHECK_FAIL = s.reg Reg.RAS_CHECK_FAIL + BitVec.ofNat 64 n
      ∧ (s.checkFailed u n c event).ctxs = s.ctxs ∧ (s.checkFailed u n c event).scr = s.scr ∧ (s.checkFailed u n c event).hbm = s.hbm := by
  have hnotes := notes_checkFailed (unitKind_le_three hu) s n c event
  refine ⟨(hnotes.regs _ (by decide)).trans (s.count_says _ n hs.1).1, ?_, ?_, ?_⟩ <;> rw [hnotes.frame] <;> rfl

/-! ## The commands of failed checks -/

section
variable {s : State} {cl ctx id : Nat} {a : Site} {o : EngOp} {n : CheckNo} (hserv : s.serving = true) (hcl : cl < 128) (heng : s.eng? cl ctx id = some (a, o))
include hserv hcl heng

section
variable {array : Nat} (harray : array < 8) (hcls : o.cls = .arr)
include harray hcls

theorem exec_residueCheckFails (r : Replay) (t : State)
    (ht : (match r with
      | .same => (s.checkFailed (cl * 8 + array) 1 (CheckRep.of n ST_AR_CHECK (some ctx)) false).modEng cl ctx id (fun o => { o with flags := o.flags ||| fREPLAY })
      | .other => (s.checkFailed (cl * 8 + array) 2 (CheckRep.of n ST_AR_CHECK (some ctx)) true).modEng cl ctx id (fun o => { o with flags := o.flags ||| fREPLAY ||| fMOVED })
      | .failed =>
        let s1 := s.checkFailed (cl * 8 + array) 2 (CheckRep.of n ST_AR_CHECK (some ctx)) true
        (match s.nextArray cl array with
          | some j => s1.checkMoved (cl * 8 + j) (CheckRep.of n ST_AR_CHECK (some ctx))
          | none => s1).modEng cl ctx id (fun o => { o with flags := o.flags ||| fREPLAY ||| fMOVED, failed := some ST_AR_CHECK })) = t) :
    exec (.residueCheckFails cl array ctx id r n) s = .next t := by
  refine exec_whenServing hserv rfl ?_
  simp only [heng]
  refine (if_neg ?_).trans ht
  rintro (h | h | h)
  · exact h hcls
  · omega
  · omega

end

theorem exec_vectorCheckFails {sfu : Bool} (hunit : if sfu then o.onSfu = true else o.cls = .vec) (passed : Bool) :
    exec (.vectorCheckFails cl sfu ctx id passed n) s
      = .next ((s.checkFailed ((if sfu then 2 else 1) * 4096 + cl) (if passed then 1 else 2) (CheckRep.of n ST_AR_CHECK (some ctx)) (!passed)).modEng
          cl ctx id (fun o => { o with flags := o.flags ||| fREPLAY, failed := if passed then o.failed else some ST_AR_CHECK })) := by
  refine exec_whenServing hserv rfl ?_
  simp only [heng]
  refine if_neg ?_
  rintro (h | h)
  · cases sfu with
    | true => exact Bool.false_ne_true (h.symm.trans hunit)
    | false => exact h hunit
  · omega

theorem exec_transferCheckFails (hcls : o.cls = .te) (passed : Bool) :
    exec (.transferCheckFails cl ctx id passed n) s
      = .next ((s.checkFailed (3 * 4096 + cl) (if passed then 1 else 2) (CheckRep.of n ST_RAS_CHECK (some ctx)) (!passed)).modEng cl ctx id
          (fun o => { o with failed := if passed then o.failed else some ST_RAS_CHECK })) := by
  refine exec_whenServing hserv rfl ?_
  simp only [heng]
  refine if_neg ?_
  rintro (h | h)
  · exact h hcls
  · omega

end

/-- A bag's sum is given up: its reads and its place go. -/
def bagGivenUp (s : State) (die src c op bag : Nat) : State :=
  let s2 := s.dropBag die src c op bag
  { s2 with reads := s2.reads.filter (fun x => !(x.die == die && x.src == src && x.ctx == c && x.op == op && x.bag == bag)) }

section
variable {s : State} {die src c op bag : Nat} {r : OwnReq} {b : OwnBag} {t0 : Table} {w : Version} (hserv : s.serving = true) (hr : s.req? die src c op = some r)
  (hb : r.bags.find? (·.bag == bag) = some b) (ht : s.table? r.handle = some t0) (hw : t0.ver? r.ver = some w)
include hserv hr hb ht hw

theorem exec_gpeCheckFails_again (n : CheckNo) :
    exec (.gpeCheckFails die src c op bag true n) s = .next ((s.checkFailed (5 * 4096 + die) (if !b.redone then 2 else 1) (CheckRep.of n ST_RAS_CHECK (some c)) true).bagGivenUp
      die src c op bag) := by
  refine exec_whenServing hserv rfl ?_
  simp only [hr, hb, ht, hw, Option.bind_some, Option.map_some, Bool.true_or, Bool.true_and, if_true]
  rfl

theorem exec_gpeCheckFails_first (n : CheckNo) (hfirst : b.redone = false) :
    exec (.gpeCheckFails die src c op bag false n) s = .next ((b.items.foldl (fun s e => s.readIndex r t0 w bag [] e)
      ((s.checkFailed (5 * 4096 + die) 1 (CheckRep.of n ST_RAS_CHECK (some c)) false).modReq die src c op
        (fun r => r.modBag bag (fun b => { b with terms := [], count := 0, flags := 0, redone := true, items := [] })))).tryFinish die src c op bag) := by
  refine exec_whenServing hserv rfl ?_
  simp only [hr, hb, ht, hw, hfirst, Option.bind_some, Option.map_some, Bool.false_or, Bool.false_and, Bool.false_eq_true, if_false]

end

end State

/-! ## Residue codes -/

theorem residue_cast (x : Int) : (residue x : Int) = x % 15 := by
  unfold residue
  omega

/-- A residue agrees with a sum of residues where the difference is a multiple of 15. -/
theorem residue_beq_iff {x v : Int} {n : Nat} (hn : (n : Int) % 15 = v % 15) : (residue x == n % 15) = true ↔ (x - v) % 15 = 0 := by
  have hx := residue_cast x
  rw [beq_iff_eq]
  omega

theorem residue_emod (x : Int) : (residue x : Int) % 15 = x % 15 := by
  rw [residue_cast]
  omega

theorem mulCheck_iff (x w product : Int) : mulCheck (residue x) (residue w) product = true ↔ (product - x * w) % 15 = 0 := by
  refine residue_beq_iff ?_
  rw [Int.natCast_mul, Int.mul_emod, residue_emod, residue_emod, ← Int.mul_emod]

theorem weighted_emod (inputs : List (Int × Nat)) :
    ((((inputs.map (fun x => (residue x.1, x.2))).map (fun x => x.1 * (2 ^ x.2 % 15))).sum : Nat) : Int) % 15 = (inputs.map (fun x => x.1 * 2 ^ x.2)).sum % 15 := by
  induction inputs with
  | nil => rfl
  | cons x l ih =>
    have hpow : ((2 ^ x.2 % 15 : Nat) : Int) % 15 = 2 ^ x.2 % 15 := by
      rw [Int.natCast_emod, Int.natCast_pow]
      exact Int.emod_emod_of_dvd _ (Int.dvd_refl 15)
    have hterm : ((residue x.1 * (2 ^ x.2 % 15) : Nat) : Int) % 15 = x.1 * 2 ^ x.2 % 15 := by
      rw [Int.natCast_mul, Int.mul_emod, residue_emod, hpow, ← Int.mul_emod]
    simp only [List.map_cons, List.sum_cons, Int.natCast_add]
    rw [Int.add_emod, hterm, ih, ← Int.add_emod]

theorem treeCheck_iff (inputs : List (Int × Nat)) (sum : Int) :
    treeCheck (inputs.map (fun x => (residue x.1, x.2))) sum = true ↔ (sum - (inputs.map (fun x => x.1 * 2 ^ x.2)).sum) % 15 = 0 :=
  residue_beq_iff (weighted_emod inputs)

theorem accCheck_iff (old sum inc result : Int) :
    accCheck (residue old) (residue sum) (residue inc) result = true ↔ (result - (old + sum + inc)) % 15 = 0 := by
  refine residue_beq_iff ?_
  have hold := residue_emod old
  have hsum := residue_emod sum
  have hinc := residue_emod inc
  omega

/-- A power of 2 times 1 to 7 is no multiple of 15. -/
theorem shifted_not_dvd {m : Nat} (h1 : 1 ≤ m) (h7 : m ≤ 7) (j : Nat) : ¬ (15 : Int) ∣ m * 2 ^ j := by
  induction j with
  | zero => omega
  | succ j ih =>
    rw [Int.pow_succ, ← Int.mul_assoc]
    omega

theorem residue_ne_of_shift (x : Int) {m : Nat} (h1 : 1 ≤ m) (h7 : m ≤ 7) (j : Nat) :
    residue (x + m * 2 ^ j) ≠ residue x ∧ residue (x - m * 2 ^ j) ≠ residue x := by
  have hnot := shifted_not_dvd h1 h7 j
  generalize (m : Int) * 2 ^ j = e at hnot
  unfold residue
  omega

theorem elemSig_zero (fmt : Nat) : elemSig fmt 0 = 0 := by
  unfold elemSig
  split
  · simp
  · unfold sext
    have : 0 < 2 ^ (fmtBits fmt - 1) := Nat.two_pow_pos _
    simp

theorem elemRow_res_getD (fmt : Nat) (el sc : List Nat) (i : Nat) : (elemRow fmt el sc).res.getD i 0 = residue (elemSig fmt (el.getD i 0)) := by
  have hzero : elemResidue fmt 0 = 0 := by
    unfold elemResidue
    rw [elemSig_zero]
    rfl
  show (el.map (elemResidue fmt)).getD i 0 = elemResidue fmt (el.getD i 0)
  rw [List.getD_eq_getElem?_getD, List.getD_eq_getElem?_getD, List.getElem?_map]
  cases el[i]? with
  | none => exact hzero.symm
  | some x => rfl

theorem cellChecks_sliceRow (fa fw k slice : Nat) (a w : Stream) : cellChecks fa fw (sliceRow fa k slice a) (sliceRow fw k slice w) = true := by
  unfold cellChecks sliceRow
  refine List.all_eq_true.mpr fun i _ => ?_
  rw [elemRow_res_getD, elemRow_res_getD]
  exact (mulCheck_iff _ _ _).mpr (by rw [elemRow, elemRow]; simp)

/-- Settles O42: what each failed check does to its instruction, and which errors a residue check misses. -/
theorem checksFail : Obligations.ChecksFail := by
  unfold Obligations.ChecksFail
  refine ⟨fun s cl ctx id a o no hash hserv hcl heng => ⟨fun array harray hcls => ?_, fun sfu hunit => ?_, fun hcls => ?_,
      fun u n c event hu hs => State.checkFailed_says hu hs n c event, fun die src c op bag r b t0 w hr hb ht hw => ⟨?_, fun hfirst => ?_⟩⟩,
    mulCheck_iff, treeCheck_iff, accCheck_iff, fun x m j h1 h7 => residue_ne_of_shift x h1 h7 j, cellChecks_sliceRow, fun x y => beq_iff_eq⟩
  · have hexec := State.exec_residueCheckFails (n := ⟨no, hash⟩) hserv hcl heng harray hcls
    refine ⟨hexec .same _ rfl, hexec .other _ rfl, fun j hj => hexec .failed _ ?_⟩
    simp only [hj]
    rfl
  · exact ⟨State.exec_vectorCheckFails hserv hcl heng hunit true, State.exec_vectorCheckFails hserv hcl heng hunit false⟩
  · exact ⟨State.exec_transferCheckFails hserv hcl heng hcls true, State.exec_transferCheckFails hserv hcl heng hcls false⟩
  · have hframe := s.within_checkFailed (5 * 4096 + die) (if !b.redone then 2 else 1) (CheckRep.of ⟨no, hash⟩ ST_RAS_CHECK (some c)) true
    refine ⟨_, State.exec_gpeCheckFails_again hserv hr hb ht hw _, ?_, ?_⟩ <;> rw [hframe] <;> rfl
  · exact State.exec_gpeCheckFails_first hserv hr hb ht hw _ hfirst

end Sys2Proof.Machine

/-! The fetch of queue entries (R393, R396, R397, R533): what settles O44. -/

namespace Sys2Proof.Machine

namespace State

/-! ## An access to host memory that goes on -/

/-- The translations that the caches hold. -/
def translated (s t : State) : State := { s with host := { s.host with xlats := t.host.xlats } }

theorem access1_ok {s u : State} {who : XReq} {port pasid addr : Nat} {write : Bool} (h : s.access1 who port pasid addr write = (.ok, u)) :
    s.within translated u := by
  unfold access1 at h
  split at h
  · simp at h
  · split at h
    · simp at h
    · split at h
      · simp at h
      · dsimp only at h
        split at h
        · next x _ =>
          by_cases hperm : (if write then x.w else x.r) = true
          · rw [if_pos hperm] at h
            obtain ⟨-, rfl⟩ := Prod.mk.inj h
            rfl
          · rw [if_neg hperm, faultAt] at h
            split at h
            · simp at h
            · split at h
              · simp at h
              · split at h
                · simp at h
                · simp at h
        · simp at h

theorem accessPages_ok {who : XReq} {port pasid : Nat} {write : Bool} {l : List Nat} {s u : State} (h : s.accessPages who port pasid write l = (.ok, u)) :
    s.within translated u := by
  induction l generalizing s with
  | nil =>
    obtain ⟨-, rfl⟩ := Prod.mk.inj h
    exact within_refl _
  | cons p l ih =>
    rw [accessPages] at h
    split at h
    · next s1 h1 => exact within_trans (access1_ok h1) (ih h)
    · next hne => exact absurd h (hne u)

/-- An access that goes on changes at most which translations are held. -/
theorem access_ok {s u : State} {who : XReq} {port pasid addr len : Nat} {write : Bool} (h : s.access who port pasid addr len write = (.ok, u)) :
    s.within translated u := accessPages_ok h

/-! ## The host line cache -/

/-- Reads of host memory by the CFE. -/
def fetching (s t : State) : State := { s with host := t.host, regs := t.regs, ras := t.ras, out := t.out }

theorem within_hlcRead (s : State) (port line : Nat) : s.within fetching (s.hlcRead port line) := by
  unfold hlcRead
  split <;> rfl

theorem within_hlcFetch (s : State) (port line : Nat) (h : GranuleHealth) : s.within fetching (s.hlcFetch port line h) := by
  have hread : s.within fetching (s.sramRead h (7 * 4096) line).2 := within_mono (s.within_sramRead h _ _)
  unfold hlcFetch
  split
  · exact s.within_hlcRead _ _
  · split
    · next he =>
      rw [he] at hread
      exact within_trans hread (within_hlcRead _ _ _)
    · next s1 he =>
      rw [he] at hread
      have hdrop : s.within fetching { s1 with host := { s1.host with hlc := s1.host.hlc.filter (· != line) } } := within_trans hread rfl
      exact within_trans hdrop (within_hlcRead _ _ _)

/-! ## Taking an entry -/

/-- A slot that has taken an entry. -/
def tookEntry (q : QSlot) (e : Bytes) : QSlot := { q with fetched := q.fetched + 1, count := q.count + 1, torn := none, waiting := q.waiting ++ [(q.count, e)] }

/-- The slots and what the CFE counts of them. -/
def takingEntry (s t : State) : State := { s with slots := t.slots, regs := t.regs, direct := t.direct }

theorem within_takeEntry (s : State) (k : Nat) (e : Bytes) : s.within takingEntry (s.takeEntry k e) := by
  unfold takeEntry
  dsimp only
  split <;> rfl

theorem slots_takeEntry (s : State) (k : Nat) (e : Bytes) : (s.takeEntry k e).slots = (s.modSlot k (tookEntry · e)).slots := by
  unfold takeEntry
  dsimp only
  split <;> rfl

theorem out_takeEntry (s : State) (k : Nat) (e : Bytes) : (s.takeEntry k e).out = s.out := by rw [within_takeEntry]; rfl

theorem slots_modSlot_ne (s : State) {k j : Nat} (f : QSlot → QSlot) (h : j ≠ k) : (s.modSlot k f).slots[j]? = s.slots[j]? :=
  List.getElem?_modify_ne _ _ h.symm

/-! ## ENTRY_FETCHED -/

/-- What the read of an entry may change. -/
def reading (s t : State) : State := { s with host := t.host, regs := t.regs, direct := t.direct, ras := t.ras, out := t.out }

/-- What the fetch of an entry may change. -/
def entering (s t : State) : State := { s with slots := t.slots, host := t.host, regs := t.regs, direct := t.direct, ras := t.ras, out := t.out }

/-- A read of the CFE's buffers that is not uncorrectable. -/
def bufferRead (ecc : GranuleHealth) (s : State) : State := if ecc = .corrected then s.sramCorrected else s

theorem within_bufferRead (ecc : GranuleHealth) (s : State) : s.within reading (s.bufferRead ecc) := by
  unfold bufferRead
  split
  · exact within_mono (within_trans (s.within_count _ 1) (within_latch _ _ 10))
  · rfl

section
variable {s u : State} {k : Nat} {q : QSlot} {e : Bytes} {line : GranuleHealth} (hserv : s.serving = true) (hq : s.slots[k]? = some q)
  (hfetch : q.fetches = true) (hlen : e.length = 64) (htorn : q.torn = none) (hdirect : s.noteDirect.direct = false) (hroom : q.waiting.length < 64)
  (hacc : s.noteDirect.access (.fetch k) (s.qPort k) (s.qPasid k) (s.entryAddr k q.count) 64 false = (.ok, u))

/-- The entry has been read, through the host line cache. -/
def entryRead (s u : State) (k n : Nat) (line : GranuleHealth) : State :=
  u.hlcFetch (s.qPort k) (u.hostLine (s.qPort k) (s.qPasid k) (s.entryAddr k n)) line

include hserv hq hfetch hlen htorn hdirect hroom hacc

theorem exec_entryFetched_read {ecc : GranuleHealth} {t : State}
    (ht : (match ecc with
      | .uncorrectable => (entryRead s u k q.count line).sramUncorrectable (7 * 4096) (s.entryAddr k q.count)
      | _ =>
        if entryGood e q.count (s.sqLog2 k) then ((entryRead s u k q.count line).bufferRead ecc).takeEntry k e
        else ((entryRead s u k q.count line).bufferRead ecc).modSlot k (fun q => { q with torn := some (q.count, 0), tornAt := some s.time.gtime })) = t) :
    exec (.entryFetched k e ⟨ecc, line⟩) s = .next t := by
  have hslot : s.noteDirect.slot k = q := slot_of_getElem (s := s.noteDirect) hq
  refine exec_whenServing hserv rfl ?_
  simp only [hslot]
  refine (if_neg ?_).trans ?_
  · rw [hfetch, htorn, hdirect, if_neg Bool.false_ne_true, decide_eq_false (Nat.not_le.mpr hroom)]
    simp [hlen]
  · rw [show s.noteDirect.access (.fetch k) (s.noteDirect.qPort k) (s.noteDirect.qPasid k) (s.noteDirect.entryAddr k q.count) 64 false = _ from hacc, ← ht]
    cases ecc <;> rfl

theorem exec_entryFetched {ecc : GranuleHealth} (hecc : ecc ≠ .uncorrectable) :
    exec (.entryFetched k e ⟨ecc, line⟩) s = .next (if entryGood e q.count (s.sqLog2 k) then ((entryRead s u k q.count line).bufferRead ecc).takeEntry k e
      else ((entryRead s u k q.count line).bufferRead ecc).modSlot k (fun q => { q with torn := some (q.count, 0), tornAt := some s.time.gtime })) := by
  refine exec_entryFetched_read hserv hq hfetch hlen htorn hdirect hroom hacc ?_
  cases ecc with
  | good => rfl
  | corrected => rfl
  | uncorrectable => exact absurd rfl hecc

theorem exec_entryFetched_bad :
    exec (.entryFetched k e ⟨.uncorrectable, line⟩) s = .next ((entryRead s u k q.count line).sramUncorrectable (7 * 4096) (s.entryAddr k q.count)) :=
  exec_entryFetched_read hserv hq hfetch hlen htorn hdirect hroom hacc rfl

omit hserv hq hfetch hlen htorn hdirect hroom hacc

include hacc in
theorem within_entryRead : s.within reading (entryRead s u k q.count line) := by
  have hu : s.noteDirect.within fetching u := within_mono (access_ok hacc)
  exact within_trans (t := s.noteDirect) rfl (within_mono (within_trans hu (within_hlcFetch _ _ _ _)))

end

/-! ## ENTRY_REREAD -/

section
variable {s u : State} {k : Nat} {q : QSlot} {e : Bytes} {r : Nat} (hserv : s.serving = true) (hq : s.slots[k]? = some q)
  (hfetch : q.fetches = true) (hlen : e.length = 64) (htorn : q.torn = some (q.count, r)) (hdue : s.elapsed q.tornAt 2000 = true)
  (hacc : s.noteDirect.access (.fetch k) (s.qPort k) (s.qPasid k) (s.entryAddr k q.count) 64 false = (.ok, u))

/-- The entry has been read again, past the host line cache. -/
def entryReread (s u : State) (k n : Nat) : State :=
  u.emit (.cxlCacheRead (s.qPort k) (u.hostLine (s.qPort k) (s.qPasid k) (s.entryAddr k n)) true)

/-- The record of an entry that stays torn. -/
def tornCmd (s : State) (n : Nat) : Cmd := ⟨n, 2 ^ 32 - 1, 0, [], some ST_Q_TORN, n % 2 ^ 32, s.time.gtime, none, [], ⟨[], none⟩⟩

include hserv hq hfetch hlen htorn hdue hacc in
theorem exec_entryReread (hmay : ¬(entryGood e q.count (s.sqLog2 k) = true ∧ s.noteDirect.direct = true ∧ s.admitNow k e = false)) :
    exec (.entryReread k e) s = .next (if entryGood e q.count (s.sqLog2 k) then (entryReread s u k q.count).takeEntry k e
      else if r + 1 < rereads then (entryReread s u k q.count).modSlot k (fun x => { x with torn := some (q.count, r + 1), tornAt := some s.time.gtime })
      else ((entryReread s u k q.count).modSlot k (fun x => { x with
        error := true, errStatus := ST_Q_TORN, torn := none, cmds := x.cmds ++ [s.tornCmd q.count] })).latch Reg.CFE_STATUS 0) := by
  refine exec_whenServing hserv rfl ?_
  simp only [slot_of_getElem hq, htorn]
  refine (if_neg ?_).trans ?_
  · rintro (h | h | h | ⟨hgood, hdir, hadm⟩)
    · rw [hfetch] at h
      exact Bool.noConfusion h
    · exact h hlen
    · rw [show s.elapsed q.tornAt rereadTicks = true from hdue] at h
      exact Bool.noConfusion h
    · exact hmay ⟨hgood, hdir, by simpa using hadm⟩
  · rw [hacc]
    rfl

include hserv hq htorn in
theorem exec_entryReread_waits (hgood : entryGood e q.count (s.sqLog2 k) = true) (hdir : s.noteDirect.direct = true) (hadm : s.admitNow k e = false) :
    exec (.entryReread k e) s = .next s := by
  refine exec_whenServing hserv rfl ?_
  simp only [slot_of_getElem hq, htorn]
  exact if_pos (.inr (.inr (.inr ⟨hgood, hdir, by rw [hadm]; rfl⟩)))

include hacc in
theorem within_entryReread : s.within (fun s t => { s with host := { s.host with xlats := t.host.xlats }, direct := t.direct, out := t.out }) (entryReread s u k q.count) := by
  have hu : s.noteDirect.within (fun s t => { s with host := { s.host with xlats := t.host.xlats }, direct := t.direct, out := t.out }) u := within_mono (access_ok hacc)
  exact within_trans (within_trans (t := s.noteDirect) rfl hu) rfl

end

theorem regB_latch {s : State} (h : s.memOk = true) {a b : Nat} (ha : a ≠ Reg.MSIX_PBA) (hb : b < 64) : (s.latch a b).regB a b = true := by
  rw [regB, regN, s.reg_latch a b h ha, BitVec.toNat_or, Nat.testBit_or, BitVec.toNat_ofNat, Nat.mod_eq_of_lt (Nat.pow_lt_pow_right (by decide) hb),
    Nat.testBit_two_pow_self, Bool.or_true]

end State

/-- Settles O44: an entry that is good joins those that wait; one that is not is read again, and in the end is the slot's error. -/
theorem entryFetch : Obligations.EntryFetch := by
  unfold Obligations.EntryFetch
  refine fun s u k q e line hserv hq hfetch hlen => ⟨fun htorn hdirect hroom hacc => ?_, fun r htorn hdue hacc => ?_⟩
  · have hexec {ecc : GranuleHealth} := State.exec_entryFetched (ecc := ecc) (line := line) hserv hq hfetch hlen htorn hdirect hroom hacc
    have hbad := State.exec_entryFetched_bad (line := line) hserv hq hfetch hlen htorn hdirect hroom hacc
    have hread := State.within_entryRead (line := line) hacc
    generalize State.entryRead s u k q.count line = v at hexec hbad hread
    have hbuf (ecc : GranuleHealth) : s.within State.reading (v.bufferRead ecc) := State.within_trans hread (State.within_bufferRead ecc v)
    have hslots (ecc : GranuleHealth) : (v.bufferRead ecc).slots = s.slots := by rw [hbuf]; rfl
    refine ⟨fun ecc hecc hgood => ?_, fun ecc hecc hbad => ?_, ?_⟩
    · have hw := hexec hecc
      rw [if_pos hgood] at hw
      refine ⟨_, hw, ?_, fun j hj => ?_, State.within_trans (take := State.entering) (State.within_mono (hbuf ecc)) (State.within_mono (State.within_takeEntry _ k e))⟩
      · rw [State.slots_takeEntry]
        exact State.getElem_modSlot ((congrArg (·[k]?) (hslots ecc)).trans hq) _
      · rw [State.slots_takeEntry, State.slots_modSlot_ne _ _ hj, hslots]
    · have hw := hexec hecc
      rw [if_neg (ne_true_of_eq_false hbad)] at hw
      exact ⟨_, hw, State.getElem_modSlot ((congrArg (·[k]?) (hslots ecc)).trans hq) _,
        State.within_trans (take := State.entering) (State.within_mono (hbuf ecc)) rfl⟩
    · exact ⟨_, hbad, State.within_trans (take := State.reading) hread (State.within_mono (State.within_trans
        (State.within_mono (State.within_trans (v.within_count Reg.RAS_SRAM_UE 1) (State.within_latch _ Reg.RAS_STATUS 1))) (State.within_log _ _ _ _ _ _ _ _)))⟩
  · have hexec := State.exec_entryReread hserv hq hfetch hlen htorn hdue hacc
    have hread := State.within_entryReread hacc
    intro v
    have hv : State.entryReread s u k q.count = v := rfl
    rw [hv] at hexec hread
    clear_value v
    have hslot : v.slots[k]? = some q := by rw [hread]; exact hq
    refine ⟨fun hgood hmay => ?_, fun hgood hdir hadm => State.exec_entryReread_waits hserv hq htorn hgood hdir hadm, fun hbad hr => ?_, fun hbad hr => ?_⟩
    · have hw := hexec fun ⟨_, hdir, hadm⟩ => by rw [hmay hdir] at hadm; exact Bool.noConfusion hadm
      rw [if_pos hgood] at hw
      refine ⟨_, hw, ?_, ?_, v.out_takeEntry k e⟩
      · rw [State.slots_takeEntry]
        exact State.getElem_modSlot hslot _
      · rw [State.within_takeEntry, State.takingEntry, hread]
    · have hw := hexec fun ⟨hgood, _⟩ => ne_true_of_eq_false hbad hgood
      rw [if_neg (ne_true_of_eq_false hbad), if_pos (show r + 1 < rereads from Nat.succ_lt_succ hr), State.modSlot_eq_put hslot] at hw
      rw [State.modSlot_eq_put hslot]
      exact hw
    · have hw := hexec fun ⟨hgood, _⟩ => ne_true_of_eq_false hbad hgood
      rw [if_neg (ne_true_of_eq_false hbad), if_neg (show ¬r + 1 < rereads from Nat.not_lt.mpr (Nat.succ_le_succ hr))] at hw
      refine ⟨_, s.tornCmd q.count, hw, rfl, ?_, fun hsound => ?_, ?_⟩
      · rw [State.latch_slots]
        exact State.getElem_modSlot hslot _
      · have hv : v.Sound := by rw [hread]; exact hsound
        exact State.regB_latch hv.modSlot.mem (by decide) (by decide)
      · rw [State.latch_frame, State.modSlot, hread]

end Sys2Proof.Machine

/-! Completion records, their interrupts and the destroy record (R411 to R416, R434 to R436): what settles O46. -/

namespace Sys2Proof.Machine

namespace State

/-- What a record that goes out may change. -/
def posting (s t : State) : State := { s with slots := t.slots, out := t.out, regs := t.regs, host := t.host }

theorem within_signal (s : State) (v : Nat) : s.within events (s.signal v) := s.signal_frame v

theorem out_signal (s : State) (v : Nat) : ∃ l, (s.signal v).out = s.out ++ l := by
  obtain ⟨-, m, hm, -⟩ := s.signal_says v
  exact ⟨m, by simpa using hm⟩

theorem out_latch (s : State) (a k : Nat) : ∃ l, (s.latch a k).out = s.out ++ l := by
  obtain ⟨-, m, hm, -⟩ := s.latch_but a k
  exact ⟨m, by simpa using hm⟩

theorem slots_signal (s : State) (v : Nat) : (s.signal v).slots = s.slots := by
  rw [signal_frame]

/-! ## The moderation of a vector (R416) -/

/-- Between two slots only the moderation of the vector has changed. -/
structure moderated (q q' : QSlot) : Prop where
  same : q' = { q with unsignalled := q'.unsignalled, since := q'.since }

theorem within_moderate (s : State) (k : Nat) : s.within posting (s.moderate k) := by
  unfold moderate
  dsimp only
  split
  · exact within_trans (t := s.modSlot k _) rfl (within_trans (t := (s.modSlot k _).modSlot k _) rfl (within_mono (within_signal _ k)))
  · rfl

theorem moderate_says {s : State} {k : Nat} {q : QSlot} (hq : s.slots[k]? = some q) :
    (∃ q', (s.moderate k).slots[k]? = some q' ∧ moderated q q') ∧ ∃ l, (s.moderate k).out = s.out ++ l := by
  unfold moderate
  extract_lets s1
  have h1 : s1.slots[k]? = some { q with unsignalled := q.unsignalled + 1, since := some (q.since.getD s.time.gtime) } := getElem_modSlot hq _
  split
  · refine ⟨⟨{ q with unsignalled := 0, since := none }, ?_, ⟨rfl⟩⟩, out_signal _ k⟩
    rw [signalSlot, slots_signal]
    exact getElem_modSlot h1 _
  · exact ⟨⟨_, h1, ⟨rfl⟩⟩, [], (List.append_nil _).symm⟩

/-! ## Host writes -/

/-- A write of host memory: what goes out, and the lines that leave the host line cache. -/
def hostWrites (s t : State) : State := { s with host := t.host, out := t.out }

theorem within_hostOut (s : State) (port pasid addr : Nat) (b : Bytes) : s.within hostWrites (s.hostOut port pasid addr b) := by
  refine within_foldl (take := hostWrites) _ ?_ _ s
  intro s p
  rfl

theorem within_scopeRead (s : State) (scope port : Nat) (w : Wrote) : s.within hostWrites (s.scopeRead scope port w) := by
  unfold scopeRead
  split
  · split <;> rfl
  · rfl

/-! ## COMPLETION_RECORD -/

/-- The scope that the record of a command other than LAUNCH waits for. -/
def recordScope (c : Cmd) : Nat := if c.op = 2 then LEnt.scope c.entry else scopePath

theorem scoped_none (c : Cmd) : c.scoped none = (recordScope c, c.wrote) := by
  unfold Cmd.scoped recordScope
  dsimp only
  split <;> rfl

theorem record_of_command {s : State} {k : Nat} {c : Cmd} (hop : c.op ≠ 1) (x : Option Ctx) :
    s.record k c x = (cqRecord (phaseOf (s.slot k).postedN (s.cqLog2 k)) false 0 (c.status.getD ST_OK) c.tag c.finish 0 0 c.value 0, s) := if_pos hop

/-- A slot after the record of its command n. -/
def recorded (q : QSlot) (n : Nat) : QSlot :=
  { q with posted := q.posted + 1, postedN := q.postedN + 1, cmds := q.cmds.filter (·.n != n), fence := if q.fence = some n then none else q.fence }

section
variable {s : State} {k n : Nat} {q : QSlot} {c : Cmd} (hopen : s.barOpen = true) (hq : s.slots[k]? = some q)
  (hc : q.cmds.find? (fun c => c.n == n && c.status.isSome) = some c)

include hq in
theorem ringFullFor_eq : s.ringFullFor k = decide (2 ^ s.cqLog2 k < q.cmds.length + q.unconsumed) := by
  rw [ringFullFor, slot_of_getElem hq]

include hq in
theorem recordDue_of (hfirst : q.cmds.any (fun d => d.status.isSome && decide (d.finish.toNat < c.finish.toNat)) = false)
    (hroom : c.entry = [] → q.cmds.length + q.unconsumed ≤ 2 ^ s.cqLog2 k) : s.recordDue k c = true := by
  rw [recordDue, ringFullFor_eq hq, slot_of_getElem hq]
  have hnone : q.cmds.any (fun d => d.status.isSome && decide (d.finish.toNat < c.finish.toNat)
      && !(d.extra && decide (2 ^ s.cqLog2 k < q.cmds.length + q.unconsumed))) = false := by
    rw [List.any_eq_false] at hfirst ⊢
    intro d hd hand
    exact hfirst d hd (Bool.and_eq_true_iff.mp hand).1
  have hextra : (c.extra && decide (2 ^ s.cqLog2 k < q.cmds.length + q.unconsumed)) = false := by
    cases he : c.entry with
    | nil => simp [hroom he]
    | cons b l => simp [Cmd.extra, he]
  rw [hnone, hextra]
  rfl

include hopen hq hc

theorem exec_completionRecord_notDue (hdue : s.recordDue k c = false) : exec (.completionRecord k n) s = .next s := by
  refine exec_whenOpen hopen rfl ?_
  simp only [slot_of_getElem hq, hc, hdue, Bool.not_false, if_true]

variable (hdue : s.recordDue k c = true) (hop : c.op ≠ 1)
include hdue hop

theorem exec_completionRecord_snoops (hclear : s.scopeClear (recordScope c) c.wrote = false) :
    exec (.completionRecord k n) s = .next (s.scopeSnoop c.wrote) := by
  refine exec_whenOpen hopen rfl ?_
  simp only [slot_of_getElem hq, hc, if_neg hop, scoped_none, hdue, hclear, Bool.not_true, Bool.not_false, Bool.false_eq_true, if_false, if_true]

variable {u : State} (hdeaf : q.deaf = false) (hclear : s.scopeClear (recordScope c) c.wrote = true)
  (hacc : s.access (.record k) (s.qPort k) (s.qPasid k) (s.regN (Reg.Q_CQBASE k) + q.postedN % 2 ^ s.cqLog2 k * 32) 32 true = (.ok, u))

/-- The record has gone out. -/
def recordOut (s u : State) (k : Nat) (q : QSlot) (c : Cmd) : State :=
  (u.scopeRead (recordScope c) (s.qPort k) c.wrote).hostOut (s.qPort k) (s.qPasid k) (s.regN (Reg.Q_CQBASE k) + q.postedN % 2 ^ s.cqLog2 k * 32)
    (cqRecord (1 - q.postedN / 2 ^ s.cqLog2 k % 2) false 0 (c.status.getD ST_OK) c.tag c.finish 0 0 c.value 0)

include hdeaf hclear hacc

theorem exec_completionRecord_goes :
    exec (.completionRecord k n) s = .next (((((recordOut s u k q c).modSlot k fun q => { q with posted := q.posted + 1, postedN := q.postedN + 1 }).moderate k)).retire k n none) := by
  have hlog : (u.scopeRead (recordScope c) (s.qPort k) c.wrote).cqLog2 k = s.cqLog2 k := by
    rw [within_scopeRead, hostWrites, access_ok hacc]
    rfl
  have hslot : (u.scopeRead (recordScope c) (s.qPort k) c.wrote).slot k = q := by
    refine slot_of_getElem ?_
    rw [within_scopeRead, hostWrites, access_ok hacc]
    exact hq
  refine exec_whenOpen hopen rfl ?_
  simp only [slot_of_getElem hq, hc, if_neg hop, scoped_none, hdue, hclear, hdeaf, hacc, Bool.not_true, Bool.false_eq_true, if_false, record_of_command hop,
    hlog, hslot]
  rfl

omit hopen hdeaf hclear hdue hop hc in
theorem recordOut_says : s.within posting (recordOut s u k q c) ∧ (recordOut s u k q c).slots[k]? = some q := by
  have hframe : s.within hostWrites (recordOut s u k q c) :=
    within_trans (within_mono (access_ok hacc)) (within_trans (within_scopeRead _ _ _ _) (within_hostOut _ _ _ _ _))
  refine ⟨within_mono hframe, ?_⟩
  rw [hframe]
  exact hq

/-- The record goes out, and the command leaves its slot. -/
theorem completionRecord_says :
    ∃ t q' l, exec (.completionRecord k n) s = .next t ∧ t.out = (recordOut s u k q c).out ++ l ∧ t.slots[k]? = some q' ∧ q'.posted = q.posted + 1
      ∧ q'.postedN = q.postedN + 1 ∧ q'.cmds = q.cmds.filter (·.n != n) ∧ q'.fence = (if q.fence = some n then none else q.fence) ∧ s.within posting t := by
  obtain ⟨hframe, hslot⟩ := recordOut_says (c := c) hq hacc
  have hput : ((recordOut s u k q c).modSlot k fun q => { q with posted := q.posted + 1, postedN := q.postedN + 1 }).slots[k]?
      = some { q with posted := q.posted + 1, postedN := q.postedN + 1 } := getElem_modSlot hslot _
  obtain ⟨⟨q', hq', ⟨hsame⟩⟩, l, hl⟩ := moderate_says hput
  refine ⟨_, _, l, exec_completionRecord_goes hopen hq hc hdue hop hdeaf hclear hacc, hl, getElem_modSlot hq' _, ?_, ?_, ?_, ?_, ?_⟩
  · rw [hsame]
  · rw [hsame]
  · rw [hsame]
  · rw [hsame]
  · exact within_trans (within_trans (t := (recordOut s u k q c).modSlot k _) (within_trans hframe rfl) (within_moderate _ k)) rfl

end

/-! ## The moderation timer -/

section
variable {s : State} {k : Nat} {q : QSlot} (hopen : s.barOpen = true) (hq : s.slots[k]? = some q)
include hopen hq

theorem exec_intmodTimer_due (hun : 0 < q.unsignalled) (hwait : s.regF (Reg.Q_INTMOD k) 31 16 ≠ 0)
    (hdue : s.elapsed q.since (us (s.regF (Reg.Q_INTMOD k) 31 16)) = true) : exec (.intmodTimer k) s = .next (s.signalSlot k) := by
  refine exec_whenOpen hopen rfl ?_
  simp only [slot_of_getElem hq]
  exact if_pos ⟨hun, hwait, hdue⟩

theorem exec_intmodTimer_not (h : ¬(0 < q.unsignalled ∧ s.regF (Reg.Q_INTMOD k) 31 16 ≠ 0 ∧ s.elapsed q.since (us (s.regF (Reg.Q_INTMOD k) 31 16)) = true)) :
    exec (.intmodTimer k) s = .next s := by
  refine exec_whenOpen hopen rfl ?_
  simp only [slot_of_getElem hq]
  exact if_neg h

/-! ## DESTROY_RECORD -/

variable {d : Destroy} {u : State} (hst : q.st = .stopping) (hwaiting : q.waiting = []) (hcmds : q.cmds = []) (htorn : q.torn = none)
  (hend : q.fetched = q.doorbell) (hd : q.destroy = some d) (hidle : s.ctxs.any (·.ofSlot k) = false)
  (hacc : s.access (.record k) (s.qPort k) (s.qPasid k) (s.regN (Reg.Q_DREC k)) 64 true = (.ok, u))

/-- The destroy record has gone out. -/
def destroyOut (s u : State) (k : Nat) (d : Destroy) : State :=
  u.hostOut (s.qPort k) (s.qPasid k) (s.regN (Reg.Q_DREC k)) (destroyBytes k d s.now d.drops)

include hst hwaiting hcmds htorn hend in
omit hopen in
theorem destroyDone_of : s.destroyDone k = true := by
  simp [destroyDone, slot_of_getElem hq, hst, hwaiting, hcmds, htorn, hend]

include hst hwaiting hcmds htorn hend hd hidle hacc

theorem exec_destroyRecord : exec (.destroyRecord k) s = .next (((destroyOut s u k d).latch Reg.CFE_STATUS 2).slotOff k) := by
  have hu := access_ok hacc
  have hnone : u.ctxs.filter (·.ofSlot k) = [] := by
    rw [hu]
    rw [List.any_eq_false] at hidle
    exact List.filter_eq_nil_iff.mpr hidle
  have huq : u.slot k = q := by
    refine slot_of_getElem ?_
    rw [hu]
    exact hq
  refine exec_whenOpen hopen rfl ?_
  simp only [destroyDone_of hq hst hwaiting hcmds htorn hend, Bool.not_true, Bool.false_eq_true, if_false, hacc, reduceCtorEq, hnone, List.foldl_nil, List.map_nil,
    huq, hd, if_true]
  rfl

end

/-- A slot that its destroy leaves. -/
theorem slotOff_says {s : State} {k : Nat} {q : QSlot} (hq : s.slots[k]? = some q) :
    (∃ q', (s.slotOff k).slots[k]? = some q' ∧ q'.st = (if q.pendEnable then .starting else .off) ∧ q'.error = false)
      ∧ (s.slotOff k).out = s.out ∧ (∀ j, j ≠ k → (s.slotOff k).slots[j]? = s.slots[j]?) ∧ (q.pendEnable = false → (s.slotOff k).regs = s.regs) := by
  let off (q : QSlot) : QSlot := { q with st := .off, pendEnable := false, error := false, errStatus := 0, destroy := none, cmds := [] }
  have hoff : (s.modSlot k off).slots[k]? = some (off q) := getElem_modSlot hq off
  unfold slotOff
  rw [slot_of_getElem hq]
  cases hpend : q.pendEnable with
  | false => exact ⟨⟨_, hoff, rfl, rfl⟩, rfl, fun j hj => s.slots_modSlot_ne _ hj, fun _ => rfl⟩
  | true =>
    have hstart : (s.modSlot k off).startSlot k = ((s.modSlot k off).putCfgWords ((s.modSlot k off).slot k).heldCfg).modSlot k QSlot.starts := rfl
    have hframe := putCfgWords_frame (s.modSlot k off) ((s.modSlot k off).slot k).heldCfg
    generalize (s.modSlot k off).putCfgWords ((s.modSlot k off).slot k).heldCfg = v at hstart hframe
    have hv : v.slots = (s.modSlot k off).slots := by rw [hframe]
    refine ⟨⟨(off q).starts, ?_, rfl, rfl⟩, ?_, fun j hj => ?_, nofun⟩
    · show ((s.modSlot k off).startSlot k).slots[k]? = _
      rw [hstart]
      exact getElem_modSlot ((congrArg (·[k]?) hv).trans hoff) _
    · show ((s.modSlot k off).startSlot k).out = _
      rw [hstart, hframe]
      rfl
    · show ((s.modSlot k off).startSlot k).slots[j]? = _
      rw [hstart, slots_modSlot_ne _ _ hj, hv, slots_modSlot_ne _ _ hj]

end State

/-- Settles O46: when the record of a command goes out and what it leaves, the moderation timer, and the destroy record. -/
theorem completionRecords : Obligations.CompletionRecords := by
  unfold Obligations.CompletionRecords
  refine fun s k n q hopen hq => ⟨?_, ?_,
    fun hun hwait hdue => State.exec_intmodTimer_due hopen hq hun hwait hdue, fun t ht hearly => ?_, fun hnone => ?_,
    fun d u hst hwaiting hcmds htorn hend hd hidle hacc => ?_⟩
  · intro c u hc hop hdeaf hfirst hroom scope hclear addr hacc
    exact State.completionRecord_says hopen hq hc (State.recordDue_of hq hfirst hroom) hop hdeaf hclear hacc
  · intro c hc full
    refine ⟨fun hwaits => ?_, fun hdue hop hclear => ?_⟩
    · refine State.exec_completionRecord_notDue hopen hq hc ?_
      rw [State.recordDue, State.ringFullFor_eq hq, State.slot_of_getElem hq]
      rcases hwaits with hearlier | ⟨hentry, hfull⟩
      · exact Bool.and_eq_false_imp.mpr fun h => absurd hearlier (by simpa [Cmd.extra, full] using h)
      · rw [show decide (2 ^ s.cqLog2 k < q.cmds.length + q.unconsumed) = true from hfull, Cmd.extra, hentry]
        exact Bool.and_false _
    · exact State.exec_completionRecord_snoops hopen hq hc hdue (by omega) (by rw [State.recordScope, if_pos hop]; exact hclear)
  · refine State.exec_intmodTimer_not hopen hq fun ⟨_, _, hdue⟩ => ?_
    rw [ht, State.elapsed, Option.all_some, State.reached_of_lt hearly] at hdue
    exact Bool.noConfusion hdue
  · refine State.exec_intmodTimer_not hopen hq fun ⟨hun, hwait, _⟩ => ?_
    omega
  · have hexec := State.exec_destroyRecord hopen hq hst hwaiting hcmds htorn hend hd hidle hacc
    have hframe : s.within State.hostWrites (State.destroyOut s u k d) := State.within_trans (State.within_mono (State.access_ok hacc)) (State.within_hostOut _ _ _ _ _)
    obtain ⟨v, hv⟩ : ∃ v, v = State.destroyOut s u k d := ⟨_, rfl⟩
    rw [← hv] at hexec hframe
    have hvq : (v.latch Reg.CFE_STATUS 2).slots[k]? = some q := by
      rw [State.latch_slots, hframe]
      exact hq
    obtain ⟨l, hl⟩ := v.out_latch Reg.CFE_STATUS 2
    obtain ⟨⟨q', hq', hstate, herr⟩, hout, hothers, hregs⟩ := State.slotOff_says hvq
    refine ⟨_, q', l, hexec, (hout.trans hl).trans (by rw [hv]; rfl), fun hsound hpend => ?_, hq', hstate, herr, fun j hj => ?_⟩
    · have hmem : v.memOk = true := by
        rw [hframe]
        exact hsound.1
      have hbit : (v.latch Reg.CFE_STATUS 2).regB Reg.CFE_STATUS 2 = true := State.regB_latch hmem (by decide) (by decide)
      rw [State.regB, State.regN, State.reg, hregs hpend]
      exact hbit
    · rw [hothers j hj, State.latch_slots, hframe]
      rfl

end Sys2Proof.Machine

/-! SCRIPT_LOAD, SCRIPT_PATCH and SCRIPT_DROP (R408 to R410, R453, R478): what settles O47. -/

namespace Sys2Proof.Machine

namespace State

/-! ## A read of device memory that goes on -/

/-- The snoops of the host-state directory. -/
def snoopsDone (s t : State) : State := { s with mem := { s.mem with snoops := t.mem.snoops } }

theorem snoopFor_ok {s : State} {a n : Nat} {write : Bool} (h : (s.snoopFor a n write).1 = true) : s.within snoopsDone (s.snoopFor a n write).2 := by
  unfold snoopFor at *
  dsimp only at *
  split
  · rfl
  · next hne =>
    rw [if_neg hne] at h
    exact Bool.noConfusion h

theorem devRead_bytes {s v : State} {a : Int} {n : Nat} {b : Bytes} (h : s.devRead a n = .bytes v b) : s.within snoopsDone v := by
  unfold devRead at h
  split at h
  · exact Dev.noConfusion h
  · have hsnoop := snoopFor_ok (s := s) (a := a.toNat) (n := n) (write := false)
    generalize s.snoopFor a.toNat n false = p at h hsnoop
    obtain ⟨ok, s1⟩ := p
    cases ok with
    | false => exact Dev.noConfusion h
    | true =>
      simp only [Bool.not_true, Bool.false_eq_true, if_false] at h
      split at h
      · exact Dev.noConfusion h
      · exact Dev.noConfusion h
      · obtain ⟨rfl, -⟩ := Dev.bytes.inj h
        exact hsnoop rfl

/-! ## A script command that is admitted -/

/-- The command of an entry that its slot has just admitted. -/
def newCmd (n : Nat) (e : Bytes) : Cmd := ⟨n, rd e 4 4, rd e 0 1, e, none, 0, 0, none, [], ⟨[], none⟩⟩

theorem cmd_took {s : State} {k n : Nat} {e : Bytes} {q : QSlot} {rest : List (Nat × Bytes)} (hq : s.slots[k]? = some q) (hnew : s.cmd? k n = none) :
    (s.took k n e rest).cmd? k n = some (newCmd n e) := by
  have hslot : (s.took k n e rest).slots[k]? = some { q with waiting := rest, cmds := q.cmds ++ [newCmd n e] } := getElem_modSlot hq _
  rw [cmd?, hq, Option.bind_some, List.find?_append, Option.or_eq_none_iff] at hnew
  rw [cmd?, hslot, Option.bind_some, List.append_assoc, List.find?_append, hnew.1, Option.none_or]
  exact List.find?_cons_of_pos (beq_self_eq_true n)

/-- A script command whose image stands in device memory. -/
theorem scriptGo_device {s v : State} {k n : Nat} {c : Cmd} {data img : Bytes} (hc : s.cmd? k n = some c)
    (hgo : ¬(c.status.isSome = true ∨ (!(c.op == 0x20 || c.op == 0x21)) = true)) (hsrc : rd (argsOf c.entry) 2 1 = 1)
    (hread : s.devRead (rd (argsOf c.entry) 8 8) (rd (argsOf c.entry) 16 4) = .bytes v img) :
    s.scriptGo k n data = v.scriptDone k n (c.op == 0x21) (rd (argsOf c.entry) 0 2) img (rd (argsOf c.entry) 16 4) := by
  rw [scriptGo.eq_def, hc]
  refine (if_neg hgo).trans ((if_pos hsrc).trans ?_)
  rw [hread]

/-- A script command whose image comes from the host, run by run. -/
theorem scriptGo_host {s u : State} {k n : Nat} {c : Cmd} {data : Bytes} (hc : s.cmd? k n = some c)
    (hgo : ¬(c.status.isSome = true ∨ (!(c.op == 0x20 || c.op == 0x21)) = true)) (hsrc : rd (argsOf c.entry) 2 1 ≠ 1)
    (hacc : s.access (.bulk k n) (s.qPort k) (s.qPasid k) (hva (rd (argsOf c.entry) 8 8 + c.bytes.length : Nat))
      (max 1 (data.take (rd (argsOf c.entry) 16 4 - c.bytes.length)).length) false = (.ok, u)) :
    s.scriptGo k n data = (let d := data.take (rd (argsOf c.entry) 16 4 - c.bytes.length)
      if rd (argsOf c.entry) 16 4 ≤ c.bytes.length + d.length then u.scriptDone k n (c.op == 0x21) (rd (argsOf c.entry) 0 2) (c.bytes ++ d) (rd (argsOf c.entry) 16 4)
      else u.modCmd k n (fun c => { c with bytes := c.bytes ++ d })) := by
  rw [scriptGo.eq_def, hc]
  refine (if_neg hgo).trans ((if_neg hsrc).trans ?_)
  extract_lets d
  rw [show s.access (.bulk k n) (s.qPort k) (s.qPasid k) (hva (rd (argsOf c.entry) 8 8 + c.bytes.length : Nat)) (max 1 d.length) false = _ from hacc]

section
variable {s : State} {k n : Nat} {e : Bytes} {q : QSlot} {rest : List (Nat × Bytes)} {patch : Bool} (h : s.admits k (if patch then 0x21 else 0x20) n e q rest)
include h

theorem exec_scriptCmd : exec (if patch then .scriptPatch k else .scriptLoad k) s = .next (
    let u := s.took k n e rest
    if scriptArgBad e then u.endCmd k n ST_Q_BAD_ARG 0
    else if s.scriptStatus patch (rd (argsOf e) 0 2) ≠ ST_OK then u.endCmd k n (s.scriptStatus patch (rd (argsOf e) 0 2)) 0
    else if rd (argsOf e) 16 4 < 128 ∨ 2 ^ 22 < rd (argsOf e) 16 4 ∨ rd (argsOf e) 16 4 % 8 ≠ 0 then
      (u.noteRefused (rd (argsOf e) 0 2) [] ST_ISA_IMG_FORMAT inHeader).endCmd k n ST_ISA_IMG_FORMAT 0
    else u.scriptGo k n []) := by
  have hcmd : exec (if patch then .scriptPatch k else .scriptLoad k) s = .next (s.scriptCmd k patch) := by cases patch <;> rfl
  rw [hcmd, scriptCmd, admitOp_of_admits h]
  rfl

theorem scriptGo_took (hnew : s.cmd? k n = none) (hsrc : rd (argsOf e) 2 1 = 1) {v : State} {img : Bytes}
    (hread : (s.took k n e rest).devRead (rd (argsOf e) 8 8) (rd (argsOf e) 16 4) = .bytes v img) :
    (s.took k n e rest).scriptGo k n [] = v.scriptDone k n patch (rd (argsOf e) 0 2) img (rd (argsOf e) 16 4) := by
  obtain ⟨-, -, hslot, -, hop, -⟩ := h
  have hkind : (rd e 0 1 == 0x20 || rd e 0 1 == 0x21) = true := by
    rw [hop]
    cases patch <;> rfl
  have hpatch : (rd e 0 1 == 0x21) = patch := by
    rw [hop]
    cases patch <;> rfl
  have hgo : ¬((newCmd n e).status.isSome = true ∨ (!((newCmd n e).op == 0x20 || (newCmd n e).op == 0x21)) = true) := by
    rw [show ((newCmd n e).op == 0x20 || (newCmd n e).op == 0x21) = true from hkind]
    simp [newCmd]
  have hdone := scriptGo_device (data := []) (cmd_took (e := e) (rest := rest) hslot hnew) hgo hsrc hread
  rwa [show ((newCmd n e).op == 0x21) = patch from hpatch] at hdone

end

/-! ## Editions -/

theorem scriptDone_of {s : State} {k n h bytes : Nat} {patch : Bool} {img : Bytes} (hst : s.scriptStatus patch h = ST_OK) :
    s.scriptDone k n patch h img bytes = match s.imageBad h img bytes with
      | some (st, word) => (s.noteRefused h img st word).endCmd k n st 0
      | none => (s.install h img).2.endCmd k n ST_OK (s.install h img).1 := by
  unfold scriptDone
  rw [hst]
  rfl

end State

/-- The numbers that the next edition may take first. -/
def Script.candidates (c : Script) : List Nat := (List.range (editionLimit + 2)).map (fun i => (c.cur + 1 + i) % 65536)

theorem Script.candidates_nodup (c : Script) : c.candidates.Nodup := by
  refine List.pairwise_map.mpr (List.Pairwise.imp_of_mem (fun {i j} hi hj hne h => hne ?_) List.nodup_range)
  rw [List.mem_range] at hi hj
  have hlim : editionLimit + 2 = 10 := rfl
  omega

/-- One of the ten numbers after the current one is free: at most eight editions are held, and zero is skipped. -/
theorem Script.exists_candidate (c : Script) (hlen : c.editions.length ≤ 8) : ∃ n ∈ c.candidates, n ≠ 0 ∧ c.editions.any (·.num == n) = false := by
  refine Classical.byContradiction fun hnone => ?_
  have hsub : ∀ n ∈ c.candidates, n ∈ 0 :: c.editions.map (·.num) := by
    intro n hn
    refine Classical.byContradiction fun hout => ?_
    rw [List.mem_cons, not_or] at hout
    refine hnone ⟨n, hn, hout.1, List.any_eq_false.mpr fun x hx hnum => hout.2 ?_⟩
    exact List.mem_map.mpr ⟨x, hx, beq_iff_eq.mp hnum⟩
  have hle := length_le_of_nodup c.candidates_nodup hsub
  simp [Script.candidates, editionLimit] at hle
  omega

theorem Script.nextEdition_says (c : Script) (hlen : c.editions.length ≤ 8) : c.nextEdition ≠ 0 ∧ c.editions.any (·.num == c.nextEdition) = false := by
  obtain ⟨n, hn, hzero, hfree⟩ := c.exists_candidate hlen
  have hsome : (c.candidates.find? (fun n => n != 0 && !c.editions.any (·.num == n))).isSome = true := by
    rw [List.find?_isSome]
    exact ⟨n, hn, by simp [hzero, hfree]⟩
  obtain ⟨m, hm⟩ := Option.isSome_iff_exists.mp hsome
  have hnext : c.nextEdition = m := by
    unfold Script.nextEdition
    rw [show ((List.range (editionLimit + 2)).map _).find? _ = some m from hm]
    rfl
  have hgood := List.find?_some hm
  rw [hnext]
  simpa using hgood

namespace State

/-! ## Install and drop -/

/-- A script whose new edition is img. -/
def grown (c : Script) (img : Bytes) (now : Nat) : Script :=
  { c with cur := c.nextEdition, editions := c.editions.filter (fun e => e.refs != 0) ++ [.fresh c.nextEdition img now] }

theorem edition_grown {c : Script} (hlen : c.editions.length ≤ 8) (img : Bytes) (now : Nat) :
    (grown c img now).editions.find? (·.num == (grown c img now).cur) = some (.fresh c.nextEdition img now) := by
  have hfree := (c.nextEdition_says hlen).2
  have hnone : (c.editions.filter (fun e => e.refs != 0)).find? (·.num == c.nextEdition) = none := by
    rw [List.find?_eq_none]
    rw [List.any_eq_false] at hfree
    exact fun x hx => hfree x (List.mem_filter.mp hx).1
  show (c.editions.filter (fun e : Edition => e.refs != 0) ++ [Edition.fresh c.nextEdition img now]).find? (fun e : Edition => e.num == c.nextEdition) = _
  rw [List.find?_append, hnone, Option.none_or]
  exact List.find?_cons_of_pos (beq_self_eq_true c.nextEdition)

/-- The resident script with a handle. -/
def resident? (s : State) (h : Nat) : Option Script := s.scripts.find? (fun c => c.handle == h && c.resident)

theorem current_eq (s : State) (h : Nat) : s.current h = (s.resident? h).bind (fun c => c.editions.find? (·.num == c.cur)) := rfl

theorem find_and {α : Type} {p r : α → Bool} {l : List α} {x : α} (h : l.find? p = some x) (hr : r x = true) : l.find? (fun y => p y && r y) = some x := by
  induction l with
  | nil => exact absurd h (by simp)
  | cons y l ih =>
    by_cases hp : p y = true
    · rw [List.find?_cons_of_pos hp, Option.some.injEq] at h
      subst h
      exact List.find?_cons_of_pos (by rw [hp, hr]; rfl)
    · rw [List.find?_cons_of_neg hp] at h
      rw [List.find?_cons_of_neg (by simp [hp]), ih h]

/-- What an edition that has just been installed is. -/
theorem install_says (s : State) (h : Nat) (img : Bytes) (hres : ∀ x ∈ s.scripts, x.handle = h → x.resident = true ∧ x.editions.length ≤ 8) :
    ∃ x, (s.install h img).2.current h = some x ∧ x.image = img ∧ x.num = (s.install h img).1 ∧ x.refs = 0 ∧ x.num ≠ 0
      ∧ (∀ h', h' ≠ h → (s.install h img).2.current h' = s.current h') := by
  have hnot {h' : Nat} (hne : h' ≠ h) (c : Script) : (c.handle == h) = true → (c.handle == h' && c.resident) = false := fun hc => by
    rw [beq_iff_eq] at hc
    simp [hc, hne.symm]
  unfold install
  split
  · next hnone =>
    have hnew : (s.scripts ++ [(⟨h, true, 1, [.fresh 1 img s.now]⟩ : Script)]).find? (fun c => c.handle == h && c.resident) = some ⟨h, true, 1, [.fresh 1 img s.now]⟩ := by
      have hnone' : s.scripts.find? (fun c => c.handle == h && c.resident) = none := by
        rw [List.find?_eq_none] at hnone ⊢
        intro x hx hand
        exact hnone x hx (Bool.and_eq_true_iff.mp hand).1
      rw [List.find?_append, hnone', Option.none_or]
      exact List.find?_cons_of_pos (by simp)
    refine ⟨.fresh 1 img s.now, ?_, rfl, rfl, rfl, Nat.one_ne_zero, fun h' hne => ?_⟩
    · rw [current_eq, resident?, hnew]
      rfl
    · rw [current_eq, resident?, List.find?_append, List.find?_cons_of_neg (by simp [hne.symm]), List.find?_nil, Option.or_none]
      rfl
  · next c hc =>
    have hmem := List.mem_of_find?_eq_some hc
    have hhandle : c.handle = h := by simpa using List.find?_some hc
    obtain ⟨hcres, hlen⟩ := hres c hmem hhandle
    let f (x : Script) : Script := { x with cur := c.nextEdition, editions := x.editions.filter (fun e => e.refs != 0) ++ [.fresh c.nextEdition img s.now] }
    have hfind : (modFirst (·.handle == h) f s.scripts).find? (fun x => x.handle == h && x.resident) = some (grown c img s.now) :=
      find_and ((find_modFirst (fun x : Script => x.handle == h) f s.scripts fun _ hx => hx).trans (congrArg _ hc)) hcres
    refine ⟨.fresh c.nextEdition img s.now, ?_, rfl, rfl, rfl, (c.nextEdition_says hlen).1, fun h' hne => ?_⟩
    · rw [current_eq]
      exact (congrArg (Option.bind · _) hfind).trans (edition_grown hlen img s.now)
    · exact congrArg (Option.bind · (fun c : Script => c.editions.find? (·.num == c.cur)))
        (find_modFirst_ne (fun x : Script => x.handle == h) (fun x => x.handle == h' && x.resident) f s.scripts (hnot hne) (fun x hx => hnot hne (f x) hx))

/-- A script that is not resident any more, with the editions that launches still hold. -/
def heldOnly (c : Script) : Script := { c with resident := false, editions := c.editions.filter (·.refs != 0) }

/-- The scripts without the one that a SCRIPT_DROP takes away. -/
def dropped (s : State) (h : Nat) : State :=
  { s with scripts := (modFirst (·.handle == h) heldOnly s.scripts).filter (fun c => c.resident || !c.editions.isEmpty) }

/-- With handles that differ, every script of the handle is the one that has been changed. -/
theorem mem_modFirst_of_nodup {l : List Script} {h : Nat} {f : Script → Script} (hnodup : (l.map (·.handle)).Nodup)
    {x : Script} (hx : x ∈ modFirst (·.handle == h) f l) (hh : x.handle = h) : ∃ y, x = f y := by
  induction l with
  | nil => exact absurd hx (List.not_mem_nil)
  | cons y l ih =>
    rw [List.map_cons, List.nodup_cons] at hnodup
    rw [modFirst] at hx
    split at hx
    · next hy =>
      rcases List.mem_cons.mp hx with rfl | hx
      · exact ⟨y, rfl⟩
      · rw [beq_iff_eq] at hy
        exact absurd (List.mem_map.mpr ⟨x, hx, hh.trans hy.symm⟩) hnodup.1
    · next hy =>
      rcases List.mem_cons.mp hx with rfl | hx
      · exact absurd (beq_iff_eq.mpr hh) hy
      · exact ih hnodup.2 hx

theorem dropped_says (s : State) (h : Nat) (hnodup : (s.scripts.map (·.handle)).Nodup) :
    (s.dropped h).current h = none ∧ (∀ h', h' ≠ h → (s.dropped h).current h' = s.current h')
      ∧ (∀ x ∈ (s.dropped h).scripts, x.handle = h → x.editions.all (·.refs != 0) = true) := by
  have hof {x : Script} (hx : x ∈ (s.dropped h).scripts) (hh : x.handle = h) :
      ∃ y : Script, x = heldOnly y :=
    mem_modFirst_of_nodup hnodup (List.mem_filter.mp (show x ∈ List.filter _ _ from hx)).1 hh
  refine ⟨?_, fun h' hne => ?_, fun x hx hh => ?_⟩
  · have hnone : (s.dropped h).resident? h = none := by
      rw [resident?, List.find?_eq_none]
      intro x hx hand
      obtain ⟨hh, hr⟩ := Bool.and_eq_true_iff.mp hand
      obtain ⟨y, rfl⟩ := hof hx (beq_iff_eq.mp hh)
      exact Bool.noConfusion hr
    rw [current_eq, hnone]
    rfl
  · have hnot (c : Script) : (c.handle == h) = true → (c.handle == h' && c.resident) = false := fun hc => by
      rw [beq_iff_eq] at hc
      simp [hc, hne.symm]
    have hsame : (s.dropped h).resident? h' = s.resident? h' := by
      rw [resident?, dropped, List.find?_filter]
      refine Eq.trans ?_ (find_modFirst_ne (fun x : Script => x.handle == h) (fun x => x.handle == h' && x.resident)
        heldOnly s.scripts hnot (fun x hx => by simp [heldOnly]))
      congr 1
      funext c
      have hdec : decide (c.handle = h') = (c.handle == h') := rfl
      cases c.resident <;> simp [hdec]
    rw [current_eq, hsame, current_eq]
  · obtain ⟨y, rfl⟩ := hof hx hh
    exact List.all_eq_true.mpr fun e he => (List.mem_filter.mp he).2

/-! ## SCRIPT_DROP -/

theorem exec_scriptDrop {s : State} {k n : Nat} {e : Bytes} {q : QSlot} {rest : List (Nat × Bytes)} (h : s.admits k 0x22 n e q rest)
    (hhdr : hdrZero e = true) (hres : allZero (slice (argsOf e) 2 38) = true) :
    exec (.scriptDrop k) s = .next (let u := s.took k n e rest
      let id := rd (argsOf e) 0 2
      if !s.scripts.any (fun c => c.handle == id && c.resident) then u.endCmd k n ST_Q_NO_SCRIPT 0
      else if s.named id then u.endCmd k n ST_Q_SCRIPT_IN_USE 0
      else (u.dropped id).endCmd k n ST_OK 0) := by
  show execScriptDrop k s = _
  rw [execScriptDrop, admitOp_of_admits h]
  refine congrArg _ ((if_neg ?_).trans rfl)
  rw [hhdr, hres]
  simp

end State

/-- Settles O47: an image of device memory is read at once, so the checks see the scripts as they stand; one from the host comes run by run; of the ten
numbers after the current one at most eight are taken. -/
theorem scriptCommands : Obligations.ScriptCommands := by
  unfold Obligations.ScriptCommands
  refine ⟨fun s k n e q rest patch h hnew => ⟨fun hbad => ?_, fun hbad hst => ?_, fun hbad hst hlo hhi h8 hsrc v img hread => ?_⟩, ?_,
    fun s h img hres => State.install_says s h img hres, fun s k n e q rest h => ?_⟩
  · exact (State.exec_scriptCmd h).trans (congrArg Host.Outcome.next (if_pos hbad))
  · exact (State.exec_scriptCmd h).trans (congrArg Host.Outcome.next ((if_neg (by rw [hbad]; decide)).trans (if_pos hst)))
  · have hframe := State.devRead_bytes hread
    have hstatus : v.scriptStatus patch (rd (argsOf e) 0 2) = ST_OK := by
      rw [show v = _ from hframe]
      exact hst
    have hgo : exec (if patch then .scriptPatch k else .scriptLoad k) s = .next (v.scriptDone k n patch (rd (argsOf e) 0 2) img (rd (argsOf e) 16 4)) := by
      refine (State.exec_scriptCmd h).trans (congrArg Host.Outcome.next ((if_neg (by rw [hbad]; decide)).trans ((if_neg (Classical.not_not.mpr hst)).trans ((if_neg (by omega)).trans ?_))))
      exact State.scriptGo_took h hnew hsrc hread
    refine ⟨fun hok => ?_, fun st w hbad => ?_⟩
    · rw [hgo, State.scriptDone_of hstatus, hok]
    · rw [hgo, State.scriptDone_of hstatus, hbad]
  · intro s u slot n c data hserv hload hcmd hopen hop a bytes d hsrc hacc
    have hgo : ¬(c.status.isSome = true ∨ (!(c.op == 0x20 || c.op == 0x21)) = true) := by
      rw [hopen]
      rcases hop with hop | hop <;> simp [hop]
    refine exec_whenServing hserv rfl ?_
    simp only [hload]
    exact State.scriptGo_host hcmd hgo (by rw [show rd (argsOf c.entry) 2 1 = 0 from hsrc]; decide) hacc
  · intro u id hhdr hres
    have hexec := State.exec_scriptDrop h hhdr hres
    refine ⟨fun hnone => ?_, fun hany hnamed => ?_, fun hany hnamed hnodup => ?_⟩
    · exact hexec.trans (congrArg Host.Outcome.next (if_pos (by rw [hnone]; rfl)))
    · exact hexec.trans (congrArg Host.Outcome.next ((if_neg (by rw [hany]; decide)).trans (if_pos hnamed)))
    · have hdrop : exec (.scriptDrop k) s = .next ((u.dropped id).endCmd k n ST_OK 0) :=
        hexec.trans (congrArg Host.Outcome.next ((if_neg (by rw [hany]; decide)).trans (if_neg (ne_true_of_eq_false hnamed))))
      obtain ⟨hgone, hothers, hheld⟩ := State.dropped_says u id hnodup
      exact ⟨u.dropped id, hdrop, rfl, hgone, hothers, hheld⟩

end Sys2Proof.Machine

/-! Admission, placement and start of a launch (R179, R352 to R354, R383, R403 to R405, R422, R424): what settles O48. -/

namespace Sys2Proof.Machine

/-! ## Lists -/

/-- A change of an element that a projection does not see is not seen in what a search finds. -/
theorem map_find_modFirst {α β : Type} (p q : α → Bool) (f : α → α) (g : α → β) (l : List α) (hq : ∀ x, q (f x) = q x) (hg : ∀ x, g (f x) = g x) :
    ((modFirst p f l).find? q).map g = (l.find? q).map g := by
  induction l with
  | nil => rfl
  | cons x t ih =>
    rw [modFirst]
    split
    · rw [List.find?_cons, List.find?_cons, hq]
      split
      · exact congrArg some (hg x)
      · rfl
    · rw [List.find?_cons, List.find?_cons]
      split
      · rfl
      · exact ih

theorem insertBy_perm (key : Nat → Nat) (x : Nat) (l : List Nat) : (insertBy key x l).Perm (x :: l) := by
  induction l with
  | nil => exact .refl _
  | cons y t ih =>
    rw [insertBy]
    split
    · exact .refl _
    · exact (ih.cons y).trans (.swap x y t)

theorem sortBy_perm (key : Nat → Nat) (l : List Nat) : (sortBy key l).Perm l := by
  induction l with
  | nil => exact .refl _
  | cons x t ih => exact (insertBy_perm key x _).trans (ih.cons x)

namespace State

/-! ## A free context -/

theorem exists_unused {l : List Ctx} {n : Nat} (h : l.length < n) : ∃ i ∈ List.range n, l.any (·.id == i) = false := by
  refine Classical.byContradiction fun hnone => ?_
  have hsub : ∀ i ∈ List.range n, i ∈ l.map (·.id) := by
    intro i hi
    refine Classical.byContradiction fun hout => ?_
    refine hnone ⟨i, hi, List.any_eq_false.mpr fun c hc hid => hout ?_⟩
    exact List.mem_map.mpr ⟨c, hc, beq_iff_eq.mp hid⟩
  have hle := length_le_of_nodup List.nodup_range hsub
  rw [List.length_range, List.length_map] at hle
  omega

theorem freeCtxs_of_ctxFor {s : State} {k : Nat} (h : s.ctxFor k = true) : 0 < s.freeCtxs := by
  unfold ctxFor at h
  generalize s.freeCtxs = n at h ⊢
  obtain ⟨-, hless⟩ := Bool.and_eq_true_iff.mp h
  rw [decide_eq_true_eq] at hless
  omega

theorem freeId_unused {s : State} (h : 0 < s.freeCtxs) : s.ctx? s.freeId = none := by
  obtain ⟨i, hi, hfree⟩ := exists_unused (show s.ctxs.length < contexts from Nat.lt_of_sub_pos h)
  obtain ⟨j, hj⟩ := Option.isSome_iff_exists.mp (List.find?_isSome.mpr ⟨i, hi, by rw [hfree]; rfl⟩ :
    ((List.range contexts).find? (fun i => !s.ctxs.any (·.id == i))).isSome = true)
  have hid : s.freeId = j := by rw [freeId, hj, Option.getD_some]
  have hunused := List.find?_some hj
  rw [Bool.not_eq_true'] at hunused
  rw [hid, ctx?, List.find?_eq_none]
  exact List.any_eq_false.mp hunused

/-! ## A launch that is admitted -/

/-- What the admission of a launch changes. -/
def admitting (s t : State) : State := { s with tables := t.tables, scripts := t.scripts, ctxs := t.ctxs, regs := t.regs }

/-- The state of an admission before the deadline monitor acts. -/
def listed (s : State) (c : Ctx) : State :=
  let s1 := c.versions.foldl takeRef s
  let s2 := s1.modEdition c.script c.edition (fun e => { e with refs := e.refs + 1 })
  let s3 := match c.us with
    | some (h, e) => s2.modEdition h e (fun x => { x with refs := x.refs + 1 })
    | none => s2
  ({ s3 with ctxs := s3.ctxs ++ [c] } : State).count Reg.CFE_ADMITTED 1

/-- The tables, and nothing else. -/
def counting (s t : State) : State := { s with tables := t.tables }

theorem within_takeRefs (s : State) (l : List (Nat × Nat)) : s.within counting (l.foldl takeRef s) :=
  within_foldl (take := counting) takeRef (fun _ _ => rfl) l s

theorem within_listed (s : State) (c : Ctx) : s.within admitting (s.listed c) := by
  have hrefs := within_mono (take' := admitting) (s.within_takeRefs c.versions)
  unfold listed
  split
  · exact within_trans hrefs rfl
  · exact within_trans hrefs rfl

theorem ctxs_listed (s : State) (c : Ctx) : (s.listed c).ctxs = s.ctxs ++ [c] := by
  have hrefs : (c.versions.foldl takeRef s).ctxs = s.ctxs := by
    rw [s.within_takeRefs c.versions]
    rfl
  unfold listed
  split
  · exact congrArg (· ++ [c]) hrefs
  · exact congrArg (· ++ [c]) hrefs

/-- The deadline monitor has nothing to do for a launch without a deadline. -/
theorem monitor_quiet {s : State} {id : Nat} {c : Ctx} (hc : s.ctx? id = some c) (hd : c.deadline = 0) : s.monitor id = s := by
  rw [monitor, hc]
  exact if_pos (.inl hd)

theorem addCtx_quiet {s : State} {c : Ctx} (hnew : s.ctx? c.id = none) (hd : c.deadline = 0) : s.addCtx c = s.listed c := by
  refine monitor_quiet (s := s.listed c) (c := c) ?_ hd
  rw [ctx?, ctxs_listed, List.find?_append, show s.ctxs.find? _ = none from hnew, Option.none_or]
  exact List.find?_cons_of_pos (beq_self_eq_true c.id)

/-- A launch that has neither arguments in the host nor segments reads nothing. -/
theorem readArgs_nothing {s : State} {c : Ctx} (hargs : LEnt.argHost (s.entryOf c) = false) (hsegs : c.segTab.length = 0) : s.readArgs c = (.ok, s) := by
  have hzero : s.cfeRead (.args c.id) c.slot (LEnt.argaddr (s.entryOf c)) (if LEnt.argHost (s.entryOf c) then c.args.length else 0) = (.ok, s) := by
    rw [hargs]
    rfl
  unfold readArgs
  extract_lets e
  rw [show s.cfeRead (.args c.id) c.slot (LEnt.argaddr e) (if LEnt.argHost e then c.args.length else 0) = (.ok, s) from hzero, hsegs]
  rfl

/-- What an admitted launch with its arguments inline and no segments is. -/
def inlineCtx (s : State) (k n : Nat) (e segs : Bytes) (b : Bound) : Ctx :=
  newCtx s.freeId k n (rd e 4 4) (LEnt.script e) b s.time.gtime (LEnt.deadline e) (LEnt.scope e) (LEnt.nous e) (LEnt.lateAbort e) (slice e 32 (LEnt.arglen e)) segs none

theorem id_inlineCtx (s : State) (k n : Nat) (e segs : Bytes) (b : Bound) : (s.inlineCtx k n e segs b).id = s.freeId := by
  simp only [inlineCtx, newCtx]

section
variable {s : State} {k n : Nat} {e args segs : Bytes} {q : QSlot} {rest : List (Nat × Bytes)} (h : s.admits k 1 n e q rest)
include h

theorem exec_launch (hgo : launchBad e = true ∨ (s.ctxFor k = true ∧ args.length = (if LEnt.argHost e then LEnt.arglen e else 0) ∧ segs.length = 16 * LEnt.nseg e)) :
    exec (.launch k args segs) s = .next ((s.took k n e rest).launchEntry k n e args segs) := by
  have hadm := admitOp_of_admits h (fun n e s => s.launchEntry k n e args segs)
  obtain ⟨-, -, hslot, hwait, -, -⟩ := h
  have hfront : (s.slot k).front = some (n, e) := by
    rw [slot_of_getElem hslot, QSlot.front, hwait]
    rfl
  show execLaunch k args segs s = _
  unfold execLaunch
  rw [hfront]
  exact congrArg Host.Outcome.next ((if_pos (hgo.imp_right Or.inr)).trans hadm)

theorem launchEntry_bound {st : Nat} {b : Bound} (hgood : launchBad e = false)
    (hdec : (s.took k n e rest).decideAdm k (LEnt.script e) (LEnt.nous e) (LEnt.lateAbort e) (LEnt.deadline e) = (st, some b))
    (hfit : Img.argOff b.edition.image + LEnt.arglen e ≤ frameBytes b.edition.image) (hd : LEnt.deadline e = 0) (hinline : LEnt.argHost e = false)
    (hsegs : segs.length = 0) (hroom : s.ctxFor k = true) (hnew : s.cmd? k n = none) :
    (s.took k n e rest).launchEntry k n e args segs = (s.took k n e rest).listed ((s.took k n e rest).inlineCtx k n e segs b) := by
  obtain ⟨-, -, hslot, -, -, -⟩ := h
  generalize hc : (s.took k n e rest).inlineCtx k n e segs b = c
  have hfree : 0 < (s.took k n e rest).freeCtxs := by
    rw [show (s.took k n e rest).freeCtxs = s.freeCtxs by unfold freeCtxs; rfl]
    exact freeCtxs_of_ctxFor hroom
  have hunused : (s.took k n e rest).ctx? c.id = none := by
    rw [← hc, id_inlineCtx]
    exact freeId_unused hfree
  have hadd : (s.took k n e rest).addCtx c = (s.took k n e rest).listed c := addCtx_quiet hunused (by subst hc; exact hd)
  have hentry : ((s.took k n e rest).listed c).entryOf c = e := by
    have hcmd : ((s.took k n e rest).listed c).cmd? k n = some (newCmd n e) := by
      rw [within_listed (s.took k n e rest) c]
      exact cmd_took hslot hnew
    subst hc
    exact congrArg (fun o : Option Cmd => (o.map (·.entry)).getD []) hcmd
  have hread := readArgs_nothing (s := (s.took k n e rest).listed c) (c := c) (by rw [hentry]; exact hinline) (by subst hc; exact hsegs)
  have harg : (if LEnt.argHost e then args else slice e 32 (LEnt.arglen e)) = slice e 32 (LEnt.arglen e) := by
    rw [hinline]
    rfl
  unfold launchEntry
  rw [hdec]
  refine (if_neg (by rw [hgood]; decide)).trans ((if_neg (Nat.not_lt.mpr hfit)).trans ?_)
  rw [harg]
  refine (congrArg (fun c => (((s.took k n e rest).addCtx c).readArgs c).2) hc).trans ?_
  rw [hadd, hread]

end

/-! ## Choice -/

/-- A die that takes the place of the best so far. -/
def better (s : State) (k n : Nat) (best : Option (Nat × List Nat × Nat)) (d : Nat) : Option (Nat × List Nat × Nat) :=
  match s.pickOn k n d, best with
  | none, b => b
  | some (p, sc), none => some (d, p, sc)
  | some (p, sc), some (bd, bp, bs) => if sc < bs then some (d, p, sc) else some (bd, bp, bs)

theorem choose_eq (s : State) (k n : Nat) :
    s.choose k n = (((List.range 8).map (fun i => (s.lastDie + 1 + i) % 8)).foldl (s.better k n) none).map (fun x => (x.1, x.2.1)) := by
  rw [List.foldl_map]
  rfl

/-- What stands as the best is a pick of one of the dies. -/
def standing (s : State) (k n : Nat) (best : Option (Nat × List Nat × Nat)) : Prop :=
  ∀ d p sc, best = some (d, p, sc) → d < 8 ∧ s.pickOn k n d = some (p, sc)

theorem better_says (s : State) (k n d : Nat) {best : Option (Nat × List Nat × Nat)} (hd : d < 8) (h : s.standing k n best) :
    s.standing k n (s.better k n best d) ∧ (∀ b, best = some b → ∃ b', s.better k n best d = some b' ∧ b'.2.2 ≤ b.2.2)
      ∧ (∀ p sc, s.pickOn k n d = some (p, sc) → ∃ b', s.better k n best d = some b' ∧ b'.2.2 ≤ sc) := by
  unfold better
  split
  · next b hpick => exact ⟨h, fun b hb => ⟨b, hb, Nat.le_refl _⟩, fun p sc hp => absurd (hpick.symm.trans hp) (by simp)⟩
  · next p sc hpick =>
    refine ⟨fun d' p' sc' heq => ?_, fun b hb => absurd hb (by simp), fun p' sc' hp => ?_⟩
    · obtain ⟨rfl, rfl, rfl⟩ : d = d' ∧ p = p' ∧ sc = sc' := by simpa using heq
      exact ⟨hd, hpick⟩
    · obtain ⟨rfl, rfl⟩ : p = p' ∧ sc = sc' := by simpa using hpick.symm.trans hp
      exact ⟨_, rfl, Nat.le_refl _⟩
  · next p sc bd bp bs hpick =>
    have hsc {p' : List Nat} {sc' : Nat} (hp : s.pickOn k n d = some (p', sc')) : sc = sc' := by
      have heq := hpick.symm.trans hp
      simp only [Option.some.injEq, Prod.mk.injEq] at heq
      exact heq.2
    split
    · next hlt =>
      refine ⟨fun d' p' sc' heq => ?_, fun b hb => ⟨_, rfl, ?_⟩, fun p' sc' hp => ⟨_, rfl, Nat.le_of_eq (hsc hp)⟩⟩
      · obtain ⟨rfl, rfl, rfl⟩ : d = d' ∧ p = p' ∧ sc = sc' := by simpa using heq
        exact ⟨hd, hpick⟩
      · cases hb
        exact Nat.le_of_lt hlt
    · next hge =>
      exact ⟨h, fun b hb => ⟨b, hb, Nat.le_refl _⟩, fun p' sc' hp => ⟨_, rfl, Nat.le_trans (Nat.not_lt.mp hge) (Nat.le_of_eq (hsc hp))⟩⟩

theorem best_says (s : State) (k n : Nat) (l : List Nat) (hl : ∀ d ∈ l, d < 8) {best : Option (Nat × List Nat × Nat)} (h : s.standing k n best) :
    s.standing k n (l.foldl (s.better k n) best) ∧ (∀ b, best = some b → ∃ b', l.foldl (s.better k n) best = some b' ∧ b'.2.2 ≤ b.2.2)
      ∧ (∀ d ∈ l, ∀ p sc, s.pickOn k n d = some (p, sc) → ∃ b', l.foldl (s.better k n) best = some b' ∧ b'.2.2 ≤ sc) := by
  induction l generalizing best with
  | nil => exact ⟨h, fun b hb => ⟨b, hb, Nat.le_refl _⟩, fun d hd => absurd hd List.not_mem_nil⟩
  | cons d l ih =>
    obtain ⟨hstand, hold, hnew⟩ := s.better_says k n d (hl d List.mem_cons_self) h
    obtain ⟨hlast, hkeep, hmin⟩ := ih (fun d hd => hl d (List.mem_cons_of_mem _ hd)) hstand
    have hchain {bound : Nat} (hex : ∃ b', s.better k n best d = some b' ∧ b'.2.2 ≤ bound) :
        ∃ b', l.foldl (s.better k n) (s.better k n best d) = some b' ∧ b'.2.2 ≤ bound := by
      obtain ⟨b', hb', hle⟩ := hex
      obtain ⟨b'', hb'', hle'⟩ := hkeep b' hb'
      exact ⟨b'', hb'', Nat.le_trans hle' hle⟩
    refine ⟨hlast, fun b hb => hchain (hold b hb), fun d' hd' p sc hp => ?_⟩
    rcases List.mem_cons.mp hd' with rfl | hd'
    · exact hchain (hnew p sc hp)
    · exact hmin d' hd' p sc hp

theorem pickOn_says {s : State} {k n d sc : Nat} {p : List Nat} (h : s.pickOn k n d = some (p, sc)) :
    p.length = n ∧ (∀ c ∈ p, c / 16 = d ∧ s.inMask k c = true ∧ s.clOpen c = true ∧ s.held c < 64) := by
  unfold pickOn at h
  extract_lets free pick at h
  split at h
  · next hle =>
    obtain ⟨rfl, -⟩ : sortBy id pick = p ∧ _ := by simpa using h
    refine ⟨?_, fun c hc => ?_⟩
    · rw [(sortBy_perm id pick).length_eq, List.length_take, (sortBy_perm _ free).length_eq]
      omega
    · have hfree : c ∈ free := (sortBy_perm _ free).mem_iff.mp (List.mem_of_mem_take ((sortBy_perm id pick).mem_iff.mp hc))
      obtain ⟨hdie, hopen⟩ := List.mem_filter.mp hfree
      simp only [Bool.and_eq_true, decide_eq_true_eq] at hopen
      obtain ⟨⟨hmask, hcl⟩, hheld⟩ := hopen
      obtain ⟨i, hi, rfl⟩ := List.mem_map.mp hdie
      rw [List.mem_range] at hi
      exact ⟨by omega, hmask, hcl, hheld⟩
  · cases h

theorem choose_says {s : State} {k n d : Nat} {p : List Nat} (h : s.choose k n = some (d, p)) : d < 8 ∧ p.length = n
    ∧ (∀ c ∈ p, c / 16 = d ∧ s.inMask k c = true ∧ s.clOpen c = true ∧ s.held c < 64)
    ∧ ∃ sc, s.pickOn k n d = some (p, sc) ∧ ∀ d' p' sc', d' < 8 → s.pickOn k n d' = some (p', sc') → sc ≤ sc' := by
  rw [choose_eq] at h
  obtain ⟨⟨d0, p0, sc⟩, hbest, heq⟩ := Option.map_eq_some_iff.mp h
  obtain ⟨rfl, rfl⟩ : d0 = d ∧ p0 = p := by simpa using heq
  have hall (d' : Nat) (hd' : d' < 8) : d' ∈ (List.range 8).map (fun i => (s.lastDie + 1 + i) % 8) :=
    List.mem_map.mpr ⟨(d' + 8 - (s.lastDie + 1) % 8) % 8, List.mem_range.mpr (Nat.mod_lt _ (by decide)), by omega⟩
  obtain ⟨hstand, -, hmin⟩ := s.best_says k n ((List.range 8).map (fun i => (s.lastDie + 1 + i) % 8)) (best := none)
    (fun d' hd' => by
      obtain ⟨i, -, rfl⟩ := List.mem_map.mp hd'
      exact Nat.mod_lt _ (by decide))
    (fun _ _ _ hnone => nomatch hnone)
  obtain ⟨hd, hpick⟩ := hstand d0 p0 sc hbest
  obtain ⟨hlen, hcls⟩ := pickOn_says hpick
  refine ⟨hd, hlen, hcls, sc, hpick, fun d' p' sc' hd' hp' => ?_⟩
  obtain ⟨b', hb', hle⟩ := hmin d' (hall d' hd') p' sc' hp'
  rw [hbest, Option.some.injEq] at hb'
  subst hb'
  exact hle

/-! ## Placement -/

/-- What the placement and the start of a launch change. -/
def placingIt (s t : State) : State :=
  { s with ctxs := t.ctxs, lastDie := t.lastDie, clusters := t.clusters, scr := t.scr, freeCtr := t.freeCtr, ras := t.ras, regs := t.regs, out := t.out }

/-- Scratch and what is drawn for it. -/
def opening (s t : State) : State := { s with scr := t.scr, freeCtr := t.freeCtr, ras := t.ras }

/-- Shares of clusters and scratch. -/
def sharing (s t : State) : State := { s with clusters := t.clusters, scr := t.scr, freeCtr := t.freeCtr, ras := t.ras }

theorem within_openCells (s : State) (key : Nat) (skip : Nat → Bool) (off n : Nat) : s.within opening (openCells s key skip off n) := by
  induction n generalizing s off with
  | zero => rfl
  | succ n ih =>
    rw [openCells]
    split
    · exact ih s _
    · have hdraw : s.within opening { s.free.2 with scr := s.free.2.scr.put (key + off) (s.free.1.setWidth 8) } := rfl
      exact within_trans hdraw (ih _ _)

theorem within_fillBufs (s : State) (img : Bytes) (cl base i : Nat) (shared : Bool) : s.within opening (s.fillBufs img cl base i shared) := by
  refine within_foldl (take := opening) _ ?_ _ s
  intro s b
  dsimp only
  split
  · rfl
  · split <;> rfl

theorem within_takeCluster (s : State) (c : Ctx) (img : Bytes) (i cl : Nat) (shared : Option Nat) : s.within sharing (s.takeCluster c img i cl shared) := by
  cases shared with
  | none => rfl
  | some b =>
    have hshare : s.within sharing (s.modCluster cl (fun k => { k with shared := k.shared ++ [(c.bound.1, c.bound.2, b, 1)] })) := rfl
    exact within_trans hshare (within_mono (within_trans (within_openCells ..) (within_fillBufs ..)))

/-- The shares that a launch takes. -/
def newShares (s : State) (c : Ctx) (l : List (Nat × Nat × Option Nat)) : List ClCtx :=
  l.zipIdx.map (fun (x, i) => newClCtx x.1 x.2.1 (Img.entry (s.image c) (Img.clprog (s.image c) i)) s.time.gtime)

theorem within_placeCtx (s : State) (c : Ctx) (d : Nat) (l : List (Nat × Nat × Option Nat)) :
    (({ s with lastDie := d } : State).modCtx c.id (fun x => { x with st := .placed, die := d, cls := s.newShares c l })).within sharing (s.placeCtx c d l) := by
  refine within_foldl (take := sharing) _ ?_ _ _
  rintro s ⟨x, i⟩
  exact within_takeCluster ..

theorem shares_of_new (s : State) (c : Ctx) (l : List (Nat × Nat × Option Nat)) :
    (s.newShares c l).map (·.cl) = l.map (·.1) ∧ (s.newShares c l).map (·.base) = l.map (·.2.1)
      ∧ (∀ k ∈ s.newShares c l, k.running = [] ∧ k.sreg = List.replicate 32 0 ∧ k.link = [] ∧ k.exited = false) := by
  refine ⟨?_, ?_, fun k hk => ?_⟩
  · rw [newShares, List.map_map]
    conv => rhs; rw [← List.zipIdx_map_fst 0 l, List.map_map]
    rfl
  · rw [newShares, List.map_map]
    conv => rhs; rw [← List.zipIdx_map_fst 0 l, List.map_map]
    rfl
  · obtain ⟨x, -, rfl⟩ := List.mem_map.mp hk
    exact ⟨rfl, rfl, rfl, rfl⟩

theorem exec_placeLaunch {s : State} {ctx : Nat} {c : Ctx} (hserv : s.serving = true) (hc : s.ctx? ctx = some c) {d : Nat} {l : List (Nat × Nat × Option Nat)}
    (hturn : s.turn c = some (d, l)) (hsw : c.swapped = false) (hd : c.deadline = 0) :
    exec (.placeLaunch ctx) s = .next (s.placeCtx c d l)
      ∧ (s.placeCtx c d l).ctx? ctx = some { c with st := .placed, die := d, cls := s.newShares c l } := by
  have hid : c.id = ctx := by simpa using List.find?_some hc
  have hplaced : (s.placeCtx c d l).ctx? ctx = some { c with st := .placed, die := d, cls := s.newShares c l } := by
    have hctxs : (s.placeCtx c d l).ctxs = (s.modCtx ctx (fun x => { x with st := .placed, die := d, cls := s.newShares c l })).ctxs := by
      rw [s.within_placeCtx c d l, ← hid]
      rfl
    rw [ctx?, hctxs]
    exact (s.ctx_modCtx ctx (fun x => { x with st := .placed, die := d, cls := s.newShares c l }) fun _ => rfl).trans (by rw [hc]; rfl)
  refine ⟨exec_whenServing hserv rfl ?_, hplaced⟩
  simp only [hc, hturn, hsw, Bool.false_eq_true, if_false]
  exact monitor_quiet hplaced hd

/-! ## Start -/

/-- What the start of a launch changes beside scratch. -/
def running (s t : State) : State := { s with ctxs := t.ctxs, clusters := t.clusters, scr := t.scr, freeCtr := t.freeCtr, ras := t.ras }

/-- What a start says of a launch, and what the pick of a cluster's next launch leaves alone. -/
def startOf (c : Ctx) : CtxSt × Bool × Word × List Nat := (c.st, c.started, c.t0, c.cls.map (·.pc))

theorem within_repick_running (s : State) (cl : Nat) : s.within running (s.repick cl) := by
  unfold repick
  split
  · rfl
  · split
    · rfl
    · split <;> rfl

theorem startOf_enter (s : State) (cl id ctx : Nat) : ((s.enter cl id).ctx? ctx).map startOf = (s.ctx? ctx).map startOf :=
  map_find_modFirst (fun c : Ctx => c.id == id) (fun c => c.id == ctx) (fun c : Ctx => { c with cls := modFirst (·.cl == cl) (fun k => { k with since := s.time.gtime }) c.cls }) startOf s.ctxs
    (fun _ => rfl) fun c => by
      unfold startOf
      rw [map_modFirst (·.cl == cl) (fun k : ClCtx => { k with since := s.time.gtime }) (·.pc) c.cls fun _ => rfl]

theorem startOf_repick (s : State) (cl ctx : Nat) : ((s.repick cl).ctx? ctx).map startOf = (s.ctx? ctx).map startOf := by
  unfold repick
  split
  · rfl
  · split
    · exact startOf_enter ..
    · split
      · exact startOf_enter ..
      · rfl

theorem startOf_repicks (s : State) (l : List Nat) (ctx : Nat) : ((l.foldl repick s).ctx? ctx).map startOf = (s.ctx? ctx).map startOf :=
  List.foldlRecOn l repick (motive := fun t => (t.ctx? ctx).map startOf = (s.ctx? ctx).map startOf) rfl fun t ht cl _ => (startOf_repick t cl ctx).trans ht

theorem within_ctxWrite (s : State) (c : Ctx) (k : ClCtx) (off : Nat) (b : Bytes) : s.within opening (s.ctxWrite c k off b) := by
  unfold ctxWrite
  split <;> rfl

/-- The frames of a launch that starts are open, with buffers and arguments in them. -/
def framed (s : State) (c : Ctx) : State :=
  let s1 := c.cls.zipIdx.foldl (fun t (k, i) => t.fillFrame (s.image c) i k) s
  match c.cls with
  | k :: _ => s1.ctxWrite c k (Img.argOff (s.image c)) c.args
  | [] => s1

theorem within_framed (s : State) (c : Ctx) : s.within opening (s.framed c) := by
  have hfill : s.within opening (c.cls.zipIdx.foldl (fun t (k, i) => t.fillFrame (s.image c) i k) s) := by
    refine within_foldl (take := opening) _ ?_ _ s
    rintro t ⟨k, i⟩
    exact within_trans (within_openCells ..) (within_fillBufs ..)
  unfold framed
  split
  · exact within_trans hfill (within_ctxWrite ..)
  · exact hfill

theorem startCtx_says {s : State} {id : Nat} {c : Ctx} (hc : s.ctx? id = some c) : s.within running (s.startCtx id)
    ∧ ((s.startCtx id).ctx? id).map startOf = some (.running, true, s.time.gtime, c.cls.map (·.pc)) := by
  have hframe := s.within_framed c
  have heq : s.startCtx id = (c.cls.map (·.cl)).foldl repick ((s.framed c).modCtx id (fun x => { x with
      st := .running, started := true, t0 := s.time.gtime, rings := Img.rings (s.image c), curtains := Img.curtains (s.image c), stallClock := 0, stalled := false })) := by
    rw [startCtx, hc]
    rfl
  have hctx : (s.framed c).ctx? id = some c := by
    rw [hframe]
    exact hc
  rw [heq]
  refine ⟨within_trans (within_mono (take' := running) hframe) (within_trans (take := running) ?_ (within_foldl _ within_repick_running _ _)), ?_⟩
  · rfl
  · rw [startOf_repicks, ctx_modCtx _ id _ (by exact fun _ => rfl), hctx]
    rfl

theorem cfeRead_ok {s u : State} {who : XReq} {k addr n : Nat} (h : s.cfeRead who k addr n = (.ok, u)) : s.within fetching u := by
  unfold cfeRead at h
  split at h
  · obtain ⟨-, rfl⟩ := Prod.mk.inj h
    rfl
  · split at h
    · next s1 hacc =>
      obtain ⟨-, rfl⟩ := Prod.mk.inj h
      exact within_trans (within_mono (access_ok hacc)) (within_foldl (take := fetching) _ (fun s l => s.within_hlcRead _ _) _ _)
    · next hne => exact absurd h (hne u)

theorem readArgs_ok {s u : State} {c : Ctx} (h : s.readArgs c = (.ok, u)) : s.within fetching u := by
  unfold readArgs at h
  extract_lets e at h
  split at h
  · next s1 hargs => exact within_trans (cfeRead_ok hargs) (cfeRead_ok h)
  · next hne => exact absurd h (hne u)

theorem exec_launchStarts {s u : State} {ctx : Nat} {c : Ctx} (hserv : s.serving = true) (hc : s.ctx? ctx = some c) (hst : c.st = .placed)
    (hcue : c.cue = none) (hread : s.readArgs c = (.ok, u)) (hgood : segTabBad (((s.edition? c.script c.edition).map (·.image)).getD []) c.segTab = false) :
    exec (.launchStarts ctx) s = .next ((u.takeSegs c).startCtx ctx) := by
  refine exec_whenServing hserv rfl ?_
  have hargs : s.argsIn c = (true, u.takeSegs c) := by
    simp only [argsIn, hcue, hread, hgood, Bool.false_eq_true, if_false]
  simp only [hc, hargs]
  exact if_neg (Classical.not_not.mpr hst)

/-- A launch that knows its segments and where its reply goes. -/
def withSegs (c x : Ctx) : Ctx :=
  { x with segs := ((segEntries c.segTab).filter (fun b => !segReply b)).map segOf
           replyBuf := ((segEntries c.segTab).find? segReply).map (fun b => ((segOf b).addr, (segOf b).len)) }

theorem launchStarts_says {s u : State} {ctx : Nat} {c : Ctx} (hc : s.ctx? ctx = some c) (hread : s.readArgs c = (.ok, u)) :
    ∃ c', ((u.takeSegs c).startCtx ctx).ctx? ctx = some c' ∧ c'.st = .running ∧ c'.started = true ∧ c'.t0 = s.time.gtime
      ∧ c'.cls.map (·.pc) = c.cls.map (·.pc) ∧ ((u.takeSegs c).startCtx ctx).hbm = s.hbm ∧ ((u.takeSegs c).startCtx ctx).tables = s.tables := by
  have hid : c.id = ctx := by simpa using List.find?_some hc
  have hframe := readArgs_ok hread
  have hctx : u.ctx? ctx = some c := by
    rw [hframe]
    exact hc
  obtain ⟨d, hd, hcls⟩ : ∃ d, (u.takeSegs c).ctx? ctx = some d ∧ d.cls = c.cls := by
    have hsegs := u.ctx_modCtx ctx (withSegs c ·) fun _ => rfl
    rw [hctx] at hsegs
    refine ⟨withSegs c c, ?_, rfl⟩
    rw [← hid] at hsegs ⊢
    exact hsegs
  obtain ⟨hstart, hsays⟩ := startCtx_says hd
  have htime : (u.takeSegs c).time.gtime = s.time.gtime := by
    rw [hframe]
    rfl
  rw [htime, hcls] at hsays
  obtain ⟨c', hc', hof⟩ := Option.map_eq_some_iff.mp hsays
  obtain ⟨h1, h2, h3, h4⟩ : c'.st = .running ∧ c'.started = true ∧ c'.t0 = s.time.gtime ∧ c'.cls.map (·.pc) = c.cls.map (·.pc) := by
    simpa only [startOf, Prod.mk.injEq] using hof
  refine ⟨c', hc', h1, h2, h3, h4, ?_, ?_⟩
  · rw [hstart, hframe]
    rfl
  · rw [hstart, hframe]
    rfl

end State

/-- Settles O48: a free context is there because fewer than all are held; the best die of the eight stands last; the pick of a cluster's next launch
changes no launch but its time there. -/
theorem launchGoes : Obligations.LaunchGoes := by
  unfold Obligations.LaunchGoes
  refine ⟨fun s k n e args segs q rest h hnew => ?_, fun s k n d p h => State.choose_says h, fun s ctx c hserv hc => ⟨fun d l hturn hsw hd => ?_, ?_, ?_⟩⟩
  · intro u
    refine ⟨fun hbad => ?_, fun hgood hroom hargs hsegs => ?_⟩
    · exact (State.exec_launch h (.inl hbad)).trans (congrArg Host.Outcome.next (if_pos hbad))
    · have hexec : exec (.launch k args segs) s = .next (u.launchEntry k n e args segs) := State.exec_launch h (.inr ⟨hroom, hargs, hsegs⟩)
      have hgood' : ¬launchBad e = true := by
        rw [hgood]
        decide
      intro dec
      refine ⟨fun st hdec => ?_, fun st b hdec hfit => ?_, fun st b hdec hfit hd hinline hseg => ?_⟩
      · rw [hexec]
        refine congrArg Host.Outcome.next ((if_neg hgood').trans ?_)
        rw [show u.decideAdm k (LEnt.script e) (LEnt.nous e) (LEnt.lateAbort e) (LEnt.deadline e) = (st, none) from hdec]
      · rw [hexec]
        refine congrArg Host.Outcome.next ((if_neg hgood').trans ?_)
        rw [show u.decideAdm k (LEnt.script e) (LEnt.nous e) (LEnt.lateAbort e) (LEnt.deadline e) = (st, some b) from hdec]
        exact if_pos hfit
      · have hentry := State.launchEntry_bound (args := args) h hgood hdec hfit hd hinline (by rw [hsegs, hseg]) hroom hnew
        have hslots : (u.listed (u.inlineCtx k n e segs b)).slots = u.slots := by
          rw [State.within_listed u _]
          rfl
        exact ⟨_, u.inlineCtx k n e segs b, hexec.trans (congrArg _ hentry), u.ctxs_listed _, u.id_inlineCtx k n e segs b, rfl, rfl, rfl, rfl, rfl, rfl, rfl, rfl, rfl, hslots⟩
  · obtain ⟨hexec, hctx⟩ := State.exec_placeLaunch hserv hc hturn hsw hd
    obtain ⟨hcl, hbase, hfresh⟩ := s.shares_of_new c l
    have hframe := s.within_placeCtx c d l
    have hplaced : s.within State.placingIt (({ s with lastDie := d } : State).modCtx c.id (fun x => { x with st := .placed, die := d, cls := s.newShares c l })) := rfl
    refine ⟨_, _, hexec, hctx, rfl, rfl, hcl, hbase, hfresh, ?_, State.within_trans hplaced (State.within_mono hframe)⟩
    rw [hframe]
    rfl
  · intro u hst hcue hread hgood
    have hexec := State.exec_launchStarts hserv hc hst hcue hread hgood
    obtain ⟨c', hsays⟩ := State.launchStarts_says hc hread
    exact ⟨hexec, _, c', hexec, hsays⟩
  · intro hst
    refine exec_whenServing hserv rfl ?_
    simp only [hc]
    exact if_pos hst

end Sys2Proof.Machine

/-! Segments, understudy and deadline of a launch (R404, R405, R430, R431): what settles O49. -/

namespace Sys2Proof.Machine

namespace State

section
variable {s : State} {ctx : Nat} {c : Ctx} (hserv : s.serving = true) (hc : s.ctx? ctx = some c)
include hserv hc

/-- The next segment of a queue launch, in the order of its table. -/
theorem exec_segmentDelivered {bytes : Bytes} (hrun : c.st = .running) (hsw : c.swapped = false) (hcue : c.cue = none)
    {t : State}
    (ht : s.queueSegment c (((segEntries c.segTab).filter (fun b => !segReply b)).length - c.segs.length) bytes = t) :
    exec (.segmentDelivered ctx (((segEntries c.segTab).filter (fun b => !segReply b)).length - c.segs.length) bytes) s = .next t := by
  refine exec_whenServing hserv rfl ?_
  simp only [hc, hcue]
  refine (if_neg ?_).trans ht
  rw [hrun, hsw]
  simp

theorem exec_deadlineReached (habort : c.lateAbort = true) (hd : c.deadline ≠ 0) (hpast : c.deadline.toNat ≤ s.time.gtime.toNat) (hopen : c.status = none)
    (hend : c.st ≠ .ended) : exec (.deadlineReached ctx) s = .next ((s.modCtx ctx (fun c => { c with expired := true })).failCtx ctx ST_Q_DEADLINE) := by
  refine exec_whenServing hserv rfl ?_
  simp only [hc]
  refine if_neg ?_
  rw [habort, hopen, reached_of_le hpast]
  rintro (h | h | h | h | h)
  · exact Bool.noConfusion h
  · exact hd h
  · exact Bool.noConfusion h
  · exact Bool.noConfusion h
  · exact hend h

end

/-- A launch that has just expired is marked so, with its status, in every share of a cluster. -/
theorem ctx_expired {s : State} {ctx st : Nat} {c : Ctx} (hc : s.ctx? ctx = some c) (hopen : c.status = none) :
    (((s.modCtx ctx (fun c => { c with expired := true })).endLaunch ctx st).ctx? ctx).any
      (fun x => x.expired && x.st == .cancelling && x.status == some st && x.cls.all (·.cancelled)) = true := by
  have hmark : ((s.modCtx ctx (fun c => { c with expired := true })).dropWaits (· == .args ctx)).ctx? ctx = some { c with expired := true } :=
    (s.ctx_modCtx ctx (fun c => { c with expired := true }) fun _ => rfl).trans (by rw [hc]; rfl)
  rw [endLaunch, ctx_modCtx _ _ _ (fun c => by split <;> rfl), hmark]
  simp [hopen]

end State

/-- Settles O49: segments follow their table, an understudy gets none, and a deadline that has passed ends its launch. -/
theorem launchLife : Obligations.LaunchLife := by
  unfold Obligations.LaunchLife
  refine fun s ctx c hserv hc => ⟨fun seg bytes hno => ?_, ?_, fun d l u c1 hsw hturn hargs hc1 hfits => ?_, fun hsw => ?_,
    fun habort hd hpast hopen hend => ?_, fun hno => ?_⟩
  · refine exec_whenServing hserv rfl ?_
    simp only [hc]
    exact if_pos hno
  · intro g rest bytes u hrun hsw hcue hsegs hlen n seg hread
    refine ⟨fun v r hring hroom hput => ?_, fun r hring hroom => ?_⟩
    · refine State.exec_segmentDelivered hserv hc hrun hsw hcue ?_
      have hid : c.id = ctx := by simpa using List.find?_some hc
      unfold State.queueSegment
      simp only [hsegs, hread, hput, hid]
      refine if_neg ?_
      rw [hring]
      simp [hlen, hroom]
    · refine State.exec_segmentDelivered hserv hc hrun hsw hcue ?_
      unfold State.queueSegment
      simp only [hsegs]
      refine if_pos (.inr (.inr ?_))
      rw [hring]
      simp [hroom]
  · refine exec_whenServing hserv rfl ?_
    simp only [hc, hsw, hturn, hargs, hc1, hfits, Bool.not_true, Bool.false_eq_true, if_false]
  · refine exec_whenServing hserv rfl ?_
    simp only [hc, hsw, Bool.not_false, if_true]
  · exact ⟨_, State.exec_deadlineReached hserv hc habort hd hpast hopen hend, rfl, State.ctx_expired hc hopen⟩
  · refine exec_whenServing hserv rfl ?_
    simp only [hc]
    refine if_pos ?_
    rcases hno with hno | hno
    · exact .inl (by rw [hno]; rfl)
    · exact .inr (.inr (.inl (by rw [State.reached_of_lt hno]; rfl)))

end Sys2Proof.Machine

/-! Cue requests (R417 to R421, R442, R512, R513): what settles O50. -/

namespace Sys2Proof.Machine

theorem some_of_any {α : Type} {p : α → Bool} {o : Option α} (h : o.any p = true) : ∃ x, o = some x ∧ p x = true := by
  cases o with
  | none => exact Bool.noConfusion h
  | some x => exact ⟨x, rfl, h⟩

namespace State

/-! ## Bindings -/

/-- The bindings, and what an error of theirs records. -/
def binding' (s t : State) : State := { s with bindings := t.bindings, regs := t.regs, out := t.out }

theorem within_writeBinding (a : Access) (s : State) : s.within binding' (writeBinding a s) := by
  have hlatch (t : State) : t.within binding' (t.latch Reg.CFE_STATUS 3) := within_mono (t.within_latch _ 3)
  unfold writeBinding
  dsimp only
  split
  · split
    · exact hlatch s
    · split
      · rfl
      · exact within_trans (take := binding') (t := { s with bindings := _ }) rfl (hlatch _)
  · split
    · exact hlatch s
    · rfl

theorem barOpen_writeBinding (a : Access) (s : State) : (writeBinding a s).barOpen = s.barOpen := by
  rw [within_writeBinding a s]
  rfl

section
variable {s : State} {a : Access} (hopen : s.barOpen = true) (hon : onReg a Reg.CFE_CUE_BIND = true)
include hopen hon

theorem exec_cueBindWrite : exec (.cueBindWrite a) s = .next (byWords writeBinding a s) := by
  show execCueBindWrite a s = _
  simp only [execCueBindWrite, whenOn_on hopen hon]

theorem exec_cueBindWrite_word (hsize : a.size = 4) : exec (.cueBindWrite a) s = .next (writeBinding a s) := by
  rw [exec_cueBindWrite hopen hon, byWords, if_neg (by omega)]

theorem exec_cueBindWrite_halves (hsize : a.size = 8) : ∃ t, exec (.cueBindWrite ⟨a.bar, a.off, 4, a.value⟩) s = .next t
    ∧ exec (.cueBindWrite a) s = exec (.cueBindWrite ⟨a.bar, a.off + 4, 4, a.value >>> 32⟩) t := by
  have hoff : a.off % 8 = 0 := by
    obtain ⟨_, _, hmod, _⟩ := (onReg_iff _ _).mp hon
    rwa [hsize] at hmod
  have hbase : Reg.CFE_CUE_BIND % 8 = 0 := rfl
  have hlow : onReg ⟨a.bar, a.off, 4, a.value⟩ Reg.CFE_CUE_BIND = true := (onReg_word (d := 0) _ hsize hoff hbase (Or.inl rfl)).trans hon
  have hhigh : onReg ⟨a.bar, a.off + 4, 4, a.value >>> 32⟩ Reg.CFE_CUE_BIND = true := (onReg_word _ hsize hoff hbase (Or.inr rfl)).trans hon
  refine ⟨_, exec_cueBindWrite_word hopen hlow rfl, ?_⟩
  rw [exec_cueBindWrite hopen hon, exec_cueBindWrite_word ((barOpen_writeBinding _ s).trans hopen) hhigh rfl, byWords, if_pos hsize]

end

/-! ## Datagrams at a port -/

/-- A whole frame is one that the port takes: of at most 9,216 bytes, with its tag, in one piece, without options, for the port's own address. -/
def takesUdp (s : State) (p : Nat) (e : EthHdr) (v6 : Bool) : Prop :=
  e.len ≤ 9216 ∧ (match e.tag with
      | some vid => vid = s.regF (Reg.NP_CTL p) 11 0
      | none => s.regB (Reg.NP_CTL p) 29 = false)
    ∧ e.fragment = false ∧ e.options = false ∧ e.dstAddr = s.portAddr p v6

theorem takesUdp_iff (s : State) (p : Nat) (e : EthHdr) (v6 : Bool) :
    s.takesUdp p e v6 ↔ ¬(!s.frameOk p e.len e.tag ∨ e.fragment ∨ e.options ∨ e.dstAddr ≠ s.portAddr p v6) := by
  have hok := s.frameOk_iff p e.len e.tag
  unfold takesUdp
  simp only [not_or, Bool.not_eq_true', Bool.not_eq_false, Bool.not_eq_true, ne_eq, Classical.not_not]
  rw [← and_assoc]
  exact and_congr_left' hok.symm

section
variable {s : State} {p : Nat} {e : EthHdr} {v6 : Bool} (k : State → State) (hon : s.npOn p = true) (hexists : s.npExists p = true)
include hon hexists

theorem rxUdp_badFcs (hfcs : e.fcsOk = false) : s.rxUdp p e v6 k = s.count (Reg.NP_FCS_ERR p) 1 := by
  rw [rxUdp, if_neg (by simp [hon, hexists]), if_pos (by simp [hfcs])]

theorem rxUdp_notTaken (hfcs : e.fcsOk = true) (h : ¬s.takesUdp p e v6) : s.rxUdp p e v6 k = (s.rxFrame p).count (Reg.NP_RX_DROP p) 1 := by
  rw [takesUdp_iff, Classical.not_not] at h
  rw [rxUdp, if_neg (by simp [hon, hexists]), if_neg (by simp [hfcs])]
  exact if_pos h

theorem rxUdp_taken (hfcs : e.fcsOk = true) (h : s.takesUdp p e v6) : s.rxUdp p e v6 k = k (s.rxFrame p) := by
  rw [takesUdp_iff] at h
  rw [rxUdp, if_neg (by simp [hon, hexists]), if_neg (by simp [hfcs]), if_neg h]

end

/-! ## A fragment of a request -/

section
variable {s : State} {f : CueFrame} (hudp : f.eth.udpOk = true) (hdst : f.dstPort = s.regF Reg.CFE_CTL 15 0)
include hudp hdst

/-- What a datagram for the Cue port does by its header and its service. -/
theorem cueFrameIn_forCue {t : State} (ht : (if !s.noteDirect.regB Reg.CFE_CTL 31 ∨ cueBad f.payload then s.noteDirect.dropCue
      else match s.noteDirect.bindingOn (CueHdr.service f.payload) with
        | none => s.noteDirect.dropCue
        | some bd => match s.noteDirect.ctxs.find? (·.serves f.srcAddr f.srcPort (CueHdr.msgid f.payload)) with
          | some c => match c.cue with
            | some m => (s.noteDirect.cueFragment c m f.payload).noteDirect
            | none => s.noteDirect
          | none => if s.noteDirect.cueNames.any (·.is f.srcAddr f.srcPort (CueHdr.msgid f.payload)) then s.noteDirect
            else (s.noteDirect.cueNew bd (cueMsgOf f s.time.gtime) f.payload).noteDirect) = t) : s.cueFrameIn f = t := by
  unfold cueFrameIn
  refine (if_neg ?_).trans ht
  rw [hudp, hdst]
  simp

theorem cueFrameIn_dropped (h : s.noteDirect.regB Reg.CFE_CTL 31 = false ∨ cueBad f.payload = true ∨ s.noteDirect.bindingOn (CueHdr.service f.payload) = none) :
    s.cueFrameIn f = s.noteDirect.dropCue := by
  refine cueFrameIn_forCue hudp hdst ?_
  by_cases hbad : (!s.noteDirect.regB Reg.CFE_CTL 31) = true ∨ cueBad f.payload = true
  · exact if_pos hbad
  · rw [if_neg hbad]
    rcases h with h | h | h
    · exact absurd (.inl (by rw [h]; rfl)) hbad
    · exact absurd (.inr h) hbad
    · rw [h]

end

/-- A slot that is not ON has its requests refused. -/
theorem cueNew_slotOff {s : State} {bd : Binding} (m : CueMsg) (b : Bytes) (hlost : s.pwr.lost = false)
    (hoff : (s.slots[bd.slot]?).any (fun q => q.st != .on) = true) : s.cueNew bd m b = s.refuseCue m ST_Q_SLOT_OFF := by
  obtain ⟨q, hq, hst⟩ := some_of_any hoff
  unfold cueNew
  refine (if_neg (by rw [hlost]; decide)).trans (if_pos ?_)
  rw [slot_of_getElem hq]
  simpa using hst

/-- The launch of a request that is admitted. -/
theorem cueNew_admitted {s : State} {bd : Binding} {m : CueMsg} {b : Bytes} {st : Nat} {x : Bound} (hlost : s.pwr.lost = false)
    (hslot : (s.slots[bd.slot]?).any (fun q => q.st == .on) = true) (hmax : s.belowMax bd.slot = true) (hfree : 0 < s.freeCtxs)
    (hdec : s.decideAdm bd.slot bd.script bd.nous bd.lateAbort m.deadline = (st, some x)) (hseg : cueSegStatus x.edition.image b = ST_OK) (htime : m.time = 0) :
    ∃ c, (s.cueNew bd m b).ctxs = s.ctxs ++ [c] ∧ c.cue = some (m.place b) ∧ c.slot = bd.slot ∧ c.script = bd.script ∧ c.st = .admitted ∧ c.versions = x.versions := by
  obtain ⟨q, hq, hst⟩ := some_of_any hslot
  generalize hc : newCtx s.freeId bd.slot 0 0 bd.script x s.time.gtime m.deadline bd.scope bd.nous bd.lateAbort [] [] (some (m.place b)) = c
  let u : State := ({ s with cueNames := s.cueNames ++ [⟨m.src, m.srcPort, m.msgid, none⟩] } : State).count Reg.CFE_CUE_REQS 1
  have hid : c.id = s.freeId := by
    rw [← hc]
    simp only [newCtx]
  have hnew : u.ctx? c.id = none := by
    rw [hid]
    exact freeId_unused hfree
  have hdead : c.deadline = 0 := by
    rw [← hc]
    exact if_pos htime
  have hcue : s.cueNew bd m b = u.addCtx c := by
    unfold cueNew
    refine (if_neg (by rw [hlost]; decide)).trans ((if_neg ?_).trans ((if_neg ?_).trans ?_))
    · rw [slot_of_getElem hq]
      simpa using hst
    · rw [hmax]
      simp only [Bool.not_true, Bool.false_eq_true, false_or]
      exact Nat.ne_of_gt hfree
    · rw [hdec]
      refine (if_neg (Classical.not_not.mpr hseg)).trans ?_
      exact congrArg u.addCtx hc
  refine ⟨c, ?_, ?_⟩
  · rw [hcue, addCtx_quiet hnew hdead]
    exact u.ctxs_listed c
  · subst hc
    exact ⟨rfl, rfl, rfl, rfl, rfl⟩

/-! ## Replies -/

theorem within_sendReply (s : State) (m : CueMsg) (status : Nat) (finish : Word) (slip fate : Nat) (reply : Bytes) :
    s.within events (s.sendReply m status finish slip fate reply) := by
  refine within_foldl (take := events) _ ?_ _ s
  intro s i
  rfl

/-- A reply that goes out: the reads of its scope, and the count of a launch that failed before it ran. -/
def replying (s : State) (c : Ctx) : State :=
  let s1 := s.scopeRead c.scope (s.qPort c.slot) c.wrote
  if c.status.getD ST_OK ≠ ST_OK ∧ !c.started then s1.count Reg.CFE_CUE_REFUSED 1 else s1

theorem scopeRead_emits (s : State) (scope port : Nat) (w : Wrote) : s.scopeRead scope port w = { s with out := (s.scopeRead scope port w).out } := by
  unfold scopeRead
  split
  · split <;> rfl
  · rfl

theorem replying_says (s : State) (c : Ctx) : s.within events (s.replying c) ∧ (s.replying c).out = (s.scopeRead c.scope (s.qPort c.slot) c.wrote).out := by
  have hread : s.within events (s.scopeRead c.scope (s.qPort c.slot) c.wrote) := by
    unfold within
    rw [scopeRead_emits]
    rfl
  unfold replying
  dsimp only
  split
  · exact ⟨within_trans hread rfl, rfl⟩
  · exact ⟨hread, rfl⟩

/-- The reply has been sent, and the name of its message has a time to go. -/
def replied (s : State) (c : Ctx) (m : CueMsg) : State :=
  let t := (s.replying c).sendReply m (c.status.getD ST_OK) c.finish c.slip c.fate (if c.status.getD ST_OK = ST_OK then c.reply else [])
  { t with cueNames := t.cueNames.map (fun n => if n.is m.src m.srcPort m.msgid then { n with until_ := some (s.time.gtime + BitVec.ofNat 64 s.reasm) } else n) }

theorem names_replied (s : State) (c : Ctx) (m : CueMsg) : ∀ x ∈ (s.replied c m).cueNames, x.is m.src m.srcPort m.msgid = true → x.until_.isSome = true := by
  intro x hx his
  obtain ⟨n, -, rfl⟩ := List.mem_map.mp hx
  by_cases hn : n.is m.src m.srcPort m.msgid = true
  · rw [if_pos hn]
    rfl
  · rw [if_neg hn] at his
    exact absurd his hn

theorem time_replied (s : State) (c : Ctx) (m : CueMsg) : (s.replied c m).time = s.time := by
  have hsent := within_trans (s.replying_says c).1
    (within_sendReply (s.replying c) m (c.status.getD ST_OK) c.finish c.slip c.fate (if c.status.getD ST_OK = ST_OK then c.reply else []))
  show ((s.replying c).sendReply ..).time = _
  rw [hsent]
  rfl

theorem exec_cueReply {s : State} {ctx : Nat} {c : Ctx} {m : CueMsg} (hopen : s.barOpen = true) (hc : s.ctx? ctx = some c) (hm : c.cue = some m)
    (hend : c.st = .ended) : exec (.cueReply ctx) s = .next (if !s.scopeClear c.scope c.wrote then s.scopeSnoop c.wrote else (s.replied c m).releaseCtx ctx) := by
  refine exec_whenOpen hopen rfl ?_
  simp only [hc, hm]
  exact if_neg (Classical.not_not.mpr hend)

end State

/-- Settles O50: a write of 64 bits is its two words; a datagram passes the port's filter, then the checks of its header, its service and its name; the
names of a message that has had its reply have a time to go. -/
theorem cueMessages : Obligations.CueMessages := by
  unfold Obligations.CueMessages
  refine ⟨fun s a hopen hon hsize => State.exec_cueBindWrite_halves hopen hon hsize, fun s a hopen hon hsize hlen => ?_, fun s f hopen hon hexists => ?_,
    fun s bd m b st x hlost hslot hmax hfree hdec hseg htime => State.cueNew_admitted hlost hslot hmax hfree hdec hseg htime,
    fun s ctx c m hserv hc hm => ⟨?_, fun hne => ?_, fun hend hscope => ?_, fun hend hscope => ?_⟩, fun s src srcPort msgid hserv => ?_⟩
  · intro i old new taken
    have hexec := State.exec_cueBindWrite_word hopen hon hsize
    have hi : i < s.bindings.length := by
      rw [hlen]
      exact Nat.mod_lt _ (by decide)
    have hput (b : Binding) : (listMod s.bindings i (fun _ => b))[i]? = some b := by
      rw [listMod, List.getElem?_modify_eq, List.getElem?_eq_getElem hi]
      rfl
    refine ⟨fun hval hslot hsame => ?_, fun hval hslot hother => ?_, fun hval hslot htaken => ?_, fun hbad => ?_⟩
    · refine ⟨_, hexec.trans (congrArg _ ((if_pos hval).trans ((if_neg (Nat.not_lt.mpr hslot)).trans (if_pos hsame)))), rfl, hput new⟩
    · refine ⟨_, hexec.trans (congrArg _ ((if_pos hval).trans ((if_neg (Nat.not_lt.mpr hslot)).trans (if_neg hother)))), rfl, hput _⟩
    · refine ⟨_, hexec.trans (congrArg _ ((if_neg (ne_true_of_eq_false hval)).trans (if_neg ?_))), rfl, hput new, fun j hj => List.getElem?_modify_ne _ _ hj.symm⟩
      rintro (hover | hboth)
      · exact Nat.not_lt.mpr hslot hover
      · exact ne_true_of_eq_false htaken (Bool.and_eq_true_iff.mpr hboth)
    · rw [hexec]
      refine congrArg Host.Outcome.next ?_
      rcases hbad with hover | ⟨hval, htaken⟩
      · by_cases hval : old.valid = true
        · exact (if_pos hval).trans (if_pos hover)
        · exact (if_neg hval).trans (if_pos (.inl hover))
      · exact (if_neg (ne_true_of_eq_false hval)).trans (if_pos (.inr (Bool.and_eq_true_iff.mp htaken)))
  · intro b v r tagged taken
    have hexec (t : State) (ht : s.rxUdp f.port f.eth f.v6 (·.cueFrameIn f) = t) : exec (.cueRequest f) s = .next t := exec_whenOpen hopen rfl ht
    refine ⟨fun hfcs => hexec _ (State.rxUdp_badFcs _ hon hexists hfcs), fun hfcs hno => ?_, fun hfcs htaken hudp hdst => ?_⟩
    · by_cases htaken : s.takesUdp f.port f.eth f.v6
      · refine hexec _ ((State.rxUdp_taken _ hon hexists hfcs htaken).trans (if_pos ?_))
        rcases hno with hno | hno | hno
        · exact absurd htaken hno
        · exact .inl (by rw [hno]; rfl)
        · exact .inr hno
      · exact hexec _ (State.rxUdp_notTaken _ hon hexists hfcs htaken)
    · have hin (t : State) (ht : v.cueFrameIn f = t) : exec (.cueRequest f) s = .next t := hexec t ((State.rxUdp_taken _ hon hexists hfcs htaken).trans ht)
      refine ⟨fun hdrop => hin _ (State.cueFrameIn_dropped hudp hdst hdrop), fun bd hcue hgood hbd => ?_⟩
      have hgo : ¬((!v.noteDirect.regB Reg.CFE_CTL 31) = true ∨ cueBad f.payload = true) := by
        rw [show v.noteDirect.regB Reg.CFE_CTL 31 = true from hcue, show cueBad f.payload = false from hgood]
        decide
      have hbd' : v.noteDirect.bindingOn (CueHdr.service f.payload) = some bd := hbd
      refine ⟨fun c m hserves hm => hin _ (State.cueFrameIn_forCue hudp hdst ((if_neg hgo).trans ?_)),
        fun hnone hname => hin _ (State.cueFrameIn_forCue hudp hdst ((if_neg hgo).trans ?_)),
        fun hnone hname hslot hlost => hin _ (State.cueFrameIn_forCue hudp hdst ((if_neg hgo).trans ?_))⟩
      · rw [hbd']
        simp only [show v.noteDirect.ctxs.find? (·.serves f.srcAddr f.srcPort (CueHdr.msgid f.payload)) = some c from hserves, hm]
        rfl
      · rw [hbd']
        simp only [show v.noteDirect.ctxs.find? (·.serves f.srcAddr f.srcPort (CueHdr.msgid f.payload)) = none from hnone]
        exact if_pos hname
      · rw [hbd']
        simp only [show v.noteDirect.ctxs.find? (·.serves f.srcAddr f.srcPort (CueHdr.msgid f.payload)) = none from hnone]
        refine (if_neg (ne_true_of_eq_false hname)).trans ?_
        exact congrArg State.noteDirect (State.cueNew_slotOff _ _ hlost hslot)
  · refine exec_whenServing hserv rfl ?_
    simp only [hc, Option.bind_some, hm, State.reached, decide_eq_true_eq]
    rfl
  · refine exec_whenOpen (State.barOpen_of_serving hserv) rfl ?_
    simp only [hc, hm]
    exact if_pos hne
  · exact (State.exec_cueReply (State.barOpen_of_serving hserv) hc hm hend).trans (congrArg _ (if_pos (by rw [hscope]; rfl)))
  · have hexec := (State.exec_cueReply (State.barOpen_of_serving hserv) hc hm hend).trans (congrArg _ (if_neg (by rw [hscope]; decide)))
    obtain ⟨hframe, hout⟩ := s.replying_says c
    exact ⟨s.replying c, s.replied c m, hexec, s.time_replied c m, hframe, hout, rfl, s.names_replied c m⟩
  · refine ⟨_, exec_whenServing hserv rfl rfl, rfl, fun x => ?_⟩
    show x ∈ List.filter _ _ ↔ _
    rw [List.mem_filter, Bool.not_eq_true', ← Bool.not_eq_true, Bool.and_eq_true]
    rfl

end Sys2Proof.Machine

/-! The mailbox (R538, R539, R545, R548 to R550, R554, R555, R562): what settles O57. -/

namespace Sys2Proof.Machine

/-! ## Bytes in words -/

theorem leNat_lt (b : Bytes) : leNat b < 256 ^ b.length := by
  induction b with
  | nil => exact Nat.one_pos
  | cons x t ih =>
    have hx : x.toNat < 256 := x.isLt
    rw [leNat, List.length_cons, Nat.pow_succ]
    omega

/-- The bytes of a number read little-endian from fewer bytes are those bytes, then zeros. -/
theorem natLE_leNat (n : Nat) {b : Bytes} (h : b.length ≤ n) : natLE n (leNat b) = b ++ List.replicate (n - b.length) 0 := by
  induction n generalizing b with
  | zero =>
    obtain rfl := List.length_eq_zero_iff.mp (Nat.le_zero.mp h)
    rfl
  | succ n ih =>
    cases b with
    | nil =>
      have hzero := ih (b := []) (Nat.zero_le _)
      rw [List.nil_append, List.length_nil, Nat.sub_zero] at hzero ⊢
      rw [leNat, natLE, Nat.zero_div, List.replicate_succ]
      exact congrArg _ hzero
    | cons x t =>
      rw [List.length_cons, Nat.succ_le_succ_iff] at h
      have hx : x.toNat < 256 := x.isLt
      have hhead : BitVec.ofNat 8 (x.toNat + 256 * leNat t) = x := by
        apply BitVec.eq_of_toNat_eq
        rw [BitVec.toNat_ofNat]
        omega
      have htail : (x.toNat + 256 * leNat t) / 256 = leNat t := by omega
      rw [leNat, natLE, hhead, htail, ih h, List.length_cons, Nat.succ_sub_succ]
      rfl

/-- The word of bytes 4i to 4i + 3. -/
def wordAt (out : Bytes) (i : Nat) : Nat := leNat ((out.drop (4 * i)).take 4)

/-- Bytes read word by word are themselves, but for what fills the last word. -/
theorem take_words (k : Nat) {out : Bytes} (h : out.length ≤ 4 * k) :
    ((List.range k).flatMap (fun i => natLE 4 (wordAt out i))).take out.length = out := by
  induction k generalizing out with
  | zero =>
    obtain rfl := List.length_eq_zero_iff.mp (Nat.le_zero.mp h)
    rfl
  | succ k ih =>
    have hlen : (out.take 4).length ≤ 4 := by
      rw [List.length_take]
      omega
    have hfirst : natLE 4 (wordAt out 0) = out.take 4 ++ List.replicate (4 - (out.take 4).length) 0 := natLE_leNat 4 hlen
    have hnext (i : Nat) : wordAt out (i + 1) = wordAt (out.drop 4) i := by
      rw [wordAt, wordAt, List.drop_drop]
      congr 3
      omega
    rw [List.range_succ_eq_map, List.flatMap_cons, List.flatMap_map, hfirst]
    simp only [hnext]
    have hrest := ih (out := out.drop 4) (by rw [List.length_drop]; omega)
    rcases Nat.lt_or_ge out.length 4 with hshort | hlong
    · have htake : out.take 4 = out := List.take_of_length_le (Nat.le_of_lt hshort)
      rw [htake, List.append_assoc, List.take_append_of_le_length (Nat.le_refl _), List.take_length]
    · have hfull : (out.take 4).length = 4 := by
        rw [List.length_take]
        omega
      rw [hfull, Nat.sub_self, List.replicate_zero, List.append_nil, List.take_append, List.take_of_length_le (by omega), hfull, ← List.length_drop, hrest,
        List.take_append_drop]

namespace State

/-! ## The mailbox's registers -/

theorem mbData_inj {i j : Nat} (h : Reg.MSS_MB_DATA i = Reg.MSS_MB_DATA j) : i = j := by
  simp only [Reg.MSS_MB_DATA] at h
  omega

theorem Sound.mbFill {s : State} (h : s.Sound) (i n : Nat) (b : Bytes) : (State.mbFill s i n b).Sound := by
  induction n generalizing s i b with
  | zero => exact h
  | succ n ih =>
    rw [State.mbFill]
    split
    · exact ih h _ _
    · exact ih h.setRegN _ _

/-- The words before the first one that is filled stay as they are. -/
theorem reg_mbFill_below (s : State) {i j : Nat} (n : Nat) (b : Bytes) (h : j < i) : (mbFill s i n b).reg (Reg.MSS_MB_DATA j) = s.reg (Reg.MSS_MB_DATA j) := by
  induction n generalizing s i b with
  | zero => rfl
  | succ n ih =>
    rw [mbFill, ih _ _ (by omega)]
    split
    · rfl
    · exact reg_setRegN_ne _ _ _ _ fun heq => absurd (mbData_inj heq) (by omega)

/-- A word that is filled holds its bytes. -/
theorem regN_mbFill {s : State} (hs : s.Sound) {i j n : Nat} {b : Bytes} (hj : j < n) (hb : 4 * j < b.length) :
    (mbFill s i n b).regN (Reg.MSS_MB_DATA (i + j)) = wordAt b j := by
  induction n generalizing s i j b with
  | zero => exact absurd hj (Nat.not_lt_zero _)
  | succ n ih =>
    have hsome : b.isEmpty = false := by
      cases b with
      | nil => exact absurd hb (Nat.not_lt_zero _)
      | cons x t => rfl
    rw [mbFill, hsome]
    simp only [Bool.false_eq_true, if_false]
    cases j with
    | zero =>
      have hword : wordAt b 0 < 2 ^ 64 := by
        have hlt := leNat_lt (b.take 4)
        have hlen : 256 ^ (b.take 4).length ≤ 256 ^ 4 := Nat.pow_le_pow_right (by decide) (by rw [List.length_take]; omega)
        exact Nat.lt_of_lt_of_le hlt (Nat.le_trans hlen (by decide))
      change (State.reg _ (Reg.MSS_MB_DATA i)).toNat = _
      rw [reg_mbFill_below _ n _ (Nat.lt_succ_self i), reg_setRegN _ _ _ hs.mem, BitVec.toNat_ofNat]
      exact Nat.mod_eq_of_lt hword
    | succ j =>
      have hnext : wordAt (b.drop 4) j = wordAt b (j + 1) := by
        rw [wordAt, wordAt, List.drop_drop]
        congr 3
        omega
      rw [← hnext, show i + (j + 1) = i + 1 + j by omega]
      exact ih hs.setRegN (by omega) (by rw [List.length_drop]; omega)

/-- The state of a mailbox command's end before MB_DONE is set, with n words of output. -/
def mbFilled (w : State) (n st : Nat) (out : Bytes) : State :=
  let s1 := (w.mbFill 0 n out).setRegN Reg.MSS_MB_STAT (st * 2 ^ 16 + out.length)
  { s1 with mgmt := { s1.mgmt with mbBusy := false } }

theorem Sound.mbFilled {w : State} (h : w.Sound) (n st : Nat) (out : Bytes) : (w.mbFilled n st out).Sound := (h.mbFill 0 n out).setRegN

theorem mbEnd_eq (w : State) (st : Nat) (out : Bytes) : w.mbEnd st out = (w.mbFilled 1024 st out).latch Reg.RAS_STATUS 7 := by
  unfold mbEnd mbFilled
  rfl

theorem mbStat_mbFilled {w : State} (hw : w.Sound) (n st : Nat) (out : Bytes) :
    (w.mbFilled n st out).reg Reg.MSS_MB_STAT = BitVec.ofNat 64 (st * 2 ^ 16 + out.length) := reg_setRegN _ _ _ (hw.mbFill 0 n out).mem

theorem mbData_mbFilled (w : State) (n st : Nat) (out : Bytes) (i : Nat) :
    (w.mbFilled n st out).reg (Reg.MSS_MB_DATA i) = (w.mbFill 0 n out).reg (Reg.MSS_MB_DATA i) :=
  reg_setRegN_ne _ _ _ _ (by simp only [Reg.MSS_MB_DATA, Reg.MSS_MB_STAT]; omega)

theorem ceilDiv_four (n : Nat) : ceilDiv n 4 = (n + 3) / 4 := rfl

/-- The output of a mailbox command is read as it was written. -/
theorem mbRead_filled {w t : State} {n st : Nat} {out : Bytes} (hw : w.Sound) (hn : n ≤ 1024) (hout : out.length ≤ 4 * n)
    (ht : (w.mbFilled n st out).regsBut t [Reg.RAS_STATUS, Reg.MSIX_PBA]) : t.mbRead out.length = out := by
  have hword (i : Nat) (hi : i < ceilDiv out.length 4) : t.regN (Reg.MSS_MB_DATA i) = wordAt out i := by
    rw [ceilDiv_four] at hi
    have hfill := regN_mbFill hw (i := 0) (n := n) (j := i) (b := out) (by omega) (by omega)
    rw [Nat.zero_add] at hfill
    rw [regN, ht _ (by simp only [Reg.MSS_MB_DATA, Reg.RAS_STATUS, Reg.MSIX_PBA, List.mem_cons, List.not_mem_nil, or_false]; omega), mbData_mbFilled]
    exact hfill
  have hsame : (List.range (ceilDiv out.length 4)).flatMap (fun i => natLE 4 (t.regN (Reg.MSS_MB_DATA i)))
      = (List.range (ceilDiv out.length 4)).flatMap (fun i => natLE 4 (wordAt out i)) :=
    flatMapCongr fun i hi => by rw [hword i (List.mem_range.mp hi)]
  rw [mbRead, hsame]
  exact take_words _ (by rw [ceilDiv_four]; omega)

/-- A mailbox command that ends leaves its status and its output where they are read. -/
theorem mbEnd_says {w : State} {st : Nat} {out : Bytes} (hw : w.Sound) (hst : st < 2 ^ 16) (hout : out.length ≤ 4096) :
    (w.mbEnd st out).mgmt.mbBusy = false ∧ (w.mbEnd st out).regN Reg.MSS_MB_STAT = st * 2 ^ 16 + out.length
      ∧ (w.mbEnd st out).regB Reg.RAS_STATUS 7 = true ∧ (w.mbEnd st out).mbRead out.length = out := by
  have hu := hw.mbFilled 1024 st out
  have hidle : (w.mbFilled 1024 st out).mgmt.mbBusy = false := rfl
  have hstat := mbStat_mbFilled hw 1024 st out
  have hread {t : State} := mbRead_filled (t := t) (n := 1024) (st := st) hw (Nat.le_refl _) hout
  rw [mbEnd_eq]
  generalize w.mbFilled 1024 st out = u at hu hidle hstat hread
  have hbut := (u.latch_but Reg.RAS_STATUS 7).1
  refine ⟨?_, ?_, regB_latch hu.mem (by decide) (by decide), hread hbut⟩
  · rw [latch_frame]
    exact hidle
  · rw [regN, hbut _ (by decide), hstat, BitVec.toNat_ofNat]
    omega

/-! ## A command that starts -/

theorem mbRun_busy {s : State} (h : s.mgmt.mbBusy = true) (op : Nat) (v : BitVec 32) (f : Bytes → State → State) : s.mbRun op v f = s :=
  if_pos (.inr (.inl h))

theorem mbRun_go {s : State} {v : BitVec 32} {op : Nat} (hopen : s.barOpen = true) (hgo : v.getLsbD 31 = true) (hlen : fld v.toNat 12 0 ≤ 4096)
    (hidle : s.mgmt.mbBusy = false) (hop : fld v.toNat 23 16 = op) (f : Bytes → State → State) :
    s.mbRun op v f = f ((s.mbFields v.toNat).mbRead (fld v.toNat 12 0)) (s.mbFields v.toNat) := by
  refine (if_neg ?_).trans (if_neg (Nat.not_lt.mpr hlen))
  rw [hopen, hidle, hgo, hop]
  simp

end State

/-- Settles O57: a command starts only when none runs, with its fields taken; its end sets MB_DONE last, so its status and its words stand. -/
theorem mailboxCommands : Obligations.MailboxCommands := by
  unfold Obligations.MailboxCommands
  intro s v hopen hgo hlen op u inp bad
  refine ⟨fun hbusy b ecc c hc => ?_, fun hidle => ?_, fun w st out hw hst hout => State.mbEnd_says hw hst hout⟩
  · have hrun := State.mbRun_busy hbusy
    simp only [List.mem_cons, List.not_mem_nil, or_false] at hc
    rcases hc with rfl | rfl | rfl | rfl | rfl | rfl | rfl <;> exact congrArg Host.Outcome.next (hrun _ _ _)
  · have hrun {n : Nat} (hop : op = n) (f : Bytes → State → State) : s.mbRun n v f = f inp u := State.mbRun_go hopen hgo hlen hidle hop f
    have hgoes {c : Instr} {n : Nat} {f : Bytes → State → State} {t : State} (hc : exec c s = .next (s.mbRun n v f)) (hop : op = n) (ht : f inp u = t) :
        exec c s = .next t := by
      rw [hc, hrun hop, ht]
    refine ⟨fun hop => ⟨?_, ?_, ?_⟩, fun hop => ?_, fun readBack hop => ?_, fun hop => ⟨fun w hw => ?_, fun st w hst hw => ?_⟩, fun hop => ?_, fun hop hinp => ?_,
      fun passed hop hinp => ?_⟩
    · split
      · next hbad => exact hgoes (c := .logRead ⟨v, .good⟩) rfl hop ((if_neg Bool.false_ne_true).trans (if_pos hbad))
      · next hgood => exact hgoes (c := .logRead ⟨v, .good⟩) rfl hop ((if_neg Bool.false_ne_true).trans (if_neg hgood))
    · have hlog : u.sramCorrected.ras.log = s.ras.log := congrArg RasSt.log (State.ras_latch _ _ _)
      refine hgoes (c := .logRead ⟨v, .corrected⟩) rfl hop ((if_neg Bool.false_ne_true).trans ?_)
      rw [← hlog]
    · exact hgoes (c := .logRead ⟨v, .uncorrectable⟩) rfl hop (if_pos rfl)
    · split
      · next hbad => exact hgoes (c := .sensorRead v) rfl hop (if_pos hbad)
      · next hgood => exact hgoes (c := .sensorRead v) rfl hop (if_neg hgood)
    · intro id o
      refine ⟨fun hbad => hgoes (c := .otpWrite v readBack) rfl hop (if_pos hbad), fun hid hwidth hinp hroom hgen => ?_, fun hid hinp => ?_⟩
      · refine hgoes (c := .otpWrite v readBack) rfl hop ((if_neg ?_).trans ((if_neg hid).trans ((if_neg (Nat.not_le.mpr hroom)).trans (if_neg (Classical.not_not.mpr hgen)))))
        exact not_or.mpr ⟨hwidth, Classical.not_not.mpr hinp⟩
      · refine hgoes (c := .otpWrite v readBack) rfl hop ((if_neg ?_).trans (if_pos hid))
        rw [show rd inp 0 1 = 0 from hid, hinp]
        decide
    · refine hgoes (c := .dump v) rfl hop ?_
      rw [hw]
      rfl
    · obtain ⟨n, rfl⟩ := Nat.exists_eq_succ_of_ne_zero hst
      refine hgoes (c := .dump v) rfl hop ?_
      rw [hw]
      rfl
    · exact hgoes (c := .shutdown v) rfl hop rfl
    · intro w st
      have hlen2 : ¬inp.length ≠ 2 := Classical.not_not.mpr hinp
      split
      · next hout => exact hgoes (c := .mbFence v) rfl hop ((if_neg hlen2).trans (if_pos (by rw [hout]; rfl)))
      · next hin =>
        have hscored : ¬(!scored (leNat inp)) = true := by
          rw [Bool.not_eq_true', ← Bool.not_eq_true]
          simpa using hin
        split
        · next hfit => exact hgoes (c := .mbFence v) rfl hop ((if_neg hlen2).trans ((if_neg hscored).trans (if_pos hfit)))
        · next hunfit => exact hgoes (c := .mbFence v) rfl hop ((if_neg hlen2).trans ((if_neg hscored).trans (if_neg hunfit)))
    · refine hgoes (c := .selftest v passed) rfl hop ((if_neg (Classical.not_not.mpr hinp)).trans ?_)
      cases scored (leNat inp) <;> rfl

end Sys2Proof.Machine

/-! MCTP, PLDM and SPDM commands (R545, R547, R548, R550 to R553): what settles O58. -/

namespace Sys2Proof.Machine

theorem mem_insertNew {α : Type} [BEq α] [LawfulBEq α] (x : α) (l : List α) : x ∈ insertNew x l := by
  unfold insertNew
  split
  · next h => exact List.contains_iff_mem.mp h
  · exact List.mem_append_right _ (List.mem_singleton_self x)

namespace State

/-! ## Bindings -/

theorem onMctp_off {s : State} {pcie : Bool} (h : s.mctpOn pcie = false) (f : State → State) : s.onMctp pcie f = s := by
  unfold onMctp
  rw [h]
  rfl

theorem onUpdate_off {s : State} {pcie : Bool} (h : s.mctpOn pcie = false) (f : State → State) : s.onUpdate pcie f = s := by
  unfold onUpdate
  rw [h]
  rfl

theorem onMctp_on {s : State} {pcie : Bool} (h : s.mctpOn pcie = true) (hstage : s.pwr.stage ≠ .recovery) (f : State → State) : s.onMctp pcie f = f s := by
  unfold onMctp
  rw [h]
  exact if_pos (by simp [hstage])

theorem onUpdate_on {s : State} {pcie : Bool} (h : s.mctpOn pcie = true) (f : State → State) : s.onUpdate pcie f = f s := by
  unfold onUpdate
  rw [h]
  rfl

/-! ## The verification of an image -/

theorem fwVerify_bad {s : State} {c : Nat} {img : Bytes} (h : s.fwCheck c img ≠ ST_OK) :
    s.fwVerify c img = { s with mgmt := { s.mgmt.putBank c (!s.bankB c) img with fw := some ⟨none, [], true⟩, fwStatus := s.fwCheck c img } } := if_pos h

theorem fwVerify_ok {s : State} {c : Nat} {img : Bytes} (h : s.fwCheck c img = ST_OK) (hstage : s.pwr.stage ≠ .recovery) :
    s.fwVerify c img = ({ s with mgmt := { s.mgmt.putBank c (!s.bankB c) img with
      fw := some ⟨none, [], true⟩, fwStatus := s.fwCheck c img, pending := insertNew c s.mgmt.pending } } : State).latch Reg.RAS_STATUS 9 :=
  (if_neg (Classical.not_not.mpr h)).trans (if_neg hstage)

theorem mgmt_latch (s : State) (a k : Nat) : (s.latch a k).mgmt = s.mgmt := by rw [latch_frame]

/-- The banks after the verification of an image. -/
theorem banks_fwVerify (s : State) (c : Nat) (img : Bytes) : (s.fwVerify c img).mgmt.banks = (s.mgmt.putBank c (!s.bankB c) img).banks := by
  unfold fwVerify
  dsimp only
  split
  · rfl
  · split
    · rfl
    · rw [mgmt_latch]

theorem bank_fwVerify (s : State) (c : Nat) (img : Bytes) : (s.fwVerify c img).bank c (!s.bankB c) = img := by
  unfold bank
  rw [banks_fwVerify, MgmtSt.putBank, List.find?_cons_of_pos (by simp)]
  rfl

/-! ## MCTP control -/

/-- The field of MSS_MCTP that holds the endpoint ID of a binding. -/
theorem eid_putFld {s : State} (h : s.Sound) (hi lo eid : Nat) (hw : hi = lo + 7) (hhi : hi < 64) (heid : eid < 256) :
    (s.setRegN Reg.MSS_MCTP (putFld (s.regN Reg.MSS_MCTP) hi lo eid)).regF Reg.MSS_MCTP hi lo = eid := by
  rw [regF, regN, reg_setRegN _ _ _ h.mem, BitVec.toNat_ofNat, fld_mod_two_pow _ _ _ _ hhi, fld_putFld_same _ _ _ _ (by omega), hw,
    show lo + 7 + 1 - lo = 8 by omega]
  exact Nat.mod_eq_of_lt heid

/-- The state that a control message is answered from. -/
def eidTaken (s : State) (pcie : Bool) (code eid : Nat) : State :=
  let m := s.regN Reg.MSS_MCTP
  if code = 1 then s.setRegN Reg.MSS_MCTP (if pcie then putFld m 7 0 eid else putFld m 15 8 eid) else s

theorem eidTaken_says (s : State) (pcie : Bool) (code eid : Nat) : s.eidTaken pcie code eid = { s with regs := (s.eidTaken pcie code eid).regs }
    ∧ (code ≠ 1 → (s.eidTaken pcie code eid).regs = s.regs)
    ∧ (s.Sound → code = 1 → eid < 256 → (s.eidTaken pcie code eid).regF Reg.MSS_MCTP (if pcie then 7 else 15) (if pcie then 0 else 8) = eid) := by
  unfold eidTaken
  refine ⟨?_, fun hne => ?_, fun hs hcode heid => ?_⟩
  · dsimp only
    split <;> rfl
  · rw [if_neg hne]
  · rw [if_pos hcode]
    cases pcie
    · exact eid_putFld hs 15 8 eid rfl (by decide) heid
    · exact eid_putFld hs 7 0 eid rfl (by decide) heid

end State

/-- Settles O58: a binding that is off answers nothing; on one that is on each command does and says what the statement has of it. -/
theorem managementMessages : Obligations.ManagementMessages := by
  unfold Obligations.ManagementMessages
  refine fun s pcie => ⟨fun n sens bytes last nonce b c hoff i hi => ?_, fun addr => rfl, fun hon => ?_⟩
  · have hmctp := State.onMctp_off hoff
    have hupdate := State.onUpdate_off hoff
    simp only [List.mem_cons, List.not_mem_nil, or_false] at hi
    rcases hi with rfl | rfl | rfl | rfl | rfl | rfl | rfl | rfl | rfl | rfl | rfl | rfl | rfl | rfl | rfl | rfl | rfl
    iterate 5 exact congrArg Host.Outcome.next (hmctp _)
    iterate 5 exact congrArg Host.Outcome.next (hupdate _)
    iterate 7 exact congrArg Host.Outcome.next (hmctp _)
  · have hupdate := State.onUpdate_on hon
    have hfirm {i : Instr} {f : State → State} {t : State} (hi : exec i s = .next (s.onUpdate pcie f)) (ht : f s = t) : exec i s = .next t := by
      rw [hi, hupdate, ht]
    intro say withFw
    refine ⟨fun hfw => hfirm rfl ?_, fun f hf => ⟨hfirm rfl ?_, fun c hlo hhi => hfirm rfl ?_, fun c hlo hhi htab => hfirm rfl ?_, fun c b hcomp => hfirm rfl ?_,
      fun c b hcomp => hfirm rfl ?_⟩, hfirm rfl rfl, fun c img => ⟨fun hbad => ?_, fun hok hstage => ?_, s.bank_fwVerify c img⟩, fun hstage => ?_⟩
    · simp only [hfw]
      rfl
    · simp only [hf]
      rfl
    · simp only [hf]
      exact if_pos ⟨hlo, hhi⟩
    · simp only [hf]
      exact if_pos ⟨htab, hlo, hhi⟩
    · obtain ⟨comp, got, tab⟩ := f
      obtain rfl : comp = some c := hcomp
      simp only [hf]
      rfl
    · obtain ⟨comp, got, tab⟩ := f
      obtain rfl : comp = some c := hcomp
      simp only [hf]
      rfl
    · rw [State.fwVerify_bad hbad]
      exact ⟨rfl, rfl⟩
    · rw [State.fwVerify_ok hok hstage, State.mgmt_latch]
      exact ⟨mem_insertNew c _, rfl⟩
    · have hmctp {i : Instr} {f : State → State} {t : State} (hi : exec i s = .next (s.onMctp pcie f)) (ht : f s = t) : exec i s = .next t := by
        rw [hi, State.onMctp_on hon hstage, ht]
      refine ⟨fun code eid => ?_, fun eid => hmctp rfl rfl, fun i hi => hmctp rfl (if_pos hi), hmctp rfl rfl, fun hwarm hflr => hmctp rfl ?_, hmctp rfl rfl, hmctp rfl rfl,
        fun b c => ⟨_, hmctp rfl rfl, rfl, fun hlen => ?_⟩, hmctp rfl rfl, fun slot off len => hmctp rfl ?_, fun nonce => hmctp rfl ?_, fun i nonce hneg hlo hhi => hmctp rfl ?_⟩
      · obtain ⟨hframe, hsame, heid⟩ := s.eidTaken_says pcie code eid
        have hexec : exec (.mctpControl pcie code eid) s = .next (say (s.eidTaken pcie code eid) "control" (natLE 1 code ++ natLE 1
            (if pcie then fld ((s.eidTaken pcie code eid).regN Reg.MSS_MCTP) 7 0 else fld ((s.eidTaken pcie code eid).regN Reg.MSS_MCTP) 15 8))) := hmctp rfl rfl
        generalize s.eidTaken pcie code eid = u at hframe hsame heid hexec
        refine ⟨_, hexec, ?_, hsame, heid, ?_⟩
        · rw [hframe]
          rfl
        · rw [hframe]
          exact List.length_append
      · refine (if_neg (ne_true_of_eq_false hwarm)).trans (if_neg ?_)
        rw [hflr]
        decide
      · have hidx : bindingIdx pcie < s.mgmt.spdm.length := by
          rw [hlen]
          cases pcie <;> decide
        show (s.mgmt.spdm.modify (bindingIdx pcie) (fun _ => b && c))[bindingIdx pcie]? = _
        rw [List.getElem?_modify_eq, List.getElem?_eq_getElem hidx]
        rfl
      · simp only [State.certOk, beq_iff_eq]
        rfl
      · simp only [true_and]
        rfl
      · refine (if_pos ⟨hneg, .inl hhi⟩).trans ?_
        rw [if_neg (by omega), if_neg (by omega)]

end Sys2Proof.Machine

/-! The end of a warm reset on a part with a stack that has failed (R477): a counterexample to the WARM_RESET_DONE clause of O59. -/

namespace Sys2Proof.Machine

/-- A part whose stack 0 has failed while it retrained in a warm reset, and which is lost by it. -/
def failedStackPart : State :=
  { Tests.on with
    pwr := { Tests.on.pwr with warm := true, lost := true, gaspN := false }
    mem := { Tests.on.mem with state := 2 :: List.replicate 15 0 } }

/-- The states of the stacks after a step that goes on. -/
def stacksAfter (i : Instr) (s : State) : Option (List Nat) :=
  match exec i s with
  | .next t => some t.mem.state
  | _ => none

theorem failedStackPart_after : stacksAfter .warmResetDone failedStackPart = some (2 :: List.replicate 15 1) := by decide +kernel

/-- Refutes O59: at the end of a warm reset a stack that failed while it retrained stays FAILED, while the statement has every stack ACTIVE. -/
theorem not_powerAndResets : ¬Obligations.PowerAndResets := by
  unfold Obligations.PowerAndResets
  intro h
  obtain ⟨_, _, _, _, hdone, _⟩ := h
  obtain ⟨t, hexec, _, _, hactive, _⟩ := hdone failedStackPart rfl
  have hafter := failedStackPart_after
  simp only [stacksAfter, hexec, hactive] at hafter
  exact absurd hafter (by decide)

end Sys2Proof.Machine

/-! Markers, updates, PTP, takeover and holdover (R517 to R522, R529): what settles O55. -/

namespace Sys2Proof.Machine

namespace State

/-! ## A marker -/

/-- GTIME without its skew, with it. -/
def skewed (s : State) (base : Word) : Word := BitVec.ofInt 64 (base.toNat + sext 32 (s.regN Reg.TIME_SKEW))

/-- GTIME takes the value of a marker that does not lie before it, or may step. -/
theorem gtime_setMark {s : State} {base : Word} {jump : Bool} (h : jump = true ∨ s.time.gtime.toNat ≤ (s.skewed base).toNat) :
    (s.setMark base jump).time.gtime = s.skewed base ∧ (s.setMark base jump).time.hold = 0 := by
  have hback : (decide ((s.skewed base).toNat < s.now) && !jump) = false := by
    rcases h with rfl | h
    · exact Bool.and_false _
    · rw [decide_eq_false (show ¬(s.skewed base).toNat < s.now from Nat.not_lt.mpr h), Bool.false_and]
  exact ⟨if_neg (ne_true_of_eq_false hback), if_neg (ne_true_of_eq_false hback)⟩

/-- GTIME stands still for a value that lies before it. -/
theorem gtime_setMark_back {s : State} {base : Word} (h : (s.skewed base).toNat < s.time.gtime.toNat) :
    (s.setMark base false).time.gtime = s.time.gtime ∧ (s.setMark base false).time.hold = s.time.gtime.toNat - (s.skewed base).toNat := by
  have hback : (decide ((s.skewed base).toNat < s.now) && !false) = true := by
    rw [decide_eq_true (show (s.skewed base).toNat < s.now from h)]
    rfl
  exact ⟨if_pos hback, if_pos hback⟩

theorem gtime_le_setMark (s : State) (base : Word) : s.time.gtime.toNat ≤ (s.setMark base false).time.gtime.toNat := by
  rcases Nat.lt_or_ge (s.skewed base).toNat s.time.gtime.toNat with h | h
  · exact Nat.le_of_eq (congrArg BitVec.toNat (gtime_setMark_back h).1.symm)
  · rw [(gtime_setMark (jump := false) (.inr h)).1]
    exact h

section
variable {s : State} {periods : Nat} (hpow : s.pwr.powered = true) (hrst : s.pwr.rstN = true) (hrun : s.time.stopped = false)
include hpow hrst hrun

theorem exec_marker_early (hm : 0 < s.time.markers) (hp : periods ≠ 156250000) : exec (.marker periods) s = .next (s.latch Reg.TIME_STATUS 1) := by
  refine congrArg Host.Outcome.next ((if_neg ?_).trans (if_pos ⟨hm, hp⟩))
  rw [hpow, hrst, hrun]
  decide

/-- A good marker at a part that neither leads nor stands by. -/
theorem exec_marker_follower (hm : s.time.markers = 0 ∨ periods = 156250000) {t : State} (ht : s.atMarker = t) (hlead : t.time.leading = false) (hrole : t.role = 0) :
    exec (.marker periods) s = .next t := by
  subst ht
  refine congrArg Host.Outcome.next ((if_neg ?_).trans ((if_neg ?_).trans ((if_neg (ne_true_of_eq_false hlead)).trans (if_neg ?_))))
  · rw [hpow, hrst, hrun]
    decide
  · rintro ⟨hpos, hne⟩
    exact hm.elim (Nat.ne_of_gt hpos) hne
  · rw [hrole]
    decide

end

/-- The time of a part that takes an update at its marker. -/
def updated (s : State) (u : TimeUpd) : State :=
  let s1 := s.setMark u.gtime (s.time.leading || !s.time.taken)
  { s1 with time := { s1.time with inc := u.inc, update := none, missed := 0, taken := true, leader := u.leader, st := u.state } }

theorem atMarker_updated {s : State} {u : TimeUpd} (hlead : s.time.leading = false) (hrole : s.role = 0) (hu : s.time.update = some u)
    (hm : u.marker = s.time.markers + 1) : s.atMarker = s.updated u := by
  unfold atMarker
  rw [hu]
  have hstate : (if s.role = 0 ∧ (!s.time.leading) = true then u.state else (s.setMark u.gtime (s.time.leading || !s.time.taken)).time.st) = u.state :=
    if_pos ⟨hrole, by rw [hlead]; rfl⟩
  refine (if_pos hm).trans ?_
  simp only [hstate]
  rfl

/-- A part without an update goes on by its own INC. -/
def unupdated (s : State) : State :=
  let s1 := s.setMark (ticks (s.time.base.toNat + interval s.time.inc)) false
  { s1 with time := { s1.time with missed := s1.time.missed + 1 } }

theorem atMarker_unupdated {s : State} (hlead : s.time.leading = false) (hu : s.time.update = none) : s.atMarker = s.unupdated.latch Reg.TIME_STATUS 4 := by
  unfold atMarker
  rw [hu]
  exact if_neg (ne_true_of_eq_false hlead)

theorem time_latch (s : State) (a k : Nat) : (s.latch a k).time = s.time := by rw [latch_frame]

theorem regF_latch_ne (s : State) {a b : Nat} (k hi lo : Nat) (h : b ∉ [a, Reg.MSIX_PBA]) : (s.latch a k).regF b hi lo = s.regF b hi lo := by
  rw [regF, regN, (s.latch_but a k).1 b h]
  rfl

/-! ## PTP -/

section
variable {s : State} {p : Nat} (hserv : s.serving = true) (hon : s.npOn p = true)
include hserv hon

theorem exec_ptpMessage_foreign {sync : Bool} {t : Option PtpTimes} (h : 2 ≤ p ∨ (s.role = 0 ∧ s.time.leading = false)) :
    exec (.ptpMessage p sync t) s = .next ((s.rxFrame p).count (Reg.NP_PTP_RX p) 1) := by
  refine exec_whenServing hserv rfl ((if_neg (by rw [hon]; decide)).trans (if_pos ?_))
  simpa using h

theorem exec_ptpMessage_own {sync : Bool} {t : Option PtpTimes} {u : State} (hp : p < 2) (hrole : ¬(s.role = 0 ∧ s.time.leading = false))
    (hu : (if p ≠ s.regF Reg.TIME_CTL 29 29 then s.rxFrame p
      else
        let s := s.rxFrame p
        let s1 : State := if sync then { s with time := { s.time with lastSync := s.time.gtime, st := if s.time.st = 0 ∨ s.time.st = 3 then 1 else s.time.st } } else s
        let s2 : State := match t with
          | none => s1
          | some x => { s1 with time := { s1.time with offsets := s1.time.offsets ++ [ptpOffset x s.asym] } }
        if sync then s2.sendFrame p (.delayReq p) else s2) = u) : exec (.ptpMessage p sync t) s = .next u := by
  refine exec_whenServing hserv rfl ((if_neg (by rw [hon]; decide)).trans ((if_neg ?_).trans hu))
  rintro (hge | ⟨hzero, hnot⟩)
  · omega
  · exact hrole ⟨hzero, by simpa using hnot⟩

end

theorem asym_rxFrame (s : State) {p : Nat} (hp : p < 2) : (s.rxFrame p).asym = s.asym := by
  unfold asym regN rxFrame
  rw [reg_count_ne _ _ _ _ (by simp only [Reg.NP_RX_FRAMES, Reg.TIME_ASYM]; omega)]

end State

/-- Settles O55: at a good marker a follower takes its update, or goes on by its INC; GTIME stands still for a value that lies before it. -/
theorem timeKeeping : Obligations.TimeKeeping := by
  unfold Obligations.TimeKeeping
  refine ⟨fun s periods hpow hrst hrun => ⟨fun hm hp => State.exec_marker_early hpow hrst hrun hm hp, fun u hm hlead hrole hu hmark => ?_,
    fun hm hlead hrole hu hs => ?_, ?_⟩, fun s hserv => ⟨fun src marker gtime inc state hfollow hsrc => ?_, fun src marker gtime inc state hno => ?_, ?_, fun l hmiss => ?_,
    fun l m hmiss hlead hmin => ?_, fun p sync t hon => ⟨State.exec_ptpMessage_foreign hserv hon, fun hp hrole hport => ?_, fun x hp hrole hport hsync ht => ?_,
      fun hp hrole hport hsync ht => ?_⟩, fun hst hrole hlead hpast => ?_, fun hno => ?_⟩⟩
  · intro v
    have hexec := State.exec_marker_follower hpow hrst hrun hm (State.atMarker_updated hlead hrole hu hmark) hlead hrole
    have hjump : (s.time.leading || !s.time.taken) = !s.time.taken := by rw [hlead, Bool.false_or]
    refine ⟨s.updated u, hexec, rfl, rfl, rfl, rfl, rfl, rfl, rfl, rfl, fun hfirst => ?_, fun htaken hle => State.gtime_setMark (.inr hle), fun htaken hlt => ?_⟩
    · exact State.gtime_setMark (.inl (by rw [hjump, hfirst]; rfl))
    · have hnojump : (s.time.leading || !s.time.taken) = false := by
        rw [hjump, htaken]
        rfl
      unfold State.updated
      rw [hnojump]
      exact State.gtime_setMark_back hlt
  · have htime := s.unupdated.time_latch Reg.TIME_STATUS 4
    have hexec := State.exec_marker_follower hpow hrst hrun hm (State.atMarker_unupdated hlead hu) (by rw [htime]; exact hlead)
      ((State.regF_latch_ne _ 4 31 30 (by decide)).trans hrole)
    refine ⟨_, hexec, ?_, ?_, ?_, ?_, State.regB_latch (s := s.unupdated) hs.mem (by decide) (by decide)⟩
    · rw [htime]
      rfl
    · rw [htime]
      rfl
    · rw [htime]
      rfl
    · rw [htime]
      exact s.gtime_le_setMark _
  · refine congrArg Host.Outcome.next (if_neg ?_)
    rw [hpow, hrst]
    decide
  · refine exec_whenServing hserv rfl ((if_neg ?_).trans (if_neg hsrc))
    rintro ⟨hlead, hrole⟩
    exact hfollow.elim (ne_true_of_eq_false · hlead) hrole
  · refine exec_whenServing hserv rfl ?_
    by_cases hown : s.time.leading = true ∧ s.role ≠ 1
    · exact if_pos hown
    · exact (if_neg hown).trans (if_pos (hno.resolve_left hown))
  · refine exec_whenServing hserv rfl ?_
    simp only [Option.isNone_iff_eq_none, Bool.not_eq_true']
  · exact exec_whenServing hserv rfl (if_pos (.inl hmiss))
  · intro u
    refine exec_whenServing hserv rfl ((if_neg ?_).trans ?_)
    · rw [hlead]
      simpa using hmiss
    · rw [hmin]
  · exact State.exec_ptpMessage_own hserv hon hp hrole (if_pos hport)
  · subst hsync ht
    refine State.exec_ptpMessage_own hserv hon hp hrole ((if_neg (Classical.not_not.mpr hport)).trans ?_)
    rw [← s.asym_rxFrame hp]
    rfl
  · subst hsync ht
    exact State.exec_ptpMessage_own hserv hon hp hrole (if_neg (Classical.not_not.mpr hport))
  · refine exec_whenServing hserv rfl ((if_pos ⟨hst, .inr hrole, State.reached_of_le hpast⟩).trans ?_)
    exact if_neg (ne_true_of_eq_false hlead)
  · refine exec_whenServing hserv rfl (if_neg ?_)
    rintro ⟨hst, -, hpast⟩
    rcases hno with hne | hlt
    · exact hne hst
    · exact ne_true_of_eq_false (State.reached_of_lt hlt) hpast

end Sys2Proof.Machine

/-! Frames, pauses and RoCEv2 connections of the network ports (R512 to R514, R525, R527, R528): what settles O54. -/

namespace Sys2Proof.Machine

namespace State

/-! ## The end of a load with a status -/

namespace Sound

variable {s : State}

theorem modLoad {k n : Nat} {f : Load → Load} (h : s.Sound) : (s.modLoad k n f).Sound := h

theorem workAll {d : Dom} {m : WorkMsg} {cmd : Option (Nat × Nat)} (h : s.Sound) : (s.workAll d m cmd).2.Sound := by
  refine List.foldlRecOn _ _ (motive := fun acc : Nat × State => acc.2.Sound) h fun acc hacc n _ => ?_
  have hsent := hacc.sendWrite (die := 0) (dst := n) (body := .work m) (cmd := cmd) (r := none)
  split <;> · next he =>
    rw [he] at hsent
    exact hsent

theorem modCommit {cid : Nat} {f : Commit → Commit} (h : s.Sound) : (s.modCommit cid f).Sound := h
theorem commitGo {cid : Nat} (h : s.Sound) : (s.commitGo cid).Sound := h

theorem commitReady {cid : Nat} (h : s.Sound) : (s.commitReady cid).Sound := by
  unfold State.commitReady
  split
  · exact h
  · split
    · split
      · exact h
      · exact h.workAll.commitGo
    · exact h

theorem commitLoads {cid : Nat} (h : s.Sound) : (s.commitLoads cid).Sound := by
  unfold State.commitLoads
  split
  · exact h
  · split
    · exact h
    · dsimp only
      split
      · exact h.modCommit.commitReady
      · exact h.modCommit.write

theorem finishLoad {k n : Nat} (h : s.Sound) : (s.finishLoad k n).Sound := by
  unfold State.finishLoad
  split
  · exact h
  · split
    · exact h
    · exact foldl (fun _ h => h.commitLoads) _ h

/-- A load has been marked as ended, and its READs are forgotten. -/
theorem endLoad_some {k n st : Nat} (h : s.Sound) : (s.endLoad k n (some st)).Sound := by
  have hnet : ({ (s.modLoad k n (fun l => { l with ended := true })) with
      net := { s.net with roce := s.net.roce.map (fun r => { r with reads := r.reads.filter (fun x => !(x.2.1 == k && x.2.2.1 == n)) }) } } : State).Sound :=
    h.net rfl (List.length_map ..)
  exact hnet.endCmd.finishLoad

end Sound

/-- What the end of operations on a connection may change. -/
def roceEnding (s t : State) : State :=
  { s with loads := t.loads, commits := t.commits, slots := t.slots, link := t.link, net := t.net, mgmt := t.mgmt, regs := t.regs, out := t.out }

/-- Loads that end, and what that lets go. -/
def loadsEnding (s t : State) : State := { s with loads := t.loads, commits := t.commits, slots := t.slots, link := t.link, regs := t.regs, out := t.out }

/-- Commits that go on, and the packets of it. -/
def committing (s t : State) : State := { s with commits := t.commits, link := t.link, regs := t.regs, out := t.out }

theorem within_commitLoads (s : State) (cid : Nat) : s.within committing (s.commitLoads cid) := (s.onlyCommits_commitLoads cid).frame

theorem within_finishLoad (s : State) (k n : Nat) : s.within loadsEnding (s.finishLoad k n) := by
  unfold finishLoad
  split
  · rfl
  · split
    · rfl
    · extract_lets s1
      have hfold (l : List Nat) (t : State) : t.within loadsEnding (l.foldl commitLoads t) := by
        refine within_foldl (take := loadsEnding) _ ?_ l t
        intro u cid
        exact within_mono (u.within_commitLoads cid)
      exact within_trans (take := loadsEnding) (t := s1) rfl (hfold _ _)

/-! ## Connections -/

/-- From s to t connections have kept everything but READs that have been forgotten. -/
def shedsReads (s t : State) : Prop := ∀ c : Nat, ∀ r, s.net.roce[c]? = some r → ∃ l, t.net.roce[c]? = some { r with reads := l } ∧ (r.reads = [] → l = [])

theorem shedsReads_refl (s : State) : s.shedsReads s := fun _ r hr => ⟨r.reads, hr, id⟩

theorem shedsReads_trans {s t u : State} (h1 : s.shedsReads t) (h2 : t.shedsReads u) : s.shedsReads u := fun c r hr => by
  obtain ⟨l, hl, hnone⟩ := h1 c r hr
  obtain ⟨l', hl', hnone'⟩ := h2 c _ hl
  exact ⟨l', hl', fun hr => hnone' (hnone hr)⟩

theorem endLoad_says (s : State) (k n st : Nat) : s.within roceEnding (s.endLoad k n (some st)) ∧ s.shedsReads (s.endLoad k n (some st))
    ∧ (s.endLoad k n (some st)).net.link = s.net.link ∧ (s.endLoad k n (some st)).net.paused = s.net.paused := by
  let u : State := ({ (s.modLoad k n (fun l => { l with ended := true })) with
      net := { s.net with roce := s.net.roce.map (fun r => { r with reads := r.reads.filter (fun x => !(x.2.1 == k && x.2.2.1 == n)) }) } } : State).endCmd k n st 0
  have hend : s.endLoad k n (some st) = u.finishLoad k n := rfl
  have hfin := u.within_finishLoad k n
  rw [hend]
  refine ⟨within_trans (take := roceEnding) (t := u) rfl (within_mono hfin), fun c r hr => ?_, ?_, ?_⟩
  · refine ⟨r.reads.filter (fun x => !(x.2.1 == k && x.2.2.1 == n)), ?_, fun hnone => by rw [hnone]; rfl⟩
    rw [hfin]
    show (s.net.roce.map _)[c]? = _
    rw [List.getElem?_map, hr]
    rfl
  · rw [hfin]
    rfl
  · rw [hfin]
    rfl

/-- Loads that end because their connection does. -/
def sourceEnds (s : State) (l : List Load) : State := l.foldl (fun s l => s.endLoad l.slot l.n (some ST_TBL_SOURCE)) s

theorem sourceEnds_says (s : State) (l : List Load) : s.within roceEnding (s.sourceEnds l) ∧ s.shedsReads (s.sourceEnds l)
    ∧ (s.sourceEnds l).net.link = s.net.link ∧ (s.sourceEnds l).net.paused = s.net.paused := by
  refine List.foldlRecOn l _ (motive := fun t : State => s.within roceEnding t ∧ s.shedsReads t ∧ t.net.link = s.net.link ∧ t.net.paused = s.net.paused)
    ⟨rfl, s.shedsReads_refl, rfl, rfl⟩ fun t ⟨ht, hsheds, hlink, hpaused⟩ x _ => ?_
  obtain ⟨hu, husheds, hulink, hupaused⟩ := t.endLoad_says x.slot x.n ST_TBL_SOURCE
  exact ⟨within_trans ht hu, shedsReads_trans hsheds husheds, hulink.trans hlink, hupaused.trans hpaused⟩

theorem Sound.sourceEnds {s : State} (h : s.Sound) (l : List Load) : (s.sourceEnds l).Sound := Sound.foldl (fun _ h => h.endLoad_some) l h

theorem Sound.mbEnd {s : State} {st : Nat} {out : Bytes} (h : s.Sound) : (s.mbEnd st out).Sound := by
  rw [mbEnd_eq]
  exact (h.mbFilled 1024 st out).latch

theorem within_mbFill (s : State) (i n : Nat) (b : Bytes) : s.within events (mbFill s i n b) := by
  induction n generalizing s i b with
  | zero => rfl
  | succ n ih =>
    rw [mbFill]
    split
    · exact ih s _ _
    · exact within_trans (take := events) (t := s.setRegN (Reg.MSS_MB_DATA i) (leNat (b.take 4))) rfl (ih _ _ _)

theorem within_mbFilled (s : State) (n st : Nat) (out : Bytes) : s.within roceEnding (s.mbFilled n st out) :=
  within_trans (take := roceEnding) (within_mono (s.within_mbFill 0 n out)) rfl

theorem net_mbFilled (s : State) (n st : Nat) (out : Bytes) : (s.mbFilled n st out).net = s.net := by
  have hfill : (s.mbFill 0 n out).net = s.net := by
    rw [s.within_mbFill 0 n out]
    rfl
  unfold mbFilled
  exact hfill

theorem within_mbEnd (s : State) (st : Nat) (out : Bytes) : s.within roceEnding (s.mbEnd st out) := by
  rw [mbEnd_eq]
  exact within_trans (s.within_mbFilled 1024 st out) (within_mono (within_latch _ _ 7))

theorem net_latch (s : State) (a k : Nat) : (s.latch a k).net = s.net := by rw [latch_frame]

theorem net_mbEnd (s : State) (st : Nat) (out : Bytes) : (s.mbEnd st out).net = s.net := by
  rw [mbEnd_eq, net_latch, net_mbFilled]

/-- A connection with no operation on it. -/
def emptied (r : Roce) : Roce := { r with reads := [], writes := [], dumping := false }

/-- A dump of the mailbox ends with its connection. -/
def dumpEnds (s : State) (dumping : Bool) : State :=
  if dumping ∧ s.mgmt.dumpBusy then ({ s with mgmt := { s.mgmt with dumpBusy := false } } : State).mbEnd ST_MSS_NO_CONN [] else s

theorem roceEnds_eq (s : State) (c : Nat) : s.roceEnds c = ((s.modRoce c emptied).sourceEnds (s.loads.filter (fun l => l.source == 2 && l.conn == c))).dumpEnds (s.roce c).dumping := by
  unfold dumpEnds
  rfl

theorem dumpEnds_says (s : State) (b : Bool) : s.within roceEnding (s.dumpEnds b) ∧ (s.dumpEnds b).net = s.net := by
  unfold dumpEnds
  split
  · exact ⟨within_trans (take := roceEnding) (t := { s with mgmt := { s.mgmt with dumpBusy := false } }) rfl (within_mbEnd _ _ _), net_mbEnd _ _ _⟩
  · exact ⟨rfl, rfl⟩

theorem Sound.dumpEnds {s : State} (h : s.Sound) (b : Bool) : (s.dumpEnds b).Sound := by
  unfold State.dumpEnds
  split
  · exact Sound.mbEnd (s := { s with mgmt := { s.mgmt with dumpBusy := false } }) h
  · exact h

theorem Sound.roceEnds {s : State} (h : s.Sound) (c : Nat) : (s.roceEnds c).Sound := by
  rw [roceEnds_eq]
  exact ((h.modRoce (c := c) (f := emptied)).sourceEnds _).dumpEnds _

theorem roceEnds_says (s : State) (c : Nat) : s.within roceEnding (s.roceEnds c) ∧ (s.modRoce c emptied).shedsReads (s.roceEnds c)
    ∧ (s.roceEnds c).net.link = s.net.link ∧ (s.roceEnds c).net.paused = s.net.paused := by
  rw [roceEnds_eq]
  obtain ⟨hends, hsheds, hlink, hpaused⟩ := (s.modRoce c emptied).sourceEnds_says (s.loads.filter (fun l => l.source == 2 && l.conn == c))
  generalize (s.modRoce c emptied).sourceEnds (s.loads.filter (fun l => l.source == 2 && l.conn == c)) = t at hends hsheds hlink hpaused
  obtain ⟨hdump, hnet⟩ := t.dumpEnds_says (s.roce c).dumping
  refine ⟨within_trans (within_trans (take := roceEnding) (t := s.modRoce c emptied) rfl hends) hdump, ?_, ?_, ?_⟩
  · unfold shedsReads
    rw [hnet]
    exact hsheds
  · rw [hnet]
    exact hlink
  · rw [hnet]
    exact hpaused

end State

end Sys2Proof.Machine

/-! The statements about the network ports: what settles O54. -/

namespace Sys2Proof.Machine

/-- A connection that VALID starts. -/
theorem Roce.start_says (r : Roce) (v : Nat) (now : Word) : let x := (r.withCfg v).start now
    (x.valid && x.st == 1 && x.psn == 0 && x.rate == 100 && x.retries == 0 && x.port == fld v 62 59 && x.prio == fld v 58 56 && x.ackUs == fld v 31 24
      && x.rqpn == fld v 23 0) = true := by
  intro x
  have hport : x.port = fld v 62 59 := rfl
  have hprio : x.prio = fld v 58 56 := rfl
  have hack : x.ackUs = fld v 31 24 := rfl
  have hqpn : x.rqpn = fld v 23 0 := rfl
  have hfresh : x.valid = true ∧ x.st = 1 ∧ x.psn = 0 ∧ x.rate = 100 ∧ x.retries = 0 := ⟨rfl, rfl, rfl, rfl, rfl⟩
  obtain ⟨hval, hst, hpsn, hrate, hretries⟩ := hfresh
  clear_value x
  rw [hport, hprio, hack, hqpn, hval, hst, hpsn, hrate, hretries]
  simp only [beq_self_eq_true, Bool.and_self]

namespace State

/-! ## One connection -/

section
variable {s : State} {c : Nat} {r : Roce} (hr : s.net.roce[c]? = some r)
include hr

theorem roce_of_getElem : s.roce c = r := by
  rw [roce, hr, Option.getD_some]

theorem getElem_modRoce (f : Roce → Roce) : (s.modRoce c f).net.roce[c]? = some (f r) := by
  show (s.net.roce.modify c f)[c]? = _
  rw [List.getElem?_modify_eq, hr]
  rfl

/-- A change of a connection is its replacement. -/
theorem modRoce_eq_put (f : Roce → Roce) : s.modRoce c f = s.modRoce c (fun _ => f r) := by
  have hlist : s.net.roce.modify c f = s.net.roce.modify c (fun _ => f r) := by
    apply List.ext_getElem?
    intro j
    by_cases hj : c = j
    · rw [← hj, List.getElem?_modify_eq, List.getElem?_modify_eq, hr]
      rfl
    · rw [List.getElem?_modify_ne _ _ hj, List.getElem?_modify_ne _ _ hj]
  unfold modRoce listMod
  rw [hlist]

end

theorem getElem_modRoce_ne (s : State) {c j : Nat} (f : Roce → Roce) (h : j ≠ c) : (s.modRoce c f).net.roce[j]? = s.net.roce[j]? :=
  List.getElem?_modify_ne _ _ h.symm

theorem modRoce_modRoce (s : State) (c : Nat) (f g : Roce → Roce) : (s.modRoce c f).modRoce c g = s.modRoce c (g ∘ f) := by
  unfold modRoce listMod
  simp only [List.modify_modify_eq]

/-- A connection without loads and without a dump enters ERROR with nothing else to end. -/
theorem roceError_idle {s : State} {c : Nat} {r : Roce} (hr : s.net.roce[c]? = some r) (hst : r.st = 1) (cause : Nat)
    (hloads : s.loads.all (fun l => l.source != 2) = true) (hdump : r.dumping = false) :
    s.roceError c cause = (s.modRoce c (fun _ => { r with st := 2, lastErr := cause, reads := [], writes := [] })).latch Reg.LNK_STATUS 4 := by
  have hnone : s.loads.filter (fun l => l.source == 2 && l.conn == c) = [] := by
    rw [List.filter_eq_nil_iff]
    intro l hl
    have hsrc := List.all_eq_true.mp hloads l hl
    rw [bne_iff_ne] at hsrc
    simp [hsrc]
  have hput := modRoce_eq_put hr (fun r => { r with st := 2, lastErr := cause })
  have hr' := getElem_modRoce hr (fun r => { r with st := 2, lastErr := cause })
  have hends : (s.modRoce c (fun r => { r with st := 2, lastErr := cause })).roceEnds c
      = s.modRoce c (fun _ => { r with st := 2, lastErr := cause, reads := [], writes := [] }) := by
    have hidle : ((s.modRoce c (fun r => { r with st := 2, lastErr := cause })).roce c).dumping = false := by
      rw [roce_of_getElem hr']
      exact hdump
    rw [roceEnds_eq, hidle]
    show (((s.modRoce c _).modRoce c emptied).sourceEnds (s.loads.filter _)).dumpEnds false = _
    rw [hnone, modRoce_modRoce, modRoce_eq_put hr]
    simp only [sourceEnds, List.foldl_nil, dumpEnds, Bool.false_eq_true, false_and, if_false, emptied, Function.comp, hdump]
  unfold roceError
  rw [roce_of_getElem hr]
  refine (if_neg (Classical.not_not.mpr hst)).trans ?_
  rw [hends]

/-- A connection whose error has been taken note of is not READY, and no other becomes so. -/
def settles (s t : State) (c : Nat) : Prop :=
  ∀ j r, s.net.roce[j]? = some r → ∃ r', t.net.roce[j]? = some r' ∧ r'.port = r.port ∧ (r.st ≠ 1 → r'.st ≠ 1) ∧ (j = c → r'.st ≠ 1)

theorem roceError_says (s : State) (c cause : Nat) : s.settles (s.roceError c cause) c
    ∧ (s.roceError c cause).net.link = s.net.link ∧ (s.roceError c cause).net.paused = s.net.paused := by
  unfold roceError
  split
  · next hst =>
    refine ⟨fun j r hr => ⟨r, hr, rfl, id, ?_⟩, rfl, rfl⟩
    rintro rfl
    rwa [roce_of_getElem hr] at hst
  · let u := s.modRoce c (fun r => { r with st := 2, lastErr := cause })
    obtain ⟨-, hsheds, hlink, hpaused⟩ := u.roceEnds_says c
    refine ⟨fun j r hr => ?_, ?_, ?_⟩
    · rw [net_latch]
      by_cases hj : j = c
      · subst hj
        obtain ⟨l, hl, -⟩ := hsheds j _ (getElem_modRoce (getElem_modRoce hr _) emptied)
        have hne : (2 : Nat) ≠ 1 := by decide
        exact ⟨_, hl, rfl, fun _ => hne, fun _ => hne⟩
      · have hsame : (u.modRoce c emptied).net.roce[j]? = some r := by
          rw [getElem_modRoce_ne _ _ hj, getElem_modRoce_ne _ _ hj, hr]
        obtain ⟨l, hl, -⟩ := hsheds j r hsame
        exact ⟨_, hl, rfl, id, fun heq => absurd heq hj⟩
    · rw [net_latch]
      exact hlink
    · rw [net_latch]
      exact hpaused

theorem Sound.roceError {s : State} (h : s.Sound) (c cause : Nat) : (s.roceError c cause).Sound := by
  unfold State.roceError
  split
  · exact h
  · exact ((h.modRoce (c := c) (f := fun r => { r with st := 2, lastErr := cause })).roceEnds c).latch

/-! ## The end of a port's link -/

/-- A connection of a port whose link is down. -/
def connDown (p : Nat) (s : State) (c : Nat) : State := if (s.roce c).port = p then s.roceError c ST_ROCE_PORT_DOWN else s

theorem connDown_says (s : State) (p c : Nat) :
    (∀ j r, s.net.roce[j]? = some r → ∃ r', (connDown p s c).net.roce[j]? = some r' ∧ r'.port = r.port ∧ (r.st ≠ 1 → r'.st ≠ 1)
        ∧ (j = c → r.port = p → r'.st ≠ 1))
      ∧ (connDown p s c).net.link = s.net.link ∧ (connDown p s c).net.paused = s.net.paused := by
  unfold connDown
  split
  · obtain ⟨hsettles, hnet⟩ := s.roceError_says c ST_ROCE_PORT_DOWN
    refine ⟨fun j r hr => ?_, hnet⟩
    obtain ⟨r', hr', hport, hst, hself⟩ := hsettles j r hr
    exact ⟨r', hr', hport, hst, fun hj _ => hself hj⟩
  · next hport =>
    refine ⟨fun j r hr => ⟨r, hr, rfl, id, fun hj hp => absurd ?_ hport⟩, rfl, rfl⟩
    subst hj
    rwa [roce_of_getElem hr]

theorem connsDown_says (p : Nat) (l : List Nat) (s : State) :
    (∀ j r, s.net.roce[j]? = some r → ∃ r', (l.foldl (connDown p) s).net.roce[j]? = some r' ∧ r'.port = r.port ∧ (r.st ≠ 1 → r'.st ≠ 1)
        ∧ (j ∈ l → r.port = p → r'.st ≠ 1))
      ∧ (l.foldl (connDown p) s).net.link = s.net.link ∧ (l.foldl (connDown p) s).net.paused = s.net.paused := by
  induction l generalizing s with
  | nil => exact ⟨fun j r hr => ⟨r, hr, rfl, id, fun hj => absurd hj List.not_mem_nil⟩, rfl, rfl⟩
  | cons c l ih =>
    obtain ⟨hstep, hlink, hpaused⟩ := s.connDown_says p c
    obtain ⟨hrest, hlink', hpaused'⟩ := ih (connDown p s c)
    refine ⟨fun j r hr => ?_, hlink'.trans hlink, hpaused'.trans hpaused⟩
    obtain ⟨r1, hr1, hport1, hst1, hself1⟩ := hstep j r hr
    obtain ⟨r2, hr2, hport2, hst2, hself2⟩ := hrest j r1 hr1
    refine ⟨r2, hr2, hport2.trans hport1, fun hne => hst2 (hst1 hne), fun hj hp => ?_⟩
    rcases List.mem_cons.mp hj with rfl | hj
    · exact hst2 (hself1 rfl hp)
    · exact hself2 hj (hport1.trans hp)

theorem Sound.connsDown {s : State} (h : s.Sound) (p : Nat) (l : List Nat) : (l.foldl (connDown p) s).Sound :=
  Sound.foldl (fun c h => by
    unfold connDown
    split
    · exact h.roceError c ST_ROCE_PORT_DOWN
    · exact h) l h

/-- A port without its link has no pause and no held frame. -/
def unlinked (s : State) (p : Nat) : State :=
  { s with net := { s.net with link := listMod s.net.link p (fun _ => false), paused := s.net.paused.filter (fun e => !(e.1 == p)), held := s.net.held.filter (fun e => !(e.1 == p)) } }

theorem exec_npLinkDown {s : State} {p : Nat} (hup : s.up = true) (hlink : s.net.link[p]? = some true) :
    exec (.npLinkDown p) s = .next (((List.range 64).foldl (connDown p) (s.unlinked p)).latch Reg.LNK_STATUS 5) := by
  refine congrArg Host.Outcome.next (if_pos ⟨hup, ?_⟩)
  rw [List.getD_eq_getElem?_getD, hlink]
  rfl

theorem npLinkDown_says {s : State} {p n : Nat} (hlink : s.net.link[p]? = some true) (hs : s.Sound) (hn : n = s.net.roce.length) :
    let t := ((List.range n).foldl (connDown p) (s.unlinked p)).latch Reg.LNK_STATUS 5
    t.net.link[p]? = some false ∧ t.regB Reg.LNK_STATUS 5 = true ∧ (∀ e ∈ t.net.paused, e.1 ≠ p)
      ∧ (∀ c r, c < n → t.net.roce[c]? = some r → r.port = p → r.st ≠ 1) := by
  intro t
  have hu : (s.unlinked p).Sound := hs.net (List.length_modify ..) rfl
  obtain ⟨hconns, hlinks, hpaused⟩ := connsDown_says p (List.range n) (s.unlinked p)
  have hsound := hu.connsDown p (List.range n)
  have hnet : t.net = ((List.range n).foldl (connDown p) (s.unlinked p)).net := net_latch _ _ _
  refine ⟨?_, regB_latch hsound.mem (by decide) (by decide), fun e he => ?_, fun c r hc hr hport => ?_⟩
  · rw [hnet, hlinks]
    show (s.net.link.modify p _)[p]? = _
    rw [List.getElem?_modify_eq, hlink]
    rfl
  · rw [hnet, hpaused] at he
    obtain ⟨-, hne⟩ := List.mem_filter.mp he
    simpa using hne
  · rw [hnet] at hr
    obtain ⟨r0, hr0⟩ : ∃ r0, s.net.roce[c]? = some r0 := ⟨_, List.getElem?_eq_getElem (hn ▸ hc)⟩
    obtain ⟨r', hr', hport', -, hself⟩ := hconns c r0 hr0
    rw [hr', Option.some.injEq] at hr
    subst hr
    exact hself (List.mem_range.mpr hc) (hport'.symm.trans hport)

/-! ## NP_ROCE_CFG -/

theorem within_writeRoceCfg (a : Access) (s : State) : s.within roceEnding (writeRoceCfg a s) := by
  unfold writeRoceCfg
  extract_lets c r v s1
  have h1 : s.within roceEnding s1 := by
    simp only [s1]
    split
    · rfl
    · exact within_mono (s.within_latch _ 3)
  split
  · split
    · exact h1
    · exact within_trans h1 (within_trans (s1.roceEnds_says c).1 rfl)
  · rfl

theorem barOpen_writeRoceCfg (a : Access) (s : State) : (writeRoceCfg a s).barOpen = s.barOpen := by
  rw [within_writeRoceCfg a s]
  rfl

section
variable {s : State} {a : Access} (hopen : s.barOpen = true) (hon : onReg a Reg.NP_ROCE_CFG = true)
include hopen hon

theorem exec_roceValidWrite : exec (.roceValidWrite a) s = .next (byWords writeRoceCfg a s) := by
  show execRoceValidWrite a s = _
  simp only [execRoceValidWrite, whenOn_on hopen hon]

theorem exec_roceValidWrite_word (hsize : a.size = 4) : exec (.roceValidWrite a) s = .next (writeRoceCfg a s) := by
  rw [exec_roceValidWrite hopen hon, byWords, if_neg (by omega)]

theorem exec_roceValidWrite_halves (hsize : a.size = 8) : ∃ t, exec (.roceValidWrite ⟨a.bar, a.off, 4, a.value⟩) s = .next t
    ∧ exec (.roceValidWrite a) s = exec (.roceValidWrite ⟨a.bar, a.off + 4, 4, a.value >>> 32⟩) t := by
  have hoff : a.off % 8 = 0 := by
    obtain ⟨_, _, hmod, _⟩ := (onReg_iff _ _).mp hon
    rwa [hsize] at hmod
  have hbase : Reg.NP_ROCE_CFG % 8 = 0 := rfl
  have hlow : onReg ⟨a.bar, a.off, 4, a.value⟩ Reg.NP_ROCE_CFG = true := (onReg_word (d := 0) _ hsize hoff hbase (Or.inl rfl)).trans hon
  have hhigh : onReg ⟨a.bar, a.off + 4, 4, a.value >>> 32⟩ Reg.NP_ROCE_CFG = true := (onReg_word _ hsize hoff hbase (Or.inr rfl)).trans hon
  refine ⟨_, exec_roceValidWrite_word hopen hlow rfl, ?_⟩
  rw [exec_roceValidWrite hopen hon, exec_roceValidWrite_word ((barOpen_writeRoceCfg _ s).trans hopen) hhigh rfl, byWords, if_pos hsize]

end

/-! ## Pauses -/

theorem mem_pauseBy {p now honour : Nat} {prios : BitVec 8} {quanta : List Nat} {l : List (Nat × Nat × Nat)} {k q : Nat} (h : (p, k, q) ∈ pauseBy p now honour prios quanta l)
    (hprio : prios.getLsbD k = true) (hhon : honour.testBit k = true) : q = now + (quanta.getD k 0 * 256 + 99) / 100 ∧ quanta.getD k 0 ≠ 0 := by
  rcases List.mem_append.mp h with hold | hnew
  · obtain ⟨-, hnot⟩ := List.mem_filter.mp hold
    simp [hprio, hhon] at hnot
  · obtain ⟨k', hk', heq⟩ := List.mem_map.mp hnew
    obtain ⟨-, hnamed⟩ := List.mem_filter.mp hk'
    obtain ⟨-, rfl, rfl⟩ : p = p ∧ k' = k ∧ now + pauseTicks (quanta.getD k' 0) = q := by simpa using heq
    refine ⟨rfl, ?_⟩
    simpa using (Bool.and_eq_true_iff.mp hnamed).2

theorem mem_pauseBy_ne {p now honour : Nat} {prios : BitVec 8} {quanta : List Nat} {l : List (Nat × Nat × Nat)} {p' k q : Nat} (hne : p' ≠ p) :
    (p', k, q) ∈ pauseBy p now honour prios quanta l ↔ (p', k, q) ∈ l := by
  refine ⟨fun h => ?_, fun h => List.mem_append_left _ (List.mem_filter.mpr ⟨h, by simp [hne]⟩)⟩
  rcases List.mem_append.mp h with hold | hnew
  · exact (List.mem_filter.mp hold).1
  · obtain ⟨k', -, heq⟩ := List.mem_map.mp hnew
    exact absurd (congrArg Prod.fst heq).symm hne

theorem sendPrio_holds {s : State} {p prio : Nat} (hp : p < 10) (o : Out) (h : s.paused p prio = true) :
    s.sendPrio p prio o = { s with net := { s.net with held := s.net.held ++ [(p, prio, o)] } } :=
  (if_neg (Nat.not_le.mpr hp)).trans (if_pos (.inl h))

theorem sendPrio_sends {s : State} {p prio : Nat} (hp : p < 10) (o : Out) (h : s.paused p prio = false)
    (hheld : s.net.held.any (fun e => e.1 == p && e.2.1 == prio) = false) : s.sendPrio p prio o = s.sendFrame p o :=
  (if_neg (Nat.not_le.mpr hp)).trans (if_neg (not_or.mpr ⟨ne_true_of_eq_false h, ne_true_of_eq_false hheld⟩))

theorem lt_of_npOn {s : State} {p : Nat} (h : s.npOn p = true) : p < 10 := by
  unfold npOn at h
  exact of_decide_eq_true (Bool.and_eq_true_iff.mp h).1

/-- The pauses of a port after a PFC frame. -/
def pausedBy (s : State) (p : Nat) (prios : BitVec 8) (quanta : List Nat) : State :=
  let s1 := (s.rxFrame p).count (Reg.NP_PFC_RX p) 1
  { s1 with net := { s1.net with paused := pauseBy p s1.now (s1.regF (Reg.NP_CTL p) 23 16) prios quanta s1.net.paused } }

/-! ## NP_ROCE_CFG, case by case -/

section
variable {s : State} {a : Access} {r : Roce} (hr : s.net.roce[s.roceSel]? = some r)
include hr

theorem writeRoceCfg_start (hval : r.valid = false) (hgo : (rwInto a Reg.NP_ROCE_CFG r.cfg).testBit 63 = true) :
    writeRoceCfg a s = s.modRoce s.roceSel (fun x => (x.withCfg (rwInto a Reg.NP_ROCE_CFG r.cfg)).start s.time.gtime) := by
  simp only [writeRoceCfg, roce_of_getElem hr, hval, hgo, Bool.false_eq_true, if_false, if_true]

theorem writeRoceCfg_fields (hval : r.valid = false) (hgo : (rwInto a Reg.NP_ROCE_CFG r.cfg).testBit 63 = false) :
    writeRoceCfg a s = s.modRoce s.roceSel (fun x => x.withCfg (rwInto a Reg.NP_ROCE_CFG r.cfg)) := by
  simp only [writeRoceCfg, roce_of_getElem hr, hval, hgo, Bool.false_eq_true, if_false]

/-- A VALID connection whose other fields a write leaves or is refused. -/
def cfgRefused (s : State) (r : Roce) (v : Nat) : State := if r.withCfg v = r then s else s.latch Reg.LNK_STATUS 3

omit hr in
theorem net_cfgRefused (s : State) (r : Roce) (v : Nat) : (s.cfgRefused r v).net = s.net := by
  unfold cfgRefused
  split
  · rfl
  · exact net_latch _ _ _

theorem writeRoceCfg_kept (hval : r.valid = true) (hgo : (rwInto a Reg.NP_ROCE_CFG r.cfg).testBit 63 = true) :
    writeRoceCfg a s = s.cfgRefused r (rwInto a Reg.NP_ROCE_CFG r.cfg) := by
  simp only [writeRoceCfg, roce_of_getElem hr, hval, hgo, if_true]
  rfl

theorem writeRoceCfg_off (hval : r.valid = true) (hgo : (rwInto a Reg.NP_ROCE_CFG r.cfg).testBit 63 = false) :
    writeRoceCfg a s = ((s.cfgRefused r (rwInto a Reg.NP_ROCE_CFG r.cfg)).roceEnds s.roceSel).modRoce s.roceSel
      (fun r => { r with valid := false, st := if r.st = 2 then 2 else 0 }) := by
  simp only [writeRoceCfg, roce_of_getElem hr, hval, hgo, Bool.false_eq_true, if_false, if_true]
  rfl

theorem roce_off (v : Nat) : ((((s.cfgRefused r v).roceEnds s.roceSel).modRoce s.roceSel (fun r => { r with valid := false, st := if r.st = 2 then 2 else 0 })).net.roce[s.roceSel]?).any
    (fun x => !x.valid && x.st == (if r.st = 2 then 2 else 0) && x.reads.isEmpty && x.writes.isEmpty) = true := by
  obtain ⟨-, hsheds, -⟩ := (s.cfgRefused r v).roceEnds_says s.roceSel
  have hr' : (s.cfgRefused r v).net.roce[s.roceSel]? = some r := by
    rw [net_cfgRefused]
    exact hr
  obtain ⟨l, hl, hnone⟩ := hsheds s.roceSel _ (getElem_modRoce hr' emptied)
  obtain rfl : l = [] := hnone rfl
  rw [getElem_modRoce hl]
  by_cases hst : r.st = 2 <;> simp [emptied, hst]

end

end State

/-- Settles O54: the address filter comes before the answer, the pauses of other ports are kept, and a connection's operations end before its state does. -/
theorem networkPorts : Obligations.NetworkPorts := by
  unfold Obligations.NetworkPorts
  refine ⟨fun s p hserv hon hexists => ?_, fun s p hup hlen => ⟨fun hexists => ?_, fun hlink hs => ?_, fun hlink => ?_⟩,
    fun s a hopen hon hsize => State.exec_roceValidWrite_halves hopen hon hsize, fun s a r hopen hon hsize hr => ?_, fun s c r hserv hr hst => ?_⟩
  · have hp : p < 10 := State.lt_of_npOn hon
    have hgo : ¬((!s.npOn p) = true ∨ (!s.npExists p) = true) := by
      rw [hon, hexists]
      decide
    refine ⟨fun tag len query target v6 => exec_whenServing hserv rfl ((if_neg hgo).trans (if_pos rfl)), fun tag len query target v6 => ?_,
      fun prios quanta => ⟨s.pausedBy p prios quanta, exec_whenServing hserv rfl (if_neg hgo), rfl, fun k q hmem hk hprio hhon => State.mem_pauseBy hmem hprio hhon,
        fun p' k q hne => State.mem_pauseBy_ne hne⟩, fun prio o => State.sendPrio_holds hp o, fun prio o => State.sendPrio_sends hp o⟩
    intro tagged
    have hok := s.frameOk_iff p len tag
    refine ⟨fun ⟨hlen, htag, hquery, htarget⟩ => ?_, fun hno => ?_⟩
    · exact exec_whenServing hserv rfl ((if_neg hgo).trans ((if_neg (by decide)).trans (if_pos ⟨hok.mpr ⟨hlen, htag⟩, hquery, htarget⟩)))
    · refine exec_whenServing hserv rfl ((if_neg hgo).trans ((if_neg (by decide)).trans (if_neg ?_)))
      rintro ⟨hframe, hquery, htarget⟩
      obtain ⟨hlen, htag⟩ := hok.mp hframe
      exact hno ⟨hlen, htag, hquery, htarget⟩
  · refine ⟨_, congrArg Host.Outcome.next (if_pos ⟨hup, hexists⟩), rfl, ?_⟩
    show (s.net.link.modify p _)[p]? = _
    rw [List.getElem?_modify_eq, List.getElem?_eq_getElem hlen]
    rfl
  · exact ⟨_, State.exec_npLinkDown hup hlink, State.npLinkDown_says hlink hs hs.shape.roce.symm⟩
  · refine congrArg Host.Outcome.next (if_neg ?_)
    rw [List.getD_eq_getElem?_getD, hlink]
    exact fun h => Bool.noConfusion h.2
  · have hexec := State.exec_roceValidWrite_word hopen hon hsize
    have hstart := State.writeRoceCfg_start (a := a) hr
    have hfields := State.writeRoceCfg_fields (a := a) hr
    have hkept := State.writeRoceCfg_kept (a := a) hr
    have hoff := State.writeRoceCfg_off (a := a) hr
    intro v
    have hv : rwInto a Reg.NP_ROCE_CFG r.cfg = v := rfl
    rw [hv] at hstart hfields hkept hoff
    clear_value v
    refine ⟨fun hval hgo => ?_, fun hval hgo => hexec.trans (congrArg _ (hfields hval hgo)), fun hval hgo => hexec.trans (congrArg _ (hkept hval hgo)), fun hval hgo => ?_⟩
    · refine ⟨_, hexec.trans (congrArg _ (hstart hval hgo)), rfl, ?_⟩
      rw [State.getElem_modRoce hr, Option.any_some]
      exact r.start_says v s.time.gtime
    · exact ⟨_, hexec.trans (congrArg _ (hoff hval hgo)), State.roce_off hr _⟩
  · have hroce := State.roce_of_getElem hr
    have hput (f : Roce → Roce) : s.modRoce c f = s.modRoce c (fun _ => f r) := State.modRoce_eq_put hr f
    intro put
    refine ⟨fun psn k n first m rest rows hreads hrows => ?_, fun psn i hidx hdump => ?_, fun psn hidx => ?_, fun q hq hpast => ?_, fun hq => ?_,
      exec_whenServing hserv rfl rfl, fun cause hloads hdump => State.roceError_idle hr hst cause hloads hdump, ?_, ?_⟩
    · intro got left
      refine exec_whenServing hserv rfl ?_
      simp only [hroce, hreads]
      refine (if_neg ?_).trans ?_
      · rw [hst]
        simpa using hrows
      · rw [hput]
    · refine exec_whenServing hserv rfl ?_
      simp only [hroce, hidx]
      refine (if_neg (Classical.not_not.mpr hst)).trans ((if_neg ?_).trans ?_)
      · rw [hdump]
        exact fun h => Bool.false_ne_true h.2.1
      · rw [hput]
        simp only [hdump, Bool.false_and]
        rfl
    · refine exec_whenServing hserv rfl ?_
      simp only [hroce, hidx]
    · refine exec_whenServing hserv rfl ?_
      simp only [hroce, hq]
      refine (if_neg ?_).trans ?_
      · rw [hst, show s.reached (r.since.toNat + us r.ackUs) = true from State.reached_of_le hpast]
        simp
      · rw [hput]
    · refine exec_whenServing hserv rfl ?_
      simp only [hroce, hq]
    · refine exec_whenServing hserv rfl ?_
      rw [hroce, if_pos hst, hput]
    · refine exec_whenServing hserv rfl ?_
      have hwait : us 50 = 200000 := rfl
      simp only [hroce, hwait]
      by_cases hgo : r.rate < 100 ∧ r.rateAt.toNat + 200000 ≤ s.time.gtime.toNat
      · rw [if_pos hgo, hput]
        exact if_pos ⟨hst, hgo.1, State.reached_of_le hgo.2⟩
      · rw [if_neg hgo]
        exact if_neg fun ⟨_, hrate, hpast⟩ => hgo ⟨hrate, of_decide_eq_true hpast⟩

end Sys2Proof.Machine

/-! What goes out only grows, and the host's accesses to the general region (R469, R471, R476): the first part of what settles O52. -/

namespace Sys2Proof.Machine

namespace State

/-! ## What goes out grows -/

/-- From s to t the part has only sent more. -/
structure grows (s t : State) : Prop where
  more : ∃ l, t.out = s.out ++ l

theorem grows_refl (s : State) : s.grows s := ⟨[], (List.append_nil _).symm⟩

theorem grows_of_out {s t : State} (h : t.out = s.out) : s.grows t := ⟨[], by rw [h, List.append_nil]⟩

theorem grows_trans {s t u : State} (h1 : s.grows t) (h2 : t.grows u) : s.grows u := by
  obtain ⟨l1, hl1⟩ := h1.more
  obtain ⟨l2, hl2⟩ := h2.more
  exact ⟨l1 ++ l2, by rw [hl2, hl1, List.append_assoc]⟩

theorem grows_foldl {α : Type} {f : State → α → State} (hf : ∀ (s : State) (x : α), s.grows (f s x)) (l : List α) (s : State) : s.grows (l.foldl f s) :=
  List.foldlRecOn l f (motive := s.grows) s.grows_refl fun t h x _ => grows_trans h (hf t x)

theorem grows_emit (s : State) (o : Out) : s.grows (s.emit o) := ⟨[o], rfl⟩

theorem grows_latch (s : State) (a k : Nat) : s.grows (s.latch a k) := ⟨s.out_latch a k⟩

theorem onlySends.grows {s t : State} (h : s.onlySends t) : s.grows t := ⟨h.2.2.imp fun _ h => h.symm⟩

theorem grows_sendFrame (s : State) (p : Nat) (o : Out) : s.grows (s.sendFrame p o) := ⟨[o], rfl⟩

theorem grows_sendPrio (s : State) (p prio : Nat) (o : Out) : s.grows (s.sendPrio p prio o) := by
  unfold sendPrio
  split
  · exact s.grows_refl
  · split
    · exact grows_of_out rfl
    · exact s.grows_sendFrame p o

theorem grows_log (s : State) (sev code unit : Nat) (ctx : Option Nat) (i0 i1 i2 : Nat) : s.grows (s.log sev code unit ctx i0 i1 i2) := by
  unfold log
  extract_lets r ras' s1 s2
  have h1 : s.grows s1 := grows_of_out rfl
  have h2 : s.grows s2 := by
    simp only [s2]
    split
    · exact grows_trans h1 (s1.grows_latch _ 8)
    · exact h1
  split
  · exact grows_trans h2 (s2.grows_emit _)
  · exact h2

/-! ## The loss of the part -/

theorem grows_reportZero (s : State) (h v : Nat) : s.grows (s.reportZero h v) := by
  unfold reportZero
  split
  · exact s.grows_refl
  · split
    · split
      · split
        · exact grows_of_out rfl
        · split
          · exact (s.onlySends_write _ _ _).grows
          · exact s.grows_refl
      · exact s.grows_refl
    · exact s.grows_refl

theorem grows_dropRef (s : State) (hv : Nat × Nat) : s.grows (s.dropRef hv) :=
  grows_trans (grows_of_out (t := s.modVer hv.1 hv.2 (fun w => { w with refs := w.refs - 1 })) rfl) (grows_reportZero _ _ _)

theorem grows_repick (s : State) (cl : Nat) : s.grows (s.repick cl) := by
  refine grows_of_out ?_
  unfold repick
  split
  · rfl
  · split
    · rfl
    · split <;> rfl

theorem grows_releaseCtx (s : State) (id : Nat) : s.grows (s.releaseCtx id) := by
  cases hc : s.ctx? id with
  | none =>
    unfold releaseCtx
    rw [hc]
    exact s.grows_refl
  | some c =>
    have hrefs : s.grows ((s.freeClusters c).dropRefs c.versions) :=
      grows_trans (grows_of_out (t := s.freeClusters c) rfl) (grows_foldl grows_dropRef _ _)
    have hlist : s.grows (s.unlisted c id) := by
      unfold unlisted
      dsimp only
      split
      · exact grows_trans hrefs (grows_of_out rfl)
      · exact grows_trans hrefs (grows_of_out rfl)
    rw [releaseCtx_eq hc]
    exact grows_trans hlist (grows_foldl grows_repick _ _)

theorem grows_dropContexts (s : State) : s.grows s.dropContexts :=
  grows_trans (grows_foldl grows_releaseCtx (s.ctxs.map (·.id)) s) (grows_of_out rfl)

theorem grows_writeDump (s : State) (code : Nat) : s.grows (s.writeDump code).2 := by
  unfold writeDump
  dsimp only
  split
  · exact s.grows_refl
  · split
    · exact s.grows_refl
    · exact grows_trans (grows_of_out (t := s.modRoce _ _) rfl) (grows_sendPrio _ _ _ _)

theorem grows_silenced (s : State) (code : Nat) : s.grows (s.silenced code) := by
  have hdrop : s.grows s.cleared :=
    grows_trans (grows_of_out (t := { s with pwr := { s.pwr with lost := true } }) rfl) (grows_dropContexts { s with pwr := { s.pwr with lost := true } })
  have htell := grows_trans hdrop (onlySends_tellLost s.cleared).grows
  unfold silenced
  dsimp only
  split
  · exact grows_trans (grows_trans htell (grows_writeDump _ code)) (grows_of_out rfl)
  · exact grows_trans htell (grows_of_out rfl)

theorem grows_lastGasp (s : State) (code : Nat) : s.grows (s.lastGasp code) := by
  unfold lastGasp
  exact grows_trans (s.grows_log ..) (grows_of_out rfl)

theorem grows_declareLost (s : State) (code : Nat) : s.grows (s.declareLost code) := by
  cases h : s.pwr.lost with
  | true =>
    rw [declareLost_lost h]
    exact s.grows_refl
  | false =>
    rw [declareLost_eq h]
    have hfatal : s.grows (s.fatallyLost code) := by
      unfold fatallyLost
      exact grows_trans (grows_trans (s.grows_silenced code) (grows_latch _ _ 6)) (grows_of_out rfl)
    exact grows_trans hfatal (grows_lastGasp _ code)

/-! ## Errors of HBM -/

theorem grows_ueNoted (s : State) (k pc granule : Nat) : s.grows (s.ueNoted k pc granule) := by
  unfold ueNoted
  extract_lets recent s1
  have hlatch : s.grows (((s.count (Reg.MEM_UE k) 1).memErr k 2 pc granule).latch Reg.HST_STATUS 3) :=
    grows_trans (grows_of_out (t := (s.count (Reg.MEM_UE k) 1).memErr k 2 pc granule) rfl) (grows_latch _ _ 3)
  have h1 : s.grows s1 := grows_trans hlatch (grows_log ..)
  exact grows_trans h1 (grows_of_out rfl)

theorem grows_failStack (s : State) (k : Nat) : s.grows (s.failStack k) := by
  unfold failStack
  exact grows_trans (grows_of_out (t := { s with mem := { s.mem with state := listMod s.mem.state k (fun _ => 2) } }) rfl) (grows_declareLost _ _)

theorem grows_memUncorrectable (s : State) (k pc granule : Nat) : s.grows (s.memUncorrectable k pc granule) := by
  have hnoted := s.grows_ueNoted k pc granule
  rw [memUncorrectable_eq]
  generalize s.ueNoted k pc granule = u at hnoted ⊢
  split
  · exact grows_trans hnoted (u.grows_failStack k)
  · exact hnoted

theorem memBadRead_eq (s : State) (a : Nat) : s.memBadRead a = s.memUncorrectable (s.devPlace a).1 (s.devPlace a).2.2 ((s.devPlace a).2.1 / 32) := by
  unfold memBadRead
  generalize s.devPlace a = x
  rfl

theorem poisonRead_eq (s : State) (a : Nat) : s.poisonRead a = (s.memErr (s.devPlace a).1 3 (s.devPlace a).2.2 ((s.devPlace a).2.1 / 32)).log 2 ST_MEM_POISON
    (6 * 4096 + (s.devPlace a).1 * 32 + (s.devPlace a).2.2) none 0 ((s.devPlace a).2.1 / 32) 0 := by
  unfold poisonRead
  generalize s.devPlace a = x
  rfl

theorem grows_memBadRead (s : State) (a : Nat) : s.grows (s.memBadRead a) := by
  rw [memBadRead_eq]
  exact s.grows_memUncorrectable _ _ _

theorem grows_poisonRead (s : State) (a : Nat) : s.grows (s.poisonRead a) := by
  rw [poisonRead_eq]
  exact grows_trans (grows_of_out (t := s.memErr _ _ _ _) rfl) (grows_log ..)

/-- The part may be lost, and what its memory knows of its errors. -/
def erring (s t : State) : State :=
  { s with pwr := t.pwr, tables := t.tables, gpes := t.gpes, ctxs := t.ctxs, clusters := t.clusters, scripts := t.scripts, slots := t.slots, cueNames := t.cueNames,
           link := t.link, net := t.net, ras := t.ras, mem := t.mem, regs := t.regs, out := t.out }

theorem within_setRegN (s : State) (a n : Nat) : s.within events (s.setRegN a n) := rfl

theorem within_memErr (s : State) (k kind pc granule : Nat) : s.within events (s.memErr k kind pc granule) := by
  unfold memErr
  exact s.within_setRegN _ _

theorem within_ueNoted (s : State) (k pc granule : Nat) : s.within erring (s.ueNoted k pc granule) := by
  unfold ueNoted
  extract_lets recent s1
  have hlatch : s.within erring (((s.count (Reg.MEM_UE k) 1).memErr k 2 pc granule).latch Reg.HST_STATUS 3) :=
    within_mono (within_trans (within_trans (s.within_count _ 1) (within_memErr _ k 2 pc granule)) (within_latch _ _ 3))
  have h1 : s.within erring s1 := within_trans hlatch (within_mono (within_log ..))
  clear_value s1
  exact within_trans h1 rfl

theorem within_failStack (s : State) (k : Nat) : s.within erring (s.failStack k) := by
  unfold failStack
  exact within_trans (take := erring) (t := { s with mem := { s.mem with state := listMod s.mem.state k (fun _ => 2) } }) rfl (within_mono (within_declareLost _ _))

theorem within_memUncorrectable (s : State) (k pc granule : Nat) : s.within erring (s.memUncorrectable k pc granule) := by
  have hnoted := s.within_ueNoted k pc granule
  rw [memUncorrectable_eq]
  generalize s.ueNoted k pc granule = u at hnoted ⊢
  split
  · exact within_trans hnoted (u.within_failStack k)
  · exact hnoted

theorem within_memBadRead (s : State) (a : Nat) : s.within erring (s.memBadRead a) := by
  rw [memBadRead_eq]
  exact s.within_memUncorrectable _ _ _

theorem within_poisonRead (s : State) (a : Nat) : s.within erring (s.poisonRead a) := by
  rw [poisonRead_eq]
  exact within_mono (within_trans (within_mono (take' := records) (s.within_memErr _ 3 _ _)) (within_log ..))

end State

end Sys2Proof.Machine

/-! Host ports, decoders and the host's accesses to the general region (R449 to R451, R454, R469 to R472, R476, R480 to R483): what settles O52. -/

namespace Sys2Proof.Machine

namespace State

/-! ## The end of a launch -/

/-- The launches with their clusters and scripts, the commands of the slots, and events; of the host at most waits end. -/
def launchEnding (s t : State) : State :=
  { s with ctxs := t.ctxs, clusters := t.clusters, scripts := t.scripts, slots := t.slots, freeCtr := t.freeCtr, host := { t.host with ports := s.host.ports },
           regs := t.regs, out := t.out }

theorem within_noteFate (s : State) (fate : Nat) : s.within events (s.noteFate fate) := by
  unfold noteFate
  split
  · exact within_trans (s.within_latch _ 5) (within_count _ _ _)
  · exact within_trans (s.within_latch _ 5) (within_count _ _ _)
  · exact within_trans (s.within_latch _ 5) (within_count _ _ _)
  · rfl

/-- What an ended launch leaves in its script and its slot's mean, before its fate is noted. -/
def accounted (s : State) (c : Ctx) : State :=
  let good := c.status = some ST_OK ∧ !c.swapped
  let wall := c.finish.toNat - c.admitG.toNat
  let s1 := s.modEdition c.script c.edition (fun e =>
    let e1 := e.roll c.finish.toNat
    if good then (e1.learn (c.finish.toNat - c.t0.toNat) c.safePoints).least wall else e1)
  let (x, s2) := s1.free
  let slip := slipOf ((s2.edition? c.script c.edition).bind (·.ref)) wall c.swapped x.toNat
  let s3 := s2.setRegN (Reg.Q_SLIP c.slot) (slipMean (s2.regF (Reg.Q_SLIP c.slot) 15 0) slip)
  s3.modCtx c.id (fun c => { c with slip := slip })

theorem account_eq (s : State) (c : Ctx) : s.account c = (s.accounted c).noteFate c.fate := rfl

theorem within_accounted (s : State) (c : Ctx) : s.within launchEnding (s.accounted c) := rfl

theorem within_account (s : State) (c : Ctx) : s.within launchEnding (s.account c) := by
  rw [account_eq]
  exact within_trans (s.within_accounted c) (within_mono (within_noteFate _ _))

theorem within_finishLaunch (s : State) (id : Nat) : s.within launchEnding (s.finishLaunch id) := by
  unfold finishLaunch
  split
  · rfl
  · extract_lets st c1 s1
    have h1 : s.within launchEnding s1 := rfl
    split
    · exact h1
    · split
      · exact within_trans h1 (within_account _ _)
      · exact within_trans (within_trans h1 (within_account _ _)) rfl

/-- The launch that a cluster goes on with. -/
def picking (s t : State) : State := { s with ctxs := t.ctxs, clusters := t.clusters }

theorem within_repick_picking (s : State) (cl : Nat) : s.within picking (s.repick cl) := by
  unfold repick
  split
  · rfl
  · split
    · rfl
    · split <;> rfl

theorem within_settleCtx (s : State) (id : Nat) : s.within launchEnding (s.settleCtx id) := by
  unfold settleCtx
  split
  · rfl
  · split
    · rfl
    · split
      · extract_lets s1
        have h1 : s.within launchEnding s1 := rfl
        exact within_trans h1 (within_foldl (take := launchEnding) _ (fun s x => within_mono (s.within_repick_picking x)) _ _)
      · exact s.within_finishLaunch id

theorem within_endLaunch (s : State) (id st : Nat) : s.within launchEnding (s.endLaunch id st) := rfl

/-! ## A host port that goes down -/

/-- What the end of a host port's link changes beside the port. -/
def unhosting (s t : State) : State :=
  { s with ctxs := t.ctxs, clusters := t.clusters, scripts := t.scripts, slots := t.slots, loads := t.loads, commits := t.commits, hbm := t.hbm, link := t.link,
           net := t.net, mgmt := t.mgmt, freeCtr := t.freeCtr, host := { t.host with ports := s.host.ports }, regs := t.regs, out := t.out }

theorem within_slotError (s : State) (k st : Nat) : s.within unhosting (s.slotError k st) := rfl

theorem within_freeBytes (s : State) (n : Nat) : s.within unhosting (s.freeBytes n).2 := by
  induction n generalizing s with
  | zero => rfl
  | succ n ih => exact within_trans (take := unhosting) (t := s.free.2) rfl (ih _)

theorem within_openRuns (s : State) {put : State → Nat → Bytes → State} (hput : ∀ (s : State) (r : Nat) (b : Bytes), s.within unhosting (put s r b)) (x : Xfer) :
    s.within unhosting (s.openRuns put x) := by
  refine within_foldl (take := unhosting) _ ?_ _ s
  intro s r
  exact within_trans (s.within_freeBytes (x.lenAt r)) (hput _ _ _)

theorem within_copyFails (s : State) (k n : Nat) (x : Xfer) (st : Nat) : s.within unhosting (s.copyFails k n x st) := by
  unfold copyFails
  refine within_trans (s.within_openRuns ?_ x) rfl
  intro s r b
  split <;> rfl

theorem within_endLoad (s : State) (k n st : Nat) : s.within unhosting (s.endLoad k n (some st)) := within_mono (s.endLoad_says k n st).1

theorem within_failBulk (s : State) (k n st : Nat) : s.within unhosting (s.failBulk k n st) := by
  unfold failBulk
  split
  · exact s.within_endLoad k n st
  · split
    · exact s.within_copyFails k n _ st
    · rfl

theorem within_failReq (s : State) (who : XReq) (st : Nat) : s.within unhosting (s.failReq who st) := by
  cases who with
  | fetch k => rfl
  | record k => rfl
  | args c => exact within_mono (within_trans (s.within_endLaunch c st) (within_settleCtx _ c))
  | bulk k n => exact s.within_failBulk k n st
  | te cl c op => rfl

theorem within_failTransfers (s : State) (p : Nat) : s.within unhosting (s.failTransfers p) := by
  unfold failTransfers
  extract_lets slots hosted s1 s2
  have h1 : s.within unhosting s1 := by
    refine within_foldl (take := unhosting) _ ?_ _ s
    intro s k
    refine within_foldl (take := unhosting) _ ?_ _ s
    intro s c
    split
    · split
      · exact s.within_copyFails _ _ _ _
      · rfl
    · split <;> rfl
  have h2 : s1.within unhosting s2 := by
    refine within_foldl (take := unhosting) _ ?_ _ s1
    intro s l
    exact s.within_endLoad _ _ _
  refine within_trans (within_trans h1 h2) (within_foldl (take := unhosting) _ ?_ _ s2)
  intro s c
  refine within_foldl (take := unhosting) _ ?_ _ s
  intro s k
  refine within_foldl (take := unhosting) _ ?_ _ s
  intro s o
  rfl

/-! ## Those steps keep a part sound -/

namespace Sound

variable {s : State}

theorem modEdition {h e : Nat} {f : Edition → Edition} (hs : s.Sound) : (s.modEdition h e f).Sound := hs
theorem modOn {id cl : Nat} {f : ClCtx → ClCtx} (h : s.Sound) : (s.modOn id cl f).Sound := h
theorem modEng {cl ctx id : Nat} {f : EngOp → EngOp} (h : s.Sound) : (s.modEng cl ctx id f).Sound := h

theorem noteFate {fate : Nat} (h : s.Sound) : (s.noteFate fate).Sound := by
  unfold State.noteFate
  split
  · exact h.latch.count
  · exact h.latch.count
  · exact h.latch.count
  · exact h

theorem account {c : Ctx} (h : s.Sound) : (s.account c).Sound := by
  rw [account_eq]
  have hacc : (s.accounted c).Sound := h.setReg
  exact hacc.noteFate

theorem finishLaunch {id : Nat} (h : s.Sound) : (s.finishLaunch id).Sound := by
  unfold State.finishLaunch
  split
  · exact h
  · extract_lets st c1 s1
    have h1 : s1.Sound := h
    split
    · exact h1
    · split
      · exact h1.account
      · exact h1.account.endCmd

theorem settleCtx {id : Nat} (h : s.Sound) : (s.settleCtx id).Sound := by
  unfold State.settleCtx
  split
  · exact h
  · split
    · exact h
    · split
      · exact foldl (fun _ h => h.repick) _ h.freeClusters.modCtx
      · exact h.finishLaunch

theorem endLaunch {id st : Nat} (h : s.Sound) : (s.endLaunch id st).Sound := h

theorem failCtx {id st : Nat} (h : s.Sound) : (s.failCtx id st).Sound := h.endLaunch.settleCtx

theorem slotError {k st : Nat} (h : s.Sound) : (s.slotError k st).Sound := h.modSlot

theorem openRuns {put : State → Nat → Bytes → State} (hput : ∀ {s : State} r b, s.Sound → (put s r b).Sound) (x : Xfer) (h : s.Sound) :
    (s.openRuns put x).Sound := foldl (fun r h => hput r _ (freeBytes (x.lenAt r) h)) _ h

theorem copyFails {k n st : Nat} {x : Xfer} (h : s.Sound) : (s.copyFails k n x st).Sound := by
  unfold State.copyFails
  refine (openRuns (fun r b h => ?_) x h).endCmd
  split
  · exact h.hbmWrite
  · exact h

theorem failBulk {k n st : Nat} (h : s.Sound) : (s.failBulk k n st).Sound := by
  unfold State.failBulk
  split
  · exact h.endLoad_some
  · split
    · exact h.copyFails
    · exact h.endCmd

theorem failReq {who : XReq} {st : Nat} (h : s.Sound) : (s.failReq who st).Sound := by
  cases who with
  | fetch k => exact h.slotError
  | record k => exact h.slotError.modSlot
  | args c => exact h.endLaunch.settleCtx
  | bulk k n => exact h.failBulk
  | te cl c op => exact h.modEng

theorem failTransfers {p : Nat} (h : s.Sound) : (s.failTransfers p).Sound := by
  unfold State.failTransfers
  extract_lets slots hosted s1 s2
  have h1 : s1.Sound := by
    refine foldl (fun k h => foldl (fun c h => ?_) _ h) _ h
    split
    · split
      · exact h.copyFails
      · exact h
    · split
      · exact h.endCmd
      · exact h
  have h2 : s2.Sound := foldl (fun l h => h.endLoad_some) _ h1
  exact foldl (fun c h => foldl (fun k h => foldl (fun o h => h.modEng) _ h) _ h) _ h2

end Sound

/-! ## HOST_LINK_DOWN -/

/-- A port that is down, with nothing that waits on it. -/
def unplugged (s : State) (p : Nat) : State :=
  let s1 := s.modHPort p (fun h => { h with up := false, width := 0, rate := 0 })
  { s1 with host := { s1.host with
      waits := s1.host.waits.filter (fun w => !(w.port == p)), full := s1.host.full.filter (fun w => !(w.port == p)), groups := s1.host.groups.filter (fun g => !(g.port == p)) } }

/-- What waited on the port, what runs over it and its slots have failed. -/
def hostLost (s : State) (p : Nat) : State :=
  let s3 := ((s.host.waits ++ s.host.full).filter (·.port == p)).foldl (fun s w => s.failReq w.who ST_HOST_PORT_DOWN) (s.unplugged p)
  let s4 := s3.failTransfers p
  ((List.range 9).filter (fun k => s4.qPort k == p && (s4.slot k).st != .off)).foldl (fun s k => s.slotError k ST_OK) s4

theorem exec_hostLinkDown {s : State} {p : Nat} (h : s.portIsUp p = true) : exec (.hostLinkDown p) s = .next ((s.hostLost p).latch Reg.HST_STATUS 2) :=
  congrArg Host.Outcome.next (if_neg (by rw [h]; decide))

theorem exec_hostLinkDown_down {s : State} {p : Nat} (h : s.portIsUp p = false) : exec (.hostLinkDown p) s = .next s :=
  congrArg Host.Outcome.next (if_pos (by rw [h]; rfl))

theorem within_hostLost (s : State) (p : Nat) : (s.unplugged p).within unhosting (s.hostLost p) := by
  unfold hostLost
  extract_lets s3 s4
  have h3 : (s.unplugged p).within unhosting s3 := by
    refine within_foldl (take := unhosting) _ ?_ _ _
    intro s w
    exact s.within_failReq _ _
  have h4 : s3.within unhosting s4 := s3.within_failTransfers p
  refine within_trans (within_trans h3 h4) (within_foldl (take := unhosting) _ ?_ _ s4)
  intro s k
  exact s.within_slotError _ _

theorem Sound.hostLost {s : State} (h : s.Sound) (p : Nat) : (s.hostLost p).Sound := by
  have h0 : (s.unplugged p).Sound := (h.modHPort (p := p) (f := fun h => { h with up := false, width := 0, rate := 0 })).host rfl
  unfold State.hostLost
  exact Sound.foldl (fun k h => h.slotError) _ (Sound.foldl (fun w h => h.failReq) _ h0).failTransfers

end State

end Sys2Proof.Machine

/-! The statements about the host's memory: what settles O52. -/

namespace Sys2Proof.Machine

namespace State

/-! ## One port -/

section
variable {s : State} {p : Nat} {h : HPort} (hp : s.host.ports[p]? = some h)
include hp

theorem getElem_modHPort (f : HPort → HPort) : (s.modHPort p f).host.ports[p]? = some (f h) := by
  show (s.host.ports.modify p f)[p]? = _
  rw [List.getElem?_modify_eq, hp]
  rfl

/-- A change that leaves the port as it is changes nothing. -/
theorem modHPort_self {f : HPort → HPort} (hf : f h = h) : s.modHPort p f = s := by
  have hlist : s.host.ports.modify p f = s.host.ports := by
    apply List.ext_getElem?
    intro j
    by_cases hj : p = j
    · rw [← hj, List.getElem?_modify_eq, hp]
      exact congrArg some hf
    · rw [List.getElem?_modify_ne _ _ hj]
  unfold modHPort listMod
  rw [hlist]

theorem portIsUp_of_getElem : s.portIsUp p = h.up := by
  rw [portIsUp, hp]
  rfl

end

theorem host_latch (s : State) (a k : Nat) : (s.latch a k).host = s.host := by rw [latch_frame]

theorem hostLinkDown_says {s : State} {p : Nat} {h : HPort} (hp : s.host.ports[p]? = some h) (hs : s.Sound) : let t := (s.hostLost p).latch Reg.HST_STATUS 2
    t.host.ports[p]? = some { h with up := false, width := 0, rate := 0 } ∧ t.regB Reg.HST_STATUS 2 = true ∧ t.tables = s.tables ∧ t.time = s.time := by
  have hframe := s.within_hostLost p
  refine ⟨?_, regB_latch (hs.hostLost p).mem (by decide) (by decide), ?_, ?_⟩
  · rw [host_latch, hframe]
    exact getElem_modHPort hp _
  · rw [latch_frame, hframe]
    rfl
  · rw [latch_frame, hframe]
    rfl

/-! ## HST_HDM -/

theorem emits_eq (l : List Nat) (f : Nat → Out) (s : State) : l.foldl (fun s p => s.emit (f p)) s = { s with out := s.out ++ l.map f } := by
  induction l generalizing s with
  | nil => rw [List.foldl_nil, List.map_nil, List.append_nil]
  | cons x l ih =>
    rw [List.foldl_cons, ih]
    simp only [emit, List.append_assoc, List.singleton_append, List.map_cons]

/-! ## Accesses -/

theorem mem_insertAll {g : Nat} (bad : List Nat) (l : List Nat) : (g ∈ bad ∨ g ∈ l) → g ∈ bad.foldl (fun l g => insertNew g l) l := by
  induction bad generalizing l with
  | nil => exact fun h => h.elim (fun h => absurd h List.not_mem_nil) id
  | cons x bad ih =>
    intro h
    refine ih (insertNew x l) ?_
    rcases h with h | h
    · rcases List.mem_cons.mp h with rfl | h
      · exact .inr (mem_insertNew g l)
      · exact .inl h
    · refine .inr ?_
      unfold insertNew
      split
      · exact h
      · exact List.mem_append_left _ h

/-- The errors of a host read have been noted. -/
def readErrors (s : State) (bad old : List Nat) : State := old.foldl (fun s g => s.poisonRead (32 * g)) (bad.foldl (fun s g => s.memBadRead (32 * g)) s)

theorem within_readErrors (s : State) (bad old : List Nat) : s.within erring (s.readErrors bad old) := by
  have hbad : s.within erring (bad.foldl (fun s g => s.memBadRead (32 * g)) s) := by
    refine within_foldl (take := erring) _ ?_ bad s
    intro s g
    exact s.within_memBadRead _
  refine within_trans hbad (within_foldl (take := erring) _ ?_ old _)
  intro s g
  exact s.within_poisonRead _

theorem grows_readErrors (s : State) (bad old : List Nat) : s.grows (s.readErrors bad old) :=
  grows_trans (grows_foldl (fun s g => s.grows_memBadRead (32 * g)) bad s) (grows_foldl (fun s g => s.grows_poisonRead (32 * g)) old _)

/-- Granules that a host read has found bad are poisoned from now on. -/
def marked (s : State) (bad : List Nat) : State :=
  { s with mem := { s.mem with poisoned := bad.foldl (fun l g => insertNew g l) s.mem.poisoned, bad := s.mem.bad.filter (fun g => !bad.contains g) } }

theorem cxlRead_eq (s : State) (addr a n : Nat) (keeps : Bool) : s.cxlRead addr a n keeps =
    (let s2 := (s.readErrors (granulesIn s.mem.bad a n) (granulesIn s.mem.poisoned a n)).marked (granulesIn s.mem.bad a n)
     (if keeps then s2.noteLine (a / 64) true else s2).emit (.cxlData addr (s.hbmRead a n) (!(granulesIn s.mem.bad a n).isEmpty || !(granulesIn s.mem.poisoned a n).isEmpty))) := rfl

theorem marked_nil (s : State) : s.marked [] = s := by
  have hall : s.mem.bad.filter (fun g => !([] : List Nat).contains g) = s.mem.bad := List.filter_eq_self.mpr fun g _ => rfl
  unfold marked
  rw [hall]
  rfl

/-- The host notes that it holds a line, or that it holds it no more. -/
def noted (s : State) (l : Nat) (keeps : Bool) : State := if keeps then s.noteLine l true else s

theorem noted_says (s : State) (l : Nat) (keeps : Bool) : s.noted l keeps = { s with mem := { s.mem with dirLines := (s.noted l keeps).mem.dirLines, snoops := (s.noted l keeps).mem.snoops } }
    ∧ (keeps = true → l ∈ (s.noted l keeps).mem.dirLines ∧ (l, false, true) ∉ (s.noted l keeps).mem.snoops) := by
  cases keeps with
  | false => exact ⟨rfl, fun h => Bool.noConfusion h⟩
  | true =>
    refine ⟨rfl, fun _ => ⟨mem_insertNew l _, fun hmem => ?_⟩⟩
    obtain ⟨-, hne⟩ := List.mem_filter.mp hmem
    simp at hne

/-- A host read of good memory. -/
theorem cxlRead_good {s : State} {addr a n : Nat} {keeps : Bool} (hbad : granulesIn s.mem.bad a n = []) (hold : granulesIn s.mem.poisoned a n = []) :
    s.cxlRead addr a n keeps = (s.noted (a / 64) keeps).emit (.cxlData addr (s.hbmRead a n) false) := by
  rw [cxlRead_eq, hbad, hold, show (s.readErrors [] []).marked [] = s from s.marked_nil]
  rfl

/-- A host read of a range with a bad or a poisoned granule. -/
theorem cxlRead_poison {s : State} {addr a n : Nat} {keeps : Bool} (h : granulesIn s.mem.bad a n ≠ [] ∨ granulesIn s.mem.poisoned a n ≠ []) :
    s.cxlRead addr a n keeps = (((s.readErrors (granulesIn s.mem.bad a n) (granulesIn s.mem.poisoned a n)).marked (granulesIn s.mem.bad a n)).noted (a / 64) keeps).emit
      (.cxlData addr (s.hbmRead a n) true) := by
  have hany : (!(granulesIn s.mem.bad a n).isEmpty || !(granulesIn s.mem.poisoned a n).isEmpty) = true := by
    rcases h with h | h
    · rw [List.isEmpty_eq_false_iff.mpr h]
      rfl
    · rw [List.isEmpty_eq_false_iff.mpr h]
      exact Bool.or_true _
  rw [cxlRead_eq, hany]
  rfl

theorem marked_says (s : State) (bad : List Nat) : ∀ g ∈ bad, g ∈ (s.marked bad).mem.poisoned ∧ g ∉ (s.marked bad).mem.bad := fun g hg =>
  ⟨mem_insertAll bad _ (.inl hg), fun hmem => by
    obtain ⟨-, hnot⟩ := List.mem_filter.mp hmem
    simp [hg] at hnot⟩

/-- A host write has stored its bytes, before the host's hold of the line is noted. -/
def cxlStored (s : State) (a : Nat) (b : Bytes) (poison : Bool) : State :=
  let s1 := s.devWrite a b
  if poison then { s1 with mem := { s1.mem with poisoned := (granulesOf a b.length).foldl (fun l g => insertNew g l) s1.mem.poisoned } } else s1

theorem cxlStored_says (s : State) (a : Nat) (b : Bytes) (poison : Bool) :
    s.cxlStored a b poison = { s with hbm := s.hbm.write a b, mem := (s.cxlStored a b poison).mem } := by
  unfold cxlStored
  dsimp only
  split <;> rfl

theorem holds_noteLine (s : State) (l : Nat) (keeps : Bool) : l ∈ (s.noteLine l keeps).mem.dirLines ↔ keeps = true := by
  cases keeps with
  | true => exact iff_of_true (mem_insertNew l _) rfl
  | false =>
    refine iff_of_false (fun hmem => ?_) Bool.false_ne_true
    obtain ⟨-, hne⟩ := List.mem_filter.mp hmem
    simp at hne

section
variable {s : State} {addr a : Nat} {b : Bytes} {poison keeps : Bool} (hopen : s.barOpen = true) (haddr : s.hdmAddr addr = some a) (hb : b ≠ [])
  (hline : a % 64 + b.length ≤ 64)
include hopen haddr hb hline

theorem exec_cxlMemAccess {write : Bool} {t : State} (ht : (if s.stackDown then if write then s else s.emit (.cxlData addr (s.hbmRead a b.length) true)
      else if write then s.cxlWrite a b poison keeps else s.cxlRead addr a b.length keeps) = t) : exec (.cxlMemAccess write addr b poison keeps) s = .next t := by
  refine exec_whenOpen hopen rfl ?_
  simp only [haddr]
  refine (if_neg ?_).trans ht
  rintro (hzero | hover)
  · exact hb (List.length_eq_zero_iff.mp hzero)
  · omega

end

/-! ## BISNP_COMPLETE -/

/-- The line that the host gives back, written if it was dirty. -/
def givenBack (s : State) (line : Nat) (dirty : Option Bytes) : State :=
  match dirty with
  | some b => s.devWrite (line * 64) (b.take 64)
  | none => s

theorem givenBack_says (s : State) (line : Nat) (dirty : Option Bytes) :
    s.givenBack line dirty = { s with hbm := (s.givenBack line dirty).hbm, mem := (s.givenBack line dirty).mem } ∧ (dirty = none → (s.givenBack line dirty).hbm = s.hbm)
      ∧ (∀ b, dirty = some b → b.length = 64 → s.Sound → (s.givenBack line dirty).hbm.read (line * 64) 64 = b) := by
  cases dirty with
  | none => exact ⟨rfl, fun _ => rfl, fun b hb => nomatch hb⟩
  | some b =>
    refine ⟨rfl, fun h => (nomatch h), fun b' hb' hlen hs => ?_⟩
    obtain rfl : b = b' := Option.some.inj hb'
    have htake : b.take 64 = b := List.take_of_length_le (Nat.le_of_eq hlen)
    obtain ⟨-, hwf, -⟩ := (memOk_iff s).mp hs.mem
    show (s.hbm.write (line * 64) (b.take 64)).read (line * 64) 64 = b
    rw [htake]
    have hread := Mem.read_write s.hbm (line * 64) b hwf
    rwa [hlen] at hread

end State

/-- Settles O52: a port that goes down keeps its decoder, and nothing that fails with it is a table; a write stores its bytes and no others; a read marks what it
found bad. -/
theorem hostMemory : Obligations.HostMemory := by
  unfold Obligations.HostMemory
  refine ⟨fun s p h hp => ⟨fun width rate cache mem hup hp2 hlo hhi => ?_, fun hup hs => ?_, fun hdown => ⟨?_, ?_⟩, fun hup => ?_, fun base hup hnone => ?_, fun base b hup hsome => ?_⟩,
    fun s v hopen => ⟨fun hbad => ?_, fun hfree hsplit => ?_⟩, fun s line => ⟨_, rfl, rfl, fun l => ?_⟩, fun s addr a b poison keeps hopen haddr hb hline => ⟨fun hstack => ?_, fun hstack => ?_,
      fun hstack => ⟨?_, ?_⟩⟩, fun s addr write b poison keeps hopen hnone => ?_, fun s line inv dirty hserv hfind => ?_⟩
  · exact ⟨_, congrArg Host.Outcome.next (if_pos ⟨hup, hp2, hlo, hhi⟩), rfl, rfl, rfl, State.getElem_modHPort hp _⟩
  · exact ⟨_, State.exec_hostLinkDown ((State.portIsUp_of_getElem hp).trans hup), State.hostLinkDown_says hp hs⟩
  · exact State.exec_hostLinkDown_down ((State.portIsUp_of_getElem hp).trans hdown)
  · exact congrArg Host.Outcome.next (if_neg (by rw [State.portIsUp_of_getElem hp, hdown]; decide))
  · exact congrArg Host.Outcome.next (if_pos ((State.portIsUp_of_getElem hp).trans hup))
  · refine ⟨_, congrArg Host.Outcome.next (if_pos ((State.portIsUp_of_getElem hp).trans hup)), rfl, ?_⟩
    rw [State.getElem_modHPort hp, hnone]
    rfl
  · refine congrArg Host.Outcome.next ((if_pos ((State.portIsUp_of_getElem hp).trans hup)).trans (State.modHPort_self hp ?_))
    rw [hsome]
    rfl
  · refine exec_whenOpen hopen rfl (if_pos ?_)
    exact hbad
  · intro u
    have hgo : ¬(s.committed = true ∨ fld v.toNat 15 14 = 3) := not_or.mpr ⟨ne_true_of_eq_false hfree, hsplit⟩
    exact ⟨_, exec_whenOpen hopen rfl ((if_neg hgo).trans (State.emits_eq _ _ u)), rfl, rfl⟩
  · show l ∈ List.filter _ _ ↔ _
    simp
  · have hexec := State.exec_cxlMemAccess (poison := poison) (keeps := keeps) (write := true) hopen haddr hb hline
      ((if_neg (ne_true_of_eq_false hstack)).trans (if_pos rfl))
    have hstored := s.cxlStored_says a b poison
    refine ⟨(s.cxlStored a b poison).noteLine (a / 64) keeps, hexec, ?_, fun hs => ?_, fun c hc => ?_, State.holds_noteLine _ _ keeps⟩
    · rw [hstored]
      rfl
    · obtain ⟨-, hwf, -⟩ := (State.memOk_iff s).mp hs.mem
      rw [hstored]
      exact Mem.read_write s.hbm a b hwf
    · rw [hstored]
      exact Mem.get_write_ne s.hbm a c b hc
  · intro bad old
    have hexec := State.exec_cxlMemAccess (poison := poison) (keeps := keeps) (write := false) hopen haddr hb hline
      ((if_neg (ne_true_of_eq_false hstack)).trans (if_neg Bool.false_ne_true))
    refine ⟨fun hbad hold => ?_, fun hany => ?_⟩
    · obtain ⟨hnoted, hholds⟩ := s.noted_says (a / 64) keeps
      refine ⟨_, hexec.trans (congrArg _ (State.cxlRead_good hbad hold)), ?_, ?_, hholds⟩
      · rw [hnoted]
        rfl
      · rw [hnoted]
        rfl
    · have herr := s.within_readErrors bad old
      obtain ⟨l, hl⟩ := (s.grows_readErrors bad old).more
      have hmarked := (s.readErrors bad old).marked_says bad
      have hexec := hexec.trans (congrArg _ (State.cxlRead_poison hany))
      generalize s.readErrors bad old = u at herr hl hmarked hexec
      obtain ⟨hnoted, -⟩ := (u.marked bad).noted_says (a / 64) keeps
      refine ⟨_, l, hexec, ?_, ?_, fun g hg => ?_⟩
      · rw [hnoted, ← hl]
        rfl
      · rw [hnoted, herr]
        rfl
      · rw [hnoted]
        exact hmarked g hg
  · exact State.exec_cxlMemAccess hopen haddr hb hline (if_pos hstack)
  · exact State.exec_cxlMemAccess hopen haddr hb hline (if_pos hstack)
  · refine exec_whenOpen hopen rfl ?_
    simp only [hnone]
  · obtain ⟨hback, hclean, hdirty⟩ := s.givenBack_says line dirty
    have hexec : exec (.bisnpComplete line dirty) s = .next (let s1 := s.givenBack line dirty
        let rest := s1.mem.snoops.erase (line, inv, false)
        if inv then { s1 with mem := { s1.mem with snoops := rest, dirLines := s1.mem.dirLines.filter (· != line) } }
        else { s1 with mem := { s1.mem with snoops := rest ++ [(line, false, true)] } }) := by
      refine exec_whenServing hserv rfl ?_
      simp only [hfind]
      rfl
    generalize s.givenBack line dirty = u at hback hclean hdirty hexec
    cases inv with
    | true =>
      refine ⟨_, hexec, ?_, fun _ hmem => ?_, fun h => Bool.noConfusion h, hclean, hdirty⟩
      · rw [hback]
        rfl
      · obtain ⟨-, hne⟩ := List.mem_filter.mp hmem
        simp at hne
    | false =>
      refine ⟨_, hexec, ?_, fun h => Bool.noConfusion h, fun _ => List.mem_append_right _ (List.mem_singleton_self _), hclean, hdirty⟩
      rw [hback]
      rfl

end Sys2Proof.Machine

/-! Translations, page requests, their failures and invalidations (R452, R456 to R463, R486): what settles O51. -/

namespace Sys2Proof.Machine

namespace State

/-! ## What the failure of a requester leaves of the host's state -/

/-- From s to t no wait has come, and the ports and the page requests have stayed. -/
structure sheds (s t : State) : Prop where
  ports : t.host.ports = s.host.ports
  groups : t.host.groups = s.host.groups
  nextId : t.host.nextId = s.host.nextId
  waits : ∀ w ∈ t.host.waits, w ∈ s.host.waits
  full : ∀ w ∈ t.host.full, w ∈ s.host.full

theorem sheds_of_host {s t : State} (h : t.host = s.host) : s.sheds t := by
  refine ⟨?_, ?_, ?_, fun w hw => ?_, fun w hw => ?_⟩
  · rw [h]
  · rw [h]
  · rw [h]
  · rwa [h] at hw
  · rwa [h] at hw

theorem sheds_refl (s : State) : s.sheds s := sheds_of_host rfl

theorem sheds_trans {s t u : State} (h1 : s.sheds t) (h2 : t.sheds u) : s.sheds u :=
  ⟨h2.ports.trans h1.ports, h2.groups.trans h1.groups, h2.nextId.trans h1.nextId, fun w hw => h1.waits w (h2.waits w hw), fun w hw => h1.full w (h2.full w hw)⟩

theorem sheds_foldl {α : Type} {f : State → α → State} (hf : ∀ (s : State) (x : α), s.sheds (f s x)) (l : List α) (s : State) : s.sheds (l.foldl f s) :=
  List.foldlRecOn l f (motive := s.sheds) s.sheds_refl fun t h x _ => sheds_trans h (hf t x)

theorem sheds_dropWaits (s : State) (p : XReq → Bool) : s.sheds (s.dropWaits p) :=
  ⟨rfl, rfl, rfl, fun _ hw => (List.mem_filter.mp hw).1, fun _ hw => (List.mem_filter.mp hw).1⟩

/-- Anything but the host's state. -/
def hostApart (s t : State) : State := { t with host := s.host }

theorem host_of_apart {s t : State} (h : s.within hostApart t) : t.host = s.host := by
  rw [h]
  rfl

theorem apart_account (s : State) (c : Ctx) : s.within hostApart (s.account c) := by
  rw [account_eq]
  exact within_trans (take := hostApart) (t := s.accounted c) rfl (within_mono (within_noteFate _ _))

theorem apart_finishLaunch (s : State) (id : Nat) : s.within hostApart (s.finishLaunch id) := by
  unfold finishLaunch
  split
  · rfl
  · extract_lets st c1 s1
    have h1 : s.within hostApart s1 := rfl
    split
    · exact h1
    · split
      · exact within_trans h1 (apart_account _ _)
      · exact within_trans (within_trans h1 (apart_account _ _)) rfl

theorem apart_settleCtx (s : State) (id : Nat) : s.within hostApart (s.settleCtx id) := by
  unfold settleCtx
  split
  · rfl
  · split
    · rfl
    · split
      · extract_lets s1
        have h1 : s.within hostApart s1 := rfl
        exact within_trans h1 (within_foldl (take := hostApart) _ (fun s x => within_mono (s.within_repick_picking x)) _ _)
      · exact s.apart_finishLaunch id

theorem apart_freeBytes (s : State) (n : Nat) : s.within hostApart (s.freeBytes n).2 := by
  induction n generalizing s with
  | zero => rfl
  | succ n ih => exact within_trans (take := hostApart) (t := s.free.2) rfl (ih _)

theorem apart_openRuns (s : State) {put : State → Nat → Bytes → State} (hput : ∀ (s : State) (r : Nat) (b : Bytes), s.within hostApart (put s r b)) (x : Xfer) :
    s.within hostApart (s.openRuns put x) := by
  refine within_foldl (take := hostApart) _ ?_ _ s
  intro s r
  exact within_trans (s.apart_freeBytes (x.lenAt r)) (hput _ _ _)

theorem apart_failBulk (s : State) (k n st : Nat) : s.within hostApart (s.failBulk k n st) := by
  unfold failBulk
  split
  · exact within_mono (s.endLoad_says k n st).1
  · split
    · unfold copyFails
      refine within_trans (s.apart_openRuns ?_ _) rfl
      intro s r b
      split <;> rfl
    · rfl

theorem sheds_failReq (s : State) (who : XReq) (st : Nat) : s.sheds (s.failReq who st) := by
  cases who with
  | fetch k => exact sheds_of_host rfl
  | record k => exact sheds_of_host rfl
  | args c => exact sheds_trans (sheds_trans (s.sheds_dropWaits (· == .args c)) (sheds_of_host rfl)) (sheds_of_host (host_of_apart (apart_settleCtx (s.endLaunch c st) c)))
  | bulk k n => exact sheds_of_host (host_of_apart (s.apart_failBulk k n st))
  | te cl c op => exact sheds_of_host rfl

/-- A failed translation is noted in the registers before its requester fails. -/
def xlatNoted (s : State) (who : XReq) (pasid addr : Nat) (write : Bool) (st : Nat) : State :=
  let s1 := s.setRegN Reg.XLT_FAULT (st * 2 ^ 48 + pasid * 2 ^ 28 + b2n write * 2 ^ 27 + who.source * 2 ^ 24 + who.where_.1 * 2 ^ 12 + who.where_.2)
  ((s1.setRegN Reg.XLT_FAULT_ADDR addr).count Reg.XLT_FATAL 1).latch Reg.HST_STATUS (if st = ST_XLAT_OFF then 1 else 0)

theorem xlatFail_eq (s : State) (who : XReq) (pasid addr : Nat) (write : Bool) (st : Nat) :
    s.xlatFail who pasid addr write st = (s.xlatNoted who pasid addr write st).failReq who st := rfl

theorem sheds_xlatFail (s : State) (who : XReq) (pasid addr : Nat) (write : Bool) (st : Nat) : s.sheds (s.xlatFail who pasid addr write st) := by
  have hnoted : (s.xlatNoted who pasid addr write st).host = s.host := host_latch _ _ _
  exact sheds_trans (sheds_of_host hnoted) (sheds_failReq _ who st)

/-! ## What a failed translation records -/

theorem xlatNoted_says {s : State} (hs : s.Sound) (who : XReq) (pasid addr : Nat) (write : Bool) (st : Nat) (ha : addr < 2 ^ 64) :
    let t := s.xlatNoted who pasid addr write st
    t.regN Reg.XLT_FAULT_ADDR = addr ∧ t.reg Reg.XLT_FATAL = s.reg Reg.XLT_FATAL + 1
      ∧ t.reg Reg.XLT_FAULT = BitVec.ofNat 64 (st * 2 ^ 48 + pasid * 2 ^ 28 + b2n write * 2 ^ 27 + who.source * 2 ^ 24 + who.where_.1 * 2 ^ 12 + who.where_.2)
      ∧ t.regB Reg.HST_STATUS (if st = ST_XLAT_OFF then 1 else 0) = true := by
  intro t
  let u1 := s.setRegN Reg.XLT_FAULT (st * 2 ^ 48 + pasid * 2 ^ 28 + b2n write * 2 ^ 27 + who.source * 2 ^ 24 + who.where_.1 * 2 ^ 12 + who.where_.2)
  let u2 := u1.setRegN Reg.XLT_FAULT_ADDR addr
  have h1 : u1.Sound := hs.setRegN
  have h2 : u2.Sound := h1.setRegN
  have h3 : (u2.count Reg.XLT_FATAL 1).Sound := h2.count
  have hbut := ((u2.count Reg.XLT_FATAL 1).latch_but Reg.HST_STATUS (if st = ST_XLAT_OFF then 1 else 0)).1
  have hbit : (if st = ST_XLAT_OFF then 1 else 0) < 64 := by split <;> decide
  have htFatal : t.reg Reg.XLT_FATAL = (u2.count Reg.XLT_FATAL 1).reg Reg.XLT_FATAL := hbut _ (by decide)
  have htAddr : t.reg Reg.XLT_FAULT_ADDR = u2.reg Reg.XLT_FAULT_ADDR := (hbut _ (by decide)).trans (reg_count_ne _ _ _ _ (by decide))
  have htFault : t.reg Reg.XLT_FAULT = u1.reg Reg.XLT_FAULT :=
    ((hbut _ (by decide)).trans (reg_count_ne _ _ _ _ (by decide))).trans (reg_setRegN_ne _ _ _ _ (by decide))
  refine ⟨?_, ?_, htFault.trans (reg_setRegN s _ _ hs.mem), regB_latch h3.mem (by decide) hbit⟩
  · rw [regN, htAddr, reg_setRegN u1 _ _ h1.mem, BitVec.toNat_ofNat, Nat.mod_eq_of_lt ha]
  · rw [htFatal, show (u2.count Reg.XLT_FATAL 1).reg Reg.XLT_FATAL = _ from reg_setReg u2 _ _ h2.mem, reg_setRegN_ne u1 _ _ _ (by decide), reg_setRegN_ne s _ _ _ (by decide)]
    rfl

/-! ## Translations that are kept -/

theorem mem_keepXlat (l : List Xlat) (x : Xlat) {room : Nat} (h : 0 < room) : x ∈ keepXlat l x room := by
  obtain ⟨n, rfl⟩ : ∃ n, room = n + 1 := ⟨room - 1, (Nat.succ_pred_eq_of_pos h).symm⟩
  exact List.mem_append_right _ List.mem_cons_self

theorem mem_keepXlat_other {l : List Xlat} {x y : Xlat} (room : Nat) (hy : y ∈ l) (h : y.buf ≠ x.buf) : y ∈ keepXlat l x room :=
  List.mem_append_left _ (List.mem_filter.mpr ⟨hy, by rw [beq_eq_false_iff_ne.mpr h]; rfl⟩)

theorem storeRoom_pos (x : Xlat) : 0 < (if x.buf.isSome then bufEntries else atcEntries) := by
  split <;> decide

/-- A translation is stored in the cache and in the buffer of its requester. -/
theorem stored_twice (s : State) (e : Xlat) (b : Nat) (he : e.buf = none) :
    e ∈ ((s.storeXlat e).storeXlat { e with buf := some b }).host.xlats
      ∧ { e with buf := some b } ∈ ((s.storeXlat e).storeXlat { e with buf := some b }).host.xlats := by
  refine ⟨mem_keepXlat_other _ (mem_keepXlat _ _ (storeRoom_pos e)) ?_, mem_keepXlat _ _ (storeRoom_pos _)⟩
  rw [he]
  nofun

/-! ## Page request groups -/

/-- Nothing waits on the group, it is none of the part, and its number is not given again. -/
structure groupGone (g : Nat) (s : State) : Prop where
  waits : ∀ w ∈ s.host.waits, w.group ≠ some g
  groups : ∀ y ∈ s.host.groups, y.id ≠ g
  nextId : g < s.host.nextId

theorem groupGone_sheds {g : Nat} {s t : State} (h : groupGone g s) (hst : s.sheds t) : groupGone g t := by
  refine ⟨fun w hw => h.waits w (hst.waits w hw), fun y hy => ?_, ?_⟩
  · rw [hst.groups] at hy
    exact h.groups y hy
  · rw [hst.nextId]
    exact h.nextId

theorem groupGone_atsRequest {g : Nat} {s : State} (h : groupGone g s) (who : XReq) (port pasid addr : Nat) (write retried : Bool) :
    groupGone g (s.atsRequest who port pasid addr write retried) := by
  refine ⟨fun w hw => ?_, h.groups, Nat.lt_succ_of_lt h.nextId⟩
  rcases List.mem_append.mp hw with hw | hw
  · exact h.waits w hw
  · rw [List.mem_singleton.mp hw]
    nofun

theorem groupGone_pageRequest {g : Nat} {s : State} (h : groupGone g s) (port pasid addr : Nat) (write : Bool) :
    groupGone g (s.pageRequest port pasid addr write).2 ∧ (s.pageRequest port pasid addr write).1 ≠ g := by
  unfold pageRequest
  dsimp only
  split
  case h_1 x hx => exact ⟨h, h.groups x (List.mem_of_find?_eq_some hx)⟩
  case h_2 =>
    refine ⟨⟨h.waits, fun y hy => ?_, Nat.lt_succ_of_lt h.nextId⟩, Nat.ne_of_gt h.nextId⟩
    rcases List.mem_append.mp hy with hy | hy
    · exact h.groups y hy
    · rw [List.mem_singleton.mp hy]
      exact Nat.ne_of_gt h.nextId

theorem groupGone_faultAt {g : Nat} {s : State} (h : groupGone g s) (who : XReq) (port pasid addr : Nat) (write retried : Bool) :
    groupGone g (s.faultAt who port pasid addr write retried).2 := by
  unfold faultAt
  split
  · exact groupGone_sheds h (s.sheds_xlatFail _ _ _ _ _)
  · split
    · exact groupGone_sheds h (s.sheds_xlatFail _ _ _ _ _)
    · split
      · exact ⟨h.waits, h.groups, h.nextId⟩
      · obtain ⟨hgone, hne⟩ := groupGone_pageRequest h port pasid addr write
        refine ⟨fun w hw => ?_, hgone.groups, Nat.lt_succ_of_lt hgone.nextId⟩
        rcases List.mem_append.mp hw with hw | hw
        · exact hgone.waits w hw
        · rw [List.mem_singleton.mp hw]
          exact fun heq => hne (Option.some.inj heq)

theorem groupGone_admitFull {g : Nat} {s : State} (h : groupGone g s) (port : Nat) : groupGone g (s.admitFull port) := by
  refine List.foldlRecOn _ _ (motive := groupGone g) h fun t ht w _ => ?_
  dsimp only
  split
  · exact ht
  · exact groupGone_faultAt (s := { t with host := { t.host with full := t.host.full.erase w } }) ⟨ht.waits, ht.groups, ht.nextId⟩ _ _ _ _ _ _

theorem groupGone_leaveGroup (s : State) {g : Nat} (h : g < s.host.nextId) : groupGone g (s.leaveGroup g).2 := by
  refine ⟨fun w hw heq => ?_, fun y hy heq => ?_, h⟩
  · obtain ⟨-, hnot⟩ := List.mem_filter.mp hw
    simp [heq] at hnot
  · obtain ⟨-, hnot⟩ := List.mem_filter.mp hy
    simp [heq] at hnot

theorem groupGone_success (s : State) {g : Nat} (h : g < s.host.nextId) (port : Nat) :
    groupGone g (((s.leaveGroup g).1.foldl (fun s w => s.atsRequest w.who w.port w.pasid w.addr w.write true) (s.leaveGroup g).2).admitFull port) :=
  groupGone_admitFull (List.foldlRecOn _ _ (motive := groupGone g) (s.groupGone_leaveGroup h) fun _ ht _ _ => groupGone_atsRequest ht _ _ _ _ _ _) port

/-! ## A Response Failure -/

/-- The port of a Response Failure, before what waited on its page requests fails. -/
def priCut (s : State) (port : Nat) : State :=
  let u := s.modHPort port (fun h => { h with priFailed := true })
  { u with host := { u.host with
    groups := s.host.groups.filter (fun g => !(g.port == port))
    waits := s.host.waits.filter (fun w => !(w.port == port && w.group.isSome))
    full := s.host.full.filter (fun w => !(w.port == port)) } }

theorem sheds_priFailure (s : State) (port : Nat) : (s.priCut port).sheds (s.priFailure port) :=
  sheds_foldl (fun _ _ => sheds_xlatFail _ _ _ _ _ _) _ _

theorem priCut_says (s : State) (port : Nat) : ((s.priCut port).host.ports[port]?).all (·.priFailed) = true ∧ (∀ y ∈ (s.priCut port).host.groups, y.port ≠ port)
    ∧ (∀ y ∈ (s.priCut port).host.waits, y.port = port → y.group = none) ∧ (∀ y ∈ (s.priCut port).host.full, y.port ≠ port) := by
  refine ⟨?_, fun y hy heq => ?_, fun y hy heq => ?_, fun y hy heq => ?_⟩
  · cases hp : s.host.ports[port]? with
    | none =>
      have hnone : (s.priCut port).host.ports[port]? = none := by
        show (s.host.ports.modify port _)[port]? = none
        rw [List.getElem?_modify_eq, hp]
        rfl
      rw [hnone]
      rfl
    | some h =>
      have hsome : (s.priCut port).host.ports[port]? = some { h with priFailed := true } := getElem_modHPort hp _
      rw [hsome]
      rfl
  · obtain ⟨-, hnot⟩ := List.mem_filter.mp hy
    simp [heq] at hnot
  · obtain ⟨-, hnot⟩ := List.mem_filter.mp hy
    simpa [heq] using hnot
  · obtain ⟨-, hnot⟩ := List.mem_filter.mp hy
    simp [heq] at hnot

theorem priFailure_says (s : State) (port : Nat) : ((s.priFailure port).host.ports[port]?).all (·.priFailed) = true ∧ (∀ y ∈ (s.priFailure port).host.groups, y.port ≠ port)
    ∧ (∀ y ∈ (s.priFailure port).host.waits, y.port = port → y.group = none) ∧ (∀ y ∈ (s.priFailure port).host.full, y.port ≠ port) := by
  obtain ⟨hports, hgroups, -, hwaits, hfull⟩ := s.sheds_priFailure port
  obtain ⟨hcut1, hcut2, hcut3, hcut4⟩ := s.priCut_says port
  rw [hports, hgroups]
  exact ⟨hcut1, hcut2, fun y hy => hcut3 y (hwaits y hy), fun y hy => hcut4 y (hfull y hy)⟩

/-! ## A write within a page -/

theorem pagesOf_within {addr n : Nat} (h : addr / 4096 = (addr + n - 1) / 4096) : pagesOf addr n = [addr / 4096 * 4096] := by
  unfold pagesOf
  rw [← h, Nat.sub_self]
  rfl

theorem mem_linesOf {a n l : Nat} (hn : 0 < n) : l ∈ linesOf a n ↔ a / 64 ≤ l ∧ l ≤ (a + n - 1) / 64 := by
  have hle : a / 64 ≤ (a + n - 1) / 64 := Nat.div_le_div_right (by omega)
  simp only [linesOf, List.mem_map, List.mem_range]
  constructor
  · rintro ⟨i, hi, rfl⟩
    omega
  · rintro ⟨h1, h2⟩
    exact ⟨l - a / 64, by omega, by omega⟩

theorem outside_linesOf {a n : Nat} (hn : 0 < n) (l : Nat) :
    (!(linesOf a n).contains l) = (decide (l < a / 64) || decide ((a + n - 1) / 64 < l)) := by
  rw [Bool.eq_iff_iff]
  simp only [Bool.not_eq_true', ← Bool.not_eq_true, List.contains_iff_mem, mem_linesOf hn, Bool.or_eq_true, decide_eq_true_eq]
  omega

theorem hostOut_within {s : State} {port pasid addr : Nat} {b : Bytes} (hb : b ≠ []) (hpage : addr / 4096 = (addr + b.length - 1) / 4096) :
    let phys := s.physOf port pasid addr
    s.hostOut port pasid addr b = { s with
      out := s.out ++ [.hostWrite port pasid phys true b]
      host := { s.host with hlc := s.host.hlc.filter (fun l => decide (l < phys / 64) || decide ((phys + b.length - 1) / 64 < l)) } } := by
  have hlen : 0 < b.length := List.length_pos_iff.mpr hb
  have hfrom : max addr (addr / 4096 * 4096) = addr := Nat.max_eq_left (Nat.div_mul_le_self addr 4096)
  have hto : min (addr / 4096 * 4096 + 4096) (addr + b.length) - addr = b.length := by omega
  have hslice : slice b 0 b.length = b := by simp [slice]
  unfold hostOut
  rw [pagesOf_within hpage]
  simp only [List.foldl_cons, List.foldl_nil, hfrom, hto, Nat.sub_self, hslice, outside_linesOf hlen]
  rfl

/-! ## Invalidations -/

/-- Two aligned blocks that share an address overlap. -/
theorem blocks_overlap {a x k l : Nat} (h : x / 2 ^ k = a / 2 ^ k) : x / 2 ^ k * 2 ^ k < a / 2 ^ l * 2 ^ l + 2 ^ l := by
  have h1 : a / 2 ^ k * 2 ^ k ≤ a := Nat.div_mul_le_self _ _
  have h2 : a < a / 2 ^ l * 2 ^ l + 2 ^ l := Nat.lt_div_mul_add (Nat.two_pow_pos l)
  rw [h]
  exact Nat.lt_of_le_of_lt h1 h2

/-- A translation that the invalidation of a range of a port takes. -/
def invalidated (p pasid page log2 : Nat) (global : Bool) (x : Xlat) : Bool :=
  x.port == p && (global || x.pasid == pasid)
    && (decide (x.page * 4096 / 2 ^ x.log2 * 2 ^ x.log2 < page * 4096 / 2 ^ log2 * 2 ^ log2 + 2 ^ log2))
    && (decide (page * 4096 / 2 ^ log2 * 2 ^ log2 < x.page * 4096 / 2 ^ x.log2 * 2 ^ x.log2 + 2 ^ x.log2))

theorem covers_of_not_invalidated {p pasid page log2 a : Nat} {global : Bool} {x : Xlat} (h : invalidated p pasid page log2 global x = false) (hport : x.port = p)
    (hpasid : global = true ∨ x.pasid = pasid) (ha : a / 2 ^ log2 = page * 4096 / 2 ^ log2) : x.covers p x.pasid a = false := by
  rw [← Bool.not_eq_true] at h ⊢
  refine fun hcov => h ?_
  have hblock : x.page * 4096 / 2 ^ x.log2 = a / 2 ^ x.log2 := by
    simp only [Xlat.covers, Bool.and_eq_true, beq_iff_eq] at hcov
    exact hcov.2
  have h1 : x.page * 4096 / 2 ^ x.log2 * 2 ^ x.log2 < page * 4096 / 2 ^ log2 * 2 ^ log2 + 2 ^ log2 := by
    have h := blocks_overlap (l := log2) hblock
    rwa [ha] at h
  have h2 : page * 4096 / 2 ^ log2 * 2 ^ log2 < x.page * 4096 / 2 ^ x.log2 * 2 ^ x.log2 + 2 ^ x.log2 := by
    have h := blocks_overlap (l := x.log2) ha.symm
    rwa [← hblock] at h
  simp only [invalidated, Bool.and_eq_true, Bool.or_eq_true, beq_iff_eq, decide_eq_true_eq]
  exact ⟨⟨⟨hport, hpasid⟩, h1⟩, h2⟩

theorem not_invalidated_of_other {p pasid page log2 : Nat} {global : Bool} {x : Xlat} (h : x.port ≠ p ∨ (global = false ∧ x.pasid ≠ pasid)) :
    invalidated p pasid page log2 global x = false := by
  rcases h with h | ⟨rfl, h⟩
  · rw [invalidated, beq_eq_false_iff_ne.mpr h]
    rfl
  · rw [invalidated, beq_eq_false_iff_ne.mpr h, Bool.or_self, Bool.and_false]
    rfl

/-! ## The response to a page request -/

section

variable {s : State} {g : Nat} {x : PGroup}

theorem id_of_group (hfind : s.host.groups.find? (·.id == g) = some x) : x.id = g := by
  have h := List.find?_some hfind
  exact beq_iff_eq.mp h

theorem exec_pageResponse {r : PriResult} (hserv : s.serving = true) (hfind : s.host.groups.find? (·.id == g) = some x)
    (hany : s.host.waits.any (·.group == some g) = true) : exec (.pageRequestResponse g r) s = .next (s.respond x r) := by
  show Host.Outcome.next _ = _
  rw [hserv, hany]
  show Host.Outcome.next (match s.host.groups.find? (·.id == g) with | none => s | some x => s.respond x r) = _
  rw [hfind]

theorem exec_pageResponse_none {r : PriResult} (hserv : s.serving = true) (hfind : s.host.groups.find? (·.id == g) = none)
    (hany : s.host.waits.any (·.group == some g) = false) : exec (.pageRequestResponse g r) s = .next (s.count Reg.XLT_PRI_LATE 1) := by
  show Host.Outcome.next _ = _
  rw [hserv, hany]
  show Host.Outcome.next (match s.host.groups.find? (·.id == g) with | none => s.count Reg.XLT_PRI_LATE 1 | some x => _) = _
  rw [hfind]

theorem exec_pageResponse_late {r : PriResult} (hserv : s.serving = true) (hfind : s.host.groups.find? (·.id == g) = some x)
    (hany : s.host.waits.any (·.group == some g) = false) :
    exec (.pageRequestResponse g r) s = .next (((s.count Reg.XLT_PRI_LATE 1).leaveGroup g).2.admitFull x.port) := by
  show Host.Outcome.next _ = _
  rw [hserv, hany]
  show Host.Outcome.next (match s.host.groups.find? (·.id == g) with | none => _ | some x => ((s.count Reg.XLT_PRI_LATE 1).leaveGroup g).2.admitFull x.port) = _
  rw [hfind]

theorem exec_pageResponse_warm {r : PriResult} (hpow : s.pwr.powered = true) (hrst : s.pwr.rstN = true) (hwarm : s.pwr.warm = true) :
    exec (.pageRequestResponse g r) s = .next (s.count Reg.XLT_PRI_LATE 1) := by
  have hserv : s.serving = false := by
    rw [State.serving, hwarm]
    exact Bool.and_false _
  show Host.Outcome.next _ = _
  rw [hserv]
  have hcond : s.pwr.powered = true ∧ s.pwr.rstN = true ∧ s.pwr.warm = true := ⟨hpow, hrst, hwarm⟩
  exact congrArg Host.Outcome.next (if_pos hcond)

end

/-! ## The end of the waits of a port -/

theorem modHPort_congr {s : State} {p : Nat} {h : HPort} (hp : s.host.ports[p]? = some h) {f f' : HPort → HPort} (hf : f h = f' h) :
    s.modHPort p f = s.modHPort p f' := by
  have hlist : s.host.ports.modify p f = s.host.ports.modify p f' := by
    apply List.ext_getElem?
    intro j
    by_cases hj : p = j
    · subst hj
      rw [List.getElem?_modify_eq, List.getElem?_modify_eq, hp]
      exact congrArg some hf
    · rw [List.getElem?_modify_ne _ _ hj, List.getElem?_modify_ne _ _ hj]
  unfold modHPort listMod
  rw [hlist]

theorem filter_of_none {α : Type} {l : List α} {q : α → Bool} (h : ∀ x ∈ l, q x = false) : l.filter q = [] :=
  List.filter_eq_nil_iff.mpr fun x hx => ne_true_of_eq_false (h x hx)

theorem filter_not_of_none {α : Type} {l : List α} {q : α → Bool} (h : ∀ x ∈ l, q x = false) : l.filter (fun x => !q x) = l :=
  List.filter_eq_self.mpr fun x hx => by rw [h x hx]; rfl

theorem admitFull_none {s : State} {port : Nat} (h : ∀ w ∈ s.host.full, w.port ≠ port) : s.admitFull port = s := by
  unfold admitFull
  rw [filter_of_none (fun w hw => beq_eq_false_iff_ne.mpr (h w hw))]
  rfl

theorem failWaits_none {s : State} {port : Nat} (st : Nat) (h : ∀ w ∈ s.host.waits ++ s.host.full, w.port ≠ port) : s.failWaits port st = s := by
  have hne : ∀ w ∈ s.host.waits ++ s.host.full, (w.port == port) = false := fun w hw => beq_eq_false_iff_ne.mpr (h w hw)
  unfold failWaits
  dsimp only
  rw [filter_of_none hne, filter_not_of_none (fun w hw => hne w (List.mem_append_left _ hw)), filter_not_of_none (fun w hw => hne w (List.mem_append_right _ hw))]
  rfl

end State

/-- Settles O51: what fails only drops waits of the host, so no request of a group that was answered comes back; aligned blocks that share an address overlap. -/
theorem hostTranslation : Obligations.HostTranslation := by
  unfold Obligations.HostTranslation
  refine ⟨fun s x w hserv hfind => ?_, fun s cl ctx op pasid addr st write hs ha => ?_, fun s g x hserv hfind hany hlt => ⟨?_, ?_, ?_, fun hold => ?_⟩,
    fun s g r hserv hfind hany => ⟨?_, ?_⟩, fun s g x r hserv hfind hany => ?_, fun s g r hpow hrst hwarm => ?_, fun s port pasid addr b hb hpage => ?_,
    fun s p itag pasid page log2 global hserv => ⟨?_, fun hmem => ?_⟩, fun s p h pasid ats pri hp hup => ?_⟩
  · intro u
    refine ⟨fun r k log2 phys hgrant => ?_, fun r k log2 phys hdeny => ?_, ?_, ?_, ?_⟩
    · let e : Xlat := ⟨none, w.port, w.pasid, w.addr / 4096, max 12 (min 30 log2), phys, r, k⟩
      obtain ⟨hcache, hbuf⟩ := u.stored_twice e w.who.buf rfl
      refine ⟨(u.storeXlat e).storeXlat { e with buf := some w.who.buf }, e, exec_whenServing hserv rfl ?_, rfl, rfl, hcache, hbuf, rfl⟩
      simp only [hfind]
      exact if_pos hgrant
    · refine exec_whenServing hserv rfl ?_
      simp only [hfind]
      exact if_neg (ne_true_of_eq_false hdeny)
    · refine exec_whenServing hserv rfl ?_
      simp only [hfind]
      rfl
    · refine exec_whenServing hserv rfl ?_
      simp only [hfind]
      rfl
    · refine exec_whenServing hserv rfl ?_
      simp only [hfind]
      by_cases hold : w.since.toNat + ms (s.regF Reg.XLT_CTL 15 0) ≤ s.time.gtime.toNat
      · rw [State.reached_of_le hold, if_pos hold]
        rfl
      · rw [State.reached_of_lt (Nat.lt_of_not_le hold), if_neg hold]
        rfl
  · exact s.xlatNoted_says hs (.te cl ctx op) pasid addr write st ha
  · obtain rfl : x.id = g := State.id_of_group hfind
    have hgone := s.groupGone_success hlt x.port
    exact ⟨_, State.exec_pageResponse hserv hfind hany, rfl, hgone.waits, hgone.groups⟩
  · have hid : x.id = g := State.id_of_group hfind
    rw [State.exec_pageResponse hserv hfind hany, ← hid]
    rfl
  · exact ⟨_, State.exec_pageResponse hserv hfind hany, s.priFailure_says x.port⟩
  · have hdue : s.host.groups.any (fun x => x.id == g && s.reached (x.since.toNat + ms (s.regF Reg.XLT_CTL 31 16))) = true :=
      List.any_eq_true.mpr ⟨x, List.mem_of_find?_eq_some hfind, by rw [State.reached_of_le hold, beq_iff_eq.mpr (State.id_of_group hfind)]; rfl⟩
    refine exec_whenServing hserv rfl ((if_pos hdue).trans ?_)
    rw [hfind]
    rfl
  · exact State.exec_pageResponse_none hserv hfind hany
  · have hdue : s.host.groups.any (fun x => x.id == g && s.reached (x.since.toNat + ms (s.regF Reg.XLT_CTL 31 16))) = false := by
      refine List.any_eq_false.mpr fun y hy => ?_
      rw [Bool.not_eq_true, beq_eq_false_iff_ne.mpr fun heq => ?_]
      · rfl
      · exact List.find?_eq_none.mp hfind y hy (beq_iff_eq.mpr heq)
    exact exec_whenServing hserv rfl (if_neg (ne_true_of_eq_false hdue))
  · exact State.exec_pageResponse_late hserv hfind hany
  · exact State.exec_pageResponse_warm hpow hrst hwarm
  · exact State.hostOut_within hb hpage
  · refine ⟨_, exec_whenServing hserv rfl rfl, rfl, rfl, fun x hx => ?_, fun x hx hother => ?_⟩
    · obtain ⟨hmem, hnot⟩ := List.mem_filter.mp hx
      exact ⟨hmem, fun a hport hpasid ha => State.covers_of_not_invalidated ((Bool.not_eq_true' _).mp hnot) hport hpasid ha⟩
    · refine List.mem_filter.mpr ⟨hx, (Bool.not_eq_true' _).mpr ?_⟩
      exact State.not_invalidated_of_other hother
  · refine ⟨_, exec_whenServing hserv rfl (if_pos (List.contains_iff_mem.mpr hmem)), rfl, rfl⟩
  · intro h1 u
    have hon : u.xlatOn p = (pasid && ats && pri.isSome) := by
      have hport : u.host.ports[p]? = some h1 := State.getElem_modHPort hp _
      rw [State.xlatOn, hport]
      rfl
    have hexec : exec (.pasidAtsPriEnable p pasid ats pri) s = .next (if pasid && ats && pri.isSome then u.admitFull p else u.failWaits p ST_XLAT_OFF) := by
      have hset := State.modHPort_congr hp (f := fun h => { h with
        pasid := pasid, ats := ats, pri := pri.isSome, alloc := pri.getD h.alloc, priFailed := h.priFailed && !(pri.isSome && !h.pri) }) (f' := fun _ => h1) rfl
      refine (congrArg Host.Outcome.next (if_neg ?_)).trans ?_
      · rw [State.portIsUp_of_getElem hp, hup]
        decide
      · dsimp only
        rw [hset, hon]
    refine ⟨hexec, fun hnone => hexec.trans (congrArg _ ?_)⟩
    split
    · exact State.admitFull_none (s := u) fun w hw => hnone w (List.mem_append_right _ hw)
    · exact State.failWaits_none (s := u) _ hnone

end Sys2Proof.Machine

/-! The credits of a port that identifies itself again (R496, R498, R499): a counterexample to the LNK_NODE clause of O53. -/

namespace Sys2Proof.Machine

/-- An UP port that owes its far end 19 credits of sub-channel 0, as after a packet of 274 flits, of whose credits one flit could give back no more than 255. -/
def owingPort : LPort := { LPort.init with st := 2, lanes := 4, rxNext := 274, rxAny := true, owe := [(0, 19)] }

/-- A part with that port, and neither a table nor its O-ports enabled. -/
def owingPart : State := { Tests.on with link := { Tests.on.link with ports := owingPort :: Tests.on.link.ports.tail } }

/-- The credits that port 0 owes after a step that goes on. -/
def owedAfter (i : Instr) (s : State) : Option (List (Nat × Nat)) :=
  match exec i s with
  | .next t => (t.link.ports[0]?).map (·.owe)
  | _ => none

theorem owingPart_before : (owingPart.link.ports[0]?).map (·.owe) = some [(0, 19)] := by decide +kernel

theorem owingPart_after : owedAfter (.lnkNodeWrite 0) owingPart = some [(0, 0)] := by decide +kernel

/-- Refutes O53: the IDENT that an UP port sends at a write of LNK_NODE gives back the credits that the port owes, while the statement lets the write
change nothing of the links but Z. -/
theorem not_links : ¬Obligations.Links := by
  unfold Obligations.Links
  intro h
  obtain ⟨⟨hctl, _⟩, _⟩ := h
  obtain ⟨_, hwrite, _⟩ := hctl owingPart 0 rfl
  obtain ⟨t, hexec, hlink, _⟩ := hwrite (by decide +kernel) rfl
  have hafter := owingPart_after
  simp only [owedAfter, hexec, hlink, owingPart_before] at hafter
  exact absurd hafter (by decide)

end Sys2Proof.Machine

/-! Hot periods, replicas, balance, rejoins and pins (R146, R160 to R163, R172, R174, R176, R184 to R186, R192): what settles O27. -/

namespace Sys2Proof.Machine

namespace State

/-! ## A hot period without reports -/

/-- PLC_DIE_LOAD of some dies takes their reads. -/
def dieLoadsPut (s : State) (l : List Nat) : State := l.foldl (fun s c => s.setRegN (Reg.PLC_DIE_LOAD c) (((s.gpes[c]?).map (·.load)).getD 0)) s

/-- The registers alone. -/
def registers (s t : State) : State := { s with regs := t.regs }

theorem within_dieLoadsPut (s : State) (l : List Nat) : s.within registers (s.dieLoadsPut l) := by
  refine within_foldl (take := registers) _ ?_ l s
  intro s c
  rfl

theorem dieLoadsPut_but (s : State) (l : List Nat) {a : Nat} (ha : ∀ c ∈ l, a ≠ Reg.PLC_DIE_LOAD c) : (s.dieLoadsPut l).reg a = s.reg a := by
  induction l generalizing s with
  | nil => rfl
  | cons c l ih =>
    rw [dieLoadsPut, List.foldl_cons]
    exact (ih _ fun x hx => ha x (List.mem_cons_of_mem _ hx)).trans (reg_setRegN_ne _ _ _ _ (ha c List.mem_cons_self))

theorem dieLoadsPut_reg {s : State} (hs : s.Sound) {l : List Nat} (hl : l.Nodup) {c : Nat} (hc : c ∈ l) {g : Gpe} (hg : s.gpes[c]? = some g) :
    (s.dieLoadsPut l).regN (Reg.PLC_DIE_LOAD c) = g.load % 2 ^ 64 := by
  induction l generalizing s with
  | nil => exact nomatch hc
  | cons x l ih =>
    obtain ⟨hx, hl⟩ := List.nodup_cons.mp hl
    have hput : s.dieLoadsPut (x :: l) = (s.setRegN (Reg.PLC_DIE_LOAD x) (((s.gpes[x]?).map (·.load)).getD 0)).dieLoadsPut l := rfl
    rw [hput]
    by_cases hcx : c = x
    · subst hcx
      rw [regN, dieLoadsPut_but _ l (fun y hy heq => hx ?_), reg_setRegN s _ _ hs.mem, hg, BitVec.toNat_ofNat]
      · rfl
      · obtain rfl : c = y := by
          unfold Reg.PLC_DIE_LOAD at heq
          omega
        exact hy
    · exact ih hs.setRegN hl ((List.mem_cons.mp hc).resolve_left hcx) hg

theorem exec_hotPeriod {s : State} (hserv : s.serving = true)
    (hdue : (s.gpes.head?).all (fun g => s.elapsed g.hotAt (us (s.regF Reg.PLC_HOT 63 48))) = true) :
    exec (.hotPeriod []) s = .next ({ s.dieLoadsPut (List.range 8) with gpes := (s.dieLoadsPut (List.range 8)).gpes.map (fun g =>
      { g with load := 0, heat := [], hotAt := some s.time.gtime }) } : State) := by
  refine exec_whenServing hserv rfl (if_neg ?_)
  rw [hdue]
  decide

/-! ## A copy of a row to replicas that every target holds -/

theorem mapTold (l : List RepJob) (h row : Nat) :
    l.filterMap (fun x => if x.handle = h ∧ x.row = row then (if false = true then none else some { x with told := true }) else some x)
      = l.map (fun x => if x.handle = h ∧ x.row = row then { x with told := true } else x) := by
  rw [← List.filterMap_eq_map]
  refine filterMapCongr fun x _ => ?_
  by_cases hx : x.handle = h ∧ x.row = row
  · rw [if_pos hx, Function.comp_apply, if_pos hx]
    rfl
  · rw [if_neg hx, Function.comp_apply, if_neg hx]

section

variable {s : State} {h row i : Nat} {r : RepJob} {t0 : Table} {d : Dom}
  (hserv : s.serving = true) (hfind : s.reps.find? (fun r => r.handle == h && r.row == row && !r.told) = some r) (hhome : locNode r.home = s.node)
  (htab : s.table? h = some t0) (hdom : s.tableDom t0 = some (i, d)) (hpend : s.link.pend = [])
include hserv hfind hhome htab hdom hpend

theorem exec_copyConfirmed_leads (hleads : s.leads d = true) :
    exec (.replicaCopyConfirmed h row) s = .next (s.landCopied h row r.vmask r.targets r.pin r.full) := by
  have hmine := find_and hfind (r := fun r => locNode r.home == s.node) (beq_iff_eq.mpr hhome)
  refine exec_whenServing hserv rfl ?_
  simp only [hmine, htab, hdom, hpend]
  exact (if_neg Bool.false_ne_true).trans (if_pos hleads)

theorem exec_copyConfirmed_tells {l : Nat} (hleads : s.leads d = false) (hleader : d.leader = some l) (hfull : r.full = false) (htargets : r.targets ≠ []) :
    exec (.replicaCopyConfirmed h row) s
      = .next (({ s with reps := s.reps.map (fun x => if x.handle = h ∧ x.row = row then { x with told := true } else x) } : State).write 0 (s.memberNode l)
          (.work (.copied h row r.vmask r.targets r.pin r.full))) := by
  have hmine := find_and hfind (r := fun r => locNode r.home == s.node) (beq_iff_eq.mpr hhome)
  refine exec_whenServing hserv rfl ?_
  simp only [hmine, htab, hdom, hpend]
  refine (if_neg Bool.false_ne_true).trans ((if_neg (ne_true_of_eq_false hleads)).trans ?_)
  simp only [hleader, hfull, List.isEmpty_eq_false_iff.mpr htargets, Bool.and_false, Bool.or_false, mapTold]

end

theorem landCopied_of_pend {s : State} {h row i : Nat} {t0 : Table} {d : Dom} (htab : s.table? h = some t0) (hdom : s.tableDom t0 = some (i, d))
    (hpend : s.link.pend = []) (hleads : s.leads d = true) (targets : List Nat) (vmask : Nat) (pin full : Bool) :
    let isHeld := ((s.dir 0).place h row).any (·.kind == .held)
    let s1 := if full then s.latch Reg.PLC_STATUS 2 else s
    s.landCopied h row vmask targets pin full = if isHeld ∧ !pin then s1.giveUpCopy h row targets none
      else if pin ∧ full then (s1.giveUpCopy h row targets none).pinFails h row ST_PLC_REPLICA_FULL
      else if targets.isEmpty then s1.giveUpCopy h row [] none
      else ({ s1 with reps := s1.reps.map (fun x => if x.handle = h ∧ x.row = row then { x with told := true } else x) } : State).chorusAll d
        (.replica h row vmask targets pin) := by
  have hbind : (s.table? h).bind s.tableDom = some (i, d) := by rw [htab]; exact hdom
  intro isHeld s1
  unfold landCopied
  simp only [hbind, changePending, hpend, List.any_nil, Bool.or_false, hleads, Bool.not_true]
  rfl

/-! ## PLC_CTL -/

theorem plcCtl_value {v : Nat} (hv : v < 2 ^ 32) : putFld (fld v 7 0) 31 29 (fld v 31 29) = v % 256 + v / 2 ^ 29 * 2 ^ 29 := by
  have hlow : fld v 7 0 = v % 256 := rfl
  have htop : fld v 31 29 = v / 2 ^ 29 := by
    rw [fld, Nat.shiftRight_eq_div_pow]
    exact Nat.mod_eq_of_lt (by omega)
  rw [hlow, htop, putFld, Nat.shiftRight_eq_div_pow, Nat.shiftLeft_eq, Nat.shiftLeft_eq]
  omega

/-! ## The balance check -/

/-- What ordering a move of a unit changes. -/
def ordering (s t : State) : State := { s with dirs := t.dirs, migs := t.migs, link := t.link, regs := t.regs, out := t.out }

theorem within_write_ordering (s : State) (die dst : Nat) (body : Payload) : s.within ordering (s.write die dst body) :=
  within_mono (s.onlySends_write die dst body).within

theorem within_setBentry (s : State) (die slot b : Nat) (e : BEntry) : s.within ordering (s.setBentry die slot b e) := rfl

theorem within_beginMove (s : State) (m : Mig) : s.within ordering (s.beginMove m) := by
  unfold beginMove
  extract_lets die s1 s2 kind
  have h1 : s.within ordering s1 := rfl
  have h2 : s1.within ordering s2 := by
    show s1.within ordering (match m.unit with | .bucket n b => _ | .row h row => _)
    split
    · split <;> rfl
    · split
      · split <;> rfl
      · rfl
  refine within_trans (within_trans h1 h2) (within_foldl (take := ordering) _ ?_ _ s2)
  intro s r
  exact s.within_write_ordering _ _ _

theorem within_tellEnd (s : State) (number : Nat) (u : MigUnit) : s.within ordering (s.tellEnd number u) := by
  unfold tellEnd
  split
  · split
    · rfl
    · exact s.within_write_ordering _ _ _
  · rfl

theorem within_refuseMove (s : State) (m : Mig) : s.within ordering (s.refuseMove m) := by
  let s1 : State := { s with migs := s.migs.filter (fun x => !x.same m) }
  have h1 : s.within ordering s1 := rfl
  have h2 : s1.within ordering (s1.latch Reg.PLC_STATUS 0) := within_mono (s1.within_latch _ 0)
  exact within_trans (within_trans h1 h2) (within_tellEnd _ _ _)

theorem within_startMove (s : State) (u : MigUnit) (isB : Bool) (from_ to_ : Nat) (remirror : Bool) : s.within ordering (s.startMove u isB from_ to_ remirror) := by
  unfold startMove
  extract_lets m s1
  have h1 : s.within ordering s1 := rfl
  split
  · split
    · exact within_trans h1 (s1.within_beginMove m)
    · exact within_trans h1 (s1.within_refuseMove m)
  · exact within_trans h1 (s1.within_write_ordering _ _ _)

theorem within_orderMove (s : State) (u : MigUnit) (isB : Bool) (from_ to_ : Nat) (remirror : Bool) : s.within ordering (s.orderMove u isB from_ to_ remirror) := by
  unfold orderMove
  split
  · exact s.within_startMove _ _ _ _ _
  · extract_lets m s1
    have h1 : s.within ordering s1 := rfl
    exact within_trans h1 (s1.within_write_ordering _ _ _)

theorem within_balanceDie (d : Dom) (slot x total n : Nat) (may : Nat → Bool) (buckets : List (Nat × Nat)) (fuel : Nat) (s : State) (est : List (Nat × Nat)) :
    s.within ordering (State.balanceDie s slot d x total n may buckets est fuel).1 := by
  induction fuel generalizing s est with
  | zero => rfl
  | succ fuel ih =>
    unfold balanceDie
    split
    · rfl
    · split
      case h_1 => rfl
      case h_2 s1 est1 hstep =>
        unfold balanceStep at hstep
        obtain ⟨⟨b, n⟩, -, hmove⟩ := Option.map_eq_some_iff.mp hstep
        obtain ⟨rfl, -⟩ := Prod.mk.inj hmove
        exact within_trans (s.within_orderMove _ _ _ _ _) (ih _ _)

theorem balanceDie_none (d : Dom) (slot x total n : Nat) (may : Nat → Bool) (fuel : Nat) (s : State) (est : List (Nat × Nat)) :
    State.balanceDie s slot d x total n may [] est fuel = (s, est) := by
  cases fuel with
  | zero => rfl
  | succ fuel =>
    unfold balanceDie
    split
    · rfl
    · rfl

/-- What a balance check changes. -/
def balancing (s t : State) : State := { s with doms := t.doms, dirs := t.dirs, migs := t.migs, link := t.link, regs := t.regs, out := t.out }

/-- The domain as the leader hears it at a balance check. -/
def heardAtBalance (s : State) (slot : Nat) (d : Dom) (loads : List DieLoad) : Dom :=
  { s.withLoads d loads with balAt := some s.time.gtime, rejoined := d.rejoined.filter (s.filling slot d) }

/-- The balance moves of a check, die by die. -/
def balanced (s : State) (slot : Nat) (d1 : Dom) (buckets : List (Nat × Nat)) : State :=
  let may (l : Nat) : Bool := s.regB Reg.PLC_CTL 29 || d1.rejoined.any (fun m => s.memberNode m == locNode l)
  let dies := s.domDies d1
  let est := dies.map (fun l => (l, s.dieLoad d1 l))
  let total := est.foldl (fun a e => a + e.2) 0
  (dies.foldl (fun (acc : State × List (Nat × Nat)) x => State.balanceDie acc.1 slot d1 x total dies.length may buckets acc.2 256)
    (s.modDom slot (fun _ => d1), est)).1

theorem exec_balanceCheck {s : State} {slot : Nat} {d : Dom} (hserv : s.serving = true) (hd : s.doms[slot]? = some d) (hvalid : d.valid = true)
    (hleads : s.leads d = true) (hdue : s.elapsed d.balAt s.balTicks = true) (loads : List DieLoad) (buckets : List (Nat × Nat)) :
    exec (.balanceCheck slot loads buckets) s = .next (s.balanced slot (s.heardAtBalance slot d loads) buckets) := by
  refine exec_whenServing hserv rfl ?_
  simp only [hd, hvalid, hleads, hdue]
  rfl

theorem balanced_none (s : State) (slot : Nat) (d1 : Dom) : s.balanced slot d1 [] = s.modDom slot (fun _ => d1) := by
  unfold balanced
  extract_lets may dies est total
  simp only [balanceDie_none]
  exact List.foldlRecOn dies _ (motive := fun acc : State × List (Nat × Nat) => acc.1 = s.modDom slot (fun _ => d1)) rfl fun _ h _ _ => h

theorem within_balanced (s : State) (slot : Nat) (d1 : Dom) (buckets : List (Nat × Nat)) :
    (s.modDom slot (fun _ => d1)).within ordering (s.balanced slot d1 buckets) := by
  unfold balanced
  extract_lets may dies est total
  refine List.foldlRecOn dies _ (motive := fun acc : State × List (Nat × Nat) => (s.modDom slot (fun _ => d1)).within ordering acc.1) rfl fun acc h x _ => ?_
  exact within_trans h (within_balanceDie d1 slot x total dies.length may buckets 256 acc.1 acc.2)

/-! ## A part that rejoins -/

/-- What a change of leader may change. -/
def leading (s t : State) : State := { s with pin := t.pin, pinJobs := t.pinJobs, reps := t.reps, tables := t.tables, link := t.link, regs := t.regs, out := t.out }

theorem within_write_leading (s : State) (die dst : Nat) (body : Payload) : s.within leading (s.write die dst body) :=
  within_mono (s.onlySends_write die dst body).within

theorem within_noteRefilled (s : State) (die h row : Nat) : s.within leading (s.noteRefilled die h row) := by
  unfold noteRefilled
  extract_lets sending
  split
  · rfl
  · split
    · rfl
    · split
      · exact within_mono (s.onlySends_chorusAll _ _).within
      · split
        · exact s.within_write_leading _ _ _
        · rfl

/-- What a new leader hears of the moves and drains of this part, or writes itself when it is this part. -/
def movesTold (s : State) (d : Dom) (moves drains : List Mig) : State :=
  match d.leader with
  | none => s
  | some l =>
    if l = s.member then
      moves.foldl (fun s m => match m.change with
        | some c => if m.flipEpoch.isNone then s.chorusAll d c else s
        | none => s) s
    else
      let s5 := moves.foldl (fun s m => s.write 0 (s.memberNode l) (.work (.moving m.unit m.which m.from_ m.to_ m.remirror m.change))) s
      drains.foldl (fun s m => match m.unit with
        | .row h row => s.write 0 (s.memberNode l) (.work (.draining h row m.from_ m.to_))
        | .bucket _ _ => s) s5

theorem within_movesTold (s : State) (d : Dom) (moves drains : List Mig) : s.within leading (s.movesTold d moves drains) := by
  unfold movesTold
  split
  · rfl
  · split
    · refine within_foldl (take := leading) _ ?_ _ s
      intro s m
      split
      · split
        · exact within_mono (s.onlySends_chorusAll _ _).within
        · rfl
      · rfl
    · extract_lets s5
      have h5 : s.within leading s5 := by
        refine within_foldl (take := leading) _ ?_ _ s
        intro s m
        exact s.within_write_leading _ _ _
      refine within_trans h5 (within_foldl (take := leading) _ ?_ _ s5)
      intro s m
      split
      · exact s.within_write_leading _ _ _
      · rfl

theorem within_leaderChanged (s : State) (number : Nat) : s.within leading (s.leaderChanged number) := by
  unfold leaderChanged
  extract_lets s1 here mine pinned pin0 s2 s3 s4
  have h1 : s.within leading s1 := within_mono (s.within_latch _ 5)
  have h2 : s1.within leading s2 := rfl
  have h3 : s2.within leading s3 := by
    refine within_foldl (take := leading) _ ?_ _ s2
    intro s r
    refine within_foldl (take := leading) _ ?_ _ s
    intro s l
    exact s.within_write_leading _ _ _
  have h4 : s3.within leading s4 := by
    refine within_foldl (take := leading) _ ?_ _ s3
    intro s t
    refine within_foldl (take := leading) _ ?_ _ s
    intro s v
    exact within_mono (s.within_reportZero _ _)
  have hs4 : s.within leading s4 := within_trans (within_trans (within_trans h1 h2) h3) h4
  split
  · exact hs4
  · extract_lets s5
    have h5 : s4.within leading s5 := within_movesTold _ _ _ _
    refine within_trans (within_trans hs4 h5) (within_foldl (take := leading) _ ?_ _ s5)
    intro s die
    refine within_foldl (take := leading) _ ?_ _ s
    intro s r
    split
    · split
      · exact s.within_noteRefilled _ _ _
      · rfl
    · rfl

/-- The member is live again here, before the part that leads now acts on it. -/
def readmitted (s : State) (slot member : Nat) : State :=
  let s1 := s.modDom slot (fun d => { d with excluded := d.excluded.filter (· != member), rejoined := insertNew member d.rejoined })
  { s1 with ras := { s1.ras with lostNodes := s1.ras.lostNodes.filter (· != s.memberNode member) } }

theorem within_landRejoin {s : State} {slot number member : Nat} {d : Dom} (hdom : s.domOf number = some (slot, d)) (hout : d.excluded.contains member = true) :
    (s.readmitted slot member).within leading (s.landRejoin number member) := by
  unfold landRejoin
  rw [hdom]
  dsimp only
  rw [hout]
  show (s.readmitted slot member).within leading (if _ then (s.readmitted slot member).leaderChanged number else s.readmitted slot member)
  split
  · exact within_leaderChanged _ _
  · rfl

theorem exec_rejoin {s : State} {slot member : Nat} {digest : BitVec 32} {d : Dom} (hserv : s.serving = true) (hd : s.doms[slot]? = some d) (hvalid : d.valid = true)
    (hleads : s.leads d = true) (hout : d.excluded.contains member = true) :
    (digest = Config.domainDigest d.number d.log2 d.members.toNat →
        ∃ t, exec (.rejoin slot ⟨member, digest⟩) s = .next t ∧ (s.landRejoin d.number member).onlySends t)
      ∧ (digest ≠ Config.domainDigest d.number d.log2 d.members.toNat → exec (.rejoin slot ⟨member, digest⟩) s = .next s) := by
  refine ⟨fun heq => ?_, fun hne => ?_⟩
  · let s1 := s.landRejoin d.number member
    let d1 := (s1.doms[slot]?).getD d
    refine ⟨(s1.chorusAll d1 (.rejoin d.number member)).write 0 (s.memberNode member) (.work (.welcome (s1.welcomeOf slot d1))),
      exec_whenServing hserv rfl ?_, onlySends_trans (s1.onlySends_chorusAll d1 _) (onlySends_write _ _ _ _)⟩
    simp only [hd, hvalid, hleads, hout]
    refine if_neg fun h => ?_
    rcases h with h | h
    · exact Bool.noConfusion h
    · exact h heq
  · refine exec_whenServing hserv rfl ?_
    simp only [hd]
    exact if_pos (.inr hne)

/-! ## Pins -/

/-- Anything but this part's own pin, of which at most the outcome changes. -/
def pinApart (s t : State) : State := { t with pin := { s.pin with outcome := t.pin.outcome } }

theorem apart_write (s : State) (die dst : Nat) (body : Payload) : s.within pinApart (s.write die dst body) := within_mono (s.onlySends_write die dst body).within

theorem apart_chorusAll (s : State) (d : Dom) (c : DirChange) : s.within pinApart (s.chorusAll d c) := within_mono (s.onlySends_chorusAll d c).within

theorem apart_latch (s : State) (a k : Nat) : s.within pinApart (s.latch a k) := within_mono (s.within_latch a k)

theorem apart_giveUpCopy (s : State) (h row : Nat) (targets : List Nat) (home : Option Nat) : s.within pinApart (s.giveUpCopy h row targets home) := by
  unfold giveUpCopy
  extract_lets s1 s2
  have h1 : s.within pinApart s1 := rfl
  have h2 : s1.within pinApart s2 := by
    cases home with
    | none => rfl
    | some l =>
      show s1.within pinApart (if locNode l = s.node then s1 else _)
      split
      · rfl
      · exact s1.apart_write _ _ _
  refine within_trans (within_trans h1 h2) (within_foldl (take := pinApart) _ ?_ _ s2)
  intro s l
  exact s.apart_write _ _ _

theorem apart_pinFails (s : State) (h row status : Nat) : s.within pinApart (s.pinFails h row status) := by
  unfold pinFails
  extract_lets mine s1 s2
  have h1 : s.within pinApart s1 := by
    refine within_foldl (take := pinApart) _ ?_ _ s
    intro s j
    exact s.apart_write _ _ _
  have h2 : s1.within pinApart s2 := rfl
  have h3 : s.within pinApart s2 := within_trans h1 h2
  split
  · exact within_trans h3 rfl
  · exact h3

theorem apart_copyRow (s : State) (die : Nat) (t : Table) (row vmask : Nat) (targets : List Nat) : s.within pinApart (s.copyRow die t row vmask targets) := by
  refine within_foldl (take := pinApart) _ ?_ _ s
  intro s v
  refine within_foldl (take := pinApart) _ ?_ _ s
  intro s l
  exact s.apart_write _ _ _

theorem apart_beginCopy (s : State) (h row home : Nat) (targets : List Nat) (pin : Bool) : s.within pinApart (s.beginCopy h row home targets pin) := by
  unfold beginCopy
  split
  · rfl
  · extract_lets s1
    have h1 : s.within pinApart s1 := rfl
    split
    · exact within_trans h1 (s1.apart_copyRow _ _ _ _ _)
    · exact within_trans h1 (s1.apart_write _ _ _)

theorem apart_replicate (s : State) (d : Dom) (t : Table) (row c : Nat) : s.within pinApart (s.replicate d t row c true).2 := by
  unfold replicate
  extract_lets h have_ refuse homes
  have hrefuse (u : State) : u.within pinApart (refuse u).2 := by
    dsimp only [refuse]
    rw [if_pos rfl]
    exact u.apart_latch _ 1
  split
  · exact hrefuse s
  · split
    · split
      · exact hrefuse s
      · exact s.apart_chorusAll _ _
    · split
      · rfl
      · generalize s.replicaTargets d t homes have_ 2048 [] [] false (c - have_.length) = found
        obtain ⟨new, refused⟩ := found
        dsimp only
        have hshort (b : Bool) : s.within pinApart (if b = true then s.latch Reg.PLC_STATUS 2 else s) := by
          cases b
          · rfl
          · exact s.apart_latch _ 2
        have h1 := hshort (decide (have_.length + new.length < c) && refused)
        generalize (if (decide (have_.length + new.length < c) && refused) = true then s.latch Reg.PLC_STATUS 2 else s) = s1 at h1
        split
        · exact h1
        · split
          · exact h1
          · split
            · exact within_trans h1 (hrefuse s1)
            · split
              · exact h1
              · exact within_trans h1 (s1.apart_beginCopy _ _ _ _ _)

/-- A creation of replicas that a pin ends. -/
def jobEnded (s : State) (h row : Nat) (job : Option RepJob) : State :=
  match job with
  | some j =>
    let s1 := s.giveUpCopy h row j.targets (some j.home)
    if j.pin then s1.pinFails h row ST_PLC_PIN_BUSY else s1
  | none => s

theorem apart_jobEnded (s : State) (h row : Nat) (job : Option RepJob) : s.within pinApart (s.jobEnded h row job) := by
  cases job with
  | none => rfl
  | some j =>
    have h1 := s.apart_giveUpCopy h row j.targets (some j.home)
    unfold jobEnded
    dsimp only
    split
    · exact within_trans h1 (apart_pinFails _ _ _ _)
    · exact h1

theorem apart_leaderPin (s : State) (op h row copies : Nat) : s.within pinApart (s.leaderPin op h row copies).2 := by
  unfold leaderPin
  split
  · rfl
  · split
    · rfl
    · extract_lets repl cur job s0 hot s1 s2
      split
      · rfl
      · split
        · rfl
        · have h0 : s.within pinApart s0 := s.apart_jobEnded h row job
          have hfull : s0.within pinApart (s0.latch Reg.PLC_STATUS 1) := s0.apart_latch _ 1
          split
          · exact within_trans h0 (s0.apart_replicate _ _ _ _)
          · split
            · exact within_trans h0 hfull
            · exact within_trans h0 (s0.apart_chorusAll _ _)
          · have h1 : s0.within pinApart s1 := by
              show s0.within pinApart (if _ then _ else s0)
              split
              · exact s0.apart_chorusAll _ _
              · rfl
            have h2 : s1.within pinApart s2 := by
              show s1.within pinApart (if _ then _ else s1)
              split
              · exact s1.apart_chorusAll _ _
              · rfl
            have h3 : s.within pinApart s2 := within_trans (within_trans h0 h1) h2
            dsimp only
            split
            · exact within_trans h3 (s2.apart_chorusAll _ _)
            · exact h3

/-- The instruction that writes a pin command. -/
def pinInstr (v : BitVec 32) (op : Nat) : Instr := if op = 1 then .pinReplicate v else if op = 2 then .pinHold v else .unpin v

theorem exec_pinInstr {s : State} {v : BitVec 32} {op : Nat} (hserv : s.serving = true) (h1 : 1 ≤ op) (h3 : op ≤ 3) :
    exec (pinInstr v op) s = .next (s.issuePin op v) := by
  have hopen := barOpen_of_serving hserv
  obtain rfl | rfl | rfl : op = 1 ∨ op = 2 ∨ op = 3 := by omega
  · exact exec_whenOpen hopen rfl rfl
  · exact exec_whenOpen hopen rfl rfl
  · exact exec_whenOpen hopen rfl rfl

/-- COPIES of a pin command: 0 stands for 64. -/
def pinCopies (v : Nat) : Nat := if v / 256 % 64 = 0 then 64 else v / 256 % 64

theorem pinCopies_fld (v : Nat) : (if fld v 13 8 = 0 then 64 else fld v 13 8) = pinCopies v := by
  rw [fld, Nat.shiftRight_eq_div_pow]
  rfl

/-- The pin that a command begins. -/
def begunPin (s : State) (op : Nat) (v : BitVec 32) : Pin :=
  { s.pin with busy := true, op := op, handle := s.regF Reg.PLC_PIN_ROW 15 0, row := s.regF Reg.PLC_PIN_ROW 55 16, copies := pinCopies v.toNat, outcome := 0,
               remote := false }

theorem issuePin_eq {s : State} {op : Nat} {v : BitVec 32} (hfree : s.pin.busy = false) (hop : v.toNat % 4 = op) :
    s.issuePin op v = (let h := s.regF Reg.PLC_PIN_ROW 15 0
      let row := s.regF Reg.PLC_PIN_ROW 55 16
      let s1 : State := { s with pin := s.begunPin op v }
      let ends (s : State) (st : Nat) : State := { s with pin := { s.pin with outcome := st } }
      match (s.table? h).bind s.tableDom with
      | none => ends s1 ST_PLC_PIN_ARG
      | some (_, d) =>
        if s.leads d then ends (s1.leaderPin op h row (pinCopies v.toNat)).2 (s1.leaderPin op h row (pinCopies v.toNat)).1
        else
          match d.leader with
          | some l =>
            let r := s1.sendWrite 0 (s.memberNode l) (.work (.pin op h row (pinCopies v.toNat))) none none
            ends { r.2 with pin := { r.2.pin with remote := true } } r.1
          | none => s1) := by
  have hgo : ¬(s.pin.busy = true ∨ fld v.toNat 1 0 ≠ op) := by
    rw [hfree]
    exact not_or.mpr ⟨Bool.false_ne_true, Classical.not_not.mpr hop⟩
  refine (if_neg hgo).trans ?_
  dsimp only
  rw [pinCopies_fld]
  rfl

theorem leaderPin_pin (s : State) (op h row copies : Nat) :
    (s.leaderPin op h row copies).2.pin = { s.pin with outcome := (s.leaderPin op h row copies).2.pin.outcome } :=
  congrArg State.pin (s.apart_leaderPin op h row copies)

section

variable {s : State} {op : Nat} {v : BitVec 32} (hfree : s.pin.busy = false) (hop : v.toNat % 4 = op)
include hfree hop

theorem issuePin_none (hdom : (s.table? (s.regF Reg.PLC_PIN_ROW 15 0)).bind s.tableDom = none) :
    s.issuePin op v = { s with pin := { s.begunPin op v with outcome := ST_PLC_PIN_ARG } } := by
  rw [issuePin_eq hfree hop]
  simp only [hdom]

theorem issuePin_leads {i : Nat} {d : Dom} (hdom : (s.table? (s.regF Reg.PLC_PIN_ROW 15 0)).bind s.tableDom = some (i, d)) (hleads : s.leads d = true) :
    s.issuePin op v = (let r := ({ s with pin := s.begunPin op v } : State).leaderPin op (s.regF Reg.PLC_PIN_ROW 15 0) (s.regF Reg.PLC_PIN_ROW 55 16) (pinCopies v.toNat)
      { r.2 with pin := { s.begunPin op v with outcome := r.1 } }) := by
  have hpin := ({ s with pin := s.begunPin op v } : State).leaderPin_pin op (s.regF Reg.PLC_PIN_ROW 15 0) (s.regF Reg.PLC_PIN_ROW 55 16) (pinCopies v.toNat)
  rw [issuePin_eq hfree hop]
  simp only [hdom]
  refine (if_pos hleads).trans ?_
  rw [hpin]

theorem issuePin_tells {i l : Nat} {d : Dom} (hdom : (s.table? (s.regF Reg.PLC_PIN_ROW 15 0)).bind s.tableDom = some (i, d)) (hleads : s.leads d = false)
    (hleader : d.leader = some l) (hreach : s.reaches (s.memberNode l) 0) :
    ∃ t, ({ s with pin := s.begunPin op v } : State).onlySends t ∧ s.issuePin op v = { t with pin := { s.begunPin op v with remote := true } } := by
  let u : State := { s with pin := s.begunPin op v }
  let m : WorkMsg := .pin op (s.regF Reg.PLC_PIN_ROW 15 0) (s.regF Reg.PLC_PIN_ROW 55 16) (pinCopies v.toNat)
  obtain ⟨hok, -, -⟩ := u.sendWrite_reaches 0 (s.memberNode l) (.work m) none none hreach
  have hsends := u.onlySends_sendWrite 0 (s.memberNode l) (.work m) none none
  have hpin : (u.sendWrite 0 (s.memberNode l) (.work m) none none).2.pin = s.begunPin op v := by rw [hsends.1]
  refine ⟨_, hsends, ?_⟩
  rw [issuePin_eq hfree hop]
  simp only [hdom]
  refine (if_neg (ne_true_of_eq_false hleads)).trans ?_
  simp only [hleader]
  rw [hpin, hok]
  rfl

end

theorem exec_pinComplete {s : State} (hserv : s.serving = true) :
    let u : State := { s with pinJobs := s.pinJobs.filter (fun j => s.pinWaits j.handle j.row) }
    let p := s.pin
    ∃ t, u.onlySends t ∧ exec .pinComplete s
      = .next (if p.busy = true ∧ (p.outcome ≠ 0 ∨ (p.remote = false ∧ s.pinWaits p.handle p.row = false))
          then { t with pin := { p with busy := false, remote := false, status := p.outcome } } else t) := by
  intro u p
  refine ⟨(s.pinJobs.filter (fun j => !s.pinWaits j.handle j.row)).foldl (fun s j => s.write 0 j.node (.work (.pinDone j.handle j.row ST_OK))) u,
    onlySends_foldl _ (fun _ _ => onlySends_write _ _ _ _) _ u, exec_whenServing hserv rfl ?_⟩
  dsimp only
  by_cases hdone : p.busy = true ∧ (p.outcome ≠ 0 ∨ (p.remote = false ∧ s.pinWaits p.handle p.row = false))
  · rw [if_pos hdone, if_neg]
    rintro (hidle | ⟨hzero, hwait⟩)
    · rw [hdone.1] at hidle
      exact Bool.noConfusion hidle
    · rcases hdone.2 with hne | ⟨hrem, hnot⟩
      · exact hne hzero
      · exact hwait.elim (ne_true_of_eq_false hrem) (ne_true_of_eq_false hnot)
  · rw [if_neg hdone, if_pos]
    by_cases hbusy : p.busy = true
    · refine .inr ⟨Classical.byContradiction fun hne => hdone ⟨hbusy, .inl hne⟩, Classical.byContradiction fun hnot => hdone ⟨hbusy, .inr ?_⟩⟩
      obtain ⟨hrem, hwait⟩ := not_or.mp hnot
      exact ⟨eq_false_of_ne_true hrem, eq_false_of_ne_true hwait⟩
    · exact .inl (by rw [eq_false_of_ne_true hbusy]; rfl)

end State

/-- Settles O27: the changes of each duty fall into few fields; a pin that a part carries out itself changes of that pin the outcome alone. -/
theorem leaderDuties : Obligations.LeaderDuties := by
  unfold Obligations.LeaderDuties
  refine ⟨fun s hserv => ⟨fun hs hdue => ?_, fun h row r t0 i d hfind hhome htab hdom hpend => ?_, fun v hfits => ?_, fun slot d loads buckets hd hvalid hleads => ?_,
    fun slot d loads buckets member digest hd hleads => ?_, fun slot d member digest hd hvalid hleads hout hdom => ?_⟩, fun s v hserv => ?_⟩
  · have hexec := State.exec_hotPeriod hserv hdue
    have hu := s.within_dieLoadsPut (List.range 8)
    have hreg {c : Nat} {g : Gpe} (hc : c < 8) (hg : s.gpes[c]? = some g) := State.dieLoadsPut_reg hs List.nodup_range (List.mem_range.mpr hc) hg
    generalize s.dieLoadsPut (List.range 8) = u at hexec hu hreg
    have hgpes : u.gpes = s.gpes := by
      rw [hu]
      rfl
    refine ⟨_, hexec, ?_, fun c g hc hg => ⟨hreg hc hg, ?_⟩⟩
    · rw [hu]
      rfl
    · show (List.map _ u.gpes)[c]? = _
      rw [hgpes, List.getElem?_map, hg]
      rfl
  · intro u isHeld
    have hland := State.landCopied_of_pend (row := row) htab hdom hpend
    have hlead (hleads : s.leads d = true) := State.exec_copyConfirmed_leads hserv hfind hhome htab hdom hpend hleads
    refine ⟨fun hleads hfull htargets hnot => ?_, fun hleads hfull hheld hpin => ?_, fun hleads hfull hpin => ?_, fun l hleads hleader hfull htargets => ?_⟩
    · rw [hlead hleads, hland hleads, hfull, List.isEmpty_eq_false_iff.mpr htargets]
      have hstays : ¬(isHeld = true ∧ (!r.pin) = true) := by
        rintro ⟨hheld, hpin⟩
        rcases hnot with hnot | hnot
        · exact absurd hheld (ne_true_of_eq_false hnot)
        · rw [hnot] at hpin
          exact Bool.noConfusion hpin
      refine congrArg Host.Outcome.next ((if_neg hstays).trans ((if_neg fun h => Bool.noConfusion h.2).trans (if_neg Bool.false_ne_true)))
    · rw [hlead hleads, hland hleads, hfull, hpin]
      exact congrArg Host.Outcome.next (if_pos ⟨hheld, rfl⟩)
    · rw [hlead hleads, hland hleads, hfull, hpin]
      exact congrArg Host.Outcome.next ((if_neg fun h => Bool.noConfusion h.2).trans (if_pos ⟨rfl, rfl⟩))
    · exact State.exec_copyConfirmed_tells hserv hfind hhome htab hdom hpend hleads hleader hfull htargets
  · refine exec_whenOpen (State.barOpen_of_serving hserv) rfl ?_
    refine (if_neg (Nat.not_lt.mpr hfits)).trans ?_
    rw [State.plcCtl_value v.isLt]
  · intro heard
    refine ⟨fun hdue => ⟨?_, _, State.exec_balanceCheck hserv hd hvalid hleads hdue loads buckets, ?_⟩, fun hdue => ?_⟩
    · rw [State.exec_balanceCheck hserv hd hvalid hleads hdue, State.balanced_none]
      rfl
    · have h1 : s.within State.balancing (s.modDom slot (fun _ => s.heardAtBalance slot d loads)) := rfl
      exact State.within_trans h1 (State.within_mono (s.within_balanced slot _ buckets))
    · refine exec_whenServing hserv rfl ?_
      simp only [hd, hvalid, hleads, hdue]
      rfl
  · have hnot : (d.valid && s.leads d) = false := by rw [hleads, Bool.and_false]
    refine ⟨?_, ?_, ?_, ?_⟩
    · refine exec_whenServing hserv rfl ?_
      simp only [hd, hnot]
      rfl
    · refine exec_whenServing hserv rfl ?_
      simp only [hd, hnot]
      rfl
    · refine exec_whenServing hserv rfl ?_
      simp only [hd, hnot]
      rfl
    · refine exec_whenServing hserv rfl ?_
      simp only [hd, hnot]
      exact if_pos (.inl rfl)
  · obtain ⟨hsame, hother⟩ := State.exec_rejoin (digest := digest) hserv hd hvalid hleads hout
    refine ⟨fun heq => ?_, hother⟩
    obtain ⟨t, hexec, hsends⟩ := hsame heq
    have hland := State.within_landRejoin hdom hout
    have hdoms : t.doms = (s.readmitted slot member).doms := by
      rw [hsends.doms, hland]
      rfl
    refine ⟨t, { d with excluded := d.excluded.filter (· != member), rejoined := insertNew member d.rejoined }, hexec, ?_, rfl,
      List.contains_iff_mem.mpr (mem_insertNew _ _), ?_⟩
    · rw [hdoms]
      exact State.modDom_doms_same hd _
    · rw [hsends.ras, hland]
      rfl
  · intro h row copies cmd
    refine ⟨fun op h1 h3 hskip => ?_, fun op h1 h3 hfree hop => ?_, ?_⟩
    · refine (State.exec_pinInstr hserv h1 h3).trans (congrArg _ (if_pos ?_))
      exact hskip
    · intro p u
      have hexec := State.exec_pinInstr (v := v) hserv h1 h3
      exact ⟨fun hnone => hexec.trans (congrArg _ (State.issuePin_none hfree hop hnone)),
        fun i d hsome hleads => hexec.trans (congrArg _ (State.issuePin_leads hfree hop hsome hleads)), fun i d l hsome hleads hleader hreach => by
          obtain ⟨t, hsends, hissue⟩ := State.issuePin_tells hfree hop hsome hleads hleader hreach
          exact ⟨t, hsends, hexec.trans (congrArg _ hissue)⟩⟩
    · exact State.exec_pinComplete hserv

end Sys2Proof.Machine

/-! What it means that a result is sound, for every shape of result that the model's functions have, and the rules of the combinators (O9). -/

namespace Sys2Proof.Machine

/-! ## Sound results -/

/-- An issued instruction leaves a sound state. -/
def Iss.Sound : Iss → Prop
  | .done s => s.Sound
  | .branch s _ => s.Sound
  | .goto s _ => s.Sound
  | .wait _ => True
  | .hold s _ => s.Sound
  | .fault _ _ => True
  | .fail s _ => s.Sound
  | .safe s => s.Sound
  | .exit s => s.Sound

/-- An access of device memory leaves a sound state. -/
def Dev.Sound : Dev → Prop
  | .bytes s _ => s.Sound
  | .wait s => s.Sound
  | .fail s _ => s.Sound

/-- What a look-up collects leaves a sound state. -/
def Coll.Sound : Coll → Prop
  | .full s _ => s.Sound
  | .more s _ => s.Sound
  | .bad s => s.Sound

/-- A step leaves a sound state when it goes on. -/
def KeepsSound : Host.Outcome State Fault Refusal → Prop
  | .next s => s.Sound
  | _ => True

/-- A state that may be missing is sound. -/
def SoundOpt : Option State → Prop
  | some s => s.Sound
  | none => True

theorem iss_ite {c : Prop} [Decidable c] {a b : Iss} (ha : a.Sound) (hb : b.Sound) : (if c then a else b).Sound := by
  split
  · exact ha
  · exact hb

theorem opt_ite {c : Prop} [Decidable c] {a b : Option State} (ha : SoundOpt a) (hb : SoundOpt b) : SoundOpt (if c then a else b) := by
  split
  · exact ha
  · exact hb

theorem opt_map {o : Option State} {f : State → State} (ho : SoundOpt o) (hf : ∀ {s : State}, s.Sound → (f s).Sound) : SoundOpt (o.map f) := by
  cases o with
  | none => trivial
  | some s => exact hf ho

theorem opt_bind {α : Type} {o : Option α} {f : α → Option State} (hf : ∀ x, SoundOpt (f x)) : SoundOpt (o.bind f) := by
  cases o with
  | none => trivial
  | some x => exact hf x

/-- A list that ascends and lists no default ascends when entries are left out. -/
theorem wf_filter {α : Type} [BEq α] {d : Nat → α} {p : Nat × α → Bool} {lo : Nat} {l : List (Nat × α)} (h : Sparse.wf d lo l = true) :
    Sparse.wf d lo (l.filter p) = true := by
  induction l generalizing lo with
  | nil => rfl
  | cons e rest ih =>
    obtain ⟨k, v⟩ := e
    simp only [Sparse.wf, Bool.and_eq_true, decide_eq_true_eq] at h
    obtain ⟨⟨hk, hv⟩, hrest⟩ := h
    rw [List.filter_cons]
    split
    · simp only [Sparse.wf, Bool.and_eq_true, decide_eq_true_eq]
      exact ⟨⟨hk, hv⟩, ih hrest⟩
    · exact Sparse.wf_mono d _ (Nat.le_succ_of_le hk) (ih hrest)

namespace State.Sound

variable {s : State}

/-! ## Choices and results in pairs -/

theorem of_ite {c : Prop} [Decidable c] {s t : State} (hs : s.Sound) (ht : t.Sound) : (if c then s else t).Sound := by
  split
  · exact hs
  · exact ht

theorem of_pair {α : Type} {p : α × State} {a : α} {t : State} (he : p = (a, t)) (hp : p.2.Sound) : t.Sound := by
  rw [he] at hp
  exact hp

theorem of_pair_fst {α : Type} {p : State × α} {a : α} {t : State} (he : p = (t, a)) (hp : p.1.Sound) : t.Sound := by
  rw [he] at hp
  exact hp

theorem of_triple {α β : Type} {p : α × β × State} {a : α} {b : β} {t : State} (he : p = (a, b, t)) (hp : p.2.2.Sound) : t.Sound := by
  rw [he] at hp
  exact hp

theorem of_bytes {d : Dev} {t : State} {b : Bytes} (he : d = .bytes t b) (hd : d.Sound) : t.Sound := by
  rw [he] at hd
  exact hd

theorem of_wait {d : Dev} {t : State} (he : d = .wait t) (hd : d.Sound) : t.Sound := by
  rw [he] at hd
  exact hd

theorem of_fail {d : Dev} {t : State} {n : Nat} (he : d = .fail t n) (hd : d.Sound) : t.Sound := by
  rw [he] at hd
  exact hd

theorem of_done {r : Iss} {t : State} (he : r = .done t) (hr : r.Sound) : t.Sound := by
  rw [he] at hr
  exact hr

theorem of_full {c : Coll} {t : State} {b : Bytes} (he : c = .full t b) (hc : c.Sound) : t.Sound := by
  rw [he] at hc
  exact hc

theorem of_more {c : Coll} {t : State} {b : Bytes} (he : c = .more t b) (hc : c.Sound) : t.Sound := by
  rw [he] at hc
  exact hc

theorem of_bad {c : Coll} {t : State} (he : c = .bad t) (hc : c.Sound) : t.Sound := by
  rw [he] at hc
  exact hc

theorem of_some {o : Option State} {t : State} (he : o = some t) (ho : SoundOpt o) : t.Sound := by
  rw [he] at ho
  exact ho

/-- A fold that carries a value with the state. -/
theorem foldl_snd {α β : Type} {f : β × State → α → β × State} (hf : ∀ {p : β × State} (x : α), p.2.Sound → (f p x).2.Sound) (l : List α) {p : β × State}
    (h : p.2.Sound) : (l.foldl f p).2.Sound :=
  List.foldlRecOn l f (motive := fun p => p.2.Sound) h fun _ h x _ => hf x h

theorem foldl_fst {α β : Type} {f : State × β → α → State × β} (hf : ∀ {p : State × β} (x : α), p.1.Sound → (f p x).1.Sound) (l : List α) {p : State × β}
    (h : p.1.Sound) : (l.foldl f p).1.Sound :=
  List.foldlRecOn l f (motive := fun p => p.1.Sound) h fun _ h x _ => hf x h

theorem foldl_snd2 {α β γ : Type} {f : β × γ × State → α → β × γ × State} (hf : ∀ {p : β × γ × State} (x : α), p.2.2.Sound → (f p x).2.2.Sound) (l : List α)
    {p : β × γ × State} (h : p.2.2.Sound) : (l.foldl f p).2.2.Sound :=
  List.foldlRecOn l f (motive := fun p => p.2.2.Sound) h fun _ h x _ => hf x h

theorem reset : State.reset.Sound := resetIsSound

/-! ## When the part works -/

section
variable (h : s.Sound)
include h

theorem whenServing {f : State → State} (hf : ∀ {s : State}, s.Sound → (f s).Sound) : (s.whenServing f).Sound := of_ite (hf h) h
theorem whenOpen {f : State → State} (hf : ∀ {s : State}, s.Sound → (f s).Sound) : (s.whenOpen f).Sound := of_ite (hf h) h
theorem whenOn {a : Access} {base : Nat} {f : State → State} (hf : ∀ {s : State}, s.Sound → (f s).Sound) : (s.whenOn a base f).Sound := of_ite (h.whenOpen hf) h
theorem onUpdate {pcie : Bool} {f : State → State} (hf : ∀ {s : State}, s.Sound → (f s).Sound) : (s.onUpdate pcie f).Sound := of_ite (hf h) h
theorem onMctp {pcie : Bool} {f : State → State} (hf : ∀ {s : State}, s.Sound → (f s).Sound) : (s.onMctp pcie f).Sound := of_ite (hf h) h

theorem byWords {f : Access → State → State} (hf : ∀ {s : State} (a : Access), s.Sound → (f a s).Sound) {a : Access} : (byWords f a s).Sound :=
  of_ite (hf _ (hf _ h)) (hf a h)

/-! ## Changes of what neither the memories nor the units are -/

theorem pending {x : List Instr} : ({ s with pending := x } : State).Sound := h
theorem pwr {x : Power} : ({ s with pwr := x } : State).Sound := h
theorem tables {x : List Table} : ({ s with tables := x } : State).Sound := h
theorem loads {x : List Load} : ({ s with loads := x } : State).Sound := h
theorem commits {x : List Commit} : ({ s with commits := x } : State).Sound := h
theorem nextCid {x : Nat} : ({ s with nextCid := x } : State).Sound := h
theorem heap {x : List RowCopy} : ({ s with heap := x } : State).Sound := h
theorem lostRows {x : List LostSet} : ({ s with lostRows := x } : State).Sound := h
theorem reqs {x : List OwnReq} : ({ s with reqs := x } : State).Sound := h
theorem reads {x : List RowRead} : ({ s with reads := x } : State).Sound := h
theorem nextRead {x : Nat} : ({ s with nextRead := x } : State).Sound := h
theorem combine {x : List Held} : ({ s with combine := x } : State).Sound := h
theorem migs {x : List Mig} : ({ s with migs := x } : State).Sound := h
theorem reps {x : List RepJob} : ({ s with reps := x } : State).Sound := h
theorem replicas {x : List (Nat × Nat × Nat)} : ({ s with replicas := x } : State).Sound := h
theorem cool {x : List (Nat × Nat × Nat)} : ({ s with cool := x } : State).Sound := h
theorem pin {x : Pin} : ({ s with pin := x } : State).Sound := h
theorem pinJobs {x : List PinJob} : ({ s with pinJobs := x } : State).Sound := h
theorem lastDie {x : Nat} : ({ s with lastDie := x } : State).Sound := h
theorem pair {x : Pair} : ({ s with pair := x } : State).Sound := h
theorem ctxs {x : List Ctx} : ({ s with ctxs := x } : State).Sound := h
theorem scripts {x : List Script} : ({ s with scripts := x } : State).Sound := h
theorem nextOp {x : Nat} : ({ s with nextOp := x } : State).Sound := h
theorem cueNames {x : List CueName} : ({ s with cueNames := x } : State).Sound := h
theorem direct {x : Bool} : ({ s with direct := x } : State).Sound := h
theorem time {x : TimeSt} : ({ s with time := x } : State).Sound := h
theorem mgmt {x : MgmtSt} : ({ s with mgmt := x } : State).Sound := h
theorem out {x : List Out} : ({ s with out := x } : State).Sound := h
theorem freeCtr {x : Nat} : ({ s with freeCtr := x } : State).Sound := h

/-! ## Changes of entries that are not counted among the units -/

theorem bindings {l : List Binding} (hl : l.length = s.bindings.length) : ({ s with bindings := l } : State).Sound :=
  of_shape h.mem { h.shape with bindings := hl.trans h.shape.bindings }

theorem scrPut {a : Nat} {b : Byte} : ({ s with scr := s.scr.put a b } : State).Sound := by
  obtain ⟨hregs, hhbm, hscr⟩ := (memOk_iff s).mp h.mem
  exact ⟨(memOk_iff _).mpr ⟨hregs, hhbm, Mem.put_wf s.scr a b hscr⟩, h.2⟩

theorem dropRows {p : RowCopy → Bool} : (s.dropRows p).Sound := h
theorem modMig {p : Mig → Bool} {f : Mig → Mig} : (s.modMig p f).Sound := h
theorem modReq {die src ctx op : Nat} {f : OwnReq → OwnReq} : (s.modReq die src ctx op f).Sound := h
theorem modDir {die : Nat} {f : Dir → Dir} : (s.modDir die f).Sound := h.dirs (List.length_modify ..)
theorem wingsRows {die : Nat} {f : List WRow → List WRow} : (s.wingsRows die f).Sound := h.modGpe
theorem modWings {die : Nat} {f : Wings → Wings} : (s.modWings die f).Sound := h.modGpe
theorem modGpeOp {die num : Nat} {f : GpeOp → GpeOp} : (s.modGpeOp die num f).Sound := h.modGpe
theorem modArray {cl i : Nat} {f : ArrayRegs → ArrayRegs} : (s.modArray cl i f).Sound := h.modCluster
theorem stopLoads {p : Load → Bool} : (s.stopLoads p).Sound := foldl (fun _ h => h.endLoad_some) _ h

theorem noteWrote {who : XReq} {f : Wrote → Wrote} : (s.noteWrote who f).Sound := by
  unfold State.noteWrote
  split
  · exact h.modCtx
  · exact h.modCmd
  · exact h

end

end State.Sound

end Sys2Proof.Machine

/-! That the functions of the model leave the part sound (O9), one lemma for each function that answers a state, in the order of the
model: the scored units, the loss protocol, admission and the embedding tables. -/

namespace Sys2Proof.Machine

namespace State.Sound

variable {s : State}

/-! ## Interrupts (R415) -/

theorem signal {v : Nat} (h : s.Sound) : (s.signal v).Sound := of_ite h.setReg h.emit

/-! ## References to versions (R68, R177) -/

theorem takeRef {hv : Nat × Nat} (h : s.Sound) : (s.takeRef hv).Sound := h.modVer

/-! ## Scored units (R536 to R540) -/

theorem putUnit {x : UnitSt} (h : s.Sound) : (s.putUnit x).Sound := h

theorem enterFencing {u : Nat} (h : s.Sound) : (s.enterFencing u).Sound := by
  unfold State.enterFencing
  extract_lets base
  split
  · exact h.declareLost
  · exact h.declareLost
  · exact h.putUnit

theorem enterWatch {x : UnitSt} (h : s.Sound) : (s.enterWatch x).Sound := by
  unfold State.enterWatch
  extract_lets add old
  have hadd : ∀ {s : State}, s.Sound → (add s).Sound := by
    intro s h
    unfold add
    exact h.putUnit.latch
  exact of_ite (hadd h) (of_ite h.putUnit.enterFencing (hadd h.putUnit))

theorem logCheck {u sev : Nat} {c : CheckRep} (h : s.Sound) : (s.logCheck u sev c).Sound := h.log

theorem unitEvent {u : Nat} {c : CheckRep} (h : s.Sound) : (s.unitEvent u c).Sound := by
  unfold State.unitEvent
  extract_lets x y s1
  have h1 : s1.Sound := h.logCheck
  split
  · exact h1.enterWatch
  · exact of_ite h1.putUnit.enterFencing h1.putUnit
  · exact h1.putUnit
  · exact h1.putUnit

theorem unitTransient {u : Nat} {c : CheckRep} (h : s.Sound) : (s.unitTransient u c).Sound := by
  unfold State.unitTransient
  extract_lets x t s1
  have h1 : s1.Sound := h.putUnit.logCheck
  exact of_ite h1.unitEvent h1

theorem checksCounted {u n : Nat} {c : CheckRep} (h : s.Sound) : (s.checksCounted u n c).Sound := by
  unfold State.checksCounted
  induction n - 1 with
  | zero => exact h.count.latch
  | succ m ih => exact ih.logCheck

theorem checkFailed {u n : Nat} {c : CheckRep} {event : Bool} (h : s.Sound) : (s.checkFailed u n c event).Sound := by
  unfold State.checkFailed
  extract_lets s1
  have h1 : s1.Sound := h.checksCounted
  exact of_ite h1.unitEvent h1.unitTransient

theorem checkMoved {u : Nat} {c : CheckRep} (h : s.Sound) : (s.checkMoved u c).Sound := h.checksCounted.logCheck

theorem selfTest {u : Nat} {passed : Bool} (h : s.Sound) : (s.selfTest u passed).Sound := of_ite h.count h.count.unitEvent

theorem execSelfTestInterval {unit : Nat} {passed : Bool} (h : s.Sound) : KeepsSound (Machine.execSelfTestInterval unit passed s) :=
  h.whenServing (fun h => of_ite h.putUnit.selfTest h)

theorem execUnitFenced {unit : Nat} (h : s.Sound) : KeepsSound (Machine.execUnitFenced unit s) :=
  h.whenServing (fun h => of_ite h.putUnit.latch.log h)

theorem execWatchListExpiry {unit : Nat} (h : s.Sound) : KeepsSound (Machine.execWatchListExpiry unit s) :=
  h.whenServing (fun h => of_ite h.putUnit h)

/-! ## The loss protocol (R543) -/

theorem startProbe {node : Nat} {portsFailed : Bool} (h : s.Sound) : (s.startProbe node portsFailed).Sound := by
  unfold State.startProbe
  extract_lets ask base s1
  have h1 : s1.Sound := h
  exact of_ite h (foldl (fun _ h => h.write) _ h1)

theorem reportSuspect {node : Nat} {portsFailed : Bool} (h : s.Sound) : (s.reportSuspect node portsFailed).Sound := by
  unfold State.reportSuspect
  extract_lets base s1
  have h1 : s1.Sound := h
  exact of_ite h (of_ite h.startProbe h1.write)

theorem declareNode {node reason : Nat} (h : s.Sound) : (s.declareNode node reason).Sound := by
  unfold State.declareNode
  extract_lets base s1 s2 parts s3
  have h1 : s1.Sound := h
  have h2 : s2.Sound := h1.setRegN
  have h3 : s3.Sound := foldl (fun _ h => h.write) _ h2
  exact h3.write

theorem execSuspect {h : WriteHdr} {node : Nat} {portsFailed : Bool} (hs : s.Sound) : KeepsSound (Machine.execSuspect h node portsFailed s) :=
  hs.whenServing (fun h => h.recvWrite (fun h => h.startProbe))

theorem probeSays {src node : Nat} {alive : Bool} (h : s.Sound) : (s.probeSays src node alive).Sound := of_ite h.write (of_ite h h)

theorem answerProbe {h : WriteHdr} {node : Nat} {alive : Bool} (hs : s.Sound) : (s.answerProbe h node alive).Sound := of_ite hs.probeSays hs.write

theorem execProbe {h : WriteHdr} {node : Nat} (hs : s.Sound) : KeepsSound (Machine.execProbe h node s) := by
  refine hs.whenServing (fun {s} h => ?_)
  refine h.recvWrite (fun {s} h => ?_)
  extract_lets dirs ports
  split
  · exact h.answerProbe
  · split
    · exact h.answerProbe
    · exact h.write

theorem execProbeAnswer {h : WriteHdr} {node : Nat} {alive : Bool} (hs : s.Sound) : KeepsSound (Machine.execProbeAnswer h node alive s) :=
  hs.whenServing (fun h => h.recvWrite (fun h => h.probeSays))

theorem execProbeTimeout {node : Nat} (h : s.Sound) : KeepsSound (Machine.execProbeTimeout node s) := by
  refine h.whenServing (fun {s} h => ?_)
  split
  · exact h
  · exact of_ite h.declareNode h

theorem execSuspectReportTimeout {node : Nat} (h : s.Sound) : KeepsSound (Machine.execSuspectReportTimeout node s) := by
  refine h.whenServing (fun {s} h => ?_)
  extract_lets base
  split
  · exact h
  · split
    · split
      · exact h
      · exact of_ite h.ras.startProbe h.ras.write
    · exact h

/-! ## Errors that make the part lost -/

theorem execEdgeFailed {edge : Nat} (h : s.Sound) : KeepsSound (Machine.execEdgeFailed edge s) := of_ite h.declareLost h

theorem execParityFailure {packet : Nat} (h : s.Sound) : KeepsSound (Machine.execParityFailure packet s) :=
  h.whenServing (fun h => of_ite h.count.latch.log.declareLost h.count.latch.log)

theorem execWatchdogExpired {core : Nat} (h : s.Sound) : KeepsSound (Machine.execWatchdogExpired core s) := of_ite h.declareLost h

/-! ## SRAM words (R533, R534) -/

theorem sramCorrected (h : s.Sound) : s.sramCorrected.Sound := h.count.latch

theorem sramUncorrectable {unit addr : Nat} (h : s.Sound) : (s.sramUncorrectable unit addr).Sound := h.count.latch.log

theorem sramRead {h : GranuleHealth} {unit addr : Nat} (hs : s.Sound) : (s.sramRead h unit addr).2.Sound := by
  unfold State.sramRead
  split
  · exact hs
  · exact hs.sramCorrected
  · exact hs.sramUncorrectable

theorem dirRead {die : Nat} {h : GranuleHealth} (hs : s.Sound) : (s.dirRead die h).Sound := by
  unfold State.dirRead
  split
  · rename_i x s1 he
    exact of_pair he hs.sramRead
  · rename_i x s1 he
    have h1 : s1.Sound := of_pair he hs.sramRead
    split
    · exact h1
    · exact h1.dirs (List.length_modify ..)

theorem scratchBadWord {cl off : Nat} (h : s.Sound) : (s.scratchBadWord cl off).Sound := h.sramUncorrectable

/-! ## Admission (R400, R402, R413) -/

theorem admitIf {k : Nat} {p : Nat → Bool} {f : Nat → Bytes → State → State} (h : s.Sound)
    (hf : ∀ {s : State} (x : Nat) (x_1 : Bytes), s.Sound → (f x x_1 s).Sound) :
    (s.admitIf k p f).Sound := by
  unfold State.admitIf
  split
  · exact h
  · split
    · exact h
    · split
      · exact h
      · extract_lets c s1
        have h1 : s1.Sound := h.modSlot
        exact of_ite (of_ite h1.endCmd (hf _ _ h1)) h

theorem admitOp {k op : Nat} {f : Nat → Bytes → State → State} (h : s.Sound) (hf : ∀ {s : State} (x : Nat) (x_1 : Bytes), s.Sound → (f x x_1 s).Sound) :
    (s.admitOp k op f).Sound :=
  h.admitIf (fun _ _ h => hf _ _ h)

/-! ## Commands that wait for other parts or for rows -/

theorem settle {k n : Nat} (h : s.Sound) : (s.settle k n).Sound := of_ite h h.endCmd

/-! ## Stored rows -/

theorem putRow {die h v row : Nat} {img : Bytes} {alone : Bool} (hs : s.Sound) : (s.putRow die h v row img alone).Sound := hs

/-! ## Lost rows (R78, R175) -/

theorem settleRelost (h : s.Sound) : s.settleRelost.Sound := by
  unfold State.settleRelost
  extract_lets left busy
  exact of_shape h.mem { h.shape with dirs := (List.length_map ..).trans h.shape.dirs }

theorem clearLost {t : Table} {v row : Nat} (h : s.Sound) : (s.clearLost t v row).Sound := of_ite h h.lostRows.settleRelost

theorem loseRow {h v row : Nat} (hs : s.Sound) : (s.loseRow h v row).Sound := by
  unfold State.loseRow
  split
  · exact hs
  · split
    · exact hs
    · exact of_ite hs hs.lostRows.latch

/-! ## Versions (R52, R54) -/

theorem newVersion {h v : Nat} (hs : s.Sound) : (s.newVersion h v).Sound := by
  unfold State.newVersion
  split
  · exact hs
  · extract_lets slot fb s1 upd
    have h1 : s1.Sound := hs.modTable
    exact of_ite hs (of_shape h1.mem { h1.shape with dirs := (List.length_map ..).trans h1.shape.dirs })

theorem setVState {h v : Nat} {st : VState} (hs : s.Sound) : (s.setVState h v st).Sound := hs.modVer

theorem reapTable {h : Nat} (hs : s.Sound) : (s.reapTable h).Sound := by
  unfold State.reapTable
  split
  · exact hs
  · exact of_ite (of_shape hs.mem { hs.shape with dirs := (List.length_map ..).trans hs.shape.dirs }) hs

theorem freeVersion {h v : Nat} (hs : s.Sound) : (s.freeVersion h v).Sound := by
  unfold State.freeVersion
  extract_lets s1 s2
  have h1 : s1.Sound := hs.modTable
  have h2 : s2.Sound := h1.dropRows
  split
  · exact hs
  · extract_lets s3
    have h3 : s3.Sound := of_shape h2.mem { h2.shape with gpes := (List.length_map ..).trans h2.shape.gpes, dirs := (List.length_map ..).trans h2.shape.dirs }
    exact h3.settleRelost.reapTable

/-! ## TBL_HEAP (R39, R40, R472) -/

theorem execTblHeapWrite {v : BitVec 32} (h : s.Sound) : KeepsSound (Machine.execTblHeapWrite v s) := h.whenOpen (fun h => of_ite h.latch h.setRegN)

/-! ## TBL_CREATE (R49, R50) -/

theorem setMismatch {number : Nat} {on : Bool} (h : s.Sound) : (s.setMismatch number on).Sound := by
  unfold State.setMismatch
  split
  · exact h.modDom
  · exact h

theorem createTable {made : Nat} {a : Bytes} (h : s.Sound) : (s.createTable made a).Sound := h.tables.setMismatch

theorem uncreate {h made : Nat} (hs : s.Sound) : (s.uncreate h made).Sound := hs

/-! ## Loads that run, and commands that end -/

theorem commitSwitched {cid : Nat} (h : s.Sound) : (s.commitSwitched cid).Sound := by
  unfold State.commitSwitched
  extract_lets s1
  have h1 : s1.Sound := h
  split
  · exact h
  · split
    · exact h
    · split
      · exact h1.write
      · exact h1

theorem killVersion {h v : Nat} (hs : s.Sound) : (s.killVersion h v).Sound := by
  unfold State.killVersion
  extract_lets hit
  exact freeVersion (foldl (fun _ h => h.modCommit.commitSwitched) _ hs)

theorem dropFree {h v : Nat} (hs : s.Sound) : (s.dropFree h v).Sound := by
  unfold State.dropFree
  split
  · exact hs
  · extract_lets s1 s2
    have h1 : s1.Sound := foldl (fun _ h => h.killVersion) _ hs
    have h2 : s2.Sound := by
      unfold s2
      split
      · exact h1.setVState.reportZero
      · exact h1
    exact of_ite h1 h2.reapTable

theorem settleDrop {k n h v : Nat} (hs : s.Sound) : (s.settleDrop k n h v).Sound := by
  unfold State.settleDrop
  extract_lets dropped
  split
  · exact hs
  · split
    · exact hs.workAll.dropFree.settle
    · exact hs.dropFree.settle

theorem settleCmd {k n : Nat} (h : s.Sound) : (s.settleCmd k n).Sound := by
  unfold State.settleCmd
  extract_lets s1
  have h1 : s1.Sound := h.finishLoad
  split
  · exact h1.settle
  · exact h1.settleDrop

theorem settleDrops (h : s.Sound) : s.settleDrops.Sound := foldl (fun _ h => h.settleCmd) _ h

theorem endLoad {k n : Nat} {status : Option Nat} (h : s.Sound) : (s.endLoad k n status).Sound := by
  unfold State.endLoad
  extract_lets base base1 s1
  have h_base : base.Sound := h.modLoad
  have h1 : s1.Sound := of_shape h_base.mem { h_base.shape with nports := h.shape.nports, roce := (List.length_map ..).trans h_base.shape.roce }
  split
  · exact h1.endCmd.finishLoad
  · exact h1.settleCmd

/-! ## TBL_LOAD (R55 to R61, R79, R596) -/

theorem issueReads {l : Load} {n : Nat} (h : s.Sound) : (s.issueReads l n).Sound := by
  induction n generalizing s with
  | zero => exact h
  | succ n ih =>
    unfold State.issueReads
    split
    · exact of_ite h (ih h.modRoce.sendPrio)
    · exact h

theorem noteRows {h v first count : Nat} (hs : s.Sound) : (s.noteRows h v first count).Sound := hs.modVer

theorem rowsArrived {h v first count : Nat} (hs : s.Sound) : (s.rowsArrived h v first count).Sound := by
  unfold State.rowsArrived
  split
  · exact hs
  · exact foldl (fun _ h => of_ite h.clearLost h) _ hs.noteRows

theorem sendRow {l : Load} {t : Table} {vslot row : Nat} {img : Bytes} (h : s.Sound) : (s.sendRow l t vslot row img).2.Sound := by
  unfold State.sendRow
  extract_lets kind
  dsimp -zeta only
  refine foldl_snd (fun {p} x h => ?_) _ h
  exact h.sendWrite

theorem rowsAcked {cmd : Nat × Nat} {h v : Nat} {rows : List RowImage} (hs : s.Sound) : (s.rowsAcked cmd h v rows).Sound := by
  unfold State.rowsAcked
  extract_lets left
  refine hs.foldl (fun {s} x h => ?_) _
  extract_lets s1
  have h1 : s1.Sound := h.rowsArrived
  split
  · exact h1.workAll
  · exact h1

theorem rowsGone {cmd : Nat × Nat} {h v node : Nat} {rows : List RowImage} (hs : s.Sound) : (s.rowsGone cmd h v node rows).Sound := by
  unfold State.rowsGone
  extract_lets slot other s1
  have h1 : s1.Sound := hs.rowsAcked
  exact of_ite h1.settleCmd h1.endLoad

theorem sendRows {l : Load} {t : Table} {vslot row : Nat} {imgs : List Bytes} (h : s.Sound) : (s.sendRows l t vslot row imgs).2.2.Sound := by
  induction imgs generalizing s row with
  | nil => exact h
  | cons img rest ih =>
    unfold State.sendRows
    split
    · exact h.setRegN
    · split
      · exact h
      · split
        · rename_i s1 he
          exact of_triple (p := (true, 0, s1)) rfl (of_pair he h.sendRow)
        · rename_i s1 he
          have h1 : s1.Sound := of_pair he h.sendRow
          exact ih h1

theorem setFallback {h v : Nat} {img : Bytes} (hs : s.Sound) : (s.setFallback h v img).Sound := hs.modVer

theorem unfallback {k n h v : Nat} (hs : s.Sound) : (s.unfallback k n h v).Sound := by
  unfold State.unfallback
  split
  · exact hs.workAll.setFallback
  · exact hs

theorem loadImages {k n : Nat} {imgs : List Bytes} (h : s.Sound) : (s.loadImages k n imgs).Sound := by
  unfold State.loadImages
  split
  · exact h
  · extract_lets imgs1
    split
    · exact h
    · split
      · exact h
      · split
        · exact h
        · split
          · clear_value imgs1
            split
            · exact h
            · extract_lets s1
              have h1 : s1.Sound := h.modLoad.setFallback
              split
              · exact h.setRegN.endLoad
              · split
                · rename_i x st s11 he
                  have h11 : s11.Sound := by
                    refine of_pair he ?_
                    split
                    · exact h1.workAll
                    · exact h1
                  exact of_ite h11.endLoad h11.unfallback.endLoad
          · split
            · exact h.endLoad
            · split
              · rename_i x m st s2 he
                have h2 : s2.Sound := of_triple he h.sendRows
                extract_lets s21 l'
                have h21 : s21.Sound := h2.modLoad
                exact of_ite h21.endLoad (of_ite h21.endLoad (of_ite h21.endLoad (of_ite h21.issueReads h21)))

/-! ## TBL_COMMIT (R62 to R66) -/

theorem beginCommit {cid : Nat} {own : Option (Nat × Nat)} {at_ : Word} {l : List (Nat × Nat)} {ticket : Bool} (h : s.Sound) :
    (s.beginCommit cid own at_ l ticket).Sound :=
  foldl (fun _ h => h.setVState) _ h

theorem uncommit {cid : Nat} (h : s.Sound) : (s.uncommit cid).Sound := by
  unfold State.uncommit
  split
  · exact h
  · exact foldl (fun _ h => h.setVState) _ h

theorem switch {h v : Nat} (hs : s.Sound) : (s.switch h v).Sound := by
  unfold State.switch
  extract_lets s1
  have h1 : s1.Sound := hs.modTable
  split
  · exact hs
  · split
    · exact h1.reportZero
    · exact h1

theorem execCommitInstantReached {cid : Nat} (h : s.Sound) : KeepsSound (Machine.execCommitInstantReached cid s) := by
  refine h.whenServing (fun {s} h => ?_)
  split
  · exact h
  · extract_lets now s1 s2
    have h1 : s1.Sound := foldl (fun _ h => h.switch) _ h
    have h2 : s2.Sound := of_ite h1.latch h1
    exact of_ite h h2.modCommit.commitSwitched

theorem setPair {p : Pair} (h : s.Sound) : (s.setPair p).Sound := of_ite h.pair.latch h

theorem reportPair {c : Commit} {status : Nat} {fin : Word} (h : s.Sound) : (s.reportPair c status fin).Sound := of_ite h.setPair.write h

theorem execCommitComplete {cid : Nat} (h : s.Sound) : KeepsSound (Machine.execCommitComplete cid s) := by
  refine h.whenServing (fun {s} h => ?_)
  extract_lets s1
  have h1 : s1.Sound := h
  split
  · exact h
  · extract_lets others freed dropped done all fin st
    split
    · exact h
    · extract_lets s2 s3
      have h2 : s2.Sound := h1.endCmd
      have h3 : s3.Sound := of_ite h2 h2.modCmd
      exact of_ite h h3.reportPair

/-! ## TBL_DROP (R70, R595) -/

theorem dropBuilding {h v : Nat} (hs : s.Sound) : (s.dropBuilding h v).Sound := by
  unfold State.dropBuilding
  extract_lets mine s1
  have h1 : s1.Sound := foldl (fun _ h => h.endLoad) _ hs
  exact h1.modTable

theorem dropTable {h v : Nat} (hs : s.Sound) : (s.dropTable h v).2.Sound := by
  unfold State.dropTable
  extract_lets s1
  have h1 : s1.Sound := hs.modTable
  split
  · exact hs
  · split
    · split
      · exact hs
      · split
        · exact hs
        · exact hs
        · exact hs.dropBuilding
    · dsimp -zeta only
      split
      · exact h1.dropBuilding
      · exact h1

theorem undrop {h v : Nat} (hs : s.Sound) : (s.undrop h v).Sound := hs.commits.modTable

/-! ## A command that fails on another part (R47, R54, R57) -/

theorem undoWork {m : WorkMsg} (h : s.Sound) : (s.undoWork m).Sound := by
  unfold State.undoWork
  extract_lets all
  have hall : ∀ {s : State} (h : Nat) (x : WorkMsg), s.Sound → (all s h x).Sound := by
    intro s h x h
    unfold all
    split
    · exact h.workAll
    · exact h
  split
  · exact (hall _ _ h).uncreate
  · exact (hall _ _ h).dropBuilding.killVersion
  · exact (hall _ _ h).uncommit
  · exact (hall _ _ h).undrop
  · exact h

theorem cmdFails {k n : Nat} {m : WorkMsg} {status : Nat} (h : s.Sound) : (s.cmdFails k n m status).Sound := by
  unfold State.cmdFails
  extract_lets s1
  have h1 : s1.Sound := by
    unfold s1
    split
    · exact h.unfallback
    · split
      · exact h.reportPair
      · exact h
    · exact h
  exact undoWork (of_ite h1.endLoad h1.endCmd)

/-! ## The table commands (R49 to R70) -/

theorem execTblCreate {slot : Nat} {answers : Answers} (h : s.Sound) : KeepsSound (Machine.execTblCreate slot answers s) := by
  refine h.admitOp (fun {s} x x h => ?_)
  extract_lets a st made s1
  have h1 : s1.Sound := h.nextCid.createTable
  split
  · exact h.endCmd
  · split
    · exact h.setMismatch.workAll.endCmd
    · exact of_ite h.setMismatch.endCmd (of_ite h.endCmd (of_ite h1.workAll.cmdFails h1.workAll.settle))

theorem execTblLoad {slot : Nat} {allow : Bool} (h : s.Sound) : KeepsSound (Machine.execTblLoad slot allow s) := by
  refine h.admitOp (fun {s} x x h => ?_)
  extract_lets l st
  split
  · exact h.endCmd
  · split
    · exact h
    · split
      · rename_i x1 st1 s1 he
        have h1 : s1.Sound := by
          refine of_pair he ?_
          split
          · split
            · exact h.newVersion.workAll
            · exact h.newVersion
          · exact h
        extract_lets s2
        have h2 : s2.Sound := h1
        exact of_ite h2.cmdFails (of_ite h2.issueReads h2)

theorem execTblCommit {slot : Nat} (h : s.Sound) : KeepsSound (Machine.execTblCommit slot s) := by
  refine h.admitOp (fun {s} x x h => ?_)
  extract_lets a st l x1 ticket cid base s1 s2
  have h1 : s1.Sound := h
  have h2 : s2.Sound := h1.beginCommit
  split
  · exact h.endCmd
  · split
    · rename_i x2 st1 s11 he
      have h11 : s11.Sound := by
        refine of_pair he ?_
        split
        · exact h2.workAll
        · exact h2
      exact of_ite h11.cmdFails h11.commitLoads

theorem execTblDrop {slot : Nat} (h : s.Sound) : KeepsSound (Machine.execTblDrop slot s) := by
  refine h.admitOp (fun {s} x x h => ?_)
  extract_lets a st
  split
  · exact h.endCmd
  · split
    · rename_i x1 st1 s1 he
      have h1 : s1.Sound := by
        refine of_pair he ?_
        split
        · exact h.workAll
        · exact h
      extract_lets s2
      have h2 : s2.Sound := h1.dropTable
      exact of_ite h2.cmdFails h2.settleDrop

/-! ## VERSION_FREED (R177) -/

theorem retireDone {h v : Nat} (hs : s.Sound) : (s.retireDone h v).Sound := hs.freeVersion.latch

theorem execVersionFreed {h v : Nat} (hs : s.Sound) : KeepsSound (Machine.execVersionFreed h v s) := by
  refine hs.whenServing (fun {s} h => ?_)
  split
  · exact h
  · split
    · exact of_ite h.workAll.retireDone h
    · exact h

end State.Sound

end Sys2Proof.Machine

/-! That the functions of the model leave the part sound (O9), one lemma for each function that answers a state, in the order of the
model: the placement director. -/

namespace Sys2Proof.Machine

namespace State.Sound

variable {s : State}

/-! ## Editing a directory copy -/

theorem setBentry {die slot b : Nat} {e : BEntry} (h : s.Sound) : (s.setBentry die slot b e).Sound := h.modDir

/-! ## Lost bitmaps (R175) -/

theorem markLost {slot b number : Nat} {p : Table → Bool} (h : s.Sound) : (s.markLost slot b number p).Sound := of_ite h.lostRows.latch h

/-! ## Wings rows of an owner -/

theorem dropWings {die : Nat} {p : Nat → Nat → Bool} (h : s.Sound) : (s.dropWings die p).Sound := h.wingsRows

theorem updateWings {die h slot row : Nat} {img : Bytes} (hs : s.Sound) : (s.updateWings die h slot row img).Sound := hs.wingsRows

/-! ## Migrations in progress -/

theorem startDrain {u : MigUnit} {which : Bool} {from_ to_ : Nat} {change : Option DirChange} (h : s.Sound) : (s.startDrain u which from_ to_ change).Sound :=
  of_ite h.modMig h

theorem drainReplicas {die h row : Nat} {old new : List Nat} (hs : s.Sound) : (s.drainReplicas die h row old new).Sound := by
  unfold State.drainReplicas
  split
  · exact hs
  · split
    · exact hs
    · exact of_ite (foldl (fun _ h => h.startDrain) _ hs) hs

/-! ## Chorus writes to every directory copy -/

theorem chorusAll {d : Dom} {c : DirChange} (h : s.Sound) : (s.chorusAll d c).Sound := foldl (fun _ h => h.write) _ h

/-! ## A directory change lands in a copy (R162, R167, R173 to R176) -/

theorem clearDegraded (h : s.Sound) : s.clearDegraded.Sound := of_ite h h.setEvent

theorem remirrorDone {slot : Nat} {was : Bool} (h : s.Sound) : (s.remirrorDone slot was).Sound := of_ite h h.clearDegraded.latch

theorem noteDegraded {old : State} {slot b number : Nat} (h : s.Sound) : (s.noteDegraded old slot b number).Sound := of_ite h.latch h

/-! ## Rows of which one home awaits its copy (R77, R78, R174; log entry 20) -/

theorem startRefill {die : Nat} {t : Table} {row : Nat} {isB : Bool} (h : s.Sound) : (s.startRefill die t row isB).Sound := by
  unfold State.startRefill
  extract_lets s1
  have h1 : s1.Sound := h.modDir
  split
  · exact h
  · extract_lets e
    split
    · exact h
    · exact of_ite (foldl (fun _ h => h.write) _ h1) h1

theorem loseBare {die : Nat} {t : Table} {row : Nat} (h : s.Sound) : (s.loseBare die t row).Sound := by
  unfold State.loseBare
  extract_lets s1
  have h1 : s1.Sound := h.modDir
  exact of_ite h (of_ite h1 (foldl (fun _ h => h.loseRow) _ h1))

theorem homeGone {die slot b : Nat} {isB : Bool} (h : s.Sound) : (s.homeGone die slot b isB).Sound := by
  unfold State.homeGone
  extract_lets here rows s1
  have h1 : s1.Sound := h.modDir
  refine foldl (fun {s} x h => ?_) _ h1
  split
  · exact h.loseBare
  · exact h

theorem noteRefilled {die h row : Nat} (hs : s.Sound) : (s.noteRefilled die h row).Sound := by
  unfold State.noteRefilled
  extract_lets sending
  split
  · exact hs
  · split
    · exact hs
    · split
      · exact hs.chorusAll
      · split
        · exact hs.write
        · exact hs

theorem noteNewHome {die number b : Nat} {isB : Bool} {old : Option Nat} {loc : Nat} (h : s.Sound) : (s.noteNewHome die number b isB old loc).Sound := by
  unfold State.noteNewHome
  split
  · exact h
  · exact of_ite h.startDrain h

theorem landReplica {die h row vmask : Nat} {locs : List Nat} {pin : Bool} (hs : s.Sound) : (s.landReplica die h row vmask locs pin).Sound := by
  unfold State.landReplica
  extract_lets old s1 s2
  have h1 : s1.Sound := hs.modDir
  have h2 : s2.Sound := h1
  exact h2.drainReplicas

theorem landMoved {die h row loc vmask : Nat} {isB : Bool} (hs : s.Sound) : (s.landMoved die h row loc vmask isB).Sound := by
  unfold State.landMoved
  extract_lets st cur s1
  have h1 : s1.Sound := hs.modDir
  split
  · exact hs
  · extract_lets homes old
    clear_value s1 old
    split
    · exact h1
    · exact of_ite h1.startDrain h1

theorem landClear {die h row : Nat} {p : Ovr → Bool} (hs : s.Sound) : (s.landClear die h row p).Sound := hs.modDir.drainReplicas

theorem landHeld {die h row vmask : Nat} (hs : s.Sound) : (s.landHeld die h row vmask).Sound := by
  unfold State.landHeld
  extract_lets s1
  have h1 : s1.Sound := hs.landClear
  exact of_ite h1.modDir h1.modDir

theorem landDropNode {die number node : Nat} (h : s.Sound) : (s.landDropNode die number node).Sound := by
  unfold State.landDropNode
  extract_lets gone s1
  have h1 : s1.Sound := h.modDir
  refine h1.foldl (fun {s} x h => ?_) _
  extract_lets s11
  have h11 : s11.Sound := of_ite h.latch h
  split
  · exact h
  · exact of_ite (of_ite h (foldl (fun _ h => h.loseRow) _ h)) h11.startRefill.loseBare

theorem refillMoved {die number slot b : Nat} {isB : Bool} (h : s.Sound) : (s.refillMoved die number slot b isB).Sound := by
  unfold State.refillMoved
  refine foldl (fun {s} x h => ?_) _ h
  split
  · exact h
  · exact of_ite h h.startRefill

theorem leaderChanged {number : Nat} (h : s.Sound) : (s.leaderChanged number).Sound := by
  unfold State.leaderChanged
  extract_lets s1 here mine pinned base s2 s3 s4 moves drains
  have h1 : s1.Sound := h.latch
  have h2 : s2.Sound := h1
  have h3 : s3.Sound := foldl (fun _ h => foldl (fun _ h => h.write) _ h) _ h2
  have h4 : s4.Sound := foldl (fun _ h => foldl (fun _ h => h.reportZero) _ h) _ h3
  split
  · exact h4
  · extract_lets s5
    have h5 : s5.Sound := by
      unfold s5
      split
      · exact h4
      · extract_lets s51
        have h51 : s51.Sound := foldl (fun _ h => h.write) _ h4
        split
        · refine foldl (fun {s} x h => ?_) _ h4
          split
          · exact of_ite h.chorusAll h
          · exact h
        · refine foldl (fun {s} x h => ?_) _ h51
          split
          · exact h.write
          · exact h
    refine foldl (fun {s} x h => ?_) _ h5
    refine foldl (fun {s} x h => ?_) _ h
    split
    · exact of_ite h.noteRefilled h
    · exact h

theorem landRejoin {number member : Nat} (h : s.Sound) : (s.landRejoin number member).Sound := by
  unfold State.landRejoin
  split
  · exact h
  · extract_lets s1 base s2
    have h1 : s1.Sound := h.modDom
    have h2 : s2.Sound := h1
    exact of_ite h (of_ite h2.leaderChanged h2)

theorem landEpoch {die : Nat} {u : MigUnit} {value : Nat} (h : s.Sound) : (s.landEpoch die u value).Sound := by
  unfold State.landEpoch
  extract_lets s1
  have h1 : s1.Sound := h.modMig
  split
  · exact h1
  · exact h1.modDir

theorem applyDir {die : Nat} {c : DirChange} (h : s.Sound) : (s.applyDir die c).Sound := by
  unfold State.applyDir
  split
  · split
    · exact h
    · extract_lets e e1 orphans e2 s1 s2
      have h1 : s1.Sound := h.setBentry
      have h2 : s2.Sound := h1.noteDegraded.homeGone
      exact of_ite h1 (of_ite h1.homeGone (of_ite h2.markLost h2))
  · extract_lets st
    split
    · exact h
    · extract_lets e was old e1 s1 s2
      have h1 : s1.Sound := h.noteNewHome.setBentry
      have h2 : s2.Sound := of_ite h1.refillMoved h1
      exact of_ite h2.remirrorDone h2
  · split
    · exact h
    · exact of_ite h.setBentry.markLost h.setBentry
  · exact h.landMoved
  · exact h.landReplica
  · exact h.landHeld
  · exact h.modDir
  · exact h.landClear
  · exact h.landClear
  · exact h.landEpoch
  · exact h.landDropNode
  · exact h.landRejoin
  · exact of_ite h.modDir.clearDegraded h.modDir
  · split
    · exact h
    · exact h.modDir.modDom

/-! ## Replicas (R160 to R163) -/

theorem copyRow {die : Nat} {t : Table} {row vmask : Nat} {targets : List Nat} (h : s.Sound) : (s.copyRow die t row vmask targets).Sound :=
  foldl (fun _ h => foldl (fun _ h => h.write) _ h) _ h

theorem beginCopy {h row home : Nat} {targets : List Nat} {pin : Bool} (hs : s.Sound) : (s.beginCopy h row home targets pin).Sound := by
  unfold State.beginCopy
  split
  · exact hs
  · exact of_ite hs.reps.copyRow hs.reps.write

theorem replicate {d : Dom} {t : Table} {row c : Nat} {pin : Bool} (h : s.Sound) : (s.replicate d t row c pin).2.Sound := by
  unfold State.replicate
  extract_lets h1 have_ refuse homes
  have hrefuse : ∀ {s : State}, s.Sound → (refuse s).2.Sound := by
    intro s h
    unfold refuse
    exact latch (of_ite h h.count)
  split
  · exact hrefuse h
  · split
    · split
      · exact hrefuse h
      · exact h.chorusAll
    · split
      · exact h
      · split
        · extract_lets short s1
          have h11 : s1.Sound := of_ite h.latch h
          split
          · exact h11
          · split
            · exact h11
            · split
              · exact hrefuse h11
              · split
                · exact h11
                · exact h11.beginCopy

theorem shed {ds : List Dom} {node limit : Nat} (h : s.Sound) : (s.shed ds node limit).Sound := by
  unfold State.shed
  extract_lets domOf rate locs mine order step
  have hstep : ∀ {acc : Nat × State} (i : Nat), acc.2.Sound → (step acc i).2.Sound := by
    intro acc i h
    unfold step
    split
    · exact h
    · extract_lets keep freed
      split
      · exact h
      · split
        · exact h
        · exact h.chorusAll
  refine foldl_snd (fun {p} x h => ?_) _ h
  exact hstep _ h

theorem takeReserve {number node gib : Nat} (h : s.Sound) : (s.takeReserve number node gib).Sound := by
  unfold State.takeReserve
  split
  · exact h
  · exact of_ite h.modDom.shed h.modDom

/-! ## Replicas that a creation loses (R162, R163, R184, R185) -/

theorem replicaRefused {h row loc : Nat} (hs : s.Sound) : (s.replicaRefused h row loc).Sound := hs

theorem pinFails {h row status : Nat} (hs : s.Sound) : (s.pinFails h row status).Sound := by
  unfold State.pinFails
  extract_lets mine s1 s2 base
  have h1 : s1.Sound := foldl (fun _ h => h.write) _ hs
  have h2 : s2.Sound := h1
  exact of_ite h2 h2

theorem giveUpCopy {h row : Nat} {targets : List Nat} {home : Option Nat} (hs : s.Sound) : (s.giveUpCopy h row targets home).Sound := by
  unfold State.giveUpCopy
  extract_lets s1 s2
  have h1 : s1.Sound := hs
  have h2 : s2.Sound := by
    unfold s2
    split
    · exact of_ite h1 h1.write
    · exact h1
  exact foldl (fun _ h => h.write) _ h2

/-! ## Starting a migration (R167, R171) -/

theorem beginMove {m : Mig} (h : s.Sound) : (s.beginMove m).Sound := by
  unfold State.beginMove
  extract_lets die s1 s2 kind
  have h1 : s1.Sound := h.modMig
  have h2 : s2.Sound := by
    unfold s2
    split
    · split
      · exact h1.setBentry
      · exact h1
    · split
      · exact of_ite h1 h1.modDir
      · exact h1
  exact foldl (fun _ h => h.write) _ h2

theorem tellEnd {number : Nat} {u : MigUnit} (h : s.Sound) : (s.tellEnd number u).Sound := by
  unfold State.tellEnd
  split
  · exact of_ite h h.write
  · exact h

theorem refuseMove {m : Mig} (h : s.Sound) : (s.refuseMove m).Sound := h.migs.latch.tellEnd

theorem startMove {u : MigUnit} {isB : Bool} {from_ to_ : Nat} {remirror : Bool} (h : s.Sound) : (s.startMove u isB from_ to_ remirror).Sound := by
  unfold State.startMove
  extract_lets m s1
  have h1 : s1.Sound := h
  exact of_ite (of_ite h1.beginMove h1.refuseMove) h1.write

theorem takeMove {u : MigUnit} {isB : Bool} {from_ to_ : Nat} {remirror : Bool} (h : s.Sound) : (s.takeMove u isB from_ to_ remirror).2.Sound := by
  unfold State.takeMove
  extract_lets base m
  split
  · exact h
  · split
    · exact h
    · exact h

theorem moveAnswered {u : MigUnit} {isB : Bool} {from_ to_ : Nat} {remirror : Bool} {result : Nat} (h : s.Sound) :
    (s.moveAnswered u isB from_ to_ remirror result).Sound := by
  unfold State.moveAnswered
  split
  · exact h
  · exact of_ite h.beginMove h.refuseMove

theorem orderMove {u : MigUnit} {isB : Bool} {from_ to_ : Nat} {remirror : Bool} (h : s.Sound) : (s.orderMove u isB from_ to_ remirror).Sound :=
  of_ite h.startMove h.migs.write

theorem noteMove {u : MigUnit} {isB : Bool} {from_ to_ : Nat} {remirror : Bool} {change : Option DirChange} (h : s.Sound) :
    (s.noteMove u isB from_ to_ remirror change).Sound := by
  unfold State.noteMove
  extract_lets base m s1
  have h1 : s1.Sound := of_ite h h
  split
  · exact of_ite h1.chorusAll h1
  · exact h1

/-! ## The end of a migration -/

theorem unitResident {m : Mig} (h : s.Sound) : (s.unitResident m).Sound := by
  unfold State.unitResident
  extract_lets die
  split
  · exact h
  · split
    · split
      · exact h.setBentry
      · exact h
    · exact h.modDir

theorem abortMove {m : Mig} (h : s.Sound) : (s.abortMove m).Sound := by
  unfold State.abortMove
  extract_lets s1 s2
  have h1 : s1.Sound := h.migs.unitResident
  have h2 : s2.Sound := of_ite h1.dropRows h1.write
  exact h2.count.latch.tellEnd

theorem freeOld {u : MigUnit} {loc : Nat} {all : Bool} (h : s.Sound) : (s.freeOld u loc all).Sound := by
  unfold State.freeOld
  extract_lets die has s1
  have h1 : s1.Sound := h.dropRows.dropWings
  split
  · exact h1
  · exact h1

theorem endDrain {m : Mig} (h : s.Sound) : (s.endDrain m).Sound := by
  unfold State.endDrain
  extract_lets s1 mine s2 s3
  have h1 : s1.Sound := h
  have h2 : s2.Sound := of_ite h1.write (of_ite (of_ite h1 h1.dropRows.dropWings) h1.freeOld)
  have h3 : s3.Sound := h2.unitResident.count.tellEnd
  exact of_ite (of_ite h3 h3.write) h2.tellEnd

theorem endDrains {slot : Nat} (h : s.Sound) : (s.endDrains slot).Sound := by
  unfold State.endDrains
  split
  · exact h
  · exact foldl (fun _ h => h.endDrain) _ h

/-! ## Domain registers (R144, R145, R147, R189 to R191) -/

theorem setDomain {k : Nat} {d : Dom} (h : s.Sound) : (s.setDomain k d).Sound := h.modDom.dirs (List.length_map ..)

theorem execPlcDomCfgWrite {a : Access} (h : s.Sound) : KeepsSound (Machine.execPlcDomCfgWrite a s) :=
  h.whenOn (fun h => of_ite h.latch h.setDomain)

theorem writeMembers {j : Nat} {a : Access} (h : s.Sound) : (State.writeMembers j a s).Sound := of_ite h.latch h.setDomain

theorem execPlcDomMembersWrite {a : Access} (h : s.Sound) : KeepsSound (Machine.execPlcDomMembersWrite a s) := by
  unfold Machine.execPlcDomMembersWrite
  extract_lets j
  exact h.whenOn (fun h => h.byWords (fun _ h => h.writeMembers))

/-! ## Hot rows (R160, R161, R195) -/

theorem moveRow {d : Dom} {t : Table} {row : Nat} {isB : Bool} {src own : Nat} {cands : List Nat} {fresh : Bool} (h : s.Sound) :
    (s.moveRow d t row isB src own cands fresh).Sound := by
  unfold State.moveRow
  split
  · exact h
  · exact of_ite h (of_ite h.count.latch h.orderMove)

theorem moveHot {d : Dom} {t : Table} {row : Nat} (h : s.Sound) : (s.moveHot d t row).Sound := by
  unfold State.moveHot
  split
  · exact h
  · exact h.moveRow

theorem moveFailed {d : Dom} {t : Table} {row own : Nat} (h : s.Sound) : (s.moveFailed d t row own).Sound := by
  unfold State.moveFailed
  split
  · split
    · exact h
    · exact of_ite h h.moveRow

theorem rowFailed {h row own : Nat} (hs : s.Sound) : (s.rowFailed h row own).Sound := by
  unfold State.rowFailed
  split
  · exact hs
  · exact of_ite hs.moveFailed hs

theorem heatRow {slot : Nat} {r : HeatRow} (h : s.Sound) : (s.heatRow slot r).Sound := by
  unfold State.heatRow
  extract_lets repl cur
  split
  · extract_lets busy c
    exact of_ite h (of_ite (of_ite h h.replicate) (of_ite h.chorusAll (of_ite h h.moveHot)))
  · exact h

theorem coolRows {slot : Nat} (h : s.Sound) : (s.coolRows slot).Sound := by
  unfold State.coolRows
  split
  · exact h
  · extract_lets mine
    refine foldl (fun {s} x h => ?_) _ h
    exact of_ite h (of_ite h.cool.chorusAll h)

theorem hotSlot {slot : Nat} {rows : List HeatRow} {loads : List DieLoad} (h : s.Sound) : (s.hotSlot slot rows loads).Sound := by
  unfold State.hotSlot
  extract_lets others
  split
  · exact h
  · extract_lets heat s1
    have h1 : s1.Sound := h.modDom
    exact of_ite (of_ite h.modDom h) (foldl (fun _ h => h.heatRow) _ h1.coolRows)

theorem execHotPeriod {reports : List (Nat × List HeatRow × List DieLoad)} (h : s.Sound) : KeepsSound (Machine.execHotPeriod reports s) := by
  refine h.whenServing (fun {s} h => ?_)
  extract_lets s1 s2
  have h1 : s1.Sound := foldl (fun _ h => h.setRegN) _ h
  have h2 : s2.Sound := foldl (fun _ h => h.hotSlot) _ h1
  exact of_ite h (h2.gpes (List.length_map ..))

theorem landCopied {h row vmask : Nat} {targets : List Nat} {pin full : Bool} (hs : s.Sound) : (s.landCopied h row vmask targets pin full).Sound := by
  unfold State.landCopied
  extract_lets isHeld s1
  have h1 : s1.Sound := of_ite hs.latch hs
  split
  · exact hs
  · split
    · exact hs
    · exact of_ite h1.giveUpCopy (of_ite h1.giveUpCopy.pinFails (of_ite h1.giveUpCopy h1.reps.chorusAll))

theorem execReplicaCopyConfirmed {h row : Nat} (hs : s.Sound) : KeepsSound (Machine.execReplicaCopyConfirmed h row s) := by
  refine hs.whenServing (fun {s} h => ?_)
  split
  · extract_lets copying gone s1
    have h1 : s1.Sound := h
    split
    · split
      · exact h
      · split
        · exact h.landCopied
        · split
          · exact h
          · exact h1.write
    · exact h
  · exact h

theorem writePlcCtl {v : Nat} (h : s.Sound) : (s.writePlcCtl v).Sound := by
  unfold State.writePlcCtl
  extract_lets s1 gib
  have h1 : s1.Sound := h.setRegN
  split
  · refine foldl (fun {s} x h => ?_) _ h1.shed
    split
    · exact h.write
    · exact h
  · exact h1

theorem execReplicaReserveLowered {v : BitVec 32} (h : s.Sound) : KeepsSound (Machine.execReplicaReserveLowered v s) :=
  h.whenOpen (fun h => h.writePlcCtl)

/-! ## Balance (R172) -/

theorem balanceStep {slot x : Nat} {d : Dom} {may : Nat → Bool} {est buckets l : List (Nat × Nat)} {t : State} (h : s.Sound)
    (he : s.balanceStep slot d x may est buckets = some (t, l)) : t.Sound := by
  unfold State.balanceStep at he
  obtain ⟨e, -, ht⟩ := Option.map_eq_some_iff.mp he
  obtain ⟨rfl, -⟩ := Prod.mk.inj ht
  exact h.orderMove

theorem balanceDie {slot : Nat} {d : Dom} {x total n : Nat} {may : Nat → Bool} {buckets est : List (Nat × Nat)} {fuel : Nat} (h : s.Sound) :
    (s.balanceDie slot d x total n may buckets est fuel).1.Sound := by
  induction fuel generalizing s est with
  | zero => exact h
  | succ fuel ih =>
    unfold State.balanceDie
    split
    · exact h
    · split
      · exact h
      · rename_i s1 est1 he
        exact ih (h.balanceStep he)

theorem execBalanceCheck {slot : Nat} {loads : List DieLoad} {buckets : List (Nat × Nat)} (h : s.Sound) :
    KeepsSound (Machine.execBalanceCheck slot loads buckets s) := by
  refine h.whenServing (fun {s} h => ?_)
  extract_lets auto
  split
  · exact h
  · extract_lets base d1 may dies est total run
    have hrun : ∀ {acc : State × List (Nat × Nat)} (x : Nat), acc.1.Sound → (run acc x).1.Sound := by
      intro acc x h
      unfold run
      exact h.balanceDie
    split
    · exact h
    · refine foldl_fst (fun {p} x h => ?_) _ h.modDom
      exact hrun _ h

/-! ## The steps of a migration (R166 to R169) -/

theorem unitState {m : Mig} {st : MState} (h : s.Sound) : (s.unitState m st).Sound := by
  unfold State.unitState
  extract_lets die
  split
  · split
    · exact h.setBentry
    · exact h
  · exact h.modDir

theorem execCopyConfirmed {u : MigUnit} (h : s.Sound) : KeepsSound (Machine.execCopyConfirmed u s) := by
  refine h.whenServing (fun {s} h => ?_)
  split
  · exact h
  · exact of_ite h h.unitState.modMig

theorem sendHeld {die n : Nat} {w : HeldWrite} (h : s.Sound) : (s.sendHeld die n w).Sound := by
  unfold State.sendHeld
  extract_lets go
  have hgo (w : WriteHdr) (body : Payload) : (go w body).Sound := by
    unfold go
    split
    · rename_i x s1 he
      have h1 : s1.Sound := of_pair he h.sendNamed
      exact h1.owe
    · rename_i s1 he
      have h1 : s1.Sound := of_pair he h.sendNamed
      exact h1.pay
  split
  · exact hgo _ _
  · exact hgo _ _
  · exact hgo _ _

theorem execFlipAcknowledged {u : MigUnit} (h : s.Sound) : KeepsSound (Machine.execFlipAcknowledged u s) := by
  refine h.whenServing (fun {s} h => ?_)
  extract_lets waits pending
  split
  · exact h
  · exact of_ite h h.chorusAll

theorem execEpochAdvance {slot : Nat} (h : s.Sound) : KeepsSound (Machine.execEpochAdvance slot s) := by
  refine h.whenServing (fun {s} h => ?_)
  split
  · exact h
  · exact of_ite h h.modDom.chorusAll

theorem noteLow {slot loc epoch : Nat} (h : s.Sound) : (s.noteLow slot loc epoch).Sound := h.modDom.endDrains

theorem execLowWaterReport {slot loc epoch : Nat} (h : s.Sound) : KeepsSound (Machine.execLowWaterReport slot loc epoch s) := by
  refine h.whenServing (fun {s} h => ?_)
  extract_lets last e s1
  have h1 : s1.Sound := h.gpes (List.length_modify ..)
  split
  · exact h
  · exact of_ite h (of_ite (of_ite h h1.workAll.noteLow) h.noteLow)

/-! ## Re-mirroring and rejoining (R174, R176) -/

theorem putDir {d : Dom} {c : DirChange} (h : s.Sound) : (s.putDir d c).Sound := foldl (fun _ h => h.write) _ h.applyDir

theorem rehome {d : Dom} {b : Nat} (h : s.Sound) : (s.rehome d b).2.Sound := by
  unfold State.rehome
  extract_lets u
  split
  · exact h
  · exact h.putDir

theorem remirrorOne {slot : Nat} {d : Dom} {b : Nat} {e : BEntry} (h : s.Sound) : (s.remirrorOne slot d b e).2.Sound := by
  unfold State.remirrorOne
  extract_lets u isB need new
  split
  · exact h
  · split
    · extract_lets cands
      split
      · exact h
      · exact h.orderMove
    · exact h

theorem remirror {slot : Nat} (h : s.Sound) : (s.remirror slot).Sound := by
  unfold State.remirror
  split
  · exact h
  · extract_lets r0 r
    have hr0 : r0.2.Sound := by
      unfold r0
      dsimp -zeta only
      refine foldl_snd (fun {p} x h => ?_) _ h
      exact h.rehome
    have hr : r.2.Sound := by
      unfold r
      dsimp -zeta only
      refine foldl_snd (fun {p} x h => ?_) _ hr0
      exact h.remirrorOne
    exact of_ite hr.latch hr

theorem execRemirrorRetry {slot : Nat} {loads : List DieLoad} (h : s.Sound) : KeepsSound (Machine.execRemirrorRetry slot loads s) := by
  refine h.whenServing (fun {s} h => ?_)
  split
  · exact h
  · exact of_ite h h.modDom.remirror

theorem landWelcome {w : Welcome} (h : s.Sound) : (s.landWelcome w).Sound := by
  unfold State.landWelcome
  extract_lets mine put
  split
  · exact h
  · extract_lets s1
    have h1 : s1.Sound := h.modDom
    exact of_shape h1.mem { h1.shape with dirs := (List.length_map ..).trans h1.shape.dirs }

theorem execRejoin {slot : Nat} {m : Joining} (h : s.Sound) : KeepsSound (Machine.execRejoin slot m s) := by
  refine h.whenServing (fun {s} h => ?_)
  split
  · exact h
  · exact of_ite h h.applyDir.chorusAll.write

/-! ## Pins (R184, R185, R192) -/

theorem leaderPin {op h row copies : Nat} (hs : s.Sound) : (s.leaderPin op h row copies).2.Sound := by
  unfold State.leaderPin
  extract_lets repl cur job s1
  have h1 : s1.Sound := by
    unfold s1
    clear_value job
    split
    · extract_lets s11
      have h11 : s11.Sound := hs.giveUpCopy
      exact of_ite h11.pinFails h11
    · exact hs
  split
  · exact hs
  · split
    · exact hs
    · extract_lets hot s11 s2
      have h11 : s11.Sound := of_ite h1.chorusAll h1
      have h2 : s2.Sound := of_ite h11.chorusAll h11
      split
      · exact hs
      · split
        · exact hs
        · split
          · exact h1.replicate
          · split
            · exact h1.latch
            · exact h1.chorusAll
          · exact of_ite h2.chorusAll h2

theorem issuePin {op : Nat} {v : BitVec 32} (h : s.Sound) : (s.issuePin op v).Sound := by
  unfold State.issuePin
  extract_lets h1 row c copies base s1 ends
  have h11 : s1.Sound := h
  have hends : ∀ {s : State} (st : Nat), s.Sound → (ends s st).Sound := by
    intro s st h
    unfold ends
    exact h
  split
  · exact h
  · split
    · exact hends _ h11
    · split
      · exact hends _ h11.leaderPin
      · split
        · exact hends _ h11.sendWrite
        · exact h11

theorem remotePin {node op h row copies : Nat} (hs : s.Sound) : (s.remotePin node op h row copies).2.Sound := by
  unfold State.remotePin
  split
  · rename_i x st s1 he
    have h1 : s1.Sound := of_pair he hs.leaderPin
    split
    · exact h1
    · exact h1

theorem pinDone {h row status : Nat} (hs : s.Sound) : (s.pinDone h row status).Sound := of_ite hs hs

theorem execPinReplicate {v : BitVec 32} (h : s.Sound) : KeepsSound (Machine.execPinReplicate v s) := h.whenOpen (fun h => h.issuePin)

theorem execPinHold {v : BitVec 32} (h : s.Sound) : KeepsSound (Machine.execPinHold v s) := h.whenOpen (fun h => h.issuePin)

theorem execUnpin {v : BitVec 32} (h : s.Sound) : KeepsSound (Machine.execUnpin v s) := h.whenOpen (fun h => h.issuePin)

theorem execPinComplete (h : s.Sound) : KeepsSound (Machine.execPinComplete s) :=
  h.whenServing (fun h => of_ite (foldl (fun _ h => h.write) _ h) (foldl (fun _ h => h.write) _ h))

end State.Sound

end Sys2Proof.Machine

/-! That the functions of the model leave the part sound (O9), one lemma for each function that answers a state, in the order of the
model: the update feed and the writes that reach a copy of a row. -/

namespace Sys2Proof.Machine

namespace State.Sound

variable {s : State}

/-! ## Frames to the producer (R202, R205) -/

theorem toProducer {i : Nat} {b : Bytes} (h : s.Sound) : (s.toProducer i b).Sound := h.sendPrio

theorem feedAck {i : Nat} (h : s.Sound) : (s.feedAck i).Sound := of_ite h.modStrm h.modStrm.toProducer

theorem feedNack {i : Nat} {lost : Bool} {first last : Word} (h : s.Sound) : (s.feedNack i lost first last).Sound := of_ite h h.toProducer

theorem nackGap {i : Nat} (h : s.Sound) : (s.nackGap i).Sound := h.modStrm.feedNack

/-! ## The ingest queue and the pause (R212) -/

theorem pauseOn {p : Nat} (h : s.Sound) : (s.pauseOn p).Sound := of_ite h h.modFPort.count.sendFrame

theorem pauseOff {p : Nat} (h : s.Sound) : (s.pauseOff p).Sound := of_ite h.modFPort.sendFrame h

/-! ## Order and gaps (R208, R209) -/

theorem enqueueRecord {p i : Nat} {r : DeltaRec} {bytes : Nat} (h : s.Sound) : (State.enqueue s p i r bytes).Sound := by
  unfold State.enqueue
  extract_lets s0 s1
  have h1 : s1.Sound := h.modFPort.modStrm
  exact of_ite h1.pauseOn h1

theorem absorb {i n : Nat} (h : s.Sound) : (s.absorb i n).Sound := by
  induction n generalizing s with
  | zero => exact h
  | succ n ih =>
    unfold State.absorb
    split
    · exact h
    · exact of_ite (ih h.enqueueRecord.modStrm) h

theorem advance {i : Nat} (h : s.Sound) : (s.advance i).Sound := by
  unfold State.advance
  extract_lets n s1
  have h1 : s1.Sound := h.absorb
  exact of_ite h1.modStrm (of_ite h1.modStrm.nackGap h1)

theorem gapLost {i : Nat} (h : s.Sound) : (s.gapLost i).Sound := by
  unfold State.gapLost
  extract_lets x first last s1 port s2 s3
  have h1 : s1.Sound := h.feedNack
  have h2 : s2.Sound := h1.setRegN.setReg.setReg
  have h3 : s3.Sound := h2.latch
  exact of_ite h h3.modStrm.advance

theorem makeRoom {p n fuel : Nat} (h : s.Sound) : (s.makeRoom p n fuel).Sound := by
  induction fuel generalizing s with
  | zero => exact h
  | succ fuel ih =>
    unfold State.makeRoom
    split
    · exact h
    · split
      · exact h
      · exact ih h.gapLost

theorem takeRecord {p i : Nat} {r : DeltaRec} {bytes : Nat} (h : s.Sound) : (s.takeRecord p i r bytes).Sound := by
  unfold State.takeRecord
  extract_lets x s1
  have h1 : s1.Sound := h.modStrm
  exact of_ite h.modStrm (of_ite h.enqueueRecord.modStrm.advance (of_ite h1 h1.modStrm.nackGap))

theorem feedRecord {p i : Nat} {r : DeltaRec} {bytes : Nat} (h : s.Sound) : (s.feedRecord p i r bytes).Sound := by
  unfold State.feedRecord
  extract_lets x ahead
  exact of_ite h.makeRoom.takeRecord h.takeRecord

/-! ## Frames from the producer (R201 to R204) -/

theorem feedRecords {p i stream : Nat} {seq : Word} {b : Bytes} {n : Nat} (h : s.Sound) : (s.feedRecords p i stream seq b n).Sound := by
  induction n generalizing s seq b with
  | zero => exact h
  | succ n ih =>
    unfold State.feedRecords
    split
    · exact h.modStrm
    · exact ih h.feedRecord

theorem noteSource {i : Nat} {f : FeedFrame} (h : s.Sound) : (s.noteSource i f).Sound := h.modStrm

theorem dropHeld {i : Nat} (h : s.Sound) : (s.dropHeld i).Sound := h.modStrm

theorem resync {i : Nat} {seq : Word} (h : s.Sound) : (s.resync i seq).Sound := h.dropHeld.modStrm

theorem feedFrame {f : FeedFrame} (h : s.Sound) : (s.feedFrame f).Sound := by
  unfold State.feedFrame
  extract_lets p fp seq
  refine h.rxUdp (fun {s} h => ?_)
  split
  · exact h.dropFrame
  · split
    · rename_i x full s1 he
      have h1 : s1.Sound := of_pair he h.sramRead
      split
      · exact h1.count.latch
      · split
        · exact h1.dropFrame
        · split
          · exact h1.count
          · split
            · exact h1.count.latch
            · split
              · exact h1.count
              · split
                · exact h1.count
                · extract_lets s11
                  have h11 : s11.Sound := h1.noteSource
                  exact of_ite h11.resync.feedAck (of_ite h11.count.feedAck h11.count.feedRecords)

/-! ## What a stream record owes (R215, R217, R219) -/

theorem settleOwed (h : s.Sound) : s.settleOwed.Sound := foldl (fun _ h => h.pay) _ h

theorem execData {f : FeedFrame} (h : s.Sound) : KeepsSound (Machine.execData f s) := h.whenServing (fun h => h.feedFrame)

theorem execResync {f : FeedFrame} (h : s.Sound) : KeepsSound (Machine.execResync f s) := h.whenServing (fun h => h.feedFrame.settleOwed)

/-! ## Ingest (R210, R211, R215, R216, R219) -/

theorem discard {i st : Nat} (h : s.Sound) : (s.discard i st).Sound := h.modStrm.latch

theorem toTwin {i : Nat} {r : DeltaRec} (h : s.Sound) : (s.toTwin i r).Sound := of_ite h h.sendWrite.modStrm

theorem ingest {i : Nat} {r : DeltaRec} (h : s.Sound) : (s.ingest i r).Sound := by
  unfold State.ingest
  split
  · exact of_ite h.modStrm h.discard
  · split
    · exact h.discard
    · extract_lets slot f
      split
      · exact h.discard
      · exact h.sendWrite.modStrm

theorem execRecordIngested {port : Nat} (h : s.Sound) : KeepsSound (Machine.execRecordIngested port s) := by
  refine h.whenServing (fun {s} h => ?_)
  split
  · exact h
  · extract_lets s1 wait s2 low s3
    have h1 : s1.Sound := h.modFPort
    have h2 : s2.Sound := of_ite h1.setRegN h1
    have h3 : s3.Sound := of_ite h2.pauseOff h2
    exact of_ite h h3.ingest.toTwin.settleOwed

theorem execXoffRepeat {port : Nat} (h : s.Sound) : KeepsSound (Machine.execXoffRepeat port s) :=
  h.whenServing (fun h => of_ite h.modFPort.sendFrame h)

theorem execGapDeclaredLost {i : Nat} (h : s.Sound) : KeepsSound (Machine.execGapDeclaredLost i s) := h.whenServing (fun h => of_ite h.gapLost h)

theorem execSendAck {i : Nat} (h : s.Sound) : KeepsSound (Machine.execSendAck i s) := h.whenServing (fun h => of_ite h.modStrm.feedAck h)

theorem execSendNack {i : Nat} (h : s.Sound) : KeepsSound (Machine.execSendNack i s) := h.whenServing (fun h => of_ite h.nackGap h)

theorem execMarkComplete {i : Nat} (h : s.Sound) : KeepsSound (Machine.execMarkComplete i s) := by
  refine h.whenServing (fun {s} h => ?_)
  split
  · exact h
  · exact of_ite h h.modStrm.feedAck.settleOwed

theorem execTwinRecord {h : WriteHdr} {first : Bool} {r : DeltaRec} (hs : s.Sound) : KeepsSound (Machine.execTwinRecord h first r s) := by
  refine hs.whenServing (fun {s} h => ?_)
  refine h.recvOwed (fun {s} h => ?_)
  split
  · exact h.count
  · extract_lets s1 s2
    have h1 : s1.Sound := of_ite h.resync h
    have h2 : s2.Sound := h1.modStrm.feedRecord
    split
    · exact h1.count
    · split
      · exact h2
      · exact h2.owe

theorem execPairLinkLost {i : Nat} (h : s.Sound) : KeepsSound (Machine.execPairLinkLost i s) :=
  h.whenServing (fun h => of_ite (h.modStrm.link (by rfl)).latch.settleOwed h)

/-! ## Tickets and pair reports (R228 to R230) -/

theorem armTicket {fromTwin : Bool} {number : Nat} {at_ : Word} (h : s.Sound) : (s.armTicket fromTwin number at_).Sound := h

theorem writePairReq {v : Nat} (h : s.Sound) : (s.writePairReq v).Sound := of_ite h.setRegN h.setRegN.pair.write

theorem execPairReqGo {v : BitVec 32} (h : s.Sound) : KeepsSound (Machine.execPairReqGo v s) := h.whenOpen (fun h => h.writePairReq)

theorem execTicketProposal {h : WriteHdr} {number : Nat} {at_ : Word} (hs : s.Sound) : KeepsSound (Machine.execTicketProposal h number at_ s) := by
  refine hs.whenServing (fun {s} h => ?_)
  refine h.recvWrite (fun {s} h => ?_)
  extract_lets s1
  have h1 : s1.Sound := h.armTicket.latch
  split
  · exact h
  · exact h1.write

theorem execTicketAccepted {number : Nat} (h : s.Sound) : KeepsSound (Machine.execTicketAccepted number s) := by
  refine h.whenServing (fun {s} h => ?_)
  split
  · exact h
  · exact of_ite h.armTicket h

theorem execTicketTimeout (h : s.Sound) : KeepsSound (Machine.execTicketTimeout s) := by
  refine h.whenServing (fun {s} h => ?_)
  extract_lets base
  split
  · exact h
  · exact of_ite h.pair.latch h

theorem execTicketExpired (h : s.Sound) : KeepsSound (Machine.execTicketExpired s) := h.whenServing (fun h => of_ite h h)

theorem execPairReport {h : WriteHdr} {tables : List (Nat × Nat)} {status : Nat} {finish : Word} (hs : s.Sound) :
    KeepsSound (Machine.execPairReport h tables status finish s) :=
  hs.whenServing (fun h => h.recvWrite (fun h => of_ite h h.setPair))

theorem execPairReportTimeout (h : s.Sound) : KeepsSound (Machine.execPairReportTimeout s) := h.whenServing (fun h => of_ite h h)

/-! ## Ingest on and off (R231, R232) -/

theorem feedStop {p : Nat} (h : s.Sound) : (s.feedStop p).Sound := h.modFPort.pauseOn

theorem feedEnable {p : Nat} {on : Bool} (h : s.Sound) : (s.feedEnable p on).Sound := by
  unfold State.feedEnable
  split
  · exact of_ite h h.feedStop
  · exact h.modFPort
  · exact of_ite h.modFPort h
  · exact h.modFPort

theorem writeFeedCtl {v : Nat} (h : s.Sound) : (s.writeFeedCtl v).Sound := by
  unfold State.writeFeedCtl
  extract_lets cur off same rest s1 s2
  have h1 : s1.Sound := h.setRegN
  have h2 : s2.Sound := of_ite h1 h1.latch
  exact h2.feedEnable.feedEnable

theorem execFeedEn {v : BitVec 32} (h : s.Sound) : KeepsSound (Machine.execFeedEn v s) := h.whenOpen (fun h => h.writeFeedCtl)

theorem execFeedStopped {port : Nat} (h : s.Sound) : KeepsSound (Machine.execFeedStopped port s) :=
  h.whenServing (fun h => of_ite h.pauseOff.modFPort h)

theorem execFeedStarted {port : Nat} (h : s.Sound) : KeepsSound (Machine.execFeedStarted port s) :=
  h.whenServing (fun h => of_ite h (of_ite h.feedStop h.modFPort))

/-! ## Feed registers (R213, R234, R236, R237, R240) -/

theorem writeSkid {p : Nat} {a : Access} (h : s.Sound) : (State.writeSkid p a s).Sound := of_ite h.latch h.setRegN

theorem execFeedSkidWrite {a : Access} (h : s.Sound) : KeepsSound (Machine.execFeedSkidWrite a s) := by
  unfold Machine.execFeedSkidWrite
  extract_lets p
  exact h.whenOn (fun h => h.byWords (fun _ h => h.writeSkid))

theorem execFeedStrmCfgWrite {a : Access} (h : s.Sound) : KeepsSound (Machine.execFeedStrmCfgWrite a s) := by
  refine h.whenOn (fun {s} h => ?_)
  extract_lets i x v y valid s1
  have h1 : s1.Sound := of_ite h h.latch
  exact of_ite (of_ite h1 h1.dropHeld.modStrm.settleOwed) (of_ite h.latch h.modStrm)

theorem execQdelayRead {port : Nat} (h : s.Sound) : KeepsSound (Machine.execQdelayRead port s) := of_ite h (of_ite h.emit.setReg (of_ite h.emit h))

/-! ## The copy of a row -/

theorem noteHeat {die h row reads deltas : Nat} (hs : s.Sound) : (s.noteHeat die h row reads deltas).Sound := hs.modGpe

theorem putImage {die h v row : Nat} {img : Bytes} {alone : Bool} (hs : s.Sound) : (s.putImage die h v row img alone).Sound := by
  unfold State.putImage
  split
  · exact hs
  · split
    · exact hs
    · exact hs.putRow.updateWings

theorem setImage {die h v row : Nat} {img : Bytes} (hs : s.Sound) : (s.setImage die h v row img).Sound := hs.putImage

theorem sendForwards {die : Nat} {f : RowForward} {l : List (Nat × FwdWay)} (h : s.Sound) : (s.sendForwards die f l).2.Sound := by
  induction l generalizing s with
  | nil => exact h
  | cons e rest ih => exact ih h.sendNamed

/-! ## The apply point (R221 to R225) -/

theorem applyDelta {h : WriteHdr} {r : DeltaRec} (hs : s.Sound) : (s.applyDelta h r).2.Sound := by
  unfold State.applyDelta
  split
  · exact hs
  · split
    · exact hs
    · split
      · exact hs
      · split
        · exact hs
        · split
          · exact hs
          · extract_lets s1 f res
            have h1 : s1.Sound := hs.setImage.noteHeat
            split
            · rename_i x xs s2 he
              have h2 : s2.Sound := of_pair he h1.sendForwards
              split
              · exact h2
              · exact h2.owe

/-! ## Writes at a copy in a migration (R166, R167) -/

theorem relay {h : WriteHdr} {dst : Nat} {body : Payload} (hs : s.Sound) : (s.relay h dst body).2.Sound := by
  unfold State.relay
  split
  · rename_i x x' s1 he
    have h1 : s1.Sound := of_pair he hs.sendNamed
    exact h1.owe
  · rename_i x s1 he
    exact of_pair he hs.sendNamed

theorem hold {m : Mig} {w : HeldWrite} (h : s.Sound) : (s.hold m w).2.Sound := h.modMig.count

theorem copyWrite {h : WriteHdr} {holds : Mig → Bool} {body marked : Payload} {held : HeldWrite} {w : State → State} (hs : s.Sound)
    (hw : ∀ {s : State}, s.Sound → (w s).Sound) :
    (s.copyWrite h holds body marked held w).2.Sound := by
  unfold State.copyWrite
  extract_lets own
  split
  · split
    · exact hs.hold
    · exact (hw hs).relay
    · split
      · exact hs.relay
      · split
        · exact (hw hs).relay
        · exact hw hs
    · exact hw hs
  · split
    · exact (hw hs).relay
    · exact hw hs

theorem putRows {kind : RowsKind} {die h v : Nat} {rows : List RowImage} (hs : s.Sound) : (s.putRows kind die h v rows).Sound := by
  unfold State.putRows
  split
  · exact hs
  · split
    · exact hs
    · refine hs.foldl (fun {s} x h => ?_) _
      extract_lets s1
      have h1 : s1.Sound := h.putImage
      split
      · exact h.putImage
      · exact h.putImage
      · exact h1
      · exact h.setImage.clearLost

theorem rowsToNew {die h v : Nat} {rows : List RowImage} (hs : s.Sound) : (s.rowsToNew die h v rows).Sound :=
  foldl (fun _ h => foldl (fun _ h => foldl (fun _ h => h.write) _ h) _ (foldl (fun _ h => h.write) _ h)) _ hs

theorem takeImage {die : Nat} {f : RowForward} (h : s.Sound) : (s.takeImage die f).Sound := by
  unfold State.takeImage
  extract_lets s1
  have h1 : s1.Sound := h.setImage
  split
  · exact of_ite h1.clearLost h1
  · exact h1

theorem takeForward {h : WriteHdr} {f : RowForward} (hs : s.Sound) : (s.takeForward h f).2.Sound := by
  unfold State.takeForward
  extract_lets holds w
  have hw : ∀ {s : State}, s.Sound → (w s).Sound := by
    intro s h
    unfold w
    exact h.takeImage
  split
  · exact hw hs
  · exact hs.copyWrite (fun h => hw h)

theorem takeRows {h : WriteHdr} {kind : RowsKind} {hd v : Nat} {rows : List RowImage} (hs : s.Sound) : (s.takeRows h kind hd v rows).2.Sound := by
  unfold State.takeRows
  extract_lets holds
  split
  · split
    · exact hs
    · exact hs.copyWrite (fun h => h.putRows.rowsToNew)
  · split
    · exact hs
    · exact hs.copyWrite (fun h => h.putRows.rowsToNew)
  · split
    · exact hs.latch
    · exact hs.putRows
  · exact hs.putRows

theorem takeDelta {h : WriteHdr} {r : DeltaRec} (hs : s.Sound) : (s.takeDelta h r).2.Sound := by
  unfold State.takeDelta
  split
  · exact hs
  · split
    · exact hs
    · split
      · exact hs.relay
      · split
        · exact hs.hold
        · exact hs.applyDelta

/-! ## The hold queue is released (R167) -/

theorem answerHeld {h : WriteHdr} {r : Option Nat × State} (hr : r.2.Sound) : (Machine.answerHeld h r).Sound := by
  unfold Machine.answerHeld
  split
  · exact hr
  · exact hr.pay

theorem release {w : HeldWrite} (h : s.Sound) : (s.release w).Sound := by
  unfold State.release
  split
  · exact h.takeDelta.answerHeld
  · exact h.takeForward.answerHeld
  · exact h.takeRows.answerHeld

theorem execFlip {u : MigUnit} (h : s.Sound) : KeepsSound (Machine.execFlip u s) := by
  refine h.whenServing (fun {s} h => ?_)
  split
  · exact h
  · extract_lets c s1 s2 s3 s4
    have h1 : s1.Sound := h.modMig
    have h2 : s2.Sound := h1.applyDir
    have h3 : s3.Sound := of_ite h2.applyDir h2.write
    have h4 : s4.Sound := of_ite (foldl (fun _ h => h.release) _ h3) (foldl (fun _ h => h.sendHeld) _ h3)
    split
    · exact h
    · split
      · exact h4
      · split
        · exact h4.chorusAll
        · split
          · exact h4.write
          · exact h4

theorem backToCopying {m : Mig} (h : s.Sound) : (s.backToCopying m).Sound := by
  unfold State.backToCopying
  extract_lets s1 s2
  have h1 : s1.Sound := h.count
  have h2 : s2.Sound := of_ite h1.abortMove h1.unitState.modMig
  exact foldl (fun _ h => h.release) _ h2

theorem spill {die : Nat} (h : s.Sound) : (s.spill die).Sound := by
  unfold State.spill
  extract_lets mine used
  exact of_ite (foldl (fun _ h => h.backToCopying) _ h) h

theorem execHoldTimerExpires {u : MigUnit} (h : s.Sound) : KeepsSound (Machine.execHoldTimerExpires u s) := by
  refine h.whenServing (fun {s} h => ?_)
  split
  · exact h
  · exact of_ite h.backToCopying h

/-! ## Commands -/

theorem updaterFails {stack : Nat} {f : UpdFails} (h : s.Sound) : (s.updaterFails stack f).Sound := by
  unfold State.updaterFails
  extract_lets u s1
  have h1 : s1.Sound := of_ite h h.checkFailed
  exact of_ite h1.declareLost h1

theorem execDeltaApply {h : WriteHdr} {r : DeltaRec} {fails : UpdFails} (hs : s.Sound) : KeepsSound (Machine.execDeltaApply h r fails s) := by
  refine hs.whenServing (fun {s} h => ?_)
  refine h.recvOwed (fun {s} h => ?_)
  extract_lets stack s1
  have h1 : s1.Sound := h.updaterFails
  split
  · exact h1
  · exact h1.spill.takeDelta

theorem execDeltaForward {h : WriteHdr} {f : RowForward} (hs : s.Sound) : KeepsSound (Machine.execDeltaForward h f s) :=
  hs.whenServing (fun h => h.recvOwed (fun h => h.spill.takeForward))

theorem execRowsPacket {h : WriteHdr} {kind : RowsKind} {hd v : Nat} {rows : List RowImage} (hs : s.Sound) :
    KeepsSound (Machine.execRowsPacket h kind hd v rows s) :=
  hs.whenServing (fun h => h.recvOwed (fun h => h.spill.takeRows))

theorem takeChorus {w : WriteHdr} {m : ChorusMsg} (h : s.Sound) : (s.takeChorus w m).2.Sound := by
  unfold State.takeChorus
  split
  · exact h.takeImage
  · split
    · exact h.applyDir
    · refine owe (foldl_snd (fun _ h => ?_) _ h)
      exact h.sendNamed

theorem execChorusWrite {h : WriteHdr} {m : ChorusMsg} (hs : s.Sound) : KeepsSound (Machine.execChorusWrite h m s) :=
  hs.whenServing (fun h => h.recvOwed (fun h => h.takeChorus))

end State.Sound

end Sys2Proof.Machine

/-! That the functions of the model leave the part sound (O9), one lemma for each function that answers a state, in the order of the
model: contexts, the prompter and the arrays. -/

namespace Sys2Proof.Machine

namespace State.Sound

variable {s : State}

/-! ## The rings of a context -/

theorem setRing {id : Nat} {r : Machine.Ring} (h : s.Sound) : (s.setRing id r).Sound := h.modCtx

theorem ringPublish {id k fill : Nat} {fin : Bool} (h : s.Sound) : SoundOpt (s.ringPublish id k fill fin) := by
  unfold State.ringPublish
  split
  · exact trivial
  · split
    · exact h.setRing
    · exact trivial

/-! ## A cluster's share of a context -/

theorem arriveAt {id cl n : Nat} (h : s.Sound) : (s.arriveAt id cl n).Sound := by
  unfold State.arriveAt
  split
  · exact h
  · exact h.modOn.modCtx

/-! ## A launch ends early (R326, R363) -/

theorem abortDone {id : Nat} (h : s.Sound) : (s.abortDone id).Sound := by
  unfold State.abortDone
  split
  · exact h
  · exact of_ite h.modCtx.settleCtx h.settleCtx

/-! ## Offsets (R350, R351) -/

theorem ctxWrite {c : Ctx} {k : ClCtx} {off : Nat} {b : Bytes} (h : s.Sound) : (s.ctxWrite c k off b).Sound := by
  unfold State.ctxWrite
  split
  · exact h.scrWrite
  · exact h

/-! ## Issue (R356, R359) -/

theorem issued {a : Site} {f : ClCtx → ClCtx} (h : s.Sound) : (s.issued a f).Sound := h.count.modOn

theorem trap {id cl pc st code : Nat} (h : s.Sound) : (s.trap id cl pc st code).Sound := by
  unfold State.trap
  extract_lets s1
  have h1 : s1.Sound := h.setRegN
  split
  · exact h
  · exact h1.setRegN.count.endLaunch

theorem park {a : Site} {w : Wait} (h : s.Sound) : (s.park a w).Sound := of_ite h.modOn h.modOn.switchTo

theorem settleIssue {a : Site} {size : Nat} {atSafe atExit : Site → State → State} {n : Iss} (h : s.Sound)
    (hatSafe : ∀ {s : State} (x : Site), s.Sound → (atSafe x s).Sound) (hatExit : ∀ {s : State} (x : Site), s.Sound → (atExit x s).Sound) (hn : n.Sound) :
    (s.settleIssue a size atSafe atExit n).Sound := by
  unfold State.settleIssue
  split
  · rename_i x s1
    have h1 : s1.Sound := hn
    exact h1.issued
  · rename_i x s1 pc
    have h1 : s1.Sound := hn
    exact h1.issued
  · rename_i x s1 pc
    have h1 : s1.Sound := hn
    exact h1.issued
  · exact h.park
  · rename_i x s1 w
    have h1 : s1.Sound := hn
    exact h1.park
  · exact h.issued.trap
  · rename_i x s1 st
    have h1 : s1.Sound := hn
    exact h1.issued.endLaunch
  · rename_i x s1
    have h1 : s1.Sound := hn
    exact hatSafe _ h1.issued
  · rename_i x s1
    have h1 : s1.Sound := hn
    exact hatExit _ h1.issued

theorem issueWith {cl : Nat} {i : BWord} {regs : List Nat} {atSafe atExit : Site → State → State} {f : Site → State → Iss} (h : s.Sound)
    (hatSafe : ∀ {s : State} (x : Site), s.Sound → (atSafe x s).Sound) (hatExit : ∀ {s : State} (x : Site), s.Sound → (atExit x s).Sound)
    (hf : ∀ {s : State} (x : Site), s.Sound → (f x s).Sound) :
    (s.issueWith cl i regs atSafe atExit f).Sound := by
  unfold State.issueWith
  refine h.whenServing (fun {s} h => ?_)
  split
  · exact h
  · split
    · exact h.issued
    · exact of_ite h.park (h.settleIssue (fun _ h => hatSafe _ h) (fun _ h => hatExit _ h) (hf _ h))

theorem issue {cl : Nat} {i : BWord} {regs : List Nat} {f : Site → State → Iss} (h : s.Sound) (hf : ∀ {s : State} (x : Site), s.Sound → (f x s).Sound) :
    (s.issue cl i regs f).Sound :=
  h.issueWith (fun _ h => h) (fun _ h => h) (fun _ h => hf _ h)

theorem set {a : Site} {f : ClCtx → ClCtx} (h : s.Sound) : (a.set s f).Sound := h.modOn

/-! ## Engine instructions (R359 to R361) -/

theorem enqueue {a : Site} {o : EngOp} (h : s.Sound) : (a.enqueue s o).Sound := by
  unfold Machine.Site.enqueue
  split
  · exact trivial
  · split
    · exact trivial
    · exact h.nextOp.set

/-! ## Arithmetic (R365) -/

theorem regs {a : Site} {f : ClCtx → ClCtx} (h : s.Sound) : (a.regs s f).Sound := h.set

theorem alu {cl : Nat} {i : BWord} {op : Word → Word → Word} (h : s.Sound) : (s.alu cl i op).Sound := h.issue (fun _ h => h.regs)

theorem execAdd {cl : Nat} {i : BWord} (h : s.Sound) : KeepsSound (Machine.execAdd cl i s) := h.alu

theorem execSub {cl : Nat} {i : BWord} (h : s.Sound) : KeepsSound (Machine.execSub cl i s) := h.alu

theorem execMul {cl : Nat} {i : BWord} (h : s.Sound) : KeepsSound (Machine.execMul cl i s) := h.alu

theorem execAnd {cl : Nat} {i : BWord} (h : s.Sound) : KeepsSound (Machine.execAnd cl i s) := h.alu

theorem execOr {cl : Nat} {i : BWord} (h : s.Sound) : KeepsSound (Machine.execOr cl i s) := h.alu

theorem execXor {cl : Nat} {i : BWord} (h : s.Sound) : KeepsSound (Machine.execXor cl i s) := h.alu

theorem execShl {cl : Nat} {i : BWord} (h : s.Sound) : KeepsSound (Machine.execShl cl i s) := h.alu

theorem execShr {cl : Nat} {i : BWord} (h : s.Sound) : KeepsSound (Machine.execShr cl i s) := h.alu

theorem execCmp {cl : Nat} {i : BWord} (h : s.Sound) : KeepsSound (Machine.execCmp cl i s) := h.issue (fun _ h => h.regs)

theorem execSel {cl : Nat} {i : BWord} (h : s.Sound) : KeepsSound (Machine.execSel cl i s) := h.issue (fun _ h => h.regs)

theorem execLi {cl : Nat} {i : BWord} (h : s.Sound) : KeepsSound (Machine.execLi cl i s) := h.issue (fun _ h => h.regs)

/-! ## Loads and stores -/

theorem meet {a : Site} {off len : Nat} {ecc : GranuleHealth} (h : s.Sound) : (s.meet a off len ecc).1.Sound := by
  unfold State.meet
  split
  · exact h
  · split
    · exact h
    · exact h.sramCorrected
    · exact h.scratchBadWord

theorem execLd {cl : Nat} {i : BWord} {ecc : GranuleHealth} (h : s.Sound) : KeepsSound (Machine.execLd cl i ecc s) := by
  refine h.issue (fun {s} x h => ?_)
  extract_lets n off v
  split
  · split
    · exact h.regs
    · exact trivial
  · split
    · exact trivial
    · split
      · exact trivial
      · split
        · exact trivial
        · split
          · rename_i x1 s1 ok he
            have h1 : s1.Sound := of_pair_fst he h.meet
            split
            · exact h1.regs
            · exact h1

theorem execSt {cl : Nat} {i : BWord} (h : s.Sound) : KeepsSound (Machine.execSt cl i s) := by
  refine h.issue (fun {s} x h => ?_)
  extract_lets n off
  split
  · split
    · exact h.regs
    · exact h.regs
    · exact trivial
  · split
    · exact trivial
    · split
      · exact trivial
      · split
        · exact trivial
        · exact h.ctxWrite

/-! ## Branches and loops (R365, R366) -/

theorem execBr {cl : Nat} {i : BWord} (h : s.Sound) : KeepsSound (Machine.execBr cl i s) := h.issue (fun _ h => h)

theorem execBrc {cl : Nat} {i : BWord} (h : s.Sound) : KeepsSound (Machine.execBrc cl i s) := by
  refine h.issue (fun {s} x h => ?_)
  split
  · exact h
  · exact h

theorem execCall {cl : Nat} {i : BWord} (h : s.Sound) : KeepsSound (Machine.execCall cl i s) := by
  refine h.issue (fun {s} x h => ?_)
  split
  · exact trivial
  · exact h.set

theorem execRet {cl : Nat} {i : BWord} (h : s.Sound) : KeepsSound (Machine.execRet cl i s) := by
  refine h.issue (fun {s} x h => ?_)
  split
  · exact trivial
  · exact h.set

theorem execLoop {cl : Nat} {i : BWord} (h : s.Sound) : KeepsSound (Machine.execLoop cl i s) := by
  refine h.issue (fun {s} x h => ?_)
  extract_lets n
  split
  · exact h
  · split
    · exact trivial
    · exact h.set

/-! ## Tile descriptors (R367) -/

theorem execTdef {cl : Nat} {i : BWord} (h : s.Sound) : KeepsSound (Machine.execTdef cl i s) := by
  refine h.issue (fun {s} x h => ?_)
  extract_lets off
  split
  · exact trivial
  · split
    · exact trivial
    · split
      · exact h
      · exact h.regs

theorem execTset {cl : Nat} {i : BWord} (h : s.Sound) : KeepsSound (Machine.execTset cl i s) := by
  refine h.issue (fun {s} x h => ?_)
  extract_lets sel v
  split
  · exact h.regs
  · exact trivial

theorem execTadv {cl : Nat} {i : BWord} (h : s.Sound) : KeepsSound (Machine.execTadv cl i s) :=
  h.issue fun _ h => iss_ite h.regs trivial

/-! ## Table slots (R370, R371) -/

theorem execTbind {cl : Nat} {i : BWord} (h : s.Sound) : KeepsSound (Machine.execTbind cl i s) := by
  refine h.issue (fun {s} x h => ?_)
  extract_lets h1
  split
  · exact h.regs
  · exact trivial

/-! ## Acquire, publish, release (R317 to R322, R375) -/

theorem execRacq {cl : Nat} {i : BWord} (h : s.Sound) : KeepsSound (Machine.execRacq cl i s) := by
  refine h.issue (fun {s} x h => ?_)
  extract_lets cons nowait
  split
  · exact h
  · split
    · exact trivial
    · split
      · exact h.setRing.set
      · exact h.ctxs.set
      · split
        · exact h.set
        · exact trivial
      · exact h

theorem slotEvent {id q : Nat} {release : Bool} {fill : Nat} {fin : Bool} (h : s.Sound) : SoundOpt (s.slotEvent id q release fill fin) := by
  unfold State.slotEvent
  split
  · split
    · exact trivial
    · split
      · exact h.setRing
      · exact trivial
  · exact h.ringPublish

theorem issueSlot {cl : Nat} {i : BWord} {release : Bool} (h : s.Sound) : (s.issueSlot cl i release).Sound := by
  unfold State.issueSlot
  refine h.issue (fun {s} x h => ?_)
  split
  · exact h
  · split
    · split
      · rename_i x1 s1 he
        exact of_some he h.slotEvent
      · exact h
    · exact h.enqueue

theorem execRpub {cl : Nat} {i : BWord} (h : s.Sound) : KeepsSound (Machine.execRpub cl i s) := h.issueSlot

theorem execRrel {cl : Nat} {i : BWord} (h : s.Sound) : KeepsSound (Machine.execRrel cl i s) := h.issueSlot

/-! ## Curtains (R328 to R330) -/

theorem execCurtain {cl : Nat} {i : BWord} (h : s.Sound) : KeepsSound (Machine.execCurtain cl i s) := by
  refine h.issue (fun {s} x h => ?_)
  extract_lets n s1
  have h1 : s1.Sound := h.arriveAt
  split
  · exact h
  · extract_lets arrived
    split
    · split
      · exact h.arriveAt
      · exact h.enqueue
    · split
      · split
        · exact trivial
        · exact h
      · split
        · exact trivial
        · split
          · exact trivial
          · split
            · exact h1
            · exact h1

theorem execWaitt {cl : Nat} {i : BWord} (h : s.Sound) : KeepsSound (Machine.execWaitt cl i s) := by
  refine h.issue (fun {s} x h => ?_)
  extract_lets n
  split
  · exact h
  · split
    · exact trivial
    · split
      · exact h
      · exact trivial

theorem execDlchk {cl : Nat} {i : BWord} (h : s.Sound) : KeepsSound (Machine.execDlchk cl i s) := by
  refine h.issue (fun {s} x h => ?_)
  split
  · exact h
  · split
    · exact trivial
    · exact h.set

/-! ## Due slots (R332 to R334) -/

theorem execSlotDue {ctx ring : Nat} (h : s.Sound) : KeepsSound (Machine.execSlotDue ctx ring s) := by
  refine h.whenServing (fun {s} h => ?_)
  split
  · exact h
  · split
    · exact of_ite (of_ite h.modCtx.count.latch.modCtx.endLaunch h.modCtx.count.latch.modCtx) h.modCtx
    · exact h

/-! ## The stall detector (R339 to R341) -/

theorem stallTick (h : s.Sound) : s.stallTick.Sound := h

theorem execStallDeclared {ctx : Nat} (h : s.Sound) : KeepsSound (Machine.execStallDeclared ctx s) := by
  refine h.whenServing (fun {s} h => ?_)
  split
  · exact h
  · extract_lets w low info s1 s2
    have h1 : s1.Sound := h.count.setRegN.setReg
    have h2 : s2.Sound := h1.latch
    exact of_ite (of_ite h2.endLaunch.latch.count h2.modCtx) h

/-! ## Rows from a ring (R364) -/

theorem collect {id : Nat} {t : Tile} {need : Nat} {got : Bytes} {n : Nat} (h : s.Sound) : (s.collect id t need got n).Sound := by
  induction n generalizing s got with
  | zero => exact h
  | succ n ih =>
    unfold State.collect
    extract_lets size left
    split
    · exact h
    · split
      · exact h
      · split
        · extract_lets rows
          split
          · exact h.setRing
          · exact ih h.setRing
        · exact h.freeBytes (left * size)
        · exact h

theorem releaseHeld {id q : Nat} (h : s.Sound) : (s.releaseHeld id q).Sound := by
  unfold State.releaseHeld
  split
  · exact h
  · exact of_ite h h.setRing

/-! ## Rows to a ring (R318, R364) -/

theorem putSlot {id : Nat} {t : Tile} {out rest : Bytes} {w : State} (h : s.Sound) (he : s.putSlot id t out = some (w, rest)) : w.Sound := by
  unfold State.putSlot at he
  split at he
  · exact absurd he nofun
  · split at he
    · extract_lets n per m s1 left fill at he
      have h1 : s1.Sound := foldl (fun _ h => h.ctxWrite) _ h.setRing
      split at he
      · obtain ⟨rfl, -⟩ := Prod.mk.inj (Option.some.inj he)
        exact h1
      · obtain ⟨s2, hs2, ht⟩ := Option.map_eq_some_iff.mp he
        obtain ⟨rfl, -⟩ := Prod.mk.inj ht
        exact of_some hs2 h1.ringPublish
    · exact absurd he nofun

theorem fillSlots {id : Nat} {t : Tile} {out : Bytes} {n : Nat} (h : s.Sound) : (s.fillSlots id t out n).1.Sound := by
  induction n generalizing s out with
  | zero => exact h
  | succ n ih =>
    unfold State.fillSlots
    split
    · exact h
    · split
      · rename_i s1 rest he
        exact ih (h.putSlot he)
      · exact h

/-! ## MMA -/

theorem freeEnt {rows n : Nat} (h : s.Sound) : (s.freeEnt rows n).2.Sound := h.freeBytes _

theorem openPart {p : AccPart} (h : s.Sound) : (s.openPart p).2.Sound := h.freeEnt

theorem openParts {l : List AccPart} (h : s.Sound) : (s.openParts l).2.Sound := by
  induction l generalizing s with
  | nil => exact h
  | cons p rest ih => exact ih h.openPart

theorem gemmJobs {cl : Nat} {ctx : Option Nat} {g : Gemm} {arrays : List Nat} {isInt : Bool} {l : List Job} {parts : List AccPart} (h : s.Sound) :
    (s.gemmJobs cl ctx g arrays isInt l parts).2.2.Sound := by
  induction l generalizing s parts with
  | nil => exact h
  | cons j rest ih =>
    unfold State.gemmJobs
    extract_lets phys pre e part s1 same left
    have h1 : s1.Sound := h.modArray
    split
    rename_i part2 s2 he
    have h2 : s2.Sound := by
      refine of_pair he ?_
      split
      · exact h1
      · exact h1.openPart
    exact ih h2

theorem gemm {cl : Nat} {ctx : Option Nat} {g : Gemm} {old : Option Machine.Acc} {ring : Option Nat} {history : List ElemRow} (h : s.Sound) :
    (s.gemm cl ctx g old ring history).2.Sound :=
  h.gemmJobs

theorem mmaRun {a : Site} {o : EngOp} (h : s.Sound) : (s.mmaRun a o).2.Sound := h.gemm

/-! ## CONV1 (R267, R268) -/

theorem convRun {a : Site} {o : EngOp} (h : s.Sound) : (s.convRun a o).2.Sound := by
  unfold State.convRun
  extract_lets v x w cp pad old hist rows before row stream g kept
  split
  · exact h.gemm
  · exact h.gemm

/-! ## ROWS (R258) -/

theorem rowsRun {a : Site} {o : EngOp} (h : s.Sound) : (s.rowsRun a o).2.Sound := foldl (fun _ h => h.modArray) _ h

/-! ## EWA (R269) -/

theorem ewaRun {a : Site} {o : EngOp} (h : s.Sound) : (s.ewaRun a o).2.Sound := foldl (fun _ h => h.modArray) _ h

/-! ## DRAIN (R262 to R265) -/

theorem drainBlocks {c : Acc} {o : EngOp} {cl : Nat} {alpha beta : List F32} {l : List Nat} {gens : List (Nat × BitVec 32)} (h : s.Sound) :
    (s.drainBlocks c o cl alpha beta l gens).2.2.Sound := by
  induction l generalizing s gens with
  | nil => exact h
  | cons b rest ih =>
    unfold State.drainBlocks
    extract_lets parts col0
    split
    rename_i w s1 he
    have h1 : s1.Sound := by
      refine of_pair he ?_
      split
      · exact h
      · exact h.free
    exact ih h1

theorem drainRun {a : Site} {o : EngOp} (h : s.Sound) : (s.drainRun a o).2.Sound := by
  unfold State.drainRun
  split
  · exact h
  · exact h.drainBlocks

/-! ## Issue (R368) -/

theorem issueArr {cl : Nat} {i : BWord} {kind : EKind} (h : s.Sound) : (s.issueArr cl i kind).Sound := h.issue (fun _ h => h.enqueue)

theorem execRows {cl : Nat} {i : BWord} (h : s.Sound) : KeepsSound (Machine.execRows cl i s) := h.issueArr

theorem execMma {cl : Nat} {i : BWord} (h : s.Sound) : KeepsSound (Machine.execMma cl i s) := h.issueArr

theorem execConv1 {cl : Nat} {i : BWord} (h : s.Sound) : KeepsSound (Machine.execConv1 cl i s) := h.issueArr

theorem execEwa {cl : Nat} {i : BWord} (h : s.Sound) : KeepsSound (Machine.execEwa cl i s) := h.issueArr

theorem execDrain {cl : Nat} {i : BWord} (h : s.Sound) : KeepsSound (Machine.execDrain cl i s) := h.issueArr

/-! ## Failed checks (R272, R310, R536) -/

theorem execResidueCheckFails {cl array ctx opId : Nat} {r : Replay} {c : CheckNo} (h : s.Sound) :
    KeepsSound (Machine.execResidueCheckFails cl array ctx opId r c s) := by
  refine h.whenServing (fun {s} h => ?_)
  extract_lets u c1 s1 s2
  have h1 : s1.Sound := h.checkFailed
  have h2 : s2.Sound := by
    unfold s2
    split
    · exact h1.checkMoved
    · exact h1
  split
  · exact h
  · split
    · exact h
    · split
      · exact h.checkFailed.modEng
      · exact h.checkFailed.modEng
      · exact h2.modEng

theorem execVectorCheckFails {cl : Nat} {sfu : Bool} {ctx opId : Nat} {passed : Bool} {c : CheckNo} (h : s.Sound) :
    KeepsSound (Machine.execVectorCheckFails cl sfu ctx opId passed c s) := by
  refine h.whenServing (fun {s} h => ?_)
  split
  · exact h
  · exact of_ite h h.checkFailed.modEng

theorem execTransferCheckFails {cl ctx opId : Nat} {passed : Bool} {c : CheckNo} (h : s.Sound) :
    KeepsSound (Machine.execTransferCheckFails cl ctx opId passed c s) := by
  refine h.whenServing (fun {s} h => ?_)
  split
  · exact h
  · exact of_ite h h.checkFailed.modEng

end State.Sound

end Sys2Proof.Machine

/-! That the functions of the model leave the part sound (O9), one lemma for each function that answers a state, in the order of the
model: device memory, host translation and the transfer engines. -/

namespace Sys2Proof.Machine

namespace State.Sound

variable {s : State}

/-! ## Errors of granules and stacks (R473 to R477, R488, R489) -/

theorem memErr {k kind pc granule : Nat} (h : s.Sound) : (s.memErr k kind pc granule).Sound := h.setRegN

theorem memCorrected {k pc granule : Nat} (h : s.Sound) : (s.memCorrected k pc granule).Sound := h.count.memErr.log

theorem failStack {k : Nat} (h : s.Sound) : (s.failStack k).Sound := by
  unfold State.failStack
  extract_lets base s1
  have h1 : s1.Sound := of_shape h.mem { h.shape with hstate := (List.length_modify ..).trans h.shape.hstate }
  exact h1.declareLost

theorem memUncorrectable {k pc granule : Nat} (h : s.Sound) : (s.memUncorrectable k pc granule).Sound := by
  unfold State.memUncorrectable
  extract_lets recent s1 base s2
  have h1 : s1.Sound := h.count.memErr.latch.log
  have h2 : s2.Sound := h1
  exact of_ite h2.failStack h2

theorem poisonRead {a : Nat} (h : s.Sound) : (s.poisonRead a).Sound := h.memErr.log

theorem memPoisonRead {a : Nat} (h : s.Sound) : (s.memPoisonRead a).Sound := h.poisonRead.latch

theorem devWrite {a : Nat} {b : Bytes} (h : s.Sound) : (s.devWrite a b).Sound := h.hbmWrite

theorem memBadRead {a : Nat} (h : s.Sound) : (s.memBadRead a).Sound := h.memUncorrectable

/-! ## Failures (R462, R486) -/

theorem xlatFail {who : XReq} {pasid addr : Nat} {write : Bool} {st : Nat} (h : s.Sound) : (s.xlatFail who pasid addr write st).Sound :=
  h.setRegN.setRegN.count.latch.failReq

/-! ## Looking up and asking (R457, R458, R460) -/

theorem storeXlat {x : Xlat} (h : s.Sound) : (s.storeXlat x).Sound := h

theorem pageRequest {port pasid addr : Nat} {write : Bool} (h : s.Sound) : (s.pageRequest port pasid addr write).2.Sound := by
  unfold State.pageRequest
  extract_lets page id base s1
  have h1 : s1.Sound := h
  split
  · exact h
  · exact h1.count.emit

theorem atsRequest {who : XReq} {port pasid addr : Nat} {write retried : Bool} (h : s.Sound) : (s.atsRequest who port pasid addr write retried).Sound :=
  (h.host (by rfl)).count.emit

theorem faultAt {who : XReq} {port pasid addr : Nat} {write retried : Bool} (h : s.Sound) : (s.faultAt who port pasid addr write retried).2.Sound := by
  unfold State.faultAt
  extract_lets base
  split
  · exact h.xlatFail
  · split
    · exact h.xlatFail
    · split
      · exact h
      · exact h.pageRequest

theorem access1 {who : XReq} {port pasid addr : Nat} {write : Bool} (h : s.Sound) : (s.access1 who port pasid addr write).2.Sound := by
  unfold State.access1
  extract_lets mine
  split
  · exact h.failReq
  · split
    · exact h.xlatFail
    · split
      · exact h
      · split
        · split
          · split
            · exact h.storeXlat
            · exact h.faultAt
          · split
            · exact h.storeXlat
            · exact h.faultAt
        · exact h.atsRequest

theorem accessPages {who : XReq} {port pasid : Nat} {write : Bool} {l : List Nat} (h : s.Sound) : (s.accessPages who port pasid write l).2.Sound := by
  induction l generalizing s with
  | nil => exact h
  | cons p rest ih =>
    unfold State.accessPages
    split
    · rename_i s1 he
      have h1 : s1.Sound := of_pair he h.access1
      exact ih h1
    · exact h.access1

theorem hostOut {port pasid addr : Nat} {b : Bytes} (h : s.Sound) : (s.hostOut port pasid addr b).Sound := h.foldl (fun _ h => (h.host (by rfl)).emit) _

theorem access {who : XReq} {port pasid addr len : Nat} {write : Bool} (h : s.Sound) : (s.access who port pasid addr len write).2.Sound := h.accessPages

/-! ## Responses (R458, R461) -/

theorem execAtsCompletion {x : Nat} {r : AtsResult} (h : s.Sound) : KeepsSound (Machine.execAtsCompletion x r s) := by
  refine h.whenServing (fun {s} h => ?_)
  extract_lets base s1
  have h1 : s1.Sound := h
  split
  · exact h
  · split
    · extract_lets e
      exact of_ite h1.storeXlat.storeXlat h1.faultAt
    · exact h1.xlatFail

theorem execAtsTimeout {x : Nat} (h : s.Sound) : KeepsSound (Machine.execAtsTimeout x s) := by
  refine h.whenServing (fun {s} h => ?_)
  extract_lets base
  split
  · exact h
  · exact of_ite h (h.host (by rfl)).xlatFail

theorem leaveGroup {g : Nat} (h : s.Sound) : (s.leaveGroup g).2.Sound := h

theorem admitFull {port : Nat} (h : s.Sound) : (s.admitFull port).Sound := h.foldl (fun _ h => of_ite h (h.host (by rfl)).faultAt) _

theorem failWaits {port st : Nat} (h : s.Sound) : (s.failWaits port st).Sound := foldl (fun _ h => h.xlatFail) _ h

theorem failGroup {g st : Nat} (h : s.Sound) : (s.failGroup g st).Sound := foldl (fun _ h => h.xlatFail) _ h.leaveGroup

theorem priFailure {port : Nat} (h : s.Sound) : (s.priFailure port).Sound := by
  unfold State.priFailure
  extract_lets fault base base1 s1
  have h_base : base.Sound := h.modHPort
  have h1 : s1.Sound := h_base
  exact foldl (fun _ h => h.xlatFail) _ h1

theorem respond {x : PGroup} {n : PriResult} (h : s.Sound) : (s.respond x n).Sound := by
  unfold State.respond
  split
  · exact admitFull (foldl (fun _ h => h.atsRequest) _ h.leaveGroup)
  · exact h.failGroup.admitFull
  · exact h.priFailure

theorem execPageRequestResponse {g : Nat} {r : PriResult} (h : s.Sound) : KeepsSound (Machine.execPageRequestResponse g r s) := by
  unfold Machine.execPageRequestResponse
  show State.Sound _
  extract_lets late s0
  have h0 : s0.Sound := of_ite h.count h
  split
  · exact of_ite h.count h
  · split
    · exact h0
    · exact of_ite h0.leaveGroup.admitFull h0.respond

theorem execPriTimeout {g : Nat} (h : s.Sound) : KeepsSound (Machine.execPriTimeout g s) := h.whenServing (fun h => of_ite h.failGroup.admitFull h)

theorem execInvalidateRequest {p itag pasid page log2 : Nat} {global : Bool} (h : s.Sound) :
    KeepsSound (Machine.execInvalidateRequest p itag pasid page log2 global s) :=
  h.whenServing (fun h => (h.host (by rfl)).count)

theorem execInvalidateCompletion {p itag : Nat} (h : s.Sound) : KeepsSound (Machine.execInvalidateCompletion p itag s) :=
  h.whenServing (fun h => of_ite (h.host (by rfl)).emit h)

/-! ## Lines that the host may hold (R469) -/

theorem snoopFor {a n : Nat} {write : Bool} (h : s.Sound) : (s.snoopFor a n write).2.Sound := by
  unfold State.snoopFor
  extract_lets need base new s1
  have h1 : s1.Sound := h
  split
  · exact h
  · exact foldl (fun _ h => h.count.emit) _ h1

theorem execBisnpComplete {line : Nat} {dirty : Option Bytes} (h : s.Sound) : KeepsSound (Machine.execBisnpComplete line dirty s) := by
  refine h.whenServing (fun {s} h => ?_)
  extract_lets s1 base
  have h1 : s1.Sound := by
    unfold s1
    split
    · exact h.devWrite
    · exact h
  split
  · exact h
  · exact of_ite h1 h1

theorem devRead {a : Int} {n : Nat} (h : s.Sound) : (s.devRead a n).Sound := by
  unfold State.devRead
  split
  · exact h
  · split
    · rename_i x full s1 he
      have h1 : s1.Sound := of_pair he h.snoopFor
      split
      · exact h1
      · split
        · exact h1.memBadRead
        · exact h1.memPoisonRead
        · exact h1

theorem devPut {a : Int} {b : Bytes} (h : s.Sound) : (s.devPut a b).Sound := by
  unfold State.devPut
  split
  · exact h
  · split
    · rename_i x full s1 he
      have h1 : s1.Sound := of_pair he h.snoopFor
      split
      · exact h1
      · exact h1.devWrite

/-! ## Sides of a run -/

theorem frameRead {a : Site} {space peer : Nat} {off : Int} {n : Nat} (h : s.Sound) : (s.frameRead a space peer off n).Sound := by
  unfold State.frameRead
  split
  · exact h
  · split
    · exact h
    · split
      · exact h
      · exact h

theorem framePut {a : Site} {space peer : Nat} {off : Int} {b : Bytes} (h : s.Sound) : (s.framePut a space peer off b).Sound := by
  unfold State.framePut
  split
  · exact h
  · split
    · exact h
    · exact h.ctxWrite

theorem hostGet {who : XReq} {slot addr n : Nat} {data : Bytes} (h : s.Sound) : (s.hostGet who slot addr n data).Sound := by
  unfold State.hostGet
  split
  · rename_i x s1 he
    have h1 : s1.Sound := of_pair he h.access
    split
    · exact h1
    · exact h1
  · rename_i x s1 he
    exact of_pair he h.access
  · rename_i x st s1 he
    exact of_pair he h.access

theorem hostPut {who : XReq} {slot addr : Nat} {b : Bytes} (h : s.Sound) : (s.hostPut who slot addr b).Sound := by
  unfold State.hostPut
  split
  · rename_i x s1 he
    have h1 : s1.Sound := of_pair he h.access
    exact h1.hostOut.noteWrote
  · rename_i x s1 he
    exact of_pair he h.access
  · rename_i x st s1 he
    exact of_pair he h.access

theorem devOut {who : XReq} {a : Int} {b : Bytes} (h : s.Sound) : (s.devOut who a b).Sound := by
  unfold State.devOut
  split
  · rename_i x s1 b1 he
    have h1 : s1.Sound := of_bytes he h.devPut
    exact h1.noteWrote
  · exact h.devPut

/-! ## Ring sides: byte streams -/

theorem ringTake {id q n : Nat} {got : Bytes} {fuel : Nat} (h : s.Sound) : (s.ringTake id q n got fuel).1.Sound := by
  induction fuel generalizing s got with
  | zero => exact h
  | succ fuel ih =>
    unfold State.ringTake
    split
    · exact h
    · split
      · exact h
      · split
        · split
          · exact ih h.setRing
          · exact h
          · exact h
        · extract_lets fill m b
          split
          · split
            · exact ih h.setRing
            · exact h
          · exact h.modCtx

theorem ringFill {c : Ctx} {h : ClCtx} {r : Machine.Ring} {base : Nat} {endFlag final : Bool} {fill : Nat} {out : Bytes} (hs : s.Sound) :
    (s.ringFill c h r base endFlag final fill out).1.Sound := by
  unfold State.ringFill
  extract_lets m s1 rest done
  have h1 : s1.Sound := hs.ctxWrite
  split
  · split
    · rename_i x s11 he
      exact of_some he h1.ringPublish
    · exact h1
  · exact h1

theorem ringGive {id q : Nat} {endFlag final : Bool} {fill : Nat} {out : Bytes} {n : Nat} (h : s.Sound) : (s.ringGive id q endFlag final fill out n).1.Sound := by
  induction n generalizing s fill out with
  | zero => exact h
  | succ n ih =>
    unfold State.ringGive
    split
    · exact h
    · split
      · exact h
      · split
        · exact h
        · extract_lets held
          have hheld {t : State} {slot : Nat} (he : held = some (t, slot)) : t.Sound := by
            unfold held at he
            split at he
            · split at he
              · obtain ⟨rfl, -⟩ := Prod.mk.inj (Option.some.inj he)
                exact h.setRing
              · exact absurd he nofun
            · obtain ⟨rfl, -⟩ := Prod.mk.inj (Option.some.inj he)
              exact h
          clear_value held
          split
          · exact h
          · rename_i s0 slot
            have h0 : s0.Sound := hheld rfl
            split
            · rename_i s1 rest fill1 he
              have h1 : s1.Sound := of_pair_fst he h0.ringFill
              exact ih h1
            · rename_i s1 rest fill1 he
              exact of_pair_fst he h0.ringFill

/-! ## A run of a MOVE (R463) -/

theorem openSlot {a : Site} {o : EngOp} {x : Xfer} (h : s.Sound) : (s.openSlot a o x).Sound := by
  unfold State.openSlot
  extract_lets run keep
  split
  · exact h
  · exact of_ite h (h.freeBytes _).ctxWrite

theorem openMove {a : Site} {o : EngOp} (h : s.Sound) : (s.openMove a o).Sound := by
  unfold State.openMove
  split
  · exact h
  · extract_lets put
    have hput : ∀ {s : State} (r : Nat) (b : Bytes), s.Sound → (put s r b).Sound := by
      intro s r b h
      unfold put
      extract_lets r0
      split
      · split
        · rename_i x s1 b1 he
          exact of_bytes he h.framePut
        · exact h
      · exact of_ite h.hbmWrite h
    exact of_ite h.openSlot (h.openRuns (fun _ _ h => hput _ _ h) _)

theorem moveFails {cl ctx id st : Nat} (h : s.Sound) : (s.moveFails cl ctx id st).Sound := h.modEng

theorem moveSrc {a : Site} {o : EngOp} {x : Xfer} {data : Bytes} (h : s.Sound) : (s.moveSrc a o x data).Sound := by
  unfold State.moveSrc
  extract_lets n x1
  split
  · exact h.frameRead
  · exact h.frameRead
  · exact h.devRead
  · exact h.hostGet
  · split
    · rename_i x2 s1 got ended he
      have h1 : s1.Sound := of_pair_fst he h.ringTake
      extract_lets s2
      have h2 : s2.Sound := h1.modEng
      split
      · exact h2
      · split
        · exact h2.freeBytes _
        · exact h2

theorem moveDst {a : Site} {o : EngOp} {x : Xfer} {b : Bytes} (h : s.Sound) : (s.moveDst a o x b).Sound := by
  unfold State.moveDst
  extract_lets x1 full add
  have hfull : ∀ {d : Dev}, d.Sound → (full d).Sound := by
    intro d h
    unfold full
    split
    · rename_i x2 s1 b1
      have h1 : s1.Sound := h
      exact h1
    · exact h
  have hadd : ∀ {s : State}, s.Sound → (add s).Sound := by
    intro s h
    unfold add
    exact h.modCtx
  split
  · exact hfull h.framePut
  · exact hfull h.framePut
  · exact hfull h.devOut
  · exact hfull h.hostPut
  · split
    · rename_i x2 s1 rest fill order he
      have h1 : s1.Sound := of_pair_fst he h.ringGive
      split
      · exact h1
      · exact h1.modEng
  · split
    · exact h
    · split
      · exact hadd h
      · split
        · rename_i x2 s1 b1 he
          have h1 : s1.Sound := of_bytes he h.hostPut
          exact hadd h1
        · exact h.hostPut

theorem moveRun {a : Site} {o : EngOp} {x : Xfer} {data : Bytes} (h : s.Sound) : (s.moveRun a o x data).Sound := by
  unfold State.moveRun
  extract_lets id cl mod get
  have hmod : ∀ {s : State} (f : EngOp → EngOp), s.Sound → (mod s f).Sound := by
    intro s f h
    unfold mod
    exact h.modEng
  have hget : get.Sound := by
    unfold get
    split
    · exact h
    · exact h.moveSrc
  clear_value get
  split
  · rename_i x1 s2
    have h2 : s2.Sound := hget
    exact h2
  · rename_i x1 s2 st
    have h2 : s2.Sound := hget
    exact h2.moveFails
  · rename_i x1 s2 rest
    have h2 : s2.Sound := hget
    split
    · exact h2
    · split
      · rename_i x2 s21 he
        have h21 : s21.Sound := of_wait he h2.moveDst
        exact hmod _ h21
      · rename_i x2 s21 st he
        have h21 : s21.Sound := of_fail he h2.moveDst
        exact h21.moveFails
      · rename_i x2 s21 rest1 he
        have h21 : s21.Sound := of_bytes he h2.moveDst
        exact of_ite (hmod _ h21) (hmod _ h21)

theorem execMove {cl : Nat} {i : BWord} (h : s.Sound) : KeepsSound (Machine.execMove cl i s) := by
  refine h.issue (fun {s} x h => ?_)
  extract_lets off d x1
  split
  · exact trivial
  · split
    · exact trivial
    · split
      · exact h
      · split
        · exact trivial
        · split
          · exact trivial
          · split
            · extract_lets base
              split
              · rename_i x2 s1 he
                have h1 : s1.Sound := of_done he h.enqueue
                exact h1.set
              · exact h.enqueue

/-! ## COPY on the bulk engine (R406) -/

theorem openOverlap {src dst : Nat} {b : Bytes} (h : s.Sound) : (s.openOverlap src dst b).2.Sound := by
  unfold State.openOverlap
  split
  · rename_i x b1 s2 he
    have h2 : s2.Sound := of_pair he (h.freeBytes _)
    split
    · exact h2
    · exact h

theorem copyStep {k n : Nat} {x : Xfer} {data : Bytes} (h : s.Sound) : (s.copyStep k n x data).Sound := by
  unfold State.copyStep
  extract_lets len src dst get
  have hget : get.Sound := by
    unfold get
    split
    · exact h.devRead
    · exact h.hostGet
  clear_value get
  split
  · rename_i x1 s2
    have h2 : s2.Sound := hget
    exact h2
  · rename_i x1 s2 st
    have h2 : s2.Sound := hget
    exact h2.copyFails
  · rename_i x1 s2 rest
    have h2 : s2.Sound := hget
    split
    · rename_i x2 b s21 he
      have h21 : s21.Sound := by
        refine of_pair he ?_
        split
        · exact h2.openOverlap
        · exact h2
      split
      · rename_i x3 s22 he1
        have h22 : s22.Sound := by
          refine of_wait he1 ?_
          split
          · exact h21.devOut
          · exact h21.hostPut
        exact h22
      · rename_i x3 s22 st he1
        have h22 : s22.Sound := by
          refine of_fail he1 ?_
          split
          · exact h21.devOut
          · exact h21.hostPut
        exact h22.copyFails
      · rename_i x3 s22 rest1 he1
        have h22 : s22.Sound := by
          refine of_bytes he1 ?_
          split
          · exact h21.devOut
          · exact h21.hostPut
        exact of_ite h22.modCmd.endCmd h22.modCmd

theorem execTransferRunComplete {opId : Nat} {data : Bytes} (h : s.Sound) : KeepsSound (Machine.execTransferRunComplete opId data s) := by
  refine h.whenServing (fun {s} h => ?_)
  split
  · exact h.copyStep
  · split
    · exact h
    · split
      · exact of_ite h.moveRun h
      · exact h

/-! ## CHORUS and ATOM (R373, R374) -/

theorem execChorus {cl : Nat} {i : BWord} (h : s.Sound) : KeepsSound (Machine.execChorus cl i s) := by
  refine h.issue (fun {s} x h => ?_)
  extract_lets src n mask dst
  split
  · exact trivial
  · split
    · exact trivial
    · split
      · rename_i x1 s1 he
        have h1 : s1.Sound := of_done he h.enqueue
        exact h1.set
      · exact h.enqueue

theorem chorusRun {a : Site} {o : EngOp} (h : s.Sound) : (s.chorusRun a o).Sound := by
  unfold State.chorusRun
  extract_lets x b
  refine foldl (fun {s} x h => ?_) _ h
  split
  · exact h.ctxWrite
  · exact h

theorem execAtom {cl : Nat} {i : BWord} (h : s.Sound) : KeepsSound (Machine.execAtom cl i s) := by
  refine h.issue (fun {s} x h => ?_)
  extract_lets ad enq
  have henq : ∀ (r : List Range), (enq r).Sound := by
    intro r
    unfold enq
    extract_lets base
    split
    · rename_i x1 s1 he
      have h1 : s1.Sound := of_done he h.enqueue
      exact h1.set
    · exact h.enqueue
  split
  · exact trivial
  · split
    · exact henq _
    · split
      · exact trivial
      · split
        · exact trivial
        · exact henq _

theorem atomOld {a : Site} {o : EngOp} (h : s.Sound) : (s.atomOld a o).Sound := by
  unfold State.atomOld
  extract_lets ad
  split
  · split
    · rename_i x s1 b he
      have h1 : s1.Sound := of_bytes he h.devRead
      split
      · rename_i x1 s11 he1
        exact of_pair he1 h1.snoopFor
      · rename_i x1 s11 he1
        exact of_pair he1 h1.snoopFor
    · exact h.devRead
  · exact h.frameRead

theorem atomRun {a : Site} {o : EngOp} {old : Bytes} (h : s.Sound) : (s.atomRun a o old).Sound := by
  unfold State.atomRun
  extract_lets ad w v s1
  have h1 : s1.Sound := by
    unfold s1
    split
    · exact h.devWrite.noteWrote
    · split
      · exact h.ctxWrite
      · exact h
  exact h1.set

/-! ## The deadline monitor (R429, R430) -/

theorem monitor {id : Nat} (h : s.Sound) : (s.monitor id).Sound := by
  unfold State.monitor
  extract_lets s1
  have h1 : s1.Sound := h.modCtx
  split
  · exact h
  · extract_lets guard miss late
    exact of_ite h (of_ite h1.dropWaits.modCtx.settleCtx h1)

end State.Sound

end Sys2Proof.Machine

/-! That the functions of the model leave the part sound (O9), one lemma for each function that answers a state, in the order of the
model: look-up, the vector engine and the ends of engine instructions. -/

namespace Sys2Proof.Machine

namespace State.Sound

variable {s : State}

/-! ## The frequency sketch and the Wings cache (R122 to R124) -/

theorem sweepOn {die : Nat} (h : s.Sound) : (s.sweepOn die).Sound := of_ite h.free.modWings h

theorem offer {die : Nat} {t : Table} {w : Version} {row : Nat} (h : s.Sound) : (s.offer die t w row).Sound := by
  unfold State.offer
  extract_lets slot r
  split
  · exact h
  · split
    · exact h
    · split
      · exact h.modWings
      · exact h.count

/-! ## Requests held by an owner (R110, R112) -/

theorem sendPartial {r : OwnReq} {bag flags count : Nat} {value : List F32} {rows : List Bytes} (h : s.Sound) :
    (s.sendPartial r bag flags count value rows).Sound :=
  of_ite h.post.count h.post

theorem dropBag {die src ctx op bag : Nat} (h : s.Sound) : (s.dropBag die src ctx op bag).Sound := by
  unfold State.dropBag
  extract_lets s1
  have h1 : s1.Sound := h.modReq
  exact h1

theorem finishBag {r : OwnReq} {t : Table} {b : OwnBag} (h : s.Sound) : (s.finishBag r t b).Sound := h.sendPartial.dropBag

theorem tryFinish {die src ctx op bag : Nat} (h : s.Sound) : (s.tryFinish die src ctx op bag).Sound := by
  unfold State.tryFinish
  split
  · exact h
  · split
    · exact of_ite h h.finishBag
    · exact h

theorem addGranules {die src ctx op bag : Nat} {x : Machine.Term} (h : s.Sound) : (s.addGranules die src ctx op bag x).Sound := h.modReq

theorem rowDone {die src ctx op bag : Nat} {e : IdxEntry} {lost : Bool} (h : s.Sound) : (s.rowDone die src ctx op bag e lost).Sound := h.modReq

theorem addTerm {die src ctx op bag : Nat} {e : IdxEntry} {img : Bytes} {lost : Bool} (h : s.Sound) : (s.addTerm die src ctx op bag e img lost).Sound := by
  unfold State.addTerm
  split
  · exact h
  · exact h.addGranules.rowDone

theorem noteFallback (h : s.Sound) : s.noteFallback.Sound := h.count.latch

theorem readIndex {r : OwnReq} {t : Table} {w : Version} {bag : Nat} {ecc : List (Nat × GranuleHealth)} {e : IdxEntry} (h : s.Sound) :
    (s.readIndex r t w bag ecc e).Sound := by
  unfold State.readIndex
  extract_lets s0 s1 hit fromHbm
  have h0 : s0.Sound := h.count
  have h1 : s1.Sound := h0.sweepOn.noteHeat.modWings
  have hfromHbm : ∀ {s : State}, s.Sound → (fromHbm s).Sound := by
    intro s h
    unfold fromHbm
    exact of_ite h.count h
  split
  · exact h0.addTerm
  · split
    · exact h0.noteFallback.addTerm
    · split
      · rename_i x s11 he
        have h11 : s11.Sound := of_pair he h1.sramRead
        clear_value s0 s1 hit
        split
        · exact h11.count.addTerm
        · exact hfromHbm h1
      · rename_i x s11 he
        have h11 : s11.Sound := of_pair he h1.sramRead
        clear_value s0 s1 hit
        split
        · exact hfromHbm h11.modWings
        · exact hfromHbm h1

theorem servePiece {r : OwnReq} {t : Table} {w : Version} {ecc : List (Nat × GranuleHealth)} {n i : Nat} {p : Piece} (h : s.Sound) :
    (s.servePiece r t w ecc n i p).Sound := by
  unfold State.servePiece
  extract_lets last s1
  have h1 : s1.Sound := h.modReq
  exact foldl (fun _ h => h.readIndex) _ h1

theorem servePieces {r : OwnReq} {t : Table} {w : Version} {ecc : List (Nat × GranuleHealth)} {n i : Nat} {l : List Piece} (h : s.Sound) :
    (s.servePieces r t w ecc n i l).Sound := by
  induction l generalizing s i with
  | nil => exact h
  | cons p rest ih => exact ih h.servePiece

theorem dropReq {die src ctx op : Nat} (h : s.Sound) : (s.dropReq die src ctx op).Sound := h

theorem execPoolReq {die : Nat} {p : ReqIn} (h : s.Sound) : KeepsSound (Machine.execPoolReq die p s) := by
  refine h.whenServing (fun {s} h => ?_)
  extract_lets held r s1 s2
  have h1 : s1.Sound := of_ite h.dropReq h
  have h2 : s2.Sound := of_ite h1 h1
  split
  · exact h
  · extract_lets s3 open_ s4
    have h3 : s3.Sound := h2.modReq.servePieces
    have h4 : s4.Sound := foldl (fun _ h => h.tryFinish) _ h3
    exact of_ite h h4

/-! ## Granules (R120, R121, R476) -/

theorem failRow {die : Nat} {t : Table} {w : Version} {row : Nat} (h : s.Sound) : (s.failRow die t w row).Sound := by
  unfold State.failRow
  extract_lets own asked
  split
  · exact h
  · split
    · exact of_ite h h.loseRow.workAll
    · split
      · exact h.moveFailed
      · split
        · exact h
        · exact of_ite h h.write

theorem execGranuleIn {die rid granule : Nat} {h : HbmHealth} (hs : s.Sound) : KeepsSound (Machine.execGranuleIn die rid granule h s) := by
  refine hs.whenServing (fun {s} h => ?_)
  extract_lets done health
  have hdone : ∀ {s : State}, s.Sound → (done s).Sound := by
    intro s h
    unfold done
    exact h
  split
  · exact h
  · extract_lets concat
    split
    · exact h
    · extract_lets k s1 img s2 s3
      have h1 : s1.Sound := of_ite h.free.free.memCorrected h
      have h2 : s2.Sound := of_ite h1 h1.addGranules
      have h3 : s3.Sound := of_ite (hdone h2).addTerm (hdone h2).rowDone
      split
      · exact h
      · split
        · rename_i x w s11 he
          have h11 : s11.Sound := of_pair he h.free
          split
          · rename_i x1 w1 s12 he1
            have h12 : s12.Sound := of_pair he1 h11.free
            extract_lets s31
            have h31 : s31.Sound := (hdone h12).modReq.memUncorrectable.failRow
            clear_value health s1 s2 s3 s31
            split
            · exact h31.noteFallback.addTerm.tryFinish
            · exact of_ite (tryFinish (of_ite h3 h3.sweepOn.offer)) h2

theorem execSketchDecay {die : Nat} (h : s.Sound) : KeepsSound (Machine.execSketchDecay die s) := by
  refine h.whenServing (fun {s} h => ?_)
  extract_lets n
  split
  · exact h
  · exact of_ite h.modWings h

theorem execGpeCheckFails {die src ctx op bag : Nat} {again : Bool} {c : CheckNo} (h : s.Sound) :
    KeepsSound (Machine.execGpeCheckFails die src ctx op bag again c s) := by
  refine h.whenServing (fun {s} h => ?_)
  split
  · exact h
  · split
    · extract_lets failed s1 s2 s21
      have h1 : s1.Sound := h.checkFailed
      have h2 : s2.Sound := h1.dropBag
      have h21 : s21.Sound := h1.modReq
      exact of_ite h2 (tryFinish (foldl (fun _ h => h.readIndex) _ h21))
    · exact h

/-! ## The states of a Wings cache (R128, R129) -/

theorem writeWings {die v : Nat} (h : s.Sound) : (s.writeWings die v).Sound := of_ite h h.setRegN.modWings

theorem execWingsEnable {die : Nat} {v : BitVec 32} (h : s.Sound) : KeepsSound (Machine.execWingsEnable die v s) := h.whenOpen (fun h => h.writeWings)

theorem execInvalidateAll {die : Nat} {v : BitVec 32} (h : s.Sound) : KeepsSound (Machine.execInvalidateAll die v s) :=
  h.whenOpen (fun h => h.writeWings)

theorem execWingsStopped {die : Nat} (h : s.Sound) : KeepsSound (Machine.execWingsStopped die s) := h.whenServing (fun h => h.modWings)

theorem execWingsStarted {die : Nat} (h : s.Sound) : KeepsSound (Machine.execWingsStarted die s) := h.whenServing (fun h => h.modWings)

theorem execInvalidateSweepEnds {die : Nat} (h : s.Sound) : KeepsSound (Machine.execInvalidateSweepEnds die s) := h.whenServing (fun h => h.modWings)

/-! ## Operations at a GPE -/

theorem freeRecords {n : Nat} {l : List Nat} (h : s.Sound) : (s.freeRecords n l).2.Sound := by
  induction l generalizing s with
  | nil => exact h
  | cons r rest ih => exact ih (h.freeBytes n)

theorem bagOut {die num n : Nat} (h : s.Sound) : (s.bagOut die num n).Sound := by
  unfold State.bagOut
  split
  · exact h
  · split
    · extract_lets err s1 s2
      have h1 : s1.Sound := of_ite h.latch h
      have h2 : s2.Sound := of_ite h1 h1.ctxWrite
      split
      · rename_i x l s21 he
        have h21 : s21.Sound := by
          refine of_pair he ?_
          split
          · exact h2.freeRecords
          · exact h2
        exact of_ite h21.modGpeOp (foldl (fun _ h => h.ctxWrite) _ h21)
    · exact h

theorem bagDone {die num n : Nat} {err : Bool} (h : s.Sound) : (s.bagDone die num n err).Sound := h.modGpeOp.bagOut

theorem opFail {die num st : Nat} (h : s.Sound) : (s.opFail die num st).Sound := h.modGpeOp

/-! ## Requests (R110, R112) -/

theorem sendRequest {die : Nat} {o : GpeOp} {owner : Nat} {l : List (Nat × List PieceIdx)} (h : s.Sound) : (s.sendRequest die o owner l).2.Sound := by
  unfold State.sendRequest
  extract_lets weighted pk
  dsimp -zeta only
  refine foldl_snd (fun {p} x h => ?_) _ h
  exact h.post

theorem dispatch {die num : Nat} (h : s.Sound) : (s.dispatch die num).Sound := by
  unfold State.dispatch
  split
  · exact h
  · split
    · exact h
    · extract_lets vslot asg lost s1 epoch s2 owners r cut s3
      have h1 : s1.Sound := of_ite h h.count.latch
      have h2 : s2.Sound := h1.modGpeOp
      have hr : r.2.Sound := by
        unfold r
        dsimp -zeta only
        refine foldl_snd (fun {p} x h => ?_) _ h2
        exact h.sendRequest
      have h3 : s3.Sound := of_ite hr.opFail hr
      exact foldl (fun _ h => h.bagDone) _ h3

/-! ## Issue (R370, R92) -/

theorem startLookup {a : Site} {desc : Nat} {d : Bytes} {gather : Bool} {num gen : Nat} (h : s.Sound) : (s.startLookup a desc d gather num gen).Sound := by
  unfold State.startLookup
  extract_lets die base add
  have hadd : ∀ {s : State} (o : GpeOp), s.Sound → (add s o).Sound := by
    intro s o h
    unfold add
    exact h.modGpe
  split
  · exact (hadd _ h).latch
  · extract_lets n ia wa zero
    exact dispatch (foldl (fun _ h => h.bagDone) _ (hadd _ (of_ite h h.count)))

theorem issueLookup {cl : Nat} {i : BWord} {gather : Bool} {ecc : GranuleHealth} (h : s.Sound) : (s.issueLookup cl i gather ecc).Sound := by
  unfold State.issueLookup
  refine h.issue (fun {s} x h => ?_)
  extract_lets off d mine
  split
  · exact trivial
  · split
    · exact trivial
    · split
      · exact h
      · split
        · extract_lets base
          split
          · exact h
          · extract_lets o
            split
            · exact h.modGpe
            · split
              · rename_i x1 s1 he
                have h1 : s1.Sound := of_done he h.enqueue
                extract_lets s11
                have h11 : s11.Sound := h1.modGpe
                split
                · exact trivial
                · exact h11.set.dirRead.startLookup
              · exact h.enqueue

theorem execGather {cl : Nat} {w : LookupWord} (h : s.Sound) : KeepsSound (Machine.execGather cl w s) := h.issueLookup

theorem execPool {cl : Nat} {w : LookupWord} (h : s.Sound) : KeepsSound (Machine.execPool cl w s) := h.issueLookup

/-! ## Partials (R114, R116) -/

theorem latePartial (h : s.Sound) : s.latePartial.Sound := h.count.latch

theorem strayPartial {die : Nat} {p : PartialPkt} (h : s.Sound) : (s.strayPartial die p).Sound := of_ite h.latePartial h

theorem execPartial {die : Nat} {p : PartialPkt} (h : s.Sound) : KeepsSound (Machine.execPartial die p s) := by
  refine h.whenServing (fun {s} h => ?_)
  extract_lets num
  split
  · exact h.strayPartial
  · split
    · extract_lets b1 s1
      have h1 : s1.Sound := h.modGpeOp
      exact of_ite h.strayPartial (of_ite h1.bagDone h1)
    · exact h.strayPartial

/-! ## Ring output (R100) -/

theorem publishSlot {die num : Nat} (h : s.Sound) : SoundOpt (s.publishSlot die num) := by
  unfold State.publishSlot
  split
  · exact trivial
  · split
    · split
      · exact trivial
      · extract_lets l first n
        split
        · exact trivial
        · split
          · exact h.opFail.modGpeOp
          · split
            · split
              · exact trivial
              · extract_lets s1
                have h1 : s1.Sound := foldl (fun _ h => h.ctxWrite) _ h.setRing
                exact opt_map h1.ringPublish fun h => h.modGpeOp
            · exact trivial
    · exact trivial

theorem publishSlots {die num n : Nat} (h : s.Sound) : (s.publishSlots die num n).Sound := by
  induction n generalizing s with
  | zero => exact h
  | succ n ih =>
    unfold State.publishSlots
    split
    · rename_i s1 he
      have h1 : s1.Sound := of_some he h.publishSlot
      exact ih h1
    · exact h

theorem writeStatus {o : GpeOp} (h : s.Sound) : (s.writeStatus o).Sound := by
  unfold State.writeStatus
  extract_lets flags rows
  split
  · exact h
  · exact of_ite h.ctxWrite.latch h.ctxWrite

theorem lookupEnds {die num : Nat} (h : s.Sound) : (s.lookupEnds die num).1.Sound := by
  unfold State.lookupEnds
  split
  · exact h
  · extract_lets s1
    have h1 : s1.Sound := h.publishSlots
    split
    · exact h1
    · split
      · exact h1.writeStatus.modGpe
      · exact h1

/-! ## Timeouts and cancels (R102, R119) -/

theorem execPoolTimeout {die : Nat} {x : OpIn} (h : s.Sound) : KeepsSound (Machine.execPoolTimeout die x s) := by
  refine h.whenServing (fun {s} h => ?_)
  extract_lets s1
  have h1 : s1.Sound := h.dirRead.modGpeOp
  split
  · exact h
  · extract_lets open_
    exact of_ite h (of_ite h1.dispatch (foldl (fun _ h => h.bagDone) _ h.opFail))

theorem execAbandonedOpNumberFreed {die op : Nat} (h : s.Sound) : KeepsSound (Machine.execAbandonedOpNumberFreed die op s) :=
  h.whenServing (fun h => h.modGpe)

/-! ## Sums in transit (R115, R116) -/

theorem forwardPartial {p : PartialPkt} {port dl : Nat} (h : s.Sound) : (s.forwardPartial p port dl).Sound := h.transmit

theorem execCombinePartial {inPort dl : Nat} {p : PartialPkt} (h : s.Sound) : KeepsSound (Machine.execCombinePartial inPort dl p s) := by
  refine h.whenServing (fun {s} h => ?_)
  extract_lets window on
  split
  · exact h
  · split
    · exact h.latch
    · extract_lets iod
      exact of_ite h.forwardPartial (of_ite h.combine.count (of_ite h.forwardPartial.count h))

theorem execCombineWindowExpires {iod idx : Nat} (h : s.Sound) : KeepsSound (Machine.execCombineWindowExpires iod idx s) := by
  refine h.whenServing (fun {s} h => ?_)
  split
  · exact h
  · extract_lets s1
    have h1 : s1.Sound := h
    split
    · exact h
    · split
      · exact h1.forwardPartial
      · exact h1.latch

/-! ## Issue (R369) -/

theorem issueVec {cl : Nat} {i : BWord} {cls : EClass} {kind : EKind} (h : s.Sound) : (s.issueVec cl i cls kind).Sound := h.issue (fun _ h => h.enqueue)

theorem execVchain {cl : Nat} {i : BWord} (h : s.Sound) : KeepsSound (Machine.execVchain cl i s) := by
  refine h.issue (fun {s} x h => ?_)
  extract_lets off d
  split
  · exact trivial
  · split
    · exact h
    · exact h.enqueue

theorem execVred {cl : Nat} {i : BWord} (h : s.Sound) : KeepsSound (Machine.execVred cl i s) := h.issueVec

theorem execVcvt {cl : Nat} {i : BWord} (h : s.Sound) : KeepsSound (Machine.execVcvt cl i s) := h.issueVec

theorem execSfn {cl : Nat} {i : BWord} (h : s.Sound) : KeepsSound (Machine.execSfn cl i s) := h.issueVec

theorem execSmaxM {cl : Nat} {i : BWord} (h : s.Sound) : KeepsSound (Machine.execSmaxM cl i s) := h.issueVec

theorem execSmaxE {cl : Nat} {i : BWord} (h : s.Sound) : KeepsSound (Machine.execSmaxE cl i s) := h.issueVec

theorem execSmaxD {cl : Nat} {i : BWord} (h : s.Sound) : KeepsSound (Machine.execSmaxD cl i s) := h.issueVec

theorem execNormS {cl : Nat} {i : BWord} (h : s.Sound) : KeepsSound (Machine.execNormS cl i s) := h.issueVec

theorem execNormF {cl : Nat} {i : BWord} (h : s.Sound) : KeepsSound (Machine.execNormF cl i s) := h.issueVec

/-! ## The arrays, the vector engine and the special-function unit -/

theorem engRun {a : Site} {o : EngOp} (h : s.Sound) : (s.engRun a o).2.Sound := by
  unfold State.engRun
  split
  · exact h.rowsRun
  · exact h.mmaRun
  · exact h.convRun
  · exact h.ewaRun
  · exact h.drainRun
  · exact h
  · exact h
  · exact h
  · exact h
  · exact h
  · exact h
  · exact h
  · exact h
  · exact h
  · exact h

theorem endEng {a : Site} {o : EngOp} {st : Nat} (h : s.Sound) : (s.endEng a o st).Sound := by
  unfold State.endEng
  extract_lets s1
  have h1 : s1.Sound := h.modOn
  exact of_ite h1 (of_ite h1.trap h1.endLaunch)

theorem openWrites {l : List (Nat × Bytes)} (h : s.Sound) : (s.openWrites l).2.Sound := by
  induction l generalizing s with
  | nil => exact h
  | cons e rest ih => exact ih (h.freeBytes e.2.length)

theorem openAcc {n : Option Machine.Acc} (h : s.Sound) : (s.openAcc n).2.Sound := by
  unfold State.openAcc
  split
  · exact h
  · exact h.openParts

theorem toRing {a : Site} {o : EngOp} {out : Bytes} (h : s.Sound) : (s.toRing a o out).Sound := by
  unfold State.toRing
  split
  · rename_i x s1 rest he
    have h1 : s1.Sound := of_pair_fst he h.fillSlots
    exact of_ite h1.endEng (of_ite h1.endEng (of_ite h1.endEng h1.modEng))

theorem applyRes {a : Site} {o : EngOp} {r : EngRes} (h : s.Sound) : (s.applyRes a o r).Sound := by
  unfold State.applyRes
  extract_lets o1
  split
  · rename_i x l s2 he
    have h2 : s2.Sound := by
      refine of_pair he ?_
      split
      · exact h.openWrites
      · exact h
    extract_lets s21
    have h21 : s21.Sound := foldl (fun _ h => h.ctxWrite) _ h2
    split
    · rename_i x1 acc s2b he1
      have h2b : s2b.Sound := by
        refine of_pair he1 ?_
        split
        · exact h21.openAcc
        · exact h21
      extract_lets s3
      have h3 : s3.Sound := h2b.set
      split
      · exact h3.endEng
      · exact h3.toRing
      · exact h3.endEng

theorem unitEnds {a : Site} {o : EngOp} (h : s.Sound) : (s.unitEnds a o).Sound := by
  unfold State.unitEnds
  extract_lets st
  split
  · exact h.toRing
  · split
    · exact h.endEng
    · split
      · exact h.endEng
      · split
        · exact h.engRun.applyRes
        · extract_lets n
          split
          · exact (h.freeBytes _).engRun.applyRes
          · split
            · rename_i x s1 got he
              have h1 : s1.Sound := of_full he h.releaseHeld.collect
              exact h1.releaseHeld.engRun.applyRes
            · rename_i x s1 got he
              have h1 : s1.Sound := of_more he h.releaseHeld.collect
              exact of_ite h1.endEng h1.modEng
            · rename_i x s1 he
              have h1 : s1.Sound := of_bad he h.releaseHeld.collect
              exact h1.endEng

/-! ## The transfer engine, the rings and curtains, the look-up engine -/

theorem moveEnds {a : Site} {o : EngOp} (h : s.Sound) : (s.moveEnds a o).Sound := by
  unfold State.moveEnds
  split
  · exact h.openMove.endEng
  · exact of_ite h.endEng (of_ite h.openMove.endEng (of_ite h h.endEng))

theorem chorusEnds {a : Site} {o : EngOp} (h : s.Sound) : (s.chorusEnds a o).Sound := by
  unfold State.chorusEnds
  split
  · exact h.endEng
  · exact of_ite h.endEng h.chorusRun.endEng

theorem atomEnds {a : Site} {o : EngOp} (h : s.Sound) : (s.atomEnds a o).Sound := by
  unfold State.atomEnds
  split
  · exact h.endEng
  · split
    · rename_i x s2 he
      exact of_wait he h.atomOld
    · rename_i x s2 st he
      have h2 : s2.Sound := of_fail he h.atomOld
      exact h2.endEng
    · rename_i x s2 rest he
      have h2 : s2.Sound := of_bytes he h.atomOld
      exact h2.atomRun.endEng

theorem ringEnds {a : Site} {o : EngOp} (h : s.Sound) : (s.ringEnds a o).Sound := by
  unfold State.ringEnds
  extract_lets n fill
  split
  · exact h
  · split
    · exact h.endEng
    · split
      · exact of_ite h h.arriveAt.endEng
      · split
        · rename_i x s1 he
          have h1 : s1.Sound := of_some he h.slotEvent
          exact h1.endEng
        · exact h.endEng

theorem gpeEnds {a : Site} {o : EngOp} (h : s.Sound) : (s.gpeEnds a o).Sound := by
  unfold State.gpeEnds
  split
  · exact h.endEng
  · split
    · rename_i x s1 he
      have h1 : s1.Sound := of_pair_fst he h.lookupEnds
      exact h1.endEng
    · rename_i x s1 he
      exact of_pair_fst he h.lookupEnds

theorem engEnds {a : Site} {o : EngOp} (h : s.Sound) : (s.engEnds a o).Sound := by
  unfold State.engEnds
  split
  · exact h.gpeEnds
  · exact h.gpeEnds
  · exact h.moveEnds
  · exact h.chorusEnds
  · exact h.atomEnds
  · exact h.ringEnds
  · exact h.ringEnds
  · exact h.ringEnds
  · exact h.unitEnds

theorem execEngineInstructionEnds {cl ctx opId : Nat} (h : s.Sound) : KeepsSound (Machine.execEngineInstructionEnds cl ctx opId s) := by
  refine h.whenServing (fun {s} h => ?_)
  split
  · exact h
  · exact of_ite h.engEnds.settleCtx h

/-! ## Safe points (R378, R425) -/

theorem atSafe {yield : Bool} {a : Site} (h : s.Sound) : (Machine.atSafe yield a s).Sound := by
  unfold Machine.atSafe
  extract_lets cl s1
  have h1 : s1.Sound := h.set.monitor
  split
  · exact h1
  · extract_lets s2
    have h2 : s2.Sound := h1.switchTo
    exact of_ite h1 (of_ite h2 h2.set)

theorem issueSafe {cl : Nat} {i : BWord} {yield : Bool} (h : s.Sound) : (s.issueSafe cl i yield).Sound := by
  unfold State.issueSafe
  refine h.issueWith (fun _ h => h.atSafe) (fun _ h => h) (fun {s} x h => ?_)
  split
  · exact trivial
  · exact h

theorem execSafe {cl : Nat} {i : BWord} (h : s.Sound) : KeepsSound (Machine.execSafe cl i s) := h.issueSafe

theorem execYield {cl : Nat} {i : BWord} (h : s.Sound) : KeepsSound (Machine.execYield cl i s) := h.issueSafe

/-! ## FENCE, TRAP, EXIT (R376, R377) -/

theorem execFence {cl : Nat} {i : BWord} (h : s.Sound) : KeepsSound (Machine.execFence cl i s) := by
  refine h.issue (fun {s} x h => ?_)
  extract_lets mask
  split
  · exact trivial
  · exact h

theorem execTrap {cl : Nat} {i : BWord} (h : s.Sound) : KeepsSound (Machine.execTrap cl i s) := h.issue (fun _ _ => trivial)

theorem freePrompter {cl id : Nat} (h : s.Sound) : (s.freePrompter cl id).Sound := h.modCluster.repick

theorem atExit {a : Site} (h : s.Sound) : (Machine.atExit a s).Sound := by
  unfold Machine.atExit
  extract_lets s1
  have h1 : s1.Sound := h.set.freePrompter
  split
  · exact h1
  · exact of_ite h1.finishLaunch h1.abortDone

theorem execExit {cl : Nat} {i : BWord} (h : s.Sound) : KeepsSound (Machine.execExit cl i s) := by
  refine h.issueWith (fun _ h => h) (fun _ h => h.atExit) (fun {s} x h => ?_)
  split
  · exact h
  · exact trivial

/-! ## Cancel (R102, R274, R311, R326, R363) -/

theorem execCancel {ctx cl : Nat} (h : s.Sound) : KeepsSound (Machine.execCancel ctx cl s) := by
  refine h.whenServing (fun {s} h => ?_)
  split
  · exact h
  · split
    · exact h
    · split
      · exact h.settleCtx
      · extract_lets gone s1 s2
        have h1 : s1.Sound := h.modOn
        have h2 : s2.Sound := h1.dropWaits.modCtx
        exact h2.freePrompter.abortDone

theorem execCancelAtGpe {die ctx : Nat} (h : s.Sound) : KeepsSound (Machine.execCancelAtGpe die ctx s) := by
  refine h.whenServing (fun {s} h => ?_)
  extract_lets stop
  have hstop : ∀ {s : State} (o : GpeOp), s.Sound → (stop s o).Sound := by
    intro s o h
    unfold stop
    extract_lets s1 s2
    have h1 : s1.Sound := of_ite h h.opFail
    have h2 : s2.Sound := foldl (fun _ h => h.bagDone) _ h1
    split
    · exact h2
    · exact h2.writeStatus.modGpeOp
  split
  · extract_lets mine
    split
    · exact h
    · refine Sound.abortDone ?_
      refine Sound.modCtx ?_
      refine foldl (fun {s} x h => ?_) _ h
      exact hstop _ h
  · exact h

/-! ## Instruction fetch (R384) -/

theorem execIcacheMissFill {f : FetchIn} (h : s.Sound) : KeepsSound (Machine.execIcacheMissFill f s) := by
  refine h.whenServing (fun {s} h => ?_)
  extract_lets s1
  have h1 : s1.Sound := h.count
  split
  · exact h
  · split
    · exact h1
    · exact h1.memCorrected
    · exact h1.memUncorrectable

end State.Sound

end Sys2Proof.Machine

/-! That the functions of the model leave the part sound (O9), one lemma for each function that answers a state, in the order of the
model: scripts, the queue slots, launches, Cue requests and host ports. -/

namespace Sys2Proof.Machine

namespace State.Sound

variable {s : State}

/-! ## The whole check (R384, R409, R478) -/

theorem noteRefused {h : Nat} {b : Bytes} {st word : Nat} (hs : s.Sound) : (s.noteRefused h b st word).Sound := by
  unfold State.noteRefused
  extract_lets s1
  have h1 : s1.Sound := hs.setRegN
  exact of_ite h1.setRegN.latch h1

/-! ## The script commands (R408 to R410) -/

theorem install {h : Nat} {img : Bytes} (hs : s.Sound) : (s.install h img).2.Sound := by
  unfold State.install
  split
  · exact hs
  · exact hs

theorem scriptDone {k n : Nat} {patch : Bool} {h : Nat} {img : Bytes} {bytes : Nat} (hs : s.Sound) : (s.scriptDone k n patch h img bytes).Sound := by
  unfold State.scriptDone
  extract_lets st
  split
  · exact hs.endCmd
  · split
    · exact hs.noteRefused.endCmd
    · exact hs.install.endCmd

theorem scriptGo {k n : Nat} {data : Bytes} (h : s.Sound) : (s.scriptGo k n data).Sound := by
  unfold State.scriptGo
  split
  · exact h
  · extract_lets a bytes addr finish d
    have hfinish : ∀ {s : State} (img : Bytes), s.Sound → (finish s img).Sound := by
      intro s img h
      unfold finish
      exact h.scriptDone
    split
    · exact h
    · split
      · split
        · rename_i x s2 he
          exact of_wait he h.devRead
        · rename_i x s2 st he
          have h2 : s2.Sound := of_fail he h.devRead
          exact h2.endCmd
        · rename_i x s2 rest he
          have h2 : s2.Sound := of_bytes he h.devRead
          exact hfinish _ h2
      · split
        · rename_i x s1 he
          have h1 : s1.Sound := of_pair he h.access
          exact of_ite (hfinish _ h1) h1.modCmd
        · rename_i x fst s1 x' he
          exact of_pair he h.access

theorem scriptCmd {k : Nat} {patch : Bool} (h : s.Sound) : (s.scriptCmd k patch).Sound :=
  h.admitOp (fun _ _ h => of_ite h.endCmd (of_ite h.endCmd (of_ite h.noteRefused.endCmd h.scriptGo)))

theorem execScriptLoad {k : Nat} (h : s.Sound) : KeepsSound (Machine.execScriptLoad k s) := h.scriptCmd

theorem execScriptPatch {k : Nat} (h : s.Sound) : KeepsSound (Machine.execScriptPatch k s) := h.scriptCmd

theorem execScriptDrop {k : Nat} (h : s.Sound) : KeepsSound (Machine.execScriptDrop k s) :=
  h.admitOp (fun _ _ h => of_ite h.endCmd (of_ite h.endCmd (of_ite h.endCmd h.scripts.endCmd)))

/-! ## Data for a load (R56, R453) -/

theorem loadBulk {l : Load} {data : Bytes} (h : s.Sound) : (s.loadBulk l data).Sound := by
  unfold State.loadBulk
  split
  · exact h
  · extract_lets go
    have hgo : ∀ {s : State} (b : Bytes), s.Sound → (go s b).Sound := by
      intro s b h
      unfold go
      exact h.loadImages
    split
    · split
      · rename_i x s1 he
        have h1 : s1.Sound := of_pair he h.access
        exact hgo _ h1
      · rename_i x fst s1 x' he
        exact of_pair he h.access
    · split
      · rename_i x s1 b he
        have h1 : s1.Sound := of_bytes he h.devRead
        exact hgo _ h1
      · rename_i x s1 he
        exact of_wait he h.devRead
      · rename_i x s1 st he
        have h1 : s1.Sound := of_fail he h.devRead
        exact h1.endLoad
    · exact h

theorem execBulkEngineReadData {slot n : Nat} {data : Bytes} (h : s.Sound) : KeepsSound (Machine.execBulkEngineReadData slot n data s) := by
  refine h.whenServing (fun {s} h => ?_)
  split
  · exact h.loadBulk
  · exact h.scriptGo

/-! ## Starting and destroying a slot (R391, R392, R434, R435) -/

theorem putCfgWord {off : Nat} {v : Word} (h : s.Sound) : (s.putCfgWord off v).Sound := h.setRegN

theorem startSlot {k : Nat} (h : s.Sound) : (s.startSlot k).Sound := by
  unfold State.startSlot
  extract_lets s1
  have h1 : s1.Sound := foldl (fun _ h => h.putCfgWord) _ h
  exact h1.modSlot

theorem abortCtx {id : Nat} (h : s.Sound) : (s.abortCtx id).Sound := by
  unfold State.abortCtx
  split
  · exact h
  · exact of_ite h (of_ite h.modCtx h.modCtx.endLaunch.settleCtx)

theorem abortSlot {k : Nat} (h : s.Sound) : (s.abortSlot k).Sound := by
  unfold State.abortSlot
  extract_lets s1 s2
  have h1 : s1.Sound := h.modSlot
  have h2 : s2.Sound := h1.dropWaits
  exact foldl (fun _ h => h.abortCtx) _ h2

theorem beginDestroy {k : Nat} {abort : Bool} (h : s.Sound) : (s.beginDestroy k abort).Sound := of_ite h.modSlot.abortSlot h.modSlot

theorem execQueueEnWritten {k : Nat} {v : BitVec 32} (h : s.Sound) : KeepsSound (Machine.execQueueEnWritten k v s) := by
  unfold Machine.execQueueEnWritten
  show State.Sound _
  extract_lets en abort
  split
  · exact h
  · refine h.whenOpen (fun {s} h => ?_)
    extract_lets q s1 s2
    have h1 : s1.Sound := h.modSlot
    have h2 : s2.Sound := h1.modSlot
    split
    · exact of_ite h1.startSlot h1
    · exact h1.modSlot
    · exact of_ite h1 h1.beginDestroy
    · exact of_ite h1.modSlot (of_ite h2.modSlot.abortSlot h2)

theorem execQueueStarted {k : Nat} (h : s.Sound) : KeepsSound (Machine.execQueueStarted k s) :=
  h.whenServing (fun h => of_ite h (of_ite h.modSlot.latch (of_ite h.modSlot.beginDestroy h.modSlot)))

theorem writeQueueCfg {k r : Nat} {a : Access} (h : s.Sound) : (State.writeQueueCfg k r a s).Sound := by
  unfold State.writeQueueCfg
  extract_lets q
  split
  · exact h.modSlot.setRegN
  · exact h.modSlot
  · exact h.latch

theorem execQueueConfigWrite {a : Access} (h : s.Sound) : KeepsSound (Machine.execQueueConfigWrite a s) := by
  unfold Machine.execQueueConfigWrite
  show State.Sound _
  split
  · exact h
  · exact h.whenOpen (fun h => h.byWords (fun _ h => h.writeQueueCfg))

/-! ## Doorbells (R394, R395) -/

theorem dbDrop {k : Nat} {doorbell : Bool} (h : s.Sound) : (s.dbDrop k doorbell).Sound := h.modSlot.count

theorem execSqDb {k : Nat} {v : BitVec 32} (h : s.Sound) : KeepsSound (Machine.execSqDb k v s) := by
  unfold Machine.execSqDb
  show State.Sound _
  split
  · exact h
  · exact h.whenOpen (fun h => of_ite h.dbDrop (of_ite h.dbDrop (of_ite (of_ite h h.free.modSlot.latch) h.modSlot)))

theorem execCqDb {k : Nat} {v : BitVec 32} (h : s.Sound) : KeepsSound (Machine.execCqDb k v s) :=
  of_ite h (h.whenOpen (fun h => of_ite h.dbDrop h.modSlot))

theorem execDoorbellAccessDropped {k : Nat} {write : Bool} {a : Access} (h : s.Sound) : KeepsSound (Machine.execDoorbellAccessDropped k write a s) :=
  of_ite h (h.whenOpen (fun h => of_ite h (of_ite h.dbDrop h.dbDrop.emit)))

/-! ## Fetching (R393, R396, R397, R454) -/

theorem noteDirect (h : s.Sound) : s.noteDirect.Sound := h

theorem hlcRead {port line : Nat} (h : s.Sound) : (s.hlcRead port line).Sound := by
  unfold State.hlcRead
  extract_lets base
  exact of_ite h.count (h.host (by rfl)).emit.count

theorem takeEntry {k : Nat} {e : Bytes} (h : s.Sound) : (s.takeEntry k e).Sound := by
  unfold State.takeEntry
  extract_lets s1 s2
  have h1 : s1.Sound := h.modSlot
  have h2 : s2.Sound := of_ite h1.count h1
  exact h2.noteDirect

theorem hlcFetch {port line : Nat} {h : GranuleHealth} (hs : s.Sound) : (s.hlcFetch port line h).Sound := by
  unfold State.hlcFetch
  split
  · exact hs.hlcRead
  · split
    · rename_i x s1 he
      have h1 : s1.Sound := of_pair he hs.sramRead
      exact h1.hlcRead
    · rename_i x s1 he
      have h1 : s1.Sound := of_pair he hs.sramRead
      exact (h1.host (by rfl)).hlcRead

theorem execEntryFetched {k : Nat} {entry : Bytes} {ecc : FetchEcc} (h : s.Sound) : KeepsSound (Machine.execEntryFetched k entry ecc s) := by
  refine h.whenServing (fun {s} h => ?_)
  extract_lets s1 q
  have h1 : s1.Sound := h.noteDirect
  split
  · split
    · exact h
    · split
      · rename_i x s11 he
        have h11 : s11.Sound := of_pair he h1.access
        extract_lets s2 s3
        have h2 : s2.Sound := h11.hlcFetch
        have h3 : s3.Sound := of_ite h2.sramCorrected h2
        split
        · exact h2.sramUncorrectable
        · exact of_ite h3.takeEntry h3.modSlot
      · rename_i x fst s11 x' he
        exact of_pair he h1.access
  · split
    · exact h
    · split
      · rename_i x s11 he
        have h11 : s11.Sound := of_pair he h1.access
        extract_lets s2 s3
        have h2 : s2.Sound := h11.hlcFetch
        have h3 : s3.Sound := of_ite h2.sramCorrected h2
        split
        · exact h2.sramUncorrectable
        · exact of_ite h3.takeEntry h3.modSlot
      · rename_i x fst s11 x' he
        exact of_pair he h1.access

theorem execEntryReread {k : Nat} {entry : Bytes} (h : s.Sound) : KeepsSound (Machine.execEntryReread k entry s) := by
  refine h.whenServing (fun {s} h => ?_)
  extract_lets q
  split
  · exact h
  · extract_lets good c
    split
    · exact h
    · split
      · rename_i x s1 he
        have h1 : s1.Sound := of_pair he h.noteDirect.access
        extract_lets s11
        have h11 : s11.Sound := h1.emit
        exact of_ite h11.takeEntry (of_ite h11.modSlot h11.modSlot.latch)
      · rename_i x fst s1 x' he
        exact of_pair he h.noteDirect.access

/-! ## Commands that end at once (R400, R402, R407) -/

theorem execQueueFence {k : Nat} (h : s.Sound) : KeepsSound (Machine.execQueueFence k s) := h.admitOp (fun _ _ h => h.modSlot.endCmd)

theorem execQuery {k : Nat} (h : s.Sound) : KeepsSound (Machine.execQuery k s) := h.admitOp (fun _ _ h => h.endCmd)

theorem execNop {k : Nat} (h : s.Sound) : KeepsSound (Machine.execNop k s) := h.admitOp (fun _ _ h => h.endCmd)

theorem execUnassignedOpcode {k : Nat} (h : s.Sound) : KeepsSound (Machine.execUnassignedOpcode k s) := h.admitIf (fun _ _ h => h.endCmd)

theorem execCopy {k : Nat} (h : s.Sound) : KeepsSound (Machine.execCopy k s) := h.admitOp (fun _ _ h => of_ite h.endCmd h.modCmd)

/-! ## Completion records (R411 to R416) -/

theorem signalSlot {k : Nat} (h : s.Sound) : (s.signalSlot k).Sound := h.modSlot.signal

theorem moderate {k : Nat} (h : s.Sound) : (s.moderate k).Sound := of_ite h.modSlot.signalSlot h.modSlot

theorem countDestroy {k : Nat} {c : Ctx} (h : s.Sound) : (s.countDestroy k c).Sound := h.modSlot

theorem record {k : Nat} {c : Cmd} {ctx : Option Ctx} (h : s.Sound) : (s.record k c ctx).2.Sound := by
  unfold State.record
  extract_lets q ph st fate
  split
  · exact h
  · split
    · exact h
    · exact h.free.noteFate

theorem retire {k n : Nat} {ctx : Option Ctx} (h : s.Sound) : (s.retire k n ctx).Sound := by
  unfold State.retire
  extract_lets s1
  have h1 : s1.Sound := h.modSlot
  split
  · exact h1.countDestroy.releaseCtx
  · exact h1

theorem scopeSnoop {w : Wrote} (h : s.Sound) : (s.scopeSnoop w).Sound := foldl (fun _ h => of_ite h h.snoopFor) _ h

theorem scopeRead {scope port : Nat} {w : Wrote} (h : s.Sound) : (s.scopeRead scope port w).Sound := by
  unfold State.scopeRead
  split
  · exact of_ite h h.emit
  · exact h

theorem execCompletionRecord {k n : Nat} (h : s.Sound) : KeepsSound (Machine.execCompletionRecord k n s) := by
  refine h.whenOpen (fun {s} h => ?_)
  extract_lets q s1 addr
  have h1 : s1.Sound := of_ite h.modSlot h.count
  split
  · exact h
  · extract_lets ctx
    split
    · split
      · exact h
      · split
        · exact h.scopeSnoop
        · split
          · exact h1.record.retire
          · split
            · rename_i x s11 he
              have h11 : s11.Sound := of_pair he h.access
              exact h11.scopeRead.record.hostOut.modSlot.moderate.retire
            · rename_i x fst s11 x' he
              exact of_pair he h.access

theorem execIntmodTimer {k : Nat} (h : s.Sound) : KeepsSound (Machine.execIntmodTimer k s) :=
  h.whenOpen (fun h => of_ite h.signalSlot h)

/-! ## The destroy record (R434 to R436) -/

theorem slotOff {k : Nat} (h : s.Sound) : (s.slotOff k).Sound := of_ite h.modSlot.startSlot h.modSlot

theorem execDestroyRecord {k : Nat} (h : s.Sound) : KeepsSound (Machine.execDestroyRecord k s) := by
  refine h.whenOpen (fun {s} h => ?_)
  extract_lets addr
  split
  · exact h
  · split
    · rename_i x x' s1 he
      have h1 : s1.Sound := of_pair he h.access
      extract_lets l s2 b s3
      have h2 : s2.Sound := foldl (fun _ h => h.countDestroy) _ h1
      have h3 : s3.Sound := of_ite h2.hostOut.latch h2
      exact of_ite h1 (slotOff (foldl (fun _ h => h.releaseCtx) _ h3))

/-! ## Admission (R422) -/

theorem addCtx {c : Ctx} (h : s.Sound) : (s.addCtx c).Sound := by
  unfold State.addCtx
  extract_lets s1 s2 s3
  have h1 : s1.Sound := foldl (fun _ h => h.takeRef) _ h
  have h2 : s2.Sound := h1.modEdition
  have h3 : s3.Sound := by
    unfold s3
    split
    · exact h2.modEdition
    · exact h2
  exact h3.ctxs.count.monitor

/-! ## LAUNCH (R403) -/

theorem cfeRead {who : XReq} {k addr n : Nat} (h : s.Sound) : (s.cfeRead who k addr n).2.Sound := by
  unfold State.cfeRead
  split
  · exact h
  · split
    · rename_i x s1 he
      have h1 : s1.Sound := of_pair he h.access
      exact foldl (fun _ h => h.hlcRead) _ h1
    · exact h.access

theorem readArgs {c : Ctx} (h : s.Sound) : (s.readArgs c).2.Sound := by
  unfold State.readArgs
  extract_lets e
  split
  · rename_i x s1 he
    have h1 : s1.Sound := of_pair he h.cfeRead
    exact h1.cfeRead
  · exact h.cfeRead

theorem launchEntry {k n : Nat} {e args segs : Bytes} (h : s.Sound) : (s.launchEntry k n e args segs).Sound := by
  unfold State.launchEntry
  extract_lets a
  split
  · exact h.endCmd
  · split
    · exact h.endCmd
    · exact of_ite h.endCmd h.addCtx.readArgs

theorem execLaunch {k : Nat} {args segs : Bytes} (h : s.Sound) : KeepsSound (Machine.execLaunch k args segs s) := by
  unfold Machine.execLaunch
  show State.Sound _
  split
  · exact h
  · exact of_ite (h.admitOp (fun _ _ h => h.launchEntry)) h

/-! ## Frames and shared areas (R350 to R352) -/

theorem openCells {key : Nat} {skip : Nat → Bool} {off n : Nat} (h : s.Sound) : (s.openCells key skip off n).Sound := by
  induction n generalizing s off with
  | zero => exact h
  | succ n ih =>
    unfold State.openCells
    split
    · exact ih h
    · exact ih h.free.scrPut

theorem fillBufs {img : Bytes} {cl base i : Nat} {shared : Bool} (h : s.Sound) : (s.fillBufs img cl base i shared).Sound := by
  unfold State.fillBufs
  refine h.foldl (fun {s} x h => ?_) _
  extract_lets x1
  split
  · exact h.scrWrite
  · exact of_ite h.scrWrite h

theorem takeCluster {c : Ctx} {img : Bytes} {i cl : Nat} {shared : Option Nat} (h : s.Sound) : (s.takeCluster c img i cl shared).Sound := by
  unfold State.takeCluster
  split
  · extract_lets more
    split
    · exact h.modCluster
    · exact h.modCluster.openCells.fillBufs

theorem placeCtx {c : Ctx} {die : Nat} {l : List (Nat × Nat × Option Nat)} (h : s.Sound) : (s.placeCtx c die l).Sound := by
  unfold State.placeCtx
  extract_lets img cls s1 s2
  have h1 : s1.Sound := h
  have h2 : s2.Sound := h1.modCtx
  exact foldl (fun _ h => h.takeCluster) _ h2

theorem execPlaceLaunch {ctx : Nat} (h : s.Sound) : KeepsSound (Machine.execPlaceLaunch ctx s) := by
  refine h.whenServing (fun {s} h => ?_)
  split
  · exact h
  · split
    · exact of_ite h h.placeCtx.monitor
    · exact h

/-! ## Start (R316, R326, R353, R354, R405) -/

theorem fillFrame {img : Bytes} {i : Nat} {k : ClCtx} (h : s.Sound) : (s.fillFrame img i k).Sound := h.openCells.fillBufs

theorem startCtx {id : Nat} (h : s.Sound) : (s.startCtx id).Sound := by
  unfold State.startCtx
  split
  · exact h
  · extract_lets img s1 s2 s3
    have h1 : s1.Sound := foldl (fun _ h => h.fillFrame) _ h
    have h2 : s2.Sound := by
      unfold s2
      split
      · exact h1.ctxWrite
      · exact h1
    have h3 : s3.Sound := h2.modCtx
    exact foldl (fun _ h => h.repick) _ h3

theorem takeSegs {c : Ctx} (h : s.Sound) : (s.takeSegs c).Sound := h.modCtx

theorem argsIn {c : Ctx} (h : s.Sound) : (s.argsIn c).2.Sound := by
  unfold State.argsIn
  split
  · split
    · exact h
    · exact h.modCtx
  · split
    · rename_i x s1 he
      have h1 : s1.Sound := of_pair he h.readArgs
      split
      · exact h1.failCtx
      · exact h1.takeSegs
    · rename_i x fst s1 x' he
      exact of_pair he h.readArgs

theorem execLaunchStarts {ctx : Nat} (h : s.Sound) : KeepsSound (Machine.execLaunchStarts ctx s) := by
  refine h.whenServing (fun {s} h => ?_)
  split
  · exact h
  · split
    · exact h
    · split
      · rename_i x s1 he
        have h1 : s1.Sound := of_pair he h.argsIn
        exact h1.startCtx
      · rename_i x s1 he
        exact of_pair he h.argsIn

/-! ## Segments (R404, R405, R420) -/

theorem putSegment {c : Ctx} {reg : Nat} {b : Bytes} {fin : Bool} (h : s.Sound) : SoundOpt (s.putSegment c reg b fin) := by
  unfold State.putSegment
  refine opt_ite trivial (opt_bind fun r => opt_bind fun k => ?_)
  split
  · exact h.setRing.ctxWrite.ringPublish
  · exact h.failCtx
  · exact trivial

theorem queueSegment {c : Ctx} {seg : Nat} {bytes : Bytes} (h : s.Sound) : (s.queueSegment c seg bytes).Sound := by
  unfold State.queueSegment
  extract_lets n
  split
  · exact h
  · split
    · exact h
    · split
      · rename_i x s1 he
        have h1 : s1.Sound := of_pair he h.cfeRead
        split
        · rename_i x1 s11 he1
          have h11 : s11.Sound := of_some he1 h1.putSegment
          exact h11.modCtx
        · exact h1
      · rename_i x fst s1 x' he
        exact of_pair he h.cfeRead

theorem cueSegment {c : Ctx} {m : CueMsg} {seg : Nat} (h : s.Sound) : (s.cueSegment c m seg).Sound := by
  unfold State.cueSegment
  extract_lets known
  split
  · exact h
  · split
    · exact h
    · split
      · exact h
      · split
        · exact h
        · rename_i x s1 he
          have h1 : s1.Sound := of_some he h.putSegment
          exact h1.modCtx

theorem execSegmentDelivered {ctx seg : Nat} {bytes : Bytes} (h : s.Sound) : KeepsSound (Machine.execSegmentDelivered ctx seg bytes s) := by
  refine h.whenServing (fun {s} h => ?_)
  split
  · exact h
  · split
    · exact h
    · split
      · exact h.cueSegment
      · exact h.queueSegment

/-! ## The understudy and the deadline (R430, R431) -/

theorem execUnderstudyStart {ctx : Nat} (h : s.Sound) : KeepsSound (Machine.execUnderstudyStart ctx s) := by
  refine h.whenServing (fun {s} h => ?_)
  split
  · exact h
  · split
    · exact h
    · split
      · exact h
      · split
        · rename_i x s1 he
          exact of_pair he h.argsIn
        · rename_i x s1 he
          have h1 : s1.Sound := of_pair he h.argsIn
          split
          · exact h1
          · exact of_ite h1.failCtx h1.modCtx.placeCtx.startCtx.latch.count

theorem execDeadlineReached {ctx : Nat} (h : s.Sound) : KeepsSound (Machine.execDeadlineReached ctx s) := by
  refine h.whenServing (fun {s} h => ?_)
  split
  · exact h
  · exact of_ite h h.modCtx.failCtx

/-! ## Bindings (R418, R442) -/

theorem writeBinding {a : Access} (h : s.Sound) : (State.writeBinding a s).Sound := by
  unfold State.writeBinding
  extract_lets i old new put
  have hput : ∀ (b : Binding), (put b).Sound := by
    intro b
    unfold put
    exact h.bindings (List.length_modify ..)
  split
  · exact of_ite h.latch (of_ite (hput _) (h.bindings (List.length_modify ..)).latch)
  · exact of_ite h.latch (hput _)

theorem execCueBindWrite {a : Access} (h : s.Sound) : KeepsSound (Machine.execCueBindWrite a s) :=
  h.whenOn (fun h => h.byWords (fun _ h => h.writeBinding))

/-! ## Replies (R421) -/

theorem sendReply {m : CueMsg} {status : Nat} {finish : Word} {slip fate : Nat} {reply : Bytes} (h : s.Sound) :
    (s.sendReply m status finish slip fate reply).Sound :=
  foldl (fun _ h => h.sendFrame) _ h

theorem refuseCue {m : CueMsg} {st : Nat} (h : s.Sound) : (s.refuseCue m st).Sound := by
  unfold State.refuseCue
  extract_lets fate
  exact h.free.noteFate.count.cueNames.sendReply

/-! ## Fragments (R418 to R420) -/

theorem dropCue (h : s.Sound) : s.dropCue.Sound := h.count.latch

theorem cueFragment {c : Ctx} {m : CueMsg} {b : Bytes} (h : s.Sound) : (s.cueFragment c m b).Sound := by
  unfold State.cueFragment
  extract_lets st
  exact of_ite h.dropCue (of_ite h (of_ite h.failCtx h.modCtx))

theorem cueNew {bd : Binding} {m : CueMsg} {b : Bytes} (h : s.Sound) : (s.cueNew bd m b).Sound := by
  unfold State.cueNew
  extract_lets s1
  have h1 : s1.Sound := h
  split
  · exact h.refuseCue
  · split
    · exact h.refuseCue
    · split
      · exact h.refuseCue
      · split
        · exact h.refuseCue
        · exact of_ite h.refuseCue h1.count.addCtx

theorem cueFrameIn {f : CueFrame} (h : s.Sound) : (s.cueFrameIn f).Sound := by
  unfold State.cueFrameIn
  extract_lets b s1
  have h1 : s1.Sound := h.noteDirect
  split
  · exact h.dropFrame
  · split
    · exact h1.dropCue
    · split
      · exact h1.dropCue
      · split
        · split
          · exact h1.cueFragment.noteDirect
          · exact h1
        · exact of_ite h1 h1.cueNew.noteDirect

theorem execCueRequest {f : CueFrame} (h : s.Sound) : KeepsSound (Machine.execCueRequest f s) := h.whenOpen (fun h => h.rxUdp (fun h => h.cueFrameIn))

theorem execReassemblyTimeout {ctx : Nat} (h : s.Sound) : KeepsSound (Machine.execReassemblyTimeout ctx s) := by
  refine h.whenServing (fun {s} h => ?_)
  split
  · exact h
  · exact of_ite h.failCtx h

theorem execMessageNameExpires {src srcPort msgid : Nat} (h : s.Sound) : KeepsSound (Machine.execMessageNameExpires src srcPort msgid s) :=
  h.whenServing (fun h => h)

theorem execCueReply {ctx : Nat} (h : s.Sound) : KeepsSound (Machine.execCueReply ctx s) := by
  refine h.whenOpen (fun {s} h => ?_)
  split
  · exact h
  · extract_lets st s1 s2
    have h1 : s1.Sound := h.scopeRead
    have h2 : s2.Sound := of_ite h1.count h1
    split
    · exact h
    · extract_lets s3 s4
      have h3 : s3.Sound := h2.sendReply
      have h4 : s4.Sound := h3
      exact of_ite h (of_ite h.scopeSnoop h4.releaseCtx)

/-! ## Ports (R449, R452, R461, R480, R482) -/

theorem execHostLinkDown {p : Nat} (h : s.Sound) : KeepsSound (Machine.execHostLinkDown p s) := by
  unfold Machine.execHostLinkDown
  show State.Sound _
  extract_lets ws s1 base s2 s3 s4 s5
  have h1 : s1.Sound := h.modHPort
  have h2 : s2.Sound := h1
  have h3 : s3.Sound := foldl (fun _ h => h.failReq) _ h2
  have h4 : s4.Sound := h3.failTransfers
  have h5 : s5.Sound := foldl (fun _ h => h.slotError) _ h4
  exact of_ite h h5.latch

theorem execPasidAtsPriEnable {p : Nat} {pasid ats : Bool} {pri : Option Nat} (h : s.Sound) : KeepsSound (Machine.execPasidAtsPriEnable p pasid ats pri s) := by
  unfold Machine.execPasidAtsPriEnable
  show State.Sound _
  extract_lets s1
  have h1 : s1.Sound := h.modHPort
  exact of_ite h (of_ite h1.admitFull h1.failWaits)

theorem execGlobalPersistentFlush {p : Nat} (h : s.Sound) : KeepsSound (Machine.execGlobalPersistentFlush p s) := of_ite h.emit h

theorem execHostSnoop {line : Nat} (h : s.Sound) : KeepsSound (Machine.execHostSnoop line s) := (h.host (by rfl)).emit

/-! ## HDM (R471, R472, R483) -/

theorem execHdmDecoderCommit {p base : Nat} (h : s.Sound) : KeepsSound (Machine.execHdmDecoderCommit p base s) := of_ite h.modHPort h

theorem execHstHdmWrite {v : BitVec 32} (h : s.Sound) : KeepsSound (Machine.execHstHdmWrite v s) :=
  h.whenOpen (fun h => of_ite h.latch (foldl (fun _ h => h.emit) _ h.setRegN))

theorem execHostLinkUp {p width rate : Nat} {cache mem : Bool} (h : s.Sound) : KeepsSound (Machine.execHostLinkUp p width rate cache mem s) :=
  of_ite h.modHPort.emit h

/-! ## CXL.mem (R469, R476, R477) -/

theorem noteLine {l : Nat} {holds : Bool} (h : s.Sound) : (s.noteLine l holds).Sound := h

theorem cxlRead {addr a n : Nat} {keeps : Bool} (h : s.Sound) : (s.cxlRead addr a n keeps).Sound := by
  unfold State.cxlRead
  extract_lets bad old s1 base s2
  have h1 : s1.Sound := foldl (fun _ h => h.poisonRead) _ (foldl (fun _ h => h.memBadRead) _ h)
  have h2 : s2.Sound := h1
  exact emit (of_ite h2.noteLine h2)

theorem cxlWrite {a : Nat} {b : Bytes} {poison keeps : Bool} (h : s.Sound) : (s.cxlWrite a b poison keeps).Sound :=
  noteLine (of_ite h.devWrite h.devWrite)

theorem execCxlMemAccess {write : Bool} {addr : Nat} {bytes : Bytes} {poison keeps : Bool} (h : s.Sound) :
    KeepsSound (Machine.execCxlMemAccess write addr bytes poison keeps s) := by
  refine h.whenOpen (fun {s} h => ?_)
  split
  · exact h
  · exact of_ite h (of_ite (of_ite h h.emit) (of_ite h.cxlWrite h.cxlRead))

/-! ## Patrol scrub and stacks (R475 to R477) -/

theorem scrub {k granule : Nat} {x : GranuleHealth} (h : s.Sound) : (s.scrub k granule x).Sound := by
  have h1 : (s.memUncorrectable k (granule / 8 % 32) granule).Sound := h.memUncorrectable
  cases x with
  | good => exact h
  | corrected => exact h.memCorrected
  | uncorrectable =>
    rw [State.scrub.eq_def]
    cases s.devOf k (granule * 32) with
    | none => exact of_ite (foldl (fun _ h => h.noteLine) _ h1) h1
    | some a => exact h1.hbmState rfl

theorem execPatrolScrub {k granule : Nat} {h : HbmHealth} (hs : s.Sound) : KeepsSound (Machine.execPatrolScrub k granule h s) :=
  of_ite hs (hs.hbmState (by rfl)).scrub

theorem execStackFailed {k : Nat} (h : s.Sound) : KeepsSound (Machine.execStackFailed k s) := of_ite h.failStack h

end State.Sound

end Sys2Proof.Machine

/-! That the functions of the model leave the part sound (O9), one lemma for each function that answers a state, in the order of the
model: the Twiben ports, the management subsystem, acknowledgements and the network ports. -/

namespace Sys2Proof.Machine

namespace State.Sound

variable {s : State}

/-! ## LNK_NODE, LNK_TOPO and LNK_CTL (R496, R511, R523) -/

theorem sendIdent {n : Nat} (h : s.Sound) : (s.sendIdent n).Sound := h.sendEmpty

theorem writeNode {v : Nat} (h : s.Sound) : (s.writeNode v).Sound := by
  unfold State.writeNode
  extract_lets base s1
  have h1 : s1.Sound := h
  exact of_ite h.latch (foldl (fun _ h => h.sendIdent) _ h1)

theorem writeTopo {v : Nat} (h : s.Sound) : (s.writeTopo v).Sound := of_ite h.latch h.setRegN

theorem writeLnkCtl {v : Nat} (h : s.Sound) : (s.writeLnkCtl v).Sound := by
  unfold State.writeLnkCtl
  extract_lets old s1 ports base
  have h1 : s1.Sound := h.setRegN
  exact of_shape h1.mem { h1.shape with lports := (List.length_mapIdx ..).trans h1.shape.lports }

theorem execLnkNodeWrite {v : BitVec 32} (h : s.Sound) : KeepsSound (Machine.execLnkNodeWrite v s) := h.whenOpen (fun h => h.writeNode)

theorem execLnkTopoWrite {v : BitVec 32} (h : s.Sound) : KeepsSound (Machine.execLnkTopoWrite v s) := h.whenOpen (fun h => h.writeTopo)

theorem execEEn {v : BitVec 32} (h : s.Sound) : KeepsSound (Machine.execEEn v s) := h.whenOpen (fun h => h.writeLnkCtl)

theorem execOEn {v : BitVec 32} (h : s.Sound) : KeepsSound (Machine.execOEn v s) := h.whenOpen (fun h => h.writeLnkCtl)

theorem execTwinEn {v : BitVec 32} (h : s.Sound) : KeepsSound (Machine.execTwinEn v s) := h.whenOpen (fun h => h.writeLnkCtl)

/-! ## Training and IDENT -/

theorem rehop {n : Nat} {waiting : List TxFlit} (h : s.Sound) : (s.rehop n waiting).Sound := by
  unfold State.rehop
  refine foldl (fun {s} x h => ?_) _ h
  split
  · exact h
  · exact h.putPort

theorem portFails {n : Nat} {l : LPort} (h : s.Sound) : (s.portFails n l).Sound := h.modLPort.latch.rehop

theorem execPortTrained {n lanes : Nat} (h : s.Sound) : KeepsSound (Machine.execPortTrained n lanes s) := by
  refine h.whenServing (fun {s} h => ?_)
  split
  · exact h
  · extract_lets s1
    have h1 : s1.Sound := of_ite h.portFails h
    exact of_ite h1.modLPort.sendIdent h

theorem identified {n node port map : Nat} (h : s.Sound) : (s.identified n node port map).Sound := by
  unfold State.identified
  extract_lets base s1
  have h1 : s1.Sound := h.modLPort
  split
  · exact h
  · exact of_ite (of_ite h.modLPort h1.latch.latch) h

theorem execIdent {n node port map : Nat} (h : s.Sound) : KeepsSound (Machine.execIdent n node port map s) := h.whenServing (fun h => h.identified)

/-! ## Flits and replay (R497 to R500, R507, R508) -/

theorem packetIn {n : Nat} {p : Packet} (h : s.Sound) : (s.packetIn n p).Sound := of_ite h.count h.launch

theorem takeFlit {n : Nat} {f : Flit} (h : s.Sound) : (s.takeFlit n f).Sound := by
  unfold State.takeFlit
  extract_lets s1
  have h1 : s1.Sound := h.modLPort
  split
  · exact h
  · exact sendEmpty (of_ite h1.packetIn h1)

theorem askReplay {n lseq : Nat} (h : s.Sound) : (s.askReplay n lseq).Sound := h.modLPort.count.sendEmpty

theorem replay {n lseq : Nat} (h : s.Sound) : (s.replay n lseq).Sound := by
  unfold State.replay
  split
  · exact h
  · extract_lets k s1
    have h1 : s1.Sound := h.modLPort
    split
    · exact h
    · exact of_ite h h1.emit

theorem execRetryReq {n lseq : Nat} (h : s.Sound) : KeepsSound (Machine.execRetryReq n lseq s) := h.whenServing (fun h => h.replay)

theorem control {n : Nat} {b : Bytes} (h : s.Sound) : (s.control n b).Sound := of_ite h.replay (of_ite h.identified h)

theorem execFlit {n : Nat} {f : Flit} (h : s.Sound) : KeepsSound (Machine.execFlit n f s) := by
  refine h.whenServing (fun {s} h => ?_)
  extract_lets s1 s2 s3 s4
  have h1 : s1.Sound := of_ite h.count h
  have h2 : s2.Sound := of_ite h1.count h1
  have h3 : s3.Sound := of_ite h2.count h2
  have h4 : s4.Sound := h3.modLPort.portGo
  split
  · exact h
  · split
    · exact h
    · exact of_ite h3.askReplay (of_ite h4.control (of_ite h4 (of_ite h4.takeFlit (of_ite h4 h4.askReplay))))

theorem execRetryBudgetExhausted {n : Nat} (h : s.Sound) : KeepsSound (Machine.execRetryBudgetExhausted n s) := by
  refine h.whenServing (fun {s} h => ?_)
  extract_lets d
  split
  · exact h
  · extract_lets s1
    have h1 : s1.Sound := h.portFails
    exact of_ite (of_ite h1.reportSuspect h1) h

/-! ## Forwarding (R502 to R506) -/

theorem execForward {inPort : Option Nat} {p : Packet} (h : s.Sound) : KeepsSound (Machine.execForward inPort p s) := by
  refine h.whenServing (fun {s} h => ?_)
  extract_lets s1
  have h1 : s1.Sound := of_ite h.count h
  split
  · exact of_ite h.count h
  · split
    · exact h
    · split
      · exact h
      · split
        · exact h.latch
        · exact h1.transmit

/-! ## OTP (R554) -/

theorem senseOtp (h : s.Sound) : s.senseOtp.Sound := foldl (fun _ h => h.log) _ h

/-! ## The mailbox (R562) -/

theorem mbFields {v : Nat} (h : s.Sound) : (s.mbFields v).Sound := h.setRegN

theorem mbRun {op : Nat} {v : BitVec 32} {f : Bytes → State → State} (h : s.Sound) (hf : ∀ {s : State} (x : Bytes), s.Sound → (f x s).Sound) :
    (s.mbRun op v f).Sound := by
  unfold State.mbRun
  extract_lets s1 n
  have h1 : s1.Sound := h.mbFields
  exact of_ite h (of_ite h1.mbEnd (hf _ h1))

theorem mbUnknown {v : BitVec 32} (h : s.Sound) : (s.mbUnknown v).Sound := h.mbFields.mbEnd

theorem execLogRead {v : LogReadIn} (h : s.Sound) : KeepsSound (Machine.execLogRead v s) :=
  h.mbRun (fun _ h => of_ite h.sramRead.declareLost (of_ite h.sramRead.mbEnd h.sramRead.mbEnd))

theorem execSensorRead {v : BitVec 32} (h : s.Sound) : KeepsSound (Machine.execSensorRead v s) := h.mbRun (fun _ h => of_ite h.mbEnd h.mbEnd)

theorem execOtpWrite {v : BitVec 32} {readBack : Bool} (h : s.Sound) : KeepsSound (Machine.execOtpWrite v readBack s) :=
  h.mbRun (fun _ h => of_ite h.mbEnd (of_ite h.mbEnd (of_ite h.mbEnd (of_ite h.mbEnd h.mgmt.mbEnd))))

theorem execDump {v : BitVec 32} (h : s.Sound) : KeepsSound (Machine.execDump v s) := by
  refine h.mbRun (fun {s} x h => ?_)
  split
  · rename_i x1 s1 he
    have h1 : s1.Sound := of_pair he h.writeDump
    exact h1
  · rename_i x1 st s1 x1' he
    have h1 : s1.Sound := of_pair he h.writeDump
    exact h1.mbEnd

theorem execShutdown {v : BitVec 32} (h : s.Sound) : KeepsSound (Machine.execShutdown v s) := h.mbRun (fun _ h => h.mbEnd.declareLost)

theorem execMbFence {v : BitVec 32} (h : s.Sound) : KeepsSound (Machine.execMbFence v s) :=
  h.mbRun (fun _ h => of_ite h.mbEnd (of_ite h.mbEnd (of_ite h.mbEnd.enterFencing h.mbEnd)))

theorem execSelftest {v : BitVec 32} {passed : Bool} (h : s.Sound) : KeepsSound (Machine.execSelftest v passed s) :=
  h.mbRun (fun _ h => of_ite h.mbEnd (of_ite h.mbEnd h.mbEnd.selfTest))

/-! ## MCTP bindings (R547) -/

theorem execMctpControl {pcie : Bool} {code eid : Nat} (h : s.Sound) : KeepsSound (Machine.execMctpControl pcie code eid s) :=
  h.onMctp (fun h => emit (of_ite h.setRegN h))

theorem execI3cDynamicAddress {addr : Nat} (h : s.Sound) : KeepsSound (Machine.execI3cDynamicAddress addr s) := of_ite h.setRegN h

theorem execSetEventReceiver {pcie : Bool} {eid : Nat} (h : s.Sound) : KeepsSound (Machine.execSetEventReceiver pcie eid s) := h.onMctp (fun h => h)

/-! ## PLDM -/

theorem execPldmSensorRead {pcie : Bool} {sensor : Option Nat} (h : s.Sound) : KeepsSound (Machine.execPldmSensorRead pcie sensor s) := by
  refine h.onMctp (fun {s} h => ?_)
  split
  · exact h.emit
  · exact of_ite h.emit h.emit

theorem execPldmShutdown {pcie : Bool} (h : s.Sound) : KeepsSound (Machine.execPldmShutdown pcie s) := h.onMctp (fun h => h.declareLost)

/-! ## Firmware (R551, R552) -/

theorem execRequestUpdate {pcie : Bool} (h : s.Sound) : KeepsSound (Machine.execRequestUpdate pcie s) :=
  h.onUpdate (fun h => of_ite h.emit h.mgmt.emit)

theorem execPassComponentTable {pcie : Bool} {comp : Nat} (h : s.Sound) : KeepsSound (Machine.execPassComponentTable pcie comp s) := by
  refine h.onUpdate (fun {s} h => ?_)
  extract_lets base
  split
  · exact h.emit
  · exact of_ite h.mgmt.emit h.emit

theorem execUpdateComponent {pcie : Bool} {comp : Nat} (h : s.Sound) : KeepsSound (Machine.execUpdateComponent pcie comp s) := by
  refine h.onUpdate (fun {s} h => ?_)
  extract_lets base
  split
  · exact h.emit
  · exact of_ite h.mgmt.emit h.emit

theorem fwVerify {c : Nat} {img : Bytes} (h : s.Sound) : (s.fwVerify c img).Sound := of_ite h (of_ite h h.mgmt.latch)

theorem execFirmwareDataReceived {pcie : Bool} {bytes : Bytes} {last : Bool} (h : s.Sound) :
    KeepsSound (Machine.execFirmwareDataReceived pcie bytes last s) := by
  refine h.onUpdate (fun {s} h => ?_)
  extract_lets base
  split
  · exact of_ite h.fwVerify.emit h
  · exact h

theorem execActivateFirmware {pcie : Bool} (h : s.Sound) : KeepsSound (Machine.execActivateFirmware pcie s) := h.onUpdate (fun h => h.mgmt.emit)

/-! ## SPDM (R553) -/

theorem execGetVersion {pcie : Bool} (h : s.Sound) : KeepsSound (Machine.execGetVersion pcie s) := h.onMctp (fun h => h.emit)

theorem execGetCapabilities {pcie : Bool} (h : s.Sound) : KeepsSound (Machine.execGetCapabilities pcie s) := h.onMctp (fun h => h.emit)

theorem execNegotiateAlgorithms {pcie p256 sha : Bool} (h : s.Sound) : KeepsSound (Machine.execNegotiateAlgorithms pcie p256 sha s) :=
  h.onMctp (fun h => h.mgmt.emit)

theorem execGetDigests {pcie : Bool} (h : s.Sound) : KeepsSound (Machine.execGetDigests pcie s) := h.onMctp (fun h => h.emit)

theorem execGetCertificate {pcie : Bool} {slot offset len : Nat} (h : s.Sound) : KeepsSound (Machine.execGetCertificate pcie slot offset len s) :=
  h.onMctp (fun h => of_ite h.emit h.emit)

theorem execChallenge {pcie : Bool} {slot : Nat} {nonce : Bytes} (h : s.Sound) : KeepsSound (Machine.execChallenge pcie slot nonce s) :=
  h.onMctp (fun h => of_ite h.emit h.emit)

theorem execGetMeasurements {pcie : Bool} {index : Nat} {nonce : Bytes} (h : s.Sound) : KeepsSound (Machine.execGetMeasurements pcie index nonce s) :=
  h.onMctp (fun h => of_ite h.emit h.emit)

/-! ## WORK (R47, R501) -/

theorem freeStale {u : MigUnit} {die : Nat} (h : s.Sound) : (s.freeStale u die).Sound := by
  unfold State.freeStale
  extract_lets gone s1
  have h1 : s1.Sound := h.dropRows.dropWings
  exact h1

theorem moveEnded {die : Nat} {u : MigUnit} (h : s.Sound) : (s.moveEnded die u).Sound := h.migs.freeStale

theorem flipped {die : Nat} {u : MigUnit} {c : DirChange} (h : s.Sound) : (s.flipped die u c).Sound := by
  unfold State.flipped
  extract_lets s1 waits
  have h1 : s1.Sound := of_ite h.applyDir h
  split
  · exact h1
  · exact of_ite h1.modMig.chorusAll h1

theorem reserveVersion {h v : Nat} (hs : s.Sound) : (s.reserveVersion h v).2.Sound := by
  unfold State.reserveVersion
  split
  · exact hs
  · split
    · exact hs
    · split
      · exact hs
      · split
        · exact hs
        · split
          · exact hs
          · exact hs.newVersion

theorem unreserve {h v : Nat} (hs : s.Sound) : (s.unreserve h v).Sound := of_ite hs.dropBuilding.killVersion hs

theorem takeDrop {w : WriteHdr} {h v : Nat} (hs : s.Sound) : (s.takeDrop w h v).2.Sound := by
  unfold State.takeDrop
  split
  · rename_i x st s1 he
    have h1 : s1.Sound := of_pair he hs.dropTable
    extract_lets dropped waits
    split
    · exact h1
    · exact h1.owe

theorem doWork {w : WriteHdr} {m : WorkMsg} (h : s.Sound) : (s.doWork w m).2.Sound := by
  unfold State.doWork
  extract_lets ok answers
  have hok : ∀ {s : State}, s.Sound → (ok s).2.Sound := by
    intro s h
    unfold ok
    exact h
  have hanswers : ∀ {r : Nat × State}, r.2.Sound → (answers r).2.Sound := by
    intro r h
    unfold answers
    exact h
  split
  · split
    · exact h
    · exact hok h.createTable
  · exact hok h.uncreate
  · exact hok h.setMismatch
  · exact hanswers h.reserveVersion
  · exact hok h.unreserve
  · exact hok h.setFallback
  · exact hok h.rowsArrived
  · split
    · exact hok h.beginCommit.commitLoads
    · exact h
  · exact hok h.modCommit.commitReady
  · exact hok h.commitGo
  · exact hok h.uncommit
  · exact h.takeDrop
  · exact hok h.undrop
  · exact hok h.dropFree
  · exact hok h.loseRow
  · exact hok h.retireDone
  · exact hok h.noteZero
  · exact hok h.modCommit
  · exact hanswers h.remotePin
  · exact hok (of_ite h.pinDone h)
  · exact hok h.startMove
  · exact hanswers h.takeMove
  · exact hok h.noteMove
  · exact hok h.beginCopy
  · exact hok h.landCopied
  · exact hok h
  · exact hok h.rowFailed
  · refine hok ?_
    split
    · exact of_ite h.chorusAll h
    · exact h
  · exact hok h.startDrain
  · exact hok h.landWelcome
  · exact hok h.flipped
  · exact hok h.moveEnded
  · refine hok ?_
    split
    · exact h.noteLow
    · exact h
  · exact hok h.takeReserve

theorem execWork {h : WriteHdr} {m : WorkMsg} (hs : s.Sound) : KeepsSound (Machine.execWork h m s) :=
  hs.whenServing (fun h => h.recvOwed (fun h => h.doWork))

/-! ## ACK (R217, R509) -/

theorem retireWrite {e : Pend} (h : s.Sound) : (s.retireWrite e).Sound := h

theorem flightDone {i stream : Nat} {seq : Word} {result : Nat} (h : s.Sound) : (s.flightDone i stream seq result).Sound := by
  unfold State.flightDone
  extract_lets s1
  have h1 : s1.Sound := h.modStrm
  exact of_ite h (of_ite h1.discard h1.modStrm)

theorem cmdAnswer {cmd : Option (Nat × Nat)} {body : Payload} {result : Nat} (h : s.Sound) : (s.cmdAnswer cmd body result).Sound := by
  unfold State.cmdAnswer
  split
  · exact h
  · split
    · exact h.settleCmd
    · split
      · exact h.settleCmd
      · exact h.cmdFails
      · exact of_ite h.endLoad h.endCmd

theorem startLoads {h v : Nat} (hs : s.Sound) : (s.startLoads h v).Sound := foldl (fun _ h => h.issueReads) _ hs

theorem rowsAnswered {e : Pend} {kind : RowsKind} {h : Nat} {l : List RowImage} {result : Nat} (hs : s.Sound) : (s.rowsAnswered e kind h l result).Sound := by
  unfold State.rowsAnswered
  split
  · exact of_ite hs (foldl (fun _ h => h.replicaRefused) _ hs)
  · exact foldl (fun _ h => h.noteRefilled) _ hs
  · exact hs

theorem creationFails {h row : Nat} {targets : List Nat} {pin : Bool} {status : Nat} (hs : s.Sound) : (s.creationFails h row targets pin status).Sound := by
  unfold State.creationFails
  extract_lets s1
  have h1 : s1.Sound := hs.giveUpCopy
  exact of_ite h1.pinFails h1

theorem owedResult {e : Pend} {result : Nat} (h : s.Sound) : (s.owedResult e result).Sound := h

theorem answered {e : Pend} {result : Nat} (h : s.Sound) : (s.answered e result).Sound := by
  unfold State.answered
  extract_lets base
  split
  · exact of_ite h h.pinDone
  · exact h.moveAnswered
  · exact of_ite h h.creationFails
  · exact of_ite h h
  · exact h.cmdAnswer.startLoads
  · exact h.cmdAnswer
  · split
    · exact settleDrops (of_ite h.rowsAcked.settleCmd h.cmdAnswer)
    · exact h.rowsAnswered.owedResult
  · exact h
  · split
    · exact h.modStrm
    · exact h
  · split
    · exact h.flightDone
    · exact h.owedResult
  · exact h

theorem workFails {e : Pend} {status : Nat} (h : s.Sound) : (s.workFails e status).Sound := by
  unfold State.workFails
  extract_lets s1
  have h1 : s1.Sound := h.retireWrite
  split
  · exact h1
  · exact h1
  · exact h1.answered

theorem drainAll {dst n : Nat} (h : s.Sound) : (s.drainAll dst n).Sound := by
  induction n generalizing s with
  | zero => exact h
  | succ n ih =>
    unfold State.drainAll
    split
    · exact h
    · split
      · rename_i s1 he
        have h1 : s1.Sound := of_pair he h.drain
        exact ih h1
      · rename_i e st s1 he
        have h1 : s1.Sound := of_pair he h.drain
        exact ih h1.workFails

theorem execAck {src tag gen result : Nat} (h : s.Sound) : KeepsSound (Machine.execAck src tag gen result s) := by
  refine h.whenServing (fun {s} h => ?_)
  extract_lets base
  split
  · exact h
  · split
    · exact h.count
    · extract_lets others s1
      have h_others : others.Sound := h
      have h1 : s1.Sound := h_others.answered.retireWrite
      exact h1.drainAll.settleOwed

/-! ## The end-to-end timeout (R216, R509) -/

theorem againTo {e : Pend} {dst : Nat} (h : s.Sound) : (s.againTo e dst).Sound := by
  unfold State.againTo
  extract_lets base p e2 old
  exact of_ite (h.post.link (by rfl)).count (h.post.link (by rfl)).count.workFails.settleOwed

theorem again {e : Pend} (h : s.Sound) : (s.again e).Sound := h.againTo

theorem retag {e : Pend} (h : s.Sound) : (s.retag e).Sound := by
  unfold State.retag
  split
  · split
    · exact h.modStrm
    · exact h
  · exact h

theorem dropDelta {e : Pend} (h : s.Sound) : (s.dropDelta e).Sound := by
  unfold State.dropDelta
  extract_lets base others
  have h_others : others.Sound := h
  exact h_others.answered.retireWrite.settleOwed

theorem againForward {e : Pend} {f : RowForward} {o : Owed} (h : s.Sound) : (s.againForward e f o).Sound := by
  unfold State.againForward
  extract_lets mine
  split
  · exact h.again
  · extract_lets s1 new
    have h1 : s1.Sound := of_ite h.again h.retireWrite
    exact (h1.sendForwards.link (by rfl)).settleOwed

theorem secondAttempt {e : Pend} (h : s.Sound) : (s.secondAttempt e).Sound := by
  unfold State.secondAttempt
  extract_lets owner
  split
  · split
    · exact h.again
    · split
      · exact h.dropDelta
      · exact of_ite h.retag.again h.retag.againTo
  · clear_value owner
    split
    · exact h.againForward
    · exact h.again
  · clear_value owner
    split
    · exact h.againForward
    · exact h.again
  · exact h.again

theorem secondTimeout {e : Pend} (h : s.Sound) : (s.secondTimeout e).Sound := by
  unfold State.secondTimeout
  extract_lets s1 base
  have h1 : s1.Sound := h.count
  split
  · exact h1.workFails.settleOwed
  · exact h1.retireWrite
  · exact (h1.link (by rfl)).reportSuspect

theorem execE2eTimeout {dst tag : Nat} (h : s.Sound) : KeepsSound (Machine.execE2eTimeout dst tag s) := by
  refine h.whenServing (fun {s} h => ?_)
  split
  · exact h
  · exact of_ite h (of_ite h.secondAttempt h.secondTimeout)

/-! ## LOST (R543, R544) -/

theorem partGone {e : Pend} (h : s.Sound) : (s.partGone e).Sound := by
  unfold State.partGone
  split
  · split
    · exact h.rowsGone.settleDrops
    · exact h
  · exact h.cmdAnswer.startLoads
  · exact h
  · exact h
  · exact h.cmdAnswer

theorem dropPackets {node : Nat} (h : s.Sound) : (s.dropPackets node).Sound := by
  unfold State.dropPackets
  extract_lets mine isDelta gone base s1
  have h1 : s1.Sound := h
  exact foldl (fun _ h => of_ite h.workFails h.retireWrite.partGone) _ h1

theorem dropMoves {node : Nat} (h : s.Sound) : (s.dropMoves node).Sound := by
  unfold State.dropMoves
  extract_lets x
  refine h.foldl (fun {s} x h => ?_) _
  extract_lets without
  have h_without : without.Sound := h
  split
  · exact of_ite h_without h_without.freeStale
  · split
    · exact h_without
    · split
      · exact h.endDrain
      · exact foldl (fun _ h => h.release) _ h.abortMove
      · exact h.abortMove

theorem promote {slot : Nat} {d : Dom} {node : Nat} (h : s.Sound) : (s.promote slot d node).Sound := by
  unfold State.promote
  extract_lets x hit s1
  have h1 : s1.Sound := by
    unfold s1
    refine h.foldl (fun {s} x h => ?_) _
    extract_lets e s11 s2
    have h11 : s11.Sound := of_ite h.putDir h
    have h2 : s2.Sound := of_ite h11.putDir h11
    exact of_ite h2.putDir h2
  exact h1.putDir.remirror

theorem pinAgain {r : RepJob} (h : s.Sound) : (s.pinAgain r).Sound := by
  unfold State.pinAgain
  split
  · exact h
  · exact of_ite h (of_ite h.leaderPin h.leaderPin.pinFails)

theorem dropCopies {node : Nat} (h : s.Sound) : (s.dropCopies node).Sound := by
  unfold State.dropCopies
  extract_lets gone s1 s2
  have h1 : s1.Sound := h
  have h2 : s2.Sound := h1
  exact foldl (fun _ h => foldl (fun _ h => h.write) _ h) _ h2

theorem dropCommits {node : Nat} (h : s.Sound) : (s.dropCommits node).Sound := foldl (fun _ h => of_ite (of_ite h h.commitGo) h.commitReady) _ h

theorem leaveDom {slot node : Nat} (h : s.Sound) : (s.leaveDom slot node).Sound := by
  unfold State.leaveDom
  split
  · exact h
  · extract_lets d1 s1
    have h1 : s1.Sound := h.modDom
    exact of_ite h (of_ite h1 h1.leaderChanged)

theorem loseMember {slot node : Nat} (h : s.Sound) : (s.loseMember slot node).Sound := by
  unfold State.loseMember
  split
  · exact h
  · exact of_ite h.promote h

theorem loseNode {node : Nat} (h : s.Sound) : (s.loseNode node).Sound := by
  unfold State.loseNode
  extract_lets base s1 a s2 s3 s4 s5
  have h1 : s1.Sound := h
  have h2 : s2.Sound := h1.setReg.latch
  have h3 : s3.Sound := foldl (fun _ h => h.leaveDom) _ h2
  have h4 : s4.Sound := h3.dropPackets.dropMoves.dropCopies.dropCommits
  have h5 : s5.Sound := foldl (fun _ h => h.loseMember) _ h4
  exact of_ite h (of_ite h1.dropPackets.settleOwed (settleOwed (foldl (fun _ h => h.pinAgain) _ h5)))

theorem execLost {h : WriteHdr} {node : Nat} (hs : s.Sound) : KeepsSound (Machine.execLost h node s) :=
  hs.whenServing (fun h => h.recvWrite (fun h => of_ite h.declareLost (of_ite h.declareNode h.loseNode)))

/-! ## Ports (R512, R513, R527) -/

theorem execNpFrame {p : Nat} {tag : Option Nat} {len : Nat} {fcsOk query : Bool} {target : Nat} {v6 : Bool} (h : s.Sound) :
    KeepsSound (Machine.execNpFrame p tag len fcsOk query target v6 s) :=
  h.whenServing (fun h => of_ite h (of_ite h.count (of_ite h.rxFrame.sendFrame h.rxFrame.dropFrame)))

theorem execPfcFrameReceived {p : Nat} {prios : BitVec 8} {quanta : List Nat} (h : s.Sound) : KeepsSound (Machine.execPfcFrameReceived p prios quanta s) :=
  h.whenServing (fun h => of_ite h (h.rxFrame.count.net (by rfl) (by rfl)).resumeFrames)

/-! ## Connections (R514, R528) -/

theorem writeRoceCfg {a : Access} (h : s.Sound) : (State.writeRoceCfg a s).Sound := by
  unfold State.writeRoceCfg
  extract_lets c r v s1
  have h1 : s1.Sound := of_ite h h.latch
  exact of_ite (of_ite h1 (h1.roceEnds _).modRoce) h.modRoce

theorem execRoceValidWrite {a : Access} (h : s.Sound) : KeepsSound (Machine.execRoceValidWrite a s) :=
  h.whenOn (fun h => h.byWords (fun _ h => h.writeRoceCfg))

theorem roceGo {c : Nat} (h : s.Sound) : (s.roceGo c).Sound := foldl (fun _ h => h.issueReads) _ h

theorem execRoceReadResponse {c psn : Nat} {rows : List RowImage} (h : s.Sound) : KeepsSound (Machine.execRoceReadResponse c psn rows s) := by
  refine h.whenServing (fun {s} h => ?_)
  extract_lets r
  split
  · exact h
  · exact of_ite h h.modRoce.loadImages.roceGo

theorem execRoceAcknowledgement {c psn : Nat} (h : s.Sound) : KeepsSound (Machine.execRoceAcknowledgement c psn s) := by
  refine h.whenServing (fun {s} h => ?_)
  extract_lets r
  split
  · exact h
  · extract_lets left s1 base
    have h1 : s1.Sound := h.modRoce
    exact of_ite h (of_ite h1.mgmt.mbEnd h1)

theorem execRoceAckTimeout {c : Nat} (h : s.Sound) : KeepsSound (Machine.execRoceAckTimeout c s) := by
  refine h.whenServing (fun {s} h => ?_)
  extract_lets r
  split
  · exact h
  · exact of_ite h (of_ite (h.roceError _ _) h.modRoce.sendPrio)

theorem execRoceNak {c : Nat} (h : s.Sound) : KeepsSound (Machine.execRoceNak c s) := h.whenServing (fun h => h.roceError _ _)

theorem execCongestionNotification {c : Nat} (h : s.Sound) : KeepsSound (Machine.execCongestionNotification c s) :=
  h.whenServing (fun h => of_ite h.modRoce h)

theorem execRoceRateRecovery {c : Nat} (h : s.Sound) : KeepsSound (Machine.execRoceRateRecovery c s) :=
  h.whenServing (fun h => of_ite h.modRoce h)

/-! ## Links (R525, R527) -/

theorem execNpLinkUp {p : Nat} (h : s.Sound) : KeepsSound (Machine.execNpLinkUp p s) := by
  unfold Machine.execNpLinkUp
  show State.Sound _
  extract_lets base
  exact of_ite (of_shape h.mem { h.shape with nports := (List.length_modify ..).trans h.shape.nports }) h

theorem execNpLinkDown {p : Nat} (h : s.Sound) : KeepsSound (Machine.execNpLinkDown p s) := by
  unfold Machine.execNpLinkDown
  show State.Sound _
  extract_lets base s1
  have h1 : s1.Sound := of_shape h.mem { h.shape with nports := (List.length_modify ..).trans h.shape.nports }
  exact of_ite (latch (foldl (fun _ h => of_ite (h.roceError _ _) h) _ h1)) h

end State.Sound

end Sys2Proof.Machine

/-! That the functions of the model leave the part sound (O9), one lemma for each function that answers a state, in the order of the
model: resets, time, the BAR accesses and a step. -/

namespace Sys2Proof.Machine

namespace State.Sound

variable {s : State}

/-! ## What a reset releases (R447, R481) -/

theorem releaseAll (h : s.Sound) : s.releaseAll.Sound := by
  unfold State.releaseAll
  extract_lets s1 base
  have h1 : s1.Sound := h.dropContexts
  exact of_shape h1.mem { h1.shape with slots := (List.length_map ..).trans h1.shape.slots }

/-! ## Cold reset (R572) -/

theorem cold {powered : Bool} : (s.cold powered).Sound := reset

theorem execRstNLow : KeepsSound (Machine.execRstNLow s) := cold

theorem execRailsFall : KeepsSound (Machine.execRailsFall s) := cold

theorem rasCfg (h : s.Sound) : s.rasCfg.Sound := h.setRegN

theorem fenceNamed (h : s.Sound) : s.fenceNamed.Sound := foldl (fun _ h => of_ite h.enterFencing h) _ h

theorem execRstNRises {straps : BitVec 12} {flash : Bytes} {goodFirst goodOther : List Bool} (h : s.Sound) :
    KeepsSound (Machine.execRstNRises straps flash goodFirst goodOther s) := by
  unfold Machine.execRstNRises
  show State.Sound _
  extract_lets base s1 s2 base1 boot s3 s4 base2 fell s5 base3
  have h1 : s1.Sound := h
  have h2 : s2.Sound := h1.senseOtp
  have h3 : s3.Sound := h2.rasCfg
  have h4 : s4.Sound := h3
  have h5 : s5.Sound := foldl (fun _ h => h.log) _ h4
  exact of_ite h (of_ite h2 (of_ite h4 h5.pwr.fenceNamed))

theorem execReady (h : s.Sound) : KeepsSound (Machine.execReady s) := by
  obtain ⟨hregs, -, hscr⟩ := (State.memOk_iff s).mp h.mem
  exact of_ite (of_shape ((State.memOk_iff _).mpr ⟨hregs, rfl, hscr⟩) { h.shape with hstate := List.length_replicate }) h

/-! ## Warm reset (R570, R571) -/

theorem abortMoves (h : s.Sound) : s.abortMoves.Sound := foldl (fun _ h => foldl (fun _ h => h.release) _ h.abortMove) _ h

theorem homeless (h : s.Sound) : s.homeless.Sound := by
  unfold State.homeless
  extract_lets mine s1
  have h1 : s1.Sound := by
    unfold s1
    refine h.foldl (fun {s} x h => ?_) _
    split
    · exact h
    · exact of_ite h (foldl (fun _ h => foldl (fun _ h => of_ite h.setBentry h) _ h) _ h.modDom)
  clear_value s1
  exact of_shape h1.mem { h1.shape with dirs := (List.length_map ..).trans h1.shape.dirs }

theorem endPins (h : s.Sound) : s.endPins.Sound := foldl (fun _ h => h.write) _ h

theorem warmStart (h : s.Sound) : s.warmStart.Sound := by
  unfold State.warmStart
  extract_lets s1 s2 pwr fport mem link ras mgmt
  have h1 : s1.Sound := h.abortMoves.endPins.releaseAll.stopLoads
  have h2 : s2.Sound := of_ite h1.homeless h1
  obtain ⟨hregs, hhbm, hscr⟩ := (State.memOk_iff s2).mp h2.mem
  clear_value s2
  refine of_shape ((State.memOk_iff _).mpr ⟨wf_filter hregs, hhbm, hscr⟩) { h2.shape with
    gpes := (List.length_map ..).trans h2.shape.gpes
    fports := rfl
    strms := (List.length_mapIdx ..).trans h2.shape.strms
    clusters := (List.length_map ..).trans List.length_range
    hstate := List.length_replicate
    lports := reset.shape.lports
    nports := List.length_replicate
    roce := (List.length_map ..).trans h2.shape.roce }

theorem warmRequest (h : s.Sound) : s.warmRequest.Sound := of_ite h (of_ite h h.warmStart)

theorem execWarmReset {v : BitVec 32} (h : s.Sound) : KeepsSound (Machine.execWarmReset v s) := h.whenOpen (fun h => of_ite h.warmRequest h)

theorem execPldmReset {pcie : Bool} (h : s.Sound) : KeepsSound (Machine.execPldmReset pcie s) := h.onMctp (fun h => h.warmRequest)

theorem activate {c : Nat} (h : s.Sound) : (s.activate c).Sound := of_ite h h.mgmt.log

theorem execWarmResetDone (h : s.Sound) : KeepsSound (Machine.execWarmResetDone s) := by
  unfold Machine.execWarmResetDone
  show State.Sound _
  extract_lets s1 ctl base base1 base2 s2 base3 base4
  have h1 : s1.Sound := foldl (fun _ h => h.activate) _ h
  have h2 : s2.Sound := of_shape h1.mem { h1.shape with hstate := (List.length_map ..).trans h1.shape.hstate }
  exact of_ite h (h2.link (List.length_mapIdx ..)).fenceNamed

/-! ## Function-level reset (R570, R571) -/

theorem functionReset {p : Nat} {perst : Bool} (h : s.Sound) : (s.functionReset p perst).Sound := of_ite h.modHPort.latch h.modHPort

theorem execFunctionLevelReset {p : Nat} {perst : Bool} (h : s.Sound) : KeepsSound (Machine.execFunctionLevelReset p perst s) := by
  unfold Machine.execFunctionLevelReset
  show State.Sound _
  extract_lets s1 base s11 base1
  have h1 : s1.Sound := h.functionReset
  have h11 : s11.Sound := h.releaseAll.stopLoads.functionReset
  exact of_ite h (of_ite h1 h11)

theorem execFlrDone (h : s.Sound) : KeepsSound (Machine.execFlrDone s) := of_ite h (of_ite h.pwr.warmStart h)

/-! ## Rails, heat, power and the throttle input (R569, R581) -/

theorem execRailFault {rail : Nat} (h : s.Sound) : KeepsSound (Machine.execRailFault rail s) := of_ite h.declareLost h

theorem execSensorUpdate {sensor : Nat} {value : Int} (h : s.Sound) : KeepsSound (Machine.execSensorUpdate sensor value s) := of_ite h h

theorem execOverTemperature {sensor : Nat} (h : s.Sound) : KeepsSound (Machine.execOverTemperature sensor s) :=
  of_ite h (of_ite h.declareLost (of_ite h.declareLost h))

theorem execPowerLimit (h : s.Sound) : KeepsSound (Machine.execPowerLimit s) := of_ite h h

theorem execThrottleN {high : Bool} (h : s.Sound) : KeepsSound (Machine.execThrottleN high s) := of_ite h h

theorem execThrottleShutdown (h : s.Sound) : KeepsSound (Machine.execThrottleShutdown s) := of_ite h.declareLost h

/-! ## Time (R515 to R522, R529) -/

theorem lead (h : s.Sound) : s.lead.Sound := foldl (fun _ h => h.tell) _ (of_ite h.time.latch h)

theorem standbyLock (h : s.Sound) : s.standbyLock.Sound := h

theorem setMark {base : Word} {jump : Bool} (h : s.Sound) : (s.setMark base jump).Sound := h

theorem atMarker (h : s.Sound) : s.atMarker.Sound := by
  unfold State.atMarker
  extract_lets s1 base
  have h1 : s1.Sound := h.setMark
  split
  · extract_lets s11 base1
    have h11 : s11.Sound := h.setMark
    exact of_ite h11 h.setMark.latch
  · exact of_ite h.setMark h1.time.latch

theorem execMarker {periods : Nat} (h : s.Sound) : KeepsSound (Machine.execMarker periods s) := by
  unfold Machine.execMarker
  show State.Sound _
  extract_lets s1
  have h1 : s1.Sound := h.atMarker
  exact of_ite h (of_ite h.latch (of_ite h1.lead (of_ite h1.standbyLock h1)))

theorem execRefclkLost (h : s.Sound) : KeepsSound (Machine.execRefclkLost s) := of_ite h h.time.latch.declareLost

theorem execTimeUpdate {src marker : Nat} {gtime inc : Word} {state : Nat} (h : s.Sound) : KeepsSound (Machine.execTimeUpdate src marker gtime inc state s) :=
  h.whenServing (fun h => of_ite h (of_ite h h))

theorem execUpdateRequest (h : s.Sound) : KeepsSound (Machine.execUpdateRequest s) := h.whenServing (fun h => of_ite h.tell h)

theorem execStandbyTakeover {candidates : List Nat} (h : s.Sound) : KeepsSound (Machine.execStandbyTakeover candidates s) := by
  refine h.whenServing (fun {s} h => ?_)
  extract_lets own live base
  split
  · exact h
  · split
    · exact h
    · exact of_ite h.time.latch.lead h.time.latch

theorem execPtpMessage {p : Nat} {sync : Bool} {t : Option PtpTimes} (h : s.Sound) : KeepsSound (Machine.execPtpMessage p sync t s) := by
  refine h.whenServing (fun {s} h => ?_)
  extract_lets s1 base s11 base1 s2
  have h1 : s1.Sound := h.rxFrame
  have h11 : s11.Sound := of_ite h1 h1
  have h2 : s2.Sound := by
    unfold s2
    split
    · exact h11
    · exact h11
  exact of_ite h (of_ite h.rxFrame.count (of_ite h.rxFrame (of_ite h2.sendFrame h2)))

theorem execHoldover (h : s.Sound) : KeepsSound (Machine.execHoldover s) :=
  h.whenServing (fun h => of_ite (of_ite h.time.latch.latch h) h)

theorem tick (h : s.Sound) : s.tick.Sound := of_ite h (of_ite h h)

theorem writeTimeCtl {v : Nat} (h : s.Sound) : (s.writeTimeCtl v).Sound := h.setRegN

/-! ## A plain write (R9 to R11) -/

theorem unmask {v : Nat} (h : s.Sound) : (s.unmask v).Sound := of_ite h.setReg.emit h

theorem plainWrite {r : RegRow} {a hi v : Nat} (h : s.Sound) : (s.plainWrite r a hi v).Sound := by
  unfold State.plainWrite
  extract_lets old new s1
  have h1 : s1.Sound := h.setEvent
  exact of_ite h.latch (of_ite h.setRegN.latch (of_ite h1.unmask h1))

theorem writeRoce {a hi v : Nat} (h : s.Sound) : (s.writeRoce a hi v).Sound := of_ite h.latch h.modRoce

/-! ## Writes that have a row of their own -/

theorem after {o : Outcome State Fault Refusal} (h : s.Sound) (ho : KeepsSound o) : (Machine.after o s).Sound := by
  unfold Machine.after
  split
  · exact ho
  · exact h
  · exact h

theorem writeMb {v : BitVec 32} (h : s.Sound) : (s.writeMb v).Sound := by
  unfold State.writeMb
  split
  · exact h
  · split
    · exact h.mbFields
    · split
      · exact h.after h.execLogRead
      · exact h.after h.execSensorRead
      · exact h.after h.free.execOtpWrite
      · exact h.after h.execDump
      · exact h.after h.execShutdown
      · exact h.after h.execMbFence
      · exact h.after h.free.execSelftest
      · exact h.mbUnknown

theorem writePin {v : BitVec 32} (h : s.Sound) : (s.writePin v).Sound := by
  unfold State.writePin
  split
  · exact h.after h.execPinReplicate
  · exact h.after h.execPinHold
  · exact h.after h.execUnpin
  · exact h

theorem ownWrite {a : Nat} {v : BitVec 32} (h : s.Sound) : SoundOpt (s.ownWrite a v) :=
  opt_ite (h.after h.execWarmReset) <| opt_ite (h.after h.execHstHdmWrite) <| opt_ite (h.after h.execQueueEnWritten) <| opt_ite (h.after h.execTblHeapWrite) <|
    opt_ite (h.after h.execReplicaReserveLowered) <| opt_ite h.writePin <| opt_ite (h.after h.execWingsEnable) <| opt_ite (h.after h.execFeedEn) <|
    opt_ite (h.after h.execPairReqGo) <| opt_ite (h.after h.execLnkNodeWrite) <| opt_ite (h.after h.execLnkTopoWrite) <| opt_ite (h.after h.execEEn) <|
    opt_ite h.writeTimeCtl <| opt_ite h.writeMb trivial

theorem accessWrite {a : Access} (h : s.Sound) : SoundOpt (s.accessWrite a) := by
  unfold State.accessWrite
  split
  · exact h.after h.execPlcDomCfgWrite
  · split
    · exact h.after h.execPlcDomMembersWrite
    · split
      · exact h.after h.execFeedSkidWrite
      · split
        · exact h.after h.execFeedStrmCfgWrite
        · split
          · exact h.after h.execCueBindWrite
          · split
            · exact h.after h.execRoceValidWrite
            · split
              · exact h.after h.execQueueConfigWrite
              · exact trivial

theorem writeWord {a : Nat} {v : BitVec 32} (h : s.Sound) : (s.writeWord a v).Sound := by
  unfold State.writeWord
  split
  · exact h
  · split
    · rename_i x s1 he
      exact of_some he h.ownWrite
    · exact of_ite h.writeRoce (of_ite h h.plainWrite)

theorem writeAccess {a : Access} (h : s.Sound) : (s.writeAccess a).Sound := by
  unfold State.writeAccess
  extract_lets w s1
  have h1 : s1.Sound := h.writeWord
  split
  · rename_i x s11 he
    exact of_some he h.accessWrite
  · exact of_ite h1.writeWord h1

theorem execRegisterWrite {a : Access} (h : s.Sound) : KeepsSound (Machine.execRegisterWrite a s) := h.whenOpen (fun h => of_ite h.writeAccess h)

/-! ## Refused accesses (R6, R8, R558, R573) -/

theorem answerZero {write : Bool} (h : s.Sound) : (s.answerZero write).Sound := of_ite h h.emit

theorem execRefusedAccess {write : Bool} {a : Access} (h : s.Sound) : KeepsSound (Machine.execRefusedAccess write a s) := by
  unfold Machine.execRefusedAccess
  show State.Sound _
  extract_lets s1 s2
  have h1 : s1.Sound := h.latch
  have h2 : s2.Sound := of_ite h1 h1.setRegN
  exact of_ite h (of_ite (of_ite h.answerZero h) h2.answerZero)

/-! ## Scratch apertures and windows (R385, R386, R533) -/

theorem windowWrite {m : Nat} {a : Access} {off : Nat} (h : s.Sound) : (s.windowWrite m a off).Sound := of_ite h.scrWrite h.writeAccess

theorem windowRead {m size off : Nat} {ecc : GranuleHealth} (h : s.Sound) : (s.windowRead m size off ecc).Sound := by
  unfold State.windowRead
  extract_lets o ones
  split
  · exact h.latch.emit
  · split
    · exact h.scratchBadWord.emit
    · exact h.sramCorrected.emit
    · exact h.emit

theorem execScratchApertureAccess {write : Bool} {a : Access} {ecc : GranuleHealth} (h : s.Sound) :
    KeepsSound (Machine.execScratchApertureAccess write a ecc s) := by
  unfold Machine.execScratchApertureAccess
  extract_lets off
  show State.Sound _
  split
  · exact h
  · split
    · exact h
    · split
      · exact of_ite h.answerZero h
      · split
        · exact h.answerZero
        · exact of_ite h.windowWrite h.windowRead

theorem writeEach {l : List Nat} {a : Access} {off : Nat} (h : s.Sound) : (s.writeEach l a off).Sound := foldl (fun _ h => h.windowWrite) _ h

theorem execChorusWindowWrite {a : Access} (h : s.Sound) : KeepsSound (Machine.execChorusWindowWrite a s) := by
  unfold Machine.execChorusWindowWrite
  extract_lets off
  exact h.whenOpen (fun h => of_ite h h.writeEach)

theorem execGroupWindowWrite {a : Access} (h : s.Sound) : KeepsSound (Machine.execGroupWindowWrite a s) := by
  unfold Machine.execGroupWindowWrite
  extract_lets off g
  exact h.whenOpen (fun h => of_ite h (of_ite h.writeAccess h.writeEach))

/-! ## Every command -/

theorem exec {i : Instr} (h : s.Sound) : KeepsSound (Machine.exec i s) := by
  unfold Machine.exec
  split
  · exact h.execRegisterWrite
  · exact h.execRefusedAccess
  · exact h.execEdgeFailed
  · exact h.execParityFailure
  · exact h.execTblHeapWrite
  · exact h.execTblCreate
  · exact h.execTblLoad
  · exact h.execTblCommit
  · exact h.execTblDrop
  · exact h.execCommitInstantReached
  · exact h.execCommitComplete
  · exact h.execVersionFreed
  · exact h.execWork
  · exact h.execGather
  · exact h.execPool
  · exact h.execPoolReq
  · exact h.execGranuleIn
  · exact h.execSketchDecay
  · exact h.execPartial
  · exact h.execCombinePartial
  · exact h.execCombineWindowExpires
  · exact h.execPoolTimeout
  · exact h.execCancelAtGpe
  · exact h.execAbandonedOpNumberFreed
  · exact h.execWingsEnable
  · exact h.execInvalidateAll
  · exact h.execWingsStopped
  · exact h.execWingsStarted
  · exact h.execInvalidateSweepEnds
  · exact h.execPlcDomCfgWrite
  · exact h.execPlcDomMembersWrite
  · exact h.execHotPeriod
  · exact h.execReplicaCopyConfirmed
  · exact h.execReplicaReserveLowered
  · exact h.execBalanceCheck
  · exact h.execCopyConfirmed
  · exact h.execFlip
  · exact h.execHoldTimerExpires
  · exact h.execFlipAcknowledged
  · exact h.execEpochAdvance
  · exact h.execLowWaterReport
  · exact h.execRemirrorRetry
  · exact h.execRejoin
  · exact h.execPlaceLaunch
  · exact h.execPinReplicate
  · exact h.execPinHold
  · exact h.execUnpin
  · exact h.execPinComplete
  · exact h.execData
  · exact h.execResync
  · exact h.execRecordIngested
  · exact h.execXoffRepeat
  · exact h.execGapDeclaredLost
  · exact h.execSendAck
  · exact h.execSendNack
  · exact h.execDeltaApply
  · exact h.execDeltaForward
  · exact h.execAck
  · exact h.execMarkComplete
  · exact h.execTwinRecord
  · exact h.execPairLinkLost
  · exact h.execPairReqGo
  · exact h.execTicketProposal
  · exact h.execTicketAccepted
  · exact h.execTicketTimeout
  · exact h.execTicketExpired
  · exact h.execPairReport
  · exact h.execPairReportTimeout
  · exact h.execFeedEn
  · exact h.execFeedStopped
  · exact h.execFeedStarted
  · exact h.execFeedSkidWrite
  · exact h.execFeedStrmCfgWrite
  · exact h.execQdelayRead
  · exact h.execRowsPacket
  · exact h.execChorusWrite
  · exact h.execRows
  · exact h.execMma
  · exact h.execConv1
  · exact h.execEwa
  · exact h.execDrain
  · exact h.execResidueCheckFails
  · exact h.execVchain
  · exact h.execVred
  · exact h.execVcvt
  · exact h.execSfn
  · exact h.execSmaxM
  · exact h.execSmaxE
  · exact h.execSmaxD
  · exact h.execNormS
  · exact h.execNormF
  · exact h.execVectorCheckFails
  · exact h.execTransferCheckFails
  · exact h.execGpeCheckFails
  · exact h.execEngineInstructionEnds
  · exact h.execAdd
  · exact h.execSub
  · exact h.execMul
  · exact h.execAnd
  · exact h.execOr
  · exact h.execXor
  · exact h.execShl
  · exact h.execShr
  · exact h.execCmp
  · exact h.execSel
  · exact h.execLi
  · exact h.execLd
  · exact h.execSt
  · exact h.execBr
  · exact h.execBrc
  · exact h.execCall
  · exact h.execRet
  · exact h.execLoop
  · exact h.execTdef
  · exact h.execTset
  · exact h.execTadv
  · exact h.execTbind
  · exact h.execMove
  · exact h.execTransferRunComplete
  · exact h.execChorus
  · exact h.execAtom
  · exact h.execRacq
  · exact h.execRpub
  · exact h.execRrel
  · exact h.execCurtain
  · exact h.execWaitt
  · exact h.execDlchk
  · exact h.execSlotDue
  · exact h.execStallDeclared
  · exact h.execSafe
  · exact h.execYield
  · exact h.execFence
  · exact h.execTrap
  · exact h.execExit
  · exact h.execCancel
  · exact h.execIcacheMissFill
  · exact h.execScratchApertureAccess
  · exact h.execChorusWindowWrite
  · exact h.execGroupWindowWrite
  · exact h.execQueueEnWritten
  · exact h.execQueueStarted
  · exact h.execQueueConfigWrite
  · exact h.execSqDb
  · exact h.execCqDb
  · exact h.execDoorbellAccessDropped
  · exact h.execEntryFetched
  · exact h.execEntryReread
  · exact h.execLaunch
  · exact h.execLaunchStarts
  · exact h.execSegmentDelivered
  · exact h.execCopy
  · exact h.execQueueFence
  · exact h.execQuery
  · exact h.execNop
  · exact h.execUnassignedOpcode
  · exact h.execScriptLoad
  · exact h.execScriptPatch
  · exact h.execScriptDrop
  · exact h.execCompletionRecord
  · exact h.execIntmodTimer
  · exact h.execCueRequest
  · exact h.execReassemblyTimeout
  · exact h.execMessageNameExpires
  · exact h.execCueReply
  · exact h.execCueBindWrite
  · exact h.execDeadlineReached
  · exact h.execUnderstudyStart
  · exact h.execDestroyRecord
  · exact h.execHostLinkUp
  · exact h.execHostLinkDown
  · exact h.execHdmDecoderCommit
  · exact h.execHstHdmWrite
  · exact h.execAtsCompletion
  · exact h.execAtsTimeout
  · exact h.execPageRequestResponse
  · exact h.execPriTimeout
  · exact h.execInvalidateRequest
  · exact h.execInvalidateCompletion
  · exact h.execHostSnoop
  · exact h.execCxlMemAccess
  · exact h.execBisnpComplete
  · exact h.execPatrolScrub
  · exact h.execStackFailed
  · exact h.execPortTrained
  · exact h.execIdent
  · exact h.execFlit
  · exact h.execRetryReq
  · exact h.execRetryBudgetExhausted
  · exact h.execForward
  · exact h.execE2eTimeout
  · exact h.execLnkNodeWrite
  · exact h.execLnkTopoWrite
  · exact h.execEEn
  · exact h.execOEn
  · exact h.execTwinEn
  · exact h.execNpFrame
  · exact h.execPfcFrameReceived
  · exact h.execNpLinkDown
  · exact h.execRoceValidWrite
  · exact h.execRoceReadResponse
  · exact h.execRoceAckTimeout
  · exact h.execRoceNak
  · exact h.execCongestionNotification
  · exact h.execRoceRateRecovery
  · exact h.execMarker
  · exact h.execRefclkLost
  · exact h.execTimeUpdate
  · exact h.execUpdateRequest
  · exact h.execStandbyTakeover
  · exact h.execPtpMessage
  · exact h.execHoldover
  · exact h.execSelfTestInterval
  · exact h.execUnitFenced
  · exact h.execWatchListExpiry
  · exact h.execSuspect
  · exact h.execProbe
  · exact h.execProbeTimeout
  · exact h.execSuspectReportTimeout
  · exact h.execLost
  · exact h.execWatchdogExpired
  · exact h.execLogRead
  · exact h.execSensorRead
  · exact h.execOtpWrite
  · exact h.execDump
  · exact h.execShutdown
  · exact h.execMbFence
  · exact h.execSelftest
  · exact h.execMctpControl
  · exact h.execPldmSensorRead
  · exact h.execPldmShutdown
  · exact h.execPldmReset
  · exact h.execRequestUpdate
  · exact h.execPassComponentTable
  · exact h.execUpdateComponent
  · exact h.execFirmwareDataReceived
  · exact h.execActivateFirmware
  · exact h.execGetVersion
  · exact h.execGetCapabilities
  · exact h.execNegotiateAlgorithms
  · exact h.execGetDigests
  · exact h.execGetCertificate
  · exact h.execChallenge
  · exact h.execGetMeasurements
  · exact execRstNLow
  · exact h.execRstNRises
  · exact h.execReady
  · exact h.execWarmReset
  · exact h.execWarmResetDone
  · exact h.execFunctionLevelReset
  · exact h.execFlrDone
  · exact h.execRailFault
  · exact execRailsFall
  · exact h.execSensorUpdate
  · exact h.execOverTemperature
  · exact h.execPowerLimit
  · exact h.execThrottleN
  · exact h.execThrottleShutdown
  · exact h.execPasidAtsPriEnable
  · exact h.execNpLinkUp
  · exact h.execRoceAcknowledgement
  · exact h.execBulkEngineReadData
  · exact h.execGlobalPersistentFlush
  · exact h.execProbeAnswer
  · exact h.execSetEventReceiver
  · exact h.execI3cDynamicAddress

/-! ## Spines (R30, R33, R34, R36) -/

theorem nocEnter (h : s.Sound) : s.nocEnter.Sound := h

theorem comesOut {x : Parcel} (h : s.Sound) : (s.comesOut x).Sound := by
  unfold State.comesOut
  split
  · split
    · exact h.putPort
    · split
      · exact h.putPort
      · exact h
  · split
    · split
      · exact h
      · exact h
    · split
      · exact h.modGpe
      · exact h

theorem nocMove {g : (Nat × Nat) × (Nat × Nat × Nat) × Flying} (h : s.Sound) : (s.nocMove g).Sound := by
  unfold State.nocMove
  extract_lets base
  split
  · exact of_ite h (h.link (by rfl)).comesOut

/-! ## The owner side of a GPE (R30, R92) -/

theorem ownerTurn {die : Nat} (h : s.Sound) : (s.ownerTurn die).Sound := by
  unfold State.ownerTurn
  split
  · exact h
  · exact h.modGpe

theorem netTick (h : s.Sound) : s.netTick.Sound := by
  unfold State.netTick
  extract_lets s1
  have h1 : s1.Sound := h.nocEnter
  exact of_ite h (foldl (fun _ h => h.ownerTurn) _ (foldl (fun _ h => h.nocMove) _ h1))

/-! ## A step -/

theorem step (h : s.Sound) : KeepsSound (Machine.step s) := by
  unfold Machine.step
  split
  · exact h.tick.netTick.resumeFrames.stallTick
  · exact h.pending.exec

end State.Sound

/-- Settles O9: every function of the model that answers a state leaves it sound, so every command does, and a step runs one or is a tick. -/
theorem stepKeepsSound : Obligations.StepKeepsSound := by
  unfold Obligations.StepKeepsSound
  intro s t hs hstep
  have h : KeepsSound (step s) := hs.step
  rw [hstep] at h
  exact h

end Sys2Proof.Machine
